-- ==== Sys2Proof/Word.lean ====
section
/-! DEFINITION. The words of the Borhinu and the identifiers of Table 1-6 (spec/01_architecture.md R18). -/

namespace Sys2Proof

/-- One byte of memory, scratch, a ring or a message. -/
abbrev Byte := BitVec 8
/-- A treadle register, a system register, a 64-bit card. -/
abbrev W64 := BitVec 64
/-- A 32-bit lane, accumulator container or card. -/
abbrev W32 := BitVec 32
/-- One 64-byte sector: byte k in bits [8k+7:8k] (R4). -/
abbrev Sector := BitVec 512
/-- One 256-byte line: sector k in bits [512k+511:512k] (R144). -/
abbrev Line := BitVec 2048

abbrev LoomId := BitVec 12
abbrev TileId := BitVec 6
abbrev HeadId := BitVec 4
abbrev WingId := BitVec 4
abbrev QueueId := BitVec 9
abbrev RegionId := BitVec 12
abbrev PortId := BitVec 4
abbrev PeerId := BitVec 3
abbrev MDie := BitVec 2
abbrev XDie := BitVec 2
abbrev StackId := BitVec 4
abbrev SrcId := BitVec 10
/-- A treadle or reed register number. -/
abbrev Reg := BitVec 5
/-- A tally number (R93). -/
abbrev Tally := BitVec 6

end Sys2Proof
end

