-- ==== Sys2Proof/Machine/Fmap.lean ====
section
/-! DEFINITION. Sparse tables kept as plain lists: `Fmap` (keyed state of replicated units) and `Memory`
(bytes by address in one canonical form: addresses strictly rising, no entry equal to the byte that an
unlisted address reads as). -/

namespace Sys2Proof

/-- A sparse table from numbers; an unlisted key reads as the default its reader names. -/
abbrev Fmap (α : Type) := List (Nat × α)

/-- The entry of a key, or the default. -/
def Fmap.get {α : Type} (d : α) : Fmap α → Nat → α
  | [], _ => d
  | (k, v) :: m, i => if i = k then v else Fmap.get d m i

/-- The entry of a key, if it is listed. -/
def Fmap.find {α : Type} : Fmap α → Nat → Option α
  | [], _ => none
  | (k, v) :: m, i => if i = k then some v else Fmap.find m i

/-- Sets the entry of a key, keeping keys in rising order. -/
def Fmap.put {α : Type} : Fmap α → Nat → α → Fmap α
  | [], i, v => [(i, v)]
  | (k, w) :: m, i, v =>
    if i < k then (i, v) :: (k, w) :: m
    else if i = k then (i, v) :: m
    else (k, w) :: Fmap.put m i v

/-- Removes a key: it reads as the default again. -/
def Fmap.del {α : Type} (m : Fmap α) (i : Nat) : Fmap α := m.filter (fun c => c.1 != i)

/-- Applies a function to every listed entry. -/
def Fmap.mapAll {α : Type} (f : Nat → α → α) (m : Fmap α) : Fmap α := m.map (fun c => (c.1, f c.1 c.2))

/-- The listed keys. -/
def Fmap.keys {α : Type} (m : Fmap α) : List Nat := m.map (·.1)

/-- Bytes by address (Host.Cell pairs). -/
abbrev Memory := List (Nat × Byte)

/-- What a byte that nothing has written reads as: DESIGN CHOICE (notes/assumptions/2.md). -/
def Memory.blank : Byte := 0

/-- The byte at an address. -/
def Memory.read (m : Memory) (a : Nat) : Byte := Fmap.get Memory.blank m a

/-- Writes one byte, keeping the canonical form. -/
def Memory.write (m : Memory) (a : Nat) (v : Byte) : Memory :=
  let r := m.filter (fun c => c.1 != a)
  if v = Memory.blank then r else Fmap.put r a v

/-- Addresses strictly rising, no entry reads as the blank byte. -/
def Memory.wf : Memory → Bool
  | [] => true
  | [(_, v)] => v != Memory.blank
  | (a, v) :: (b, w) :: m => a < b && v != Memory.blank && Memory.wf ((b, w) :: m)

/-- Clears the bytes of [a, a+n) to the blank byte. -/
def Memory.clear (m : Memory) (a n : Nat) : Memory := m.filter (fun c => !(decide (a ≤ c.1) && decide (c.1 < a + n)))

/-- n bytes from a, as one number, lowest address in the lowest byte (R4). -/
def Memory.readNat (m : Memory) (a : Nat) : Nat → Nat
  | 0 => 0
  | n + 1 => (Memory.read m a).toNat + 256 * Memory.readNat m (a + 1) n

/-- The lowest n bytes of a number written from a upward (R4). -/
def Memory.writeNat (m : Memory) (a : Nat) : Nat → Nat → Memory
  | 0, _ => m
  | n + 1, x => Memory.writeNat (Memory.write m a (BitVec.ofNat 8 (x % 256))) (a + 1) n (x / 256)

/-- Writes the bytes of a list from a upward. -/
def Memory.writeList (m : Memory) (a : Nat) : List Byte → Memory
  | [] => m
  | b :: bs => Memory.writeList (Memory.write m a b) (a + 1) bs

/-- The n bytes from a. -/
def Memory.readList (m : Memory) (a : Nat) : Nat → List Byte
  | 0 => []
  | n + 1 => Memory.read m a :: Memory.readList m (a + 1) n

/-- A rising list of numbers as a set: insertion. -/
def insSorted : List Nat → Nat → List Nat
  | [], i => [i]
  | k :: m, i => if i < k then i :: k :: m else if i = k then k :: m else k :: insSorted m i

/-- A rising list of numbers as a set: removal. -/
def delSorted (m : List Nat) (i : Nat) : List Nat := m.filter (· != i)

end Sys2Proof
end

