-- ==== Sys2Proof/Machine/Cards.lean ====
section
/-! DEFINITION. The register cards of spec/ (R5, R9): one `Field` per named field with its bits, access code and
reset value, one `Card` per register with its block, offset, spacing, number of instances, width and reset
domain.  Reserved bits are no field: they read as zero and ignore writes. -/

namespace Sys2Proof.Machine

/-- Access codes of Table 0-4. -/
inductive Access | ro | rw | rw1c | wo
  deriving DecidableEq, Repr

/-- Reset domains of Table 0-5. -/
inductive Domain | aon | cold | warm | head | flr | wing
  deriving DecidableEq, Repr

/-- Register blocks of BAR 0 (Table 13-5), and the loom system registers of SRR and SRW. -/
inductive Block | loomStatus | loomSys | tiers | cons | trans | headCtl | doorbell | ikq | wingCtl | selvage | ledger
  deriving DecidableEq, Repr

/-- One named field of a card. -/
structure Field where
  id : Nat
  hi : Nat
  lo : Nat
  access : Access
  reset : Nat
  deriving DecidableEq, Repr

/-- Width of a field in bits. -/
def Field.width (f : Field) : Nat := f.hi + 1 - f.lo

/-- One register card. -/
structure Card where
  id : Nat
  block : Block
  offset : Nat
  step : Nat
  count : Nat
  width : Nat
  domain : Domain
  fields : List Field
  deriving DecidableEq, Repr

/-- ARRAY_FLAGS.TRUNC [4:4], RW1C (spec/03_array_arithmetic.md). -/
def Fld.ARRAY_FLAGS_TRUNC : Field := ⟨0, 4, 4, .rw1c, 0⟩
/-- ARRAY_FLAGS.INVALID [3:3], RW1C (spec/03_array_arithmetic.md). -/
def Fld.ARRAY_FLAGS_INVALID : Field := ⟨1, 3, 3, .rw1c, 0⟩
/-- ARRAY_FLAGS.INEXACT [2:2], RW1C (spec/03_array_arithmetic.md). -/
def Fld.ARRAY_FLAGS_INEXACT : Field := ⟨2, 2, 2, .rw1c, 0⟩
/-- ARRAY_FLAGS.UNDERFLOW [1:1], RW1C (spec/03_array_arithmetic.md). -/
def Fld.ARRAY_FLAGS_UNDERFLOW : Field := ⟨3, 1, 1, .rw1c, 0⟩
/-- ARRAY_FLAGS.OVERFLOW [0:0], RW1C (spec/03_array_arithmetic.md). -/
def Fld.ARRAY_FLAGS_OVERFLOW : Field := ⟨4, 0, 0, .rw1c, 0⟩
/-- The card of ARRAY_FLAGS (spec/03_array_arithmetic.md). -/
def Crd.ARRAY_FLAGS : Card := ⟨0, .loomStatus, 0x80, 0, 1, 32, .wing, [Fld.ARRAY_FLAGS_TRUNC, Fld.ARRAY_FLAGS_INVALID, Fld.ARRAY_FLAGS_INEXACT, Fld.ARRAY_FLAGS_UNDERFLOW, Fld.ARRAY_FLAGS_OVERFLOW]⟩
/-- TREADLE_STATUS.EXIT_CODE [31:24], RO (spec/04_loom_programming.md). -/
def Fld.TREADLE_STATUS_EXIT_CODE : Field := ⟨5, 31, 24, .ro, 0⟩
/-- TREADLE_STATUS.ERROR_CODE [23:16], RO (spec/04_loom_programming.md). -/
def Fld.TREADLE_STATUS_ERROR_CODE : Field := ⟨6, 23, 16, .ro, 0⟩
/-- TREADLE_STATUS.TALLY_FAULT_PENDING [9:9], RO (spec/04_loom_programming.md). -/
def Fld.TREADLE_STATUS_TALLY_FAULT_PENDING : Field := ⟨7, 9, 9, .ro, 0⟩
/-- TREADLE_STATUS.BARRIER_BROKEN [8:8], RW1C (spec/04_loom_programming.md). -/
def Fld.TREADLE_STATUS_BARRIER_BROKEN : Field := ⟨8, 8, 8, .rw1c, 0⟩
/-- TREADLE_STATUS.FENCE_FAULT [7:7], RW1C (spec/04_loom_programming.md). -/
def Fld.TREADLE_STATUS_FENCE_FAULT : Field := ⟨9, 7, 7, .rw1c, 0⟩
/-- TREADLE_STATUS.STATE [2:0], RO (spec/04_loom_programming.md). -/
def Fld.TREADLE_STATUS_STATE : Field := ⟨10, 2, 0, .ro, 0⟩
/-- The card of TREADLE_STATUS (spec/04_loom_programming.md). -/
def Crd.TREADLE_STATUS : Card := ⟨1, .loomStatus, 0x0, 0, 1, 32, .wing, [Fld.TREADLE_STATUS_EXIT_CODE, Fld.TREADLE_STATUS_ERROR_CODE, Fld.TREADLE_STATUS_TALLY_FAULT_PENDING, Fld.TREADLE_STATUS_BARRIER_BROKEN, Fld.TREADLE_STATUS_FENCE_FAULT, Fld.TREADLE_STATUS_STATE]⟩
/-- TREADLE_PC.PC [55:0], RO (spec/04_loom_programming.md). -/
def Fld.TREADLE_PC_PC : Field := ⟨11, 55, 0, .ro, 0⟩
/-- The card of TREADLE_PC (spec/04_loom_programming.md). -/
def Crd.TREADLE_PC : Card := ⟨2, .loomStatus, 0x8, 0, 1, 64, .wing, [Fld.TREADLE_PC_PC]⟩
/-- TALLY_FAULT.FAULT [63:0], RW1C (spec/04_loom_programming.md). -/
def Fld.TALLY_FAULT_FAULT : Field := ⟨12, 63, 0, .rw1c, 0⟩
/-- The card of TALLY_FAULT (spec/04_loom_programming.md). -/
def Crd.TALLY_FAULT : Card := ⟨3, .loomStatus, 0x10, 0, 1, 64, .wing, [Fld.TALLY_FAULT_FAULT]⟩
/-- TALLY_FIRST.CODE [15:8], RO (spec/04_loom_programming.md). -/
def Fld.TALLY_FIRST_CODE : Field := ⟨13, 15, 8, .ro, 0⟩
/-- TALLY_FIRST.VALID [7:7], RW1C (spec/04_loom_programming.md). -/
def Fld.TALLY_FIRST_VALID : Field := ⟨14, 7, 7, .rw1c, 0⟩
/-- TALLY_FIRST.TALLY [5:0], RO (spec/04_loom_programming.md). -/
def Fld.TALLY_FIRST_TALLY : Field := ⟨15, 5, 0, .ro, 0⟩
/-- The card of TALLY_FIRST (spec/04_loom_programming.md). -/
def Crd.TALLY_FIRST : Card := ⟨4, .loomStatus, 0x18, 0, 1, 32, .wing, [Fld.TALLY_FIRST_CODE, Fld.TALLY_FIRST_VALID, Fld.TALLY_FIRST_TALLY]⟩
/-- REED_CTRL.SCALE_RULE [4:4], RW (spec/05_reed_vector_engine.md). -/
def Fld.REED_CTRL_SCALE_RULE : Field := ⟨16, 4, 4, .rw, 0⟩
/-- REED_CTRL.STRICT [3:3], RW (spec/05_reed_vector_engine.md). -/
def Fld.REED_CTRL_STRICT : Field := ⟨17, 3, 3, .rw, 0⟩
/-- REED_CTRL.FLUSH [2:2], RW (spec/05_reed_vector_engine.md). -/
def Fld.REED_CTRL_FLUSH : Field := ⟨18, 2, 2, .rw, 0⟩
/-- REED_CTRL.RM [1:0], RW (spec/05_reed_vector_engine.md). -/
def Fld.REED_CTRL_RM : Field := ⟨19, 1, 0, .rw, 0⟩
/-- The card of REED_CTRL (spec/05_reed_vector_engine.md). -/
def Crd.REED_CTRL : Card := ⟨5, .loomSys, 0x40, 0, 1, 32, .wing, [Fld.REED_CTRL_SCALE_RULE, Fld.REED_CTRL_STRICT, Fld.REED_CTRL_FLUSH, Fld.REED_CTRL_RM]⟩
/-- REED_FLAGS.FLUSHED [5:5], RW1C (spec/05_reed_vector_engine.md). -/
def Fld.REED_FLAGS_FLUSHED : Field := ⟨20, 5, 5, .rw1c, 0⟩
/-- REED_FLAGS.DIVZERO [4:4], RW1C (spec/05_reed_vector_engine.md). -/
def Fld.REED_FLAGS_DIVZERO : Field := ⟨21, 4, 4, .rw1c, 0⟩
/-- REED_FLAGS.INVALID [3:3], RW1C (spec/05_reed_vector_engine.md). -/
def Fld.REED_FLAGS_INVALID : Field := ⟨22, 3, 3, .rw1c, 0⟩
/-- REED_FLAGS.INEXACT [2:2], RW1C (spec/05_reed_vector_engine.md). -/
def Fld.REED_FLAGS_INEXACT : Field := ⟨23, 2, 2, .rw1c, 0⟩
/-- REED_FLAGS.UNDERFLOW [1:1], RW1C (spec/05_reed_vector_engine.md). -/
def Fld.REED_FLAGS_UNDERFLOW : Field := ⟨24, 1, 1, .rw1c, 0⟩
/-- REED_FLAGS.OVERFLOW [0:0], RW1C (spec/05_reed_vector_engine.md). -/
def Fld.REED_FLAGS_OVERFLOW : Field := ⟨25, 0, 0, .rw1c, 0⟩
/-- The card of REED_FLAGS (spec/05_reed_vector_engine.md). -/
def Crd.REED_FLAGS : Card := ⟨6, .loomStatus, 0x84, 0, 1, 32, .wing, [Fld.REED_FLAGS_FLUSHED, Fld.REED_FLAGS_DIVZERO, Fld.REED_FLAGS_INVALID, Fld.REED_FLAGS_INEXACT, Fld.REED_FLAGS_UNDERFLOW, Fld.REED_FLAGS_OVERFLOW]⟩
/-- REED_SEED.STATE [63:0], RW (spec/05_reed_vector_engine.md). -/
def Fld.REED_SEED_STATE : Field := ⟨26, 63, 0, .rw, 0⟩
/-- The card of REED_SEED (spec/05_reed_vector_engine.md). -/
def Crd.REED_SEED : Card := ⟨7, .loomSys, 0x42, 0, 1, 64, .wing, [Fld.REED_SEED_STATE]⟩
/-- CACHE_CTRL.WAY_ON [15:8], RW (spec/06_loom_memory_ordering.md). -/
def Fld.CACHE_CTRL_WAY_ON : Field := ⟨27, 15, 8, .rw, 255⟩
/-- CACHE_CTRL.STREAM_DETECT [0:0], RW (spec/06_loom_memory_ordering.md). -/
def Fld.CACHE_CTRL_STREAM_DETECT : Field := ⟨28, 0, 0, .rw, 1⟩
/-- The card of CACHE_CTRL (spec/06_loom_memory_ordering.md). -/
def Crd.CACHE_CTRL : Card := ⟨8, .loomSys, 0x80, 0, 1, 32, .wing, [Fld.CACHE_CTRL_WAY_ON, Fld.CACHE_CTRL_STREAM_DETECT]⟩
/-- CACHE_STATUS.LOCKED [31:24], RO (spec/06_loom_memory_ordering.md). -/
def Fld.CACHE_STATUS_LOCKED : Field := ⟨29, 31, 24, .ro, 0⟩
/-- CACHE_STATUS.WAY_BUSY [4:4], RO (spec/06_loom_memory_ordering.md). -/
def Fld.CACHE_STATUS_WAY_BUSY : Field := ⟨30, 4, 4, .ro, 0⟩
/-- CACHE_STATUS.STREAMING [3:3], RO (spec/06_loom_memory_ordering.md). -/
def Fld.CACHE_STATUS_STREAMING : Field := ⟨31, 3, 3, .ro, 0⟩
/-- CACHE_STATUS.LOCK_REFUSED [1:1], RW1C (spec/06_loom_memory_ordering.md). -/
def Fld.CACHE_STATUS_LOCK_REFUSED : Field := ⟨32, 1, 1, .rw1c, 0⟩
/-- CACHE_STATUS.BYPASS [0:0], RW1C (spec/06_loom_memory_ordering.md). -/
def Fld.CACHE_STATUS_BYPASS : Field := ⟨33, 0, 0, .rw1c, 0⟩
/-- The card of CACHE_STATUS (spec/06_loom_memory_ordering.md). -/
def Crd.CACHE_STATUS : Card := ⟨9, .loomSys, 0x81, 0, 1, 32, .wing, [Fld.CACHE_STATUS_LOCKED, Fld.CACHE_STATUS_WAY_BUSY, Fld.CACHE_STATUS_STREAMING, Fld.CACHE_STATUS_LOCK_REFUSED, Fld.CACHE_STATUS_BYPASS]⟩
/-- CACHE_LFSR.STATE [15:0], RW (spec/06_loom_memory_ordering.md). -/
def Fld.CACHE_LFSR_STATE : Field := ⟨34, 15, 0, .rw, 44257⟩
/-- The card of CACHE_LFSR (spec/06_loom_memory_ordering.md). -/
def Crd.CACHE_LFSR : Card := ⟨10, .loomSys, 0x82, 0, 1, 32, .wing, [Fld.CACHE_LFSR_STATE]⟩
/-- CACHE_OP.OP [1:0], WO (spec/06_loom_memory_ordering.md). -/
def Fld.CACHE_OP_OP : Field := ⟨35, 1, 0, .wo, 0⟩
/-- The card of CACHE_OP (spec/06_loom_memory_ordering.md). -/
def Crd.CACHE_OP : Card := ⟨11, .loomSys, 0x83, 0, 1, 32, .wing, [Fld.CACHE_OP_OP]⟩
/-- HOME_TIMEOUT.TIMEOUT [19:0], RW (spec/07_weave_coherence.md). -/
def Fld.HOME_TIMEOUT_TIMEOUT : Field := ⟨36, 19, 0, .rw, 10000⟩
/-- The card of HOME_TIMEOUT (spec/07_weave_coherence.md). -/
def Crd.HOME_TIMEOUT : Card := ⟨12, .tiers, 0xE000, 0, 1, 32, .cold, [Fld.HOME_TIMEOUT_TIMEOUT]⟩
/-- CAT_STATS_m.RECALL_TIMEOUTS [63:40], RO (spec/07_weave_coherence.md). -/
def Fld.CAT_STATS_RECALL_TIMEOUTS : Field := ⟨37, 63, 40, .ro, 0⟩
/-- CAT_STATS_m.EVICTIONS [39:0], RO (spec/07_weave_coherence.md). -/
def Fld.CAT_STATS_EVICTIONS : Field := ⟨38, 39, 0, .ro, 0⟩
/-- The card of CAT_STATS_m (spec/07_weave_coherence.md). -/
def Crd.CAT_STATS : Card := ⟨13, .tiers, 0xE008, 8, 4, 64, .cold, [Fld.CAT_STATS_RECALL_TIMEOUTS, Fld.CAT_STATS_EVICTIONS]⟩
/-- DSP_LAYOUT.SIZE [44:32], RO (spec/08_display_depot_tiers.md). -/
def Fld.DSP_LAYOUT_SIZE : Field := ⟨39, 44, 32, .ro, 0⟩
/-- DSP_LAYOUT.LIMIT [20:16], RO (spec/08_display_depot_tiers.md). -/
def Fld.DSP_LAYOUT_LIMIT : Field := ⟨40, 20, 16, .ro, 0⟩
/-- DSP_LAYOUT.GROUPS [2:0], RO (spec/08_display_depot_tiers.md). -/
def Fld.DSP_LAYOUT_GROUPS : Field := ⟨41, 2, 0, .ro, 0⟩
/-- The card of DSP_LAYOUT (spec/08_display_depot_tiers.md). -/
def Crd.DSP_LAYOUT : Card := ⟨14, .tiers, 0x0, 0, 1, 64, .cold, [Fld.DSP_LAYOUT_SIZE, Fld.DSP_LAYOUT_LIMIT, Fld.DSP_LAYOUT_GROUPS]⟩
/-- DEP_LAYOUT.MODE [63:63], RO (spec/08_display_depot_tiers.md). -/
def Fld.DEP_LAYOUT_MODE : Field := ⟨42, 63, 63, .ro, 0⟩
/-- DEP_LAYOUT.SIZE [47:32], RO (spec/08_display_depot_tiers.md). -/
def Fld.DEP_LAYOUT_SIZE : Field := ⟨43, 47, 32, .ro, 0⟩
/-- DEP_LAYOUT.RATE [23:16], RO (spec/08_display_depot_tiers.md). -/
def Fld.DEP_LAYOUT_RATE : Field := ⟨44, 23, 16, .ro, 0⟩
/-- DEP_LAYOUT.CHANNEL_CAP [15:8], RO (spec/08_display_depot_tiers.md). -/
def Fld.DEP_LAYOUT_CHANNEL_CAP : Field := ⟨45, 15, 8, .ro, 0⟩
/-- DEP_LAYOUT.MRDIMM [2:2], RO (spec/08_display_depot_tiers.md). -/
def Fld.DEP_LAYOUT_MRDIMM : Field := ⟨46, 2, 2, .ro, 0⟩
/-- DEP_LAYOUT.DPC [1:0], RO (spec/08_display_depot_tiers.md). -/
def Fld.DEP_LAYOUT_DPC : Field := ⟨47, 1, 0, .ro, 0⟩
/-- The card of DEP_LAYOUT (spec/08_display_depot_tiers.md). -/
def Crd.DEP_LAYOUT : Card := ⟨15, .tiers, 0x8, 0, 1, 64, .cold, [Fld.DEP_LAYOUT_MODE, Fld.DEP_LAYOUT_SIZE, Fld.DEP_LAYOUT_RATE, Fld.DEP_LAYOUT_CHANNEL_CAP, Fld.DEP_LAYOUT_MRDIMM, Fld.DEP_LAYOUT_DPC]⟩
/-- TIER_INTERVAL.PERIOD [19:0], RW (spec/08_display_depot_tiers.md). -/
def Fld.TIER_INTERVAL_PERIOD : Field := ⟨48, 19, 0, .rw, 100⟩
/-- The card of TIER_INTERVAL (spec/08_display_depot_tiers.md). -/
def Crd.TIER_INTERVAL : Card := ⟨16, .tiers, 0x10, 0, 1, 32, .cold, [Fld.TIER_INTERVAL_PERIOD]⟩
/-- DSP_STACK_STATE.STATE [31:0], RO (spec/08_display_depot_tiers.md). -/
def Fld.DSP_STACK_STATE_STATE : Field := ⟨49, 31, 0, .ro, 0⟩
/-- The card of DSP_STACK_STATE (spec/08_display_depot_tiers.md). -/
def Crd.DSP_STACK_STATE : Card := ⟨17, .tiers, 0x18, 0, 1, 32, .cold, [Fld.DSP_STACK_STATE_STATE]⟩
/-- DEP_CHANNEL_STATE.STATE [47:0], RO (spec/08_display_depot_tiers.md). -/
def Fld.DEP_CHANNEL_STATE_STATE : Field := ⟨50, 47, 0, .ro, 0⟩
/-- The card of DEP_CHANNEL_STATE (spec/08_display_depot_tiers.md). -/
def Crd.DEP_CHANNEL_STATE : Card := ⟨18, .tiers, 0x20, 0, 1, 64, .cold, [Fld.DEP_CHANNEL_STATE_STATE]⟩
/-- ROT_STATE_i.STATUS [63:60], RO (spec/08_display_depot_tiers.md). -/
def Fld.ROT_STATE_STATUS : Field := ⟨51, 63, 60, .ro, 0⟩
/-- ROT_STATE_i.ROUNDS [59:56], RO (spec/08_display_depot_tiers.md). -/
def Fld.ROT_STATE_ROUNDS : Field := ⟨52, 59, 56, .ro, 0⟩
/-- ROT_STATE_i.DEST_KIND [55:54], RO (spec/08_display_depot_tiers.md). -/
def Fld.ROT_STATE_DEST_KIND : Field := ⟨53, 55, 54, .ro, 0⟩
/-- ROT_STATE_i.PAGE [21:0], RO (spec/08_display_depot_tiers.md). -/
def Fld.ROT_STATE_PAGE : Field := ⟨54, 21, 0, .ro, 0⟩
/-- The card of ROT_STATE_i (spec/08_display_depot_tiers.md). -/
def Crd.ROT_STATE : Card := ⟨19, .tiers, 0x100, 8, 16, 64, .cold, [Fld.ROT_STATE_STATUS, Fld.ROT_STATE_ROUNDS, Fld.ROT_STATE_DEST_KIND, Fld.ROT_STATE_PAGE]⟩
/-- ATRIUM_WING_w.ALLOC [19:18], RO (spec/08_display_depot_tiers.md). -/
def Fld.ATRIUM_WING_ALLOC : Field := ⟨55, 19, 18, .ro, 0⟩
/-- ATRIUM_WING_w.WAYS [15:0], RO (spec/08_display_depot_tiers.md). -/
def Fld.ATRIUM_WING_WAYS : Field := ⟨56, 15, 0, .ro, 0⟩
/-- The card of ATRIUM_WING_w (spec/08_display_depot_tiers.md). -/
def Crd.ATRIUM_WING : Card := ⟨20, .tiers, 0x200, 4, 16, 32, .wing, [Fld.ATRIUM_WING_ALLOC, Fld.ATRIUM_WING_WAYS]⟩
/-- PATROL_CTRL.DEP_EN [9:9], RW (spec/09_memory_integrity.md). -/
def Fld.PATROL_CTRL_DEP_EN : Field := ⟨57, 9, 9, .rw, 1⟩
/-- PATROL_CTRL.DSP_EN [8:8], RW (spec/09_memory_integrity.md). -/
def Fld.PATROL_CTRL_DSP_EN : Field := ⟨58, 8, 8, .rw, 1⟩
/-- PATROL_CTRL.PERIOD [7:0], RW (spec/09_memory_integrity.md). -/
def Fld.PATROL_CTRL_PERIOD : Field := ⟨59, 7, 0, .rw, 24⟩
/-- The card of PATROL_CTRL (spec/09_memory_integrity.md). -/
def Crd.PATROL_CTRL : Card := ⟨21, .tiers, 0x1000, 0, 1, 32, .cold, [Fld.PATROL_CTRL_DEP_EN, Fld.PATROL_CTRL_DSP_EN, Fld.PATROL_CTRL_PERIOD]⟩
/-- PATROL_STATUS.DSP_PASSES [63:48], RO (spec/09_memory_integrity.md). -/
def Fld.PATROL_STATUS_DSP_PASSES : Field := ⟨60, 63, 48, .ro, 0⟩
/-- PATROL_STATUS.DEP_PASSES [47:32], RO (spec/09_memory_integrity.md). -/
def Fld.PATROL_STATUS_DEP_PASSES : Field := ⟨61, 47, 32, .ro, 0⟩
/-- PATROL_STATUS.DSP_PCT [31:24], RO (spec/09_memory_integrity.md). -/
def Fld.PATROL_STATUS_DSP_PCT : Field := ⟨62, 31, 24, .ro, 0⟩
/-- PATROL_STATUS.DEP_PCT [23:16], RO (spec/09_memory_integrity.md). -/
def Fld.PATROL_STATUS_DEP_PCT : Field := ⟨63, 23, 16, .ro, 0⟩
/-- The card of PATROL_STATUS (spec/09_memory_integrity.md). -/
def Crd.PATROL_STATUS : Card := ⟨22, .tiers, 0x1008, 0, 1, 64, .cold, [Fld.PATROL_STATUS_DSP_PASSES, Fld.PATROL_STATUS_DEP_PASSES, Fld.PATROL_STATUS_DSP_PCT, Fld.PATROL_STATUS_DEP_PCT]⟩
/-- MEMINJ_FLIP.ARM [63:63], WO (spec/09_memory_integrity.md). -/
def Fld.MEMINJ_FLIP_ARM : Field := ⟨64, 63, 63, .wo, 0⟩
/-- MEMINJ_FLIP.ARMED [62:62], RO (spec/09_memory_integrity.md). -/
def Fld.MEMINJ_FLIP_ARMED : Field := ⟨65, 62, 62, .ro, 0⟩
/-- MEMINJ_FLIP.DONE [61:61], RW1C (spec/09_memory_integrity.md). -/
def Fld.MEMINJ_FLIP_DONE : Field := ⟨66, 61, 61, .rw1c, 0⟩
/-- MEMINJ_FLIP.MODE [60:60], RW (spec/09_memory_integrity.md). -/
def Fld.MEMINJ_FLIP_MODE : Field := ⟨67, 60, 60, .rw, 0⟩
/-- MEMINJ_FLIP.TIER [59:59], RW (spec/09_memory_integrity.md). -/
def Fld.MEMINJ_FLIP_TIER : Field := ⟨68, 59, 59, .rw, 0⟩
/-- MEMINJ_FLIP.CHANNEL [58:54], RW (spec/09_memory_integrity.md). -/
def Fld.MEMINJ_FLIP_CHANNEL : Field := ⟨69, 58, 54, .rw, 0⟩
/-- MEMINJ_FLIP.STACK [53:50], RW (spec/09_memory_integrity.md). -/
def Fld.MEMINJ_FLIP_STACK : Field := ⟨70, 53, 50, .rw, 0⟩
/-- MEMINJ_FLIP.CODEWORD [49:48], RW (spec/09_memory_integrity.md). -/
def Fld.MEMINJ_FLIP_CODEWORD : Field := ⟨71, 49, 48, .rw, 0⟩
/-- MEMINJ_FLIP.PATTERN [47:40], RW (spec/09_memory_integrity.md). -/
def Fld.MEMINJ_FLIP_PATTERN : Field := ⟨72, 47, 40, .rw, 0⟩
/-- MEMINJ_FLIP.SYMBOLS [35:0], RW (spec/09_memory_integrity.md). -/
def Fld.MEMINJ_FLIP_SYMBOLS : Field := ⟨73, 35, 0, .rw, 0⟩
/-- The card of MEMINJ_FLIP (spec/09_memory_integrity.md). -/
def Crd.MEMINJ_FLIP : Card := ⟨23, .tiers, 0x1010, 0, 1, 64, .cold, [Fld.MEMINJ_FLIP_ARM, Fld.MEMINJ_FLIP_ARMED, Fld.MEMINJ_FLIP_DONE, Fld.MEMINJ_FLIP_MODE, Fld.MEMINJ_FLIP_TIER, Fld.MEMINJ_FLIP_CHANNEL, Fld.MEMINJ_FLIP_STACK, Fld.MEMINJ_FLIP_CODEWORD, Fld.MEMINJ_FLIP_PATTERN, Fld.MEMINJ_FLIP_SYMBOLS]⟩
/-- REFRESH_STATE.DEP [55:32], RO (spec/09_memory_integrity.md). -/
def Fld.REFRESH_STATE_DEP : Field := ⟨74, 55, 32, .ro, 0⟩
/-- REFRESH_STATE.DSP [31:0], RO (spec/09_memory_integrity.md). -/
def Fld.REFRESH_STATE_DSP : Field := ⟨75, 31, 0, .ro, 0⟩
/-- The card of REFRESH_STATE (spec/09_memory_integrity.md). -/
def Crd.REFRESH_STATE : Card := ⟨24, .tiers, 0x1018, 0, 1, 64, .cold, [Fld.REFRESH_STATE_DEP, Fld.REFRESH_STATE_DSP]⟩
/-- CHAN_FAULT_i.FAULTED [63:0], RO (spec/09_memory_integrity.md). -/
def Fld.CHAN_FAULT_FAULTED : Field := ⟨76, 63, 0, .ro, 0⟩
/-- The card of CHAN_FAULT_i (spec/09_memory_integrity.md). -/
def Crd.CHAN_FAULT : Card := ⟨25, .tiers, 0x1040, 8, 9, 64, .cold, [Fld.CHAN_FAULT_FAULTED]⟩
/-- SPARE_DSP_s.TOTAL [23:16], RO (spec/09_memory_integrity.md). -/
def Fld.SPARE_DSP_TOTAL : Field := ⟨77, 23, 16, .ro, 0⟩
/-- SPARE_DSP_s.FREE [7:0], RO (spec/09_memory_integrity.md). -/
def Fld.SPARE_DSP_FREE : Field := ⟨78, 7, 0, .ro, 0⟩
/-- The card of SPARE_DSP_s (spec/09_memory_integrity.md). -/
def Crd.SPARE_DSP : Card := ⟨26, .tiers, 0x1100, 4, 16, 32, .cold, [Fld.SPARE_DSP_TOTAL, Fld.SPARE_DSP_FREE]⟩
/-- SPARE_DEP_c.TOTAL [27:16], RO (spec/09_memory_integrity.md). -/
def Fld.SPARE_DEP_TOTAL : Field := ⟨79, 27, 16, .ro, 0⟩
/-- SPARE_DEP_c.FREE [11:0], RO (spec/09_memory_integrity.md). -/
def Fld.SPARE_DEP_FREE : Field := ⟨80, 11, 0, .ro, 0⟩
/-- The card of SPARE_DEP_c (spec/09_memory_integrity.md). -/
def Crd.SPARE_DEP : Card := ⟨27, .tiers, 0x1140, 4, 24, 32, .cold, [Fld.SPARE_DEP_TOTAL, Fld.SPARE_DEP_FREE]⟩
/-- REGION_STATUS_r.STATE [63:61], RO (spec/10_conservators.md). -/
def Fld.REGION_STATUS_STATE : Field := ⟨81, 63, 61, .ro, 0⟩
/-- REGION_STATUS_r.OVERRUN [60:60], RW1C (spec/10_conservators.md). -/
def Fld.REGION_STATUS_OVERRUN : Field := ⟨82, 60, 60, .rw1c, 0⟩
/-- REGION_STATUS_r.PARTIAL [59:59], RW1C (spec/10_conservators.md). -/
def Fld.REGION_STATUS_PARTIAL : Field := ⟨83, 59, 59, .rw1c, 0⟩
/-- REGION_STATUS_r.ADD_NAN [58:58], RW1C (spec/10_conservators.md). -/
def Fld.REGION_STATUS_ADD_NAN : Field := ⟨84, 58, 58, .rw1c, 0⟩
/-- REGION_STATUS_r.ADD_OVERFLOW [57:57], RW1C (spec/10_conservators.md). -/
def Fld.REGION_STATUS_ADD_OVERFLOW : Field := ⟨85, 57, 57, .rw1c, 0⟩
/-- REGION_STATUS_r.POISONED [56:56], RW1C (spec/10_conservators.md). -/
def Fld.REGION_STATUS_POISONED : Field := ⟨86, 56, 56, .rw1c, 0⟩
/-- REGION_STATUS_r.ENTRY [55:52], RO (spec/10_conservators.md). -/
def Fld.REGION_STATUS_ENTRY : Field := ⟨87, 55, 52, .ro, 0⟩
/-- REGION_STATUS_r.FAULT [51:48], RO (spec/10_conservators.md). -/
def Fld.REGION_STATUS_FAULT : Field := ⟨88, 51, 48, .ro, 0⟩
/-- REGION_STATUS_r.COUNT [47:0], RO (spec/10_conservators.md). -/
def Fld.REGION_STATUS_COUNT : Field := ⟨89, 47, 0, .ro, 0⟩
/-- The card of REGION_STATUS_r (spec/10_conservators.md). -/
def Crd.REGION_STATUS : Card := ⟨28, .cons, 0x0, 8, 4096, 64, .wing, [Fld.REGION_STATUS_STATE, Fld.REGION_STATUS_OVERRUN, Fld.REGION_STATUS_PARTIAL, Fld.REGION_STATUS_ADD_NAN, Fld.REGION_STATUS_ADD_OVERFLOW, Fld.REGION_STATUS_POISONED, Fld.REGION_STATUS_ENTRY, Fld.REGION_STATUS_FAULT, Fld.REGION_STATUS_COUNT]⟩
/-- CONS_BUSY.BUSY [63:0], RO (spec/10_conservators.md). -/
def Fld.CONS_BUSY_BUSY : Field := ⟨90, 63, 0, .ro, 0⟩
/-- The card of CONS_BUSY (spec/10_conservators.md). -/
def Crd.CONS_BUSY : Card := ⟨29, .cons, 0x8000, 0, 1, 64, .cold, [Fld.CONS_BUSY_BUSY]⟩
/-- CONS_STATE.DRAINING [31:28], RO (spec/10_conservators.md). -/
def Fld.CONS_STATE_DRAINING : Field := ⟨91, 31, 28, .ro, 0⟩
/-- CONS_STATE.RUNNING [23:16], RO (spec/10_conservators.md). -/
def Fld.CONS_STATE_RUNNING : Field := ⟨92, 23, 16, .ro, 0⟩
/-- CONS_STATE.WAITING [12:0], RO (spec/10_conservators.md). -/
def Fld.CONS_STATE_WAITING : Field := ⟨93, 12, 0, .ro, 0⟩
/-- The card of CONS_STATE (spec/10_conservators.md). -/
def Crd.CONS_STATE : Card := ⟨30, .cons, 0x8008, 0, 1, 32, .cold, [Fld.CONS_STATE_DRAINING, Fld.CONS_STATE_RUNNING, Fld.CONS_STATE_WAITING]⟩
/-- TRANS_ROOT.ROOT [47:15], RW (spec/11_translation.md). -/
def Fld.TRANS_ROOT_ROOT : Field := ⟨94, 47, 15, .rw, 0⟩
/-- TRANS_ROOT.ENABLE [0:0], RW (spec/11_translation.md). -/
def Fld.TRANS_ROOT_ENABLE : Field := ⟨95, 0, 0, .rw, 0⟩
/-- The card of TRANS_ROOT (spec/11_translation.md). -/
def Crd.TRANS_ROOT : Card := ⟨31, .trans, 0x0, 0, 1, 64, .wing, [Fld.TRANS_ROOT_ROOT, Fld.TRANS_ROOT_ENABLE]⟩
/-- TRANS_CTRL.TIMEOUT [31:16], RW (spec/11_translation.md). -/
def Fld.TRANS_CTRL_TIMEOUT : Field := ⟨96, 31, 16, .rw, 50⟩
/-- TRANS_CTRL.IRQ_HEAD [15:12], RW (spec/11_translation.md). -/
def Fld.TRANS_CTRL_IRQ_HEAD : Field := ⟨97, 15, 12, .rw, 0⟩
/-- TRANS_CTRL.VECTOR [11:4], RW (spec/11_translation.md). -/
def Fld.TRANS_CTRL_VECTOR : Field := ⟨98, 11, 4, .rw, 0⟩
/-- TRANS_CTRL.IRQ_EN [3:3], RW (spec/11_translation.md). -/
def Fld.TRANS_CTRL_IRQ_EN : Field := ⟨99, 3, 3, .rw, 0⟩
/-- The card of TRANS_CTRL (spec/11_translation.md). -/
def Crd.TRANS_CTRL : Card := ⟨32, .trans, 0x8, 0, 1, 32, .wing, [Fld.TRANS_CTRL_TIMEOUT, Fld.TRANS_CTRL_IRQ_HEAD, Fld.TRANS_CTRL_VECTOR, Fld.TRANS_CTRL_IRQ_EN]⟩
/-- FQ_BASE.BASE [47:12], RW (spec/11_translation.md). -/
def Fld.FQ_BASE_BASE : Field := ⟨100, 47, 12, .rw, 0⟩
/-- FQ_BASE.SIZE [3:0], RW (spec/11_translation.md). -/
def Fld.FQ_BASE_SIZE : Field := ⟨101, 3, 0, .rw, 0⟩
/-- The card of FQ_BASE (spec/11_translation.md). -/
def Crd.FQ_BASE : Card := ⟨33, .trans, 0x10, 0, 1, 64, .wing, [Fld.FQ_BASE_BASE, Fld.FQ_BASE_SIZE]⟩
/-- FQ_PROD.OVERFLOW [31:31], RW1C (spec/11_translation.md). -/
def Fld.FQ_PROD_OVERFLOW : Field := ⟨102, 31, 31, .rw1c, 0⟩
/-- FQ_PROD.PROD [11:0], RO (spec/11_translation.md). -/
def Fld.FQ_PROD_PROD : Field := ⟨103, 11, 0, .ro, 0⟩
/-- The card of FQ_PROD (spec/11_translation.md). -/
def Crd.FQ_PROD : Card := ⟨34, .trans, 0x18, 0, 1, 32, .wing, [Fld.FQ_PROD_OVERFLOW, Fld.FQ_PROD_PROD]⟩
/-- FQ_CONS.CONS [11:0], RW (spec/11_translation.md). -/
def Fld.FQ_CONS_CONS : Field := ⟨104, 11, 0, .rw, 0⟩
/-- The card of FQ_CONS (spec/11_translation.md). -/
def Crd.FQ_CONS : Card := ⟨35, .trans, 0x1C, 0, 1, 32, .wing, [Fld.FQ_CONS_CONS]⟩
/-- FAULT_RESUME.GO [31:31], WO (spec/11_translation.md). -/
def Fld.FAULT_RESUME_GO : Field := ⟨105, 31, 31, .wo, 0⟩
/-- FAULT_RESUME.RESPONSE [28:28], WO (spec/11_translation.md). -/
def Fld.FAULT_RESUME_RESPONSE : Field := ⟨106, 28, 28, .wo, 0⟩
/-- FAULT_RESUME.TAG [15:0], WO (spec/11_translation.md). -/
def Fld.FAULT_RESUME_TAG : Field := ⟨107, 15, 0, .wo, 0⟩
/-- The card of FAULT_RESUME (spec/11_translation.md). -/
def Crd.FAULT_RESUME : Card := ⟨36, .trans, 0x20, 0, 1, 32, .wing, [Fld.FAULT_RESUME_GO, Fld.FAULT_RESUME_RESPONSE, Fld.FAULT_RESUME_TAG]⟩
/-- INV_BASE.VA [55:26], RW (spec/11_translation.md). -/
def Fld.INV_BASE_VA : Field := ⟨108, 55, 26, .rw, 0⟩
/-- The card of INV_BASE (spec/11_translation.md). -/
def Crd.INV_BASE : Card := ⟨37, .trans, 0x28, 0, 1, 64, .wing, [Fld.INV_BASE_VA]⟩
/-- INV_SIZE.PAGES [30:0], RW (spec/11_translation.md). -/
def Fld.INV_SIZE_PAGES : Field := ⟨109, 30, 0, .rw, 0⟩
/-- The card of INV_SIZE (spec/11_translation.md). -/
def Crd.INV_SIZE : Card := ⟨38, .trans, 0x30, 0, 1, 64, .wing, [Fld.INV_SIZE_PAGES]⟩
/-- INV_CTRL.GO [31:31], WO (spec/11_translation.md). -/
def Fld.INV_CTRL_GO : Field := ⟨110, 31, 31, .wo, 0⟩
/-- INV_CTRL.BUSY [30:30], RO (spec/11_translation.md). -/
def Fld.INV_CTRL_BUSY : Field := ⟨111, 30, 30, .ro, 0⟩
/-- INV_CTRL.REJECTED [29:29], RW1C (spec/11_translation.md). -/
def Fld.INV_CTRL_REJECTED : Field := ⟨112, 29, 29, .rw1c, 0⟩
/-- INV_CTRL.DONE_SEQ [15:0], RO (spec/11_translation.md). -/
def Fld.INV_CTRL_DONE_SEQ : Field := ⟨113, 15, 0, .ro, 0⟩
/-- The card of INV_CTRL (spec/11_translation.md). -/
def Crd.INV_CTRL : Card := ⟨39, .trans, 0x38, 0, 1, 32, .wing, [Fld.INV_CTRL_GO, Fld.INV_CTRL_BUSY, Fld.INV_CTRL_REJECTED, Fld.INV_CTRL_DONE_SEQ]⟩
/-- ACC_CTRL.THRESHOLD [4:0], RW (spec/11_translation.md). -/
def Fld.ACC_CTRL_THRESHOLD : Field := ⟨114, 4, 0, .rw, 0⟩
/-- The card of ACC_CTRL (spec/11_translation.md). -/
def Crd.ACC_CTRL : Card := ⟨40, .trans, 0x3C, 0, 1, 32, .wing, [Fld.ACC_CTRL_THRESHOLD]⟩
/-- WINDOW_BASE.ERR [63:63], RO (spec/12_couriers_host_coupling.md). -/
def Fld.WINDOW_BASE_ERR : Field := ⟨115, 63, 63, .ro, 0⟩
/-- WINDOW_BASE.BASE [47:26], RW (spec/12_couriers_host_coupling.md). -/
def Fld.WINDOW_BASE_BASE : Field := ⟨116, 47, 26, .rw, 0⟩
/-- The card of WINDOW_BASE (spec/12_couriers_host_coupling.md). -/
def Crd.WINDOW_BASE : Card := ⟨41, .headCtl, 0x100, 0, 1, 64, .flr, [Fld.WINDOW_BASE_ERR, Fld.WINDOW_BASE_BASE]⟩
/-- SQ_TAIL.TAIL [11:0], RW (spec/12_couriers_host_coupling.md). -/
def Fld.SQ_TAIL_TAIL : Field := ⟨117, 11, 0, .rw, 0⟩
/-- The card of SQ_TAIL (spec/12_couriers_host_coupling.md). -/
def Crd.SQ_TAIL : Card := ⟨42, .doorbell, 0x0, 0, 1, 32, .wing, [Fld.SQ_TAIL_TAIL]⟩
/-- SQ_HEAD.HEAD [11:0], RO (spec/12_couriers_host_coupling.md). -/
def Fld.SQ_HEAD_HEAD : Field := ⟨118, 11, 0, .ro, 0⟩
/-- The card of SQ_HEAD (spec/12_couriers_host_coupling.md). -/
def Crd.SQ_HEAD : Card := ⟨43, .doorbell, 0x4, 0, 1, 32, .wing, [Fld.SQ_HEAD_HEAD]⟩
/-- CQ_TAIL.PHASE [31:31], RO (spec/12_couriers_host_coupling.md). -/
def Fld.CQ_TAIL_PHASE : Field := ⟨119, 31, 31, .ro, 0⟩
/-- CQ_TAIL.TAIL [11:0], RO (spec/12_couriers_host_coupling.md). -/
def Fld.CQ_TAIL_TAIL : Field := ⟨120, 11, 0, .ro, 0⟩
/-- The card of CQ_TAIL (spec/12_couriers_host_coupling.md). -/
def Crd.CQ_TAIL : Card := ⟨44, .doorbell, 0x8, 0, 1, 32, .wing, [Fld.CQ_TAIL_PHASE, Fld.CQ_TAIL_TAIL]⟩
/-- CQ_HEAD.HEAD [11:0], RW (spec/12_couriers_host_coupling.md). -/
def Fld.CQ_HEAD_HEAD : Field := ⟨121, 11, 0, .rw, 0⟩
/-- The card of CQ_HEAD (spec/12_couriers_host_coupling.md). -/
def Crd.CQ_HEAD : Card := ⟨45, .doorbell, 0xC, 0, 1, 32, .wing, [Fld.CQ_HEAD_HEAD]⟩
/-- QUEUE_STATUS.ACTIVE [31:31], RO (spec/12_couriers_host_coupling.md). -/
def Fld.QUEUE_STATUS_ACTIVE : Field := ⟨122, 31, 31, .ro, 0⟩
/-- QUEUE_STATUS.RUNNING [30:30], RO (spec/12_couriers_host_coupling.md). -/
def Fld.QUEUE_STATUS_RUNNING : Field := ⟨123, 30, 30, .ro, 0⟩
/-- QUEUE_STATUS.FAULT_STALL [29:29], RO (spec/12_couriers_host_coupling.md). -/
def Fld.QUEUE_STATUS_FAULT_STALL : Field := ⟨124, 29, 29, .ro, 0⟩
/-- QUEUE_STATUS.BME_PAUSED [28:28], RO (spec/12_couriers_host_coupling.md). -/
def Fld.QUEUE_STATUS_BME_PAUSED : Field := ⟨125, 28, 28, .ro, 0⟩
/-- QUEUE_STATUS.CQ_FULL [27:27], RO (spec/12_couriers_host_coupling.md). -/
def Fld.QUEUE_STATUS_CQ_FULL : Field := ⟨126, 27, 27, .ro, 0⟩
/-- QUEUE_STATUS.EXPECT_PHASE [12:12], RO (spec/12_couriers_host_coupling.md). -/
def Fld.QUEUE_STATUS_EXPECT_PHASE : Field := ⟨127, 12, 12, .ro, 0⟩
/-- QUEUE_STATUS.HEAD_RESET [5:5], RW1C (spec/12_couriers_host_coupling.md). -/
def Fld.QUEUE_STATUS_HEAD_RESET : Field := ⟨128, 5, 5, .rw1c, 0⟩
/-- QUEUE_STATUS.CONFIG_ERR [4:4], RW1C (spec/12_couriers_host_coupling.md). -/
def Fld.QUEUE_STATUS_CONFIG_ERR : Field := ⟨129, 4, 4, .rw1c, 0⟩
/-- QUEUE_STATUS.BAD_DOORBELL [3:3], RW1C (spec/12_couriers_host_coupling.md). -/
def Fld.QUEUE_STATUS_BAD_DOORBELL : Field := ⟨130, 3, 3, .rw1c, 0⟩
/-- QUEUE_STATUS.DOORBELL_EARLY [2:2], RW1C (spec/12_couriers_host_coupling.md). -/
def Fld.QUEUE_STATUS_DOORBELL_EARLY : Field := ⟨131, 2, 2, .rw1c, 0⟩
/-- QUEUE_STATUS.ERROR [1:1], RW1C (spec/12_couriers_host_coupling.md). -/
def Fld.QUEUE_STATUS_ERROR : Field := ⟨132, 1, 1, .rw1c, 0⟩
/-- The card of QUEUE_STATUS (spec/12_couriers_host_coupling.md). -/
def Crd.QUEUE_STATUS : Card := ⟨46, .doorbell, 0x10, 0, 1, 32, .wing, [Fld.QUEUE_STATUS_ACTIVE, Fld.QUEUE_STATUS_RUNNING, Fld.QUEUE_STATUS_FAULT_STALL, Fld.QUEUE_STATUS_BME_PAUSED, Fld.QUEUE_STATUS_CQ_FULL, Fld.QUEUE_STATUS_EXPECT_PHASE, Fld.QUEUE_STATUS_HEAD_RESET, Fld.QUEUE_STATUS_CONFIG_ERR, Fld.QUEUE_STATUS_BAD_DOORBELL, Fld.QUEUE_STATUS_DOORBELL_EARLY, Fld.QUEUE_STATUS_ERROR]⟩
/-- QUEUE_CTRL.ENABLE [31:31], RW (spec/12_couriers_host_coupling.md). -/
def Fld.QUEUE_CTRL_ENABLE : Field := ⟨133, 31, 31, .rw, 0⟩
/-- QUEUE_CTRL.DSIZE [30:30], RW (spec/12_couriers_host_coupling.md). -/
def Fld.QUEUE_CTRL_DSIZE : Field := ⟨134, 30, 30, .rw, 0⟩
/-- QUEUE_CTRL.PRIO [29:28], RW (spec/12_couriers_host_coupling.md). -/
def Fld.QUEUE_CTRL_PRIO : Field := ⟨135, 29, 28, .rw, 0⟩
/-- QUEUE_CTRL.ERR_IRQ [27:27], RW (spec/12_couriers_host_coupling.md). -/
def Fld.QUEUE_CTRL_ERR_IRQ : Field := ⟨136, 27, 27, .rw, 0⟩
/-- QUEUE_CTRL.VECTOR [15:8], RW (spec/12_couriers_host_coupling.md). -/
def Fld.QUEUE_CTRL_VECTOR : Field := ⟨137, 15, 8, .rw, 0⟩
/-- The card of QUEUE_CTRL (spec/12_couriers_host_coupling.md). -/
def Crd.QUEUE_CTRL : Card := ⟨47, .doorbell, 0x14, 0, 1, 32, .wing, [Fld.QUEUE_CTRL_ENABLE, Fld.QUEUE_CTRL_DSIZE, Fld.QUEUE_CTRL_PRIO, Fld.QUEUE_CTRL_ERR_IRQ, Fld.QUEUE_CTRL_VECTOR]⟩
/-- SQ_BASE.KIND [63:62], RW (spec/12_couriers_host_coupling.md). -/
def Fld.SQ_BASE_KIND : Field := ⟨138, 63, 62, .rw, 0⟩
/-- SQ_BASE.HEAD [61:58], RW (spec/12_couriers_host_coupling.md). -/
def Fld.SQ_BASE_HEAD : Field := ⟨139, 61, 58, .rw, 0⟩
/-- SQ_BASE.ADDR [57:12], RW (spec/12_couriers_host_coupling.md). -/
def Fld.SQ_BASE_ADDR : Field := ⟨140, 57, 12, .rw, 0⟩
/-- SQ_BASE.SIZE [2:0], RW (spec/12_couriers_host_coupling.md). -/
def Fld.SQ_BASE_SIZE : Field := ⟨141, 2, 0, .rw, 0⟩
/-- The card of SQ_BASE (spec/12_couriers_host_coupling.md). -/
def Crd.SQ_BASE : Card := ⟨48, .doorbell, 0x18, 0, 1, 64, .wing, [Fld.SQ_BASE_KIND, Fld.SQ_BASE_HEAD, Fld.SQ_BASE_ADDR, Fld.SQ_BASE_SIZE]⟩
/-- CQ_BASE.KIND [63:62], RW (spec/12_couriers_host_coupling.md). -/
def Fld.CQ_BASE_KIND : Field := ⟨142, 63, 62, .rw, 0⟩
/-- CQ_BASE.HEAD [61:58], RW (spec/12_couriers_host_coupling.md). -/
def Fld.CQ_BASE_HEAD : Field := ⟨143, 61, 58, .rw, 0⟩
/-- CQ_BASE.ADDR [57:12], RW (spec/12_couriers_host_coupling.md). -/
def Fld.CQ_BASE_ADDR : Field := ⟨144, 57, 12, .rw, 0⟩
/-- CQ_BASE.SIZE [2:0], RW (spec/12_couriers_host_coupling.md). -/
def Fld.CQ_BASE_SIZE : Field := ⟨145, 2, 0, .rw, 0⟩
/-- The card of CQ_BASE (spec/12_couriers_host_coupling.md). -/
def Crd.CQ_BASE : Card := ⟨49, .doorbell, 0x20, 0, 1, 64, .wing, [Fld.CQ_BASE_KIND, Fld.CQ_BASE_HEAD, Fld.CQ_BASE_ADDR, Fld.CQ_BASE_SIZE]⟩
/-- CPL_FLAG.KIND [63:62], RW (spec/12_couriers_host_coupling.md). -/
def Fld.CPL_FLAG_KIND : Field := ⟨146, 63, 62, .rw, 0⟩
/-- CPL_FLAG.HEAD [61:58], RW (spec/12_couriers_host_coupling.md). -/
def Fld.CPL_FLAG_HEAD : Field := ⟨147, 61, 58, .rw, 0⟩
/-- CPL_FLAG.ADDR [57:3], RW (spec/12_couriers_host_coupling.md). -/
def Fld.CPL_FLAG_ADDR : Field := ⟨148, 57, 3, .rw, 0⟩
/-- The card of CPL_FLAG (spec/12_couriers_host_coupling.md). -/
def Crd.CPL_FLAG : Card := ⟨50, .doorbell, 0x28, 0, 1, 64, .wing, [Fld.CPL_FLAG_KIND, Fld.CPL_FLAG_HEAD, Fld.CPL_FLAG_ADDR]⟩
/-- COMPLETED.COUNT [63:0], RO (spec/12_couriers_host_coupling.md). -/
def Fld.COMPLETED_COUNT : Field := ⟨149, 63, 0, .ro, 0⟩
/-- The card of COMPLETED (spec/12_couriers_host_coupling.md). -/
def Crd.COMPLETED : Card := ⟨51, .doorbell, 0x30, 0, 1, 64, .wing, [Fld.COMPLETED_COUNT]⟩
/-- QUEUE_BIND.VALID [31:31], RO (spec/12_couriers_host_coupling.md). -/
def Fld.QUEUE_BIND_VALID : Field := ⟨150, 31, 31, .ro, 0⟩
/-- QUEUE_BIND.WING [19:16], RO (spec/12_couriers_host_coupling.md). -/
def Fld.QUEUE_BIND_WING : Field := ⟨151, 19, 16, .ro, 0⟩
/-- QUEUE_BIND.HEAD [11:8], RO (spec/12_couriers_host_coupling.md). -/
def Fld.QUEUE_BIND_HEAD : Field := ⟨152, 11, 8, .ro, 0⟩
/-- QUEUE_BIND.XDIE [1:0], RO (spec/12_couriers_host_coupling.md). -/
def Fld.QUEUE_BIND_XDIE : Field := ⟨153, 1, 0, .ro, 0⟩
/-- The card of QUEUE_BIND (spec/12_couriers_host_coupling.md). -/
def Crd.QUEUE_BIND : Card := ⟨52, .doorbell, 0x38, 0, 1, 32, .cold, [Fld.QUEUE_BIND_VALID, Fld.QUEUE_BIND_WING, Fld.QUEUE_BIND_HEAD, Fld.QUEUE_BIND_XDIE]⟩
/-- HEAD_CTRL.RELEASE [2:2], WO (spec/13_host_port.md). -/
def Fld.HEAD_CTRL_RELEASE : Field := ⟨154, 2, 2, .wo, 0⟩
/-- HEAD_CTRL.FREEZE [1:1], WO (spec/13_host_port.md). -/
def Fld.HEAD_CTRL_FREEZE : Field := ⟨155, 1, 1, .wo, 0⟩
/-- HEAD_CTRL.FREEZE_ON_FATAL [0:0], RW (spec/13_host_port.md). -/
def Fld.HEAD_CTRL_FREEZE_ON_FATAL : Field := ⟨156, 0, 0, .rw, 1⟩
/-- The card of HEAD_CTRL (spec/13_host_port.md). -/
def Crd.HEAD_CTRL : Card := ⟨53, .headCtl, 0x0, 0, 1, 32, .head, [Fld.HEAD_CTRL_RELEASE, Fld.HEAD_CTRL_FREEZE, Fld.HEAD_CTRL_FREEZE_ON_FATAL]⟩
/-- HEAD_STATUS.NP_OUTSTANDING [31:24], RO (spec/13_host_port.md). -/
def Fld.HEAD_STATUS_NP_OUTSTANDING : Field := ⟨157, 31, 24, .ro, 0⟩
/-- HEAD_STATUS.PERSONALITY [15:12], RO (spec/13_host_port.md). -/
def Fld.HEAD_STATUS_PERSONALITY : Field := ⟨158, 15, 12, .ro, 0⟩
/-- HEAD_STATUS.WING [11:8], RO (spec/13_host_port.md). -/
def Fld.HEAD_STATUS_WING : Field := ⟨159, 11, 8, .ro, 0⟩
/-- HEAD_STATUS.FREEZE_CAUSE [7:6], RO (spec/13_host_port.md). -/
def Fld.HEAD_STATUS_FREEZE_CAUSE : Field := ⟨160, 7, 6, .ro, 0⟩
/-- HEAD_STATUS.FROZEN [5:5], RO (spec/13_host_port.md). -/
def Fld.HEAD_STATUS_FROZEN : Field := ⟨161, 5, 5, .ro, 0⟩
/-- HEAD_STATUS.SWEEP_PENDING [4:4], RO (spec/13_host_port.md). -/
def Fld.HEAD_STATUS_SWEEP_PENDING : Field := ⟨162, 4, 4, .ro, 0⟩
/-- HEAD_STATUS.FLR_ACTIVE [3:3], RO (spec/13_host_port.md). -/
def Fld.HEAD_STATUS_FLR_ACTIVE : Field := ⟨163, 3, 3, .ro, 0⟩
/-- HEAD_STATUS.PRESERVED [2:2], RO (spec/13_host_port.md). -/
def Fld.HEAD_STATUS_PRESERVED : Field := ⟨164, 2, 2, .ro, 0⟩
/-- HEAD_STATUS.MASTER_QUIESCED [1:1], RO (spec/13_host_port.md). -/
def Fld.HEAD_STATUS_MASTER_QUIESCED : Field := ⟨165, 1, 1, .ro, 0⟩
/-- HEAD_STATUS.PATH_BROKEN [0:0], RO (spec/13_host_port.md). -/
def Fld.HEAD_STATUS_PATH_BROKEN : Field := ⟨166, 0, 0, .ro, 0⟩
/-- The card of HEAD_STATUS (spec/13_host_port.md). -/
def Crd.HEAD_STATUS : Card := ⟨54, .headCtl, 0x8, 0, 1, 32, .cold, [Fld.HEAD_STATUS_NP_OUTSTANDING, Fld.HEAD_STATUS_PERSONALITY, Fld.HEAD_STATUS_WING, Fld.HEAD_STATUS_FREEZE_CAUSE, Fld.HEAD_STATUS_FROZEN, Fld.HEAD_STATUS_SWEEP_PENDING, Fld.HEAD_STATUS_FLR_ACTIVE, Fld.HEAD_STATUS_PRESERVED, Fld.HEAD_STATUS_MASTER_QUIESCED, Fld.HEAD_STATUS_PATH_BROKEN]⟩
/-- HEAD_INT_PENDING.PEND [63:0], RW1C (spec/13_host_port.md). -/
def Fld.HEAD_INT_PENDING_PEND : Field := ⟨167, 63, 0, .rw1c, 0⟩
/-- The card of HEAD_INT_PENDING (spec/13_host_port.md). -/
def Crd.HEAD_INT_PENDING : Card := ⟨55, .headCtl, 0x10, 0, 1, 64, .flr, [Fld.HEAD_INT_PENDING_PEND]⟩
/-- HDM_DPA_n.BASE [47:28], RO (spec/13_host_port.md). -/
def Fld.HDM_DPA_BASE : Field := ⟨168, 47, 28, .ro, 0⟩
/-- HDM_DPA_n.VALID [0:0], RO (spec/13_host_port.md). -/
def Fld.HDM_DPA_VALID : Field := ⟨169, 0, 0, .ro, 0⟩
/-- The card of HDM_DPA_n (spec/13_host_port.md). -/
def Crd.HDM_DPA : Card := ⟨56, .headCtl, 0x200, 8, 4, 64, .wing, [Fld.HDM_DPA_BASE, Fld.HDM_DPA_VALID]⟩
/-- IKQ_CTRL.AUTO_RETRAIN [31:31], RW (spec/14_ikiquel_links.md). -/
def Fld.IKQ_CTRL_AUTO_RETRAIN : Field := ⟨170, 31, 31, .rw, 1⟩
/-- IKQ_CTRL.MIN_LANES [19:16], RW (spec/14_ikiquel_links.md). -/
def Fld.IKQ_CTRL_MIN_LANES : Field := ⟨171, 19, 16, .rw, 1⟩
/-- IKQ_CTRL.JG_ROLE [5:4], RO (spec/14_ikiquel_links.md). -/
def Fld.IKQ_CTRL_JG_ROLE : Field := ⟨172, 5, 4, .ro, 0⟩
/-- IKQ_CTRL.SELF [2:0], RO (spec/14_ikiquel_links.md). -/
def Fld.IKQ_CTRL_SELF : Field := ⟨173, 2, 0, .ro, 0⟩
/-- The card of IKQ_CTRL (spec/14_ikiquel_links.md). -/
def Crd.IKQ_CTRL : Card := ⟨57, .ikq, 0x0, 0, 1, 32, .cold, [Fld.IKQ_CTRL_AUTO_RETRAIN, Fld.IKQ_CTRL_MIN_LANES, Fld.IKQ_CTRL_JG_ROLE, Fld.IKQ_CTRL_SELF]⟩
/-- IKQ_TIMERS.TXN_TIMEOUT [47:32], RW (spec/14_ikiquel_links.md). -/
def Fld.IKQ_TIMERS_TXN_TIMEOUT : Field := ⟨174, 47, 32, .rw, 20⟩
/-- IKQ_TIMERS.CREDIT_TIMEOUT [31:16], RW (spec/14_ikiquel_links.md). -/
def Fld.IKQ_TIMERS_CREDIT_TIMEOUT : Field := ⟨175, 31, 16, .rw, 1000⟩
/-- IKQ_TIMERS.REPLAY_TIMER [7:0], RW (spec/14_ikiquel_links.md). -/
def Fld.IKQ_TIMERS_REPLAY_TIMER : Field := ⟨176, 7, 0, .rw, 2⟩
/-- The card of IKQ_TIMERS (spec/14_ikiquel_links.md). -/
def Crd.IKQ_TIMERS : Card := ⟨58, .ikq, 0x8, 0, 1, 64, .cold, [Fld.IKQ_TIMERS_TXN_TIMEOUT, Fld.IKQ_TIMERS_CREDIT_TIMEOUT, Fld.IKQ_TIMERS_REPLAY_TIMER]⟩
/-- IKQ_PORT_q.EPOCH [63:56], RO (spec/14_ikiquel_links.md). -/
def Fld.IKQ_PORT_EPOCH : Field := ⟨177, 63, 56, .ro, 0⟩
/-- IKQ_PORT_q.LANES_UP [47:40], RO (spec/14_ikiquel_links.md). -/
def Fld.IKQ_PORT_LANES_UP : Field := ⟨178, 47, 40, .ro, 0⟩
/-- IKQ_PORT_q.LANES_BAD [39:32], RO (spec/14_ikiquel_links.md). -/
def Fld.IKQ_PORT_LANES_BAD : Field := ⟨179, 39, 32, .ro, 0⟩
/-- IKQ_PORT_q.PEER_VALID [11:11], RO (spec/14_ikiquel_links.md). -/
def Fld.IKQ_PORT_PEER_VALID : Field := ⟨180, 11, 11, .ro, 0⟩
/-- IKQ_PORT_q.PEER [10:8], RO (spec/14_ikiquel_links.md). -/
def Fld.IKQ_PORT_PEER : Field := ⟨181, 10, 8, .ro, 0⟩
/-- IKQ_PORT_q.STATE [2:0], RO (spec/14_ikiquel_links.md). -/
def Fld.IKQ_PORT_STATE : Field := ⟨182, 2, 0, .ro, 0⟩
/-- The card of IKQ_PORT_q (spec/14_ikiquel_links.md). -/
def Crd.IKQ_PORT : Card := ⟨59, .ikq, 0x100, 8, 16, 64, .cold, [Fld.IKQ_PORT_EPOCH, Fld.IKQ_PORT_LANES_UP, Fld.IKQ_PORT_LANES_BAD, Fld.IKQ_PORT_PEER_VALID, Fld.IKQ_PORT_PEER, Fld.IKQ_PORT_STATE]⟩
/-- IKQ_ERR_q.BREAKS [63:48], RO (spec/14_ikiquel_links.md). -/
def Fld.IKQ_ERR_BREAKS : Field := ⟨183, 63, 48, .ro, 0⟩
/-- IKQ_ERR_q.WIDTH_CHANGES [47:32], RO (spec/14_ikiquel_links.md). -/
def Fld.IKQ_ERR_WIDTH_CHANGES : Field := ⟨184, 47, 32, .ro, 0⟩
/-- IKQ_ERR_q.REPLAYS [31:16], RO (spec/14_ikiquel_links.md). -/
def Fld.IKQ_ERR_REPLAYS : Field := ⟨185, 31, 16, .ro, 0⟩
/-- IKQ_ERR_q.CRC_ERRORS [15:0], RO (spec/14_ikiquel_links.md). -/
def Fld.IKQ_ERR_CRC_ERRORS : Field := ⟨186, 15, 0, .ro, 0⟩
/-- The card of IKQ_ERR_q (spec/14_ikiquel_links.md). -/
def Crd.IKQ_ERR : Card := ⟨60, .ikq, 0x200, 8, 16, 64, .cold, [Fld.IKQ_ERR_BREAKS, Fld.IKQ_ERR_WIDTH_CHANGES, Fld.IKQ_ERR_REPLAYS, Fld.IKQ_ERR_CRC_ERRORS]⟩
/-- WING_STATE_w.STATE [63:60], RO (spec/15_wings_isolation.md). -/
def Fld.WING_STATE_STATE : Field := ⟨187, 63, 60, .ro, 0⟩
/-- WING_STATE_w.POLICY [59:59], RO (spec/15_wings_isolation.md). -/
def Fld.WING_STATE_POLICY : Field := ⟨188, 59, 59, .ro, 0⟩
/-- WING_STATE_w.KEY_LOADED [58:58], RO (spec/15_wings_isolation.md). -/
def Fld.WING_STATE_KEY_LOADED : Field := ⟨189, 58, 58, .ro, 0⟩
/-- WING_STATE_w.WINDOWS [55:48], RO (spec/15_wings_isolation.md). -/
def Fld.WING_STATE_WINDOWS : Field := ⟨190, 55, 48, .ro, 0⟩
/-- WING_STATE_w.HEADS [47:32], RO (spec/15_wings_isolation.md). -/
def Fld.WING_STATE_HEADS : Field := ⟨191, 47, 32, .ro, 0⟩
/-- WING_STATE_w.LOOMS [28:16], RO (spec/15_wings_isolation.md). -/
def Fld.WING_STATE_LOOMS : Field := ⟨192, 28, 16, .ro, 0⟩
/-- WING_STATE_w.SCRUB_PCT [15:8], RO (spec/15_wings_isolation.md). -/
def Fld.WING_STATE_SCRUB_PCT : Field := ⟨193, 15, 8, .ro, 0⟩
/-- WING_STATE_w.EXTENTS [7:0], RO (spec/15_wings_isolation.md). -/
def Fld.WING_STATE_EXTENTS : Field := ⟨194, 7, 0, .ro, 0⟩
/-- The card of WING_STATE_w (spec/15_wings_isolation.md). -/
def Crd.WING_STATE : Card := ⟨61, .wingCtl, 0x0, 8, 16, 64, .cold, [Fld.WING_STATE_STATE, Fld.WING_STATE_POLICY, Fld.WING_STATE_KEY_LOADED, Fld.WING_STATE_WINDOWS, Fld.WING_STATE_HEADS, Fld.WING_STATE_LOOMS, Fld.WING_STATE_SCRUB_PCT, Fld.WING_STATE_EXTENTS]⟩
/-- WING_RES_w.PRIO_MAX [63:60], RO (spec/15_wings_isolation.md). -/
def Fld.WING_RES_PRIO_MAX : Field := ⟨195, 63, 60, .ro, 0⟩
/-- WING_RES_w.REGION_BASE [59:48], RO (spec/15_wings_isolation.md). -/
def Fld.WING_RES_REGION_BASE : Field := ⟨196, 59, 48, .ro, 0⟩
/-- WING_RES_w.REGION_COUNT [47:35], RO (spec/15_wings_isolation.md). -/
def Fld.WING_RES_REGION_COUNT : Field := ⟨197, 47, 35, .ro, 0⟩
/-- WING_RES_w.QUEUES [34:25], RO (spec/15_wings_isolation.md). -/
def Fld.WING_RES_QUEUES : Field := ⟨198, 34, 25, .ro, 0⟩
/-- WING_RES_w.ATRIUM_WAYS [15:0], RO (spec/15_wings_isolation.md). -/
def Fld.WING_RES_ATRIUM_WAYS : Field := ⟨199, 15, 0, .ro, 0⟩
/-- The card of WING_RES_w (spec/15_wings_isolation.md). -/
def Crd.WING_RES : Card := ⟨62, .wingCtl, 0x100, 8, 16, 64, .cold, [Fld.WING_RES_PRIO_MAX, Fld.WING_RES_REGION_BASE, Fld.WING_RES_REGION_COUNT, Fld.WING_RES_QUEUES, Fld.WING_RES_ATRIUM_WAYS]⟩
/-- WING_KEY_w.KEY_ID [31:0], RO (spec/15_wings_isolation.md). -/
def Fld.WING_KEY_KEY_ID : Field := ⟨200, 31, 0, .ro, 0⟩
/-- The card of WING_KEY_w (spec/15_wings_isolation.md). -/
def Crd.WING_KEY : Card := ⟨63, .wingCtl, 0x200, 4, 16, 32, .cold, [Fld.WING_KEY_KEY_ID]⟩
/-- SELV_CAP.WINDOW [20:16], RW (spec/17_selvage_power_clocks.md). -/
def Fld.SELV_CAP_WINDOW : Field := ⟨201, 20, 16, .rw, 10⟩
/-- SELV_CAP.CAP [11:0], RW (spec/17_selvage_power_clocks.md). -/
def Fld.SELV_CAP_CAP : Field := ⟨202, 11, 0, .rw, 3000⟩
/-- The card of SELV_CAP (spec/17_selvage_power_clocks.md). -/
def Crd.SELV_CAP : Card := ⟨64, .selvage, 0x0, 0, 1, 32, .cold, [Fld.SELV_CAP_WINDOW, Fld.SELV_CAP_CAP]⟩
/-- SELV_LIMITS.RISE [31:24], RW (spec/17_selvage_power_clocks.md). -/
def Fld.SELV_LIMITS_RISE : Field := ⟨203, 31, 24, .rw, 40⟩
/-- SELV_LIMITS.EXT_POINT [23:20], RW (spec/17_selvage_power_clocks.md). -/
def Fld.SELV_LIMITS_EXT_POINT : Field := ⟨204, 23, 20, .rw, 0⟩
/-- SELV_LIMITS.RAIL_IMAX [11:0], RW (spec/17_selvage_power_clocks.md). -/
def Fld.SELV_LIMITS_RAIL_IMAX : Field := ⟨205, 11, 0, .rw, 800⟩
/-- The card of SELV_LIMITS (spec/17_selvage_power_clocks.md). -/
def Crd.SELV_LIMITS : Card := ⟨65, .selvage, 0x4, 0, 1, 32, .cold, [Fld.SELV_LIMITS_RISE, Fld.SELV_LIMITS_EXT_POINT, Fld.SELV_LIMITS_RAIL_IMAX]⟩
/-- SELV_THERMAL.STACK_POINT [23:16], RW (spec/17_selvage_power_clocks.md). -/
def Fld.SELV_THERMAL_STACK_POINT : Field := ⟨206, 23, 16, .rw, 100⟩
/-- SELV_THERMAL.THROTTLE [7:0], RW (spec/17_selvage_power_clocks.md). -/
def Fld.SELV_THERMAL_THROTTLE : Field := ⟨207, 7, 0, .rw, 100⟩
/-- The card of SELV_THERMAL (spec/17_selvage_power_clocks.md). -/
def Crd.SELV_THERMAL : Card := ⟨66, .selvage, 0x8, 0, 1, 32, .cold, [Fld.SELV_THERMAL_STACK_POINT, Fld.SELV_THERMAL_THROTTLE]⟩
/-- SELV_PHASE.EN [16:16], RW (spec/17_selvage_power_clocks.md). -/
def Fld.SELV_PHASE_EN : Field := ⟨208, 16, 16, .rw, 1⟩
/-- SELV_PHASE.SYNC [11:8], RW (spec/17_selvage_power_clocks.md). -/
def Fld.SELV_PHASE_SYNC : Field := ⟨209, 11, 8, .rw, 4⟩
/-- SELV_PHASE.MEMORY [7:4], RW (spec/17_selvage_power_clocks.md). -/
def Fld.SELV_PHASE_MEMORY : Field := ⟨210, 7, 4, .rw, 10⟩
/-- SELV_PHASE.COMPUTE [3:0], RW (spec/17_selvage_power_clocks.md). -/
def Fld.SELV_PHASE_COMPUTE : Field := ⟨211, 3, 0, .rw, 15⟩
/-- The card of SELV_PHASE (spec/17_selvage_power_clocks.md). -/
def Crd.SELV_PHASE : Card := ⟨67, .selvage, 0xC, 0, 1, 32, .cold, [Fld.SELV_PHASE_EN, Fld.SELV_PHASE_SYNC, Fld.SELV_PHASE_MEMORY, Fld.SELV_PHASE_COMPUTE]⟩
/-- TILE_CTRL.PLLOFF_DELAY [15:0], RW (spec/17_selvage_power_clocks.md). -/
def Fld.TILE_CTRL_PLLOFF_DELAY : Field := ⟨212, 15, 0, .rw, 1000⟩
/-- The card of TILE_CTRL (spec/17_selvage_power_clocks.md). -/
def Crd.TILE_CTRL : Card := ⟨68, .selvage, 0x18, 0, 1, 32, .cold, [Fld.TILE_CTRL_PLLOFF_DELAY]⟩
/-- SELV_STATUS.REASONS [63:48], RO (spec/17_selvage_power_clocks.md). -/
def Fld.SELV_STATUS_REASONS : Field := ⟨213, 63, 48, .ro, 0⟩
/-- SELV_STATUS.ENGAGED [47:47], RO (spec/17_selvage_power_clocks.md). -/
def Fld.SELV_STATUS_ENGAGED : Field := ⟨214, 47, 47, .ro, 0⟩
/-- SELV_STATUS.DIVERGING [46:46], RO (spec/17_selvage_power_clocks.md). -/
def Fld.SELV_STATUS_DIVERGING : Field := ⟨215, 46, 46, .ro, 0⟩
/-- SELV_STATUS.JG_STATE [45:44], RO (spec/17_selvage_power_clocks.md). -/
def Fld.SELV_STATUS_JG_STATE : Field := ⟨216, 45, 44, .ro, 0⟩
/-- SELV_STATUS.JG_POINT [43:40], RO (spec/17_selvage_power_clocks.md). -/
def Fld.SELV_STATUS_JG_POINT : Field := ⟨217, 43, 40, .ro, 0⟩
/-- SELV_STATUS.JG_N [39:24], RO (spec/17_selvage_power_clocks.md). -/
def Fld.SELV_STATUS_JG_N : Field := ⟨218, 39, 24, .ro, 0⟩
/-- SELV_STATUS.CAL [15:0], RO (spec/17_selvage_power_clocks.md). -/
def Fld.SELV_STATUS_CAL : Field := ⟨219, 15, 0, .ro, 4096⟩
/-- The card of SELV_STATUS (spec/17_selvage_power_clocks.md). -/
def Crd.SELV_STATUS : Card := ⟨69, .selvage, 0x10, 0, 1, 64, .cold, [Fld.SELV_STATUS_REASONS, Fld.SELV_STATUS_ENGAGED, Fld.SELV_STATUS_DIVERGING, Fld.SELV_STATUS_JG_STATE, Fld.SELV_STATUS_JG_POINT, Fld.SELV_STATUS_JG_N, Fld.SELV_STATUS_CAL]⟩
/-- SELV_POWER.AVG [63:48], RO (spec/17_selvage_power_clocks.md). -/
def Fld.SELV_POWER_AVG : Field := ⟨220, 63, 48, .ro, 0⟩
/-- SELV_POWER.MEAS [47:32], RO (spec/17_selvage_power_clocks.md). -/
def Fld.SELV_POWER_MEAS : Field := ⟨221, 47, 32, .ro, 0⟩
/-- SELV_POWER.EST [31:16], RO (spec/17_selvage_power_clocks.md). -/
def Fld.SELV_POWER_EST : Field := ⟨222, 31, 16, .ro, 0⟩
/-- SELV_POWER.ALLOW [15:0], RO (spec/17_selvage_power_clocks.md). -/
def Fld.SELV_POWER_ALLOW : Field := ⟨223, 15, 0, .ro, 65535⟩
/-- The card of SELV_POWER (spec/17_selvage_power_clocks.md). -/
def Crd.SELV_POWER : Card := ⟨70, .selvage, 0x20, 0, 1, 64, .cold, [Fld.SELV_POWER_AVG, Fld.SELV_POWER_MEAS, Fld.SELV_POWER_EST, Fld.SELV_POWER_ALLOW]⟩
/-- SELV_TEMP.STACK_MAX [31:16], RO (spec/17_selvage_power_clocks.md). -/
def Fld.SELV_TEMP_STACK_MAX : Field := ⟨224, 31, 16, .ro, 0⟩
/-- SELV_TEMP.JUNCTION_MAX [15:0], RO (spec/17_selvage_power_clocks.md). -/
def Fld.SELV_TEMP_JUNCTION_MAX : Field := ⟨225, 15, 0, .ro, 0⟩
/-- The card of SELV_TEMP (spec/17_selvage_power_clocks.md). -/
def Crd.SELV_TEMP : Card := ⟨71, .selvage, 0x28, 0, 1, 32, .cold, [Fld.SELV_TEMP_STACK_MAX, Fld.SELV_TEMP_JUNCTION_MAX]⟩
/-- SELV_ENERGY.ENERGY [63:0], RO (spec/17_selvage_power_clocks.md). -/
def Fld.SELV_ENERGY_ENERGY : Field := ⟨226, 63, 0, .ro, 0⟩
/-- The card of SELV_ENERGY (spec/17_selvage_power_clocks.md). -/
def Crd.SELV_ENERGY : Card := ⟨72, .selvage, 0x30, 0, 1, 64, .aon, [Fld.SELV_ENERGY_ENERGY]⟩
/-- SELV_REASON_k.DURATION [63:0], RO (spec/17_selvage_power_clocks.md). -/
def Fld.SELV_REASON_DURATION : Field := ⟨227, 63, 0, .ro, 0⟩
/-- The card of SELV_REASON_k (spec/17_selvage_power_clocks.md). -/
def Crd.SELV_REASON : Card := ⟨73, .selvage, 0x100, 8, 16, 64, .cold, [Fld.SELV_REASON_DURATION]⟩
/-- TILE_STATE_t.TEMP [23:16], RO (spec/17_selvage_power_clocks.md). -/
def Fld.TILE_STATE_TEMP : Field := ⟨228, 23, 16, .ro, 0⟩
/-- TILE_STATE_t.HEAT_LIMIT [15:12], RO (spec/17_selvage_power_clocks.md). -/
def Fld.TILE_STATE_HEAT_LIMIT : Field := ⟨229, 15, 12, .ro, 15⟩
/-- TILE_STATE_t.POINT [11:8], RO (spec/17_selvage_power_clocks.md). -/
def Fld.TILE_STATE_POINT : Field := ⟨230, 11, 8, .ro, 0⟩
/-- TILE_STATE_t.PHASE [7:6], RO (spec/17_selvage_power_clocks.md). -/
def Fld.TILE_STATE_PHASE : Field := ⟨231, 7, 6, .ro, 0⟩
/-- TILE_STATE_t.STATE [2:0], RO (spec/17_selvage_power_clocks.md). -/
def Fld.TILE_STATE_STATE : Field := ⟨232, 2, 0, .ro, 0⟩
/-- The card of TILE_STATE_t (spec/17_selvage_power_clocks.md). -/
def Crd.TILE_STATE : Card := ⟨74, .selvage, 0x200, 4, 64, 32, .cold, [Fld.TILE_STATE_TEMP, Fld.TILE_STATE_HEAT_LIMIT, Fld.TILE_STATE_POINT, Fld.TILE_STATE_PHASE, Fld.TILE_STATE_STATE]⟩
/-- LEDGER_CTRL.LATCH_CLASS [7:6], RW (spec/18_fault_ledger.md). -/
def Fld.LEDGER_CTRL_LATCH_CLASS : Field := ⟨233, 7, 6, .rw, 1⟩
/-- LEDGER_CTRL.PIN_CLASS [5:4], RW (spec/18_fault_ledger.md). -/
def Fld.LEDGER_CTRL_PIN_CLASS : Field := ⟨234, 5, 4, .rw, 2⟩
/-- LEDGER_CTRL.FAULT_HOLD [0:0], RW (spec/18_fault_ledger.md). -/
def Fld.LEDGER_CTRL_FAULT_HOLD : Field := ⟨235, 0, 0, .rw, 1⟩
/-- The card of LEDGER_CTRL (spec/18_fault_ledger.md). -/
def Crd.LEDGER_CTRL : Card := ⟨75, .ledger, 0x0, 0, 1, 32, .cold, [Fld.LEDGER_CTRL_LATCH_CLASS, Fld.LEDGER_CTRL_PIN_CLASS, Fld.LEDGER_CTRL_FAULT_HOLD]⟩
/-- LEDGER_STATUS.NEXT_SEQ [63:32], RO (spec/18_fault_ledger.md). -/
def Fld.LEDGER_STATUS_NEXT_SEQ : Field := ⟨236, 63, 32, .ro, 0⟩
/-- LEDGER_STATUS.OPEN_COUNT [20:10], RO (spec/18_fault_ledger.md). -/
def Fld.LEDGER_STATUS_OPEN_COUNT : Field := ⟨237, 20, 10, .ro, 0⟩
/-- LEDGER_STATUS.COMMIT_READY [4:4], RO (spec/18_fault_ledger.md). -/
def Fld.LEDGER_STATUS_COMMIT_READY : Field := ⟨238, 4, 4, .ro, 0⟩
/-- LEDGER_STATUS.MIRROR_STALE [3:3], RO (spec/18_fault_ledger.md). -/
def Fld.LEDGER_STATUS_MIRROR_STALE : Field := ⟨239, 3, 3, .ro, 0⟩
/-- LEDGER_STATUS.FAULT_PHASE [2:2], RO (spec/18_fault_ledger.md). -/
def Fld.LEDGER_STATUS_FAULT_PHASE : Field := ⟨240, 2, 2, .ro, 0⟩
/-- LEDGER_STATUS.FATAL [1:1], RO (spec/18_fault_ledger.md). -/
def Fld.LEDGER_STATUS_FATAL : Field := ⟨241, 1, 1, .ro, 0⟩
/-- The card of LEDGER_STATUS (spec/18_fault_ledger.md). -/
def Crd.LEDGER_STATUS : Card := ⟨76, .ledger, 0x8, 0, 1, 64, .cold, [Fld.LEDGER_STATUS_NEXT_SEQ, Fld.LEDGER_STATUS_OPEN_COUNT, Fld.LEDGER_STATUS_COMMIT_READY, Fld.LEDGER_STATUS_MIRROR_STALE, Fld.LEDGER_STATUS_FAULT_PHASE, Fld.LEDGER_STATUS_FATAL]⟩
/-- LEDGER_FIRST.VALID [63:63], RW1C (spec/18_fault_ledger.md). -/
def Fld.LEDGER_FIRST_VALID : Field := ⟨242, 63, 63, .rw1c, 0⟩
/-- LEDGER_FIRST.CLASS [57:56], RO (spec/18_fault_ledger.md). -/
def Fld.LEDGER_FIRST_CLASS : Field := ⟨243, 57, 56, .ro, 0⟩
/-- LEDGER_FIRST.SOURCE [41:32], RO (spec/18_fault_ledger.md). -/
def Fld.LEDGER_FIRST_SOURCE : Field := ⟨244, 41, 32, .ro, 0⟩
/-- LEDGER_FIRST.SEQ [31:0], RO (spec/18_fault_ledger.md). -/
def Fld.LEDGER_FIRST_SEQ : Field := ⟨245, 31, 0, .ro, 0⟩
/-- The card of LEDGER_FIRST (spec/18_fault_ledger.md). -/
def Crd.LEDGER_FIRST : Card := ⟨77, .ledger, 0x10, 0, 1, 64, .cold, [Fld.LEDGER_FIRST_VALID, Fld.LEDGER_FIRST_CLASS, Fld.LEDGER_FIRST_SOURCE, Fld.LEDGER_FIRST_SEQ]⟩
/-- LEDGER_OVERFLOW.OVERFLOW [63:63], RW1C (spec/18_fault_ledger.md). -/
def Fld.LEDGER_OVERFLOW_OVERFLOW : Field := ⟨246, 63, 63, .rw1c, 0⟩
/-- LEDGER_OVERFLOW.SOURCES [42:32], RO (spec/18_fault_ledger.md). -/
def Fld.LEDGER_OVERFLOW_SOURCES : Field := ⟨247, 42, 32, .ro, 0⟩
/-- LEDGER_OVERFLOW.EVENTS [31:0], RO (spec/18_fault_ledger.md). -/
def Fld.LEDGER_OVERFLOW_EVENTS : Field := ⟨248, 31, 0, .ro, 0⟩
/-- The card of LEDGER_OVERFLOW (spec/18_fault_ledger.md). -/
def Crd.LEDGER_OVERFLOW : Card := ⟨78, .ledger, 0x18, 0, 1, 64, .cold, [Fld.LEDGER_OVERFLOW_OVERFLOW, Fld.LEDGER_OVERFLOW_SOURCES, Fld.LEDGER_OVERFLOW_EVENTS]⟩
/-- LEDGER_FATAL.VALID [63:63], RO (spec/18_fault_ledger.md). -/
def Fld.LEDGER_FATAL_VALID : Field := ⟨249, 63, 63, .ro, 0⟩
/-- LEDGER_FATAL.TRIP [62:62], RO (spec/18_fault_ledger.md). -/
def Fld.LEDGER_FATAL_TRIP : Field := ⟨250, 62, 62, .ro, 0⟩
/-- LEDGER_FATAL.RELEASED [61:61], RO (spec/18_fault_ledger.md). -/
def Fld.LEDGER_FATAL_RELEASED : Field := ⟨251, 61, 61, .ro, 0⟩
/-- LEDGER_FATAL.FORCED [60:60], RO (spec/18_fault_ledger.md). -/
def Fld.LEDGER_FATAL_FORCED : Field := ⟨252, 60, 60, .ro, 0⟩
/-- LEDGER_FATAL.FAULT_CLASS [59:56], RO (spec/18_fault_ledger.md). -/
def Fld.LEDGER_FATAL_FAULT_CLASS : Field := ⟨253, 59, 56, .ro, 0⟩
/-- LEDGER_FATAL.SOURCE [41:32], RO (spec/18_fault_ledger.md). -/
def Fld.LEDGER_FATAL_SOURCE : Field := ⟨254, 41, 32, .ro, 0⟩
/-- LEDGER_FATAL.SEQ [31:0], RO (spec/18_fault_ledger.md). -/
def Fld.LEDGER_FATAL_SEQ : Field := ⟨255, 31, 0, .ro, 0⟩
/-- The card of LEDGER_FATAL (spec/18_fault_ledger.md). -/
def Crd.LEDGER_FATAL : Card := ⟨79, .ledger, 0x20, 0, 1, 64, .cold, [Fld.LEDGER_FATAL_VALID, Fld.LEDGER_FATAL_TRIP, Fld.LEDGER_FATAL_RELEASED, Fld.LEDGER_FATAL_FORCED, Fld.LEDGER_FATAL_FAULT_CLASS, Fld.LEDGER_FATAL_SOURCE, Fld.LEDGER_FATAL_SEQ]⟩
/-- LEDGER_RELEASE.SEQ [31:0], WO (spec/18_fault_ledger.md). -/
def Fld.LEDGER_RELEASE_SEQ : Field := ⟨256, 31, 0, .wo, 0⟩
/-- The card of LEDGER_RELEASE (spec/18_fault_ledger.md). -/
def Crd.LEDGER_RELEASE : Card := ⟨80, .ledger, 0x28, 0, 1, 32, .cold, [Fld.LEDGER_RELEASE_SEQ]⟩
/-- LEDGER_PREV.VALID [63:63], RO (spec/18_fault_ledger.md). -/
def Fld.LEDGER_PREV_VALID : Field := ⟨257, 63, 63, .ro, 0⟩
/-- LEDGER_PREV.POWER_FAIL [62:62], RO (spec/18_fault_ledger.md). -/
def Fld.LEDGER_PREV_POWER_FAIL : Field := ⟨258, 62, 62, .ro, 0⟩
/-- LEDGER_PREV.FIRST_VALID [61:61], RO (spec/18_fault_ledger.md). -/
def Fld.LEDGER_PREV_FIRST_VALID : Field := ⟨259, 61, 61, .ro, 0⟩
/-- LEDGER_PREV.FATAL_VALID [60:60], RO (spec/18_fault_ledger.md). -/
def Fld.LEDGER_PREV_FATAL_VALID : Field := ⟨260, 60, 60, .ro, 0⟩
/-- LEDGER_PREV.FAULT_CLASS [59:56], RO (spec/18_fault_ledger.md). -/
def Fld.LEDGER_PREV_FAULT_CLASS : Field := ⟨261, 59, 56, .ro, 0⟩
/-- LEDGER_PREV.FIRST_CLASS [55:54], RO (spec/18_fault_ledger.md). -/
def Fld.LEDGER_PREV_FIRST_CLASS : Field := ⟨262, 55, 54, .ro, 0⟩
/-- LEDGER_PREV.FATAL_SOURCE [51:42], RO (spec/18_fault_ledger.md). -/
def Fld.LEDGER_PREV_FATAL_SOURCE : Field := ⟨263, 51, 42, .ro, 0⟩
/-- LEDGER_PREV.FIRST_SOURCE [41:32], RO (spec/18_fault_ledger.md). -/
def Fld.LEDGER_PREV_FIRST_SOURCE : Field := ⟨264, 41, 32, .ro, 0⟩
/-- LEDGER_PREV.DROPPED [31:16], RO (spec/18_fault_ledger.md). -/
def Fld.LEDGER_PREV_DROPPED : Field := ⟨265, 31, 16, .ro, 0⟩
/-- The card of LEDGER_PREV (spec/18_fault_ledger.md). -/
def Crd.LEDGER_PREV : Card := ⟨81, .ledger, 0x30, 0, 1, 64, .cold, [Fld.LEDGER_PREV_VALID, Fld.LEDGER_PREV_POWER_FAIL, Fld.LEDGER_PREV_FIRST_VALID, Fld.LEDGER_PREV_FATAL_VALID, Fld.LEDGER_PREV_FAULT_CLASS, Fld.LEDGER_PREV_FIRST_CLASS, Fld.LEDGER_PREV_FATAL_SOURCE, Fld.LEDGER_PREV_FIRST_SOURCE, Fld.LEDGER_PREV_DROPPED]⟩
/-- LEDGER_WINDOW.BASE [2:0], RW (spec/18_fault_ledger.md). -/
def Fld.LEDGER_WINDOW_BASE : Field := ⟨266, 2, 0, .rw, 0⟩
/-- The card of LEDGER_WINDOW (spec/18_fault_ledger.md). -/
def Crd.LEDGER_WINDOW : Card := ⟨82, .ledger, 0x38, 0, 1, 32, .head, [Fld.LEDGER_WINDOW_BASE]⟩
/-- LEDGER_IRQ.EN [31:31], RW (spec/18_fault_ledger.md). -/
def Fld.LEDGER_IRQ_EN : Field := ⟨267, 31, 31, .rw, 0⟩
/-- LEDGER_IRQ.MIN_CLASS [9:8], RW (spec/18_fault_ledger.md). -/
def Fld.LEDGER_IRQ_MIN_CLASS : Field := ⟨268, 9, 8, .rw, 1⟩
/-- LEDGER_IRQ.VECTOR [7:0], RW (spec/18_fault_ledger.md). -/
def Fld.LEDGER_IRQ_VECTOR : Field := ⟨269, 7, 0, .rw, 0⟩
/-- The card of LEDGER_IRQ (spec/18_fault_ledger.md). -/
def Crd.LEDGER_IRQ : Card := ⟨83, .ledger, 0x3C, 0, 1, 32, .flr, [Fld.LEDGER_IRQ_EN, Fld.LEDGER_IRQ_MIN_CLASS, Fld.LEDGER_IRQ_VECTOR]⟩
/-- LEDGER_SRC_n.FORCE [63:63], WO (spec/18_fault_ledger.md). -/
def Fld.LEDGER_SRC_FORCE : Field := ⟨270, 63, 63, .wo, 0⟩
/-- LEDGER_SRC_n.OPEN [62:62], RW1C (spec/18_fault_ledger.md). -/
def Fld.LEDGER_SRC_OPEN : Field := ⟨271, 62, 62, .rw1c, 0⟩
/-- LEDGER_SRC_n.ESCALATED [61:61], RW1C (spec/18_fault_ledger.md). -/
def Fld.LEDGER_SRC_ESCALATED : Field := ⟨272, 61, 61, .rw1c, 0⟩
/-- LEDGER_SRC_n.RAIL_BAD [60:60], RO (spec/18_fault_ledger.md). -/
def Fld.LEDGER_SRC_RAIL_BAD : Field := ⟨273, 60, 60, .ro, 0⟩
/-- LEDGER_SRC_n.BASE [59:58], RW (spec/18_fault_ledger.md). -/
def Fld.LEDGER_SRC_BASE : Field := ⟨274, 59, 58, .rw, 0⟩
/-- LEDGER_SRC_n.ESC [57:56], RW (spec/18_fault_ledger.md). -/
def Fld.LEDGER_SRC_ESC : Field := ⟨275, 57, 56, .rw, 0⟩
/-- LEDGER_SRC_n.N [55:45], RW (spec/18_fault_ledger.md). -/
def Fld.LEDGER_SRC_N : Field := ⟨276, 55, 45, .rw, 0⟩
/-- LEDGER_SRC_n.W [44:29], RW (spec/18_fault_ledger.md). -/
def Fld.LEDGER_SRC_W : Field := ⟨277, 44, 29, .rw, 0⟩
/-- LEDGER_SRC_n.WCOUNT [28:18], RO (spec/18_fault_ledger.md). -/
def Fld.LEDGER_SRC_WCOUNT : Field := ⟨278, 28, 18, .ro, 0⟩
/-- LEDGER_SRC_n.SLOT [17:6], RO (spec/18_fault_ledger.md). -/
def Fld.LEDGER_SRC_SLOT : Field := ⟨279, 17, 6, .ro, 0⟩
/-- The card of LEDGER_SRC_n (spec/18_fault_ledger.md). -/
def Crd.LEDGER_SRC : Card := ⟨84, .ledger, 0x1000, 8, 1024, 64, .cold, [Fld.LEDGER_SRC_FORCE, Fld.LEDGER_SRC_OPEN, Fld.LEDGER_SRC_ESCALATED, Fld.LEDGER_SRC_RAIL_BAD, Fld.LEDGER_SRC_BASE, Fld.LEDGER_SRC_ESC, Fld.LEDGER_SRC_N, Fld.LEDGER_SRC_W, Fld.LEDGER_SRC_WCOUNT, Fld.LEDGER_SRC_SLOT]⟩
/-- LEDGER_CNT_n.TOTAL [63:32], RO (spec/18_fault_ledger.md). -/
def Fld.LEDGER_CNT_TOTAL : Field := ⟨280, 63, 32, .ro, 0⟩
/-- The card of LEDGER_CNT_n (spec/18_fault_ledger.md). -/
def Crd.LEDGER_CNT : Card := ⟨85, .ledger, 0x3000, 8, 1024, 64, .cold, [Fld.LEDGER_CNT_TOTAL]⟩

/-- Every card of spec/, part 0. -/
def allCards0 : List Card := [Crd.ARRAY_FLAGS, Crd.TREADLE_STATUS, Crd.TREADLE_PC, Crd.TALLY_FAULT, Crd.TALLY_FIRST, Crd.REED_CTRL, Crd.REED_FLAGS, Crd.REED_SEED, Crd.CACHE_CTRL, Crd.CACHE_STATUS, Crd.CACHE_LFSR, Crd.CACHE_OP, Crd.HOME_TIMEOUT, Crd.CAT_STATS, Crd.DSP_LAYOUT, Crd.DEP_LAYOUT, Crd.TIER_INTERVAL, Crd.DSP_STACK_STATE, Crd.DEP_CHANNEL_STATE, Crd.ROT_STATE, Crd.ATRIUM_WING, Crd.PATROL_CTRL, Crd.PATROL_STATUS, Crd.MEMINJ_FLIP, Crd.REFRESH_STATE, Crd.CHAN_FAULT, Crd.SPARE_DSP, Crd.SPARE_DEP, Crd.REGION_STATUS, Crd.CONS_BUSY, Crd.CONS_STATE, Crd.TRANS_ROOT]
/-- Every card of spec/, part 1. -/
def allCards1 : List Card := [Crd.TRANS_CTRL, Crd.FQ_BASE, Crd.FQ_PROD, Crd.FQ_CONS, Crd.FAULT_RESUME, Crd.INV_BASE, Crd.INV_SIZE, Crd.INV_CTRL, Crd.ACC_CTRL, Crd.WINDOW_BASE, Crd.SQ_TAIL, Crd.SQ_HEAD, Crd.CQ_TAIL, Crd.CQ_HEAD, Crd.QUEUE_STATUS, Crd.QUEUE_CTRL, Crd.SQ_BASE, Crd.CQ_BASE, Crd.CPL_FLAG, Crd.COMPLETED, Crd.QUEUE_BIND, Crd.HEAD_CTRL, Crd.HEAD_STATUS, Crd.HEAD_INT_PENDING, Crd.HDM_DPA, Crd.IKQ_CTRL, Crd.IKQ_TIMERS, Crd.IKQ_PORT, Crd.IKQ_ERR, Crd.WING_STATE, Crd.WING_RES, Crd.WING_KEY]
/-- Every card of spec/, part 2. -/
def allCards2 : List Card := [Crd.SELV_CAP, Crd.SELV_LIMITS, Crd.SELV_THERMAL, Crd.SELV_PHASE, Crd.TILE_CTRL, Crd.SELV_STATUS, Crd.SELV_POWER, Crd.SELV_TEMP, Crd.SELV_ENERGY, Crd.SELV_REASON, Crd.TILE_STATE, Crd.LEDGER_CTRL, Crd.LEDGER_STATUS, Crd.LEDGER_FIRST, Crd.LEDGER_OVERFLOW, Crd.LEDGER_FATAL, Crd.LEDGER_RELEASE, Crd.LEDGER_PREV, Crd.LEDGER_WINDOW, Crd.LEDGER_IRQ, Crd.LEDGER_SRC, Crd.LEDGER_CNT]
/-- Every card of spec/. -/
def allCards : List Card := [allCards0, allCards1, allCards2].flatten
/-- The reset domain of each field, by field number, part 0. -/
def fieldDomains0 : List Domain := [.wing, .wing, .wing, .wing, .wing, .wing, .wing, .wing, .wing, .wing, .wing, .wing, .wing, .wing, .wing, .wing, .wing, .wing, .wing, .wing, .wing, .wing, .wing, .wing, .wing, .wing, .wing, .wing, .wing, .wing, .wing, .wing]
/-- The reset domain of each field, by field number, part 1. -/
def fieldDomains1 : List Domain := [.wing, .wing, .wing, .wing, .cold, .cold, .cold, .cold, .cold, .cold, .cold, .cold, .cold, .cold, .cold, .cold, .cold, .cold, .cold, .cold, .cold, .cold, .cold, .wing, .wing, .cold, .cold, .cold, .cold, .cold, .cold, .cold]
/-- The reset domain of each field, by field number, part 2. -/
def fieldDomains2 : List Domain := [.cold, .cold, .cold, .cold, .cold, .cold, .cold, .cold, .cold, .cold, .cold, .cold, .cold, .cold, .cold, .cold, .cold, .wing, .wing, .wing, .wing, .wing, .wing, .wing, .wing, .wing, .cold, .cold, .cold, .cold, .wing, .wing]
/-- The reset domain of each field, by field number, part 3. -/
def fieldDomains3 : List Domain := [.wing, .wing, .wing, .wing, .wing, .wing, .wing, .wing, .wing, .wing, .wing, .wing, .wing, .wing, .wing, .wing, .wing, .wing, .wing, .flr, .flr, .wing, .wing, .wing, .wing, .wing, .wing, .wing, .wing, .wing, .wing, .wing]
/-- The reset domain of each field, by field number, part 4. -/
def fieldDomains4 : List Domain := [.wing, .wing, .wing, .wing, .wing, .wing, .wing, .wing, .wing, .wing, .wing, .wing, .wing, .wing, .wing, .wing, .wing, .wing, .wing, .wing, .wing, .wing, .cold, .cold, .cold, .cold, .head, .head, .head, .cold, .cold, .cold]
/-- The reset domain of each field, by field number, part 5. -/
def fieldDomains5 : List Domain := [.cold, .cold, .cold, .cold, .cold, .cold, .cold, .flr, .wing, .wing, .cold, .cold, .cold, .cold, .cold, .cold, .cold, .cold, .cold, .cold, .cold, .cold, .cold, .cold, .cold, .cold, .cold, .cold, .cold, .cold, .cold, .cold]
/-- The reset domain of each field, by field number, part 6. -/
def fieldDomains6 : List Domain := [.cold, .cold, .cold, .cold, .cold, .cold, .cold, .cold, .cold, .cold, .cold, .cold, .cold, .cold, .cold, .cold, .cold, .cold, .cold, .cold, .cold, .cold, .cold, .cold, .cold, .cold, .cold, .cold, .cold, .cold, .cold, .cold]
/-- The reset domain of each field, by field number, part 7. -/
def fieldDomains7 : List Domain := [.cold, .cold, .aon, .cold, .cold, .cold, .cold, .cold, .cold, .cold, .cold, .cold, .cold, .cold, .cold, .cold, .cold, .cold, .cold, .cold, .cold, .cold, .cold, .cold, .cold, .cold, .cold, .cold, .cold, .cold, .cold, .cold]
/-- The reset domain of each field, by field number, part 8. -/
def fieldDomains8 : List Domain := [.cold, .cold, .cold, .cold, .cold, .cold, .cold, .cold, .cold, .cold, .head, .flr, .flr, .flr, .cold, .cold, .cold, .cold, .cold, .cold, .cold, .cold, .cold, .cold, .cold]
/-- The reset domain of each field, by field number. -/
def fieldDomains : List Domain := [fieldDomains0, fieldDomains1, fieldDomains2, fieldDomains3, fieldDomains4, fieldDomains5, fieldDomains6, fieldDomains7, fieldDomains8].flatten


/-- The reset domain of a field (R9). -/
def Field.domain (f : Field) : Domain := fieldDomains.getD f.id .cold

end Sys2Proof.Machine
end

