-- ==== Sys2Proof/Machine/Types.lean ====
section
/-! DEFINITION. The operands that commands carry: treadle instruction fields (Tables 4-3, 4-8, 4-9), weave messages
(Table 7-7), Ikiquel messages (spec/14), and what hosts, peers, boards and sensors supply. -/

namespace Sys2Proof.Machine

/-- Class 0x0 fields (Table 4-3). -/
structure RArgs where
  rd : Reg
  rs1 : Reg
  rs2 : Reg
  rsvd : BitVec 7 := 0
  deriving DecidableEq, Repr

/-- Class 0x1 fields. -/
structure IArgs where
  rd : Reg
  rs1 : Reg
  imm : BitVec 14
  deriving DecidableEq, Repr

/-- Class 0x2 fields. -/
structure MovwArgs where
  rd : Reg
  hw : BitVec 2
  keep : Bool
  rsvd : BitVec 4 := 0
  imm : BitVec 16
  deriving DecidableEq, Repr

/-- Class 0x3 fields. -/
structure LoadArgs where
  rd : Reg
  rs1 : Reg
  imm : BitVec 15
  deriving DecidableEq, Repr

/-- Class 0x4 fields. -/
structure StoreArgs where
  rs2 : Reg
  rs1 : Reg
  imm : BitVec 16
  deriving DecidableEq, Repr

/-- Class 0x5 fields. -/
structure AtomArgs where
  rd : Reg
  rs1 : Reg
  rs2 : Reg
  wide : Bool
  rsvd : BitVec 8 := 0
  deriving DecidableEq, Repr

/-- Class 0x6 fields. -/
structure BrArgs where
  rs1 : Reg
  rs2 : Reg
  imm : BitVec 15
  deriving DecidableEq, Repr

/-- Class 0x7 fields. -/
structure JalArgs where
  rd : Reg
  imm : BitVec 23
  deriving DecidableEq, Repr

/-- Class 0x8 fields. -/
structure JalrArgs where
  rd : Reg
  rs1 : Reg
  rsvd : BitVec 4 := 0
  imm : BitVec 14
  deriving DecidableEq, Repr

/-- Class 0x9 fields. -/
structure CacheArgs where
  rs1 : Reg
  imm : BitVec 19
  deriving DecidableEq, Repr

/-- Class 0xA fields. -/
structure SrArgs where
  r : Reg
  rsvd : BitVec 10 := 0
  num : BitVec 12
  deriving DecidableEq, Repr

/-- Class 0xB fields. -/
structure ScrArgs where
  size : BitVec 2
  sext : Bool
  r : Reg
  rs1 : Reg
  imm : BitVec 14
  deriving DecidableEq, Repr

/-- Class 0xC fields (Table 4-8). -/
structure ArrArgs where
  fmt : BitVec 4 := 0
  acc : BitVec 2
  strict : Bool := false
  fresh : Bool := false
  tally : Tally
  afterV : Bool := false
  after : Tally := 0
  rAB : Reg := 0
  rS : Reg := 0
  kb : BitVec 8 := 0
  pitchA : BitVec 8 := 0
  pitchB : BitVec 8 := 0
  rsvd : BitVec 3 := 0
  deriving DecidableEq, Repr

/-- Class 0xE fields (Table 4-9); `rsvd` joins bit 0 and bits [34:32]. -/
structure XferArgs where
  tally : Tally := 0
  afterV : Bool := false
  after : Tally := 0
  rMem : Reg
  rScr : Reg
  notify : Bool := false
  rStr : Reg := 0
  rows : BitVec 12 := 0
  len : BitVec 12 := 0
  rsvd : BitVec 4 := 0
  deriving DecidableEq, Repr

/-- Class 0xF fields (R111). -/
structure SysArgs where
  rd : Reg := 0
  rs1 : Reg := 0
  imm : BitVec 14 := 0
  deriving DecidableEq, Repr

/-- An engine whose accesses to a line are part of a larger step: what it is working on.  It sends requests of its own
only where a head's copy stands in the way (R185 note 4). -/
inductive Work
  /-- a page walker: die × 16 + number (R281) -/
  | walker (k : BitVec 7)
  /-- a conservator run, by its slot (R255) -/
  | run (slot : BitVec 6)
  /-- the fault queue of a wing (R286) -/
  | faults (w : WingId)
  /-- a wing's scrub (R195) -/
  | scrub (w : WingId)
  /-- the epoch word of a region that is enabled (R249) -/
  | region (r : RegionId)
  deriving DecidableEq, Repr

/-- Which part of the device asked for something: the requester a home, port or head answers. -/
inductive Agent
  /-- the data cache of a loom (tracked, Table 7-3) -/
  | cache (n : LoomId)
  /-- uncached loads, stores and atomics of a treadle -/
  | treadle (n : LoomId)
  /-- the transfer unit of a loom -/
  | xfer (n : LoomId)
  /-- instruction fetch of a loom -/
  | ifetch (n : LoomId)
  /-- a courier of an X-die pool -/
  | courier (c : BitVec 6)
  /-- a head, standing for its host (tracked, Table 7-3) -/
  | head (h : HeadId)
  /-- an Ikiquel port, standing for its peer -/
  | port (q : PortId)
  /-- an engine that waits for a head's copy -/
  | engine (w : Work)
  deriving DecidableEq, Repr

/-- Read-modify-write operations of the atomics (Table 4-4, class 0x5). -/
inductive AtomOp | swap | add | and | or | xor | min | max | minu | maxu | cas
  deriving DecidableEq, Repr

/-- Requests to a home (Table 7-7, class REQ). -/
inductive ReqKind
  | readShared | readOwn | upgrade | ownNoData | writeBack | writeClean | cleanEvict | readOnce | write
  | atomic (op : AtomOp) | reduceWrite
  deriving DecidableEq, Repr

/-- One request on the weave. -/
structure Req where
  kind : ReqKind
  src : Agent
  /-- serial number that binds the answer to the request -/
  tag : Nat
  /-- DPA[47:8] -/
  line : BitVec 40
  /-- sectors the request names -/
  sects : BitVec 4
  data : Line := 0
  /-- bytes a write or a reduction covers -/
  mask : BitVec 256 := 0
  /-- sectors whose write data is poisoned -/
  poison : BitVec 4 := 0
  /-- atomics: byte offset in the line, 64-bit when `wide`, operand and compare value -/
  off : BitVec 8 := 0
  wide : Bool := false
  opnd : W64 := 0
  cmp : W64 := 0
  /-- wing of the requester, and the placement hint of R189 -/
  wing : WingId := 0
  place : BitVec 14 := 0
  retries : Nat := 0
  aged : Bool := false
  credit : Bool := false
  deriving DecidableEq, Repr

/-- Messages other than requests (Table 7-7, classes FWD, RSP and DAT). -/
inductive MsgKind
  | recallKeep | recallCopy | recallInv | invalidate | stash
  | data | recallData | recallAck | invAck | comp | compAck | retryNoTracker | retryBusy | credit | stashAck
  deriving DecidableEq, Repr

/-- One message on the weave: between the home of `line` and `agent`. -/
structure Msg where
  kind : MsgKind
  agent : Agent
  tag : Nat
  line : BitVec 40
  sects : BitVec 4
  data : Line := 0
  /-- data: sectors granted E; recall answers: sectors that were dirty -/
  excl : BitVec 4 := 0
  /-- data: sectors granted M; recall answers: sectors whose copy is kept -/
  own : BitVec 4 := 0
  poison : BitVec 4 := 0
  /-- recallData of a head: the bytes its host's MemWr names -/
  mask : BitVec 256 := 0
  /-- stash: wing of the writer; stashAck: whether the loom installed; invalidate: its loom is the requester and is spared -/
  wing : WingId := 0
  ok : Bool := false
  deriving DecidableEq, Repr

/-- What an engine was doing when its translation missed or faulted (Table 11-6 CLASS). -/
inductive Engine
  | treadle (n : LoomId)
  | ifetch (n : LoomId)
  | storeBuf (n : LoomId)
  | xfer (n : LoomId) (op : Nat)
  | courier (c : BitVec 6)
  /-- a courier that writes a completion record or flag of a queue (R308) -/
  | compl (c : BitVec 6) (q : QueueId)
  deriving DecidableEq, Repr

/-- The kind of a virtual access, for the checks of Table 11-3. -/
inductive AccKind | load | store | atomic | exec | hint
  deriving DecidableEq, Repr

/-- Message types of an Ikiquel link (Table 14-4). -/
inductive IkKind | rd | atom | wr | wrm | cmp | rdata | atomdata | jgLimit | jgCommit | jgAck
  deriving DecidableEq, Repr

end Sys2Proof.Machine
end

