-- ==== Sys2Proof/Machine/LoomState.lean ====
section
/-! DEFINITION. The state of one loom: program-visible state (Table 4-1), the queues of the array, the reed and
the transfer unit (R103, R109, R121, R123), the data cache, eviction buffer and store buffer (spec/06), the loom
TLB (R280), and what the treadle waits for. -/

namespace Sys2Proof.Machine

/-- An after-dependency (R94): met, on the operation with a serial number, or failed. -/
inductive Dep | met | on (id : Nat) | failed
  deriving DecidableEq, Repr

/-- A queued or running WEAVE-family operation (Table 4-8), with the registers read at issue. -/
structure ArrOp where
  id : Nat
  op : BitVec 2
  a : ArrArgs
  dep : Dep
  ab : W64
  s : W64
  deriving DecidableEq, Repr

/-- Causes of a tally fault (Table 4-7). -/
inductive TFault | poisoned | linkLost | indeterminate | translation | wingDenied | dependency | cancelled
  deriving DecidableEq, Repr

def TFault.code : TFault → Nat
  | .poisoned => 1 | .linkLost => 2 | .indeterminate => 3 | .translation => 4 | .wingDenied => 5
  | .dependency => 6 | .cancelled => 7

/-- One outstanding request of a transfer: bytes [scr, scr+len) of scratch against `dpa`. -/
structure XOut where
  tag : Nat
  scr : Nat
  dpa : Nat
  len : Nat
  read : Bool
  /-- toward a host: `dpa` is an I/O virtual address -/
  host : Bool := false
  deriving DecidableEq, Repr

/-- A queued or started transfer (Table 4-9): op 0 FETCH, 1 PUT, 2 SEND. -/
structure Xfer where
  id : Nat
  op : BitVec 3
  tally : Tally
  dep : Dep
  /-- memory virtual address; SEND: destination scratch address -/
  addr : W64
  dest : LoomId
  notify : Bool
  index : BitVec 6
  scr : Nat
  pitch : Nat
  stride : Int
  rows : Nat
  len : Nat
  /-- next byte to issue: row × len + offset -/
  pos : Nat := 0
  outs : List XOut := []
  faults : List TFault := []
  /-- stopped at a page whose translation waits for the host (R286) -/
  stalled : Bool := false
  /-- writes of the transfer lost on a path toward a host, toward a peer (R165) -/
  lostHost : Bool := false
  lostPeer : Bool := false
  deriving DecidableEq, Repr

/-- A reed instruction in a queue: its word, the treadle registers read at issue, the captured REED_CTRL
and the generator state from which its stochastic draws run (R121, R123, R139). -/
structure ReedOp where
  id : Nat
  word : W64
  ta : W64
  tm : W64
  ctrl : W32
  seed : W64
  dep : Dep := .met
  deriving DecidableEq, Repr

/-- Sector states of the loom data cache (R144). -/
inductive Moesi | m | o | e | s | i
  deriving DecidableEq, Repr

/-- A line of the data cache (R144). -/
structure CLine where
  /-- DPA[47:8] -/
  line : BitVec 40
  lock : Bool := false
  s0 : Moesi := .i
  s1 : Moesi := .i
  s2 : Moesi := .i
  s3 : Moesi := .i
  data : Line := 0
  /-- sectors requested and not yet answered -/
  wait : BitVec 4 := 0
  /-- sectors whose WriteClean is not yet acknowledged and that no store changed since (Table 6-1) -/
  clean : BitVec 4 := 0
  deriving DecidableEq, Repr

/-- An eviction buffer entry (R148). -/
structure EvLine where
  l : CLine
  sent : Bool := false
  tag : Nat := 0
  deriving DecidableEq, Repr

/-- Where a store buffer entry goes. -/
inductive Dest
  | mem                              -- display or depot of this package
  | scratch                          -- loom scratch of this package
  | alias_                           -- reduction alias
  | peer (p : PeerId)
  | host (h : HeadId)
  deriving DecidableEq, Repr

/-- A TLB entry (R280): a virtual page of a wing and the leaf's fields. -/
structure Tlb where
  wing : WingId
  va : Nat
  big : Bool
  leaf : W64
  deriving DecidableEq, Repr

/-- A store buffer entry (R157).  `again`: its host fault was resumed with RETRY, so it is translated again (R480). -/
structure StEnt where
  id : Nat
  dest : Dest
  attr : BitVec 3
  /-- DPA of the line; host leaf: IOVA of the line -/
  line : BitVec 56
  va : W64
  mask : BitVec 256
  data : Line
  begun : Bool := false
  /-- sectors still to be sent or acknowledged, by request tag -/
  tags : List Nat := []
  sent : Bool := false
  /-- ZERO.LINE, CLEAN.LINE ordered as stores (Table 6-1) -/
  zero : Bool := false
  clean : Bool := false
  stalled : Bool := false
  again : Bool := false
  /-- the translation it was issued with, and the tick from which a broken path counts (R166) -/
  tlb : Option Tlb := none
  lostAt : Option Nat := none
  deriving DecidableEq, Repr

/-- A load the treadle waits for: destination, bytes, sign extension. -/
structure LoadW where
  rd : Reg
  bytes : Nat
  sext : Bool
  deriving DecidableEq, Repr

inductive FenceKind | sl | all | io | global
  deriving DecidableEq, Repr

/-- What holds the treadle. -/
inductive Stall
  /-- ready for its next instruction -/
  | run
  /-- a translation miss or fault: the instruction has not taken effect (R281, R286) -/
  | walk
  /-- a load miss: the line's sectors are on their way (R146) -/
  | fill (w : LoadW) (addr : Nat) (line : BitVec 40)
  /-- LOCK.PRELOAD: the line's sectors are on their way (R150) -/
  | lock (line : BitVec 40)
  /-- an uncached load (R145) -/
  | uncached (w : LoadW) (addr : Nat) (tag : Nat)
  /-- an atomic at its home (R161) -/
  | atomic (rd : Reg) (wide : Bool) (tag : Nat)
  /-- a fence (R164), with the early-acknowledged writes it covers -/
  | fence (k : FenceKind) (cover : List Nat)
  | tallyWait (rd : Reg) (mask : W64)
  | inboxWait (rd : Reg) (mask : W64)
  /-- BARRIER: its fence, then its arrival (R113) -/
  | barrierFence (rd : Reg) (cover : List Nat)
  | barrier (rd : Reg)
  /-- HALT waits for all tallies (R111) -/
  | halt (code : BitVec 8)
  /-- a change of WAY_ON (R151) -/
  | ways (on : BitVec 8)
  /-- CACHE_OP: 1 CLEAN_ALL, 2 FLUSH_ALL (R168) -/
  | cacheOp (op : BitVec 2)
  /-- a VCMP or VEXT that writes a treadle register (R122) -/
  | reed
  /-- an instruction cache miss: the line, the tag of each part of it that has not arrived, and the parts that have (R154) -/
  | fetch (line : Nat) (tags : List Nat) (code : BitVec 1024)
  deriving DecidableEq, Repr

/-- How a loom is leaving RUNNING (R117, R118, R163). -/
inductive Ending | none | halt | stopped | paused | fenced
  deriving DecidableEq, Repr

/-- A write acknowledged early (Table 6-2 note 2): the final acknowledgement is still to come.  `xfer`: the transfer it
belongs to; `va`: its address. -/
structure EarlyW where
  tag : Nat
  dest : Dest
  va : W64 := 0
  xfer : Option Nat := none
  lostAt : Option Nat := none
  deriving DecidableEq, Repr

structure Loom where
  t : Fmap W64 := []
  pc : BitVec 56 := 0
  v : Fmap (BitVec 512) := []
  /-- accumulator container (i, j) of acc a at 64a + 8i + j -/
  acc : Fmap W32 := []
  /-- busy tallies and the operation that holds each (R93) -/
  tally : Fmap Nat := []
  inbox : W64 := 0
  rank : BitVec 16 := 0
  size : BitVec 16 := 0
  scratch : Memory := []
  arrayQ : List ArrOp := []
  arrayRun : Option ArrOp := none
  xferQ : List Xfer := []
  xferRun : List Xfer := []
  reedQ : List ReedOp := []
  drainQ : List ReedOp := []
  stall : Stall := .run
  ending : Ending := .none
  /-- a requested pause or fence, taken at the next instruction boundary (R117) -/
  request : Ending := .none
  group : Option (BitVec 6) := none
  cache : Fmap CLine := []
  evict : List EvLine := []
  stb : List StEnt := []
  /-- instruction cache (R154): the 128-byte lines held, by virtual address / 128, with their bytes, oldest first -/
  icache : List (Nat × BitVec 1024) := []
  streamCount : Nat := 0
  streamLast : Nat := 0
  tlb : List Tlb := []
  /-- requests of the data cache without their whole answer: tag, line, sectors still to come (R175) -/
  pend : List (Nat × BitVec 40 × BitVec 4) := []
  /-- CLEAN.LINE, way power and CACHE_OP write-backs not yet acknowledged, by tag -/
  cleanTags : List Nat := []
  early : List EarlyW := []
  /-- writes lost since the last covering fence: own point, toward a host, toward a peer (R165, R166) -/
  lost : Bool := false
  lostHost : Bool := false
  lostPeer : Bool := false
  /-- the same for transfers whose tally completed while a fence was waiting: the next fence covers them -/
  lateHost : Bool := false
  latePeer : Bool := false
  /-- AON tick at which the current launch began -/
  launched : Nat := 0
  deriving DecidableEq, Repr

end Sys2Proof.Machine
end

