-- ==== Sys2Proof/Machine/HeadState.lean ====
section
/-! DEFINITION. The state of one head (spec/13): link, configuration space, interrupts, error reporting, HDM decoders,
Dynamic Capacity, requests toward its host; and what the device sends on its outer interfaces. -/

namespace Sys2Proof.Machine

/-- CXL.cache requests a head issues (Table 13-10). -/
inductive HostOp | rdCurr | itoMWr | woWrInv
  deriving DecidableEq, Repr

/-- A CXL.cache request of one 64-byte host line: issued, or waiting while Bus Master Enable is clear (R303, R331). -/
structure HostReq where
  /-- request tag of the agent -/
  tag : Nat
  op : HostOp
  src : Agent
  /-- translated address of the line -/
  addr : Nat
  mask : BitVec 64 := BitVec.allOnes 64
  data : Sector := 0
  poison : Bool := false
  /-- already acknowledged to its writer (DEVICE_EA) -/
  early : Bool := false
  deriving DecidableEq, Repr

/-- An HDM decoder (R321): committed, locked, base, size, skip, interleave ways and granularity codes, position. -/
structure Hdm where
  committed : Bool := false
  locked : Bool := false
  base : Nat := 0
  size : Nat := 0
  skip : Nat := 0
  iw : Nat := 0
  ig : Nat := 0
  pos : Nat := 0
  deriving DecidableEq, Repr

/-- A Dynamic Capacity extent (R323): region, DPA, bytes, and its progress. -/
inductive DcSt | offered | accepted | releasing
  deriving DecidableEq, Repr

structure DcExtent where
  region : Nat
  base : Nat
  len : Nat
  st : DcSt
  deriving DecidableEq, Repr

/-- A Dynamic Capacity region of a Type 3 head: base, bytes, sharable. -/
structure DcRegion where
  base : Nat := 0
  len : Nat := 0
  sharable : Bool := false
  deriving DecidableEq, Repr

/-- What the device sends on its outer interfaces, oldest first. -/
inductive Tx
  /-- CXL.mem read data: tag, data, poison -/
  | memData (h : HeadId) (tag : Nat) (data : Sector) (poison : Bool)
  | memCmp (h : HeadId) (tag : Nat)
  /-- back-invalidate snoops, single lines -/
  | biSnp (h : HeadId) (kind : MsgKind) (dpa : Nat)
  | cacheReq (h : HeadId) (r : HostReq)
  | snpRsp (h : HeadId)
  | atsReq (h : HeadId) (iova : Nat)
  | atsInvDone (h : HeadId) (itag : Nat)
  | msg (h : HeadId) (addr data : Nat)
  | assertInta (h : HeadId)
  | deassertInta (h : HeadId)
  | errCor (h : HeadId)
  | errNonfatal (h : HeadId)
  | errFatal (h : HeadId)
  | cfgData (h : HeadId) (v : Nat)
  | cfgRetry (h : HeadId)
  | romData (h : HeadId) (bytes : List Byte)
  | bar2Data (h : HeadId) (tag : Nat) (v : Nat) (poison : Bool)
  /-- completion of an unsupported request -/
  | unsupported (h : HeadId)
  | dcEvent (h : HeadId) (add : Bool) (base len : Nat)
  /-- a flit: bytes 0 to 247, then its CRC -/
  | flit (q : PortId) (raw : BitVec 1984) (crc : BitVec 64)
  /-- a control flit that names a lane (R348), the link-down flit -/
  | width (q : PortId) (lane : BitVec 3)
  | linkDown (q : PortId)
  | lockFrame (f : BitVec 64)
  | railFrame (rail mv : Nat)
  | smbus (bytes : List Byte)
  /-- the responder's NACK -/
  | nack
  /-- the end of a mailbox command: mailbox, opcode, CXL return code, RESULT, output -/
  | mbox (box op ret result : Nat) (out : List Byte)
  /-- the end of a command whose layout CXL 3.1 gives: the values of its output in the order of R398's text -/
  | cxl (box op ret : Nat) (vals : List Nat)
  | nibble (v : BitVec 4)
  deriving DecidableEq, Repr

/-- A host request that a head has handed to a home and not yet answered: its weave tag, the host's tag, the bytes it
names in its line. -/
structure HostMem where
  tag : Nat
  htag : Nat
  bar2 : Bool
  off : Nat
  len : Nat
  /-- its link went down: no response is sent (Table 13-8) -/
  gone : Bool := false
  deriving DecidableEq, Repr

/-- A host read that waits for the head's sweep (R193, R340): its tag, address and SnpType. -/
inductive Snp | noOp | data | inv
  deriving DecidableEq, Repr

structure MemWait where
  htag : Nat
  hpa : Nat
  snp : Snp
  deriving DecidableEq, Repr

/-- A BAR 2 request in order (R313): DPA, bytes, and for a write its data. -/
structure BarReq where
  htag : Nat
  write : Bool
  dpa : Nat
  len : Nat
  data : Nat := 0
  /-- the window was disabled when it arrived -/
  off : Bool := false
  /-- bytes done so far, what a read has read, and whether some of it was poisoned -/
  got : Nat := 0
  acc : Nat := 0
  poison : Bool := false
  deriving DecidableEq, Repr

structure Head where
  up : Bool := false
  /-- the link carries CXL.cache and CXL.mem (R318) -/
  cxl : Bool := false
  width : Nat := 0
  speed : Nat := 0
  /-- Request Retry Status (R324) -/
  rrs : Bool := true
  mse : Bool := false
  bme : Bool := false
  perr : Bool := false
  serr : Bool := false
  intxOff : Bool := false
  bars : Fmap Nat := []
  /-- other writable configuration dwords, by dword number -/
  cfg : Fmap Nat := []
  msixEn : Bool := false
  msixMask : Bool := false
  /-- MSI-X table entries of 16 bytes; an unlisted entry is masked (PCI Express 6.0) -/
  msix : Fmap (BitVec 128) := []
  pba : BitVec 256 := 0
  msiEn : Bool := false
  msiLog : Nat := 0
  msiAddr : Nat := 0
  msiData : Nat := 0
  msiMask : BitVec 32 := 0
  msiPend : BitVec 32 := 0
  inta : Bool := false
  /-- AER: status, mask, severity, correctable status and mask, first error pointer, header log -/
  uncStatus : BitVec 32 := 0
  uncMask : BitVec 32 := 0x00400000
  uncSev : BitVec 32 := 0x10462030
  corStatus : BitVec 32 := 0
  corMask : BitVec 32 := 0x00006000
  fep : Nat := 0
  hdrLog : BitVec 128 := 0
  /-- the TLP Prefix Log (R337) -/
  prefixLog : BitVec 128 := 0
  /-- device control: error reporting enables -/
  corEn : Bool := false
  nfEn : Bool := false
  fatEn : Bool := false
  atsEn : Bool := false
  pm : Nat := 0
  hdm : Fmap Hdm := []
  dcRegions : Fmap DcRegion := []
  dc : List DcExtent := []
  outs : List HostReq := []
  waiting : List HostReq := []
  /-- tick at which Bus Master Enable was cleared -/
  bmeOff : Option Nat := none
  /-- Bus Master Enable stayed clear for 10 ms (R331) -/
  bmeBroken : Bool := false
  /-- tick from which a broken path counts its 2 ms (R166) -/
  brokenAt : Nat := 0
  flrAt : Option Nat := none
  /-- held lower halves of 64-bit registers, by register and instance (R7) -/
  halves : Fmap Nat := []
  /-- host requests at homes, reads that wait for the sweep, BAR 2 requests not yet sent -/
  mem : List HostMem := []
  memWait : List MemWait := []
  bar2Q : List BarReq := []
  /-- ATS Invalidation Requests not yet answered: their tag, and the requests that used a dropped entry (R283) -/
  atsInv : List (Nat × List Nat) := []
  /-- registers of the RAS capability (R331, Table 13-9) -/
  rasUnc : BitVec 32 := 0
  rasUncMask : BitVec 32 := 0x0001CFFF
  rasUncSev : BitVec 32 := 0x0001CFFF
  rasCor : BitVec 32 := 0
  rasCorMask : BitVec 32 := 0x0000007F
  rasHdr : BitVec 512 := 0
  /-- the DOE mailbox: dwords of the object being written, dwords of the response (R343) -/
  doeReq : List Nat := []
  doeRsp : List Nat := []
  /-- SPDM messages exchanged since the last GET_VERSION, which a signature covers (R343) -/
  spdm : List Byte := []
  deriving DecidableEq, Repr

end Sys2Proof.Machine
end

