-- ==== Sys2Proof/Machine/LinkState.lean ====
section
/-! DEFINITION. The state of an Ikiquel port (spec/14): messages, flits, replay buffer, credits, requests without a
response; the job group; and of a courier queue (spec/12). -/

namespace Sys2Proof.Machine

/-- A message of an Ikiquel link (Table 14-3) with its data; `vc` is its virtual channel (Table 14-2). -/
structure PMsg where
  opc : BitVec 8
  vc : BitVec 3
  epoch : BitVec 8
  wing : WingId := 0
  attr : BitVec 4 := 0
  wide : Bool := false
  tag : BitVec 10 := 0
  len : BitVec 9 := 0
  status : BitVec 8 := 0
  src : BitVec 13 := 0
  off : BitVec 48 := 0
  /-- reserved header bits, joined -/
  rsvd : BitVec 15 := 0
  mask : BitVec 64 := 0
  data : Line := 0
  deriving DecidableEq, Repr

/-- A message at a port; `own` names the requester of this package and its request tag. -/
structure PItem where
  m : PMsg
  own : Option (Agent × Nat) := none
  /-- the writer was acknowledged when the port took it (DEVICE_EA) -/
  early : Bool := false
  /-- tick at which it was queued; once sent, the tick at which its response is overdue (R362, R371) -/
  since : Nat
  deriving DecidableEq, Repr

/-- A payload flit of the replay buffer (R351). -/
structure PFlit where
  seq : BitVec 12
  slots : List (BitVec 128)
  /-- tick at which its acknowledgement is overdue -/
  due : Nat
  deriving DecidableEq, Repr

structure Port where
  queue : List PItem := []
  outs : List PItem := []
  replay : List PFlit := []
  nextSeq : BitVec 12 := 0
  nextRx : BitVec 12 := 0
  /-- consecutive resends without progress (R353) -/
  resends : Nat := 0
  /-- last resend and last NAK: sequence number, and the tick until which it is not repeated -/
  lastResend : Option (BitVec 12 × Nat) := none
  lastNak : Option (BitVec 12 × Nat) := none
  /-- credits held, and receive slots to give back, by channel -/
  credits : Fmap Nat := []
  owed : Fmap Nat := []
  /-- tick at which a channel has waited too long without credits (R356) -/
  starved : Fmap Nat := []
  /-- slots of a message received in part -/
  rx : List (BitVec 128) := []
  rxBulk : Bool := false
  /-- messages received in full and not yet handled, oldest first -/
  inq : List PMsg := []
  /-- requests of the peer that homes perform: weave tag, message (R360, R364) -/
  serve : List (Nat × PMsg) := []
  /-- tick at which the width change began (R348) -/
  widthAt : Nat := 0
  /-- tick of the last break, if the port is DOWN since it; and of the last failed training -/
  brokenAt : Option Nat := none
  failedAt : Option Nat := none
  deriving DecidableEq, Repr

/-- The job group (R369, R370, R469). -/
structure JobGroup where
  n : BitVec 16 := 0
  point : BitVec 4 := 0
  /-- commit taken and not yet applied: N, point, tick -/
  due : Option (BitVec 16 × BitVec 4 × Nat) := none
  /-- latest limit of each member, by peer -/
  limits : Fmap (BitVec 4) := []
  lastCommit : Nat := 0
  inLock : Bool := false
  lastRepeat : Nat := 0
  /-- acknowledged commit of each member, by peer (JG_ACK) -/
  acks : Fmap (BitVec 16) := []
  /-- LOCK ring: tick of the last LIMIT frame sent and not yet returned; the ring is broken; the limit that returned -/
  ringAt : Option Nat := none
  ringBroken : Bool := false
  ringLimit : Option (BitVec 4) := none
  ringSent : Nat := 0
  deriving DecidableEq, Repr

/-- A destination path of courier writes (R309). -/
inductive CPath | device | host (h : HeadId) | peer (p : PeerId)
  deriving DecidableEq, Repr

/-- An outstanding courier request: byte offset and bytes of the extent.  A source read names the destination that its
data goes to; a write names its source. -/
structure COut where
  tag : Nat
  /-- serial number of the descriptor -/
  own : Nat
  off : Nat
  len : Nat
  /-- a source read; else a write on `path` -/
  read : Bool
  path : CPath
  /-- source and destination: DPA, window address, or translated host address -/
  src : Nat := 0
  dst : Nat := 0
  /-- REDUCE_FORWARD: the source sector is cleared when this write is final; -/
  clear : Bool := false
  /-- the write reduces -/
  reduce : Bool := false
  /-- placement hint (Table 7-12) -/
  place : BitVec 14 := 0
  /-- the courier that performs it (R296) -/
  courier : BitVec 6 := 0
  /-- a source read that has its data, which waits for a write of the courier to end: the data and poison of the write to
  come, and the status that it ends the descriptor with -/
  ready : Bool := false
  data : Line := 0
  poison : BitVec 4 := 0
  st : Nat := 0
  /-- tick at which its path was lost (R311) -/
  lostAt : Option Nat := none
  deriving DecidableEq, Repr

inductive DPhase
  /-- issuing its reads and writes -/
  | run
  /-- a LAUNCH waits for its looms to be free, then for their end (R114, R306) -/
  | launchWait | launched
  /-- everything is issued; completion actions wait for final writes (R308) -/
  | issued
  /-- the record, then the flag, is on its way, then the interrupt -/
  | record (tag : Option Nat) | flag (tag : Option Nat)
  deriving DecidableEq, Repr

/-- A descriptor of a queue (Table 12-2). -/
structure Desc where
  id : Nat
  slot : Nat
  bytes : List Byte
  courier : BitVec 6
  phase : DPhase := .run
  pos : Nat := 0
  /-- its checks have passed -/
  begun : Bool := false
  status : Nat := 0
  /-- offset of the first byte not known to be written, once it ends early -/
  stopAt : Option Nat := none
  result : Nat := 0
  /-- stalled on a translation (walk, ATS or resumable fault) -/
  stalled : Bool := false
  /-- it stops at the next 4 KiB boundary of its extent (Table 12-6) -/
  abort : Bool := false
  /-- value of COMPLETED that counts it -/
  count : Nat := 0
  looms : List LoomId := []
  /-- the bitmap of a LAUNCH as far as it has been read, and the poison in it (R306) -/
  bits : Nat := 0
  /-- its next completion write was refused by its translation and is discarded -/
  dropped : Bool := false
  deriving DecidableEq, Repr

/-- What a queue does between descriptors. -/
inductive QFetch
  | idle
  /-- re-fetch `n` (1 to 8) is due at a tick (R301) -/
  | backoff (n : Nat) (at_ : Nat)
  /-- waits for a doorbell -/
  | doorbell
  /-- a ring read on its way: attempt, tags still out by offset, bytes received -/
  | read (n : Nat) (tags : List (Nat × Nat)) (got : Nat)
  deriving DecidableEq, Repr

structure CQueue where
  cur : Option Desc := none
  /-- issued descriptors whose completion is not finished, oldest first -/
  rest : List Desc := []
  /-- outstanding requests of its descriptors, completed ones included -/
  outs : List COut := []
  /-- courier that serves the queue -/
  courier : Option (BitVec 6) := none
  fetch : QFetch := .idle
  /-- the order in which it was last served (R298) -/
  served : Nat := 0
  deriving DecidableEq, Repr

end Sys2Proof.Machine
end

