-- ==== Sys2Proof/Machine/MemState.lean ====
section
/-! DEFINITION. The state of the memory side: catalogue, open transactions and waiting requests of the homes
(spec/07), location table, rotations, atrium and retirement (spec/08, spec/09), the contents of both tiers with
their poison marks, and the translation structures (spec/11). -/

namespace Sys2Proof.Machine

/-- Directory states of Table 7-6. -/
inductive DirSt | uncached | shared | excl | owned
  deriving DecidableEq, Repr

/-- A sector record: state and owner agent id (8,191 when none). -/
structure DirSec where
  st : DirSt := .uncached
  owner : Nat := 8191
  deriving DecidableEq, Repr

/-- A catalogue entry (Table 7-5): way, form, four sector records, sharers. -/
structure CatEnt where
  way : Nat := 0
  coarse : Bool := false
  d0 : DirSec := {}
  d1 : DirSec := {}
  d2 : DirSec := {}
  d3 : DirSec := {}
  ptrs : List Nat := []
  tiles : BitVec 64 := 0
  heads : BitVec 16 := 0
  deriving DecidableEq, Repr

/-- To whom a snoop goes: one agent, or a clock tile by multicast (R181). -/
inductive SnpTo | agent (id : Nat) | tile (t : TileId)
  deriving DecidableEq, Repr

/-- A Recall or Invalidate not yet answered, with its timer (R191). -/
structure Snoop where
  tgt : SnpTo
  kind : MsgKind
  line : BitVec 40
  sects : BitVec 4
  count : Nat := 1
  deadline : Nat
  deriving DecidableEq, Repr

inductive TxPhase
  /-- a catalogue victim's holders are being asked (R183) -/
  | evict (victim : BitVec 40)
  /-- holders of the line are being asked -/
  | snoop
  /-- the requester's CompAck is awaited (R175) -/
  | ack
  /-- a Stash is out (R190) -/
  | stash
  /-- every line of the full set is busy: an entry to evict is awaited (R183) -/
  | room
  deriving DecidableEq, Repr

/-- An open transaction: it keeps its line busy (R175). -/
structure Txn where
  req : Req
  phase : TxPhase
  waits : List Snoop := []
  /-- sectors not yet decided -/
  todo : BitVec 4
  /-- recalled data and the sectors it covers -/
  data : Line := 0
  got : BitVec 4 := 0
  dirty : BitVec 4 := 0
  /-- sectors whose former owner keeps a copy (Recall keep) -/
  kept : BitVec 4 := 0
  /-- sectors of OWNED or EXCL whose holder stayed silent (R191) -/
  dead : BitVec 4 := 0
  reserved : Bool := false
  /-- a Stash as a transaction of its own (R190) -/
  push : Bool := false
  deriving DecidableEq, Repr

/-- What an engine asked of a home before a step of its own: sectors of a line that a head holds, to be recalled for a
read or given up for a write; done once the home has answered. -/
structure Ask where
  work : Work
  line : Nat
  sects : BitVec 4
  tag : Nat
  write : Bool
  done : Bool := false
  deriving DecidableEq, Repr

/-- A location (Table 8-3): KIND and SLOT. -/
structure Slot where
  kind : BitVec 2
  slot : BitVec 30
  deriving DecidableEq, Repr

/-- STATE of a location entry. -/
inductive LocSt | unpopulated | resident | rotating | held
  deriving DecidableEq, Repr

structure Loc where
  st : LocSt
  at_ : Slot
  deriving DecidableEq, Repr

/-- One rotation in progress (R216): its page, destination, and the marked lines of the round. -/
structure Rot where
  page : Nat
  src : Slot
  dst : Slot
  /-- lines of the page written at the source since they were last copied -/
  marked : List Nat := []
  deriving DecidableEq, Repr

/-- A line of the atrium (R210). -/
structure ALine where
  line : BitVec 40
  valid : BitVec 4 := 0
  dirty : BitVec 4 := 0
  poison : BitVec 4 := 0
  data : Line := 0
  pinned : Bool := false
  nru : Bool := false
  deriving DecidableEq, Repr

/-- A frame: tier and location of its first row (R237). -/
structure Frame where
  depot : Bool
  /-- display: 32 × stack + channel; depot: channel -/
  chan : Nat
  rank : Nat
  bank : Nat
  row : Nat
  deriving DecidableEq, Repr

/-- A retirement in progress (R238): home of the channel, frames, number of the first spare frame, mailbox, whether the
command named a whole bank. -/
structure Retire where
  home : Nat
  frames : List Frame
  spare : Nat
  box : Nat
  bank : Bool := false
  deriving DecidableEq, Repr

/-- A translation asked of a walker, in order of arrival; `on` is the number of the walker of its die that runs it, none while
it waits for a walker or joined the walk of its page (R281). -/
structure Walk where
  engine : Engine
  wing : WingId
  va : W64
  kind : AccKind
  on : Option Nat := none
  deriving DecidableEq, Repr

/-- An open fault record of the pending table (R286, Table 11-6). -/
structure FRec where
  wing : WingId
  tag : Nat
  page : Nat
  va : W64
  cause : Nat
  engines : List (Engine × Nat)
  joined : Nat := 0
  write : Bool
  exec : Bool
  level : Nat
  cls : Nat
  engineNo : Nat
  addr : W64
  written : Bool := false
  deriving DecidableEq, Repr

/-- An ATC entry of a head (R282). -/
structure Atc where
  head : HeadId
  iova : Nat
  size : Nat
  target : Nat
  write : Bool
  deriving DecidableEq, Repr

/-- An ATS Translation Request that has no completion yet (R282). -/
structure AtsReq where
  head : HeadId
  iova : Nat
  write : Bool
  engine : Engine
  wing : WingId
  va : W64
  /-- page size of the host leaf; 0 for an address that no leaf gave -/
  page : Nat := 0
  /-- its Translation Request has been sent; else it waits for Bus Master Enable (R331) -/
  sent : Bool := true
  deriving DecidableEq, Repr

/-- An invalidation in progress (R290): request tags of the wing without an answer when it started, and stores of its
range, as loom and entry, that had not left their store buffers. -/
structure Inval where
  wing : WingId
  tags : List Nat := []
  stores : List (Nat × Nat) := []
  deriving DecidableEq, Repr

/-- The homes, their catalogues and what waits at them. -/
structure Weave where
  reqs : List Req := []
  msgs : List Msg := []
  /-- requests refused with Retry, as their requesters keep them; true = waits for a Credit (R176) -/
  refused : List (Req × Bool) := []
  cat : Fmap CatEnt := []
  /-- way last evicted, by home × 2^19 + set (R183) -/
  lastWay : Fmap Nat := []
  txns : Fmap Txn := []
  /-- WriteBacks waiting for a busy line (R176) -/
  wbq : List Req := []
  agedQ : List Req := []
  /-- accepted requests that wait for a line or a tracker: reissued with a Credit, or released from a HELD page (R176, R194) -/
  waitQ : List Req := []
  /-- what engines asked of heads' copies -/
  asks : List Ask := []
  /-- requests that wait for a HELD page (Table 8-6) -/
  held : List Req := []
  /-- pending-credit bits by home, in agent order, and the last agent credited (R176) -/
  credit : Fmap (List Nat) := []
  creditLast : Fmap Nat := []
  /-- ABSENT heads (R193) and heads whose sweep is not finished -/
  absent : BitVec 16 := 0
  sweeping : BitVec 16 := 0
  nextTag : Nat := 1
  deriving DecidableEq, Repr

/-- A routine entry of 128 bytes (Table 10-7). -/
abbrev Entry := BitVec 1024

/-- A conservator run (R255): its region, entries as read, the entry and element at which it stands, run scalars, the
STATUS bits of the entry, ADAM and REQUANT state, values computed once per entry, and the order to stop. -/
structure Run where
  region : Nat
  entries : List Entry := []
  idx : Nat := 0
  pos : Nat := 0
  xs : List Nat := [0, 0, 0, 0]
  bits : Nat := 0
  s0 : Nat := 0
  s1 : Nat := 0
  seed : W64 := 0
  /-- the list has ended -/
  ended : Bool := false
  /-- fault code with which to stop at the next chunk boundary; 16 = the region is to become DISABLED -/
  stop : Option Nat := none
  deriving DecidableEq, Repr

/-- Both tiers. -/
structure Tiers where
  mem : Memory := []
  /-- poisoned 64-byte units, as DPA / 64, rising (R227) -/
  poison : List Nat := []
  /-- stored symbol errors by DPA / 64: codeword, symbol index, XOR value (R240) -/
  errs : Fmap (List (Nat × Nat × Nat)) := []
  loc : Fmap Loc := []
  heat : Fmap Nat := []
  /-- free slots: rotation reserve and rounding rest (R202) -/
  free : List Slot := []
  /-- slots that left the free pool after a failed rotation (Table 8-6) -/
  lostSlots : List Slot := []
  /-- stored symbol errors of lines outside any page, by slot and unit (R233, R240) -/
  slotErrs : Fmap (List (Nat × Nat × Nat)) := []
  /-- evacuations that a failed rotation stopped, which the operator may resume (R218, R219) -/
  evacHalt : List Nat := []
  rots : Fmap Rot := []
  /-- evacuations in progress: stack s as s, depot channel c as 16 + c, and the mailbox (R218, R219) -/
  evac : List (Nat × Nat) := []
  atrium : Fmap ALine := []
  pins : List (WingId × Nat × Nat) := []
  retired : List (Frame × Nat) := []
  retiring : List Retire := []
  /-- retries of the current command, by channel number (R229) -/
  retries : Fmap Nat := []
  /-- physical layout fixed at start-up: depot ranks per DIMM, present channel capacity -/
  ranks : Nat := 1
  /-- units read in the current patrol pass: 0 display, 1 depot (R233) -/
  patrolPos : Fmap Nat := []
  /-- tier counter period: tick of the last halving (R215) -/
  lastHalf : Nat := 0
  /-- known bad pins and spare lanes taken, by display channel (R231) -/
  badPins : Fmap (List Nat) := []
  lanesUsed : Fmap Nat := []
  deriving DecidableEq, Repr

/-- Translation. -/
structure Trans where
  /-- die TLBs 0–3 and courier TLBs 4–7 -/
  dieTlb : Fmap (List Tlb) := []
  /-- page-walk caches: wing, level-and-index key, pointer -/
  pwc : Fmap (List (WingId × Nat × W64)) := []
  walks : List Walk := []
  recs : List FRec := []
  /-- engines stalled without a record because the table is full (R286) -/
  unrecorded : List FRec := []
  /-- records that wait for the line of their slot, and whether each is resumable -/
  fqWait : List FRec := []
  nextTag : Fmap Nat := []
  atc : List Atc := []
  ats : List AtsReq := []
  inval : List Inval := []
  /-- access counters by die × 2^40 + wing × 2^36 + region (R292) -/
  counts : Fmap Nat := []
  deriving DecidableEq, Repr

end Sys2Proof.Machine
end

