-- ==== Sys2Proof/Machine/Operands.lean ====
section
/-! DEFINITION. Operands of the commands that come from outside the looms: where a register write goes, what ports, boards,
sensors and training report. -/

namespace Sys2Proof.Machine

/-- Writable registers of the CXL RAS capability (R337). -/
inductive RasReg | unc | uncMask | uncSev | cor | corMask
  deriving DecidableEq, Repr

/-- Where a REGISTER_WRITE goes. -/
inductive RegDest
  /-- BAR 0 offset, a 64-bit access, the value; a poisoned TLP -/
  | bar0 (off : Nat) (wide : Bool) (v : W64) (poison : Bool := false)
  | bar4 (off : Nat) (v : W32)
  | hdm (n : BitVec 2) (x : Hdm)
  | ras (r : RasReg) (v : W32)
  deriving DecidableEq, Repr

/-- Content of a control flit (R346, R348, R362); its layout is not in spec/. -/
inductive CtlFlit | none | linkDown | width (lane : BitVec 3)
  deriving DecidableEq, Repr

/-- What the partner reported at training: its SELF, the peer it expects, its last epoch; the lanes that passed. -/
structure TrainMsg where
  ok : Bool
  self : Nat
  expects : Nat
  epoch : Nat
  lanes : Nat
  deriving DecidableEq, Repr

/-- What training a channel found (R231): failed DQ or ECC lanes, a failed command lane. -/
structure TrainRes where
  lanes : List Nat := []
  cmdLane : Bool := false
  deriving DecidableEq, Repr

/-- DIMMs found by serial presence detect (R198): none, a population that breaks Table 8-1, or DIMMs per channel, GiB per
DIMM, MRDIMMs, the highest rate that every DIMM supports in 100 MT/s, ranks per DIMM. -/
inductive Population | empty | bad | dimms (dpc cap : Nat) (mr : Bool) (rate ranks : Nat)
  deriving DecidableEq, Repr

/-- What start-up finds outside the registrar: which images verify, the DIMMs, the depot mode, and the lanes that failed by
display channel. -/
structure StartIn where
  okA : Bool
  okB : Bool
  pop : Population
  group : Bool := false
  lanes : List (Nat × TrainRes) := []
  deriving DecidableEq, Repr

/-- Where the patrol reads next: a line of a page, a unit of a slot that holds no page, a spare frame (R233). -/
inductive PatrolAt | page (a : BitVec 48) | slot (s : Slot) (u : BitVec 20) | spare
  deriving DecidableEq, Repr

/-- The interface command that a channel repeats: the channel; of a line of a page, or of another place; a write or not (R229). -/
structure RetryIn where
  chan : BitVec 10
  at_ : Option (BitVec 48) := none
  write : Bool := false
  deriving DecidableEq, Repr

/-- Activity of the period: the sum of the consumers' estimates before calibration and the measurement in mW, demands of
links and memory in mW, demands and floors (point 0, duty 1/8) of the tiles in 0.25 A. -/
structure ArbIn where
  act : Nat := 0
  meas : Nat := 0
  links : Nat := 0
  mem : Nat := 0
  demand : List Nat := []
  floors : List Nat := []
  deriving DecidableEq, Repr

/-- Activity of a tile in 100 µs: loom clocks, those in which its array was busy, and those in which looms waited on
loads, fetches or tallies of transfers (R421). -/
structure TileAct where
  clocks : Nat := 0
  busy : Nat := 0
  wait : Nat := 0
  deriving DecidableEq, Repr

/-- What the selvage measured in 100 µs: the activity of each tile, and the highest point whose estimate fits its share
of the compute budget. -/
structure SlowIn where
  act : List TileAct := []
  power : List Nat := []
  deriving DecidableEq, Repr

/-- Errors of Table 13-9. -/
inductive Aer
  | receiver | badTlp | badDllp | replayRollover | replayTimer | corrInternal | advisory
  | dlProtocol | flowControl | overflow | malformed | uncInternal | ideFail | poisonedTlp | completionTimeout
  | unexpected | unsupported
  deriving DecidableEq, Repr

/-- Errors that a link or its protocol layers detect by themselves: no command of the model causes them. -/
def Aer.ofLink : Aer → Bool
  | .receiver | .badTlp | .badDllp | .replayRollover | .replayTimer | .dlProtocol | .flowControl | .overflow | .malformed
  | .ideFail => true
  | _ => false

/-- Errors that hardware detects by itself (Tables 13-9, 18-1): a parity error in a loom cache or TLB of a tile; a mesh retry, a
bridge retry or an uncorrectable message of a die's weave; an SRAM error of a home or of an X-die; an error in a registrar
handler; an error of the ledger's own storage; an error of a head's link. -/
inductive HwErr
  | tile (t : BitVec 6)
  | weave (die k : BitVec 2)
  | home (m : BitVec 2) (bad : Bool)
  | xdie (x : BitVec 2) (bad : Bool)
  | handler
  | ledger (bad : Bool)
  | aer (h : HeadId) (e : Aer)
  deriving DecidableEq, Repr

end Sys2Proof.Machine
end

