-- ==== Sys2Proof/Syntax.lean ====
section
/-! DEFINITION. The commands of the block: one constructor per row of spec/opcode_table.json, in the table's order, with
the operands the row's rule names. -/

namespace Sys2Proof

open Machine

/-- The commands. -/
inductive Instr
  /-- REGISTER_WRITE (R5): A write to a register field that has no row of its own, applied under its access code. -/
  | registerWrite (h : HeadId) (x : RegDest)
  /-- ADD (R88): Treadle register ADD. -/
  | add (n : LoomId) (a : RArgs)
  /-- SUB (R88): Treadle register SUB. -/
  | sub (n : LoomId) (a : RArgs)
  /-- AND (R88): Treadle register AND. -/
  | and (n : LoomId) (a : RArgs)
  /-- OR (R88): Treadle register OR. -/
  | or (n : LoomId) (a : RArgs)
  /-- XOR (R88): Treadle register XOR. -/
  | xor (n : LoomId) (a : RArgs)
  /-- SLL (R88): Treadle shift left logical. -/
  | sll (n : LoomId) (a : RArgs)
  /-- SRL (R88): Treadle shift right logical. -/
  | srl (n : LoomId) (a : RArgs)
  /-- SRA (R88): Treadle shift right arithmetic. -/
  | sra (n : LoomId) (a : RArgs)
  /-- SLT (R88): Treadle set if less than, signed. -/
  | slt (n : LoomId) (a : RArgs)
  /-- SLTU (R88): Treadle set if less than, unsigned. -/
  | sltu (n : LoomId) (a : RArgs)
  /-- MIN (R88): Treadle signed minimum. -/
  | min (n : LoomId) (a : RArgs)
  /-- MAX (R88): Treadle signed maximum. -/
  | max (n : LoomId) (a : RArgs)
  /-- MINU (R88): Treadle unsigned minimum. -/
  | minu (n : LoomId) (a : RArgs)
  /-- MAXU (R88): Treadle unsigned maximum. -/
  | maxu (n : LoomId) (a : RArgs)
  /-- MUL (R88): Treadle multiply, low 64 bits. -/
  | mul (n : LoomId) (a : RArgs)
  /-- MULH (R88): Treadle signed multiply, high 64 bits. -/
  | mulh (n : LoomId) (a : RArgs)
  /-- MULHU (R88): Treadle unsigned multiply, high 64 bits. -/
  | mulhu (n : LoomId) (a : RArgs)
  /-- DIV (R88): Treadle signed divide toward zero. -/
  | div (n : LoomId) (a : RArgs)
  /-- DIVU (R88): Treadle unsigned divide. -/
  | divu (n : LoomId) (a : RArgs)
  /-- REM (R88): Treadle signed remainder. -/
  | rem (n : LoomId) (a : RArgs)
  /-- REMU (R88): Treadle unsigned remainder. -/
  | remu (n : LoomId) (a : RArgs)
  /-- ADDI (R88): Treadle add immediate. -/
  | addi (n : LoomId) (a : IArgs)
  /-- ANDI (R88): Treadle AND immediate. -/
  | andi (n : LoomId) (a : IArgs)
  /-- ORI (R88): Treadle OR immediate. -/
  | ori (n : LoomId) (a : IArgs)
  /-- XORI (R88): Treadle XOR immediate. -/
  | xori (n : LoomId) (a : IArgs)
  /-- SLLI (R88): Treadle shift left logical immediate. -/
  | slli (n : LoomId) (a : IArgs)
  /-- SRLI (R88): Treadle shift right logical immediate. -/
  | srli (n : LoomId) (a : IArgs)
  /-- SRAI (R88): Treadle shift right arithmetic immediate. -/
  | srai (n : LoomId) (a : IArgs)
  /-- SLTI (R88): Treadle set if less than immediate. -/
  | slti (n : LoomId) (a : IArgs)
  /-- SLTIU (R88): Treadle set if less than immediate, unsigned. -/
  | sltiu (n : LoomId) (a : IArgs)
  /-- MOVW (R88): Treadle moves a 16-bit immediate into a register halfword. -/
  | movw (n : LoomId) (a : MovwArgs)
  /-- LB (R159): Treadle load of a sign-extended byte. -/
  | lb (n : LoomId) (a : LoadArgs)
  /-- LH (R159): Treadle load of a sign-extended halfword. -/
  | lh (n : LoomId) (a : LoadArgs)
  /-- LW (R159): Treadle load of a sign-extended word. -/
  | lw (n : LoomId) (a : LoadArgs)
  /-- LD (R159): Treadle load of a doubleword. -/
  | ld (n : LoomId) (a : LoadArgs)
  /-- LBU (R159): Treadle load of a zero-extended byte. -/
  | lbu (n : LoomId) (a : LoadArgs)
  /-- LHU (R159): Treadle load of a zero-extended halfword. -/
  | lhu (n : LoomId) (a : LoadArgs)
  /-- LWU (R159): Treadle load of a zero-extended word. -/
  | lwu (n : LoomId) (a : LoadArgs)
  /-- SB (R157): Treadle byte store into the store buffer. -/
  | sb (n : LoomId) (a : StoreArgs)
  /-- SH (R157): Treadle halfword store into the store buffer. -/
  | sh (n : LoomId) (a : StoreArgs)
  /-- SW (R157): Treadle word store into the store buffer. -/
  | sw (n : LoomId) (a : StoreArgs)
  /-- SD (R157): Treadle doubleword store into the store buffer. -/
  | sd (n : LoomId) (a : StoreArgs)
  /-- ATOMIC_SWAP (R161): Treadle atomic swap at the home. -/
  | atomicSwap (n : LoomId) (a : AtomArgs)
  /-- ATOMIC_ADD (R161): Treadle atomic add at the home. -/
  | atomicAdd (n : LoomId) (a : AtomArgs)
  /-- ATOMIC_AND (R161): Treadle atomic AND at the home. -/
  | atomicAnd (n : LoomId) (a : AtomArgs)
  /-- ATOMIC_OR (R161): Treadle atomic OR at the home. -/
  | atomicOr (n : LoomId) (a : AtomArgs)
  /-- ATOMIC_XOR (R161): Treadle atomic XOR at the home. -/
  | atomicXor (n : LoomId) (a : AtomArgs)
  /-- ATOMIC_MIN (R161): Treadle atomic signed minimum. -/
  | atomicMin (n : LoomId) (a : AtomArgs)
  /-- ATOMIC_MAX (R161): Treadle atomic signed maximum. -/
  | atomicMax (n : LoomId) (a : AtomArgs)
  /-- ATOMIC_MINU (R161): Treadle atomic unsigned minimum. -/
  | atomicMinu (n : LoomId) (a : AtomArgs)
  /-- ATOMIC_MAXU (R161): Treadle atomic unsigned maximum. -/
  | atomicMaxu (n : LoomId) (a : AtomArgs)
  /-- ATOMIC_CAS (R161): Treadle atomic compare-and-swap. -/
  | atomicCas (n : LoomId) (a : AtomArgs)
  /-- BRANCH_EQ (R88): Treadle branch if equal. -/
  | branchEq (n : LoomId) (a : BrArgs)
  /-- BRANCH_NE (R88): Treadle branch if not equal. -/
  | branchNe (n : LoomId) (a : BrArgs)
  /-- BRANCH_LT (R88): Treadle branch if less than, signed. -/
  | branchLt (n : LoomId) (a : BrArgs)
  /-- BRANCH_GE (R88): Treadle branch if greater or equal, signed. -/
  | branchGe (n : LoomId) (a : BrArgs)
  /-- BRANCH_LTU (R88): Treadle branch if less than, unsigned. -/
  | branchLtu (n : LoomId) (a : BrArgs)
  /-- BRANCH_GEU (R88): Treadle branch if greater or equal, unsigned. -/
  | branchGeu (n : LoomId) (a : BrArgs)
  /-- JAL (R88): Treadle jump and link, pc-relative. -/
  | jal (n : LoomId) (a : JalArgs)
  /-- JALR (R88): Treadle jump and link through a register. -/
  | jalr (n : LoomId) (a : JalrArgs)
  /-- PREFETCH_R (R153): Hint that allocates a line with shared sectors. -/
  | prefetchR (n : LoomId) (a : CacheArgs)
  /-- PREFETCH_W (R153): Hint that allocates a line with ownership of all sectors. -/
  | prefetchW (n : LoomId) (a : CacheArgs)
  /-- ZERO_LINE (R153): Allocates a line in M with every byte zero without fetching. -/
  | zeroLine (n : LoomId) (a : CacheArgs)
  /-- CLEAN_LINE (R153): Writes back M or O sectors of a line and keeps it present. -/
  | cleanLine (n : LoomId) (a : CacheArgs)
  /-- LOCK_PRELOAD (R150): Allocates and locks a line in ways 0 to 3, or refuses. -/
  | lockPreload (n : LoomId) (a : CacheArgs)
  /-- UNLOCK (R150): Clears the lock of a line. -/
  | unlock (n : LoomId) (a : CacheArgs)
  /-- SRR (R85): Treadle reads a system register. -/
  | srr (n : LoomId) (a : SrArgs)
  /-- SRW (R85): Treadle writes a system register without behaviour of its own. -/
  | srw (n : LoomId) (a : SrArgs)
  /-- WAY_POWER_CHANGE (R151): An SRW of CACHE_CTRL.WAY_ON cleans and powers ways down or up. -/
  | wayPowerChange (n : LoomId) (a : SrArgs)
  /-- CLEAN_ALL (R168): CACHE_OP writes back every dirty sector of the data cache. -/
  | cleanAll (n : LoomId) (a : SrArgs)
  /-- FLUSH_ALL (R168): CACHE_OP writes back, invalidates and unlocks every line. -/
  | flushAll (n : LoomId) (a : SrArgs)
  /-- UNLOCK_ALL (R168): CACHE_OP removes every lock. -/
  | unlockAll (n : LoomId) (a : SrArgs)
  /-- SLD (R89): Treadle load from its own loom scratch. -/
  | sld (n : LoomId) (a : ScrArgs)
  /-- SST (R89): Treadle store to its own loom scratch. -/
  | sst (n : LoomId) (a : ScrArgs)
  /-- WEAVE (R97): Treadle checks and queues a WEAVE for the array. -/
  | weave (n : LoomId) (a : ArrArgs)
  /-- ACC_LOAD (R101): Treadle queues a copy of 256 scratch bytes into an accumulator. -/
  | accLoad (n : LoomId) (a : ArrArgs)
  /-- ACC_STORE (R101): Treadle queues a copy of an accumulator into scratch. -/
  | accStore (n : LoomId) (a : ArrArgs)
  /-- ACC_ZERO (R101): Treadle queues a clear of an accumulator. -/
  | accZero (n : LoomId) (a : ArrArgs)
  /-- ARRAY_OP_START (R103): The array starts the operation at the head of its queue once its dependency is met. -/
  | arrayOpStart (n : LoomId)
  /-- ARRAY_OP_COMPLETE (R95): An array operation finishes and its tally completes. -/
  | arrayOpComplete (n : LoomId)
  /-- FETCH (R108): Treadle checks and queues a memory-to-scratch transfer. -/
  | fetch (n : LoomId) (a : XferArgs)
  /-- PUT (R109): Treadle checks and queues a scratch-to-memory transfer. -/
  | put (n : LoomId) (a : XferArgs)
  /-- SEND (R110): Treadle checks and queues a scratch-to-scratch copy to another loom. -/
  | send (n : LoomId) (a : XferArgs)
  /-- TALLY_POLL (R107): Writes TALLY_BUSY to a register. -/
  | tallyPoll (n : LoomId) (a : XferArgs)
  /-- TALLY_CLEAR (R107): Clears selected TALLY_FAULT bits and possibly TALLY_FIRST.VALID. -/
  | tallyClear (n : LoomId) (a : XferArgs)
  /-- TRANSFER_START (R109): The transfer unit starts the oldest queued transfer whose dependency is met. -/
  | transferStart (n : LoomId)
  /-- TRANSFER_REQUEST_ISSUE (R109): A transfer request takes a freed outstanding slot and is issued. -/
  | transferRequestIssue (n : LoomId)
  /-- NOP (R111): Treadle no-operation. -/
  | nop (n : LoomId) (a : SysArgs)
  /-- FENCE_SL (R164): Fence waiting for earlier stores to become visible. -/
  | fenceSl (n : LoomId) (a : SysArgs)
  /-- FENCE_ALL (R164): Fence waiting for earlier stores, loads and atomics. -/
  | fenceAll (n : LoomId) (a : SysArgs)
  /-- FENCE_IO (R164): Fence also waiting for host acknowledgement of earlier host writes. -/
  | fenceIo (n : LoomId) (a : SysArgs)
  /-- FENCE_GLOBAL (R164): Fence waiting for final acknowledgement of every earlier write. -/
  | fenceGlobal (n : LoomId) (a : SysArgs)
  /-- FENCE_COMPLETE (R164): A waiting fence's conditions hold and the treadle continues. -/
  | fenceComplete (n : LoomId)
  /-- BROKEN_PATH_WAIT_EXPIRY (R166): A wait blocked by a broken path completes 2 ms after the break, setting FENCE_FAULT. -/
  | brokenPathWaitExpiry (n : LoomId)
  /-- TALLY_WAIT (R111): Treadle waits until the masked tallies are idle. -/
  | tallyWait (n : LoomId) (a : SysArgs)
  /-- INBOX_WAIT (R111): Treadle waits until a masked INBOX bit is set. -/
  | inboxWait (n : LoomId) (a : SysArgs)
  /-- BARRIER (R113): Fence then arrival at the loom's barrier group. -/
  | barrier (n : LoomId) (a : SysArgs)
  /-- HALT (R111): Waits for all tallies, records EXIT_CODE and ends the program. -/
  | halt (n : LoomId) (a : SysArgs)
  /-- LOOM_PROGRAM_END (R163): A halting or stopping loom leaves RUNNING once its store buffer is empty. -/
  | loomProgramEnd (n : LoomId)
  /-- LAUNCH_LOOMS_START (R114): A waiting launch finds its looms free and starts their programs. -/
  | launchLoomsStart (q : BitVec 9)
  /-- REED_ENQUEUE (R121): Treadle checks a class 0xD word and places it in the reed queue. -/
  | reedEnqueue (n : LoomId) (w : W64)
  /-- VADD (R125): Reed lane-wise add. -/
  | vadd (n : LoomId)
  /-- VSUB (R125): Reed lane-wise subtract. -/
  | vsub (n : LoomId)
  /-- VMUL (R125): Reed lane-wise multiply. -/
  | vmul (n : LoomId)
  /-- VFMA (R125): Reed fused multiply-add. -/
  | vfma (n : LoomId)
  /-- VFMS (R125): Reed fused multiply-subtract. -/
  | vfms (n : LoomId)
  /-- VFNMA (R125): Reed negated fused multiply-add. -/
  | vfnma (n : LoomId)
  /-- VDIV (R130): Reed lane-wise divide. -/
  | vdiv (n : LoomId)
  /-- VSQRT (R130): Reed lane-wise square root. -/
  | vsqrt (n : LoomId)
  /-- VMIN (R126): Reed lane-wise minimum. -/
  | vmin (n : LoomId)
  /-- VMAX (R126): Reed lane-wise maximum. -/
  | vmax (n : LoomId)
  /-- VMINU (R125): Reed unsigned minimum. -/
  | vminu (n : LoomId)
  /-- VMAXU (R125): Reed unsigned maximum. -/
  | vmaxu (n : LoomId)
  /-- VABS (R125): Reed absolute value. -/
  | vabs (n : LoomId)
  /-- VNEG (R125): Reed negation. -/
  | vneg (n : LoomId)
  /-- VCOPYSIGN (R125): Reed copy of sign. -/
  | vcopysign (n : LoomId)
  /-- VAND (R125): Reed bitwise AND. -/
  | vand (n : LoomId)
  /-- VOR (R125): Reed bitwise OR. -/
  | vor (n : LoomId)
  /-- VXOR (R125): Reed bitwise XOR. -/
  | vxor (n : LoomId)
  /-- VSHL (R125): Reed shift left. -/
  | vshl (n : LoomId)
  /-- VSHR (R125): Reed logical shift right. -/
  | vshr (n : LoomId)
  /-- VSRA (R125): Reed arithmetic shift right. -/
  | vsra (n : LoomId)
  /-- VCMPEQ (R127): Reed compare equal into a treadle register. -/
  | vcmpeq (n : LoomId)
  /-- VCMPLT (R127): Reed compare less than into a treadle register. -/
  | vcmplt (n : LoomId)
  /-- VCMPLE (R127): Reed compare less or equal into a treadle register. -/
  | vcmple (n : LoomId)
  /-- VCMPUN (R127): Reed compare unordered into a treadle register. -/
  | vcmpun (n : LoomId)
  /-- VCMPLTU (R125): Reed unsigned compare less than. -/
  | vcmpltu (n : LoomId)
  /-- VREDSUM (R128): Reed tree sum of enabled lanes into lane 0. -/
  | vredsum (n : LoomId)
  /-- VREDMAX (R128): Reed maximum of enabled lanes. -/
  | vredmax (n : LoomId)
  /-- VREDMIN (R128): Reed minimum of enabled lanes. -/
  | vredmin (n : LoomId)
  /-- VREDAMAX (R128): Reed largest magnitude of enabled lanes. -/
  | vredamax (n : LoomId)
  /-- VEXP2 (R129): Reed base-2 exponential approximation. -/
  | vexp2 (n : LoomId)
  /-- VEXP (R129): Reed natural exponential approximation. -/
  | vexp (n : LoomId)
  /-- VLOG2 (R129): Reed base-2 logarithm approximation. -/
  | vlog2 (n : LoomId)
  /-- VLOG (R129): Reed natural logarithm approximation. -/
  | vlog (n : LoomId)
  /-- VRSQRT (R129): Reed reciprocal square root approximation. -/
  | vrsqrt (n : LoomId)
  /-- VRCP (R129): Reed reciprocal approximation. -/
  | vrcp (n : LoomId)
  /-- VLD (R125): Reed loads 64 bytes from scratch. -/
  | vld (n : LoomId)
  /-- VST (R125): Reed stores 64 bytes to scratch. -/
  | vst (n : LoomId)
  /-- VBCAST (R125): Reed broadcasts a treadle value to every lane. -/
  | vbcast (n : LoomId)
  /-- VEXT (R125): Reed extracts one lane into a treadle register. -/
  | vext (n : LoomId)
  /-- VMOV (R125): Reed register copy. -/
  | vmov (n : LoomId)
  /-- VPERM (R125): Reed lane permutation. -/
  | vperm (n : LoomId)
  /-- VCVT (R134): Reed conversion between lane types. -/
  | vcvt (n : LoomId)
  /-- VCVTI (R134): Reed conversion to INT32 with saturation. -/
  | vcvti (n : LoomId)
  /-- VDQLD (R135): Reed decodes one narrow block from scratch. -/
  | vdqld (n : LoomId)
  /-- VQST (R136): Reed quantizes and stores one block to scratch. -/
  | vqst (n : LoomId)
  /-- DRAIN (R140): Reed drain path converts accumulators and writes them to scratch. -/
  | drain (n : LoomId)
  /-- STORE_BUFFER_ENTRY_LEAVE (R157): The oldest store buffer entry becomes visible in the cache or is sent uncached. -/
  | storeBufferEntryLeave (n : LoomId)
  /-- READ_SHARED (R185): Home handles a request for a shared copy of sectors. -/
  | readShared (r : Req)
  /-- READ_OWN (R185): Home handles a request for ownership of sectors. -/
  | readOwn (r : Req)
  /-- UPGRADE (R185): Home handles a request for ownership without data. -/
  | upgrade (r : Req)
  /-- OWN_NO_DATA (R185): Home grants ownership without data for ZERO.LINE. -/
  | ownNoData (r : Req)
  /-- WRITE_BACK (R185): Home takes dirty sectors from an evicting owner. -/
  | writeBack (r : Req)
  /-- WRITE_CLEAN (R185): Home takes dirty sectors while the holder keeps a clean copy. -/
  | writeClean (r : Req)
  /-- CLEAN_EVICT (R184): Home learns that a host dropped its copy. -/
  | cleanEvict (r : Req)
  /-- READ_ONCE (R185): Home serves current data without a tracked copy. -/
  | readOnce (r : Req)
  /-- WRITE (R185): Home performs an untracked full-sector or byte-masked write. -/
  | write (r : Req)
  /-- ATOMIC (R187): Home resolves a sector and performs a read-modify-write. -/
  | atomic (r : Req)
  /-- REDUCE_WRITE (R245): Home adds the selected elements of an alias write into memory and counts them. -/
  | reduceWrite (r : Req)
  /-- RECALL (R185): A holder answers a home Recall with or without data. -/
  | recallMsg (m : Msg)
  /-- INVALIDATE (R185): A holder drops its copy and answers InvAck. -/
  | invalidate (m : Msg)
  /-- STASH (R190): A loom installs or declines a pushed sector. -/
  | stash (m : Msg)
  /-- DATA (R146): A requester receives data with its granted state. -/
  | data (m : Msg)
  /-- RECALL_DATA (R185): Home receives recalled data and continues the transaction. -/
  | recallData (m : Msg)
  /-- RECALL_ACK (R192): Home receives a data-less answer to a Recall. -/
  | recallAck (m : Msg)
  /-- INV_ACK (R181): Home counts an invalidation acknowledgement. -/
  | invAck (m : Msg)
  /-- COMP (R95): A requester receives a completion of a write or ownership grant. -/
  | comp (m : Msg)
  /-- COMP_ACK (R175): Home receives the requester's receipt and frees the line. -/
  | compAck (m : Msg)
  /-- RETRY (R176): A requester receives a refusal with NO_TRACKER or LINE_BUSY. -/
  | retry (m : Msg)
  /-- CREDIT (R176): A requester receives a credit and reissues on a reserved tracker. -/
  | credit (m : Msg)
  /-- STASH_ACK (R190): Home receives the stash result and frees the line. -/
  | stashAck (m : Msg)
  /-- LINE_BUSY_REISSUE (R176): After 64 weave clocks a LINE_BUSY request is reissued, AGED after 64 retries. -/
  | lineBusyReissue (a : Agent) (line : BitVec 40)
  /-- HOME_TIMEOUT_EXPIRY (R191): A Recall or Invalidate timer expires; sectors are poisoned and the holder removed. -/
  | homeTimeoutExpiry (line : BitVec 40) (id : BitVec 13)
  /-- CATALOGUE_SWEEP_COMPLETE (R193): Every home finishes sweeping an ABSENT head from its catalogue. -/
  | catalogueSweepComplete (h : HeadId)
  /-- PARITY_RETRY (R229): A channel detects an interface error and repeats the command. -/
  | parityRetry (x : Sys2Proof.Machine.RetryIn) (ok : Bool)
  /-- REFRESH_RATE_CHANGE (R232): A stack crosses a temperature threshold and changes its refresh rate. -/
  | refreshRateChange (depot : Bool) (k : BitVec 5) (temp : Nat)
  /-- PATROL_READ (R233): The patrol reads and classifies the next sector or line. -/
  | patrolRead (depot : Bool) (a : Sys2Proof.Machine.PatrolAt)
  /-- MEMINJ_ARM (R240): A write of MEMINJ_FLIP.ARM arms an error injection. -/
  | meminjArm (h : HeadId) (v : W64)
  /-- TIER_COUNTER_HALVING (R215): At each TIER_INTERVAL period every home halves every HEAT field. -/
  | tierCounterHalving
  /-- ROTATION_ROUND_END (R216): A rotation copy round ends; another round, the hold, or NO_CONVERGE follows. -/
  | rotationRoundEnd (k : BitVec 4)
  /-- ROTATION_SWITCH (R194): Homes finish the held copy, switch the location entry and release held requests. -/
  | rotationSwitch (k : BitVec 4)
  /-- RETIREMENT_SWITCH (R238): A frame copy finishes and the channel remap entry switches. -/
  | retirementSwitch (m : BitVec 2)
  /-- RUN_START (R255): A WAITING region starts its run when a run slot is free. -/
  | runStart (r : BitVec 12)
  /-- END (R255): Routine entry that ends the list. -/
  | listEnd (r : BitVec 12)
  /-- ZERO (R263): Routine writes N bytes of zero. -/
  | zero (r : BitVec 12)
  /-- SNAPSHOT (R263): Routine copies N bytes. -/
  | snapshot (r : BitVec 12)
  /-- SCALE (R265): Routine scales A into B. -/
  | scale (r : BitVec 12)
  /-- AXPY (R265): Routine adds a scaled A into B. -/
  | axpy (r : BitVec 12)
  /-- NORM2 (R266): Routine accumulates a sum of squares into a run scalar. -/
  | norm2 (r : BitVec 12)
  /-- CLIP_APPLY (R265): Routine computes a clip factor and scales A. -/
  | clipApply (r : BitVec 12)
  /-- SGD_MOMENTUM (R265): Routine performs an SGD step with momentum. -/
  | sgdMomentum (r : BitVec 12)
  /-- LION (R265): Routine performs a Lion optimizer step. -/
  | lion (r : BitVec 12)
  /-- ADAM (R265): Routine performs an Adam step with decoupled decay. -/
  | adam (r : BitVec 12)
  /-- REQUANT (R267): Routine quantizes A into a scaled shadow. -/
  | requant (r : BitVec 12)
  /-- RUN_END (R255): After the last entry, counts reset, the region reopens, the epoch advances and the interrupt is sent. -/
  | runEnd (r : BitVec 12)
  /-- RUN_ABORT_STOP (R258): A run stops at its next chunk boundary and the region becomes FAULTED. -/
  | runAbortStop (r : BitVec 12)
  /-- PAGE_WALK (R275): A walker translates a missed virtual page or faults. -/
  | pageWalk (e : Engine)
  /-- FAULT_RESUME (R286): Host resumes an open fault record with RETRY or DENY. -/
  | faultResume (h : HeadId) (v : W32)
  /-- TRANSLATION_FAULT_TIMEOUT (R287): A stalled engine's fault timer expires. -/
  | translationFaultTimeout (e : Engine)
  /-- INVALIDATION_START (R290): INV_CTRL.GO starts removal of cached translations of a range. -/
  | invalidationStart (h : HeadId) (v : W32)
  /-- INVALIDATION_COMPLETE (R290): Every engine has acknowledged and the invalidation completes. -/
  | invalidationComplete (w : WingId)
  /-- TRANS_ROOT_WRITE (R294): A write of TRANS_ROOT applies to later walks. -/
  | transRootWrite (h : HeadId) (v : W64)
  /-- FQ_BASE_WRITE (R295): A write of FQ_BASE resets the queue indices. -/
  | fqBaseWrite (h : HeadId) (v : W64)
  /-- FQ_CONS_WRITE (R288): Host frees slots and a waiting record is written. -/
  | fqConsWrite (h : HeadId) (v : W32)
  /-- ATS_TRANSLATION_COMPLETION (R282): A head receives an ATS completion and fills its ATC or faults the access. -/
  | atsTranslationCompletion (h : HeadId) (iova : BitVec 64) (ok : Bool) (target : BitVec 64) (size : Nat) (mayWrite : Bool)
  /-- ATS_INVALIDATION_REQUEST (R283): A head drops matching ATC entries and answers the host. -/
  | atsInvalidationRequest (h : HeadId) (iova : BitVec 64) (size : Nat) (itag : BitVec 5)
  /-- DOORBELL (R300): A write of SQ_TAIL rings a courier queue. -/
  | doorbell (h : HeadId) (q : BitVec 9) (v : BitVec 12)
  /-- QUEUE_SCHEDULE (R298): An X-die gives a free courier to the highest-priority ready queue. -/
  | queueSchedule (x : XDie)
  /-- FETCH_SLOT (R301): A courier reads the slot at SQ_HEAD and accepts it or backs off. -/
  | fetchSlot (q : BitVec 9)
  /-- SLOT_REFETCH (R301): A backoff expires and the courier re-reads the slot. -/
  | slotRefetch (q : BitVec 9)
  /-- COURIER_NOP (R305): Descriptor that completes at once. -/
  | courierNop (q : BitVec 9)
  /-- COPY (R305): Descriptor copies LEN bytes. -/
  | copy (q : BitVec 9)
  /-- WRITE_INLINE (R305): Descriptor writes its inline data. -/
  | writeInline (q : BitVec 9)
  /-- FILL (R305): Descriptor fills an extent with a pattern. -/
  | fill (q : BitVec 9)
  /-- FLAG_WRITE (R305): Descriptor writes one indivisible 8-byte value. -/
  | flagWrite (q : BitVec 9)
  /-- REDUCE_FORWARD (R305): Descriptor forwards a source as ReduceWrites, optionally clearing it. -/
  | reduceForward (q : BitVec 9)
  /-- LAUNCH (R306): Descriptor starts a loom kernel on a loom set. -/
  | launch (q : BitVec 9)
  /-- RUN_REGION (R254): Descriptor triggers a region run after its earlier writes are final. -/
  | runRegion (q : BitVec 9)
  /-- DESCRIPTOR_COMPLETE (R308): A descriptor's writes are final and its record, flag and interrupt follow. -/
  | descriptorComplete (q : BitVec 9)
  /-- COMPLETION_WAIT_EXPIRY (R311): A completion wait blocked by a broken path ends INDETERMINATE after 2 ms. -/
  | completionWaitExpiry (q : BitVec 9)
  /-- QUEUE_ENABLE (R316): Setting QUEUE_CTRL.ENABLE checks the configuration and resets indices. -/
  | queueEnable (h : HeadId) (q : BitVec 9) (v : W32)
  /-- QUEUE_DISABLE (R314): Clearing QUEUE_CTRL.ENABLE stops the queue and aborts its descriptor. -/
  | queueDisable (h : HeadId) (q : BitVec 9) (v : W32)
  /-- CQ_HEAD_WRITE (R316): Host advances CQ_HEAD and a full ring resumes. -/
  | cqHeadWrite (h : HeadId) (q : BitVec 9) (v : BitVec 12)
  /-- HEAD_RESET_CLEAR (R315): Clearing QUEUE_STATUS.HEAD_RESET resumes fetching. -/
  | headResetClear (h : HeadId) (q : BitVec 9)
  /-- WINDOW_BASE_WRITE (R313): A write of WINDOW_BASE moves or disables the BAR 2 window. -/
  | windowBaseWrite (h : HeadId) (v : W64)
  /-- BAR2_READ (R313): A BAR 2 read is served by ReadOnce at the home. -/
  | bar2Read (h : HeadId) (tag : Nat) (off : BitVec 29) (len : Nat)
  /-- BAR2_WRITE (R313): A BAR 2 write is performed as Write at the home. -/
  | bar2Write (h : HeadId) (tag : Nat) (poison : Bool) (off : BitVec 29) (len : Nat) (data : Nat)
  /-- CONFIG_READ (R324): X-die serves a configuration read. -/
  | configRead (h : HeadId) (o : BitVec 12)
  /-- CONFIG_WRITE (R324): X-die serves a configuration write. -/
  | configWrite (h : HeadId) (o : BitVec 12) (be : BitVec 4) (v : W32)
  /-- EXPANSION_ROM_READ (R328): X-die serves an option ROM read, building the discovery table. -/
  | expansionRomRead (h : HeadId) (o : BitVec 20) (len : Nat)
  /-- MEM_RD (R322): Head decodes a host CXL.mem read to a DPA or refuses it. -/
  | memRd (h : HeadId) (tag : Nat) (hpa : BitVec 64) (snp : Snp)
  /-- MEM_WR (R322): Head decodes a host CXL.mem write to a DPA or refuses it. -/
  | memWr (h : HeadId) (tag : Nat) (hpa : BitVec 64) (mask : BitVec 64) (data : Sector) (poison : Bool)
  /-- MEM_CLN_EVCT (R184): Head forwards a host clean eviction as CleanEvict. -/
  | memClnEvct (h : HeadId) (tag : Nat) (hpa : BitVec 64)
  /-- BI_RSP (R184): Head forwards a host back-invalidate response. -/
  | biRsp (h : HeadId) (line : BitVec 40) (sect : BitVec 2) (shared : Bool)
  /-- GO (R303): A host GO makes a courier or loom write to host memory final. -/
  | go (h : HeadId) (tag : Nat)
  /-- RD_CURR_DATA (R303): Host data returns for a device RdCurr read. -/
  | rdCurrData (h : HeadId) (tag : Nat) (data : Sector) (poison : Bool)
  /-- BUS_MASTER_ENABLE_CLEAR (R331): Host clears Bus Master Enable and the head stops issuing upstream. -/
  | busMasterEnableClear (h : HeadId)
  /-- BUS_MASTER_ENABLE_SET (R331): Host sets Bus Master Enable; pending interrupts are sent. -/
  | busMasterEnableSet (h : HeadId)
  /-- BME_TIMEOUT (R331): Bus Master Enable stays clear for 10 ms and the host path is broken. -/
  | bmeTimeout (h : HeadId)
  /-- INTERRUPT_UNMASK (R329): An MSI or MSI-X vector is unmasked and its pending message is sent. -/
  | interruptUnmask (h : HeadId) (v : BitVec 8)
  /-- INTX_PENDING_CLEAR (R329): Clearing HEAD_INT_PENDING bits may deassert INTA. -/
  | intxPendingClear (h : HeadId) (mask : W64)
  /-- FLR (R333): A function level reset of a head is initiated. -/
  | flr (h : HeadId)
  /-- FLR_COMPLETE (R333): An FLR completes and the head leaves Request Retry Status. -/
  | flrComplete (h : HeadId)
  /-- PERST_N (R332): PERST_N assertion resets a head and marks it ABSENT. -/
  | perstN (k : BitVec 3)
  /-- HOT_RESET (R332): A hot reset of a head. -/
  | hotReset (h : HeadId)
  /-- LINK_DOWN (R335): A head's link goes down; in-flight requests end. -/
  | linkDown (h : HeadId)
  /-- HEAD_LINK_UP (R318): A head finishes training and its link comes up. -/
  | headLinkUp (h : HeadId) (cxl : Bool) (width : BitVec 6) (speed : BitVec 4)
  /-- FREEZE (R338): HEAD_CTRL.FREEZE freezes the head. -/
  | freeze (h : HeadId)
  /-- RELEASE (R340): HEAD_CTRL.RELEASE releases a non-FATAL freeze. -/
  | release (h : HeadId)
  /-- FLIT_RECEIVE (R352): An Ikiquel port takes a flit, its acknowledgement and credits. -/
  | flitReceive (q : PortId) (raw : BitVec 1984) (crc : BitVec 64) (bulk : Bool) (ctl : CtlFlit)
  /-- REPLAY_TIMER_EXPIRY (R353): The oldest unacknowledged flit waited too long and is resent. -/
  | replayTimerExpiry (q : PortId)
  /-- LANE_BAD (R348): A lane is found bad and a width change begins. -/
  | laneBad (q : PortId) (lane : BitVec 3)
  /-- WIDTH_CHANGE_COMPLETE (R348): Both ends realign on the remaining lanes and resume. -/
  | widthChangeComplete (q : PortId)
  /-- CREDIT_TIMEOUT (R356): A channel waited without credits too long; the link breaks. -/
  | creditTimeout (q : PortId)
  /-- TXN_TIMEOUT (R362): A request got no response in time; the link breaks. -/
  | txnTimeout (q : PortId)
  /-- LINK_TRAINING_COMPLETE (R363): A port trains, takes a new epoch, or enters MISWIRED. -/
  | linkTrainingComplete (q : PortId) (t : TrainMsg)
  /-- TRAINING_RETRY (R346): A port that failed to train tries again after 1 s. -/
  | trainingRetry (q : PortId)
  /-- AUTO_RETRAIN (R365): A broken port begins training 1 ms after the break. -/
  | autoRetrain (q : PortId)
  /-- RD (R367): Receiving port translates and performs a peer read. -/
  | rd (q : PortId) (m : PMsg)
  /-- ATOM (R367): Receiving port translates and performs a peer atomic. -/
  | atom (q : PortId) (m : PMsg)
  /-- WR (R360): Receiving port performs a peer write, in order for OWR. -/
  | wr (q : PortId) (m : PMsg)
  /-- WRM (R360): Receiving port performs a byte-masked peer write. -/
  | wrm (q : PortId) (m : PMsg)
  /-- CMP (R360): A requester receives the completion of a peer write. -/
  | cmp (q : PortId) (m : PMsg)
  /-- RDATA (R358): A requester receives peer read data. -/
  | rdata (q : PortId) (m : PMsg)
  /-- ATOMDATA (R358): A requester receives the old value of a peer atomic. -/
  | atomdata (q : PortId) (m : PMsg)
  /-- JG_LIMIT (R369): The lead takes a member's highest holdable point. -/
  | jgLimit (q : PortId) (m : PMsg)
  /-- JG_COMMIT (R369): A member schedules a newer committed point. -/
  | jgCommit (q : PortId) (m : PMsg)
  /-- JG_ACK (R369): The lead learns that a member applied a commit. -/
  | jgAck (q : PortId) (m : PMsg)
  /-- JG_SWITCH (R369): At the commit time the package switches every RUN tile to the point. -/
  | jgSwitch
  /-- JG_REPEAT_TIMER (R369): Every 1 ms the member resends JG_LIMIT and the lead resends JG_COMMIT. -/
  | jgRepeatTimer
  /-- JG_LOCK_LOSS (R370): A member without a commit for 10 ms leaves lock. -/
  | jgLockLoss
  /-- MAILBOX_DOORBELL (R394): A mailbox or MCTP command is accepted for execution in order. -/
  | mailboxDoorbell (box : BitVec 6) (op : BitVec 16) (data : List Byte)
  /-- IDENTIFY (R398): CXL Identify command. -/
  | identify
  /-- BACKGROUND_OPERATION_STATUS (R398): Returns background command status. -/
  | backgroundOperationStatus
  /-- GET_RESPONSE_MESSAGE_LIMIT (R398): Returns the response message limit. -/
  | getResponseMessageLimit
  /-- SET_RESPONSE_MESSAGE_LIMIT (R398): Sets the response message limit. -/
  | setResponseMessageLimit
  /-- REQUEST_ABORT_BACKGROUND_OPERATION (R398): Acts as ROTATE_ABORT or REGION_ABORT where allowed. -/
  | requestAbortBackgroundOperation
  /-- GET_EVENT_RECORDS (R398): Returns event records of the head's wing. -/
  | getEventRecords
  /-- CLEAR_EVENT_RECORDS (R398): Clears event records. -/
  | clearEventRecords
  /-- GET_EVENT_INTERRUPT_POLICY (R398): Returns the event interrupt policy. -/
  | getEventInterruptPolicy
  /-- SET_EVENT_INTERRUPT_POLICY (R398): Sets the event interrupt policy. -/
  | setEventInterruptPolicy
  /-- GET_FW_INFO (R398): Returns firmware slot information. -/
  | getFwInfo
  /-- TRANSFER_FW (R398): Transfers an image into a firmware slot. -/
  | transferFw
  /-- ACTIVATE_FW (R402): Activates a registrar image online or at next cold reset. -/
  | activateFw (verified : Bool) (selfCheck : Bool) (version : Nat)
  /-- GET_TIMESTAMP (R398): Returns the event-record timestamp. -/
  | getTimestamp
  /-- SET_TIMESTAMP (R398): Sets the timestamp used to label event records. -/
  | setTimestamp
  /-- GET_SUPPORTED_LOGS (R398): Returns the supported logs. -/
  | getSupportedLogs
  /-- GET_LOG (R398): Returns the Command Effects Log. -/
  | getLog
  /-- IDENTIFY_MEMORY_DEVICE (R398): Returns memory device identity with wing capacities. -/
  | identifyMemoryDevice
  /-- GET_HEALTH_INFO (R398): Returns CXL health information. -/
  | getHealthInfo
  /-- GET_ALERT_CONFIGURATION (R398): Returns the alert configuration. -/
  | getAlertConfiguration
  /-- SET_ALERT_CONFIGURATION (R398): Sets the alert configuration. -/
  | setAlertConfiguration
  /-- GET_DC_CONFIGURATION (R323): Returns Dynamic Capacity configuration. -/
  | getDcConfiguration
  /-- GET_DC_EXTENT_LIST (R323): Returns the Dynamic Capacity extent list. -/
  | getDcExtentList
  /-- ADD_DC_RESPONSE (R323): Host accepts added Dynamic Capacity extents. -/
  | addDcResponse
  /-- RELEASE_DC (R323): Host confirms release of extents, which stop decoding. -/
  | releaseDc
  /-- GET_MULTI_HEADED_INFO (R398): FM API multi-headed device query. -/
  | getMultiHeadedInfo
  /-- GET_HEAD_INFO (R398): FM API head query. -/
  | getHeadInfo
  /-- GET_DCD_INFO (R398): FM API Dynamic Capacity device query. -/
  | getDcdInfo
  /-- GET_HOST_DC_REGION_CONFIGURATION (R398): FM API region configuration query. -/
  | getHostDcRegionConfiguration
  /-- SET_DC_REGION_CONFIGURATION (R398): FM API sets a DC region configuration. -/
  | setDcRegionConfiguration
  /-- GET_DC_REGION_EXTENT_LISTS (R398): FM API returns region extent lists. -/
  | getDcRegionExtentLists
  /-- INITIATE_DC_ADD (R323): FM API starts adding an extent to a Type 3 head. -/
  | initiateDcAdd
  /-- INITIATE_DC_RELEASE (R323): FM API starts releasing an extent. -/
  | initiateDcRelease
  /-- WING_CREATE (R374): Creates a FREE tenant wing as ACTIVE. -/
  | wingCreate
  /-- WING_GRANT_LOOMS (R374): Grants free IDLE or STOPPED looms to a wing. -/
  | wingGrantLooms
  /-- WING_GRANT_EXTENTS (R375): Zero-fills and grants memory extents to a wing. -/
  | wingGrantExtents
  /-- EXTENT_ZERO_FILL_COMPLETE (R375): The zero-fill ends and the extent joins the wing. -/
  | extentZeroFillComplete (w : WingId)
  /-- WING_GRANT_REGION_RANGE (R248): Grants or replaces a wing's reduction region range. -/
  | wingGrantRegionRange
  /-- WING_GRANT_ATRIUM_WAYS (R211): Sets a wing's atrium way mask and policy. -/
  | wingGrantAtriumWays
  /-- WING_GRANT_WINDOW_BITS (R372): Grants sender-side remote window permissions. -/
  | wingGrantWindowBits
  /-- LOOM_RETURN (R376): Fences, scrubs and frees one loom of a wing. -/
  | loomReturn
  /-- WING_RELEASE (R382): Starts the release steps of a wing. -/
  | wingRelease
  /-- WING_RELEASE_COMPLETE (R382): The scrub ends, the key is erased and the wing becomes FREE. -/
  | wingReleaseComplete (w : WingId)
  /-- WING_PRESERVE (R381): Moves a wing to PRESERVED under its policy. -/
  | wingPreserve
  /-- WING_RESUME (R381): Returns a PRESERVED wing to ACTIVE. -/
  | wingResume
  /-- WING_QUERY (R399): Returns a wing's loom mask and extent list. -/
  | wingQuery
  /-- STATE_DESCRIPTOR (R400): Returns the wing state descriptor. -/
  | stateDescriptor
  /-- HEAD_BIND (R320): Binds or unbinds a head and retrains its link. -/
  | headBind
  /-- QUEUE_BIND (R297): Binds or unbinds courier queues to a wing and home head. -/
  | queueBind
  /-- KEY_LOAD (R379): Loads a wing key into all four M-dies. -/
  | keyLoad
  /-- WINDOW_SET (R368): Writes receiving-side window table entries. -/
  | windowSet
  /-- LOOM_FENCE (R118): Fences one loom of a wing. -/
  | loomFence
  /-- LOOM_ADMIT (R118): Returns a FENCED loom to IDLE. -/
  | loomAdmit
  /-- STRIPE_LIMIT (R208): Moves the display stripe boundary. -/
  | stripeLimit
  /-- LOCATION_READ (R207): Returns location entries of pages. -/
  | locationRead
  /-- TIER_STATS (R215): Returns page heat sums or extremes. -/
  | tierStats
  /-- ROTATE (R216): Starts a rotation of a page to another slot kind. -/
  | rotate
  /-- ROTATE_ABORT (R217): Aborts a rotation before its switch. -/
  | rotateAbort
  /-- ATRIUM_PIN (R213): Pins a DPA range of the wing in the atrium. -/
  | atriumPin
  /-- ATRIUM_UNPIN (R213): Unpins a range and writes back its dirty sectors. -/
  | atriumUnpin
  /-- STACK_EVACUATE (R218): Rotates every page off a display stack and retires it. -/
  | stackEvacuate
  /-- CHANNEL_EVACUATE (R219): Empties the depot slots that use a channel. -/
  | channelEvacuate
  /-- CHANNEL_OFFLINE (R219): Takes an evacuated depot channel OFFLINE. -/
  | channelOffline
  /-- CHANNEL_RETRAIN (R219): Retrains a channel and its lanes. -/
  | channelRetrain (popOk : Bool) (t : TrainRes)
  /-- RETIRE_FRAME (R238): Retires one frame onto a spare frame. -/
  | retireFrame
  /-- RETIRE_BANK (R238): Retires every frame of one bank. -/
  | retireBank
  /-- MARGIN (R235): Measures lane eyes of a channel along one axis. -/
  | margin (res : List (Byte × Byte))
  /-- REGION_ENABLE (R249): Enables a reduction region with its descriptor. -/
  | regionEnable
  /-- REGION_DISABLE (R259): Disables an OPEN or FAULTED region. -/
  | regionDisable
  /-- REGION_RUN (R254): Triggers a run of an OPEN region. -/
  | regionRun
  /-- REGION_REOPEN (R259): Resets counts and reopens a FAULTED region. -/
  | regionReopen
  /-- REGION_RERUN (R259): Restarts a FAULTED region's run from entry k. -/
  | regionRerun
  /-- REGION_ABORT (R259): Aborts a WAITING or RUNNING region. -/
  | regionAbort
  /-- PORT_CONFIG (R317): Rewrites the port bifurcation record. -/
  | portConfig
  /-- PORT_MAP (R346): Rewrites the node configuration record. -/
  | portMap
  /-- IKQ_RETRAIN (R348): Retrains an Ikiquel port and retests bad lanes. -/
  | ikqRetrain (pass : BitVec 8)
  /-- IKQ_PORT_DISABLE (R362): Enables or disables an Ikiquel port. -/
  | ikqPortDisable
  /-- VF_RECALIBRATE (R408): Measures and raises tile voltage offsets. -/
  | vfRecalibrate (raises : List (Nat × Nat × Int))
  /-- HEALTH (R401): Returns the HEALTH fields. -/
  | health
  /-- UCODE_RELOAD (R403): Starts a conservator microcode reload per M-die. -/
  | ucodeReload
  /-- UCODE_LOAD (R403): A drained M-die loads and verifies the microcode. -/
  | ucodeLoad (ok : Bool)
  /-- WARM_RESET (R473): Responds and then resets the WARM domain. -/
  | warmReset
  /-- PROVENANCE_READ (R404): Returns provenance ROM bytes. -/
  | provenanceRead
  /-- REGISTRAR_START_UP (R389): The registrar runs its start-up sequence after RST_N rises. -/
  | registrarStartUp (x : StartIn)
  /-- HEARTBEAT (R441): Registrar firmware writes its heartbeat every 10 ms. -/
  | heartbeat
  /-- HEARTBEAT_LOST (R441): Each second without a heartbeat reports at source 0x372. -/
  | heartbeatLost
  /-- ARBITER_PERIOD (R415): Every 2 µs the selvage updates the average, ALLOW and all grants. -/
  | arbiterPeriod (x : ArbIn)
  /-- SLOW_LOOP (R423): Every 100 µs tiles are classified and their points moved. -/
  | slowLoop (x : SlowIn)
  /-- CALIBRATION (R424): Every 1 ms the selvage updates CAL. -/
  | calibration (est : Nat) (meas : Nat)
  /-- RAIL_SETTLED (R414): The rail monitor shows the new voltage and the tile clock changes. -/
  | railSettled (die : BitVec 2)
  /-- SENSOR_SAMPLE (R430): Every 20 µs the sensors are sampled and heat limits applied. -/
  | sensorSample (raw : List Int)
  /-- THERMAL_TRIP (R434): A junction crosses 120 °C; fast clocks stop and THERMTRIP_N asserts. -/
  | thermalTrip
  /-- THROTTLE_IN (R429): THROTTLE_IN asserts or deasserts the external point limit. -/
  | throttleIn (on : Bool)
  /-- RRL_ALERT (R458): A converter asserts RRL_ALERT_N, counted at source 0x362. -/
  | rrlAlert
  /-- SELV_CAP_WRITE (R420): A write of SELV_CAP changes the cap from the next period. -/
  | selvCapWrite (h : HeadId) (v : W32)
  /-- TILE_WAKE (R410): A launch, SEND or scrub names a sleeping tile and it starts waking. -/
  | tileWake (t : BitVec 6)
  /-- TILE_WAKE_COMPLETE (R20): A waking tile's clocks run. -/
  | tileWakeComplete (t : BitVec 6)
  /-- TILE_GATE (R410): A tile idle for 10 µs cleans its caches and clock-gates. -/
  | tileGate (t : BitVec 6)
  /-- TILE_PLL_OFF (R410): A tile GATED for PLLOFF_DELAY turns its PLL off. -/
  | tilePllOff (t : BitVec 6)
  /-- LEDGER_EVENT (R442): A source's dual-rail excursion is counted, classified and recorded. -/
  | ledgerEvent (x : Option Sys2Proof.Machine.HwErr := none)
  /-- RAIL_FAULT (R439): A pair shows equal levels for 8 clocks and is ignored. -/
  | railFault (n : BitVec 10)
  /-- FORCE (R443): A write of LEDGER_SRC_n.FORCE raises one forced event. -/
  | force (h : HeadId) (n : BitVec 10) (v : W64)
  /-- OPEN_CLEAR (R443): Clearing LEDGER_SRC_n.OPEN closes the source's record. -/
  | openClear (h : HeadId) (n : BitVec 10) (v : W64)
  /-- ESCALATED_CLEAR (R442): Clearing ESCALATED resets the source's window count. -/
  | escalatedClear (h : HeadId) (n : BitVec 10) (v : W64)
  /-- FIRST_VALID_CLEAR (R443): Clearing LEDGER_FIRST.VALID re-arms the first-error latch. -/
  | firstValidClear (h : HeadId)
  /-- OVERFLOW_CLEAR (R443): Clearing LEDGER_OVERFLOW zeroes its counts. -/
  | overflowClear (h : HeadId)
  /-- LEDGER_RELEASE (R450): h0 releases the latched FATAL by its SEQ. -/
  | ledgerRelease (h : HeadId) (seq : W32)
  /-- ALIVE_TOGGLE (R451): ALIVE toggles every 500 µs in the run phase. -/
  | aliveToggle
  /-- FAULT_N_HOLD_EXPIRY (R451): After 10 ms FAULT_N follows FAULT_HOLD. -/
  | faultNHoldExpiry
  /-- FAULT_NIBBLE_FRAME (R470): Every 100 ms SHT[7:4] send the fault class. -/
  | faultNibbleFrame
  /-- MIRROR_STALE (R444): A mirror missing updates for 100 µs marks itself stale. -/
  | mirrorStale (x : XDie)
  /-- PERIODIC_COMMIT (R453): Every 10 s changed records are committed to boot flash. -/
  | periodicCommit
  /-- RESPONDER_STATUS_READ (R448): SMBus command 0x01 returns status, first and FATAL latches. -/
  | responderStatusRead (input : List Byte)
  /-- RESPONDER_OVERFLOW_READ (R448): SMBus command 0x02 returns overflow and previous-boot state. -/
  | responderOverflowRead (input : List Byte)
  /-- RESPONDER_RECORD_READ (R448): SMBus command 0x03 returns the record with a SEQ. -/
  | responderRecordRead (input : List Byte)
  /-- RESPONDER_SOURCE_READ (R448): SMBus command 0x04 returns a source's registers. -/
  | responderSourceRead (input : List Byte)
  /-- PWR_OK_RISE (R465): PWR_OK rises: COLD event and strap phase. -/
  | pwrOkRise
  /-- RST_N_ASSERT (R475): RST_N assertion resets the COLD domain. -/
  | rstNAssert
  /-- RST_N_RISE (R465): RST_N rises and the strap-latch count starts. -/
  | rstNRise
  /-- STRAP_LATCH (R465): 1 ms after RST_N rises the straps latch and the run phase begins. -/
  | strapLatch (straps : BitVec 8)
  /-- PWRFAIL_N_FALL (R476): PWRFAIL_N low for 10 µs counts as fallen. -/
  | pwrfailNFall
  /-- PWRFAIL_N_RISE (R453): PWRFAIL_N rises without power loss and operation continues. -/
  | pwrfailNRise
  /-- AON_CLK_LOSS (R463): No AON_CLK edge for 4 µs acts as RST_N assertion. -/
  | aonClkLoss
  /-- AON_POWER_LOSS (R474): Loss of always-on power clears the AON domain. -/
  | aonPowerLoss
  /-- REFCLK_LOSS (R462): Loss of an X-die REFCLK takes its links down. -/
  | refclkLoss (x : XDie)
  /-- LOCK_LIMIT_SEND (R469): Every 1 ms the lead sends a LIMIT frame on the ring. -/
  | lockLimitSend
  /-- LOCK_LIMIT_FRAME (R469): A ring package takes a LIMIT frame, lowers POINT and forwards it. -/
  | lockLimitFrame (f : W32) (stop : Bool)
  /-- LOCK_COMMIT_FRAME (R469): A ring member takes a COMMIT frame, schedules it and forwards it. -/
  | lockCommitFrame (f : W32) (stop : Bool)
  /-- LOCK_RING_TIMEOUT (R469): A LIMIT not returned within 1 ms marks the ring broken. -/
  | lockRingTimeout
  /-- PERST_N_RISE (R471): PERST_N rises on a bound head and its link starts training within 1 ms. -/
  | perstNRise (k : BitVec 3)
  /-- COMPLETION_TIMEOUT (R336): An ATS Translation Request gets no completion in time; the access faults with HOST_FAULT and a Completion Timeout is logged. -/
  | completionTimeout (h : HeadId) (iova : BitVec 64)
  /-- LANE_LOCK_LOSS (R362): An Ikiquel port loses lane lock and declares its link broken. -/
  | laneLockLoss (q : PortId)
  /-- AON_CLK_RETURN (R463): AON_CLK edges return after an absence, ending the implied RST_N assertion and letting the AON tick run again. -/
  | aonClkReturn
  /-- HOST_SNOOP (R342): A head receives a CXL.cache snoop from its host and answers RspIHitI. -/
  | hostSnoop (h : HeadId)
  deriving DecidableEq, Repr

end Sys2Proof
end

