-- ==== Sys2Proof/Decode.lean ====
section
/-! DEFINITION. The treadle's instructions as words (R86 to R88, Tables 4-3, 4-4, 4-8 to 4-10): what a word in memory
spells, and the word of an instruction.  spec/opcode_table.json gives no row bits of its own. -/

namespace Sys2Proof

open Machine

/-! ### What a word spells -/

/-- Class 0x0 (Table 4-4): the operation by its funct. -/
def aluInstr (n : LoomId) (a : RArgs) (funct : Nat) : Option Instr :=
  match funct with
  | 0x00 => some (.add n a) | 0x01 => some (.sub n a) | 0x02 => some (.and n a) | 0x03 => some (.or n a)
  | 0x04 => some (.xor n a) | 0x05 => some (.sll n a) | 0x06 => some (.srl n a) | 0x07 => some (.sra n a)
  | 0x08 => some (.slt n a) | 0x09 => some (.sltu n a) | 0x0A => some (.min n a) | 0x0B => some (.max n a)
  | 0x0C => some (.minu n a) | 0x0D => some (.maxu n a) | 0x10 => some (.mul n a) | 0x11 => some (.mulh n a)
  | 0x12 => some (.mulhu n a) | 0x14 => some (.div n a) | 0x15 => some (.divu n a) | 0x16 => some (.rem n a)
  | 0x17 => some (.remu n a) | _ => none

/-- Class 0x1. -/
def immInstr (n : LoomId) (a : IArgs) (funct : Nat) : Option Instr :=
  match funct with
  | 0 => some (.addi n a) | 1 => some (.andi n a) | 2 => some (.ori n a) | 3 => some (.xori n a)
  | 4 => some (.slli n a) | 5 => some (.srli n a) | 6 => some (.srai n a) | 7 => some (.slti n a)
  | 8 => some (.sltiu n a) | _ => none

/-- Class 0x3; width 7 is unassigned. -/
def loadInstr (n : LoomId) (a : LoadArgs) (width : Nat) : Option Instr :=
  match width with
  | 0 => some (.lb n a) | 1 => some (.lh n a) | 2 => some (.lw n a) | 3 => some (.ld n a) | 4 => some (.lbu n a)
  | 5 => some (.lhu n a) | 6 => some (.lwu n a) | _ => none

/-- Class 0x4. -/
def storeInstr (n : LoomId) (a : StoreArgs) (size : Nat) : Instr :=
  match size with
  | 0 => .sb n a | 1 => .sh n a | 2 => .sw n a | _ => .sd n a

/-- Class 0x5. -/
def atomInstr (n : LoomId) (a : AtomArgs) (op : Nat) : Option Instr :=
  match op with
  | 0 => some (.atomicSwap n a) | 1 => some (.atomicAdd n a) | 2 => some (.atomicAnd n a) | 3 => some (.atomicOr n a)
  | 4 => some (.atomicXor n a) | 5 => some (.atomicMin n a) | 6 => some (.atomicMax n a) | 7 => some (.atomicMinu n a)
  | 8 => some (.atomicMaxu n a) | 9 => some (.atomicCas n a) | _ => none

/-- Class 0x6; conditions 6 and 7 are unassigned. -/
def branchInstr (n : LoomId) (a : BrArgs) (cond : Nat) : Option Instr :=
  match cond with
  | 0 => some (.branchEq n a) | 1 => some (.branchNe n a) | 2 => some (.branchLt n a) | 3 => some (.branchGe n a)
  | 4 => some (.branchLtu n a) | 5 => some (.branchGeu n a) | _ => none

/-- Class 0x9. -/
def cacheInstr (n : LoomId) (a : CacheArgs) (op : Nat) : Option Instr :=
  match op with
  | 0 => some (.prefetchR n a) | 1 => some (.prefetchW n a) | 2 => some (.zeroLine n a) | 3 => some (.cleanLine n a)
  | 4 => some (.lockPreload n a) | 5 => some (.unlock n a) | _ => none

/-- Class 0xC (Table 4-8). -/
def arrayInstr (n : LoomId) (a : ArrArgs) (op : Nat) : Instr :=
  match op with
  | 0 => .weave n a | 1 => .accLoad n a | 2 => .accStore n a | _ => .accZero n a

/-- Class 0xE (Table 4-9). -/
def xferInstr (n : LoomId) (a : XferArgs) (op : Nat) : Option Instr :=
  match op with
  | 0 => some (.fetch n a) | 1 => some (.put n a) | 2 => some (.send n a) | 4 => some (.tallyPoll n a)
  | 5 => some (.tallyClear n a) | _ => none

/-- Class 0xF (Table 4-10). -/
def sysInstr (n : LoomId) (a : SysArgs) (op : Nat) : Option Instr :=
  match op with
  | 0 => some (.nop n a) | 1 => some (.fenceSl n a) | 2 => some (.fenceAll n a) | 3 => some (.fenceIo n a)
  | 4 => some (.fenceGlobal n a) | 5 => some (.tallyWait n a) | 6 => some (.inboxWait n a) | 7 => some (.barrier n a)
  | 8 => some (.halt n a) | _ => none

/-- The class of a word (R86). -/
def wordClass (w : W64) : Nat := (w.extractLsb' 28 4).toNat

/-- Bytes of the instruction that a word begins: classes 0xC, 0xD and 0xE have a second word (R86). -/
def wordBytes (w : W64) : Nat := if 0xC ≤ wordClass w && wordClass w ≤ 0xE then 8 else 4

/-- The instruction of loom n that its first word, in bits [31:0], and the next word spell; none where an opcode, a funct, a
width or a condition code is unassigned (R87). -/
def treadleInstr (n : LoomId) (w : W64) : Option Instr :=
  let r (lo : Nat) : Reg := w.extractLsb' lo 5
  match wordClass w with
  | 0x0 => aluInstr n { rd := r 23, rs1 := r 18, rs2 := r 13, rsvd := w.extractLsb' 6 7 } (w.extractLsb' 0 6).toNat
  | 0x1 => immInstr n { rd := r 23, rs1 := r 18, imm := w.extractLsb' 0 14 } (w.extractLsb' 14 4).toNat
  | 0x2 => some (.movw n { rd := r 23, hw := w.extractLsb' 21 2, keep := w.getLsbD 20, rsvd := w.extractLsb' 16 4, imm := w.extractLsb' 0 16 })
  | 0x3 => loadInstr n { rd := r 23, rs1 := r 18, imm := w.extractLsb' 0 15 } (w.extractLsb' 15 3).toNat
  | 0x4 => some (storeInstr n { rs2 := r 23, rs1 := r 18, imm := w.extractLsb' 0 16 } (w.extractLsb' 16 2).toNat)
  | 0x5 => atomInstr n { rd := r 23, rs1 := r 18, rs2 := r 13, wide := w.getLsbD 12, rsvd := w.extractLsb' 0 8 } (w.extractLsb' 8 4).toNat
  | 0x6 => branchInstr n { rs1 := r 20, rs2 := r 15, imm := w.extractLsb' 0 15 } (w.extractLsb' 25 3).toNat
  | 0x7 => some (.jal n { rd := r 23, imm := w.extractLsb' 0 23 })
  | 0x8 => some (.jalr n { rd := r 23, rs1 := r 18, rsvd := w.extractLsb' 14 4, imm := w.extractLsb' 0 14 })
  | 0x9 => cacheInstr n { rs1 := r 19, imm := w.extractLsb' 0 19 } (w.extractLsb' 24 4).toNat
  | 0xA =>
    let a : SrArgs := { r := r 22, rsvd := w.extractLsb' 12 10, num := w.extractLsb' 0 12 }
    some (if w.getLsbD 27 then .srw n a else .srr n a)
  | 0xB =>
    let a : ScrArgs := { size := w.extractLsb' 25 2, sext := w.getLsbD 24, r := r 19, rs1 := r 14, imm := w.extractLsb' 0 14 }
    some (if w.getLsbD 27 then .sst n a else .sld n a)
  | 0xC =>
    let a : ArrArgs :=
      { fmt := w.extractLsb' 22 4, acc := w.extractLsb' 20 2, strict := w.getLsbD 19, fresh := w.getLsbD 18,
        tally := w.extractLsb' 12 6, afterV := w.getLsbD 11, after := w.extractLsb' 5 6, rAB := r 0, rS := r 59,
        kb := w.extractLsb' 51 8, pitchA := w.extractLsb' 43 8, pitchB := w.extractLsb' 35 8, rsvd := w.extractLsb' 32 3 }
    some (arrayInstr n a (w.extractLsb' 26 2).toNat)
  | 0xD => some (.reedEnqueue n w)
  | 0xE =>
    let a : XferArgs :=
      { tally := w.extractLsb' 19 6, afterV := w.getLsbD 18, after := w.extractLsb' 12 6, rMem := r 7, rScr := r 2,
        notify := w.getLsbD 1, rStr := r 59, rows := w.extractLsb' 47 12, len := w.extractLsb' 35 12,
        rsvd := w.extractLsb' 32 3 ++ w.extractLsb' 0 1 }
    xferInstr n a (w.extractLsb' 25 3).toNat
  | _ => sysInstr n { rd := r 19, rs1 := r 14, imm := w.extractLsb' 0 14 } (w.extractLsb' 24 4).toNat

/-- A command that is one case of what a word spells: SRW of CACHE_CTRL's ways and of CACHE_OP's values. -/
def Instr.spelled : Instr → Instr
  | .wayPowerChange n a | .cleanAll n a | .flushAll n a | .unlockAll n a => .srw n a
  | i => i

/-- The command that the bits of a word spell, on loom 0: a treadle instruction of 32 or 64 bits.  No other row of the table
has bits. -/
def decodeTableWord (nbits w : Nat) : Option Instr :=
  let x : W64 := BitVec.ofNat 64 w
  if nbits = 8 * wordBytes x then treadleInstr 0 x else none

/-! ### The word of an instruction -/

/-- Fields placed at their lowest bits. -/
def packWord (fs : List (Nat × Nat)) : W64 := BitVec.ofNat 64 ((fs.map (fun f => f.2 * 2 ^ f.1)).sum)

def bitNat (b : Bool) : Nat := if b then 1 else 0

def RArgs.word (a : RArgs) (funct : Nat) : W64 :=
  packWord [(23, a.rd.toNat), (18, a.rs1.toNat), (13, a.rs2.toNat), (6, a.rsvd.toNat), (0, funct)]
def IArgs.word (a : IArgs) (funct : Nat) : W64 :=
  packWord [(28, 1), (23, a.rd.toNat), (18, a.rs1.toNat), (14, funct), (0, a.imm.toNat)]
def LoadArgs.word (a : LoadArgs) (width : Nat) : W64 :=
  packWord [(28, 3), (23, a.rd.toNat), (18, a.rs1.toNat), (15, width), (0, a.imm.toNat)]
def StoreArgs.word (a : StoreArgs) (size : Nat) : W64 :=
  packWord [(28, 4), (23, a.rs2.toNat), (18, a.rs1.toNat), (16, size), (0, a.imm.toNat)]
def AtomArgs.word (a : AtomArgs) (op : Nat) : W64 :=
  packWord [(28, 5), (23, a.rd.toNat), (18, a.rs1.toNat), (13, a.rs2.toNat), (12, bitNat a.wide), (8, op), (0, a.rsvd.toNat)]
def BrArgs.word (a : BrArgs) (cond : Nat) : W64 :=
  packWord [(28, 6), (25, cond), (20, a.rs1.toNat), (15, a.rs2.toNat), (0, a.imm.toNat)]
def CacheArgs.word (a : CacheArgs) (op : Nat) : W64 := packWord [(28, 9), (24, op), (19, a.rs1.toNat), (0, a.imm.toNat)]
def SrArgs.word (a : SrArgs) (write : Nat) : W64 :=
  packWord [(28, 0xA), (27, write), (22, a.r.toNat), (12, a.rsvd.toNat), (0, a.num.toNat)]
def ScrArgs.word (a : ScrArgs) (write : Nat) : W64 :=
  packWord [(28, 0xB), (27, write), (25, a.size.toNat), (24, bitNat a.sext), (19, a.r.toNat), (14, a.rs1.toNat), (0, a.imm.toNat)]
def ArrArgs.word (a : ArrArgs) (op : Nat) : W64 :=
  packWord [(28, 0xC), (26, op), (22, a.fmt.toNat), (20, a.acc.toNat), (19, bitNat a.strict), (18, bitNat a.fresh), (12, a.tally.toNat),
    (11, bitNat a.afterV), (5, a.after.toNat), (0, a.rAB.toNat), (59, a.rS.toNat), (51, a.kb.toNat), (43, a.pitchA.toNat),
    (35, a.pitchB.toNat), (32, a.rsvd.toNat)]
def XferArgs.word (a : XferArgs) (op : Nat) : W64 :=
  packWord [(28, 0xE), (25, op), (19, a.tally.toNat), (18, bitNat a.afterV), (12, a.after.toNat), (7, a.rMem.toNat), (2, a.rScr.toNat),
    (1, bitNat a.notify), (0, a.rsvd.toNat % 2), (59, a.rStr.toNat), (47, a.rows.toNat), (35, a.len.toNat), (32, a.rsvd.toNat / 2)]
def SysArgs.word (a : SysArgs) (op : Nat) : W64 :=
  packWord [(28, 0xF), (24, op), (19, a.rd.toNat), (14, a.rs1.toNat), (0, a.imm.toNat)]

/-- The word of a treadle instruction, its second word in bits [63:32]; 0 for a command that is no instruction. -/
def Instr.word : Instr → W64
  | .add _ a => RArgs.word a 0x00 | .sub _ a => RArgs.word a 0x01 | .and _ a => RArgs.word a 0x02 | .or _ a => RArgs.word a 0x03
  | .xor _ a => RArgs.word a 0x04 | .sll _ a => RArgs.word a 0x05 | .srl _ a => RArgs.word a 0x06 | .sra _ a => RArgs.word a 0x07
  | .slt _ a => RArgs.word a 0x08 | .sltu _ a => RArgs.word a 0x09 | .min _ a => RArgs.word a 0x0A | .max _ a => RArgs.word a 0x0B
  | .minu _ a => RArgs.word a 0x0C | .maxu _ a => RArgs.word a 0x0D | .mul _ a => RArgs.word a 0x10 | .mulh _ a => RArgs.word a 0x11
  | .mulhu _ a => RArgs.word a 0x12 | .div _ a => RArgs.word a 0x14 | .divu _ a => RArgs.word a 0x15 | .rem _ a => RArgs.word a 0x16
  | .remu _ a => RArgs.word a 0x17
  | .addi _ a => IArgs.word a 0 | .andi _ a => IArgs.word a 1 | .ori _ a => IArgs.word a 2 | .xori _ a => IArgs.word a 3
  | .slli _ a => IArgs.word a 4 | .srli _ a => IArgs.word a 5 | .srai _ a => IArgs.word a 6 | .slti _ a => IArgs.word a 7
  | .sltiu _ a => IArgs.word a 8
  | .movw _ a => packWord [(28, 2), (23, a.rd.toNat), (21, a.hw.toNat), (20, bitNat a.keep), (16, a.rsvd.toNat), (0, a.imm.toNat)]
  | .lb _ a => LoadArgs.word a 0 | .lh _ a => LoadArgs.word a 1 | .lw _ a => LoadArgs.word a 2 | .ld _ a => LoadArgs.word a 3
  | .lbu _ a => LoadArgs.word a 4 | .lhu _ a => LoadArgs.word a 5 | .lwu _ a => LoadArgs.word a 6
  | .sb _ a => StoreArgs.word a 0 | .sh _ a => StoreArgs.word a 1 | .sw _ a => StoreArgs.word a 2 | .sd _ a => StoreArgs.word a 3
  | .atomicSwap _ a => AtomArgs.word a 0 | .atomicAdd _ a => AtomArgs.word a 1 | .atomicAnd _ a => AtomArgs.word a 2
  | .atomicOr _ a => AtomArgs.word a 3 | .atomicXor _ a => AtomArgs.word a 4 | .atomicMin _ a => AtomArgs.word a 5
  | .atomicMax _ a => AtomArgs.word a 6 | .atomicMinu _ a => AtomArgs.word a 7 | .atomicMaxu _ a => AtomArgs.word a 8
  | .atomicCas _ a => AtomArgs.word a 9
  | .branchEq _ a => BrArgs.word a 0 | .branchNe _ a => BrArgs.word a 1 | .branchLt _ a => BrArgs.word a 2
  | .branchGe _ a => BrArgs.word a 3 | .branchLtu _ a => BrArgs.word a 4 | .branchGeu _ a => BrArgs.word a 5
  | .jal _ a => packWord [(28, 7), (23, a.rd.toNat), (0, a.imm.toNat)]
  | .jalr _ a => packWord [(28, 8), (23, a.rd.toNat), (18, a.rs1.toNat), (14, a.rsvd.toNat), (0, a.imm.toNat)]
  | .prefetchR _ a => CacheArgs.word a 0 | .prefetchW _ a => CacheArgs.word a 1 | .zeroLine _ a => CacheArgs.word a 2
  | .cleanLine _ a => CacheArgs.word a 3 | .lockPreload _ a => CacheArgs.word a 4 | .unlock _ a => CacheArgs.word a 5
  | .srr _ a => SrArgs.word a 0
  | .srw _ a | .wayPowerChange _ a | .cleanAll _ a | .flushAll _ a | .unlockAll _ a => SrArgs.word a 1
  | .sld _ a => ScrArgs.word a 0 | .sst _ a => ScrArgs.word a 1
  | .weave _ a => ArrArgs.word a 0 | .accLoad _ a => ArrArgs.word a 1 | .accStore _ a => ArrArgs.word a 2 | .accZero _ a => ArrArgs.word a 3
  | .reedEnqueue _ w => w
  | .fetch _ a => XferArgs.word a 0 | .put _ a => XferArgs.word a 1 | .send _ a => XferArgs.word a 2 | .tallyPoll _ a => XferArgs.word a 4
  | .tallyClear _ a => XferArgs.word a 5
  | .nop _ a => SysArgs.word a 0 | .fenceSl _ a => SysArgs.word a 1 | .fenceAll _ a => SysArgs.word a 2 | .fenceIo _ a => SysArgs.word a 3
  | .fenceGlobal _ a => SysArgs.word a 4 | .tallyWait _ a => SysArgs.word a 5 | .inboxWait _ a => SysArgs.word a 6
  | .barrier _ a => SysArgs.word a 7 | .halt _ a => SysArgs.word a 8
  | _ => 0

end Sys2Proof
end

