-- ==== Sys2Proof/Config.lean ====
section
/-! DEFINITION. What one implementation fixes and what spec/ leaves open: the free values.
Every opaque constant here has no body, so no proof can see a value of it (notes/assumptions/7.md). -/

namespace Sys2Proof.Config

/-- The k-th free value of the run: any number at all.  A step that needs an undefined value draws
`free d.free` and advances the counter `Dev.free`. -/
opaque free : Nat → Nat

/-- The reed approximations (R129): the bits returned for an operation code of Table 5-3 and an input.
Deterministic, so a function of the operands; `approxPick` holds it to the bounds of Table 5-4. -/
opaque approx : BitVec 7 → BitVec 32 → BitVec 32

/-- Fast VDIV and VSQRT (R130): true picks the neighbour away from zero.  A function of the operation
code and the operands. -/
opaque fastNeighbour : BitVec 7 → BitVec 32 → BitVec 32 → Bool

/-- CYCLE (Table 4-2): the loom clocks since the loom's launch; timing is not modelled. -/
opaque cycles : LoomId → Nat → BitVec 64

/-- The option ROM image of boot flash (R328) and its length; the provenance ROM as delivered (R404). -/
opaque romByte : Nat → Byte
opaque romLen : Nat
opaque provByte : Nat → Byte

/-- Identity and SPDM (R343, R409): the algorithms are named by spec/ and not computed here, so each is a function of what it
takes.  `pufKey` is the wrapping key that the SRAM array gives at every boot; `unwrap` is AES-256 key unwrap of the wrapped
identity key; `aliasKey` derives the alias key from the identity key and the measurement of the running image; `aliasCert` is
the certificate of the alias key under the identity key; `sign` is ECDSA over P-384; `digest` is SHA-384. -/
opaque pufKey : BitVec 256
opaque unwrap : BitVec 256 → List Byte → BitVec 384
opaque aliasKey : BitVec 384 → BitVec 384 → BitVec 384
opaque aliasCert : BitVec 384 → BitVec 384 → List Byte
opaque sign : BitVec 384 → List Byte → BitVec 768
opaque digest : List Byte → BitVec 384
/-- The measurement of the image in a firmware slot, by its version. -/
opaque imageSum : Nat → Nat → BitVec 384
/-- Bytes of the two certificates that the ROM holds, and the digest of the Stavne root certificate. -/
opaque certLen : Nat
opaque rootSum : BitVec 384

end Sys2Proof.Config
end

