-- ==== Sys2Proof/Machine/LedgerState.lean ====
section
/-! DEFINITION. The state of the ledger (spec/18), the selvage (spec/17) and the pins (spec/19). -/

namespace Sys2Proof.Machine

/-- A ledger record (Table 18-2). -/
structure LRec where
  seq : Nat
  source : Nat
  cls : Nat
  escalated : Bool := false
  forced : Bool := false
  isOpen : Bool := true
  prevBoot : Bool := false
  rail : Bool := false
  /-- wing; 16 = none -/
  wing : Nat
  count : Nat := 1
  first : Nat
  last : Nat
  detail : Nat
  deriving DecidableEq, Repr

/-- A commit slot of boot flash (R453). -/
structure Commit where
  boot : Nat
  num : Nat
  powerFail : Bool
  nextSeq : Nat
  tick : Nat
  energy : Nat
  firstReg : Nat
  fatalReg : Nat
  overflowReg : Nat
  dropped : Nat
  recs : List LRec
  deriving DecidableEq, Repr

/-- What a stale mirror holds: the registers of the ledger block and the ring. -/
structure Mirror where
  regs : Fmap (Fmap Nat)
  ring : Fmap LRec
  deriving DecidableEq, Repr

structure Ledger where
  /-- the ring of 4,096 slots -/
  ring : Fmap LRec := []
  /-- slot after the newest record's -/
  next : Nat := 0
  /-- start of each source's window -/
  wstart : Fmap Nat := []
  /-- slots of records opened or merged since the previous commit, oldest change first -/
  changed : List Nat := []
  lastCommit : Nat := 0
  /-- mirrors that missed updates, by X-die, and what each of them still serves (R444) -/
  stale : BitVec 4 := 0
  mirrors : Fmap Mirror := []
  /-- tick and SEQ of the last FATAL classification (R450) -/
  lastFatal : Option (Nat × Nat) := none
  /-- boot flash: boot number, commits, erased slots of 224 -/
  boot : Nat := 0
  commits : List Commit := []
  erased : Nat := 224
  deriving DecidableEq, Repr

structure Selv where
  /-- A of R418, in nW -/
  avg : Nat := 0
  /-- M and E of the last comparison, in mW -/
  meas : Nat := 0
  est : Nat := 0
  /-- requested rail voltages in mV, and voltages the monitor has shown -/
  want : Fmap Nat := []
  rail : Fmap Nat := []
  /-- points that tiles take once their rail has settled, and the tick of each tile's last change (R414) -/
  pend : Fmap Nat := []
  moved : Fmap Nat := []
  /-- highest point the power limit allows each tile, and by 16 × tile + point since when it has allowed that point (R423) -/
  power : Fmap Nat := []
  powerOk : Fmap Nat := []
  /-- grants of loom tiles, and the total of each compute rail, in 0.25 A (R415, R417) -/
  grants : Fmap Nat := []
  railTotal : Fmap Nat := []
  /-- grants of the X-dies, and of the M-dies with the display stacks, in mW (Table 17-2) -/
  linkGrant : Nat := 0
  memGrant : Nat := 0
  /-- ticks since which the difference of R425 has stood above, or not above, its threshold -/
  divSince : Option Nat := none
  okSince : Option Nat := none
  /-- temperatures as used, in 0.5 °C: tiles, then periphery, M-die, X-die, stack sensors (Table 17-4) -/
  temps : Fmap Int := []
  /-- sensors counted as failed, and since when a sensor differs from its group (R430) -/
  failed : List Nat := []
  differs : Fmap Nat := []
  /-- last change of each tile's heat limit; what lowered it: 1 the tile, 2 a die sensor, 3 both; a die sensor is hot;
  stacks with halved admission (R432, R433) -/
  heatAt : Fmap Nat := []
  heatBy : Fmap Nat := []
  dieHot : Bool := false
  stackHot : BitVec 16 := 0
  /-- raised V/F offsets by 16 × tile + point (R408) -/
  vf : Fmap Int := []
  /-- nanojoules of the measurement not yet a whole microjoule of SELV_ENERGY (R436) -/
  nj : Nat := 0
  /-- the power limit of some tile is below its preference (R422) -/
  pointHit : Bool := false
  /-- the trip has stopped the fast clocks (R434) -/
  tripped : Bool := false
  deriving DecidableEq, Repr

/-- Phases of the shuttle pins (Table 19-6). -/
inductive Phase | strap | run | fault
  deriving DecidableEq, Repr

structure Pins where
  aonPower : Bool := true
  aonClk : Bool := true
  /-- tick at which AON_CLK last returned (R463) -/
  clkAt : Nat := 0
  pwrOk : Bool := true
  rstN : Bool := false
  rstAt : Nat := 0
  /-- PERST_N[7:0]; a set bit is high -/
  perstN : BitVec 8 := 0
  pwrfailN : Bool := true
  thermtrip : Bool := false
  throttleIn : Bool := false
  phase : Phase := .strap
  straps : BitVec 8 := 0
  alive : Bool := false
  aliveAt : Nat := 0
  /-- FAULT_N is asserted (low) -/
  fault : Bool := false
  faultAt : Nat := 0
  /-- fault class of the first FATAL, and the tick of the last nibble frame (R451, R470) -/
  nibble : Nat := 0
  frameAt : Option Nat := none
  /-- SHT5, SHT6, SHT7 in the run phase: throttled, above the throttle point, power-limited (R429) -/
  throttled : Bool := false
  hot : Bool := false
  limited : Bool := false
  deriving DecidableEq, Repr

end Sys2Proof.Machine
end

