-- ==== Sys2Proof/Machine/RegState.lean ====
section
/-! DEFINITION. The state of the registrar (spec/16): mailboxes, background commands, firmware slots, boot flash records,
event bookkeeping, releases and zero-fills in progress. -/

namespace Sys2Proof.Machine

/-- A command on its way through a mailbox (R393, R394).  Boxes: 0 to 15 primary mailbox of a head, 16 to 31 secondary,
32 MCTP, 33 an SPDM secured session of the operator. -/
structure MbCmd where
  box : Nat
  op : Nat
  data : List Byte
  deriving DecidableEq, Repr

/-- A background command in progress: mailbox, opcode, its object. -/
structure Bg where
  box : Nat
  op : Nat
  obj : Nat
  deriving DecidableEq, Repr

/-- A wing release in progress (Table 15-3): the mailbox. -/
structure Rel where
  box : Nat
  deriving DecidableEq, Repr

/-- An extent grant that is still zero-filling (R375). -/
structure Fill where
  wing : WingId
  base : Nat
  len : Nat
  box : Nat
  deriving DecidableEq, Repr

structure Registrar where
  /-- a firmware image runs -/
  running : Bool := false
  safe : Bool := false
  /-- a warm reset waits for steps 3 to 8 of Table 16-1 (R473) -/
  warm : Bool := false
  /-- commands accepted and not yet executed, in order -/
  cmdQ : List MbCmd := []
  bg : List Bg := []
  /-- the last rotation (0) or region run (1) that a mailbox started, for Request Abort (Table 16-4) -/
  lastJob : Fmap (Nat × Nat) := []
  /-- background command status of each mailbox: opcode, RESULT, output of the last one that ended -/
  bgStat : Fmap (Nat × Nat × List Byte) := []
  rel : Fmap Rel := []
  fills : List Fill := []
  /-- active registrar slot, slot to activate at the next cold reset -/
  slot : Nat := 1
  nextSlot : Option Nat := none
  /-- boot record: generation and OVERRIDE (R391) -/
  bootGen : Nat := 0
  bootOver : Nat := 0
  /-- image bytes transferred into a slot, and the transfer in progress: slot and next offset -/
  fwLen : Fmap Nat := []
  fwXfer : Option (Nat × Nat) := none
  /-- versions of the images in slots 1 to 3, and of the active microcode -/
  fwVer : Fmap Nat := []
  ucodeVer : Nat := 0
  /-- M-dies that a microcode reload still has to do, and its mailbox -/
  ucode : List Nat := []
  ucodeBox : Nat := 0
  respLimit : Fmap Nat := []
  /-- the alias key of this boot and its certificate (R409) -/
  aliasKey : BitVec 384 := 0
  aliasCert : List Byte := []
  /-- Set Timestamp: value and the AON tick at which it was set -/
  stamp : Option (Nat × Nat) := none
  evPolicy : Fmap Nat := []
  /-- ledger SEQs a head has cleared as event records -/
  evCleared : Fmap (List Nat) := []
  alert : Fmap Nat := []
  /-- clock mode of each X-die in the port configuration record: 0 common clock, 1 SRNS, 2 SRIS (R462) -/
  clkMode : Fmap Nat := []
  /-- node configuration record (PORT_MAP): byte 0 SELF, bytes 1 to 16 the peers of the ports -/
  portMap : List Nat := []
  /-- AON tick of the last heartbeat, and seconds reported without one (R441) -/
  beat : Nat := 0
  lost : Nat := 0
  /-- key slots by wing, the same in all four M-dies; an empty slot is not listed (R378, R379) -/
  keys : Fmap (BitVec 512) := []
  /-- receiving-side window tables: 32,768 × peer + entry (R366) -/
  windows : Fmap (BitVec 64) := []
  deriving DecidableEq, Repr

end Sys2Proof.Machine
end

