-- ==== Sys2Proof/Machine/Dev.lean ====
section
/-! DEFINITION. The device: every register, table, queue, counter, mode and pin of spec/, as plain data. -/

namespace Sys2Proof.Machine

/-- The five assemblies of Table 0-1. -/
inductive Assembly | d16x4 | d12x4 | d12x2 | d8x2 | d8x1
  deriving DecidableEq, Repr

/-- A report on its way to the ledger (R438): source, detail word, wing (15 + 1 = none). -/
structure Report where
  src : Nat
  detail : Nat
  wing : Nat
  deriving DecidableEq, Repr

/-- A barrier group of a wing (R112, R113). -/
structure BGroup where
  count : Nat := 0
  arrivals : Nat := 0
  broken : Bool := false
  members : List LoomId := []
  waiting : List LoomId := []
  deriving DecidableEq, Repr

/-- A wing's resources beside its cards (Table 15-2). -/
structure Wing where
  /-- extents: base DPA and bytes -/
  extents : List (Nat × Nat) := []
  deriving DecidableEq, Repr

/-- The device: everything but the queue. -/
structure Dev where
  /-- the assembly; its default is the model's choice (notes/assumptions/58.md) -/
  asm : Assembly := .d16x4
  /-- AON tick in microseconds (R21) -/
  tick : Nat := 0
  /-- card fields by field number, then by instance (R5) -/
  regs : Fmap (Fmap Nat) := []
  looms : Fmap Loom := []
  /-- wing that owns each loom; 16 = none (R374) -/
  loomWing : Fmap Nat := []
  /-- barrier groups by 64 × wing + group -/
  groups : Fmap BGroup := []
  wings : Fmap Wing := []
  weave : Weave := {}
  tiers : Tiers := {}
  trans : Trans := {}
  /-- region descriptors (Table 10-2), each home's count of a region by 4 × region + home (R251), and the regions
  that wait for a run slot, first triggered first (R255) -/
  regions : Fmap (BitVec 512) := []
  regCount : Fmap Nat := []
  runQ : List Nat := []
  /-- runs by slot (at most 16), and for a region that stopped or is to start again: entry to start at, run scalars -/
  runs : Fmap Run := []
  rerun : Fmap (Nat × List Nat) := []
  heads : Fmap Head := []
  ports : Fmap Port := []
  jg : JobGroup := {}
  queues : Fmap CQueue := []
  /-- tiles: AON tick from which the current state of a clock tile counts (wake due, gated since) and since when no
  loom of a running tile is active (R20, R410) -/
  tileAt : Fmap Nat := []
  tileIdle : Fmap Nat := []
  /-- sent on the outer interfaces, oldest first (the model's own) -/
  tx : List Tx := []
  /-- ports that run as two x8 heads since cold start, and the port configuration record of boot flash (R317) -/
  bifur : BitVec 8 := 0
  bifurRec : BitVec 8 := 0
  reg : Registrar := {}
  selv : Selv := {}
  ledger : Ledger := {}
  pins : Pins := {}
  /-- provenance ROM bytes written since delivery (R404) -/
  prov : Fmap Byte := []
  reports : List Report := []
  /-- serial numbers of loom operations (R94) -/
  opSeq : Nat := 0
  /-- free values drawn so far (the model's own) -/
  free : Nat := 0
  deriving DecidableEq, Repr

end Sys2Proof.Machine
end

