-- ==== Sys2Proof/Machine/Ops.lean ====
section
/-! DEFINITION. The named operations over registers, memory and reports that every meaning uses. -/

namespace Sys2Proof.Machine

/-! ### Register fields (R5, R9) -/

/-- Default BASE, ESC, N and W of a ledger source (Table 18-1), packed as in LEDGER_SRC_n. -/
def srcDefault (n : Nat) : Nat × Nat × Nat × Nat :=
  let none_ (b : Nat) : Nat × Nat × Nat × Nat := (b, b, 2047, 65535)
  if n < 0x100 then
    match n % 4 with
    | 0 => (0, 1, 64, 1000)
    | 1 => (0, 1, 16, 1000)
    | 2 => (0, 1, 256, 60000)
    | _ => none_ 0
  else if n < 0x110 then
    match n % 4 with
    | 0 => (0, 1, 256, 1000)
    | 1 => (0, 1, 256, 1000)
    | 2 => none_ 3
    | _ => none_ 0
  else if n < 0x150 then
    match n % 16 with
    | 1 => none_ 2
    | 2 => none_ 1
    | 3 => (0, 1, 256, 60000)
    | 4 => none_ 3
    | _ => none_ 0
  else if n < 0x190 then none_ 0
  else if n < 0x2D0 then
    match n % 8 with
    | 0 => (0, 1, 64, 60000)
    | 1 => (0, 1, 4, 60000)
    | 2 => none_ 2
    | 4 => (0, 1, 16, 1000)
    | 5 => none_ 2
    | 6 => none_ 1
    | _ => none_ 0
  else if n < 0x310 then
    match n % 4 with
    | 0 => (0, 1, 256, 1000)
    | 1 => none_ 2
    | 3 => none_ 1
    | _ => none_ 0
  else if n < 0x350 then
    match n % 4 with
    | 0 => (0, 1, 1024, 1000)
    | 1 => none_ 1
    | 2 => none_ 2
    | _ => none_ 0
  else if n < 0x360 then
    match n % 4 with
    | 1 => (0, 1, 256, 60000)
    | 2 => none_ 2
    | 3 => none_ 1
    | _ => none_ 0
  else if n = 0x360 || n = 0x361 then none_ 1
  else if n = 0x362 then none_ 2
  else if n = 0x363 then none_ 3
  else if n < 0x370 then none_ 0
  else if n < 0x380 then
    match n % 16 with
    | 0 => none_ 1
    | 1 => none_ 2
    | 2 => none_ 2
    | 3 => none_ 2
    | 4 => none_ 1
    | 5 => none_ 1
    | 7 => none_ 2
    | 8 => none_ 1
    | _ => none_ 0
  else
    match n with
    | 0x380 => none_ 2
    | 0x382 => none_ 2
    | 0x383 => none_ 1
    | _ => none_ 0

/-- The reset value of a field's instance: the card's, or Table 18-1's for LEDGER_SRC_n. -/
def Field.resetAt (f : Field) (n : Nat) : Nat :=
  if f.id = Fld.LEDGER_SRC_BASE.id then (srcDefault n).1
  else if f.id = Fld.LEDGER_SRC_ESC.id then (srcDefault n).2.1
  else if f.id = Fld.LEDGER_SRC_N.id then (srcDefault n).2.2.1
  else if f.id = Fld.LEDGER_SRC_W.id then (srcDefault n).2.2.2
  else f.reset

/-- The value of a field's instance. -/
def Dev.fld (d : Dev) (f : Field) (n : Nat) : Nat := Fmap.get (f.resetAt n) (Fmap.get [] d.regs f.id) n

/-- Sets a field's instance, cut to the field's width. -/
def Dev.setFld (d : Dev) (f : Field) (n v : Nat) : Dev :=
  { d with regs := Fmap.put d.regs f.id (Fmap.put (Fmap.get [] d.regs f.id) n (v % 2 ^ f.width)) }

/-- One bit of a field. -/
def Dev.fldBit (d : Dev) (f : Field) (n i : Nat) : Bool := (d.fld f n).testBit i

/-- Sets bits of a field by OR (hardware sets of RW1C bits). -/
def Dev.orFld (d : Dev) (f : Field) (n v : Nat) : Dev := d.setFld f n (d.fld f n ||| v)

/-- Clears bits of a field. -/
def Dev.clrFld (d : Dev) (f : Field) (n v : Nat) : Dev := d.setFld f n (d.fld f n - (d.fld f n &&& v))

/-- Adds to a saturating counter field. -/
def Dev.satAdd (d : Dev) (f : Field) (n v : Nat) : Dev := d.setFld f n (min (d.fld f n + v) (2 ^ f.width - 1))

/-- A field returns to its reset value at every instance that satisfies `p` (R9). -/
def Dev.resetFld (d : Dev) (f : Field) (p : Nat → Bool) : Dev :=
  { d with regs := Fmap.put d.regs f.id ((Fmap.get [] d.regs f.id).filter (fun c => !p c.1)) }

/-- Domains whose fields an event of a domain resets (Table 0-5). -/
def Domain.covers : Domain → Domain → Bool
  | .aon, _ => true
  | .cold, .aon => false
  | .cold, _ => true
  | .warm, .aon => false
  | .warm, .cold => false
  | .warm, _ => true
  | .head, .head => true
  | .head, .flr => true
  | .head, _ => false
  | .flr, .flr => true
  | .flr, _ => false
  | .wing, .wing => true
  | .wing, _ => false

/-- Every field of the domains an event covers returns to reset, at every instance (AON, COLD, WARM). -/
def Dev.resetDomain (d : Dev) (e : Domain) : Dev :=
  { d with regs := d.regs.filter (fun c => !e.covers (fieldDomains.getD c.1 .cold)) }

/-- Every field of a card returns to reset at the instances that satisfy `p` (HEAD, FLR, WING events). -/
def Dev.resetCard (d : Dev) (c : Card) (p : Nat → Bool) : Dev := c.fields.foldl (fun d f => d.resetFld f p) d

/-- The value a read of a register's instance returns: WO fields and reserved bits read zero (R5). -/
def Dev.card (d : Dev) (c : Card) (n : Nat) : Nat :=
  c.fields.foldl (fun v f => if f.access = .wo then v else v ||| (d.fld f n <<< f.lo)) 0

/-- Applies a register write field by field under the access codes: RW sets, RW1C clears, RO and WO keep (R5). -/
def Dev.writeCard (d : Dev) (c : Card) (n v : Nat) : Dev :=
  c.fields.foldl (fun d f =>
    let x := v >>> f.lo % 2 ^ f.width
    match f.access with
    | .rw => d.setFld f n x
    | .rw1c => d.clrFld f n x
    | _ => d) d

/-! ### Assemblies (Table 0-1, R12) -/

def Assembly.stacks : Assembly → Nat
  | .d16x4 => 16 | .d12x4 => 12 | .d12x2 => 12 | .d8x2 => 8 | .d8x1 => 8
def Assembly.xdies : Assembly → Nat
  | .d16x4 => 4 | .d12x4 => 4 | .d12x2 => 2 | .d8x2 => 2 | .d8x1 => 1
/-- Stacks per M-die, g of R197. -/
def Assembly.groups (a : Assembly) : Nat := a.stacks / 4
/-- R12: which stacks are present. -/
def Assembly.hasStack (a : Assembly) (s : Nat) : Bool := s < 16 && s % 4 < a.groups
def Assembly.hasHead (a : Assembly) (h : Nat) : Bool := h < 4 * a.xdies
def Assembly.hasPort (a : Assembly) (q : Nat) : Bool := q < 4 * a.xdies
/-- Catalogue ways (Table 7-4). -/
def Assembly.catWays : Assembly → Nat
  | .d16x4 => 16 | .d12x4 => 12 | .d12x2 => 12 | .d8x2 => 8 | .d8x1 => 8
/-- Atrium sets per M-die as a power of two; 0 where there is no atrium (R210). -/
def Assembly.atriumBits : Assembly → Nat
  | .d16x4 => 0 | .d12x4 => 14 | .d12x2 => 14 | .d8x2 => 15 | .d8x1 => 15

/-! ### Reports, free values, serial numbers -/

/-- A unit reports one event; at most 16 detail words wait per source, further events are pulses whose detail is
dropped and reads as all ones (R438, Table 18-2). -/
def Dev.report (d : Dev) (src detail wing : Nat) : Dev :=
  let q := (d.reports.filter (fun r => r.src = src)).length
  { d with reports := d.reports ++ [⟨src, if q < 16 then detail else 2 ^ 128 - 1, wing⟩] }

/-- The detail word of a source other than memory (Table 18-2): address, object, the unit's own code. -/
def mkDetail (addr obj code : Nat) : Nat := addr % 2 ^ 48 * 2 ^ 80 + obj % 2 ^ 16 * 2 ^ 64 + code % 2 ^ 8 * 2 ^ 56

/-- No wing, in a report. -/
def noWing : Nat := 16

/-- Draws one free value (notes/assumptions/7.md). -/
def Dev.draw (d : Dev) : Nat × Dev := (Config.free d.free, { d with free := d.free + 1 })

/-- A fresh request tag. -/
def Dev.newTag (d : Dev) : Nat × Dev :=
  (d.weave.nextTag, { d with weave := { d.weave with nextTag := d.weave.nextTag + 1 } })

/-- A fresh operation number. -/
def Dev.newOp (d : Dev) : Nat × Dev := (d.opSeq, { d with opSeq := d.opSeq + 1 })

/-! ### Looms -/

def Dev.loom (d : Dev) (n : LoomId) : Loom := Fmap.get {} d.looms n.toNat
def Dev.setLoom (d : Dev) (n : LoomId) (l : Loom) : Dev := { d with looms := Fmap.put d.looms n.toNat l }

/-- Compute die and clock tile of a loom (Table 1-6). -/
def loomDie (n : Nat) : Nat := n / 1024
def loomTile (n : Nat) : Nat := n / 1024 * 16 + n % 1024 / 32 / 8 * 4 + n % 32 / 8

/-- A treadle register; t0 reads as zero (R83). -/
def Loom.reg (l : Loom) (r : Reg) : W64 := if r = 0 then 0 else Fmap.get 0 l.t r.toNat
/-- Writes a treadle register; a write to t0 is discarded (R84). -/
def Loom.setReg (l : Loom) (r : Reg) (v : W64) : Loom := if r = 0 then l else { l with t := Fmap.put l.t r.toNat v }

/-- A reed register (R119). -/
def Loom.vreg (l : Loom) (r : Nat) : BitVec 512 := Fmap.get 0 l.v (r % 32)
def Loom.setVreg (l : Loom) (r : Nat) (v : BitVec 512) : Loom := { l with v := Fmap.put l.v (r % 32) v }

/-! ### Lists -/

/-- Removes the first element equal to `x`. -/
def eraseOne {α : Type} [DecidableEq α] (x : α) : List α → List α
  | [] => []
  | y :: ys => if y = x then ys else y :: eraseOne x ys

/-- Replaces every element that satisfies `p`. -/
def updateIf {α : Type} (p : α → Bool) (f : α → α) (l : List α) : List α := l.map (fun x => if p x then f x else x)

end Sys2Proof.Machine
end

