-- ==== Sys2Proof/Machine/Irq.lean ====
section
/-! DEFINITION. Interrupts of a head (R329, R330, R257). -/

namespace Sys2Proof.Machine

def Dev.head (d : Dev) (h : HeadId) : Head := Fmap.get {} d.heads h.toNat
def Dev.setHead (d : Dev) (h : HeadId) (x : Head) : Dev := { d with heads := Fmap.put d.heads h.toNat x }
def Dev.send (d : Dev) (t : Tx) : Dev := { d with tx := d.tx ++ [t] }

def Dev.frozen (d : Dev) (h : HeadId) : Bool := d.fld Fld.HEAD_STATUS_FROZEN h.toNat = 1
def Dev.isAbsent (d : Dev) (h : HeadId) : Bool := d.weave.absent.getLsbD h.toNat

/-- An MSI-X entry: address in [63:0], data in [95:64], mask bit [96]; an unlisted entry is masked. -/
def Head.msixEntry (x : Head) (v : Nat) : BitVec 128 := Fmap.get ((1 : BitVec 128) <<< 96) x.msix v

/-- Message data of MSI vector v: its low bits name the vector (PCI Express 6.0). -/
def Head.msiWord (x : Head) (v : Nat) : Nat := x.msiData / 2 ^ x.msiLog * 2 ^ x.msiLog + v

/-- Drives INTA after a change of the pending bits or of Interrupt Disable (R329 item 3); during an FLR the head sends no
Assert_INTA (R333). -/
def Dev.driveInta (d : Dev) (h : HeadId) : Dev :=
  let x := d.head h
  let want := !x.intxOff && d.fld Fld.HEAD_INT_PENDING_PEND h.toNat ≠ 0 && d.fld Fld.HEAD_STATUS_FLR_ACTIVE h.toNat = 0
  if want = x.inta then d
  else (d.setHead h { x with inta := want }).send (if want then .assertInta h else .deassertInta h)

/-- The head may send requests upstream: Bus Master Enable is set and its function is in D0 (R330, R326). -/
def Head.master (x : Head) : Bool := x.bme && decide (x.pm ≠ 3)

/-- A head delivers an interrupt of vector v, 0 to 255, by the first mode of R329 that applies; it is dropped while
the head is ABSENT or frozen, or has every mode disabled (R257). -/
def Dev.interrupt (d : Dev) (h : HeadId) (v : Nat) : Dev :=
  let x := d.head h
  if d.isAbsent h || d.frozen h then d
  else if x.msixEn then
    let v := v % 256
    let e := x.msixEntry v
    if e.getLsbD 96 || x.msixMask || !x.master then d.setHead h { x with pba := x.pba ||| ((1 : BitVec 256) <<< v) }
    else d.send (.msg h (e.extractLsb' 0 64).toNat (e.extractLsb' 64 32).toNat)
  else if x.msiEn then
    let v := v % 2 ^ x.msiLog
    if x.msiMask.getLsbD v || !x.master then d.setHead h { x with msiPend := x.msiPend ||| ((1 : BitVec 32) <<< v) }
    else d.send (.msg h x.msiAddr (x.msiWord v))
  else if !x.intxOff then (d.orFld Fld.HEAD_INT_PENDING_PEND h.toNat (2 ^ (v % 64))).driveInta h
  else d

/-- Sends the pending vectors that may be sent now, each once (R329, R330). -/
def Dev.flushIrqs (d : Dev) (h : HeadId) : Dev :=
  let x := d.head h
  if !x.master || d.isAbsent h || d.frozen h then d
  else if x.msixEn then
    if x.msixMask then d else
    (List.range 256).foldl (fun (d : Dev) v =>
      let x := d.head h
      let e := x.msixEntry v
      if x.pba.getLsbD v && !e.getLsbD 96 then
        (d.setHead h { x with pba := x.pba &&& ~~~((1 : BitVec 256) <<< v) }).send
          (.msg h (e.extractLsb' 0 64).toNat (e.extractLsb' 64 32).toNat)
      else d) d
  else if x.msiEn then
    (List.range 32).foldl (fun (d : Dev) v =>
      let x := d.head h
      if x.msiPend.getLsbD v && !x.msiMask.getLsbD v then
        (d.setHead h { x with msiPend := x.msiPend &&& ~~~((1 : BitVec 32) <<< v) }).send (.msg h x.msiAddr (x.msiWord v))
      else d) d
  else d

end Sys2Proof.Machine
end

