-- ==== Sys2Proof/Machine/Treadle.lean ====
section
/-! DEFINITION. The treadle: states of a loom, barrier groups (R112, R113), how an instruction stops it (R117, Table 4-12),
and the instructions on registers, branches and jumps (R84, R88). -/

namespace Sys2Proof.Machine

/-! ### States of a loom (TREADLE_STATUS.STATE) -/

def stIdle : Nat := 0
def stWaking : Nat := 1
def stRunning : Nat := 2
def stStopped : Nat := 3
def stFenced : Nat := 4
def stPaused : Nat := 5
def stScrubbing : Nat := 6

def Dev.loomState (d : Dev) (n : LoomId) : Nat := d.fld Fld.TREADLE_STATUS_STATE n.toNat
def Dev.setLoomState (d : Dev) (n : LoomId) (s : Nat) : Dev := d.setFld Fld.TREADLE_STATUS_STATE n.toNat s
/-- Wing of a loom; 16 = none. -/
def Dev.wingOf (d : Dev) (n : LoomId) : Nat := Fmap.get noWing d.loomWing n.toNat

/-- The treadle issues its next instruction: it runs, waits for nothing, and no pause or fence is asked of it (R84, R117). -/
def Dev.ready (d : Dev) (n : LoomId) : Bool :=
  let l := d.loom n
  d.loomState n = stRunning && l.stall = .run && l.ending = .none && l.request = .none

def Dev.setPc (d : Dev) (n : LoomId) (pc : BitVec 56) : Dev :=
  d.setLoom n { d.loom n with pc := pc }

/-- The pc moves past an instruction of k bytes. -/
def Dev.nextPc (d : Dev) (n : LoomId) (k : Nat) : Dev := d.setPc n ((d.loom n).pc + BitVec.ofNat 56 k)

/-- Writes a treadle register; t0 discards it (R84). -/
def Dev.setReg (d : Dev) (n : LoomId) (r : Reg) (v : W64) : Dev := d.setLoom n ((d.loom n).setReg r v)

/-! ### Barrier groups (R112, R113) -/

def groupKey (w : Nat) (g : BitVec 6) : Nat := 64 * w + g.toNat
def Dev.group (d : Dev) (k : Nat) : BGroup := Fmap.get {} d.groups k
def Dev.setGroup (d : Dev) (k : Nat) (g : BGroup) : Dev := { d with groups := Fmap.put d.groups k g }

/-- A member that waits at its BARRIER goes on with rd := v; 1 also sets BARRIER_BROKEN. -/
def Dev.releaseMember (v : W64) (d : Dev) (n : LoomId) : Dev :=
  match (d.loom n).stall with
  | .barrier rd =>
    let d := (d.setLoom n { d.loom n with stall := .run }).setReg n rd v
    let d := if v = 0 then d else d.setFld Fld.TREADLE_STATUS_BARRIER_BROKEN n.toNat 1
    d.nextPc n 4
  | _ => d

/-- Every waiting member is released; arrivals return to 0. -/
def Dev.releaseGroup (d : Dev) (k : Nat) (v : W64) : Dev :=
  let g := d.group k
  g.waiting.foldl (Dev.releaseMember v) (d.setGroup k { g with arrivals := 0, waiting := [] })

/-- A member that stops, is paused or is fenced breaks its group. -/
def Dev.breakGroup (d : Dev) (n : LoomId) : Dev :=
  match (d.loom n).group with
  | none => d
  | some g =>
    let k := groupKey (d.wingOf n) g
    (d.setGroup k { d.group k with broken := true }).releaseGroup k 1

/-- A member that halts leaves its group; the group releases when every remaining member has arrived. -/
def Dev.leaveGroup (d : Dev) (n : LoomId) : Dev :=
  match (d.loom n).group with
  | none => d
  | some g =>
    let k := groupKey (d.wingOf n) g
    let x := d.group k
    let y : BGroup := { x with count := x.count - 1, members := x.members.filter (fun m => m ≠ n),
                               waiting := x.waiting.filter (fun m => m ≠ n) }
    let d := (d.setLoom n { d.loom n with group := none }).setGroup k y
    if y.count > 0 && y.arrivals = y.count then d.releaseGroup k 0 else d

/-! ### Stops (R117) -/

/-- Error codes of Table 4-12. -/
inductive ErrCode
  | illegalInstruction | illegalFormat | misaligned | scratchRange | illegalOperand | execDenied | accessDenied
  | translationTimeout | poisonedLoad | loadLinkLost | atomicIndeterminate | noBarrierGroup | stopRequested
  deriving DecidableEq, Repr

def ErrCode.code : ErrCode → Nat
  | .illegalInstruction => 1 | .illegalFormat => 2 | .misaligned => 3 | .scratchRange => 4 | .illegalOperand => 5
  | .execDenied => 6 | .accessDenied => 7 | .translationTimeout => 8 | .poisonedLoad => 9 | .loadLinkLost => 10
  | .atomicIndeterminate => 11 | .noBarrierGroup => 12 | .stopRequested => 13

/-- Ledger source k of a loom's tile (Table 18-1). -/
def tileSrc (n : LoomId) (k : Nat) : Nat := 4 * loomTile n.toNat + k

/-- The treadle stops at its instruction, which takes no effect: code and pc are set, its group breaks, a ledger event
follows; LOOM_PROGRAM_END takes the loom to STOPPED. -/
def Dev.stop (d : Dev) (n : LoomId) (e : ErrCode) : Dev :=
  let l := d.loom n
  if l.ending ≠ .none then d
  else
    let d := d.setLoom n { l with ending := .stopped, stall := .run }
    let d := (d.setFld Fld.TREADLE_STATUS_ERROR_CODE n.toNat e.code).setFld Fld.TREADLE_PC_PC n.toNat l.pc.toNat
    (d.breakGroup n).report (tileSrc n 0) (mkDetail l.pc.toNat n.toNat e.code) (d.wingOf n)

/-- An instruction runs only while the treadle is ready. -/
def Dev.issue (d : Dev) (n : LoomId) (f : Dev → Dev) : Dev := if d.ready n then f d else d

/-! ### Register operations (Table 4-4) -/

inductive Alu
  | add | sub | and | or | xor | sll | srl | sra | slt | sltu | min | max | minu | maxu | mul | mulh | mulhu
  | div | divu | rem | remu
  deriving DecidableEq, Repr

/-- The 64-bit result of a register operation (Table 4-4 classes 0x0 and 0x1, notes 1 and 2). -/
def alu (op : Alu) (a b : W64) : W64 :=
  let flag (c : Bool) : W64 := if c then 1 else 0
  let sh := b.toNat % 64
  match op with
  | .add => a + b
  | .sub => a - b
  | .and => a &&& b
  | .or => a ||| b
  | .xor => a ^^^ b
  | .sll => a <<< sh
  | .srl => a >>> sh
  | .sra => a.sshiftRight sh
  | .slt => flag (decide (a.toInt < b.toInt))
  | .sltu => flag (decide (a.toNat < b.toNat))
  | .min => if a.toInt ≤ b.toInt then a else b
  | .max => if a.toInt ≤ b.toInt then b else a
  | .minu => if a.toNat ≤ b.toNat then a else b
  | .maxu => if a.toNat ≤ b.toNat then b else a
  | .mul => a * b
  | .mulh => BitVec.ofInt 64 (a.toInt * b.toInt / 2 ^ 64)
  | .mulhu => BitVec.ofNat 64 (a.toNat * b.toNat / 2 ^ 64)
  | .div => if b = 0 then BitVec.allOnes 64 else BitVec.ofInt 64 (a.toInt.tdiv b.toInt)
  | .divu => if b = 0 then BitVec.allOnes 64 else BitVec.ofNat 64 (a.toNat / b.toNat)
  | .rem => if b = 0 then a else BitVec.ofInt 64 (a.toInt.tmod b.toInt)
  | .remu => if b = 0 then a else BitVec.ofNat 64 (a.toNat % b.toNat)

/-- Class 0x0. -/
def Dev.aluReg (d : Dev) (n : LoomId) (op : Alu) (a : RArgs) : Dev :=
  let l := d.loom n
  if a.rsvd ≠ 0 then d.stop n .illegalInstruction
  else (d.setReg n a.rd (alu op (l.reg a.rs1) (l.reg a.rs2))).nextPc n 4

/-- Class 0x1: the immediate is sign-extended. -/
def Dev.aluImm (d : Dev) (n : LoomId) (op : Alu) (a : IArgs) : Dev :=
  (d.setReg n a.rd (alu op ((d.loom n).reg a.rs1) (a.imm.signExtend 64))).nextPc n 4

/-- MOVW: the halfword alone, or the halfword of rd with the others kept. -/
def Dev.movw (d : Dev) (n : LoomId) (a : MovwArgs) : Dev :=
  if a.rsvd ≠ 0 then d.stop n .illegalInstruction
  else
    let k := 16 * a.hw.toNat
    let x : W64 := a.imm.setWidth 64 <<< k
    let old := (d.loom n).reg a.rd &&& ~~~((0xFFFF : W64) <<< k)
    (d.setReg n a.rd (if a.keep then old ||| x else x)).nextPc n 4

/-! ### Branches and jumps -/

inductive Cond | eq | ne | lt | ge | ltu | geu
  deriving DecidableEq, Repr

/-- Conditions of class 0x6. -/
def cond (c : Cond) (a b : W64) : Bool :=
  match c with
  | .eq => a = b
  | .ne => a ≠ b
  | .lt => a.toInt < b.toInt
  | .ge => b.toInt ≤ a.toInt
  | .ltu => a.toNat < b.toNat
  | .geu => b.toNat ≤ a.toNat

/-- A taken branch goes to pc + 4 × imm15; a target that is not 4-byte aligned stops the treadle (note 3). -/
def Dev.branch (d : Dev) (n : LoomId) (c : Cond) (a : BrArgs) : Dev :=
  let l := d.loom n
  let target := l.pc + (a.imm.signExtend 56 <<< 2)
  if !cond c (l.reg a.rs1) (l.reg a.rs2) then d.nextPc n 4
  else if target.toNat % 4 ≠ 0 then d.stop n .misaligned
  else d.setPc n target

/-- JAL. -/
def Dev.jal (d : Dev) (n : LoomId) (a : JalArgs) : Dev :=
  let pc := (d.loom n).pc
  let target := pc + (a.imm.signExtend 56 <<< 2)
  if target.toNat % 4 ≠ 0 then d.stop n .misaligned
  else (d.setReg n a.rd ((pc + 4).setWidth 64)).setPc n target

/-- JALR: the pc takes the low 56 bits of the sum. -/
def Dev.jalr (d : Dev) (n : LoomId) (a : JalrArgs) : Dev :=
  let l := d.loom n
  let target := (l.reg a.rs1 + a.imm.signExtend 64).setWidth 56
  if a.rsvd ≠ 0 then d.stop n .illegalInstruction
  else if target.toNat % 4 ≠ 0 then d.stop n .misaligned
  else (d.setReg n a.rd ((l.pc + 4).setWidth 64)).setPc n target

/-- NOP: every field is zero (R111). -/
def Dev.nop (d : Dev) (n : LoomId) (a : SysArgs) : Dev :=
  if a.rd ≠ 0 || a.rs1 ≠ 0 || a.imm ≠ 0 then d.stop n .illegalInstruction else d.nextPc n 4

end Sys2Proof.Machine
end

