-- ==== Sys2Proof/Machine/Tally.lean ====
section
/-! DEFINITION. Tallies (R93 to R96), waits on them, INBOX, and the end of transfers (R110). -/

namespace Sys2Proof.Machine

/-- TALLY_BUSY (Table 4-2). -/
def Loom.busyMask (l : Loom) : W64 := l.tally.foldl (fun m t => m ||| ((1 : W64) <<< t.1)) 0

/-- An operation takes its tally (R93). -/
def Loom.holdTally (l : Loom) (t : Tally) (id : Nat) : Loom := { l with tally := Fmap.put l.tally t.toNat id }

/-- Records a tally fault (R96). -/
def Dev.tallyFault (d : Dev) (n : LoomId) (t : Tally) (f : TFault) : Dev :=
  let d := d.orFld Fld.TALLY_FAULT_FAULT n.toNat (2 ^ t.toNat)
  if d.fld Fld.TALLY_FIRST_VALID n.toNat = 1 then d
  else ((d.setFld Fld.TALLY_FIRST_VALID n.toNat 1).setFld Fld.TALLY_FIRST_CODE n.toNat f.code).setFld
    Fld.TALLY_FIRST_TALLY n.toNat t.toNat

/-- The after-dependency of an operation issued now (R94). -/
def Dev.depOf (d : Dev) (n : LoomId) (v : Bool) (after : Tally) : Dep :=
  if !v then .met
  else match Fmap.find (d.loom n).tally after.toNat with
    | some id => .on id
    | none => if d.fldBit Fld.TALLY_FAULT_FAULT n.toNat after.toNat then .failed else .met

/-- The dependency after operation `id` has completed. -/
def Dep.done (id : Nat) (ok : Bool) : Dep → Dep
  | .on k => if k = id then (if ok then .met else .failed) else .on k
  | x => x

/-- Releases a TALLY.WAIT whose masked tallies are idle, and starts the end of a HALT whose tallies are (R111). -/
def Dev.tallyRelease (d : Dev) (n : LoomId) : Dev :=
  let l := d.loom n
  match l.stall with
  | .tallyWait rd mask =>
    if l.busyMask &&& mask ≠ 0 then d
    else ((d.setLoom n { l with stall := .run }).setReg n rd
      (mask &&& BitVec.ofNat 64 (d.fld Fld.TALLY_FAULT_FAULT n.toNat))).nextPc n 4
  | .halt code =>
    if l.busyMask ≠ 0 then d
    else (d.setLoom n { l with stall := .run, ending := .halt }).setFld Fld.TREADLE_STATUS_EXIT_CODE n.toNat code.toNat
  | _ => d

/-- An operation completes: its tally becomes idle, its fault is recorded, what waits for it goes on (R93 to R96). -/
def Dev.tallyDone (d : Dev) (n : LoomId) (t : Tally) (id : Nat) (f : Option TFault) : Dev :=
  let d := match f with
    | some f => d.tallyFault n t f
    | none => d
  let l := d.loom n
  let dn := Dep.done id f.isNone
  let l := { l with tally := if Fmap.find l.tally t.toNat = some id then Fmap.del l.tally t.toNat else l.tally,
                    arrayQ := l.arrayQ.map (fun o => { o with dep := dn o.dep }),
                    xferQ := l.xferQ.map (fun o => { o with dep := dn o.dep }),
                    drainQ := l.drainQ.map (fun o => { o with dep := dn o.dep }) }
  (d.setLoom n l).tallyRelease n

/-- Releases an INBOX.WAIT whose masked bits are set (R111). -/
def Dev.inboxRelease (d : Dev) (n : LoomId) : Dev :=
  let l := d.loom n
  match l.stall with
  | .inboxWait rd mask =>
    if l.inbox &&& mask = 0 then d
    else ((d.setLoom n { l with stall := .run }).setReg n rd (l.inbox &&& mask)).nextPc n 4
  | _ => d

/-- Sets an INBOX bit of a loom (R110). -/
def Dev.notify (d : Dev) (n : LoomId) (i : BitVec 6) : Dev :=
  let l := d.loom n
  (d.setLoom n { l with inbox := l.inbox ||| ((1 : W64) <<< i.toNat) }).inboxRelease n

/-- The code of a transfer that met several failures (R96). -/
def TFault.first (fs : List TFault) : Option TFault :=
  [TFault.wingDenied, .translation, .indeterminate, .linkLost, .poisoned, .dependency, .cancelled].find? (fun f => fs.contains f)

def Xfer.total (x : Xfer) : Nat := x.rows * x.len

/-- Replaces a started transfer of a loom. -/
def Dev.setXfer (d : Dev) (n : LoomId) (x : Xfer) : Dev :=
  let l := d.loom n
  d.setLoom n { l with xferRun := updateIf (fun y => y.id = x.id) (fun _ => x) l.xferRun }

/-- A started transfer ends once nothing is left to issue and nothing is outstanding; a SEND then notifies (R110). -/
def Dev.xferEnd (d : Dev) (n : LoomId) (id : Nat) : Dev :=
  match (d.loom n).xferRun.find? (fun x => x.id = id) with
  | none => d
  | some x =>
    if x.pos < x.total || !x.outs.isEmpty then d
    else
      let l := d.loom n
      let inFence := match l.stall with
        | .fence _ _ => true
        | .barrierFence _ _ => true
        | _ => false
      let d := d.setLoom n { l with xferRun := l.xferRun.filter (fun y => y.id ≠ id),
                                    lostHost := l.lostHost || (!inFence && x.lostHost), lateHost := l.lateHost || (inFence && x.lostHost),
                                    lostPeer := l.lostPeer || (!inFence && x.lostPeer), latePeer := l.latePeer || (inFence && x.lostPeer) }
      let d := if x.op = 2 && x.notify && x.faults.isEmpty then d.notify x.dest x.index else d
      d.tallyDone n x.tally id (TFault.first x.faults)

/-- A fault of a started transfer; when it stops it, nothing more is issued (Table 4-7). -/
def Dev.xferFault (d : Dev) (n : LoomId) (id : Nat) (f : TFault) (stop : Bool) : Dev :=
  match (d.loom n).xferRun.find? (fun x => x.id = id) with
  | none => d
  | some x =>
    let x := { x with faults := f :: x.faults, stalled := false }
    (d.setXfer n (if stop then { x with pos := x.total } else x)).xferEnd n id

/-- Queued operations that have not started complete with CANCELLED (R117).  DESIGN CHOICE (notes/assumptions/57.md): array
operations first, then transfers, then drains, each in program order. -/
def Dev.cancelQueued (d : Dev) (n : LoomId) : Dev :=
  let l := d.loom n
  let d := d.setLoom n { l with arrayQ := [], xferQ := [], drainQ := [] }
  let d := l.arrayQ.foldl (fun d o => d.tallyDone n o.a.tally o.id (some .cancelled)) d
  let d := l.xferQ.foldl (fun d o => d.tallyDone n o.tally o.id (some .cancelled)) d
  l.drainQ.foldl (fun d o => d.tallyDone n (o.word.extractLsb' 39 6) o.id (some .cancelled)) d

end Sys2Proof.Machine
end

