-- ==== Sys2Proof/Machine/Float.lean ====
section
/-! DEFINITION. The number formats of spec/02_number_formats.md and exact arithmetic over them: a finite value is
a sign, a natural significand and a binary exponent, so sums and products are exact and every rounding of
spec/03, spec/05 and spec/10 is one call of `roundMag` or `toFloat`. -/

namespace Sys2Proof.Machine

/-- An operand or result: an exact finite value (−1)^neg × man × 2^exp, an infinity, or a NaN with its code. -/
inductive FV
  | fin (neg : Bool) (man : Nat) (exp : Int)
  | inf (neg : Bool)
  | nan (signalling : Bool) (code : Nat)
  deriving DecidableEq, Repr

/-- The sticky flags an operation raises (R133). -/
structure FFlags where
  overflow : Bool := false
  underflow : Bool := false
  inexact : Bool := false
  invalid : Bool := false
  divzero : Bool := false
  flushed : Bool := false
  deriving DecidableEq, Repr

/-- The union of two sets of raised flags. -/
def FFlags.or (a b : FFlags) : FFlags :=
  ⟨a.overflow || b.overflow, a.underflow || b.underflow, a.inexact || b.inexact, a.invalid || b.invalid,
   a.divzero || b.divzero, a.flushed || b.flushed⟩

/-- Rounding directions: Table 5-2, and away from zero for R136. -/
inductive RMode | rne | rtz | rup | rdn | sr | away
  deriving DecidableEq, Repr

/-- A floating-point layout of Table 2-3: exponent bits, mantissa bits, bias. -/
structure FLayout where
  e : Nat
  m : Nat
  bias : Nat
  deriving DecidableEq, Repr

def FLayout.fp32 : FLayout := ⟨8, 23, 127⟩
def FLayout.bf16 : FLayout := ⟨8, 7, 127⟩
def FLayout.fp16 : FLayout := ⟨5, 10, 15⟩

/-- Exponent of the leading bit of a nonzero significand: floor(log2(man × 2^exp)). -/
def flog2 (man : Nat) (exp : Int) : Int := (Nat.log2 man : Int) + exp

/-- 2^k for a natural k given as an integer; 1 below zero. -/
def pow2 (k : Int) : Nat := 2 ^ k.toNat

/-- floor(man × 2^exp / 2^q), with the discarded part as a fraction num/den. -/
def splitAt (man : Nat) (exp q : Int) : Nat × Nat × Nat :=
  if q ≤ exp then (man * pow2 (exp - q), 0, 1)
  else (man / pow2 (q - exp), man % pow2 (q - exp), pow2 (q - exp))

/-- Rounds the magnitude n + num/den (R136, R139, Table 5-5); `u` is the stochastic draw. -/
def roundMag (mode : RMode) (neg : Bool) (u n num den : Nat) : Nat :=
  if num = 0 then n else
  match mode with
  | .rtz => n
  | .away => n + 1
  | .rup => if neg then n else n + 1
  | .rdn => if neg then n + 1 else n
  | .rne => if 2 * num > den ∨ (2 * num = den ∧ n % 2 = 1) then n + 1 else n
  | .sr =>
    if neg then (if (den - num) * 2 ^ 24 / den > u then n else n + 1)
    else (if num * 2 ^ 24 / den > u then n + 1 else n)

/-- Decodes the generic fields of R35: subnormals, zeros and normals. -/
def decodeFin (L : FLayout) (c : Nat) : FV :=
  let s := c / 2 ^ (L.e + L.m) % 2 = 1
  let e := c / 2 ^ L.m % 2 ^ L.e
  let m := c % 2 ^ L.m
  if e = 0 then .fin s m (1 - (L.bias : Int) - L.m)
  else .fin s (m + 2 ^ L.m) ((e : Int) - L.bias - L.m)

/-- Decodes BF16, FP16 or FP32 (Table 2-3): the top exponent is infinity or NaN. -/
def decodeIeee (L : FLayout) (c : Nat) : FV :=
  let e := c / 2 ^ L.m % 2 ^ L.e
  let m := c % 2 ^ L.m
  if e = 2 ^ L.e - 1 then
    if m = 0 then .inf (c / 2 ^ (L.e + L.m) % 2 = 1)
    else .nan (m / 2 ^ (L.m - 1) % 2 = 0) c
  else decodeFin L c

/-- A two's complement number of n bits. -/
def signedOf (n c : Nat) : Int := if c % 2 ^ n < 2 ^ (n - 1) then (c % 2 ^ n : Nat) else ((c % 2 ^ n : Nat) : Int) - 2 ^ n

/-- An integer as a value. -/
def FV.ofInt (i : Int) : FV := .fin (i < 0) i.natAbs 0

/-- Element bits of a format code (Table 2-1). -/
def fmtBits (f : Nat) : Nat :=
  if f ≤ 3 then 4 else if f ≤ 5 then 6 else if f ≤ 11 then 8 else if f ≤ 13 then 16 else 32
/-- Scaled formats of Table 2-1: the MX and SF families. -/
def fmtScaled (f : Nat) : Bool := f = 0 || f = 1 || (4 ≤ f && f ≤ 9)
/-- The unscaled INT formats. -/
def fmtInt (f : Nat) : Bool := f = 2 || f = 3 || f = 10 || f = 11
/-- Reduction block of Table 2-1. -/
def fmtBlock (f : Nat) : Nat := if f = 1 || f = 8 || f = 12 || f = 13 then 16 else 32
/-- Formats the array accepts (Table 2-11). -/
def fmtArray (f : Nat) : Bool := f ≤ 13
/-- Layout of a float element format (Table 2-3). -/
def fmtLayout (f : Nat) : FLayout :=
  if f = 0 || f = 1 then ⟨2, 1, 1⟩ else if f = 4 then ⟨3, 2, 3⟩ else if f = 5 then ⟨2, 3, 1⟩
  else if f = 6 || f = 8 then ⟨4, 3, 7⟩ else if f = 7 then ⟨5, 2, 15⟩ else if f = 12 then .bf16
  else if f = 13 then .fp16 else .fp32

/-- One element code as a value, without its scale (R35, R36, R40, Tables 2-3 to 2-6). -/
def decodeElem (f c : Nat) : FV :=
  if f = 2 then .ofInt (signedOf 4 c)
  else if f = 3 then .ofInt (c % 16 : Nat)
  else if f = 10 then .ofInt (signedOf 8 c)
  else if f = 11 then .ofInt (c % 256 : Nat)
  else if f = 9 then
    let i := signedOf 8 c
    .fin (i < 0) i.natAbs (-6)
  else if f = 1 then (if c % 16 = 8 then .nan false 8 else decodeFin (fmtLayout 1) (c % 16))
  else if f = 8 then (if c % 256 = 0x80 then .nan false 0x80 else decodeFin (fmtLayout 8) (c % 256))
  else if f = 6 then (if c % 128 = 0x7F then .nan false c else decodeFin (fmtLayout 6) (c % 256))
  else if f = 7 then
    match decodeIeee (fmtLayout 7) (c % 256) with
    | .nan _ k => .nan false k
    | v => v
  else if f = 12 then decodeIeee .bf16 (c % 2 ^ 16)
  else if f = 13 then decodeIeee .fp16 (c % 2 ^ 16)
  else if f = 14 then decodeIeee .fp32 (c % 2 ^ 32)
  else decodeFin (fmtLayout f) (c % 2 ^ fmtBits f)

/-- The canonical NaN of Table 2-5 for a wide format. -/
def canonNaN (L : FLayout) : Nat := (2 ^ L.e - 1) * 2 ^ L.m + 2 ^ (L.m - 1)
/-- The infinity code of a wide format. -/
def infCode (L : FLayout) (neg : Bool) : Nat := (2 ^ L.e - 1) * 2 ^ L.m + (if neg then 2 ^ (L.e + L.m) else 0)
/-- The largest finite code of a wide format. -/
def maxCode (L : FLayout) (neg : Bool) : Nat := (2 ^ L.e - 1) * 2 ^ L.m - 1 + (if neg then 2 ^ (L.e + L.m) else 0)
/-- A zero of a sign. -/
def zeroCode (L : FLayout) (neg : Bool) : Nat := if neg then 2 ^ (L.e + L.m) else 0

/-- Exact product. -/
def FV.mulFin (n1 : Bool) (m1 : Nat) (e1 : Int) (n2 : Bool) (m2 : Nat) (e2 : Int) : FV :=
  .fin (n1 != n2) (m1 * m2) (e1 + e2)

/-- Exact sum of two finite values.  An exact zero sum of opposite signs takes the sign `zneg`. -/
def FV.addFin (zneg n1 : Bool) (m1 : Nat) (e1 : Int) (n2 : Bool) (m2 : Nat) (e2 : Int) : FV :=
  let e := min e1 e2
  let a : Int := (m1 * pow2 (e1 - e) : Nat)
  let b : Int := (m2 * pow2 (e2 - e) : Nat)
  let s := (if n1 then -a else a) + (if n2 then -b else b)
  if s = 0 then .fin (if n1 = n2 then n1 else zneg) 0 0 else .fin (s < 0) s.natAbs e

/-- The bits of a nonzero finite value in a wide format, rounded by one mode, with the IEEE 754 flags
(tininess after rounding, R131) and the extended grid of R139 for stochastic rounding. -/
def toFloat (L : FLayout) (mode : RMode) (u : Nat) (neg : Bool) (man : Nat) (exp : Int) : Nat × FFlags :=
  if man = 0 then (zeroCode L neg, {}) else
  let emin : Int := 1 - L.bias
  let emax : Int := (2 ^ L.e - 2 : Nat) - (L.bias : Int)
  let q := max (flog2 man exp) emin - L.m
  let (n0, num, den) := splitAt man exp q
  let n := roundMag mode neg u n0 num den
  let inex := num ≠ 0
  -- rounded to the same precision with an unbounded exponent, for tininess
  let qu := flog2 man exp - L.m
  let (n1, num1, den1) := splitAt man exp qu
  let nu := roundMag mode neg u n1 num1 den1
  let tiny := n = 0 ∨ flog2 nu qu < emin
  if n ≠ 0 ∧ flog2 n q > emax then
    let big := mode = .sr ∨ mode = .rne ∨ mode = .away ∨ (mode = .rup ∧ !neg) ∨ (mode = .rdn ∧ neg)
    (if big then infCode L neg else maxCode L neg, { overflow := true, inexact := true })
  else if n < 2 ^ L.m then
    (zeroCode L neg + n, { underflow := tiny ∧ inex, inexact := inex })
  else
    let e := flog2 n q
    let sig := if e = q + L.m then n else n / 2
    let ef := (e + L.bias).toNat
    (zeroCode L neg + ef * 2 ^ L.m + (sig - 2 ^ L.m), { underflow := tiny ∧ inex, inexact := inex })

/-- True when a wide code is a nonzero subnormal. -/
def isSubnormal (L : FLayout) (c : Nat) : Bool := c / 2 ^ L.m % 2 ^ L.e = 0 && c % 2 ^ L.m != 0

/-- Compares two finite values: (a < b, a = b) on reals. -/
def ltFin (n1 : Bool) (m1 : Nat) (e1 : Int) (n2 : Bool) (m2 : Nat) (e2 : Int) : Bool × Bool :=
  let e := min e1 e2
  let a : Int := (m1 * pow2 (e1 - e) : Nat)
  let b : Int := (m2 * pow2 (e2 - e) : Nat)
  let a := if n1 then -a else a
  let b := if n2 then -b else b
  (a < b, a = b)

/-- Integer square root by bits, largest bit first. -/
def isqrtGo (n : Nat) : Nat → Nat → Nat
  | 0, r => r
  | k + 1, r =>
    let t := r + 2 ^ k
    isqrtGo n k (if t * t ≤ n then t else r)
/-- floor(√n). -/
def isqrt (n : Nat) : Nat := isqrtGo n (Nat.log2 n / 2 + 1) 0

/-- The exact quotient of finite values to `p` extra bits with a sticky last bit: enough for one rounding. -/
def divFin (p : Nat) (n1 : Bool) (m1 : Nat) (e1 : Int) (n2 : Bool) (m2 : Nat) (e2 : Int) : FV :=
  let sh := p + Nat.log2 m2 + 1
  let q := m1 * 2 ^ sh / m2
  let r := m1 * 2 ^ sh % m2
  .fin (n1 != n2) (2 * q + (if r = 0 then 0 else 1)) (e1 - e2 - sh - 1)

/-- The square root of a finite value to `p` bits with a sticky last bit. -/
def sqrtFin (p : Nat) (m : Nat) (e : Int) : FV :=
  let odd := e % 2 ≠ 0
  let m' := (if odd then 2 * m else m) * 4 ^ p
  let e' := (if odd then e - 1 else e) / 2 - p
  let r := isqrt m'
  .fin false (2 * r + (if r * r = m' then 0 else 1)) (e' - 1)

end Sys2Proof.Machine
end

