-- ==== Sys2Proof/Machine/Place.lean ====
section
/-! DEFINITION. Where a DPA lies: the ranges of Table 1-8, homes (R203), slots (R200, R207), channels and offsets
(R204 to R206), DRAM locations (R479), the memory event detail word (Table 9-5), and the codes of R221 to R225. -/

namespace Sys2Proof.Machine

def MiB : Nat := 2 ^ 20
def GiB : Nat := 2 ^ 30
def depotBase : Nat := 0x010000000000
def aliasBase : Nat := 0x100000000000
def remoteBase : Nat := 0x200000000000
def scratchBase : Nat := 0x300000000000

/-- Bytes of the exported display and depot tiers (R202). -/
def Dev.dspSize (d : Dev) : Nat := d.fld Fld.DSP_LAYOUT_SIZE 0 * 2 ^ 28
def Dev.depSize (d : Dev) : Nat := d.fld Fld.DEP_LAYOUT_SIZE 0 * 2 ^ 28
/-- End of the striped range, Z of R203. -/
def Dev.zEnd (d : Dev) : Nat := min (d.fld Fld.DSP_LAYOUT_LIMIT 0 * 64 * GiB) d.dspSize
def Dev.groupMode (d : Dev) : Bool := d.fld Fld.DEP_LAYOUT_MODE 0 = 1
/-- Physical bytes of one depot channel and of the depot (Table 8-1). -/
def Dev.chanCap (d : Dev) : Nat := d.fld Fld.DEP_LAYOUT_CHANNEL_CAP 0 * 8 * GiB
def Dev.depotCap (d : Dev) : Nat := 24 * d.chanCap

/-- A populated display or depot DPA (R23, R202). -/
def Dev.populated (d : Dev) (a : Nat) : Bool :=
  a < d.dspSize || (depotBase ≤ a && a < depotBase + d.depSize)

/-- What a DPA names (Table 1-8). -/
inductive Range
  | memory              -- populated display or depot
  | redAlias (under : Nat)
  | remote (p : Nat) (off : Nat)
  | scratch (n : Nat) (off : Nat)
  | nothing             -- unpopulated, unused scratch, outside the map (R23)
  deriving DecidableEq, Repr

def Dev.range (d : Dev) (a : Nat) : Range :=
  if d.populated a then .memory
  else if aliasBase ≤ a ∧ a < remoteBase then
    (if d.populated (a - aliasBase) then .redAlias (a - aliasBase) else .nothing)
  else if remoteBase ≤ a ∧ a < remoteBase + 8 * 2 ^ 41 then .remote ((a - remoteBase) / 2 ^ 41) ((a - remoteBase) % 2 ^ 41)
  else if scratchBase ≤ a ∧ a < scratchBase + 4096 * MiB then
    (if (a - scratchBase) % MiB < 768 * 1024 then .scratch ((a - scratchBase) / MiB) ((a - scratchBase) % MiB)
     else .nothing)
  else .nothing

/-- The line number u of R204: home in [1:0], channel in [6:2]. -/
def stripeU (a : Nat) : Nat :=
  let l := a / 256 % 2 ^ 18
  let p := a / 2 ^ 26
  (l % 128) ^^^ (l / 128 % 128) ^^^ (l / 2 ^ 14 % 16) ^^^ (p % 128)

/-- Home M-die of a populated DPA (R203). -/
def Dev.home (d : Dev) (a : Nat) : Nat :=
  if a < d.dspSize then
    let z := d.zEnd
    if a < z then stripeU a % 4 else (a - z) / ((d.dspSize - z) / 4) % 4
  else
    let o := a - depotBase
    if d.groupMode then o / (d.depSize / 4) % 4 else o / 4096 % 24 / 6

/-- The slot that start-up gives a populated page (R207). -/
def Dev.initialSlot (d : Dev) (page : Nat) : Slot :=
  let g := d.asm.groups
  let a := page * 2 ^ 26
  if a < d.dspSize then
    if a < d.zEnd then ⟨0, BitVec.ofNat 30 (page % g * 2 ^ 12 + page / g)⟩
    else
      let m := d.home a
      let q := (a - d.zEnd) / 2 ^ 26 - m * ((d.dspSize - d.zEnd) / 4 / 2 ^ 26)
      ⟨1, BitVec.ofNat 30 ((4 * m + q % g) * 2 ^ 12 + (1023 - q / g))⟩
  else
    let o := page - depotBase / 2 ^ 26
    if d.groupMode then
      let per := d.depSize / 4 / 2 ^ 26
      ⟨2, BitVec.ofNat 30 (o / per * (d.depotCap / 4 / 2 ^ 26) + o % per)⟩
    else ⟨2, BitVec.ofNat 30 o⟩

/-- The location entry of a page (Table 8-3); pages without an entry of their own lie where R207 put them. -/
def Dev.locOf (d : Dev) (page : Nat) : Loc :=
  if d.populated (page * 2 ^ 26) then Fmap.get ⟨.resident, d.initialSlot page⟩ d.tiers.loc page
  else ⟨.unpopulated, ⟨0, 0⟩⟩

/-- A place in a channel: tier, stack, channel, offset. -/
structure Phys where
  depot : Bool
  stack : Nat
  chan : Nat
  off : Nat
  deriving DecidableEq, Repr

/-- The place of a depot linear address (R206). -/
def Dev.depotPhys (d : Dev) (lin : Nat) : Phys :=
  if d.groupMode then
    let q := d.depotCap / 4
    let n := lin % q / 4096
    ⟨true, 0, 6 * (lin / q) + n % 6, n / 6 * 4096 + lin % 4096⟩
  else
    let n := lin / 4096
    ⟨true, 0, n % 24, n / 24 * 4096 + lin % 4096⟩

/-- The place of byte `a` of a page that lies in a slot (R204 to R206). -/
def Dev.physIn (d : Dev) (s : Slot) (a : Nat) : Phys :=
  let l := a / 256 % 2 ^ 18
  match s.kind.toNat with
  | 0 =>
    let u := stripeU a
    ⟨false, 4 * (u % 4) + s.slot.toNat / 2 ^ 12 % 4, u / 4 % 32,
      s.slot.toNat % 2 ^ 12 * 2 ^ 19 + l / 128 * 256 + a % 256⟩
  | 1 =>
    let c := (l % 32) ^^^ (l / 32 % 32) ^^^ (l / 1024 % 32) ^^^ (l / 2 ^ 15 % 8)
    ⟨false, s.slot.toNat / 2 ^ 12 % 16, c, 4 * (s.slot.toNat % 2 ^ 10) * 2 ^ 19 + l / 32 * 256 + a % 256⟩
  | _ => d.depotPhys (s.slot.toNat % 2 ^ 18 * 2 ^ 26 + a % 2 ^ 26)

/-- The place that holds a populated DPA now. -/
def Dev.physOf (d : Dev) (a : Nat) : Phys := d.physIn (d.locOf (a / 2 ^ 26)).at_ a

/-- Channels are numbered: display 32 × stack + channel, depot 512 + channel. -/
def Phys.chanNo (p : Phys) : Nat := if p.depot then 512 + p.chan else 32 * p.stack + p.chan

/-- A channel's bit in CHAN_FAULT_i (R230). -/
def Dev.chanFaulted (d : Dev) (c : Nat) : Bool :=
  if c < 512 then d.fldBit Fld.CHAN_FAULT_FAULTED (c / 64) (c % 64) else d.fldBit Fld.CHAN_FAULT_FAULTED 8 (c - 512)

/-- Location fields of the detail word (Tables 9-6, 9-7): row, column, bank, rank, sub-channel, slot. -/
structure DramLoc where
  row : Nat
  col : Nat
  bank : Nat
  rank : Nat
  subch : Nat
  slot : Nat
  deriving DecidableEq, Repr

def Dev.dramLoc (d : Dev) (p : Phys) : DramLoc :=
  if p.depot then
    let dimm := d.chanCap / max 1 (d.fld Fld.DEP_LAYOUT_DPC 0)
    let (slot, o) := if p.off < dimm then (0, p.off) else (1, p.off - dimm)
    let r := o / 2 ^ 19
    let n := max 1 d.tiers.ranks
    ⟨r / n, o / 128 % 128, o / 2 ^ 14 % 32, r % n, o / 64 % 2, slot⟩
  else ⟨p.off / 2 ^ 17, p.off / 128 % 16, p.off / 2 ^ 11 % 64, p.off / 64 % 2, 0, 0⟩

/-- KIND of a memory event (Table 9-5). -/
inductive MemEv | corr1 | corr2 | uncorr | poisonRead | parityRetry | channelFault | laneDegraded | injected
  deriving DecidableEq, Repr

def MemEv.code : MemEv → Nat
  | .corr1 => 0 | .corr2 => 1 | .uncorr => 2 | .poisonRead => 3 | .parityRetry => 4 | .channelFault => 5
  | .laneDegraded => 6 | .injected => 7

/-- The 128-bit detail word of Table 9-5. -/
def Dev.memDetail (d : Dev) (k : MemEv) (dpa : Option Nat) (p : Phys) (patrol : Bool) (cw sym0 sym1 : Nat) : Nat :=
  let l := d.dramLoc p
  let b (x : Bool) : Nat := if x then 1 else 0
  (dpa.getD 0) % 2 ^ 48 * 2 ^ 80 + b dpa.isSome * 2 ^ 79 + b patrol * 2 ^ 78 + k.code * 2 ^ 74 + cw * 2 ^ 72
    + sym1 * 2 ^ 66 + sym0 * 2 ^ 60 + l.row % 2 ^ 18 * 2 ^ 42 + l.col * 2 ^ 34 + l.bank * 2 ^ 28
    + l.rank % 4 * 2 ^ 26 + l.subch * 2 ^ 25 + p.chan * 2 ^ 20 + p.stack * 2 ^ 16 + b p.depot * 2 ^ 15
    + l.slot * 2 ^ 14 + (if p.depot then l.rank / 4 % 2 else 0) * 2 ^ 13

/-- Source of a memory event (Table 18-1). -/
def memSrc (p : Phys) (k : MemEv) : Nat := if p.depot then 0x210 + 8 * p.chan + k.code else 0x190 + 8 * p.stack + k.code

/-! ### The code of both tiers (R221 to R225) -/

/-- Multiplication by α = 0x02 in GF(2^8) over x^8 + x^4 + x^3 + x^2 + 1. -/
def gfDouble (x : Nat) : Nat := if 2 * x ≥ 256 then (2 * x) ^^^ 0x11D else 2 * x

/-- Product in GF(2^8), by the bits of the first factor. -/
def gfMulGo : Nat → Nat → Nat → Nat
  | 0, _, _ => 0
  | k + 1, a, b => (if a % 2 = 1 then b else 0) ^^^ gfMulGo k (a / 2) (gfDouble b)
def gfMul (a b : Nat) : Nat := gfMulGo 8 a b

/-- α^k. -/
def gfPow : Nat → Nat
  | 0 => 1
  | k + 1 => gfDouble (gfPow k)

/-- x^254, the inverse of a nonzero x. -/
def gfInv (x : Nat) : Nat :=
  let x2 := gfMul x x
  let x4 := gfMul x2 x2
  let x8 := gfMul x4 x4
  let x16 := gfMul x8 x8
  let x32 := gfMul x16 x16
  let x64 := gfMul x32 x32
  let x128 := gfMul x64 x64
  gfMul x2 (gfMul x4 (gfMul x8 (gfMul x16 (gfMul x32 (gfMul x64 x128)))))

/-- A sparse error word: symbol index and XOR value. -/
abbrev ErrWord := List (Nat × Nat)

/-- The four syndromes of an error word in a code of n symbols (R221: s_0 has the highest degree). -/
def syndromes (n : Nat) (e : ErrWord) : List Nat :=
  [0, 1, 2, 3].map fun i => e.foldl (fun s p => s ^^^ gfMul p.2 (gfPow (i * (n - 1 - p.1)))) 0

/-- The single symbol error with these syndromes, if one exists. -/
def decode1 (n : Nat) (s : List Nat) : Option (Nat × Nat) :=
  match s with
  | [s0, s1, s2, s3] =>
    if s0 = 0 then none else
    (List.range n).findSome? fun j =>
      let x := gfPow (n - 1 - j)
      if gfMul s0 x = s1 ∧ gfMul s1 x = s2 ∧ gfMul s2 x = s3 then some (j, s0) else none
  | _ => none

/-- The two-symbol error with these syndromes, if one exists. -/
def decode2 (n : Nat) (s : List Nat) : Option ((Nat × Nat) × (Nat × Nat)) :=
  match s with
  | [s0, s1, s2, s3] =>
    (List.range n).findSome? fun j => (List.range j).findSome? fun k =>
      let x := gfPow (n - 1 - j)
      let y := gfPow (n - 1 - k)
      -- e_j + e_k = s0, e_j x + e_k y = s1
      let ej := gfMul (s1 ^^^ gfMul s0 y) (gfInv (x ^^^ y))
      let ek := s0 ^^^ ej
      if ej ≠ 0 ∧ ek ≠ 0 ∧ gfMul ej (gfMul x x) ^^^ gfMul ek (gfMul y y) = s2 ∧
          gfMul ej (gfMul x (gfMul x x)) ^^^ gfMul ek (gfMul y (gfMul y y)) = s3
      then some ((k, ek), (j, ej)) else none
  | _ => none

/-- The poison pattern as an error word of the zero codeword (R225). -/
def poisonWord (n : Nat) : ErrWord := [(n - 4, 0xB7), (n - 3, 0x4E), (n - 2, 0x91), (n - 1, 0x2D)]

inductive CwClass
  | clean
  | corrected (e : ErrWord)
  | uncorrectable
  | poison
  deriving DecidableEq, Repr

/-- R225, for a stored word that is a codeword plus the sparse error `e` (a poisoned one is the poison word
plus `e`, given here with the poison pattern inside `e`). -/
def classify (n : Nat) (e : ErrWord) : CwClass :=
  let s := syndromes n e
  let sp := syndromes n (e ++ poisonWord n)
  if sp = [0, 0, 0, 0] then .poison
  else if (decode1 n sp).isSome then .poison
  else if s = [0, 0, 0, 0] then .clean
  else match decode1 n s with
    | some p => .corrected [p]
    | none =>
      match decode2 n s with
      | some (p, q) => .corrected [p, q]
      | none => .uncorrectable

/-- XOR of a symbol into a 64-byte sector of the display layout (Table 9-1): pin = DQ (32 × codeword + symbol),
bit t of the symbol is data bit 64 t + pin.  Check symbols change no data. -/
def xorDisplay (data : Nat) (cw sym v : Nat) : Nat :=
  if sym ≥ 32 then data else
  (List.range 8).foldl (fun x t => if v.testBit t then x ^^^ 2 ^ (64 * t + 32 * cw + sym) else x) data

/-- XOR of a symbol into a 64-byte depot line (R223): symbol 2d is S(d, c), symbol 2d + 1 is S(d, c + 4). -/
def xorDepot (data : Nat) (cw sym v : Nat) : Nat :=
  if sym ≥ 16 then data else
  let dev := sym / 2
  let b := cw + 4 * (sym % 2)
  (List.range 8).foldl (fun x i =>
    if v.testBit i then x ^^^ 2 ^ (32 * (2 * b + i / 4) + 4 * dev + i % 4) else x) data

end Sys2Proof.Machine
end

