-- ==== Sys2Proof/Machine/Memory.lean ====
section
/-! DEFINITION. What a home reads and writes: DRAM with poison, stored symbol errors and injection (spec/09), the
atrium in front of it (R210 to R214), tier counters (R215) and the dirty map of a rotation (R194). -/

namespace Sys2Proof.Machine

/-- Bytes of sector k of a line. -/
def Line.sector (l : Line) (k : Nat) : Sector := l.extractLsb' (512 * k) 512
/-- Replaces sector k of a line. -/
def Line.setSector (l : Line) (k : Nat) (s : Sector) : Line :=
  (l &&& ~~~((BitVec.allOnes 512).zeroExtend 2048 <<< (512 * k))) ||| (s.zeroExtend 2048 <<< (512 * k))

/-- A byte mask of a sector widened to bits. -/
def maskBits (m : BitVec 64) : Sector :=
  (List.range 64).foldl (fun (acc : Sector) i => if m.getLsbD i then acc ||| ((0xFF : Sector) <<< (8 * i)) else acc) 0

/-- Merges the masked bytes of `new` into `old`. -/
def mergeSector (old new : Sector) (m : BitVec 64) : Sector :=
  if m = BitVec.allOnes 64 then new else
  let b := maskBits m
  (old &&& ~~~b) ||| (new &&& b)

/-- The byte mask of sector k. -/
def maskSector (m : BitVec 256) (k : Nat) : BitVec 64 := m.extractLsb' (64 * k) 64

/-- Sets bit k of a sector set. -/
def setBit4 (s : BitVec 4) (k : Nat) : BitVec 4 := s ||| ((1 : BitVec 4) <<< k)
def clrBit4 (s : BitVec 4) (k : Nat) : BitVec 4 := s &&& ~~~((1 : BitVec 4) <<< k)
/-- The sectors of a set, in increasing order. -/
def sectList (s : BitVec 4) : List Nat := (List.range 4).filter (fun k => s.getLsbD k)

/-- The wing that owns the extent of a DPA; 16 when none does (R211). -/
def Dev.extentWing (d : Dev) (a : Nat) : Nat :=
  ((List.range 16).find? (fun w => (Fmap.get {} d.wings w).extents.any (fun e => e.1 ≤ a && a < e.1 + e.2))).getD noWing

/-- Source k of home m (Table 18-1). -/
def homeSrc (m k : Nat) : Nat := 0x110 + 16 * m + k

def Dev.memEvent (d : Dev) (k : MemEv) (a : Nat) (patrol : Bool) (cw s0 s1 : Nat) : Dev :=
  let p := d.physOf a
  d.report (memSrc p k) (d.memDetail k (some a) p patrol cw s0 s1) (d.extentWing a)

def Dev.isPoison (d : Dev) (a : Nat) : Bool := d.tiers.poison.contains (a / 64)

/-- The sector is marked in the dirty map of a rotation that copies its page (R194). -/
def Dev.markRot (d : Dev) (a : Nat) : Dev :=
  { d with tiers := { d.tiers with rots := Fmap.mapAll (fun _ r =>
      if r.page = a / 2 ^ 26 then { r with marked := insSorted r.marked (a / 256 % 2 ^ 18) } else r) d.tiers.rots } }

/-- MEMINJ_FLIP is armed for the channel of a place. -/
def Dev.injHit (d : Dev) (p : Phys) : Bool :=
  d.fld Fld.MEMINJ_FLIP_ARMED 0 = 1 && (d.fld Fld.MEMINJ_FLIP_TIER 0 = 1) == p.depot
    && d.fld Fld.MEMINJ_FLIP_CHANNEL 0 = p.chan && (p.depot || d.fld Fld.MEMINJ_FLIP_STACK 0 = p.stack)

/-- MEMINJ_FLIP acts on the write that a place stores: the errors that the selected symbols of one codeword take, or a first
attempt with an interface error (R240).  `a` is the DPA when the place belongs to a page. -/
def Dev.injectAt (d : Dev) (p : Phys) (a : Option Nat) : List (Nat × Nat × Nat) × Dev :=
  if !d.injHit p then ([], d) else
  let note (d : Dev) (k : MemEv) (cw : Nat) : Dev :=
    d.report (memSrc p k) (d.memDetail k a p false cw 63 63) ((a.map d.extentWing).getD noWing)
  let d := (d.setFld Fld.MEMINJ_FLIP_ARMED 0 0).setFld Fld.MEMINJ_FLIP_DONE 0 1
  let cw := d.fld Fld.MEMINJ_FLIP_CODEWORD 0 % (if p.depot then 4 else 2)
  if d.fld Fld.MEMINJ_FLIP_MODE 0 = 1 then ([], note (note d .parityRetry 0) .injected 0)
  else
    let pat := d.fld Fld.MEMINJ_FLIP_PATTERN 0
    let syms := (List.range (if p.depot then 20 else 36)).filter (fun k => d.fldBit Fld.MEMINJ_FLIP_SYMBOLS 0 k)
    (if pat = 0 then [] else syms.map (fun k => (cw, k, pat)), note d .injected cw)

/-- The errors that a map holds for a unit; none need no entry. -/
def putErrs (m : Fmap (List (Nat × Nat × Nat))) (u : Nat) (es : List (Nat × Nat × Nat)) : Fmap (List (Nat × Nat × Nat)) :=
  if es = [] then Fmap.del m u else Fmap.put m u es

/-- MEMINJ_FLIP acts on the write of a DPA: its unit stores the errors. -/
def Dev.inject (d : Dev) (a : Nat) : Dev :=
  if !d.injHit (d.physOf a) then d else
  let (es, d) := d.injectAt (d.physOf a) (some a)
  { d with tiers := { d.tiers with errs := putErrs d.tiers.errs (a / 64) es } }

/-- Stores one 64-byte unit in DRAM, with data or with the poison word; a FAULTED channel discards it (R230). -/
def Dev.dramWrite (d : Dev) (a : Nat) (s : Sector) (poison : Bool) : Dev :=
  if d.chanFaulted (d.physOf a).chanNo then d.markRot a else
  let t := d.tiers
  let t := { t with errs := Fmap.del t.errs (a / 64) }
  let t := if poison then { t with poison := insSorted t.poison (a / 64), mem := Memory.clear t.mem a 64 }
    else { t with poison := delSorted t.poison (a / 64),
                  mem := Memory.writeNat (Memory.clear t.mem a 64) a 64 s.toNat }
  ({ d with tiers := t }.markRot a).inject a

/-- The stored data of a unit, before any correction. -/
def Dev.rawUnit (d : Dev) (a : Nat) : Sector := BitVec.ofNat 512 (Memory.readNat d.tiers.mem a 64)

/-- Classes of the codewords of a unit with the given errors, with the codeword number (R225). -/
def cwClasses (dep : Bool) (es : List (Nat × Nat × Nat)) (poison : Bool) : List (Nat × CwClass) :=
  let n := if dep then 20 else 36
  let pw := if poison then poisonWord n else []
  (List.range (if dep then 4 else 2)).map fun c =>
    (c, classify n ((es.filter (fun e => e.1 = c)).map (fun e => e.2) ++ pw))

/-- Known bad pins of a display channel (R231). -/
def Dev.pinsOf (d : Dev) (p : Phys) : List Nat := if p.depot then [] else Fmap.get [] d.tiers.badPins p.chanNo

/-- Codeword and symbol of a pin: 0 to 63 DQ, 64 to 71 ECC (Table 9-1; DESIGN CHOICE, notes/assumptions/65.md). -/
def pinSym (l : Nat) : Nat × Nat := if l < 64 then (l / 32, l % 32) else ((l - 64) / 4, 32 + (l - 64) % 4)

/-- What a known bad pin does to one access: its symbol arrives with any value (R231). -/
def Dev.pinErrs (d : Dev) (p : Phys) : List (Nat × Nat × Nat) × Dev :=
  (d.pinsOf p).foldl (fun (x : List (Nat × Nat × Nat) × Dev) l =>
    let (v, d) := x.2.draw
    (if v % 256 = 0 then x.1 else x.1 ++ [((pinSym l).1, (pinSym l).2, v % 256)], d)) ([], d)

/-- XORs symbol errors of a codeword into the data of a unit. -/
def xorUnit (dep : Bool) (cw : Nat) (data : Nat) (e : ErrWord) : Nat :=
  e.foldl (fun x p => if dep then xorDepot x cw p.1 p.2 else xorDisplay x cw p.1 p.2) data

/-- A classified DRAM read of one unit and its Table 9-2 outcome; `patrol` sets the PATROL bit. -/
def Dev.dramRead (d : Dev) (a : Nat) (patrol : Bool) : Sector × Bool × Dev :=
  let p := d.physOf a
  if d.chanFaulted p.chanNo then (0, true, d)
  else if (Fmap.get [] d.tiers.errs (a / 64)).isEmpty && (d.pinsOf p).isEmpty then
    if d.isPoison a then (0, true, d.memEvent .poisonRead a patrol 0 63 63) else (d.rawUnit a, false, d)
  else
    let (bad, d) := d.pinErrs p
    let es := Fmap.get [] d.tiers.errs (a / 64) ++ bad
    let cs := cwClasses p.depot es (d.isPoison a)
    if cs.any (fun c => c.2 = .poison) then (0, true, d.memEvent .poisonRead a patrol 0 63 63)
    else match cs.find? (fun c => c.2 = .uncorrectable) with
      | some c =>
        let d := d.dramWrite a 0 true
        (0, true, d.memEvent .uncorr a patrol c.1 63 63)
      | none =>
        -- errors, then the corrections, applied to the data symbols (a miscorrection stays, R221)
        let raw := es.foldl (fun x e => xorUnit p.depot e.1 x [e.2]) (d.rawUnit a).toNat
        let fixed := cs.foldl (fun x c => match c.2 with | .corrected e => xorUnit p.depot c.1 x e | _ => x) raw
        let s : Sector := BitVec.ofNat 512 fixed
        let two := cs.find? (fun c => match c.2 with | .corrected e => e.length = 2 | _ => false)
        let one := cs.find? (fun c => match c.2 with | .corrected e => e.length = 1 | _ => false)
        match two, one with
        | some (c, .corrected [x, y]), _ => (s, false, (d.dramWrite a s false).memEvent .corr2 a patrol c x.1 y.1)
        | _, some (c, .corrected [x]) => (s, false, (d.dramWrite a s false).memEvent .corr1 a patrol c x.1 63)
        | _, _ => (s, false, d)

/-- A line access that reaches the page's slot counts once in HEAT of its home (R215). -/
def Dev.heatUp (d : Dev) (a : Nat) : Dev :=
  let k := a / 2 ^ 26 * 4 + d.home a
  { d with tiers := { d.tiers with heat := Fmap.put d.tiers.heat k (min (Fmap.get 0 d.tiers.heat k + 1) 0xFFFF) } }

/-! ### The atrium -/

/-- Set of a line in its home's atrium (R210). -/
def Dev.atriumSet (d : Dev) (a : Nat) : Nat :=
  let b := d.asm.atriumBits
  (a / 256 % 2 ^ b) ^^^ (a / 2 ^ (8 + b) % 2 ^ min b 14)
def Dev.atriumKey (d : Dev) (a w : Nat) : Nat := d.home a * 2 ^ 20 + d.atriumSet a * 16 + w

/-- The way that holds a line, if any (a lookup searches all 16 ways, R211). -/
def Dev.atriumFind (d : Dev) (a : Nat) : Option (Nat × ALine) :=
  if d.asm.atriumBits = 0 then none else
  (List.range 16).findSome? fun w =>
    (Fmap.find d.tiers.atrium (d.atriumKey a w)).bind fun l =>
      if l.line.toNat = a / 256 then some (d.atriumKey a w, l) else none

def Dev.atriumPut (d : Dev) (k : Nat) (l : ALine) : Dev :=
  { d with tiers := { d.tiers with atrium := Fmap.put d.tiers.atrium k l } }
def Dev.atriumDel (d : Dev) (k : Nat) : Dev :=
  { d with tiers := { d.tiers with atrium := Fmap.del d.tiers.atrium k } }

/-- Writes the dirty sectors of an atrium line to the page's current slot (R212). -/
def Dev.atriumClean (d : Dev) (l : ALine) : Dev :=
  if l.dirty = 0 then d else
  ((sectList l.dirty).foldl (fun d k =>
    d.dramWrite (l.line.toNat * 256 + 64 * k) (Line.sector l.data k) (l.poison.getLsbD k)) d).heatUp (l.line.toNat * 256)

/-- Marks a way recently used. -/
def Dev.atriumTouch (d : Dev) (k : Nat) (l : ALine) : Dev := d.atriumPut k { l with nru := true }

/-- Allocates a line in the ways of the owning wing: the lowest-numbered unpinned way whose bit is clear, all bits
cleared first when every one is set (R212); none when the wing has no unpinned way in the set. -/
def Dev.atriumAlloc (d : Dev) (a : Nat) : Option (Nat × Dev) :=
  let w := d.extentWing a
  if d.asm.atriumBits = 0 ∨ w ≥ 16 then none else
  let mask := d.fld Fld.ATRIUM_WING_WAYS w
  let at_ (k : Nat) : Option ALine := Fmap.find d.tiers.atrium k
  let ways := (List.range 16).filter (fun k => mask.testBit k &&
    !((at_ (d.atriumKey a k)).map (·.pinned)).getD false)
  let clear (k : Nat) : Bool := !((at_ (d.atriumKey a k)).map (·.nru)).getD false
  match ways with
  | [] => none
  | w0 :: _ =>
    let (k, d) := match ways.find? clear with
      | some k => (k, d)
      | none => (w0, ways.foldl (fun (d : Dev) k =>
          match Fmap.find d.tiers.atrium (d.atriumKey a k) with
          | some l => d.atriumPut (d.atriumKey a k) { l with nru := false }
          | none => d) d)
    let key := d.atriumKey a k
    let d := match Fmap.find d.tiers.atrium key with
      | some l => d.atriumClean l
      | none => d
    some (key, d.atriumPut key { line := BitVec.ofNat 40 (a / 256), nru := true })

/-! ### Line reads and writes at a home -/

/-- Reads sectors of a line: from the atrium where present, else from DRAM, allocating under policy 2
(Table 7-8 note 2, R212). -/
def Dev.readLine (d : Dev) (line : Nat) (sects : BitVec 4) : Line × BitVec 4 × Dev :=
  let a := 256 * line
  match d.atriumFind a with
  | some (k, l) =>
    let miss := sects &&& ~~~l.valid
    let (l, d) := (sectList miss).foldl (fun (x : ALine × Dev) s =>
      let (v, p, d) := x.2.dramRead (a + 64 * s) false
      ({ x.1 with data := Line.setSector x.1.data s v, valid := setBit4 x.1.valid s,
                  poison := if p then setBit4 x.1.poison s else clrBit4 x.1.poison s }, d)) (l, d)
    let d := if miss = 0 then d else d.heatUp a
    (l.data, l.poison &&& sects, d.atriumTouch k l)
  | none =>
    let (v, p, d) := (sectList sects).foldl (fun (x : Line × BitVec 4 × Dev) s =>
      let (b, q, d) := x.2.2.dramRead (a + 64 * s) false
      (Line.setSector x.1 s b, (if q then setBit4 x.2.1 s else x.2.1), d)) ((0 : Line), (0 : BitVec 4), d)
    let d := d.heatUp a
    if d.fld Fld.ATRIUM_WING_ALLOC (d.extentWing a) = 2 then
      match d.atriumAlloc a with
      | some (k, d) => (v, p, d.atriumPut k { line := BitVec.ofNat 40 line, valid := sects, poison := p, data := v, nru := true })
      | none => (v, p, d)
    else (v, p, d)

/-- A write of these sectors makes its home read the slot first, to merge bytes into what is stored (R226). -/
def mergeReads (mask : BitVec 256) (sects : List Nat) (valid : BitVec 4) : Bool :=
  sects.any (fun k => maskSector mask k ≠ BitVec.allOnes 64 && !valid.getLsbD k)

/-- Sectors of a line that the atrium holds. -/
def Dev.atriumValid (d : Dev) (line : Nat) : BitVec 4 := ((d.atriumFind (256 * line)).map (·.2.valid)).getD 0

/-- Writes full sectors and byte-masked sectors of a line: into the atrium where the line is or may allocate,
else to DRAM.  A masked write to a poisoned sector merges nothing (Table 9-3).  The read of a merge and the write each
count once in HEAT when they reach the slot (R215). -/
def Dev.writeLine (d : Dev) (line : Nat) (mask : BitVec 256) (data : Line) (poison : BitVec 4) (hint : Bool) : Dev :=
  let a := 256 * line
  let pol := d.fld Fld.ATRIUM_WING_ALLOC (d.extentWing a)
  let sects := (List.range 4).filter (fun k => maskSector mask k ≠ 0)
  let put (x : ALine × Dev) (k : Nat) : ALine × Dev :=
    let (l, d) := x
    let m := maskSector mask k
    if m = BitVec.allOnes 64 then
      ({ l with data := Line.setSector l.data k (Line.sector data k), valid := setBit4 l.valid k, dirty := setBit4 l.dirty k,
                poison := if poison.getLsbD k then setBit4 l.poison k else clrBit4 l.poison k }, d)
    else
      let (old, p, d) := if l.valid.getLsbD k then (Line.sector l.data k, l.poison.getLsbD k, d)
        else d.dramRead (a + 64 * k) false
      if p then
        let d := if l.valid.getLsbD k then d.memEvent .poisonRead (a + 64 * k) false 0 63 63 else d
        ({ l with valid := setBit4 l.valid k, poison := setBit4 l.poison k }, d)
      else
        ({ l with data := Line.setSector l.data k (mergeSector old (Line.sector data k) m),
                  valid := setBit4 l.valid k, dirty := setBit4 l.dirty k,
                  poison := if poison.getLsbD k then setBit4 l.poison k else clrBit4 l.poison k }, d)
  let toDram (d : Dev) : Dev :=
    (sects.foldl (fun (d : Dev) k =>
      let m := maskSector mask k
      if m = BitVec.allOnes 64 then d.dramWrite (a + 64 * k) (Line.sector data k) (poison.getLsbD k)
      else
        let (old, p, d) := d.dramRead (a + 64 * k) false
        if p then d else d.dramWrite (a + 64 * k) (mergeSector old (Line.sector data k) m) (poison.getLsbD k)) d).heatUp a
  let d := if mergeReads mask sects (d.atriumValid line) then d.heatUp a else d
  match d.atriumFind a with
  | some (k, l) =>
    let (l, d) := sects.foldl put (l, d)
    d.atriumTouch k l
  | none =>
    if pol = 2 ∨ (pol = 1 ∧ hint) then
      match d.atriumAlloc a with
      | some (k, d) =>
        let (l, d) := sects.foldl put (({ line := BitVec.ofNat 40 line, nru := true } : ALine), d)
        d.atriumPut k l
      | none => toDram d
    else toDram d

/-- Poisons sectors of a line at its home (R191, R193). -/
def Dev.poisonLine (d : Dev) (line : Nat) (sects : BitVec 4) : Dev :=
  let mask := (sectList sects).foldl (fun (m : BitVec 256) k => m ||| ((BitVec.allOnes 64).zeroExtend 256 <<< (64 * k))) 0
  d.writeLine line mask 0 sects false

/-! ### Loom scratch as memory (R89, R110) -/

def Dev.scratchRead (d : Dev) (n a len : Nat) : Nat := Memory.readNat (d.loom (BitVec.ofNat 12 n)).scratch a len

/-- Writes bytes into a loom's scratch. -/
def Dev.scratchWrite (d : Dev) (n a len v : Nat) : Dev :=
  let n := BitVec.ofNat 12 n
  let l := d.loom n
  d.setLoom n { l with scratch := Memory.writeNat l.scratch a len v }

/-- Writes the masked bytes of a line into a loom's scratch; `off` is the scratch address of the line. -/
def Dev.scratchWriteLine (d : Dev) (n off : Nat) (mask : BitVec 256) (data : Line) : Dev :=
  let n := BitVec.ofNat 12 n
  let l := d.loom n
  d.setLoom n { l with scratch := (List.range 256).foldl (fun m i =>
    if mask.getLsbD i then Memory.write m (off + i) (data.extractLsb' (8 * i) 8) else m) l.scratch }

end Sys2Proof.Machine
end

