-- ==== Sys2Proof/Machine/Reduce.lean ====
section
/-! DEFINITION. Reduction regions and the adds of a ReduceWrite (spec/10 R243 to R254). -/

namespace Sys2Proof.Machine

/-! ### The region descriptor (Table 10-2) -/

def Dev.desc (d : Dev) (r : Nat) (lo w : Nat) : Nat := ((Fmap.get 0 d.regions r).extractLsb' lo w).toNat
def Dev.regBase (d : Dev) (r : Nat) : Nat := d.desc r 0 48
def Dev.regEtype (d : Dev) (r : Nat) : Nat := d.desc r 48 4
def Dev.regLength (d : Dev) (r : Nat) : Nat := d.desc r 64 48
def Dev.regExpected (d : Dev) (r : Nat) : Nat := d.desc r 112 16
def Dev.regEpochAddr (d : Dev) (r : Nat) : Nat := d.desc r 128 48
def Dev.regManual (d : Dev) (r : Nat) : Bool := d.desc r 176 1 = 1
def Dev.regListAddr (d : Dev) (r : Nat) : Nat := d.desc r 192 48
def Dev.regListLen (d : Dev) (r : Nat) : Nat := d.desc r 240 4
def Dev.regEpochInit (d : Dev) (r : Nat) : Nat := d.desc r 256 64
def Dev.regHead (d : Dev) (r : Nat) : Nat := d.desc r 320 4
def Dev.regVector (d : Dev) (r : Nat) : Nat := d.desc r 324 8
def Dev.regIrqEn (d : Dev) (r : Nat) : Bool := d.desc r 332 1 = 1

/-- Bytes of an element type (Table 10-1). -/
def etypeBytes (e : Nat) : Nat := if e = 1 || e = 2 then 2 else if e = 4 then 8 else 4

/-- Region states of Table 10-3. -/
def rgDisabled : Nat := 0
def rgOpen : Nat := 1
def rgWaiting : Nat := 2
def rgRunning : Nat := 3
def rgFaulted : Nat := 4
def Dev.rgState (d : Dev) (r : Nat) : Nat := d.fld Fld.REGION_STATUS_STATE r
def Dev.setRgState (d : Dev) (r s : Nat) : Dev := d.setFld Fld.REGION_STATUS_STATE r s

/-- Bytes of a region's extent. -/
def Dev.regBytes (d : Dev) (r : Nat) : Nat := d.regLength r * etypeBytes (d.regEtype r)

/-- The enabled region whose extent holds a byte. -/
def Dev.regionAt (d : Dev) (a : Nat) : Option Nat :=
  (Fmap.keys d.regions).find? fun r => d.rgState r ≠ rgDisabled && d.regBase r ≤ a && a < d.regBase r + d.regBytes r

/-- Elements of a region homed at M-die m, E_m of R251: line by line. -/
def Dev.regElems (d : Dev) (r m : Nat) : Nat :=
  let b := d.regBase r
  let n := d.regBytes r
  let sz := etypeBytes (d.regEtype r)
  (List.range ((b % 256 + n + 255) / 256)).foldl (fun t i =>
    let lo := max b (b / 256 * 256 + 256 * i)
    let hi := min (b + n) (b / 256 * 256 + 256 * (i + 1))
    if d.home lo = m then t + (hi - lo) / sz else t) 0

def Dev.regCnt (d : Dev) (r m : Nat) : Nat := Fmap.get 0 d.regCount (4 * r + m)

/-- REGION_STATUS_r.COUNT shows the sum of the homes' counts. -/
def Dev.showCount (d : Dev) (r : Nat) : Dev :=
  d.setFld Fld.REGION_STATUS_COUNT r (d.regCnt r 0 + d.regCnt r 1 + d.regCnt r 2 + d.regCnt r 3)

def Dev.setRegCnt (d : Dev) (r m v : Nat) : Dev := ({ d with regCount := Fmap.put d.regCount (4 * r + m) v }).showCount r

/-- Every home sets its count of a region to 0. -/
def Dev.clearCounts (d : Dev) (r : Nat) : Dev :=
  ((((d.setRegCnt r 0 0).setRegCnt r 1 0).setRegCnt r 2 0).setRegCnt r 3 0)

/-- A region becomes WAITING and joins the order of runs (R254, R255). -/
def Dev.triggerRegion (d : Dev) (r : Nat) : Dev :=
  { d.setRgState r rgWaiting with runQ := d.runQ ++ [r] }

/-- The count of an EPOCH region is complete at every home that holds elements (R251). -/
def Dev.regComplete (d : Dev) (r : Nat) : Bool :=
  !d.regManual r && (List.range 4).all (fun m => d.regCnt r m = d.regExpected r * d.regElems r m)

/-- Wing whose region range holds a region; 16 when none does (R248). -/
def Dev.regionWing (d : Dev) (r : Nat) : Nat :=
  ((List.range 16).find? (fun w => d.fld Fld.WING_RES_REGION_BASE w ≤ r &&
    r < d.fld Fld.WING_RES_REGION_BASE w + d.fld Fld.WING_RES_REGION_COUNT w)).getD noWing

/-- The sum of two codes of one element type (Table 10-1): result, NaN produced, overflow. -/
def etypeAdd (et a b : Nat) : Nat × Bool × Bool :=
  let flt (L : FLayout) : Nat × Bool × Bool :=
    match decodeIeee L a, decodeIeee L b with
    | .nan _ _, _ => (canonNaN L, true, false)
    | _, .nan _ _ => (canonNaN L, true, false)
    | .inf n, .inf m => if n = m then (infCode L n, false, false) else (canonNaN L, true, false)
    | .inf n, _ => (infCode L n, false, false)
    | _, .inf m => (infCode L m, false, false)
    | .fin n1 m1 e1, .fin n2 m2 e2 =>
      match FV.addFin false n1 m1 e1 n2 m2 e2 with
      | .fin n m e => let (c, f) := toFloat L .rne 0 n m e; (c, false, f.overflow)
      | _ => (canonNaN L, true, false)
  let int (lo hi t : Int) (w : Nat) : Nat × Bool × Bool :=
    if t > hi then ((hi % 2 ^ w).toNat, false, true)
    else if t < lo then ((lo % 2 ^ w).toNat, false, true)
    else ((t % 2 ^ w).toNat, false, false)
  match et with
  | 0 => flt .fp32
  | 1 => flt .bf16
  | 2 => flt .fp16
  | 3 => int (-(2 ^ 31)) (2 ^ 31 - 1) (signedOf 32 a + signedOf 32 b) 32
  | 4 => int (-(2 ^ 63)) (2 ^ 63 - 1) (signedOf 64 a + signedOf 64 b) 64
  | _ => int 0 (2 ^ 32 - 1) ((a : Int) + b) 32

/-- Discards an element as OVERRUN: the first since the field was clear sets it and reports (R250). -/
def Dev.overrun (d : Dev) (r a : Nat) : Dev :=
  if d.fld Fld.REGION_STATUS_OVERRUN r = 1 then d
  else (d.setFld Fld.REGION_STATUS_OVERRUN r 1).report (homeSrc (d.home a) 5) (mkDetail a r 1) (d.regionWing r)

/-- One whole element of a ReduceWrite at DPA `a`, byte offset `i` of the sector (R245, R246, R251 to R253). -/
def Dev.addElem (sect : Nat) (poison : Bool) (data : Sector) (r i : Nat) (x : Sector × Dev) : Sector × Dev :=
  let (cur, d) := x
  let a := sect + i
  let m := d.home sect
  let sz := etypeBytes (d.regEtype r)
  let full := !d.regManual r && d.regCnt r m ≥ d.regExpected r * d.regElems r m
  if d.rgState r ≠ rgOpen ∨ full then (cur, d.overrun r a)
  else if poison then
    (cur, (d.setRegCnt r m (d.regCnt r m + 1)).setFld Fld.REGION_STATUS_POISONED r 1)
  else
    let old := (cur.extractLsb' (8 * i) (8 * sz)).toNat
    let inc := (data.extractLsb' (8 * i) (8 * sz)).toNat
    let (v, nan, ovf) := etypeAdd (d.regEtype r) old inc
    let bits : Sector := (BitVec.allOnes (8 * sz)).setWidth 512 <<< (8 * i)
    let cur := (cur &&& ~~~bits) ||| (BitVec.ofNat 512 v <<< (8 * i))
    let d := d.setRegCnt r m (d.regCnt r m + 1)
    let d := if nan then d.setFld Fld.REGION_STATUS_ADD_NAN r 1 else d
    (cur, if ovf then d.setFld Fld.REGION_STATUS_ADD_OVERFLOW r 1 else d)

/-- The adds of one sector of a ReduceWrite: elements in increasing address order; partly enabled elements set
PARTIAL; enabled bytes in no enabled region raise one NO_REGION event; a complete count triggers the run. -/
def Dev.reduceSector (d : Dev) (sect : Nat) (cur : Sector) (poison : Bool) (mask : BitVec 64) (data : Sector) :
    Sector × Dev :=
  let (cur, d) := (List.range 64).foldl (fun (x : Sector × Dev) i =>
    match x.2.regionAt (sect + i) with
    | none => x
    | some r =>
      let sz := etypeBytes (x.2.regEtype r)
      if (sect + i - x.2.regBase r) % sz ≠ 0 then x else
      let en := (mask.extractLsb' i sz).toNat
      if en = 2 ^ sz - 1 then Dev.addElem sect poison data r i x
      else if en = 0 then x
      else if x.2.fld Fld.REGION_STATUS_PARTIAL r = 1 then x
      else (x.1, (x.2.setFld Fld.REGION_STATUS_PARTIAL r 1).report (homeSrc (x.2.home sect) 5)
        (mkDetail (sect + i) r 2) (x.2.regionWing r))) (cur, d)
  let stray := (List.range 64).any (fun i => mask.getLsbD i && (d.regionAt (sect + i)).isNone)
  let d := if stray then d.report (homeSrc (d.home sect) 5) (mkDetail sect 0 0) (d.extentWing sect) else d
  let d := (List.range 64).foldl (fun (d : Dev) i =>
    match d.regionAt (sect + i) with
    | some r => if mask.getLsbD i && d.rgState r = rgOpen && d.regComplete r then d.triggerRegion r else d
    | none => d) d
  (cur, d)

end Sys2Proof.Machine
end

