-- ==== Sys2Proof/Machine/Weave.lean ====
section
/-! DEFINITION. The homes (spec/07): catalogue entries, snoops, transactions by Table 7-8, retries and ageing,
directory eviction, snoop timeouts, ABSENT heads. -/

namespace Sys2Proof.Machine

/-! ### Agents -/

/-- Agent id of Table 7-3; none for a cacheless agent. -/
def Agent.tracked : Agent → Option Nat
  | .cache n => some n.toNat
  | .head h => some (4096 + h.toNat)
  | _ => none

/-- The tracked agent with an id. -/
def agentOf (id : Nat) : Agent := if id < 4096 then .cache (BitVec.ofNat 12 id) else .head (BitVec.ofNat 4 (id - 4096))

/-- A number for each kind of work, and back. -/
def Work.code : Work → Nat
  | .walker k => k.toNat
  | .run s => 128 + s.toNat
  | .faults w => 192 + w.toNat
  | .scrub w => 208 + w.toNat
  | .region r => 224 + r.toNat

def workOf (k : Nat) : Work :=
  if k < 128 then .walker (BitVec.ofNat 7 k)
  else if k < 192 then .run (BitVec.ofNat 6 (k - 128))
  else if k < 208 then .faults (BitVec.ofNat 4 (k - 192))
  else if k < 224 then .scrub (BitVec.ofNat 4 (k - 208))
  else .region (BitVec.ofNat 12 (k - 224))

/-- Order of agents for credits (R176): tracked agents by id, then the cacheless ones. -/
def Agent.order : Agent → Nat
  | .cache n => n.toNat
  | .head h => 4096 + h.toNat
  | .treadle n => 8192 + n.toNat
  | .xfer n => 12288 + n.toNat
  | .ifetch n => 16384 + n.toNat
  | .courier c => 20480 + c.toNat
  | .port q => 20544 + q.toNat
  | .engine e => 20560 + e.code

def agentOfOrder (k : Nat) : Agent :=
  if k < 8192 then agentOf k
  else if k < 12288 then .treadle (BitVec.ofNat 12 (k - 8192))
  else if k < 16384 then .xfer (BitVec.ofNat 12 (k - 12288))
  else if k < 20480 then .ifetch (BitVec.ofNat 12 (k - 16384))
  else if k < 20544 then .courier (BitVec.ofNat 6 (k - 20480))
  else if k < 20560 then .port (BitVec.ofNat 4 (k - 20544))
  else .engine (workOf (k - 20560))

/-- The X-die of a courier: a pool of 32 is divided in order of courier number (R296). -/
def Dev.courierXdie (d : Dev) (c : BitVec 6) : Nat := c.toNat % 32 / (32 / d.asm.xdies)

/-- The M-die that completes an access outside the map (R23): the requester's die number. -/
def Dev.dieOf (d : Dev) : Agent → Nat
  | .cache n => loomDie n.toNat
  | .treadle n => loomDie n.toNat
  | .xfer n => loomDie n.toNat
  | .ifetch n => loomDie n.toNat
  | .courier c => d.courierXdie c
  | .head h => h.toNat / 4
  | .port q => q.toNat / 4
  | .engine _ => 0

/-! ### Messages -/

def Dev.sendReq (d : Dev) (r : Req) : Dev := { d with weave := { d.weave with reqs := d.weave.reqs ++ [r] } }
def Dev.sendMsg (d : Dev) (m : Msg) : Dev := { d with weave := { d.weave with msgs := d.weave.msgs ++ [m] } }
/-- A request or message that was on its way arrives. -/
def Dev.takeReq (d : Dev) (r : Req) : Dev := { d with weave := { d.weave with reqs := eraseOne r d.weave.reqs } }
def Dev.takeMsg (d : Dev) (m : Msg) : Dev := { d with weave := { d.weave with msgs := eraseOne m d.weave.msgs } }

/-- The place on the weave where an agent sends and receives: one interface for each loom (R169). -/
def Agent.node : Agent → Agent
  | .treadle n | .xfer n | .ifetch n => .cache n
  | a => a

/-- The M-die that serves a line (R172); a message of its home names it by the line. -/
def Dev.server (d : Dev) (line : BitVec 40) (a : Agent) : Nat :=
  match d.range (256 * line.toNat) with
  | .memory => d.home (256 * line.toNat)
  | .redAlias u => d.home u
  | .scratch n _ => loomDie n
  | _ => d.dieOf a

/-- Traffic class of a message (Tables 7-2, 7-7). -/
def MsgKind.cls : MsgKind → Nat
  | .recallKeep | .recallCopy | .recallInv | .invalidate | .stash => 1
  | .recallAck | .invAck | .comp | .compAck | .retryNoTracker | .retryBusy | .credit | .stashAck => 2
  | .data | .recallData => 3

/-- A message from an agent to a home; the others go from a home to an agent. -/
def MsgKind.up : MsgKind → Bool
  | .recallData | .recallAck | .invAck | .compAck | .stashAck => true
  | _ => false

def Dev.msgDie (d : Dev) (m : Msg) : Nat := if m.kind = .credit then m.line.toNat else d.server m.line m.agent

/-- Two messages of one class between one source and one destination (R170). -/
def Dev.sameFlow (d : Dev) (x m : Msg) : Bool :=
  x.kind.cls = m.kind.cls && x.kind.up == m.kind.up && x.agent.node = m.agent.node && d.msgDie x = d.msgDie m

/-- A host's MemWr data is on its way before the head's answer to the same snoop (R185 note 4; DEDUCED,
notes/assumptions/62.md). -/
def dataFirst (x m : Msg) : Bool :=
  x.kind = .recallData && (m.kind = .recallAck || m.kind = .invAck) && x.agent = m.agent && x.line = m.line

/-- The weave and the homes run: from the memory training of start-up to a reset or the trip (R20, Table 17-1; DEDUCED,
notes/assumptions/64.md). -/
def Dev.weaveOn (d : Dev) : Bool := d.reg.running && !d.reg.safe

/-- A message may arrive: none of its flow was sent before it and is still under way (R170). -/
def Dev.arrives (d : Dev) (m : Msg) : Bool :=
  d.weaveOn && (d.weave.msgs.takeWhile (· ≠ m)).all (fun x => !d.sameFlow x m && !dataFirst x m)

/-- A request may arrive: none of its source to its home was sent before it and is still under way (R170). -/
def Dev.reqArrives (d : Dev) (r : Req) : Bool :=
  d.weaveOn && (d.weave.reqs.takeWhile (· ≠ r)).all (fun x => !(x.src.node = r.src.node && d.server x.line x.src = d.server r.line r.src))

/-! ### Catalogue entries (R179 to R181) -/

def CatEnt.sec (e : CatEnt) : Nat → DirSec
  | 0 => e.d0 | 1 => e.d1 | 2 => e.d2 | _ => e.d3
def CatEnt.setSec (e : CatEnt) (k : Nat) (s : DirSec) : CatEnt :=
  match k with
  | 0 => { e with d0 := s } | 1 => { e with d1 := s } | 2 => { e with d2 := s } | _ => { e with d3 := s }

/-- True when SHARERS may list an agent. -/
def CatEnt.lists (e : CatEnt) (id : Nat) : Bool :=
  if e.coarse then (if id < 4096 then e.tiles.getLsbD (loomTile id) else e.heads.getLsbD (id - 4096))
  else e.ptrs.contains id

/-- Adds a sharer: a thirteenth pointer converts the entry to coarse form (R181). -/
def CatEnt.addSharer (e : CatEnt) (id : Nat) : CatEnt :=
  let coarse (e : CatEnt) (id : Nat) : CatEnt :=
    if id < 4096 then { e with tiles := e.tiles ||| ((1 : BitVec 64) <<< loomTile id) }
    else { e with heads := e.heads ||| ((1 : BitVec 16) <<< (id - 4096)) }
  if e.lists id then e
  else if e.coarse then coarse e id
  else if e.ptrs.length < 12 then { e with ptrs := e.ptrs ++ [id] }
  else (id :: e.ptrs).foldl coarse { e with coarse := true, ptrs := [] }

/-- Removes an agent from SHARERS in pointer form; a coarse vector keeps its tile, but loses a head. -/
def CatEnt.dropSharer (e : CatEnt) (id : Nat) : CatEnt :=
  if e.coarse then (if id < 4096 then e else { e with heads := e.heads &&& ~~~((1 : BitVec 16) <<< (id - 4096)) })
  else { e with ptrs := e.ptrs.filter (· ≠ id) }

/-- With no sector SHARED or OWNED the entry returns to pointer form with a count of 0 (R181). -/
def CatEnt.norm (e : CatEnt) : CatEnt :=
  if [e.d0, e.d1, e.d2, e.d3].all (fun s => s.st = .uncached || s.st = .excl)
  then { e with coarse := false, ptrs := [], tiles := 0, heads := 0 } else e

def CatEnt.empty (e : CatEnt) : Bool := [e.d0, e.d1, e.d2, e.d3].all (fun s => s.st = .uncached)

/-- Holders an entry records: owners and sharers, a coarse tile as 64 looms (R183). -/
def CatEnt.holders (e : CatEnt) : Nat :=
  let owners := ([e.d0, e.d1, e.d2, e.d3].filterMap (fun s =>
    if s.st = .excl || s.st = .owned then some s.owner else none)).dedup
  let sh := if e.coarse then
      64 * ((List.range 64).filter (fun t => e.tiles.getLsbD t)).length
        + ((List.range 16).filter (fun h => e.heads.getLsbD h)).length
    else e.ptrs.length
  (owners.filter (fun o => !e.lists o)).length + sh

/-- The entry of a line; a line without one is UNCACHED in every sector. -/
def Dev.ent (d : Dev) (line : Nat) : CatEnt := Fmap.get {} d.weave.cat line

/-- Stores an entry, or frees its way when every sector is UNCACHED. -/
def Dev.setEnt (d : Dev) (line : Nat) (e : CatEnt) : Dev :=
  let e := e.norm
  { d with weave := { d.weave with cat := if e.empty then Fmap.del d.weave.cat line else Fmap.put d.weave.cat line e } }

/-- Set index of R178. -/
def catSet (line : Nat) : Nat := (line % 2 ^ 19) ^^^ (line / 2 ^ 19 % 2 ^ 19)

/-- The listed entries of a line's set at its home: line and entry. -/
def Dev.setEnts (d : Dev) (line : Nat) : List (Nat × CatEnt) :=
  d.weave.cat.filter (fun c => d.home (256 * c.1) = d.home (256 * line) && catSet c.1 = catSet line)

/-! ### Transactions -/

def Dev.txn (d : Dev) (line : Nat) : Option Txn := Fmap.find d.weave.txns line
def Dev.setTxn (d : Dev) (line : Nat) (t : Txn) : Dev := { d with weave := { d.weave with txns := Fmap.put d.weave.txns line t } }

/-- A line is busy while a transaction on it, or an eviction of its entry, is open (R175, R183). -/
def Dev.busy (d : Dev) (line : Nat) : Bool :=
  (d.txn line).isSome || d.weave.txns.any (fun t => t.2.phase = .evict (BitVec.ofNat 40 line))

/-- General trackers in use at a home (R175). -/
def Dev.trackers (d : Dev) (m : Nat) (reserved : Bool) : Nat :=
  (d.weave.txns.filter (fun t => d.home (256 * t.1) = m && t.2.reserved = reserved)).length

/-! ### Snoops -/

/-- Sends a Recall or Invalidate and opens its snoop; the timer runs on the AON tick (R191, R196). -/
def Dev.snoop (d : Dev) (k : MsgKind) (line : Nat) (sects : BitVec 4) (id : Nat) : Snoop × Dev :=
  ({ tgt := .agent id, kind := k, line := BitVec.ofNat 40 line, sects := sects,
     deadline := d.tick + d.fld Fld.HOME_TIMEOUT_TIMEOUT 0 },
   d.sendMsg { kind := k, agent := agentOf id, tag := 0, line := BitVec.ofNat 40 line, sects := sects })

/-- Invalidate by tile multicast: one snoop that counts an InvAck of each of the 64 looms of the tile.  A requester in the
tile gets it too, marked, so that it answers and keeps its copy (DEDUCED, notes/assumptions/62.md). -/
def Dev.snoopTile (d : Dev) (line : Nat) (sects : BitVec 4) (t : Nat) (not_ : Option Nat) : Snoop × Dev :=
  let ids := (List.range 4096).filter (fun n => loomTile n = t)
  ({ tgt := .tile (BitVec.ofNat 6 t), kind := .invalidate, line := BitVec.ofNat 40 line, sects := sects,
     count := ids.length, deadline := d.tick + d.fld Fld.HOME_TIMEOUT_TIMEOUT 0 },
   ids.foldl (fun (d : Dev) n =>
     d.sendMsg { kind := .invalidate, agent := agentOf n, tag := 0, line := BitVec.ofNat 40 line, sects := sects,
                 ok := decide (some n = not_) }) d)

/-- Invalidates sent to the sharers of an entry, the requester excepted (R181). -/
def Dev.snoopSharers (d : Dev) (line : Nat) (e : CatEnt) (sects : BitVec 4) (not_ : Option Nat) : List Snoop × Dev :=
  if e.coarse then
    let (s, d) := ((List.range 64).filter (fun t => e.tiles.getLsbD t)).foldl (fun (x : List Snoop × Dev) t =>
      let (s, d) := x.2.snoopTile line sects t not_; (x.1 ++ [s], d)) (([] : List Snoop), d)
    ((List.range 16).filter (fun h => e.heads.getLsbD h && some (4096 + h) ≠ not_)).foldl (fun x h =>
      let (s, d) := x.2.snoop .invalidate line sects (4096 + h); (x.1 ++ [s], d)) (s, d)
  else (e.ptrs.filter (fun i => some i ≠ not_)).foldl (fun (x : List Snoop × Dev) i =>
      let (s, d) := x.2.snoop .invalidate line sects i; (x.1 ++ [s], d)) (([] : List Snoop), d)

/-- What one sector of a request needs (Table 7-8): a Recall to its owner, an Invalidate to its owner, Invalidates
to its sharers. -/
structure Need where
  ask : Option (MsgKind × Nat) := none
  sharers : Bool := false
  deriving DecidableEq, Repr

/-- True when a write covers the whole sector. -/
def Req.full (r : Req) (k : Nat) : Bool := maskSector r.mask k = BitVec.allOnes 64

/-- The requester is a recorded holder of a sector (Table 7-8, Upgrade). -/
def holds (e : CatEnt) (k : Nat) (a : Option Nat) : Bool :=
  match a with
  | none => false
  | some id =>
    match (e.sec k).st with
    | .uncached => false
    | .shared => e.lists id
    | .excl => (e.sec k).owner = id
    | .owned => (e.sec k).owner = id || e.lists id

/-- Table 7-8, by request and directory state. -/
def need (r : Req) (e : CatEnt) (k : Nat) : Need :=
  let a := r.src.tracked
  let s := e.sec k
  let own (m : MsgKind) : Option (MsgKind × Nat) := if some s.owner = a then none else some (m, s.owner)
  let readOwn : Need := match s.st with
    | .uncached => {}
    | .shared => { sharers := true }
    | .excl => { ask := own .recallInv }
    | .owned => { ask := own .recallInv, sharers := true }
  let wipe (full : Bool) : Need := match s.st with
    | .uncached => {}
    | .shared => { sharers := true }
    | .excl => { ask := some (if full then .invalidate else .recallInv, s.owner) }
    | .owned => { ask := some (if full then .invalidate else .recallInv, s.owner), sharers := true }
  match r.kind with
  | .readShared => match s.st with
    | .excl => { ask := own .recallKeep }
    | .owned => { ask := own .recallKeep }
    | _ => {}
  | .readOwn => readOwn
  | .upgrade =>
    if holds e k a then match s.st with
      | .shared => { sharers := true }
      | .owned => { ask := own .invalidate, sharers := true }
      | _ => {}
    else readOwn
  | .ownNoData => match s.st with
    | .uncached => {}
    | .shared => { sharers := true }
    | .excl => { ask := own .invalidate }
    | .owned => { ask := own .invalidate, sharers := true }
  | .readOnce => match s.st with
    | .excl => { ask := own .recallCopy }
    | .owned => { ask := own .recallCopy }
    | _ => {}
  | .write => wipe (r.full k)
  | .atomic _ => wipe false
  | .reduceWrite => wipe false
  | _ => {}

/-! ### Finishing a sector (Table 7-8) -/

/-- Answer of a home with data and the granted states, and what the transaction writes to memory. -/
structure Grant where
  data : Line := 0
  excl : BitVec 4 := 0
  own : BitVec 4 := 0
  poison : BitVec 4 := 0
  sects : BitVec 4 := 0
  /-- ownership without data (Comp) -/
  comp : BitVec 4 := 0
  /-- bytes to write, their data, sectors written as poison, atrium hint -/
  wmask : BitVec 256 := 0
  wdata : Line := 0
  wpoison : BitVec 4 := 0
  hint : Bool := false
  deriving DecidableEq, Repr

/-- The byte mask of one whole sector. -/
def fullMask (k : Nat) : BitVec 256 := (BitVec.allOnes 64).setWidth 256 <<< (64 * k)

/-- Adds bytes of sector k to what is written. -/
def Grant.put (g : Grant) (k : Nat) (m : BitVec 64) (s : Sector) (poison : Bool) : Grant :=
  { g with wmask := g.wmask ||| (m.setWidth 256 <<< (64 * k)), wdata := Line.setSector g.wdata k s,
           wpoison := if poison then setBit4 g.wpoison k else g.wpoison }

/-- The atomic operation on 32 or 64 bits (Table 4-4). -/
def atomOp (op : AtomOp) (w : Nat) (old x cmp : BitVec w) : BitVec w :=
  match op with
  | .swap => x
  | .add => old + x
  | .and => old &&& x
  | .or => old ||| x
  | .xor => old ^^^ x
  | .min => if old.slt x then old else x
  | .max => if old.slt x then x else old
  | .minu => if old.ult x then old else x
  | .maxu => if old.ult x then x else old
  | .cas => if old = cmp then x else old

/-- Performs an atomic on a sector: the new sector and the old value (R187). -/
def atomSector (r : Req) (op : AtomOp) (s : Sector) : Sector × W64 :=
  let off := r.off.toNat % 64
  if r.wide then
    let old := s.extractLsb' (8 * off) 64
    let v := atomOp op 64 old r.opnd r.cmp
    ((s &&& ~~~((BitVec.allOnes 64).setWidth 512 <<< (8 * off))) ||| (v.setWidth 512 <<< (8 * off)), old)
  else
    let old := s.extractLsb' (8 * off) 32
    let v := atomOp op 32 old (r.opnd.setWidth 32) (r.cmp.setWidth 32)
    ((s &&& ~~~((BitVec.allOnes 32).setWidth 512 <<< (8 * off))) ||| (v.setWidth 512 <<< (8 * off)), old.setWidth 64)

/-- A recorded tracked requester takes a sector in E or M. -/
def CatEnt.giveExcl (e : CatEnt) (k id : Nat) : CatEnt := e.setSec k ⟨.excl, id⟩
/-- A sector becomes UNCACHED. -/
def CatEnt.drop (e : CatEnt) (k : Nat) : CatEnt := e.setSec k {}
/-- A sector becomes SHARED with one more holder. -/
def CatEnt.share (e : CatEnt) (k id : Nat) : CatEnt := (e.setSec k ⟨.shared, 8191⟩).addSharer id

/-- The data of the sectors a transaction decides: recalled data, else memory; poisoned sectors; sectors that came poisoned
from the atrium, whose reads raise no event of their own (R226). -/
structure Src where
  data : Line := 0
  poison : BitVec 4 := 0
  atrium : BitVec 4 := 0
  deriving DecidableEq, Repr

/-- The home needs the stored data of a sector: not when a Recall brought it, when its holder stayed silent, for an engine
that reads for itself, or for a request without data. -/
def Txn.reads (t : Txn) (e : CatEnt) (k : Nat) : Bool :=
  !t.got.getLsbD k && !t.dead.getLsbD k && (match t.req.kind with
    | .readShared | .readOwn | .atomic _ | .reduceWrite => true
    | .readOnce => (match t.req.src with | .engine _ => false | _ => true)
    | .upgrade => !holds e k t.req.src.tracked
    | _ => false)

/-- Reads what the sectors need in one access, so that it counts once in HEAT (R215). -/
def Dev.source (d : Dev) (t : Txn) (ks : List Nat) : Src × Dev :=
  let line := t.req.line.toNat
  let need := (ks.filter (t.reads (d.ent line))).foldl setBit4 (0 : BitVec 4)
  let atr := d.atriumValid line
  let (l, p, d) := if need = 0 then ((0 : Line), (0 : BitVec 4), d) else d.readLine line need
  let data := ks.foldl (fun (x : Line) k => if t.got.getLsbD k then Line.setSector x k (Line.sector t.data k) else x) l
  ({ data := data, poison := (p &&& need) ||| t.dead, atrium := p &&& need &&& atr }, d)

/-- Decides one sector once its snoops are answered: the entry, the grant and what is written, as Table 7-8 says. -/
def Dev.finishSector (t : Txn) (src : Src) (x : Grant × Dev) (k : Nat) : Grant × Dev :=
  let (g, d) := x
  let r := t.req
  let line := r.line.toNat
  let e := d.ent line
  let a := r.src.tracked
  let s := e.sec k
  let dead := t.dead.getLsbD k
  -- a silent holder: the sector is UNCACHED (R191)
  let e := if dead then e.drop k else e
  let bit := (1 : BitVec 4) <<< k
  let v := Line.sector src.data k
  let p := src.poison.getLsbD k
  -- dirty recalled data of a loom
  let dirty := t.got.getLsbD k && t.dirty.getLsbD k
  let noCopy := dead || s.st = .uncached || ((s.st = .excl || s.st = .owned) && !t.kept.getLsbD k && some s.owner ≠ a)
  let selfDrop := s.st = .excl && some s.owner = a
  let give (g : Grant) (e : CatEnt) (d : Dev) (ex own : Bool) : Grant × Dev :=
    let e := if dead then e.drop k else if p then (match (e.sec k).st with | .excl => e.drop k | _ => e) else e
    ({ g with data := Line.setSector g.data k (if p then 0 else v), sects := g.sects ||| bit,
              excl := if ex && !p then g.excl ||| bit else g.excl,
              own := if own && !p then g.own ||| bit else g.own,
              poison := if p then g.poison ||| bit else g.poison }, d.setEnt line e)
  -- a modification of poisoned data raises POISON_READ where no DRAM read has done so (Table 9-3)
  let note (d : Dev) : Dev :=
    if src.atrium.getLsbD k then d.memEvent .poisonRead (256 * line + 64 * k) false 0 63 63 else d
  match r.kind with
  | .readShared =>
    match a with
    | none => give g e d false false
    | some id =>
      -- dirty data whose holder keeps no copy is written to memory (Table 7-9)
      let g := if noCopy && dirty then g.put k (BitVec.allOnes 64) v false else g
      if noCopy || selfDrop then
        -- the sharers of an OWNED sector whose owner holds no copy any more keep theirs
        if id < 4096 && (s.st ≠ .owned || dead) then give g (e.giveExcl k id) d true false
        else give g (e.share k id) d false false
      else match s.st with
        | .excl =>
          if dirty then give g ((e.setSec k ⟨.owned, s.owner⟩).addSharer id) d false false
          else give g ((e.share k s.owner).addSharer id) d false false
        | _ => give g (e.addSharer id) d false false
  | .readOwn => match a with
    | some id => give g (e.giveExcl k id) d false true
    | none => give g (e.drop k) d false false
  | .upgrade => match a with
    | some id =>
      if holds e k a && !dead then
        ({ g with comp := g.comp ||| bit }, d.setEnt line (e.giveExcl k id))
      else give g (e.giveExcl k id) d false true
    | none => (g, d)
  | .ownNoData => match a with
    | some id =>
      if dead then give g e d false false
      else ({ g with comp := g.comp ||| bit }, d.setEnt line (e.giveExcl k id))
    | none => (g, d)
  | .readOnce =>
    let e := if selfDrop then e.drop k
      else if (s.st = .excl || s.st = .owned) && !dead && !t.got.getLsbD k && !t.kept.getLsbD k then
        (if s.st = .excl then e.drop k else e.setSec k ⟨.shared, 8191⟩) else e
    give g e d false false
  | .write =>
    let m := maskSector r.mask k
    let d := d.setEnt line (e.drop k)
    let w := Line.sector r.data k
    let bad := r.poison.getLsbD k
    ({ (if r.full k then g.put k m w bad
        else if dead then g
        else if dirty then g.put k (BitVec.allOnes 64) (mergeSector v w m) bad
        else if m = 0 then g else g.put k m w bad) with hint := r.place.toNat / 2 ^ 12 = 2 }, d)
  | .atomic op =>
    let d := d.setEnt line (e.drop k)
    if p then ({ g with poison := g.poison ||| bit, sects := g.sects ||| bit }, note d)
    else
      let (v', old) := atomSector r op v
      ({ (g.put k (BitVec.allOnes 64) v' false) with data := old.setWidth 2048, sects := g.sects ||| bit }, d)
  | .reduceWrite =>
    let d := if p then note (d.setEnt line (e.drop k)) else d.setEnt line (e.drop k)
    let lost := p || r.poison.getLsbD k
    let (v', d) := d.reduceSector (256 * line + 64 * k) v lost (maskSector r.mask k) (Line.sector r.data k)
    (if dirty || (!lost && v' ≠ v) then g.put k (BitVec.allOnes 64) v' false else g, d)
  | .writeBack =>
    if some s.owner = a && (s.st = .excl || s.st = .owned) then
      let m := match r.src with | .head _ => maskSector r.mask k | _ => BitVec.allOnes 64
      let sharers := e.ptrs ≠ [] || e.coarse
      (g.put k m (Line.sector r.data k) (r.poison.getLsbD k),
       d.setEnt line (if s.st = .owned && sharers then e.setSec k ⟨.shared, 8191⟩ else e.drop k))
    else (g, d)
  | .writeClean =>
    match a with
    | some id =>
      if s.owner = id && (s.st = .excl || s.st = .owned) then
        (g.put k (BitVec.allOnes 64) (Line.sector r.data k) (r.poison.getLsbD k),
         if s.st = .owned then d.setEnt line (e.share k id) else d)
      else (g, d)
    | none => (g, d)
  | .cleanEvict =>
    if some s.owner = a && s.st = .excl then (g, d.setEnt line (e.drop k)) else (g, d)

/-- Decides sectors of a transaction together: silent holders' sectors are poisoned, the stored data is read once, every
sector is decided, and what results is written once. -/
def Dev.finish (d : Dev) (t : Txn) (ks : List Nat) : Grant × Dev :=
  let line := t.req.line.toNat
  let dead := (ks.filter (fun k => t.dead.getLsbD k)).foldl setBit4 (0 : BitVec 4)
  let d := if dead = 0 then d else d.poisonLine line dead
  let (src, d) := d.source t ks
  let (g, d) := ks.foldl (Dev.finishSector t src) (({} : Grant), d)
  (g, if g.wmask = 0 then d else d.writeLine line g.wmask g.wdata g.wpoison g.hint)

/-- Requests whose line stays busy until CompAck: those that grant a tracked copy (R175). -/
def ReqKind.acked : ReqKind → Bool
  | .readShared | .readOwn | .upgrade | .ownNoData => true
  | _ => false

/-- Sends the answer of a grant: Data for sectors with data, Comp for ownership without data. -/
def Dev.answer (d : Dev) (r : Req) (g : Grant) : Dev :=
  let d := if g.sects ≠ 0 then
      d.sendMsg { kind := .data, agent := r.src, tag := r.tag, line := r.line, sects := g.sects, data := g.data,
                  excl := g.excl, own := g.own, poison := g.poison }
    else d
  if g.comp ≠ 0 then
    d.sendMsg { kind := .comp, agent := r.src, tag := r.tag, line := r.line, sects := g.comp, own := g.comp }
  else d

/-- Requests that end with a Comp of their own. -/
def ReqKind.comped : ReqKind → Bool
  | .writeBack | .writeClean | .write | .reduceWrite => true
  | _ => false

/-! ### Freeing a line and starting requests -/

/-- Reserved trackers of a home that are taken or promised: open transactions, Credits under way, and credited requests
that wait for their line (R175 to R177). -/
def Dev.reservedUse (d : Dev) (m : Nat) : Nat :=
  d.trackers m true + (d.weave.msgs.filter (fun x => x.kind = .credit && x.line.toNat = m)).length
    + (d.weave.waitQ.filter (fun r => r.credit && d.home (256 * r.line.toNat) = m)).length

/-- Sends Credit to a pending requester of home m when a tracker frees and a reserved one is there for it: increasing agent
order, round robin (R176). -/
def Dev.giveCredit (d : Dev) (m : Nat) : Dev :=
  match Fmap.get [] d.weave.credit m with
  | [] => d
  | q@(k0 :: _) =>
    if d.reservedUse m ≥ 64 then d else
    let last := Fmap.get 0 d.weave.creditLast m
    let k := (q.find? (fun k => k > last)).getD k0
    let w := { d.weave with credit := Fmap.put d.weave.credit m (q.filter (· ≠ k)),
                            creditLast := Fmap.put d.weave.creditLast m k }
    ({ d with weave := w } : Dev).sendMsg { kind := .credit, agent := agentOfOrder k, tag := 0, line := BitVec.ofNat 40 m, sects := 0 }

/-- A transaction ends: its tracker is free, and a pending requester gets a Credit. -/
def Dev.endTxn (d : Dev) (line : Nat) : Dev :=
  ({ d with weave := { d.weave with txns := Fmap.del d.weave.txns line } } : Dev).giveCredit (d.home (256 * line))

/-- A Stash, a transaction of its own after the write's Comp (R189, R190): the push is sent and keeps the line busy. -/
def Dev.pushStash (d : Dev) (t : Txn) : Dev :=
  let r := t.req
  (d.setTxn r.line.toNat { t with phase := .stash, waits := [], todo := 0 }).sendMsg
    { kind := .stash, agent := .cache (BitVec.ofNat 12 (r.place.toNat % 2 ^ 12)), tag := r.tag, line := r.line, sects := r.sects,
      data := r.data, wing := r.wing }

/-- A transaction that has decided all its sectors: Comp, CompAck wait.  A hinted push goes on as a Stash transaction, which
needs an entry first (R189, R190). -/
def Dev.finished (d : Dev) (t : Txn) : Dev :=
  let line := t.req.line.toNat
  let r := t.req
  if r.kind.acked && r.src.tracked.isSome then d.setTxn line { t with phase := .ack, waits := [], todo := 0 }
  else
    let d := if r.kind.comped then d.sendMsg { kind := .comp, agent := r.src, tag := r.tag, line := r.line, sects := r.sects } else d
    let pushed := if r.kind = .write && r.place.toNat / 2 ^ 12 = 1 then
        (List.range 4).filter (fun k => r.full k && !r.poison.getLsbD k) else []
    if pushed.isEmpty then d.endTxn line
    else d.setTxn line { req := { r with sects := pushed.foldl setBit4 0 }, phase := .room, todo := 0, reserved := t.reserved, push := true }

/-- Sends the snoops that one sector of a request needs. -/
def Dev.snoopNeed (d : Dev) (r : Req) (e : CatEnt) (n : Nat × Need) : List Snoop × Dev :=
  let line := r.line.toNat
  let bit := (1 : BitVec 4) <<< n.1
  let (ws, d) := match n.2.ask with
    | none => (([] : List Snoop), d)
    | some (k, id) => let (s, d) := d.snoop k line bit id; ([s], d)
  if n.2.sharers then
    let e' := if (e.sec n.1).st = .owned then e.dropSharer (e.sec n.1).owner else e
    let not_ := match r.kind with
      | .write | .atomic _ | .reduceWrite => none
      | _ => r.src.tracked
    let (s, d) := d.snoopSharers line e' bit not_
    (ws ++ s, d)
  else (ws, d)

/-- A request needs a catalogue entry when it grants a tracked copy. -/
def Req.wantsEntry (r : Req) : Bool := r.kind.acked && r.src.tracked.isSome

/-- Opens the snoops a request needs on its own line.  A tracked read is answered at once for the sectors that need none
(the example of R193); any other request is decided as a whole, so that one answer brings all its sectors. -/
def Dev.resolve (d : Dev) (t : Txn) : Dev :=
  let line := t.req.line.toNat
  if t.push then d.pushStash t else
  let e := d.ent line
  let ks := sectList t.req.sects
  let (ws, ready, d) := ks.foldl (fun (x : List Snoop × List Nat × Dev) k =>
    let (w, d) := x.2.2.snoopNeed t.req e (k, need t.req e k)
    (x.1 ++ w, if w.isEmpty then x.2.1 ++ [k] else x.2.1, d)) (([] : List Snoop), ([] : List Nat), d)
  let now := if ws.isEmpty || t.req.wantsEntry then ready else []
  let todo := (ks.filter (fun k => !now.contains k)).foldl setBit4 (0 : BitVec 4)
  let (g, d) := d.finish t now
  let d := d.answer t.req g
  if todo = 0 then d.finished { t with todo := 0 }
  else d.setTxn line { t with phase := .snoop, waits := ws, todo := todo }

/-- A page that is HELD keeps its requests waiting (Table 8-6). -/
def Dev.pageHeld (d : Dev) (line : Nat) : Bool := (d.locOf (line / 2 ^ 18)).st = .held

/-- The victim of R183: none while every line of the set is busy or in a HELD page. -/
def Dev.victim (d : Dev) (line : Nat) : Option Nat :=
  let es := (d.setEnts line).filter (fun c => !d.busy c.1 && !d.pageHeld c.1)
  let ways := d.asm.catWays
  let last := Fmap.get (ways - 1) d.weave.lastWay (d.home (256 * line) * 2 ^ 19 + catSet line)
  let least := es.foldl (fun m c => min m c.2.holders) (match es with | [] => 0 | c :: _ => c.2.holders)
  let order := (List.range ways).map (fun i => (last + 1 + i) % ways)
  order.findSome? fun w => (es.find? (fun c => c.2.way = w && c.2.holders = least)).map (·.1)

/-- Gives the line an entry in a free way, so that the grant has one. -/
def Dev.openEnt (d : Dev) (line : Nat) : Dev :=
  if (Fmap.find d.weave.cat line).isSome then d else
  let used := (d.setEnts line).map (fun c => c.2.way)
  match (List.range d.asm.catWays).find? (fun w => !used.contains w) with
  | some w => { d with weave := { d.weave with cat := Fmap.put d.weave.cat line { way := w } } }
  | none => d

/-- Once every holder of the victim has answered, its entry is reused and the request goes on (R183). -/
def Dev.evicted (d : Dev) (t : Txn) (v : Nat) : Dev :=
  let m := d.home (256 * v)
  let e := d.ent v
  let d := if t.dead = 0 then d else d.poisonLine v t.dead
  let put := t.dirty &&& ~~~t.dead
  let mask := (sectList put).foldl (fun (x : BitVec 256) k => x ||| fullMask k) 0
  let d := if put = 0 then d else d.writeLine v mask t.data 0 false
  let w := { d.weave with cat := Fmap.del d.weave.cat v,
                          lastWay := Fmap.put d.weave.lastWay (m * 2 ^ 19 + catSet v) e.way }
  let d := ({ d with weave := w } : Dev).satAdd Fld.CAT_STATS_EVICTIONS m 1
  let t' := { t with phase := .snoop, waits := [], data := 0, got := 0, dirty := 0, kept := 0, dead := 0 }
  ((d.setTxn t.req.line.toNat t').openEnt t.req.line.toNat).resolve t'

/-- Every holder of a victim is asked for it (R183). -/
def Dev.evict (d : Dev) (t : Txn) (v : Nat) : Dev :=
  let e := d.ent v
  let (ws, d) := (List.range 4).foldl (fun (x : List Snoop × Dev) k =>
    let bit := (1 : BitVec 4) <<< k
    let s := e.sec k
    let x := if s.st = .excl || s.st = .owned then
        let (w, d) := x.2.snoop .recallInv v bit s.owner; (x.1 ++ [w], d) else x
    if s.st = .shared || s.st = .owned then
      let e' := if s.st = .owned then e.dropSharer s.owner else e
      let (w, d) := x.2.snoopSharers v e' bit none; (x.1 ++ w, d)
    else x) (([] : List Snoop), d)
  if ws.isEmpty then d.evicted t v
  else d.setTxn t.req.line.toNat { t with phase := .evict (BitVec.ofNat 40 v), waits := ws }

/-- The transaction needs an entry and its set has no way free. -/
def Dev.setFull (d : Dev) (t : Txn) : Bool :=
  (t.push || t.req.wantsEntry) && (Fmap.find d.weave.cat t.req.line.toNat).isNone &&
    (d.setEnts t.req.line.toNat).length ≥ d.asm.catWays

/-- An accepted transaction goes on: an entry is evicted first when the set is full, and awaited while no entry of the set
can be evicted (R183). -/
def Dev.enter (d : Dev) (t : Txn) : Dev :=
  let line := t.req.line.toNat
  if d.setFull t then
    match d.victim line with
    | none => d.setTxn line { t with phase := .room }
    | some v => d.evict t v
  else (if t.push || t.req.wantsEntry then d.openEnt line else d).resolve t

/-- Starts an accepted request. -/
def Dev.startTxn (d : Dev) (r : Req) (reserved : Bool) : Dev :=
  let t : Txn := { req := r, phase := .snoop, todo := r.sects, reserved := reserved }
  (d.setTxn r.line.toNat t).enter t

/-! ### Requests that wait at a home -/

/-- A line is not open to a request: it is busy, or an accepted request waits for it. -/
def Dev.lineTaken (d : Dev) (line : Nat) : Bool :=
  d.busy line || (d.weave.agedQ ++ d.weave.waitQ).any (fun r => r.line.toNat = line)

/-- A host's MemWr is a WriteBack only while the catalogue records its head as owner (Table 7-7, R192). -/
def Dev.recast (d : Dev) (r : Req) : Req :=
  match r.kind, r.src with
  | .writeBack, .head h =>
    if (sectList r.sects).all (fun k => ((d.ent r.line.toNat).sec k).st = .excl && ((d.ent r.line.toNat).sec k).owner = 4096 + h.toNat)
    then r else { r with kind := .write }
  | _, _ => r

/-- The next thing that a home can start: a transaction whose set has room again, the oldest AGED request, then a WriteBack,
then an accepted request, of a line that is free, with a tracker for it (R176, R177, R183, R194; the order among them
is DEDUCED, notes/assumptions/62.md). -/
def Dev.nextAt (d : Dev) (m : Nat) : Option (Txn ⊕ Req) :=
  let here (r : Req) : Bool := d.home (256 * r.line.toNat) = m && !d.busy r.line.toNat && !d.pageHeld r.line.toNat
  let aged (r : Req) : Bool := d.weave.agedQ.any (fun q => q.line = r.line)
  match d.weave.txns.find? (fun t => t.2.phase = .room && d.home (256 * t.1) = m && (!d.setFull t.2 || (d.victim t.1).isSome)) with
  | some t => some (.inl t.2)
  | none =>
    match d.weave.agedQ.find? (fun r => here r && decide (d.reservedUse m < 64)) with
    | some r => some (.inr r)
    | none =>
      match d.weave.wbq.find? (fun r => here r && !aged r) with
      | some r => some (.inr r)
      | none => (d.weave.waitQ.find? (fun r => here r && !aged r &&
          (r.credit || r.kind = .writeBack || decide (d.trackers m false < 960)))).map .inr

/-- Starts a waiting request of a home. -/
def Dev.startWaiting (d : Dev) (r : Req) : Dev :=
  let w := { d.weave with agedQ := eraseOne r d.weave.agedQ, wbq := eraseOne r d.weave.wbq, waitQ := eraseOne r d.weave.waitQ }
  ({ d with weave := w } : Dev).startTxn (d.recast r) (r.credit || r.aged || r.kind = .writeBack)

/-- Starts what waits at a home until nothing can start; the number bounds how many there are. -/
def Dev.drainHome (m : Nat) : Nat → Dev → Dev
  | 0, d => d
  | k + 1, d =>
    match d.nextAt m with
    | some (.inl t) => Dev.drainHome m k (d.enter t)
    | some (.inr r) => Dev.drainHome m k (d.startWaiting r)
    | none => d

/-- Requests and transactions that may start at some home. -/
def Dev.waitCount (d : Dev) : Nat :=
  d.weave.agedQ.length + d.weave.wbq.length + d.weave.waitQ.length + 2 * d.weave.txns.length

/-- Serves what waits at the home of a line that may have become free. -/
def Dev.releaseLine (d : Dev) (line : Nat) : Dev := Dev.drainHome (d.home (256 * line)) d.waitCount d

/-- A home accepts a request for a populated DPA, or answers Retry (R175 to R177).  A WriteBack that finds the 128 buffers
of its home taken has not arrived yet. -/
def Dev.homeMem (d : Dev) (r0 : Req) : Dev :=
  let r := d.recast r0
  let line := r.line.toNat
  let m := d.home (256 * line)
  let q (l : List Req) : Nat := (l.filter (fun q => d.home (256 * q.line.toNat) = m)).length
  let retry (k : MsgKind) : Dev :=
    ({ d with weave := { d.weave with refused := d.weave.refused ++ [(r, decide (k = .retryNoTracker))] } } : Dev).sendMsg
      { kind := k, agent := r.src, tag := r.tag, line := r.line, sects := r.sects }
  let age : Dev := if q d.weave.agedQ < 64 then { d with weave := { d.weave with agedQ := d.weave.agedQ ++ [r] } } else retry .retryBusy
  if d.pageHeld line then { d with weave := { d.weave with held := d.weave.held ++ [r] } }
  else if d.lineTaken line then
    if r.kind = .writeBack then
      (if q d.weave.wbq < 128 then { d with weave := { d.weave with wbq := d.weave.wbq ++ [r] } }
       else { d with weave := { d.weave with reqs := r :: d.weave.reqs } })
    else if r.credit then { d with weave := { d.weave with waitQ := d.weave.waitQ ++ [r] } }
    else if r.aged then age
    else retry .retryBusy
  else if r.credit || r.kind = .writeBack then (d.startTxn r true).releaseLine line
  else if r.aged then (if d.reservedUse m < 64 then (d.startTxn r true).releaseLine line else age)
  else if d.trackers m false < 960 then (d.startTxn r false).releaseLine line
  else
    let q := insSorted (Fmap.get [] d.weave.credit m) r.src.order
    ({ d with weave := { d.weave with credit := Fmap.put d.weave.credit m q } } : Dev) |> fun d =>
      ({ d with weave := { d.weave with refused := d.weave.refused ++ [(r, true)] } } : Dev).sendMsg
        { kind := .retryNoTracker, agent := r.src, tag := r.tag, line := r.line, sects := r.sects }

/-! ### Answers of holders -/

/-- A snoop matches an answer of an agent for a line. -/
def Snoop.matches (s : Snoop) (id line : Nat) : Bool :=
  s.line.toNat = line && (match s.tgt with
    | .agent a => a = id
    | .tile t => id < 4096 && loomTile id = t.toNat)

/-- A snoop that a message answers: for its sectors; a loom answers an Invalidate with InvAck and a Recall with the others,
a head each with its BIRsp (Table 7-7). -/
def Snoop.answers (s : Snoop) (id : Nat) (m : Msg) : Bool :=
  s.matches id m.line.toNat && s.sects = m.sects && (id ≥ 4096 || (s.kind = .invalidate) == (m.kind = .invAck))

/-- A transaction whose last snoop has been answered goes on. -/
def Dev.advance (d : Dev) (line : Nat) : Dev :=
  match d.txn line with
  | none => d
  | some t =>
    if !t.waits.isEmpty then d else
    match t.phase with
    | .evict v => (d.evicted t v.toNat).releaseLine v.toNat
    | .snoop =>
      let (g, d) := d.finish t (sectList t.todo)
      ((d.answer t.req g).finished t).releaseLine line
    | _ => d

/-- Applies an answer to the open snoop of an agent for sectors of a line; an answer that finds none is discarded
(R192). -/
def Dev.onAnswer (d : Dev) (id : Nat) (m : Msg) (f : Txn → Snoop → Txn) : Dev :=
  match d.weave.txns.findSome? (fun t => (t.2.waits.find? (fun s => s.answers id m)).map (fun s => (t.1, t.2, s))) with
  | none => d
  | some (k, t, s) => (d.setTxn k (f t s)).advance k

/-- Closes one count of a snoop. -/
def Txn.close (t : Txn) (s : Snoop) : Txn :=
  if s.count ≤ 1 then { t with waits := eraseOne s t.waits }
  else { t with waits := updateIf (· = s) (fun x => { x with count := x.count - 1 }) t.waits }

/-- RecallData.  A loom's data, dirty marks and kept sectors join the transaction and close its snoop.  A host's MemWr data
is written to memory at once and leaves the snoop of its head open until the BIRsp (Table 7-8 note 4); when that snoop has
ended, it is an ordinary Write (R192). -/
def Dev.recallData (d : Dev) (m : Msg) : Dev :=
  let d := d.takeMsg m
  match m.agent with
  | .cache n =>
    d.onAnswer n.toNat m fun t s =>
      ({ t with data := (sectList m.sects).foldl (fun l k => Line.setSector l k (Line.sector m.data k)) t.data,
                got := t.got ||| m.sects, dirty := t.dirty ||| m.excl, kept := t.kept ||| m.own } : Txn).close s
  | .head h =>
    if d.weave.txns.any (fun t => t.2.waits.any (fun s => s.answers (4096 + h.toNat) m)) then
      d.writeLine m.line.toNat m.mask m.data m.poison false
    else d.homeMem { kind := .write, src := m.agent, tag := m.tag, line := m.line, sects := m.sects, data := m.data,
                     mask := m.mask, poison := m.poison, wing := m.wing }
  | _ => d

/-- Before a head's BIRsp closes its snoop, the home takes the MemWr of the sector that its host sent before: it still
waits as a WriteBack (Table 7-8 note 4; the race of Table 7-9 at a head). -/
def Dev.takeMemWr (d : Dev) (h : HeadId) (m : Msg) : Dev :=
  let mine (r : Req) : Bool := r.kind = .writeBack && r.src = .head h && r.line = m.line && r.sects = m.sects
  let w := d.weave
  match (w.wbq ++ w.waitQ ++ w.held ++ w.reqs).filter mine with
  | [] => d
  | rs =>
    let no (l : List Req) : List Req := l.filter (fun r => !mine r)
    let d : Dev := { d with weave := { w with wbq := no w.wbq, waitQ := no w.waitQ, held := no w.held, reqs := no w.reqs } }
    rs.foldl (fun (d : Dev) r => (d.writeLine r.line.toNat r.mask r.data r.poison false).sendMsg
      { kind := .comp, agent := r.src, tag := r.tag, line := r.line, sects := r.sects }) d

/-- RecallAck and InvAck: answered without data.  A BIRspS keeps a copy. -/
def Dev.recallAck (d : Dev) (m : Msg) : Dev :=
  let d := d.takeMsg m
  match m.agent.tracked with
  | none => d
  | some id =>
    let d := match m.agent with
      | .head h =>
        if d.weave.txns.any (fun t => t.2.waits.any (fun s => s.answers id m)) then d.takeMemWr h m else d
      | _ => d
    d.onAnswer id m fun t s => ({ t with kept := t.kept ||| m.own } : Txn).close s

/-- The silent holder of an expired snoop (R191). -/
def Dev.snoopDead (d : Dev) (key : Nat) (s : Snoop) : Dev :=
  match d.txn key with
  | none => d
  | some t =>
    let line := s.line.toNat
    let e := d.ent line
    let ids := match s.tgt with | .agent id => [id] | .tile _ => []
    let dead := (sectList s.sects).filter (fun k =>
      ((e.sec k).st = .excl || (e.sec k).st = .owned) && ids.contains (e.sec k).owner)
    let d4 := dead.foldl (fun (x : BitVec 4) k => setBit4 x k) 0
    let e := ids.foldl (fun e id => e.dropSharer id) e
    let m := d.home (256 * line)
    let d := d.setTxn key { t with waits := eraseOne s t.waits, dead := t.dead ||| d4 }
    -- remaining sharers of a poisoned sector are invalidated
    let (ws, d) := dead.foldl (fun (x : List Snoop × Dev) k =>
      if (e.sec k).st = .owned && !(t.waits.any (fun w => w.kind = .invalidate && w.sects.getLsbD k)) then
        let (w, d) := x.2.snoopSharers line e ((1 : BitVec 4) <<< k) none; (x.1 ++ w, d) else x) (([] : List Snoop), d)
    let d := match d.txn key with
      | some t => d.setTxn key { t with waits := t.waits ++ ws }
      | none => d
    let d := d.setEnt line e
    let obj := match s.tgt with | .agent id => id | .tile t => t.toNat
    let d := (d.satAdd Fld.CAT_STATS_RECALL_TIMEOUTS m 1).report (homeSrc m 1) (mkDetail (256 * line) obj 0) (d.extentWing (256 * line))
    d.advance key

/-- Snoops addressed to an ABSENT head complete at once by the outcome of R191 (R193). -/
def Dev.absentSnoops (d : Dev) : Nat → Dev
  | 0 => d
  | k + 1 =>
    match d.weave.txns.findSome? (fun t => (t.2.waits.find? (fun s => match s.tgt with
        | .agent id => id ≥ 4096 && d.weave.absent.getLsbD (id - 4096)
        | .tile _ => false)).map (fun s => (t.1, s))) with
    | some (key, s) => (d.snoopDead key s).absentSnoops k
    | none => d

/-- Bound on the snoops open to heads at any time. -/
def Dev.settleAbsent (d : Dev) : Dev := d.absentSnoops (d.weave.txns.foldl (fun n t => n + t.2.waits.length) 0 + 4)

/-! ### Requests outside populated memory -/

/-- R23 and R244: reads answer poison, writes are acknowledged and discarded, and the M-die reports at k = 0. -/
def Dev.strayReq (d : Dev) (r : Req) (m : Nat) (code : Nat) : Dev :=
  let d := d.report (homeSrc (m % 4) 0) (mkDetail (256 * r.line.toNat) r.src.order code) r.wing.toNat
  match r.kind with
  | .write | .reduceWrite | .writeBack | .writeClean =>
    d.sendMsg { kind := .comp, agent := r.src, tag := r.tag, line := r.line, sects := r.sects }
  | .cleanEvict => d
  | _ => d.sendMsg { kind := .data, agent := r.src, tag := r.tag, line := r.line, sects := r.sects, poison := r.sects }

/-- Loom scratch as memory: forwarded to the loom without a catalogue lookup (R110, R172). -/
def Dev.scratchReq (d : Dev) (r : Req) (n off : Nat) : Dev :=
  match r.kind with
  | .write =>
    (d.scratchWriteLine n off r.mask r.data).sendMsg { kind := .comp, agent := r.src, tag := r.tag, line := r.line, sects := r.sects }
  | .atomic op =>
    let k := r.off.toNat / 64
    let s : Sector := BitVec.ofNat 512 (d.scratchRead n (off + 64 * k) 64)
    let (s', old) := atomSector r op s
    (d.scratchWrite n (off + 64 * k) 64 s'.toNat).sendMsg
      { kind := .data, agent := r.src, tag := r.tag, line := r.line, sects := r.sects, data := old.setWidth 2048 }
  | .readOnce =>
    d.sendMsg { kind := .data, agent := r.src, tag := r.tag, line := r.line, sects := r.sects,
                data := BitVec.ofNat 2048 (d.scratchRead n off 256) }
  | _ => d.strayReq r (loomDie n) 0

/-- A home, or the M-die that serves the range, handles a request (R172). -/
def Dev.homeReq (d : Dev) (r : Req) : Dev :=
  let d := d.takeReq r
  let a := 256 * r.line.toNat
  match d.range a with
  | .memory => (d.homeMem r).settleAbsent
  | .redAlias u =>
    match r.kind with
    | .reduceWrite | .write =>
      (d.homeMem { r with kind := .reduceWrite, line := BitVec.ofNat 40 (u / 256) }).settleAbsent
    | _ => d.strayReq r (d.home u) 1
  | .scratch n off => d.scratchReq r n off
  | .remote _ _ => d.strayReq r (d.dieOf r.src) 0
  | .nothing =>
    let m := if scratchBase ≤ a ∧ a < scratchBase + 4096 * MiB then loomDie ((a - scratchBase) / MiB) else d.dieOf r.src
    d.strayReq r m 0

/-- COMP_ACK: the requester's receipt ends the transaction (R175). -/
def Dev.compAck (d : Dev) (m : Msg) : Dev :=
  let d := d.takeMsg m
  let line := m.line.toNat
  match d.txn line with
  | some t =>
    if t.phase = .ack && t.req.src = m.agent then
      (d.endTxn line).releaseLine line
    else d
  | none => d

/-- STASH_ACK: EXCL at the loom when it installed, else UNCACHED; the line becomes free (R190). -/
def Dev.stashAck (d : Dev) (m : Msg) : Dev :=
  let d := d.takeMsg m
  let line := m.line.toNat
  match d.txn line, m.agent.tracked with
  | some t, some id =>
    if t.phase = .stash then
      let d := d.setEnt line (if m.ok then (sectList m.sects).foldl (fun e k => e.giveExcl k id) (d.ent line) else d.ent line)
      (d.endTxn line).releaseLine line
    else d
  | _, _ => d

/-- HOME_TIMEOUT_EXPIRY: the first snoop of an agent for a line whose timer has run out (R191). -/
def Dev.snoopExpiry (d : Dev) (line : Nat) (id : Nat) : Dev :=
  match d.weave.txns.find? (fun t => t.2.waits.any (fun s => s.matches id line && s.deadline ≤ d.tick)) with
  | none => d
  | some (k, t) =>
    match t.waits.find? (fun s => s.matches id line && s.deadline ≤ d.tick) with
    | none => d
    | some s => (d.snoopDead k s).settleAbsent

/-- A head goes ABSENT: open snoops to it complete, ATC entries drop, its sweep begins (R193, R283). -/
def Dev.headAbsent (d : Dev) (h : HeadId) : Dev :=
  let bit := (1 : BitVec 16) <<< h.toNat
  let d := { d with weave := { d.weave with absent := d.weave.absent ||| bit, sweeping := d.weave.sweeping ||| bit },
                    trans := { d.trans with atc := d.trans.atc.filter (fun a => a.head ≠ h) } }
  d.settleAbsent

/-- CATALOGUE_SWEEP_COMPLETE: every home poisons what the head held in EXCL, removes the head from every entry and
reports at its source k = 2 (R193). -/
def Dev.sweep (d : Dev) (h : HeadId) : Dev :=
  if !d.weave.sweeping.getLsbD h.toNat then d else
  let id := 4096 + h.toNat
  let lines := Fmap.keys d.weave.cat
  let excl (d : Dev) (line : Nat) : List Nat :=
    (List.range 4).filter (fun k => ((d.ent line).sec k).st = .excl && ((d.ent line).sec k).owner = id)
  let count (m : Nat) : Nat := lines.foldl (fun n l => if d.home (256 * l) = m then n + (excl d l).length else n) 0
  let counts := (List.range 4).map count
  let d := lines.foldl (fun (d : Dev) line =>
    let ks := excl d line
    let s4 := ks.foldl (fun (x : BitVec 4) k => setBit4 x k) 0
    let d := if s4 = 0 then d else d.poisonLine line s4
    d.setEnt line (ks.foldl (fun e k => e.drop k) ((d.ent line).dropSharer id))) d
  let d := (List.range 4).foldl (fun (d : Dev) m =>
    d.report (homeSrc m 2) (counts.getD m 0 % 2 ^ 48 * 2 ^ 80 + h.toNat * 2 ^ 64) noWing) d
  { d with weave := { d.weave with sweeping := d.weave.sweeping &&& ~~~((1 : BitVec 16) <<< h.toNat) } }

/-! ### Whole reads and writes inside one step

Conservators, walkers, queues and scrubs access memory with ReadOnce and Write (R242, R275, R297).  Where such an access is
part of a larger indivisible step, the home resolves the copies of loom caches within that step.  A copy of a host is
recalled, or given up, beforehand by a request of the engine, which the host answers in its own time (Table 7-8 notes 3
and 4). -/

/-- Sector k's copy in a loom's cache or eviction buffer: its state, data. -/
def CLine.st (l : CLine) : Nat → Moesi
  | 0 => l.s0 | 1 => l.s1 | 2 => l.s2 | _ => l.s3
def CLine.setSt (l : CLine) (k : Nat) (st : Moesi) : CLine :=
  match k with
  | 0 => { l with s0 := st } | 1 => { l with s1 := st } | 2 => { l with s2 := st } | _ => { l with s3 := st }

/-- The cached line of a DPA line, with its key. -/
def Loom.findLine (l : Loom) (line : BitVec 40) : Option (Nat × CLine) := l.cache.find? (fun c => c.2.line = line)
/-- The eviction buffer entry of a line. -/
def Loom.findEvict (l : Loom) (line : BitVec 40) : Option EvLine := l.evict.find? (fun e => e.l.line = line)

/-- The dirty data a loom holds for a sector. -/
def Loom.dirtyCopy (l : Loom) (line : BitVec 40) (k : Nat) : Option Sector :=
  match l.findLine line with
  | some (_, c) => if c.st k = .m || c.st k = .o then some (Line.sector c.data k) else none
  | none => match l.findEvict line with
    | some e => if e.l.st k = .m || e.l.st k = .o then some (Line.sector e.l.data k) else none
    | none => none

/-- Drops a sector of a loom's cache and eviction buffer. -/
def Loom.dropSector (l : Loom) (line : BitVec 40) (k : Nat) : Loom :=
  { l with cache := Fmap.mapAll (fun _ c => if c.line = line then c.setSt k .i else c) l.cache,
           evict := l.evict.map (fun e => if e.l.line = line then { e with l := e.l.setSt k .i } else e) }

/-- A whole access to a line can happen now: no transaction keeps it busy and its page is not HELD (R175, Table 8-6). -/
def Dev.lineOpen (d : Dev) (line : Nat) : Bool := !d.lineTaken line && !d.pageHeld line

/-- A head is recorded as owner of a sector. -/
def Dev.headOwns (d : Dev) (line k : Nat) : Bool :=
  let s := (d.ent line).sec k
  (s.st = .excl || s.st = .owned) && decide (4096 ≤ s.owner) && decide (s.owner < 4112)

/-- A head is recorded as holder of a sector. -/
def Dev.headHolds (d : Dev) (line k : Nat) : Bool :=
  let e := d.ent line
  let s := e.sec k
  d.headOwns line k || ((s.st = .shared || s.st = .owned) && (e.heads ≠ 0 || e.ptrs.any (fun i => decide (4096 ≤ i))))

/-- Sectors of a line that an engine has to have recalled before it reads them. -/
def Dev.toRecall (d : Dev) (w : Work) (line : Nat) (sects : BitVec 4) : BitVec 4 :=
  ((sectList sects).filter (fun k => d.headOwns line k &&
    !d.weave.asks.any (fun a => a.work = w && a.line = line && !a.write && a.done && a.sects.getLsbD k))).foldl setBit4 0

/-- Sectors of a line that heads have to give up before an engine writes them. -/
def Dev.toClear (d : Dev) (line : Nat) (sects : BitVec 4) : BitVec 4 :=
  ((sectList sects).filter (d.headHolds line)).foldl setBit4 0

/-- An engine can read, or write, sectors of a line now. -/
def Dev.canRead (d : Dev) (w : Work) (line : Nat) (sects : BitVec 4) : Bool := d.lineOpen line && d.toRecall w line sects = 0
def Dev.canWrite (d : Dev) (line : Nat) (sects : BitVec 4) : Bool := d.lineOpen line && d.toClear line sects = 0

/-- An engine asks the home for sectors that a head holds, unless it waits for the line already. -/
def Dev.ask (d : Dev) (w : Work) (line : Nat) (sects : BitVec 4) (write : Bool) : Dev :=
  if sects = 0 || d.weave.asks.any (fun a => a.work = w && a.line = line && !a.done) then d else
  let (tag, d) := d.newTag
  let v := { d.weave with asks := d.weave.asks ++ [{ work := w, line := line, sects := sects, tag := tag, write := write }] }
  ({ d with weave := v } : Dev).sendReq
    { kind := if write then .write else .readOnce, src := .engine w, tag := tag, line := BitVec.ofNat 40 line, sects := sects }

/-- Asks for what a read, or a write, of sectors still needs. -/
def Dev.askRead (d : Dev) (w : Work) (line : Nat) (sects : BitVec 4) : Dev := d.ask w line (d.toRecall w line sects) false
def Dev.askWrite (d : Dev) (w : Work) (line : Nat) (sects : BitVec 4) : Dev := d.ask w line (d.toClear line sects) true

/-- A home has answered an engine: a recall stays noted until the engine has read, a cleared line needs no note. -/
def Dev.asked (d : Dev) (tag : Nat) : Dev :=
  let l := d.weave.asks.filter (fun a => !(a.tag = tag && a.write))
  { d with weave := { d.weave with asks := updateIf (fun a => a.tag = tag) (fun a => { a with done := true }) l } }

/-- The engine's work begins or ends: what it asked before is forgotten. -/
def Dev.endAsks (d : Dev) (w : Work) : Dev := { d with weave := { d.weave with asks := d.weave.asks.filter (fun a => a.work ≠ w) } }

/-- A coherent read of sectors of a line inside a step (ReadOnce of Table 7-8): a loom's dirty copy, else memory. -/
def Dev.readNow (d : Dev) (line : Nat) (sects : BitVec 4) : Line × BitVec 4 × Dev :=
  let e := d.ent line
  let copy (k : Nat) : Option Sector :=
    let s := e.sec k
    if (s.st = .excl || s.st = .owned) && decide (s.owner < 4096) then (d.loom (BitVec.ofNat 12 s.owner)).dirtyCopy (BitVec.ofNat 40 line) k
    else none
  let need := ((sectList sects).filter (fun k => (copy k).isNone)).foldl setBit4 (0 : BitVec 4)
  let (l, p, d) := if need = 0 then ((0 : Line), (0 : BitVec 4), d) else d.readLine line need
  ((sectList sects).foldl (fun (x : Line) k => match copy k with | some v => Line.setSector x k v | none => x) l, p &&& need, d)

/-- Loom caches drop their copies of a sector, whose record becomes UNCACHED. -/
def Dev.dropCopies (d : Dev) (line k : Nat) : Dev :=
  let e := d.ent line
  let s := e.sec k
  if s.st = .uncached then d else
  let owners := if s.st = .excl || s.st = .owned then [s.owner] else []
  let sh := if e.coarse then (List.range 4096).filter (fun n => e.tiles.getLsbD (loomTile n)) else e.ptrs
  let d := ((owners ++ sh).filter (fun id => decide (id < 4096))).foldl (fun (d : Dev) id =>
    d.setLoom (BitVec.ofNat 12 id) ((d.loom (BitVec.ofNat 12 id)).dropSector (BitVec.ofNat 40 line) k)) d
  d.setEnt line (e.drop k)

/-- A coherent write inside a step (Write of Table 7-8): copies drop, partly written sectors merge into current data. -/
def Dev.writeNow (d : Dev) (line : Nat) (mask : BitVec 256) (data : Line) (poison : BitVec 4) (hint : Bool) : Dev :=
  let ks := (List.range 4).filter (fun k => maskSector mask k ≠ 0)
  let part (k : Nat) : Bool := maskSector mask k ≠ BitVec.allOnes 64
  -- dirty copies of partly written sectors merge in the home's buffer
  let dirty (k : Nat) : Option Sector :=
    let s := (d.ent line).sec k
    if part k && (s.st = .excl || s.st = .owned) && decide (s.owner < 4096)
    then (d.loom (BitVec.ofNat 12 s.owner)).dirtyCopy (BitVec.ofNat 40 line) k else none
  let (mask, data) := ks.foldl (fun (x : BitVec 256 × Line) k => match dirty k with
    | some v => (x.1 ||| fullMask k, Line.setSector x.2 k (mergeSector v (Line.sector data k) (maskSector mask k)))
    | none => x) (mask, data)
  (ks.foldl (fun (d : Dev) k => d.dropCopies line k) d).writeLine line mask data poison hint

/-- A ReduceWrite inside a step (R188, R243). -/
def Dev.reduceNow (d : Dev) (line : Nat) (mask : BitVec 256) (data : Line) : Dev :=
  let ks := (List.range 4).filter (fun k => maskSector mask k ≠ 0)
  ks.foldl (fun (d : Dev) k =>
    let (v, p, d) := d.readNow line ((1 : BitVec 4) <<< k)
    let d := d.dropCopies line k
    let (v', d) := d.reduceSector (256 * line + 64 * k) (Line.sector v k) (p.getLsbD k) (maskSector mask k) (Line.sector data k)
    if p.getLsbD k then d else d.writeLine line (fullMask k) (Line.setSector 0 k v') 0 false) d

/-- Sends a Stash of fully written sectors toward a loom, as a transaction of its own (R189, R190). -/
def Dev.stashNow (d : Dev) (line : Nat) (ss : BitVec 4) (data : Line) (n : LoomId) (w : Nat) : Dev :=
  if ss = 0 then d
  else
    let (tag, d) := d.newTag
    let r : Req := { kind := .write, src := .courier 0, tag := tag, line := BitVec.ofNat 40 line, sects := ss, data := data,
                     wing := BitVec.ofNat 4 w, place := BitVec.ofNat 14 (2 ^ 12 + n.toNat) }
    let t : Txn := { req := r, phase := .room, todo := 0, push := true }
    (d.setTxn line t).releaseLine line

end Sys2Proof.Machine
end

