-- ==== Sys2Proof/Machine/Translate.lean ====
section
/-! DEFINITION. Address translation (spec/11): page table entries, walks, translation caches, access checks, fault
records and their queue, invalidation, access counters. -/

namespace Sys2Proof.Machine

/-! ### Entries (Table 11-2) -/

def pteValid (e : W64) : Bool := e.getLsbD 0
def pteLeaf (e : W64) : Bool := e.getLsbD 1
def pteWrite (e : W64) : Bool := e.getLsbD 2
def pteExec (e : W64) : Bool := e.getLsbD 3
def pteAttr (e : W64) : Nat := (e.extractLsb' 4 3).toNat
def pteHost (e : W64) : Bool := e.getLsbD 7
def pteAcc (e : W64) : Bool := e.getLsbD 8
/-- ADDR: a DPA. -/
def pteAddr (e : W64) : Nat := (e.extractLsb' 12 52).toNat * 4096
/-- Host leaf: HEAD and the I/O virtual address of its frame. -/
def pteHead (e : W64) : HeadId := e.extractLsb' 60 4
def pteIova (e : W64) : Nat := (e.extractLsb' 12 48).toNat * 4096

/-- Attribute codes of Table 6-2. -/
def attrNormal : Nat := 0
def attrStream : Nat := 1
def attrDeviceEa : Nat := 2
def attrDeviceNe : Nat := 3
def attrAlias : Nat := 4

def pageBytes (big : Bool) : Nat := if big then 4 * GiB else 64 * MiB

/-- Fault causes (Table 11-5). -/
inductive Cause
  | notPresent | hostFault | writeDenied | execDenied | attrDenied | malformed | wingDenied | tablePoison | range
  | disabled | hot
  deriving DecidableEq, Repr

def Cause.code : Cause → Nat
  | .notPresent => 0 | .hostFault => 1 | .writeDenied => 2 | .execDenied => 3 | .attrDenied => 4 | .malformed => 5
  | .wingDenied => 6 | .tablePoison => 7 | .range => 8 | .disabled => 9 | .hot => 10

def Cause.resumable : Cause → Bool
  | .notPresent | .hostFault => true
  | _ => false


/-- A fault with the level and address of the failing entry (Table 11-6). -/
structure TrFault where
  cause : Cause
  level : Nat := 7
  addr : Nat := 0
  deriving DecidableEq, Repr

/-! ### Engines -/

/-- Die of an engine: 0–3 compute, 4–7 X-die. -/
def Dev.engineDie (d : Dev) : Engine → Nat
  | .treadle n | .ifetch n | .storeBuf n => loomDie n.toNat
  | .xfer n _ => loomDie n.toNat
  | .courier c | .compl c _ => 4 + d.courierXdie c

def Engine.loom? : Engine → Option LoomId
  | .treadle n | .ifetch n | .storeBuf n => some n
  | .xfer n _ => some n
  | .courier _ | .compl _ _ => none

/-- CLASS and ENGINE of a record (Table 11-6). -/
def Engine.cls : Engine → Nat
  | .treadle _ | .ifetch _ | .storeBuf _ => 0
  | .xfer _ _ => 1
  | .courier _ | .compl _ _ => 2
def Engine.no : Engine → Nat
  | .treadle n | .ifetch n | .storeBuf n => n.toNat
  | .xfer n _ => n.toNat
  | .courier c | .compl c _ => c.toNat

/-! ### Translation caches (Table 11-4) -/

def Tlb.hits (t : Tlb) (w : Nat) (va : Nat) : Bool := t.wing.toNat = w && t.va / pageBytes t.big = va / pageBytes t.big

/-- Adds an entry to a cache of a size; the oldest entry is dropped when it is full. -/
def cacheAdd {α : Type} [DecidableEq α] (cap : Nat) (l : List α) (x : α) : List α :=
  let l := l.filter (· ≠ x) ++ [x]
  l.drop (l.length - cap)

def Dev.dieTlb (d : Dev) (i : Nat) : List Tlb := Fmap.get [] d.trans.dieTlb i

/-- Adds an entry to a set-associative cache of 8 ways: the oldest entry of its set is dropped when the set is full. -/
def setAdd {α : Type} [DecidableEq α] (same : α → Bool) (l : List α) (x : α) : List α :=
  let l := l.filter (· ≠ x)
  match l.filter same with
  | y :: r => if r.length + 1 ≥ 8 then eraseOne y l ++ [x] else l ++ [x]
  | [] => l ++ [x]

/-- Sets of 8 ways of a die or courier TLB (Table 11-4). -/
def dieTlbSets (i : Nat) : Nat := if i < 4 then 1024 else 256

/-- Two entries of one set: the low bits of the 64 MiB page number are the index (DESIGN CHOICE, notes/assumptions/60.md). -/
def sameTlbSet (sets : Nat) (x y : Tlb) : Bool := x.va / (64 * MiB) % sets = y.va / (64 * MiB) % sets

/-- ATC entries of one set: 512 sets on each X-die, four heads to an X-die, indexed by the 4 KiB page number (DESIGN CHOICE,
notes/assumptions/60.md). -/
def sameAtcSet (x y : Atc) : Bool := x.head.toNat / 4 = y.head.toNat / 4 && x.iova / 4096 % 512 = y.iova / 4096 % 512

/-- Looks a page up in the engine's caches; a die TLB hit fills the loom TLB. -/
def Dev.tlbLookup (d : Dev) (e : Engine) (w va : Nat) : Option Tlb × Dev :=
  let die := d.engineDie e
  match e.loom? with
  | some n =>
    match (d.loom n).tlb.find? (fun t => t.hits w va) with
    | some t => (some t, d)
    | none =>
      match (d.dieTlb die).find? (fun t => t.hits w va) with
      | some t => (some t, d.setLoom n { d.loom n with tlb := cacheAdd 32 (d.loom n).tlb t })
      | none => (none, d)
  | none => ((d.dieTlb die).find? (fun t => t.hits w va), d)

/-- A walk's leaf enters the die TLB and the loom TLB of the engine (R280). -/
def Dev.tlbFill (d : Dev) (e : Engine) (t : Tlb) : Dev :=
  let die := d.engineDie e
  let ts := Fmap.put d.trans.dieTlb die (setAdd (sameTlbSet (dieTlbSets die) t) (d.dieTlb die) t)
  let d := { d with trans := { d.trans with dieTlb := ts } }
  match e.loom? with
  | some n => d.setLoom n { d.loom n with tlb := cacheAdd 32 (d.loom n).tlb t }
  | none => d

/-- The page-walk cache's pointer for a key (level 2: VA[55:44]; level 1: 2^24 + VA[55:32]). -/
def Dev.pwcFind (d : Dev) (die w key : Nat) : Option W64 :=
  ((Fmap.get [] d.trans.pwc die).find? (fun p => p.1.toNat = w && p.2.1 = key)).map (fun p => p.2.2)

def Dev.pwcAdd (d : Dev) (die w key : Nat) (e : W64) : Dev :=
  let ps := Fmap.put d.trans.pwc die (cacheAdd 512 (Fmap.get [] d.trans.pwc die) (BitVec.ofNat 4 w, key, e))
  { d with trans := { d.trans with pwc := ps } }

/-! ### Walks (R275 to R278) -/

/-- A range of bytes that lies in a wing's extents; granules are never smaller than 64 MiB. -/
def Dev.inWing (d : Dev) (w lo len : Nat) : Bool :=
  (List.range (len / (64 * MiB) + 1)).all (fun i => d.extentWing (lo + 64 * MiB * i) = w) && d.extentWing (lo + len - 1) = w

/-- One 8-byte ReadOnce through the home; none when the sector is poisoned. -/
def Dev.read8 (d : Dev) (a : Nat) : Option W64 × Dev :=
  let k := a / 64 % 4
  let (l, p, d) := d.readNow (a / 256) ((1 : BitVec 4) <<< k)
  (if p.getLsbD k then none else some (l.extractLsb' (8 * (a % 256)) 64), d)

/-- check_pointer of R275 (R276, R277): the table an entry points to. -/
def Dev.checkPointer (d : Dev) (w lvl : Nat) (at_ : Nat) (e : W64) : Option TrFault :=
  if !pteValid e then some ⟨.notPresent, lvl, at_⟩
  else if pteLeaf e || e.extractLsb' 2 10 ≠ 0 || e.extractLsb' 48 16 ≠ 0 then some ⟨.malformed, lvl, at_⟩
  else
    let len := if lvl = 2 then 32768 else 512
    if (lvl = 2 && pteAddr e % 32768 ≠ 0) || !d.inWing w (pteAddr e) len then some ⟨.malformed, lvl, at_⟩ else none

/-- The checks of a valid leaf (R277, R278). -/
def checkLeaf (lvl : Nat) (big : Bool) (at_ : Nat) (e : W64) : Option TrFault :=
  let bad := some (⟨.malformed, lvl, at_⟩ : TrFault)
  if e.extractLsb' 9 3 ≠ 0 then bad
  else if pteHost e then
    if pteIova e % pageBytes big ≠ 0 || pteExec e || pteAttr e = attrAlias then bad else none
  else
    let a := pteAddr e
    if a % pageBytes big ≠ 0 || a ≥ 2 ^ 48 || (aliasBase ≤ a && a < remoteBase) || (pteAttr e = attrAlias && a ≥ aliasBase)
    then bad else none

inductive WalkRes
  /-- the line of an entry is busy: the ReadOnce waits -/
  | wait
  | leaf (big : Bool) (e : W64)
  | fault (f : TrFault)
  deriving DecidableEq, Repr

/-- An entry of a table, read through its home or taken from the page-walk cache; a poisoned read faults, a busy line or a
host's copy makes the walk wait. -/
def Dev.walkEntry (d : Dev) (wk : Work) (cached : Option W64) (a : Nat) (lvl : Nat) : Except WalkRes W64 × Dev :=
  match cached with
  | some e => (.ok e, d)
  | none =>
    let ss := setBit4 0 (a / 64 % 4)
    if !d.canRead wk (a / 256) ss then (.error .wait, d.askRead wk (a / 256) ss)
    else match d.read8 a with
      | (some e, d) => (.ok e, d)
      | (none, d) => (.error (.fault ⟨.tablePoison, lvl, a⟩), d)

/-- The last level of a walk. -/
def Dev.walk0 (d : Dev) (wk : Work) (e1 : W64) (va : Nat) : WalkRes × Dev :=
  let a0 := pteAddr e1 + 8 * (va / 2 ^ 26 % 64)
  match d.walkEntry wk none a0 0 with
  | (.error r, d) => (r, d)
  | (.ok e0, d) =>
    if !pteValid e0 then (.fault ⟨.notPresent, 0, a0⟩, d)
    else if !pteLeaf e0 then (.fault ⟨.malformed, 0, a0⟩, d)
    else match checkLeaf 0 false a0 e0 with
      | some f => (.fault f, d)
      | none => (.leaf false e0, d)

/-- walk(w, va) of R275 by a walker of a die; valid pointers enter its page-walk cache. -/
def Dev.walk (d : Dev) (wk : Work) (die w : Nat) (va : Nat) : WalkRes × Dev :=
  if d.fld Fld.TRANS_ROOT_ENABLE w = 0 then (.fault ⟨.disabled, 7, 0⟩, d)
  else
    let root := d.fld Fld.TRANS_ROOT_ROOT w * 2 ^ 15
    if !d.inWing w root 32768 then (.fault ⟨.malformed, 7, root⟩, d)
    else
      let k2 := va / 2 ^ 44 % 4096
      let a2 := root + 8 * k2
      match d.walkEntry wk (d.pwcFind die w k2) a2 2 with
      | (.error r, d) => (r, d)
      | (.ok e2, d) =>
        match d.checkPointer w 2 a2 e2 with
        | some f => (.fault f, d)
        | none =>
          let d := d.pwcAdd die w k2 e2
          let k1 := 2 ^ 24 + va / 2 ^ 32 % 2 ^ 24
          let a1 := pteAddr e2 + 8 * (va / 2 ^ 32 % 4096)
          match d.walkEntry wk (d.pwcFind die w k1) a1 1 with
          | (.error r, d) => (r, d)
          | (.ok e1, d) =>
            if pteValid e1 && pteLeaf e1 then
              match checkLeaf 1 true a1 e1 with
              | some f => (.fault f, d)
              | none => (.leaf true e1, d)
            else match d.checkPointer w 1 a1 e1 with
              | some f => (.fault f, d)
              | none => (d.pwcAdd die w k1 e1).walk0 wk e1 va

/-! ### Access checks (Table 11-3) -/

/-- Target of an access through a leaf: the DPA, in the alias for ALIAS_REDUCE; a host leaf's IOVA. -/
def leafTarget (t : Tlb) (va : Nat) : Nat :=
  if pteHost t.leaf then pteIova t.leaf + va % pageBytes t.big
  else pteAddr t.leaf + va % pageBytes t.big + (if pteAttr t.leaf = attrAlias then aliasBase else 0)

def Dev.isType2Of (d : Dev) (h : HeadId) (w : Nat) : Bool :=
  (d.fld Fld.HEAD_STATUS_PERSONALITY h.toNat = 1 || d.fld Fld.HEAD_STATUS_PERSONALITY h.toNat = 2)
    && d.fld Fld.HEAD_STATUS_WING h.toNat = w

/-- The wing may use a DPA (Table 11-3, last row). -/
def Dev.wingMay (d : Dev) (w : Nat) (a : Nat) : Bool :=
  if a < aliasBase then d.extentWing a = w
  else if a < remoteBase then d.extentWing (a - aliasBase) = w
  else if a < remoteBase + 8 * 2 ^ 41 then d.fldBit Fld.WING_STATE_WINDOWS w ((a - remoteBase) / 2 ^ 41)
  else if scratchBase ≤ a ∧ a < scratchBase + 4096 * MiB then
    d.wingOf (BitVec.ofNat 12 ((a - scratchBase) / MiB)) = w
  else true

/-- Table 11-3, in its order; an instruction fetch from an alias page is denied whatever its EXEC bit says (R156). -/
def Dev.accessCheck (d : Dev) (w : Nat) (k : AccKind) (t : Tlb) (va : Nat) : Option Cause :=
  let e := t.leaf
  let wr := k = .store || k = .atomic
  if wr && !pteWrite e then some .writeDenied
  else if k = .exec && pteAttr e = attrAlias then some .attrDenied
  else if k = .exec && !pteExec e then some .execDenied
  else if pteAttr e ≥ 5 || (pteAttr e = attrAlias && k ≠ .store && k ≠ .hint) || (k = .atomic && pteHost e) then some .attrDenied
  else if pteHost e then
    let h := pteHead e
    if !d.isType2Of h w || ((d.head h).up && !(d.head h).cxl) then some .wingDenied else none
  else if d.wingMay w (leafTarget t va) then none else some .wingDenied

/-! ### Fault records (R286 to R288, Table 11-6) -/

def Dev.fqSize (d : Dev) (w : Nat) : Nat := 64 * 2 ^ min 6 (d.fld Fld.FQ_BASE_SIZE w)

/-- The fault queue takes a record now: its ring lies in the wing and is not full (R288, R295). -/
def Dev.fqOpen (d : Dev) (w : Nat) : Bool :=
  let n := d.fqSize w
  d.inWing w (d.fld Fld.FQ_BASE_BASE w * 4096) (32 * n)
    && (d.fld Fld.FQ_PROD_PROD w + 1) % n ≠ d.fld Fld.FQ_CONS_CONS w % n

/-- The 32 bytes of a record. -/
def FRec.bytes (r : FRec) (tick : Nat) (res : Bool) : Nat :=
  let b (x : Bool) : Nat := if x then 1 else 0
  let q1 := (if res then r.tag else 0) * 2 ^ 48 + r.joined % 2 ^ 16 * 2 ^ 32 + r.cause * 2 ^ 24 + b res * 2 ^ 23
    + b r.write * 2 ^ 22 + b r.exec * 2 ^ 21 + r.level * 2 ^ 18 + r.cls * 2 ^ 16 + r.engineNo
  r.va.toNat % 2 ^ 56 + q1 * 2 ^ 64 + r.addr.toNat * 2 ^ 128 + tick % 2 ^ 48 * 2 ^ 192

/-- Writes a record at slot FQ_PROD, advances FQ_PROD, and raises the interrupt (R288). -/
def Dev.fqWrite (d : Dev) (r : FRec) (res : Bool) : Dev :=
  let w := r.wing.toNat
  let p := d.fld Fld.FQ_PROD_PROD w
  let a := d.fld Fld.FQ_BASE_BASE w * 4096 + 32 * p
  let o := a % 256
  let d := d.writeNow (a / 256) ((BitVec.allOnes 32).setWidth 256 <<< o) (BitVec.ofNat 2048 (r.bytes d.tick res) <<< (8 * o)) 0 false
  let d := d.setFld Fld.FQ_PROD_PROD w ((p + 1) % d.fqSize w)
  if d.fld Fld.TRANS_CTRL_IRQ_EN w = 1
  then d.interrupt (BitVec.ofNat 4 (d.fld Fld.TRANS_CTRL_IRQ_HEAD w)) (d.fld Fld.TRANS_CTRL_VECTOR w) else d

/-- DPA of slot FQ_PROD. -/
def Dev.fqSlot (d : Dev) (w : Nat) : Nat := d.fld Fld.FQ_BASE_BASE w * 4096 + 32 * d.fld Fld.FQ_PROD_PROD w

/-- The line of slot FQ_PROD can be written now. -/
def Dev.fqLine (d : Dev) (w : Nat) : Bool := d.canWrite (d.fqSlot w / 256) (setBit4 0 (d.fqSlot w / 64 % 4))

/-- Asks for the line of slot FQ_PROD. -/
def Dev.fqAsk (d : Dev) (w : Nat) : Dev :=
  d.askWrite (.faults (BitVec.ofNat 4 w)) (d.fqSlot w / 256) (setBit4 0 (d.fqSlot w / 64 % 4))

/-- A record that no engine waits on is written, or discarded with OVERFLOW while the ring is full (R288). -/
def Dev.fqNote (d : Dev) (r : FRec) : Dev :=
  let w := r.wing.toNat
  if !d.fqOpen w then d.setFld Fld.FQ_PROD_OVERFLOW w 1
  else if d.fqLine w && !d.trans.fqWait.any (fun x => x.wing = r.wing) then d.fqWrite r false
  else ({ d with trans := { d.trans with fqWait := d.trans.fqWait ++ [r] } } : Dev).fqAsk w

/-- Writes the waiting resumable records of a wing, oldest first, while slots are free. -/
def Dev.fqFlush (w : Nat) : Nat → Dev → Dev
  | 0, d => d
  | k + 1, d =>
    match d.trans.recs.find? (fun r => r.wing.toNat = w && !r.written) with
    | none => d
    | some r =>
      if !d.fqOpen w then d
      else if !d.fqLine w then d.fqAsk w
      else
        let d := d.fqWrite r true
        let rs := updateIf (fun x : FRec => x.wing = r.wing && x.tag = r.tag) (fun x => { x with written := true }) d.trans.recs
        Dev.fqFlush w k { d with trans := { d.trans with recs := rs } }

def Dev.fqDrain (d : Dev) (w : Nat) : Dev := Dev.fqFlush w d.trans.recs.length d

/-- Records that waited for the line of their slot. -/
def Dev.fqRetry (d : Dev) : Dev :=
  let rs := d.trans.fqWait
  let d := rs.foldl Dev.fqNote { d with trans := { d.trans with fqWait := [] } }
  ((d.trans.recs.filter (fun r => !r.written)).map (fun r => r.wing.toNat)).dedup.foldl Dev.fqDrain d

/-- The next TAG of a wing: rising from 1, open tags and 0 skipped. -/
def Dev.freshTag (d : Dev) (w : Nat) : Nat :=
  let last := Fmap.get 0 d.trans.nextTag w
  ((List.range 300).map (fun i => (last + 1 + i) % 65536)).find? (fun t =>
    t ≠ 0 && !d.trans.recs.any (fun r => r.wing.toNat = w && r.tag = t)) |>.getD 1

/-- Opens a record in the pending table, and writes it when a slot is free. -/
def Dev.openRec (d : Dev) (r : FRec) : Dev :=
  let w := r.wing.toNat
  let t := d.freshTag w
  let tr := { d.trans with recs := d.trans.recs ++ [{ r with tag := t }], nextTag := Fmap.put d.trans.nextTag w t }
  Dev.fqDrain { d with trans := tr } w

/-- An engine with a resumable fault joins or opens a record, or waits for a slot of the table (R286). -/
def Dev.joinRec (d : Dev) (r : FRec) : Dev :=
  if d.trans.recs.any (fun x => x.wing = r.wing && x.page = r.page && x.cause = r.cause) then
    let rs := updateIf (fun x : FRec => x.wing = r.wing && x.page = r.page && x.cause = r.cause)
      (fun x => { x with engines := x.engines ++ r.engines, joined := x.joined + 1 }) d.trans.recs
    { d with trans := { d.trans with recs := rs } }
  else if (d.trans.recs.filter (fun x => x.wing = r.wing)).length < 256 then d.openRec r
  else { d with trans := { d.trans with unrecorded := d.trans.unrecorded ++ [r] } }

/-- Slots of the pending table are free: the oldest stalled engines without a record take them, or join a record that is open
by now (R286). -/
def Dev.fillGo (w : WingId) : Nat → Dev → Dev
  | 0, d => d
  | k + 1, d =>
    let room := (d.trans.recs.filter (fun x => x.wing = w)).length < 256
    match d.trans.unrecorded.find? (fun r => r.wing = w &&
        (room || d.trans.recs.any (fun x => x.wing = w && x.page = r.page && x.cause = r.cause))) with
    | some r => Dev.fillGo w k (Dev.joinRec { d with trans := { d.trans with unrecorded := eraseOne r d.trans.unrecorded } } r)
    | none => d

def Dev.fillRecs (d : Dev) (w : WingId) : Dev := Dev.fillGo w d.trans.unrecorded.length d

/-- A record whose last engine left closes; one never written sets OVERFLOW (R287, R288). -/
def Dev.closeEmpty (d : Dev) (w : WingId) : Dev :=
  let dead := d.trans.recs.filter (fun r => r.wing = w && r.engines.isEmpty)
  let d := { d with trans := { d.trans with recs := d.trans.recs.filter (fun r => !(r.wing = w && r.engines.isEmpty)) } }
  let d := if dead.any (fun r => !r.written) then d.setFld Fld.FQ_PROD_OVERFLOW w.toNat 1 else d
  if dead.isEmpty then d else d.fillRecs w

/-- Walkers of a die (Table 11-4). -/
def walkersOf (die : Nat) : Nat := if die < 4 then 16 else 8

/-- Two misses of one wing and one virtual page on one die (R281). -/
def Dev.sameWalk (d : Dev) (x y : Walk) : Bool :=
  x.wing = y.wing && x.va.toNat / (64 * MiB) = y.va.toNat / (64 * MiB) && d.engineDie x.engine = d.engineDie y.engine

/-- A walker of a die that holds no walk. -/
def Dev.freeWalker (d : Dev) (die : Nat) : Option Nat :=
  (List.range (walkersOf die)).find? (fun k => !d.trans.walks.any (fun x => d.engineDie x.engine = die && x.on = some k))

/-- Free walkers take waiting misses, oldest first; a miss whose page is being walked has joined that walk (R281). -/
def Dev.assignGo : Nat → Dev → Dev
  | 0, d => d
  | k + 1, d =>
    match d.trans.walks.find? (fun x => x.on.isNone && !d.trans.walks.any (fun y => y.on.isSome && d.sameWalk x y) &&
        (d.freeWalker (d.engineDie x.engine)).isSome) with
    | none => d
    | some x =>
      let ws := updateIf (· = x) (fun y => { y with on := d.freeWalker (d.engineDie x.engine) }) d.trans.walks
      Dev.assignGo k { d with trans := { d.trans with walks := ws } }

def Dev.assignWalkers (d : Dev) : Dev := Dev.assignGo d.trans.walks.length d

/-- The walker that runs a walk. -/
def Dev.walkWork (d : Dev) (x : Walk) : Work := .walker (BitVec.ofNat 7 (16 * d.engineDie x.engine + x.on.getD 0))

/-- Walks end: their walkers forget what they asked and take others. -/
def Dev.endWalks (d : Dev) (mine : Walk → Bool) : Dev :=
  let ended := d.trans.walks.filter mine
  if ended.isEmpty then d else
  let d := (ended.filter (fun x => x.on.isSome)).foldl (fun (d : Dev) x => d.endAsks (d.walkWork x)) d
  Dev.assignWalkers { d with trans := { d.trans with walks := d.trans.walks.filter (fun x => !mine x) } }

/-- An engine leaves its record, its walk and its ATS request. -/
def Dev.leaveRec (d : Dev) (e : Engine) : Dev :=
  let ws := ((d.trans.recs.filter (fun r => r.engines.any (fun x => x.1 = e))).map (·.wing)).dedup
  let tr := { d.trans with recs := d.trans.recs.map (fun r => { r with engines := r.engines.filter (fun x => x.1 ≠ e) }),
                           unrecorded := d.trans.unrecorded.filter (fun r => !r.engines.any (fun x => x.1 = e)),
                           ats := d.trans.ats.filter (fun x => x.engine ≠ e) }
  ws.foldl Dev.closeEmpty (Dev.endWalks { d with trans := tr } (fun x => x.engine = e))

/-! ### Outcomes of an engine (Table 11-5, R286, R287, R480) -/

def Dev.queue (d : Dev) (q : Nat) : CQueue := Fmap.get {} d.queues q
def Dev.setQueue (d : Dev) (q : Nat) (x : CQueue) : Dev := { d with queues := Fmap.put d.queues q x }

/-- Applies a function to the descriptor that a courier performs. -/
def Dev.onCourier (d : Dev) (c : BitVec 6) (f : Desc → Desc) : Dev :=
  { d with queues := Fmap.mapAll (fun _ x => { x with cur := x.cur.map (fun y => if y.courier = c then f y else y) }) d.queues }

/-- A descriptor ends early with a status; nothing further is issued (R312). -/
def Desc.endWith (x : Desc) (st : Nat) : Desc :=
  { x with status := st, stopAt := some (x.stopAt.getD x.pos), stalled := false, phase := .issued }

/-- A courier's access is denied or has timed out: its descriptor ends.  DESIGN CHOICE (notes/assumptions/43.md): a slot
that it cannot fetch for such a fault leaves the queue waiting for a doorbell. -/
def Dev.courierFault (d : Dev) (c : BitVec 6) (st : Nat) : Dev :=
  let d := d.onCourier c (fun x => x.endWith st)
  { d with queues := Fmap.mapAll (fun _ x => if x.courier = some c then { x with courier := none, fetch := .doorbell } else x) d.queues }

/-- The completion write that a queue is to make next is discarded: its translation was refused. -/
def Dev.complDrop (d : Dev) (q : QueueId) : Dev :=
  let x := d.queue q.toNat
  match x.rest with
  | y :: ys => d.setQueue q.toNat { x with rest := { y with dropped := true } :: ys }
  | [] => d

/-- The store that is to leave next: the oldest entry that has not been sent. -/
def Loom.nextStore (l : Loom) : Option StEnt := l.stb.find? (fun e => !e.sent)

/-- The store that a host fault stalled is discarded (R480). -/
def Dev.discardStore (d : Dev) (n : LoomId) : Dev :=
  let l := d.loom n
  match l.nextStore with
  | none => d
  | some e =>
    (d.setLoom n { l with stb := eraseOne e l.stb, lost := true, lostHost := true }).report (tileSrc n 1)
      (mkDetail e.va.toNat n.toNat 0) (d.wingOf n)

/-- The treadle's instruction was waiting for its translation and is sent again. -/
def Dev.unstall (d : Dev) (e : Engine) : Dev :=
  match e with
  | .treadle n | .ifetch n => if (d.loom n).stall = .walk then d.setLoom n { d.loom n with stall := .run } else d
  | .storeBuf n => d.setLoom n { d.loom n with stb := (d.loom n).stb.map (fun x => { x with stalled := false }) }
  | .xfer n id => d.setLoom n { d.loom n with xferRun := updateIf (fun x => x.id = id) (fun x => { x with stalled := false }) (d.loom n).xferRun }
  | .courier c => d.onCourier c (fun x => { x with stalled := false })
  | .compl _ _ => d

/-- A denied access: the engine's outcome in Table 11-5. -/
def Dev.deny (d : Dev) (e : Engine) (c : Cause) : Dev :=
  match e with
  | .treadle n => d.stop n (if c = .execDenied then .execDenied else .accessDenied)
  | .ifetch n => d.stop n (if c = .execDenied then .execDenied else .accessDenied)
  | .storeBuf n => d.discardStore n
  | .xfer n id => d.xferFault n id (if c = .wingDenied then .wingDenied else .translation) true
  | .courier c => d.courierFault c 2
  | .compl _ q => d.complDrop q

/-- The engine's fault timer ran out (R287, R480). -/
def Dev.timeOut (d : Dev) (e : Engine) : Dev :=
  match e with
  | .treadle n => d.stop n .translationTimeout
  | .ifetch n => d.stop n .translationTimeout
  | .storeBuf n => d.discardStore n
  | .xfer n id => d.xferFault n id .translation true
  | .courier c => d.courierFault c 3
  | .compl _ q => d.complDrop q

/-- The engine stops where it is until its translation is there. -/
def Dev.stallEngine (d : Dev) (e : Engine) : Dev :=
  match e with
  | .treadle n | .ifetch n => d.setLoom n { d.loom n with stall := .walk }
  | .storeBuf n => match (d.loom n).nextStore with
      | some e => d.setLoom n { d.loom n with stb := updateIf (· = e) (fun x => { x with stalled := true }) (d.loom n).stb }
      | none => d
  | .xfer n id => d.setLoom n { d.loom n with xferRun := updateIf (fun x => x.id = id) (fun x => { x with stalled := true }) (d.loom n).xferRun }
  | .courier c => d.onCourier c (fun x => { x with stalled := true })
  | .compl _ _ => d

/-- The record of a fault of an engine. -/
def Dev.mkRec (d : Dev) (e : Engine) (w : Nat) (va : W64) (k : AccKind) (big : Bool) (f : TrFault) : FRec :=
  { wing := BitVec.ofNat 4 w, tag := 0, page := va.toNat / pageBytes big * pageBytes big, va := va, cause := f.cause.code,
    engines := [(e, d.tick + d.fld Fld.TRANS_CTRL_TIMEOUT w * 1000)], write := k = .store || k = .atomic, exec := k = .exec,
    level := f.level, cls := e.cls, engineNo := e.no, addr := BitVec.ofNat 64 f.addr }

/-- A fault of an access: a hint is dropped, a resumable fault stalls the engine, any other denies it at once
(R285, R286). -/
def Dev.fault (d : Dev) (e : Engine) (w : Nat) (va : W64) (k : AccKind) (f : TrFault) (big : Bool := false) : Dev :=
  if k = .hint then d
  else
    let r := d.mkRec e w va k big f
    if f.cause.resumable then (d.stallEngine e).joinRec r
    else (d.fqNote r).deny e f.cause

/-! ### Translating an access -/

inductive TrRes
  /-- the leaf and the target: a DPA, or an IOVA for a host leaf -/
  | ok (t : Tlb) (a : Nat)
  /-- the engine waits for a walker -/
  | miss
  | fault (f : TrFault)
  deriving DecidableEq, Repr

/-- Translates and checks an access (R274, R279 to R281). -/
def Dev.translate (d : Dev) (e : Engine) (w : Nat) (va : W64) (k : AccKind) : TrRes × Dev :=
  if va.extractLsb' 56 8 ≠ 0 then (.fault ⟨.range, 7, 0⟩, d)
  else
    match d.tlbLookup e w va.toNat with
    | (none, d) =>
      let x : Walk := { engine := e, wing := BitVec.ofNat 4 w, va := va, kind := k }
      let d := if d.trans.walks.any (fun y => { y with on := none } = x) then d
        else Dev.assignWalkers { d with trans := { d.trans with walks := d.trans.walks ++ [x] } }
      (.miss, d.stallEngine e)
    | (some t, d) =>
      match d.accessCheck w k t va.toNat with
      | some c => (.fault ⟨c, 7, 0⟩, d)
      | none => (.ok t (leafTarget t va.toNat), d)

/-- The treadle of a loom goes on past its cache hint. -/
def Dev.dropHint (d : Dev) (e : Engine) : Dev :=
  match e with
  | .treadle n => (d.setLoom n { d.loom n with stall := .run }).nextPc n 4
  | _ => d

/-- PAGE_WALK: the walk that a walker runs for an engine; every miss of the same wing and page on its die takes the
result (R281). -/
def Dev.pageWalk (d : Dev) (e : Engine) : Dev :=
  match d.trans.walks.find? (fun x => x.engine = e && x.on.isSome) with
  | none => d
  | some x =>
    let die := d.engineDie e
    let (res, d) := d.walk (d.walkWork x) die x.wing.toNat x.va.toNat
    let page (y : Walk) : Bool := y.wing = x.wing && d.engineDie y.engine = die &&
      (match res with
        | .wait => false
        | .leaf big _ => y.va.toNat / pageBytes big = x.va.toNat / pageBytes big
        | .fault _ => y.va.toNat / (64 * MiB) = x.va.toNat / (64 * MiB))
    let mine := d.trans.walks.filter page
    match res with
    | .wait => d
    | .leaf big l =>
      mine.foldl (fun (d : Dev) y =>
        (d.tlbFill y.engine ⟨x.wing, x.va.toNat / pageBytes big * pageBytes big, big, l⟩).unstall y.engine) (d.endWalks page)
    | .fault f =>
      mine.foldl (fun (d : Dev) y =>
        if y.kind = .hint then d.dropHint y.engine
        else (d.unstall y.engine).fault y.engine y.wing.toNat y.va y.kind f) (d.endWalks page)

/-- A buffered store whose fault was resumed with RETRY is translated again (R480). -/
def Dev.storeAgain (d : Dev) (e : Engine) : Dev :=
  match e with
  | .storeBuf n => match (d.loom n).nextStore with
      | some e => d.setLoom n { d.loom n with stb := updateIf (· = e) (fun x => { x with again := true }) (d.loom n).stb }
      | none => d
  | _ => d

/-- FAULT_RESUME (R286). -/
def Dev.resumeFault (d : Dev) (w : WingId) (tag : Nat) (deny : Bool) : Dev :=
  match d.trans.recs.find? (fun r => r.wing = w && r.tag = tag) with
  | none => d
  | some r =>
    let d := { d with trans := { d.trans with recs := eraseOne r d.trans.recs } }
    let d := if r.written then d else d.setFld Fld.FQ_PROD_OVERFLOW w.toNat 1
    let d := r.engines.foldl (fun (d : Dev) x =>
      let d := d.unstall x.1
      if deny then
        (match x.1 with
          | .treadle n => d.stop n .accessDenied
          | .ifetch n => d.stop n .accessDenied
          | e => d.deny e .wingDenied)
      else d.storeAgain x.1) d
    d.fillRecs w

/-- TRANSLATION_FAULT_TIMEOUT: an engine whose timer ran out leaves its record and takes its outcome (R287). -/
def Dev.faultTimeout (d : Dev) (e : Engine) : Dev :=
  let late (r : FRec) : Bool := r.engines.any (fun x => x.1 = e && x.2 ≤ d.tick)
  if d.trans.recs.any late || d.trans.unrecorded.any late then ((d.unstall e).leaveRec e).timeOut e else d

/-! ### Access counters (R292) -/

def Dev.countAccess (d : Dev) (die w : Nat) (t : Tlb) (va : Nat) (lines : Nat) : Dev :=
  if !pteAcc t.leaf then d
  else
    let region := va / (64 * MiB)
    let key := die * 2 ^ 40 + w * 2 ^ 36 + region
    let mine := d.trans.counts.filter (fun c => c.1 / 2 ^ 40 = die)
    let cap := if die < 4 then 1024 else 256
    let cs := match Fmap.find d.trans.counts key, mine with
      | none, (k, _) :: _ => if mine.length ≥ cap then Fmap.del d.trans.counts k else d.trans.counts
      | _, _ => d.trans.counts
    let n := Fmap.get 0 cs key + lines
    let th := d.fld Fld.ACC_CTRL_THRESHOLD w
    if th ≠ 0 && n ≥ 2 ^ th then
      let d := { d with trans := { d.trans with counts := Fmap.put cs key 0 } }
      d.fqNote { wing := BitVec.ofNat 4 w, tag := 0, page := region * (64 * MiB), va := BitVec.ofNat 64 (region * (64 * MiB)), cause := 10,
                 engines := [], write := false, exec := false, level := 7, cls := 3, engineNo := die,
                 addr := BitVec.ofNat 64 (if pteHost t.leaf then 0 else
                   pteAddr t.leaf + region * (64 * MiB) % pageBytes t.big) }
    else { d with trans := { d.trans with counts := Fmap.put cs key n } }

/-! ### ATS (R282, R283) -/

/-- The ATC's target for an IOVA with the needed permission. -/
def Dev.atcFind (d : Dev) (h : HeadId) (iova : Nat) (write : Bool) : Option Nat :=
  (d.trans.atc.find? (fun a => a.head = h && a.iova ≤ iova && iova < a.iova + a.size && (a.write || !write))).map
    (fun a => a.target + (iova - a.iova))

/-- A miss in the ATC: the engine waits and the head asks its host, while Bus Master Enable is set (R282, R331). -/
def Dev.atsAsk (d : Dev) (h : HeadId) (iova : Nat) (write : Bool) (e : Engine) (w : Nat) (va : W64) (page : Nat) : Dev :=
  let line := iova / 4096 * 4096
  let asked := d.trans.ats.any (fun x => x.head = h && x.iova = line && x.write = write && x.sent)
  let bme := (d.head h).bme
  let q : AtsReq := { head := h, iova := line, write := write, engine := e, wing := BitVec.ofNat 4 w, va := va, page := page, sent := asked || bme }
  if d.trans.ats.any (fun x => { x with sent := q.sent } = q) then d
  else
    let d := ({ d with trans := { d.trans with ats := d.trans.ats ++ [q] } } : Dev).stallEngine e
    if asked || !bme then d else d.send (.atsReq h line)

/-- Sends the Translation Requests that waited for Bus Master Enable, one for each address and permission (R331). -/
def Dev.atsResume (d : Dev) (h : HeadId) : Dev :=
  let late := d.trans.ats.filter (fun x => x.head = h && !x.sent)
  let d := { d with trans := { d.trans with ats := d.trans.ats.map (fun x => if x.head = h then { x with sent := true } else x) } }
  (late.map (fun x => (x.iova, x.write))).dedup.foldl (fun (d : Dev) x => d.send (.atsReq h x.1)) d

/-- ATS_TRANSLATION_COMPLETION: `ok` with the translated address, the returned size and the write permission, or a
denial or Unsupported Request (R282). -/
def Dev.atsDone (d : Dev) (h : HeadId) (iova : Nat) (ok : Bool) (target size : Nat) (mayWrite : Bool) : Dev :=
  let mine (q : AtsReq) : Bool := q.head = h && q.iova = iova / 4096 * 4096 && q.sent
  let qs := d.trans.ats.filter mine
  let d := { d with trans := { d.trans with ats := d.trans.ats.filter (fun q => !mine q) } }
  qs.foldl (fun (d : Dev) q =>
    let d := d.unstall q.engine
    if ok && (mayWrite || !q.write) then
      let all := max 4096 size
      let sz := if q.page = 0 then all else min all q.page
      let base := q.iova / sz * sz
      let a : Atc := ⟨h, base, sz, target / all * all + base % all, mayWrite⟩
      { d with trans := { d.trans with atc := setAdd (sameAtcSet a) d.trans.atc a } }
    else
      let a := h.toNat * 2 ^ 60 + q.iova + q.va.toNat % 4096
      d.fault q.engine q.wing.toNat q.va (if q.write then .store else .load) ⟨.hostFault, 7, a⟩
        (decide (q.page = pageBytes true))) d

end Sys2Proof.Machine
end

