-- ==== Sys2Proof/Machine/Path.lean ====
section
/-! DEFINITION. The paths out of the package: Ikiquel ports (spec/14: messages, flits, credits, trunks) and heads
(R303, R331: CXL.cache requests to host memory). -/

namespace Sys2Proof.Machine

/-! ### Messages and slots (Tables 14-3, 14-4) -/

def opcRd : BitVec 8 := 0x01
def opcAtom : BitVec 8 := 0x02
def opcWr : BitVec 8 := 0x10
def opcWrm : BitVec 8 := 0x11
def opcCmp : BitVec 8 := 0x20
def opcRdata : BitVec 8 := 0x28
def opcAtomdata : BitVec 8 := 0x29
def opcJg : BitVec 8 := 0x30

def vcReq : BitVec 3 := 0
def vcOwr : BitVec 3 := 1
def vcBwr : BitVec 3 := 2
def vcRsp : BitVec 3 := 3
def vcDat : BitVec 3 := 4
def vcMgt : BitVec 3 := 5

/-- Receive buffer of a channel in slots (Table 14-2). -/
def vcSlots (vc : Nat) : Nat := if vc = 2 || vc = 4 then 1024 else if vc = 5 then 32 else 256

/-- Data slots of a message (Table 14-4); an unassigned opcode has none. -/
def dataSlots (opc : BitVec 8) (len : Nat) : Nat :=
  if opc = opcWr || opc = opcRdata then (len + 15) / 16
  else if opc = opcWrm then 5
  else if opc = opcAtom || opc = opcAtomdata || opc = opcJg then 1
  else 0

def PMsg.slotCount (m : PMsg) : Nat := 1 + dataSlots m.opc m.len.toNat

/-- The header slot. -/
def PMsg.header (m : PMsg) : BitVec 128 :=
  let b (x : Bool) : Nat := if x then 1 else 0
  BitVec.ofNat 128 (m.opc.toNat + m.epoch.toNat * 2 ^ 8 + m.attr.toNat * 2 ^ 16 + m.wing.toNat * 2 ^ 20
    + m.tag.toNat * 2 ^ 24 + (m.rsvd.extractLsb' 0 5).toNat * 2 ^ 34 + b m.wide * 2 ^ 39 + m.len.toNat * 2 ^ 40
    + (m.rsvd.extractLsb' 5 7).toNat * 2 ^ 49 + m.status.toNat * 2 ^ 56 + m.src.toNat * 2 ^ 64
    + (m.rsvd.extractLsb' 12 3).toNat * 2 ^ 77 + m.off.toNat * 2 ^ 80)

/-- The data slots: WRM has its mask in the first. -/
def PMsg.slots (m : PMsg) : List (BitVec 128) :=
  let n := dataSlots m.opc m.len.toNat
  let d (i : Nat) : BitVec 128 := m.data.extractLsb' (128 * i) 128
  m.header :: (if m.opc = opcWrm then m.mask.setWidth 128 :: (List.range 4).map d else (List.range n).map d)

/-- A message from its header slot and data slots; `bulk` marks a write of the BWR channel. -/
def PMsg.ofSlots (h : BitVec 128) (ds : List (BitVec 128)) (bulk : Bool) : PMsg :=
  let opc : BitVec 8 := h.extractLsb' 0 8
  let join (l : List (BitVec 128)) : Line := (l.zip (List.range l.length)).foldl (fun (acc : Line) (p : BitVec 128 × Nat) => acc ||| (p.1.setWidth 2048 <<< (128 * p.2))) 0
  { opc := opc,
    vc := if opc = opcRd || opc = opcAtom then vcReq else if opc = opcWr || opc = opcWrm then (if bulk then vcBwr else vcOwr)
          else if opc = opcCmp then vcRsp else if opc = opcRdata || opc = opcAtomdata then vcDat else vcMgt,
    epoch := h.extractLsb' 8 8, attr := h.extractLsb' 16 4, wing := h.extractLsb' 20 4, tag := h.extractLsb' 24 10,
    wide := h.getLsbD 39, len := h.extractLsb' 40 9, status := h.extractLsb' 56 8, src := h.extractLsb' 64 13,
    off := h.extractLsb' 80 48, rsvd := h.extractLsb' 77 3 ++ h.extractLsb' 49 7 ++ h.extractLsb' 34 5,
    mask := if opc = opcWrm then (ds.headD 0).setWidth 64 else 0,
    data := if opc = opcWrm then join ds.tail else join ds }

/-! ### Flits (R349, R350) -/

/-- One bit of the CRC-64 of R350. -/
def crcBit (c : BitVec 64) (b : Bool) : BitVec 64 :=
  let t := c.msb ^^ b
  if t then (c <<< 1) ^^^ 0x42F0E1EBA9EA3693 else c <<< 1

/-- One byte, bit 7 first. -/
def crcByte (c : BitVec 64) (x : Byte) : BitVec 64 :=
  [7, 6, 5, 4, 3, 2, 1, 0].foldl (fun c i => crcBit c (x.getLsbD i)) c

/-- The CRC of bytes 0 to 247: from all ones, inverted at the end. -/
def flitCrc (raw : BitVec 1984) : BitVec 64 :=
  ~~~((List.range 248).foldl (fun c i => crcByte c (raw.extractLsb' (8 * i) 8)) (BitVec.allOnes 64))

/-- Bytes 0 to 247 of a flit. -/
def flitRaw (seq ack ackType kind : Nat) (cr0 cr1 : Nat × Nat) (slots : List (BitVec 128)) : BitVec 1984 :=
  let h := seq % 4096 * 2 ^ 52 + ack % 4096 * 2 ^ 40 + ackType * 2 ^ 38 + kind * 2 ^ 36 + cr0.1 * 2 ^ 33 + cr0.2 * 2 ^ 24
    + cr1.1 * 2 ^ 21 + cr1.2 * 2 ^ 12
  let body := (slots.zip (List.range 15)).foldl (fun (acc : BitVec 1984) (p : BitVec 128 × Nat) => acc ||| (p.1.setWidth 1984 <<< (64 + 128 * p.2))) 0
  body ||| BitVec.ofNat 1984 h

/-! ### Ports -/

def Dev.port (d : Dev) (q : PortId) : Port := Fmap.get {} d.ports q.toNat
def Dev.setPort (d : Dev) (q : PortId) (p : Port) : Dev := { d with ports := Fmap.put d.ports q.toNat p }

def psDisabled : Nat := 0
def psDown : Nat := 1
def psTraining : Nat := 2
def psUp : Nat := 3
def psWidth : Nat := 4
def psMiswired : Nat := 5
def Dev.portState (d : Dev) (q : PortId) : Nat := d.fld Fld.IKQ_PORT_STATE q.toNat

/-- The link is up, a width change included (R348). -/
def Dev.portUp (d : Dev) (q : PortId) : Bool := d.portState q = psUp || d.portState q = psWidth

/-- Source k of a port's ledger events (Table 18-1). -/
def portSrc (q k : Nat) : Nat := 0x310 + 4 * q + k

def Port.credit (p : Port) (vc : Nat) : Nat := Fmap.get (vcSlots vc) p.credits vc

/-- Takes up to two credit returns out of what the port owes, at most 511 slots each. -/
def Port.takeOwed (p : Port) : (Nat × Nat) × (Nat × Nat) × Port :=
  match p.owed.filter (fun c => c.2 ≠ 0) with
  | [] => ((7, 0), (7, 0), p)
  | [(v, n)] => ((v, min n 511), (7, 0), { p with owed := Fmap.put p.owed v (n - min n 511) })
  | (v, n) :: (w, m) :: _ =>
    ((v, min n 511), (w, min m 511), { p with owed := Fmap.put (Fmap.put p.owed v (n - min n 511)) w (m - min m 511) })

/-- Sends one flit with the acknowledgement and credit returns that are due. -/
def Dev.sendFlit (d : Dev) (q : PortId) (seq ackType kind : Nat) (slots : List (BitVec 128)) : Dev :=
  let (c0, c1, p) := (d.port q).takeOwed
  let raw := flitRaw seq p.nextRx.toNat ackType kind c0 c1 slots
  (d.setPort q p).send (.flit q raw (flitCrc raw))

/-- An idle flit carries an acknowledgement (R349, R352). -/
def Dev.sendIdle (d : Dev) (q : PortId) : Dev := d.sendFlit q 0 1 1 []

/-- Sends slots as payload flits of at most 15 slots, each kept for replay (R351). -/
def Dev.sendSlots (d : Dev) (q : PortId) : Nat → List (BitVec 128) → Dev
  | 0, _ => d
  | _, [] => d
  | k + 1, s@(_ :: _) =>
    let p := d.port q
    let now := s.take 15
    let f : PFlit := ⟨p.nextSeq, now, d.tick + d.fld Fld.IKQ_TIMERS_REPLAY_TIMER 0⟩
    let d := d.setPort q { p with nextSeq := p.nextSeq + 1, replay := p.replay ++ [f] }
    (d.sendFlit q f.seq.toNat 1 0 now).sendSlots q k (s.drop 15)

/-- Lowest free tag of a port (R357). -/
def Port.freeTag (p : Port) : Option Nat := (List.range 1024).find? (fun t => !p.outs.any (fun o => o.m.tag.toNat = t))

/-- Places one waiting message in flits if its channel holds credits for every slot, the replay buffer has room and,
for a request, a tag is free (R351, R355, R357). -/
def Dev.placeItem (q : PortId) (x : Dev × List (BitVec 3) × List PItem) (i : PItem) : Dev × List (BitVec 3) × List PItem :=
  let (d, blocked, left) := x
  let p := d.port q
  let n := i.m.slotCount
  let vc := i.m.vc.toNat
  if blocked.contains i.m.vc then (d, blocked, left ++ [i])
  else if p.credit vc < n then
    let d := if (Fmap.find p.starved vc).isSome then d else d.setPort q { p with starved := Fmap.put p.starved vc (d.tick + d.fld Fld.IKQ_TIMERS_CREDIT_TIMEOUT 0) }
    (d, i.m.vc :: blocked, left ++ [i])
  else if p.replay.length + (n + 14) / 15 > 1024 then (d, i.m.vc :: blocked, left ++ [i])
  else
    let p := { p with credits := Fmap.put p.credits vc (p.credit vc - n), starved := Fmap.del p.starved vc }
    match i.own, p.freeTag with
    | some _, none => (d, i.m.vc :: blocked, left ++ [i])
    | some _, some t =>
      let i := { i with m := { i.m with tag := BitVec.ofNat 10 t, epoch := BitVec.ofNat 8 (d.fld Fld.IKQ_PORT_EPOCH q.toNat) },
                        since := d.tick + 1000 * d.fld Fld.IKQ_TIMERS_TXN_TIMEOUT 0 }
      ((d.setPort q { p with outs := p.outs ++ [i] }).sendSlots q 18 i.m.slots, blocked, left)
    | none, _ => ((d.setPort q p).sendSlots q 18 i.m.slots, blocked, left)

/-- Places what can be placed, in order within each channel; nothing moves during a width change (R348). -/
def Dev.pump (d : Dev) (q : PortId) : Dev :=
  if d.portState q ≠ psUp then d
  else
    let items := (d.port q).queue
    let (d, _, left) := items.foldl (Dev.placeItem q) (d, [], [])
    d.setPort q { d.port q with queue := left }

def Dev.enqueue (d : Dev) (q : PortId) (i : PItem) : Dev :=
  (d.setPort q { d.port q with queue := (d.port q).queue ++ [i] }).pump q

/-- Gives receive slots back to the partner (R355). -/
def Dev.oweSlots (d : Dev) (q : PortId) (vc n : Nat) : Dev :=
  let p := d.port q
  d.setPort q { p with owed := Fmap.put p.owed vc (Fmap.get 0 p.owed vc + n) }

/-! ### Trunks (R347, R361) -/

/-- UP ports mapped to a peer, in increasing q. -/
def Dev.trunk (d : Dev) (p : PeerId) : List PortId :=
  ((List.range 16).map (BitVec.ofNat 4)).filter (fun q =>
    d.portUp q && d.fld Fld.IKQ_PORT_PEER_VALID q.toNat = 1 && d.fld Fld.IKQ_PORT_PEER q.toNat = p.toNat)

/-- Agent id of a requester in messages (Tables 7-3, 14-3). -/
def Agent.srcId : Agent → Nat
  | .cache n | .treadle n | .xfer n | .ifetch n => n.toNat
  | .courier c => 4112 + c.toNat
  | .head h => 4096 + h.toNat
  | .port q => q.toNat
  | .engine w => 4176 + w.code

/-- The port at which a lost request to peer p is reported: the lowest one mapped to p, else q0 (R347). -/
def Dev.portOfPeer (d : Dev) (p : PeerId) : Nat :=
  ((List.range 16).find? (fun q => d.fld Fld.IKQ_PORT_PEER_VALID q = 1 && d.fld Fld.IKQ_PORT_PEER q = p.toNat)).getD 0

/-- What became of a request handed to a path. -/
inductive Sent
  | ok
  /-- not now: the requester keeps it -/
  | hold
  /-- the path is broken (R165, R347) -/
  | broken
  deriving DecidableEq, Repr

/-- Ordered writes of an agent to a peer wait for answers on another port than q (R361). -/
def Dev.peerWaits (d : Dev) (a : Agent) (p : PeerId) (q : PortId) : Bool :=
  let other (r : PortId) : Bool := r ≠ q && d.fld Fld.IKQ_PORT_PEER r.toNat = p.toNat &&
    ((d.port r).outs ++ (d.port r).queue).any (fun i => i.m.vc = vcOwr && i.own.isSome && i.m.src.toNat = a.srcId)
  ((List.range 16).map (BitVec.ofNat 4)).any other

/-- The port an agent's requests to a peer take. -/
def Dev.peerPort (d : Dev) (a : Agent) (p : PeerId) : Option PortId :=
  let ps := d.trunk p
  ps[a.srcId % max 1 ps.length]?

/-- Sends a request to a peer.  An agent whose port to the peer changed holds its ordered writes until the earlier
ones are answered (R361); an empty trunk completes the request at once and reports it (R347). -/
def Dev.peerSend (d : Dev) (a : Agent) (tag : Nat) (p : PeerId) (m : PMsg) (early : Bool) : Sent × Dev :=
  match d.peerPort a p with
  | none => (.broken, d.report (portSrc (d.portOfPeer p) 3) (mkDetail m.off.toNat a.srcId 0) m.wing.toNat)
  | some q =>
    if m.vc = vcOwr && d.peerWaits a p q then (.hold, d)
    else (.ok, d.enqueue q { m := { m with src := BitVec.ofNat 13 a.srcId }, own := some (a, tag), early := early, since := d.tick })

/-! ### Host memory (R303, R331) -/

def Dev.pathBroken (d : Dev) (h : HeadId) : Bool := d.fld Fld.HEAD_STATUS_PATH_BROKEN h.toNat = 1

/-- HEAD_STATUS.NP_OUTSTANDING: CXL.cache and ATS requests awaiting their completion. -/
def Dev.showNp (d : Dev) (h : HeadId) : Dev :=
  let n := (d.head h).outs.length + (d.trans.ats.filter (fun q => q.head = h && q.sent)).length
  d.setFld Fld.HEAD_STATUS_NP_OUTSTANDING h.toNat (min n 255)

/-- An engine stalled on a fault that has a record, or that waits for one (R286). -/
def Dev.inRecord (d : Dev) (e : Engine) : Bool :=
  (d.trans.recs ++ d.trans.unrecorded).any (fun r => r.engines.any (fun x => x.1 = e))

/-- The translated address of a host access: none while the engine waits for ATS (R282) or is stalled on a fault. -/
def Dev.hostAddr (d : Dev) (e : Engine) (w : Nat) (va : W64) (h : HeadId) (iova : Nat) (write : Bool) (page : Nat) : Option Nat × Dev :=
  match d.atcFind h iova write with
  | some a => (some a, d)
  | none => if d.inRecord e then (none, d) else (none, (d.atsAsk h iova write e w va page).showNp h)

/-- Issues a CXL.cache request, or lets it wait at the head while Bus Master Enable is clear. -/
def Dev.hostSend (d : Dev) (h : HeadId) (r : HostReq) : Dev :=
  let x := d.head h
  if x.bme then ((d.setHead h { x with outs := x.outs ++ [r] }).send (.cacheReq h r)).showNp h
  else d.setHead h { x with waiting := x.waiting ++ [r] }

/-- The CXL.cache write for a 64-byte line: ItoMWr when whole, WOWrInv with byte enables when partial. -/
def hostWrite (tag : Nat) (a : Agent) (addr : Nat) (mask : BitVec 64) (data : Sector) (early : Bool) : HostReq :=
  { tag := tag, op := if mask = BitVec.allOnes 64 then .itoMWr else .woWrInv, src := a, addr := addr, mask := mask,
    data := data, early := early }

/-! ### Splitting writes -/

/-- Bytes set in a mask: lowest index and length when they are one run. -/
def maskRun (w : Nat) (m : Nat) : Option (Nat × Nat) :=
  match (List.range w).find? (fun i => m.testBit i) with
  | none => none
  | some lo =>
    let n := ((List.range w).filter (fun i => m.testBit i)).length
    if m / 2 ^ lo = 2 ^ n - 1 then some (lo, n) else none

/-- Messages that carry the masked bytes of a line to a peer: one WR for one run of bytes, else per sector a WR or a
WRM (Table 14-4). -/
def peerWrites (wing : WingId) (vc : BitVec 3) (off : Nat) (mask : BitVec 256) (data : Line) : List PMsg :=
  let wr (lo n : Nat) : PMsg :=
    { opc := opcWr, vc := vc, epoch := 0, wing := wing, len := BitVec.ofNat 9 n, off := BitVec.ofNat 48 (off + lo),
      data := data >>> (8 * lo) &&& (BitVec.allOnes 2048 >>> (2048 - 8 * n)) }
  match maskRun 256 mask.toNat with
  | some (lo, n) => [wr lo n]
  | none =>
    (List.range 4).filterMap (fun k =>
      let m := maskSector mask k
      if m = 0 then none
      else match maskRun 64 m.toNat with
        | some (lo, n) => some (wr (64 * k + lo) n)
        | none => some { opc := opcWrm, vc := vc, epoch := 0, wing := wing, len := 64, off := BitVec.ofNat 48 (off + 64 * k),
                         mask := m, data := (Line.sector data k).setWidth 2048 })

/-! ### Replies -/

/-- The answer to an agent's request: data at its place in the line, poisoned sectors, what went wrong. -/
structure Reply where
  data : Line := 0
  poison : BitVec 4 := 0
  /-- the path broke: LINK_LOST for a read, INDETERMINATE for a write or atomic -/
  lost : Bool := false
  denied : Bool := false
  deriving DecidableEq, Repr

end Sys2Proof.Machine
end

