-- ==== Sys2Proof/Machine/LoomMem.lean ====
section
/-! DEFINITION. A loom's memory side (spec/06): data cache, eviction buffer, store buffer, loads, stores, atomics, cache
operations, fences, and what the cache answers to a home. -/

namespace Sys2Proof.Machine

/-! ### Cache lines -/

def cacheSet (line : BitVec 40) : Nat := line.toNat % 32
def CLine.anyValid (c : CLine) : Bool := c.s0 ≠ .i || c.s1 ≠ .i || c.s2 ≠ .i || c.s3 ≠ .i
/-- Sectors in M or O. -/
def CLine.dirty (c : CLine) : BitVec 4 :=
  (List.range 4).foldl (fun (s : BitVec 4) k => if c.st k = .m || c.st k = .o then setBit4 s k else s) 0
def CLine.invalid (c : CLine) : BitVec 4 :=
  (List.range 4).foldl (fun (s : BitVec 4) k => if c.st k = .i then setBit4 s k else s) 0

/-- Replaces the line in a way of the cache. -/
def Dev.putLine (d : Dev) (n : LoomId) (key : Nat) (c : CLine) : Dev :=
  d.setLoom n { d.loom n with cache := Fmap.put (d.loom n).cache key c }

/-- CACHE_STATUS.LOCKED counts the locked lines. -/
def Dev.showLocked (d : Dev) (n : LoomId) : Dev :=
  d.setFld Fld.CACHE_STATUS_LOCKED n.toNat (((d.loom n).cache.filter (fun c => c.2.lock)).length)

/-- lfsr_step of R149. -/
def lfsrStep (r : Nat) : Nat :=
  let x := BitVec.ofNat 16 r
  let b := x.getLsbD 15 ^^ x.getLsbD 13 ^^ x.getLsbD 12 ^^ x.getLsbD 10
  ((x <<< 1) ||| (if b then 1 else 0)).toNat

inductive Alloc
  | way (key : Nat)
  /-- no eligible way: the access is performed uncached -/
  | bypass
  /-- waits: the eviction buffer is full, or every eligible way waits for its fill -/
  | hold
  deriving DecidableEq, Repr

/-- Chooses and empties a way for a line among the ways `may` allows (R148, R149): a dirty victim enters the eviction
buffer. -/
def Dev.allocWay (d : Dev) (n : LoomId) (line : BitVec 40) (may : Nat → Bool) : Alloc × Dev :=
  let set := cacheSet line
  let at_ (w : Nat) : CLine := Fmap.get {line := 0} (d.loom n).cache (8 * set + w)
  let ok := (List.range 8).filter (fun w => may w && d.fldBit Fld.CACHE_CTRL_WAY_ON n.toNat w && !(at_ w).lock)
  let free := ok.filter (fun w => (at_ w).wait = 0)
  match ok, free with
  | [], _ => (.bypass, d)
  | _, [] => (.hold, d)
  | _, w0 :: _ =>
    let (w, d') := match free.find? (fun w => !(at_ w).anyValid) with
      | some w => (w, d)
      | none =>
        let r := lfsrStep (d.fld Fld.CACHE_LFSR_STATE n.toNat)
        let c := r % 8
        ((((List.range 8).map (fun i => (c + i) % 8)).find? (fun w => free.contains w)).getD w0,
         d.setFld Fld.CACHE_LFSR_STATE n.toNat r)
    let v := at_ w
    if v.dirty ≠ 0 then
      if (d.loom n).evict.length ≥ 4 then (.hold, d)
      else
        let l := d'.loom n
        (.way (8 * set + w), (d'.setLoom n { l with evict := l.evict ++ [{ l := v }] }).putLine n (8 * set + w) { line := line })
    else (.way (8 * set + w), d'.putLine n (8 * set + w) { line := line })

/-- Sends a request of the data cache; the sectors wait for their answer. -/
def Dev.cacheReq (d : Dev) (n : LoomId) (k : ReqKind) (key : Nat) (sects : BitVec 4) : Dev :=
  if sects = 0 then d
  else
    let (t, d) := d.newTag
    let l := d.loom n
    let c := Fmap.get {line := 0} l.cache key
    let d := d.setLoom n { l with pend := l.pend ++ [(t, c.line, sects)] }
    (d.putLine n key { c with wait := c.wait ||| sects }).sendReq
      { kind := k, src := .cache n, tag := t, line := c.line, sects := sects, wing := BitVec.ofNat 4 (d.wingOf n) }

/-- A line of the eviction buffer whose WriteBack has not been sent goes back into its set (R148). -/
def Dev.reinstall (d : Dev) (n : LoomId) (line : BitVec 40) (may : Nat → Bool) : Option (Alloc × Dev) :=
  match (d.loom n).findEvict line with
  | none => none
  | some e =>
    if e.sent then some (.hold, d)
    else
      let l := d.loom n
      let d0 := d.setLoom n { l with evict := eraseOne e l.evict }
      match d0.allocWay n line may with
      | (.way key, d1) => some (.way key, d1.putLine n key e.l)
      | (.bypass, _) => some (.hold, d)
      | (.hold, _) => some (.hold, d)

/-- The way that holds a line, allocating one if it is absent. -/
def Dev.lineFor (d : Dev) (n : LoomId) (line : BitVec 40) (may : Nat → Bool) : Alloc × Bool × Dev :=
  match (d.loom n).findLine line with
  | some (key, _) => (.way key, true, d)
  | none =>
    match d.reinstall n line may with
    | some (a, d) => (a, true, d)
    | none => let (a, d) := d.allocWay n line may; (a, false, d)

/-! ### The store buffer seen by loads (R159) -/

/-- Where an access goes (R145); `.scratch`: 0x3000_0000_0000 upward, what lies there is found by `Dev.range`. -/
def destOf (t : Tlb) (a : Nat) : Dest :=
  if pteHost t.leaf then .host (pteHead t.leaf)
  else if a < aliasBase then .mem
  else if a < remoteBase then .alias_
  else if a < scratchBase then .peer (BitVec.ofNat 3 ((a - remoteBase) / 2 ^ 41))
  else .scratch

/-- Bytes [off, off+len) of a line that the buffer holds, and their youngest values. -/
def Loom.buffered (l : Loom) (dst : Dest) (line : BitVec 56) (off len : Nat) : BitVec 256 × Line :=
  let want : BitVec 256 := (BitVec.allOnes 256 >>> (256 - len)) <<< off
  let bits (m : BitVec 256) : Line := (List.range 256).foldl (fun (a : Line) i => if m.getLsbD i then a ||| ((0xFF : Line) <<< (8 * i)) else a) 0
  l.stb.foldl (fun (x : BitVec 256 × Line) e =>
    if e.dest = dst && e.line = line then
      let m := e.mask &&& want
      if m = 0 then x else (x.1 ||| m, (x.2 &&& ~~~bits m) ||| (e.data &&& bits m))
    else x) (0, 0)

/-- The loaded value of a load's bytes. -/
def loadValue (w : LoadW) (off : Nat) (line : Line) : W64 :=
  let v := line.extractLsb' (8 * off) 64
  match w.bytes, w.sext with
  | 1, true => (v.setWidth 8).signExtend 64
  | 2, true => (v.setWidth 16).signExtend 64
  | 4, true => (v.setWidth 32).signExtend 64
  | 1, false => (v.setWidth 8).setWidth 64
  | 2, false => (v.setWidth 16).setWidth 64
  | 4, false => (v.setWidth 32).setWidth 64
  | _, _ => v

/-- The load's value reaches its register and the treadle goes on. -/
def Dev.loadDone (d : Dev) (n : LoomId) (w : LoadW) (off : Nat) (line : Line) : Dev :=
  ((d.setLoom n { d.loom n with stall := .run }).setReg n w.rd (loadValue w off line)).nextPc n 4

/-- Ends the streaming state, if the cache is in it, and sets the count to 0 (R152). -/
def Dev.leaveStreaming (d : Dev) (n : LoomId) : Dev :=
  if d.fld Fld.CACHE_STATUS_STREAMING n.toNat = 0 then d
  else (d.setLoom n { d.loom n with streamCount := 0 }).setFld Fld.CACHE_STATUS_STREAMING n.toNat 0

/-- Counts an uncached access or a line fill of a loom (R292). -/
def Dev.countLoom (d : Dev) (n : LoomId) (t : Tlb) (va : W64) : Dev :=
  d.countAccess (loomDie n.toNat) (d.wingOf n) t va.toNat 1

/-- An uncached load (R145): to a home, a peer or a host. -/
def Dev.uncachedLoad (d : Dev) (n : LoomId) (w : LoadW) (t : Tlb) (va : W64) (a : Nat) : Dev :=
  let wing : WingId := BitVec.ofNat 4 (d.wingOf n)
  let (tag, d1) := d.newTag
  let wait (d : Dev) : Dev := (d.setLoom n { d.loom n with stall := .uncached w a tag }).countLoom n t va
  match destOf t a with
  | .peer p =>
    let m : PMsg := { opc := opcRd, vc := vcReq, epoch := 0, wing := wing, len := BitVec.ofNat 9 w.bytes,
                      off := BitVec.ofNat 48 ((a - remoteBase) % 2 ^ 41) }
    match d1.peerSend (.treadle n) tag p m false with
    | (.ok, d) => wait d
    | (.hold, _) => d
    | (.broken, d) => d.stop n .loadLinkLost
  | .host h =>
    if d.pathBroken h then d.stop n .loadLinkLost
    else match d1.hostAddr (.treadle n) wing.toNat va h a false (pageBytes t.big) with
      | (none, d) => d
      | (some x, d) => wait (d.hostSend h { tag := tag, op := .rdCurr, src := .treadle n, addr := x / 64 * 64 })
  | _ =>
    wait (d1.sendReq { kind := .readOnce, src := .treadle n, tag := tag, line := BitVec.ofNat 40 (a / 256),
                       sects := (1 : BitVec 4) <<< (a / 64 % 4), wing := wing })

/-- A load (R145, R146, R148, R152, R159): it refills every invalid sector of its line, and waits for them, unless its
page is STREAM and its own sector is present. -/
def Dev.load (d : Dev) (n : LoomId) (w : LoadW) (a : LoadArgs) : Dev :=
  d.issue n fun d =>
    let va := (d.loom n).reg a.rs1 + a.imm.signExtend 64
    if va.toNat % w.bytes ≠ 0 then d.stop n .misaligned
    else match d.translate (.treadle n) (d.wingOf n) va .load with
      | (.miss, d) => d
      | (.fault f, d) => d.fault (.treadle n) (d.wingOf n) va .load f
      | (.ok t x, d) =>
        let l := d.loom n
        let dst := destOf t x
        let attr := pteAttr t.leaf
        let line : BitVec 56 := BitVec.ofNat 56 (x / 256)
        let off := x % 256
        let (have_, buf) := l.buffered dst line off w.bytes
        let dev (k : Nat) : Bool := k = attrDeviceEa || k = attrDeviceNe
        if dev attr && l.stb.any (fun e => dev e.attr.toNat) then d
        else if have_ = (BitVec.allOnes 256 >>> (256 - w.bytes)) <<< off then (d.leaveStreaming n).loadDone n w off buf
        else if have_ ≠ 0 then d
        else
          let d := d.leaveStreaming n
          if dst ≠ .mem || dev attr then d.uncachedLoad n w t va x
          else
            let ln := line.setWidth 40
            let k := off / 64
            let hit := match l.findLine ln with | some (_, c) => c.st k ≠ .i | none => false
            if attr = attrStream && !hit && (l.findLine ln).isNone && (l.findEvict ln).isNone then d.uncachedLoad n w t va x
            else match d.lineFor n ln (fun _ => true) with
              | (.hold, _, _) => d
              | (.bypass, _, d) => (d.setFld Fld.CACHE_STATUS_BYPASS n.toNat 1).uncachedLoad n w t va x
              | (.way key, _, d) =>
                let c := Fmap.get {line := 0} (d.loom n).cache key
                if c.invalid = 0 || (attr = attrStream && c.st k ≠ .i) then d.loadDone n w off c.data
                else
                  let miss := c.invalid &&& ~~~c.wait
                  let d := d.cacheReq n .readShared key miss
                  let d := if miss = 0 then d else d.countLoom n t va
                  d.setLoom n { d.loom n with stall := .fill w x ln }

/-! ### Stores (R157) -/

/-- Puts a store into the buffer: it merges into the youngest entry or takes a new one; a full buffer stalls. -/
def Dev.bufferStore (d : Dev) (n : LoomId) (t : Tlb) (va : W64) (x : Nat) (mask : BitVec 256) (data : Line)
    (zero clean : Bool) : Dev :=
  let l := d.loom n
  let dst := destOf t x
  let attr := pteAttr t.leaf
  let line : BitVec 56 := BitVec.ofNat 56 (x / 256)
  let ent : StEnt := { id := d.opSeq, dest := dst, attr := BitVec.ofNat 3 attr, line := line, va := va, mask := mask,
                       data := data, zero := zero, clean := clean, tlb := some t }
  let merges (e : StEnt) : Bool := e.dest = dst && e.line = line && !e.begun && !e.zero && !e.clean && !zero && !clean
    && attr ≤ attrStream && e.attr.toNat ≤ attrStream
  let bits : Line := (List.range 256).foldl (fun (a : Line) i => if mask.getLsbD i then a ||| ((0xFF : Line) <<< (8 * i)) else a) 0
  match l.stb.getLast? with
  | some e =>
    if merges e then
      (d.setLoom n { l with stb := l.stb.dropLast ++ [{ e with mask := e.mask ||| mask, data := (e.data &&& ~~~bits) ||| data }] }).nextPc n 4
    else if l.stb.length ≥ 8 then d
    else
      (d.newOp.2.setLoom n { l with stb := l.stb ++ [ent] }).nextPc n 4
  | none => (d.newOp.2.setLoom n { l with stb := [ent] }).nextPc n 4

/-- SB, SH, SW, SD. -/
def Dev.store (d : Dev) (n : LoomId) (bytes : Nat) (a : StoreArgs) : Dev :=
  d.issue n fun d =>
    let va := (d.loom n).reg a.rs1 + a.imm.signExtend 64
    if va.toNat % bytes ≠ 0 then d.stop n .misaligned
    else match d.translate (.treadle n) (d.wingOf n) va .store with
      | (.miss, d) => d
      | (.fault f, d) => d.fault (.treadle n) (d.wingOf n) va .store f
      | (.ok t x, d) =>
        let off := x % 256
        let v := ((d.loom n).reg a.rs2).toNat % 2 ^ (8 * bytes)
        let r := d.bufferStore n t va x ((BitVec.allOnes 256 >>> (256 - bytes)) <<< off) (BitVec.ofNat 2048 v <<< (8 * off)) false false
        if destOf t x = .mem && pteAttr t.leaf ≤ attrStream then r
        else if r.loom n = d.loom n then r else r.countLoom n t va

/-! ### Atomics (R161) -/

def Dev.atomic (d : Dev) (n : LoomId) (op : AtomOp) (a : AtomArgs) : Dev :=
  d.issue n fun d =>
    let l := d.loom n
    let va := l.reg a.rs1
    let bytes := if a.wide then 8 else 4
    if a.rsvd ≠ 0 then d.stop n .illegalInstruction
    else if va.toNat % bytes ≠ 0 then d.stop n .misaligned
    else if !l.stb.isEmpty then d
    else match d.translate (.treadle n) (d.wingOf n) va .atomic with
      | (.miss, d) => d
      | (.fault f, d) => d.fault (.treadle n) (d.wingOf n) va .atomic f
      | (.ok t x, d) =>
        let wing : WingId := BitVec.ofNat 4 (d.wingOf n)
        let (tag, d1) := d.newTag
        let wait (d : Dev) : Dev := (d.setLoom n { d.loom n with stall := .atomic a.rd a.wide tag }).countLoom n t va
        let opCode : BitVec 4 := match op with
          | .swap => 0 | .add => 1 | .and => 2 | .or => 3 | .xor => 4 | .min => 5 | .max => 6 | .minu => 7 | .maxu => 8 | .cas => 9
        match destOf t x with
        | .peer p =>
          let m : PMsg := { opc := opcAtom, vc := vcReq, epoch := 0, wing := wing, attr := opCode, wide := a.wide,
                            len := BitVec.ofNat 9 bytes, off := BitVec.ofNat 48 ((x - remoteBase) % 2 ^ 41),
                            data := (l.reg a.rs2).setWidth 2048 ||| ((l.reg a.rd).setWidth 2048 <<< 64) }
          match d1.peerSend (.treadle n) tag p m false with
          | (.ok, d) => wait d
          | (.hold, _) => d
          | (.broken, d) => d.stop n .atomicIndeterminate
        | _ =>
          wait (d1.sendReq { kind := .atomic op, src := .treadle n, tag := tag, line := BitVec.ofNat 40 (x / 256),
                             sects := (1 : BitVec 4) <<< (x / 64 % 4), off := BitVec.ofNat 8 (x % 256), wide := a.wide,
                             opnd := l.reg a.rs2, cmp := l.reg a.rd, wing := wing })

/-! ### Cache operations (Table 6-1) -/

/-- The address has a cached translation into a range that R145 excludes. -/
def Dev.excluded (d : Dev) (n : LoomId) (va : W64) : Bool :=
  match (d.tlbLookup (.treadle n) (d.wingOf n) va.toNat).1 with
  | some t => destOf t (leafTarget t va.toNat) ≠ .mem
  | none => false

/-- Translates the address of a class 0x9 operation; a range that R145 excludes makes it a no-op whatever its page permits
(R153). -/
def Dev.cacheOp (d : Dev) (n : LoomId) (k : AccKind) (a : CacheArgs) (f : Dev → Tlb → W64 → Nat → Dev) : Dev :=
  d.issue n fun d =>
    let va := (d.loom n).reg a.rs1 + a.imm.signExtend 64
    match d.translate (.treadle n) (d.wingOf n) va k with
    | (.miss, d) => d
    | (.fault q, d') =>
      if k = .hint || d.excluded n va then d'.nextPc n 4 else d'.fault (.treadle n) (d.wingOf n) va k q
    | (.ok t x, d) => if destOf t x = .mem then f d t va x else d.nextPc n 4

/-- PREFETCH.R and PREFETCH.W: the line is allocated and its sectors requested; dropped where no way is to be had and on
a page that never allocates (Table 6-2). -/
def Dev.prefetch (d : Dev) (n : LoomId) (own : Bool) (a : CacheArgs) : Dev :=
  d.cacheOp n .hint a fun d t va x =>
    let ln := BitVec.ofNat 40 (x / 256)
    let hadLine := ((d.loom n).findLine ln).isSome
    if pteAttr t.leaf ≠ attrNormal || (!own && hadLine) then d.nextPc n 4
    else match d.lineFor n ln (fun _ => true) with
      | (.way key, _, d) =>
        let c := Fmap.get {line := 0} (d.loom n).cache key
        let d' := if own then
            let up := (List.range 4).foldl (fun (s : BitVec 4) k => if c.st k = .s || c.st k = .o then setBit4 s k else s) 0 &&& ~~~c.wait
            (d.cacheReq n .readOwn key (c.invalid &&& ~~~c.wait)).cacheReq n .upgrade key up
          else d.cacheReq n .readShared key (c.invalid &&& ~~~c.wait)
        (if c.invalid &&& ~~~c.wait = 0 then d' else d'.countLoom n t va).nextPc n 4
      | _ => d.nextPc n 4

/-- ZERO.LINE: a store of 256 zero bytes that fetches nothing. -/
def Dev.zeroLine (d : Dev) (n : LoomId) (a : CacheArgs) : Dev :=
  d.cacheOp n .store a fun d t va x => d.bufferStore n t va (x / 256 * 256) (BitVec.allOnes 256) 0 true false

/-- CLEAN.LINE, ordered as a store. -/
def Dev.cleanLine (d : Dev) (n : LoomId) (a : CacheArgs) : Dev :=
  d.cacheOp n .store a fun d t va x => d.bufferStore n t va (x / 256 * 256) 0 0 false true

/-- LOCK.PRELOAD (R150); on a page that never allocates (Table 6-2) it does nothing. -/
def Dev.lockPreload (d : Dev) (n : LoomId) (a : CacheArgs) : Dev :=
  d.cacheOp n .load a fun d t va x =>
    let ln := BitVec.ofNat 40 (x / 256)
    let refuse (d : Dev) : Dev := (d.setFld Fld.CACHE_STATUS_LOCK_REFUSED n.toNat 1).nextPc n 4
    let low (w : Nat) : Bool := w < 4
    let there := (d.loom n).findLine ln
    let open_ (w : Nat) : Bool := d.fldBit Fld.CACHE_CTRL_WAY_ON n.toNat w
      && !(Fmap.get {line := 0} (d.loom n).cache (8 * cacheSet ln + w)).lock
    if pteAttr t.leaf ≠ attrNormal then d.nextPc n 4
    else if !(List.range 4).any open_ || (there.map (fun c => !low (c.1 % 8) && !c.2.lock)).getD false then refuse d
    else match d.lineFor n ln low with
      | (.bypass, _, d) => refuse d
      | (.hold, _, _) => d
      | (.way key, _, d) =>
        let c := Fmap.get {line := 0} (d.loom n).cache key
        let d := (d.putLine n key { c with lock := true }).showLocked n
        let miss := c.invalid &&& ~~~c.wait
        let d := d.cacheReq n .readShared key miss
        if c.invalid = 0 then d.nextPc n 4
        else (if miss = 0 then d else d.countLoom n t va).setLoom n { (if miss = 0 then d else d.countLoom n t va).loom n with stall := .lock ln }

/-- UNLOCK. -/
def Dev.unlock (d : Dev) (n : LoomId) (a : CacheArgs) : Dev :=
  d.cacheOp n .hint a fun d _ _ x =>
    let ln := BitVec.ofNat 40 (x / 256)
    let l := d.loom n
    ((d.setLoom n { l with cache := Fmap.mapAll (fun _ c => if c.line = ln then { c with lock := false } else c) l.cache }).showLocked n).nextPc n 4

/-! ### Entries leave the store buffer (R147, R152, R157) -/

/-- An entry has become visible or acknowledged. -/
def Dev.popStore (d : Dev) (n : LoomId) (e : StEnt) : Dev := d.setLoom n { d.loom n with stb := eraseOne e (d.loom n).stb }
/-- An entry changes. -/
def Dev.setStore (d : Dev) (n : LoomId) (e e' : StEnt) : Dev :=
  d.setLoom n { d.loom n with stb := updateIf (· = e) (fun _ => e') (d.loom n).stb }

/-- A write of a loom was discarded or has an unknown outcome (R165): a ledger event with its address. -/
def Dev.lostWrite (d : Dev) (n : LoomId) (va : W64) : Dev :=
  d.report (tileSrc n 1) (mkDetail va.toNat n.toNat 0) (d.wingOf n)

/-- The entry is discarded on a broken path. -/
def Dev.dropStore (d : Dev) (n : LoomId) (e : StEnt) : Dev :=
  let d := (d.popStore n e).lostWrite n e.va
  d.setLoom n { d.loom n with lost := true }

/-- Sends the entry to its home as a Write or a ReduceWrite. -/
def Dev.sendStore (d : Dev) (n : LoomId) (e : StEnt) : Dev :=
  let (tag, d) := d.newTag
  let sects := (List.range 4).foldl (fun (s : BitVec 4) k => if maskSector e.mask k ≠ 0 then setBit4 s k else s) 0
  (d.setStore n e { e with begun := true, sent := true, tags := [tag] }).sendReq
    { kind := if e.dest = .alias_ then .reduceWrite else .write, src := .treadle n, tag := tag, line := e.line.setWidth 40,
      sects := sects, data := e.data, mask := e.mask, wing := BitVec.ofNat 4 (d.wingOf n) }

/-- After sending on a path: an early acknowledgement lets the entry leave at once. -/
def Dev.sentStore (d : Dev) (n : LoomId) (e : StEnt) (tags : List Nat) : Dev :=
  if e.attr.toNat = attrDeviceEa then
    let d := d.popStore n e
    d.setLoom n { d.loom n with early := (d.loom n).early ++ tags.map (fun t => { tag := t, dest := e.dest, va := e.va }) }
  else d.setStore n e { e with begun := true, sent := true, tags := tags }

/-- Sends the messages of an entry to a peer. -/
def Dev.storeToPeer (d : Dev) (n : LoomId) (e : StEnt) (p : PeerId) : Dev :=
  let off := (e.line.toNat * 256 - remoteBase) % 2 ^ 41
  let early := e.attr.toNat = attrDeviceEa
  let ms := peerWrites (BitVec.ofNat 4 (d.wingOf n)) vcOwr off e.mask e.data
  let (res, tags, d') := ms.foldl (fun (x : Sent × List Nat × Dev) m =>
    if x.1 ≠ .ok then x else
    let (tag, d) := x.2.2.newTag
    match d.peerSend (.treadle n) tag p m early with
    | (r, d) => (r, x.2.1 ++ [tag], d)) (Sent.ok, [], d)
  match res with
  | .ok => d'.sentStore n e tags
  | .hold => d
  | .broken => d'.dropStore n e

/-- Sends the lines of an entry to a host; an ATC miss stalls the entry (R480). -/
def Dev.storeToHost (d : Dev) (n : LoomId) (e : StEnt) (h : HeadId) : Dev :=
  if d.pathBroken h then d.dropStore n e
  else
    let ks := (List.range 4).filter (fun k => maskSector e.mask k ≠ 0)
    match d.hostAddr (.storeBuf n) (d.wingOf n) e.va h (e.line.toNat * 256) true ((e.tlb.map (fun t => pageBytes t.big)).getD 0) with
    | (none, d) => d
    | (some x, d) =>
      let base := x / 256 * 256
      let (tags, d) := ks.foldl (fun (y : List Nat × Dev) k =>
        let (tag, d) := y.2.newTag
        (y.1 ++ [tag], d.hostSend h (hostWrite tag (.treadle n) (base + 64 * k) (maskSector e.mask k) (Line.sector e.data k)
          (e.attr.toNat = attrDeviceEa)))) (([] : List Nat), d)
      d.sentStore n e tags

/-- Full-sector stores to absent lines are counted for the streaming state (R152): the new count and the address of
the last counted sector; none when a store of the entry is no full sector in sequence. -/
def streamStep (count last : Nat) (line : Nat) (mask : BitVec 256) : Nat × Nat × Bool :=
  ((List.range 4).filter (fun k => maskSector mask k ≠ 0)).foldl (fun (x : Nat × Nat × Bool) k =>
    let a := 256 * line + 64 * k
    if maskSector mask k ≠ BitVec.allOnes 64 then (x.1, x.2.1, false)
    else if x.1 ≠ 0 && a = x.2.1 + 64 then (min (x.1 + 1) 16, a, x.2.2)
    else (1, a, false)) (count, last, true)

/-- In the streaming state a store to a present line keeps it only as a full-sector store 64 bytes above the previous one;
cache operations leave it alone (R152, Table 6-1 note 3). -/
def Dev.streamPast (d : Dev) (n : LoomId) (e : StEnt) : Dev :=
  if d.fld Fld.CACHE_STATUS_STREAMING n.toNat = 0 || e.zero || e.begun then d
  else
    let (_, last, seq) := streamStep (d.loom n).streamCount (d.loom n).streamLast e.line.toNat e.mask
    if seq then d.setLoom n { d.loom n with streamLast := last } else d.leaveStreaming n

/-- The entry writes into its cached line, or requests what it lacks (R147). -/
def Dev.storeCached (d : Dev) (n : LoomId) (e : StEnt) (key : Nat) (fresh : Bool) : Dev :=
  let c := Fmap.get {line := 0} (d.loom n).cache key
  let ks := (List.range 4).filter (fun k => maskSector e.mask k ≠ 0)
  if ks.all (fun k => c.st k = .m || c.st k = .e) then
    let data := ks.foldl (fun l k => Line.setSector l k (mergeSector (Line.sector l k) (Line.sector e.data k) (maskSector e.mask k))) c.data
    let c := ks.foldl (fun (c : CLine) k => { c.setSt k .m with clean := clrBit4 c.clean k }) c
    (d.putLine n key { c with data := data }).popStore n e
  else
    let sel (p : Nat → Bool) : BitVec 4 := (List.range 4).foldl (fun (s : BitVec 4) k => if p k && !c.wait.getLsbD k then setBit4 s k else s) 0
    let d := d.setStore n e { e with begun := true }
    -- a fill counts, ownership alone does not (R292)
    let fill := !e.zero && ((sel (fun k => ks.contains k && c.st k = .i)) ≠ 0 || (fresh && sel (fun k => c.st k = .i) ≠ 0))
    let d := match e.tlb with
      | some t => if fill then d.countLoom n t e.va else d
      | none => d
    if e.zero then d.cacheReq n .ownNoData key (sel (fun k => c.st k ≠ .m && c.st k ≠ .e))
    else
      let d := d.cacheReq n .readOwn key (sel (fun k => ks.contains k && c.st k = .i))
      let d := d.cacheReq n .upgrade key (sel (fun k => ks.contains k && (c.st k = .s || c.st k = .o)))
      if fresh then d.cacheReq n .readShared key (sel (fun k => !ks.contains k && c.st k = .i)) else d

/-- CLEAN.LINE leaves: WriteClean of every M or O sector, and the entry waits for the home's acknowledgement. -/
def Dev.storeClean (d : Dev) (n : LoomId) (e : StEnt) : Dev :=
  let ln := e.line.setWidth 40
  match (d.loom n).findLine ln with
  | some (key, c) =>
    if c.dirty = 0 then d.popStore n e
    else
      let (tag, d) := d.newTag
      let d := d.putLine n key { c with clean := c.dirty }
      let mask := (sectList c.dirty).foldl (fun (m : BitVec 256) k => m ||| fullMask k) 0
      (d.setStore n e { e with begun := true, sent := true, tags := [tag] }).sendReq
        { kind := .writeClean, src := .cache n, tag := tag, line := ln, sects := c.dirty, data := c.data, mask := mask,
          wing := BitVec.ofNat 4 (d.wingOf n) }
  | none => if ((d.loom n).findEvict ln).isSome then d else d.popStore n e

/-- A store may be sent while an earlier one on path `a` has no acknowledgement yet: a peer's path keeps the order of its
writes, and writes to two paths, or to host or peer and to device memory, may become visible in either order (R160). -/
def Dest.passes (a b : Dest) : Bool :=
  match a, b with
  | .host h, .host k => h ≠ k
  | .peer _, _ | .host _, _ | _, .peer _ | _, .host _ => true
  | _, _ => false

/-- A store resumed with RETRY takes its new translation (R480); none while it waits or after its fault. -/
def Dev.storeRetranslate (d : Dev) (n : LoomId) (e : StEnt) : Option StEnt × Dev :=
  if !e.again then (some e, d)
  else match d.translate (.storeBuf n) (d.wingOf n) e.va .store with
    | (.miss, d) => (none, d)
    | (.fault f, d) => (none, d.fault (.storeBuf n) (d.wingOf n) e.va .store f)
    | (.ok t x, d) =>
      let e' := { e with again := false, dest := destOf t x, attr := BitVec.ofNat 3 (pteAttr t.leaf),
                         line := BitVec.ofNat 56 (x / 256), tlb := some t }
      (some e', d.setStore n e e')

/-- Counts an uncached write to device memory (R292). -/
def Dev.countStore (d : Dev) (n : LoomId) (e : StEnt) : Dev :=
  match e.tlb with
  | some t => d.countLoom n t e.va
  | none => d

/-- An entry for display or depot memory leaves (R147, R152). -/
def Dev.storeToMem (d : Dev) (n : LoomId) (e : StEnt) : Dev :=
        let ln := e.line.setWidth 40
        let uncached (d : Dev) : Dev := (d.countStore n e).sendStore n e
        if e.clean then d.storeClean n e
        else if e.attr.toNat ≥ attrDeviceEa then (if e.zero then (d.streamPast n e).countStore n e else d.streamPast n e).sendStore n e
        else
          let l := d.loom n
          match l.findLine ln with
          | some (key, _) => (d.streamPast n e).storeCached n e key false
          | none =>
            if (l.findEvict ln).isSome then
              (match d.reinstall n ln (fun _ => true) with
                | some (.way key, d) => (d.streamPast n e).storeCached n e key false
                | _ => d)
            else if e.attr.toNat = attrStream then uncached (d.streamPast n e)
            else
              let streaming := d.fld Fld.CACHE_STATUS_STREAMING n.toNat = 1
              let (cnt, last, seq) := streamStep l.streamCount l.streamLast ln.toNat e.mask
              let stream := !e.zero && d.fld Fld.CACHE_CTRL_STREAM_DETECT n.toNat = 1
              if stream && streaming && seq then uncached (d.setLoom n { l with streamLast := last })
              else
                let d1 := if !stream then d
                  else if streaming then d.leaveStreaming n
                  else
                    let full := ((List.range 4).filter (fun k => maskSector e.mask k = BitVec.allOnes 64)) ≠ []
                    let d := if full then d.setLoom n { l with streamCount := cnt, streamLast := last } else d
                    if cnt ≥ 16 then d.setFld Fld.CACHE_STATUS_STREAMING n.toNat 1 else d
                match d1.allocWay n ln (fun _ => true) with
                | (.way key, d) => d.storeCached n e key true
                | (.bypass, d) => uncached (d.setFld Fld.CACHE_STATUS_BYPASS n.toNat 1)
                | (.hold, _) => d

/-- STORE_BUFFER_ENTRY_LEAVE: the oldest entry that has not been sent becomes visible, is sent, or requests what it needs; a
store outside display and depot memory ends the streaming state (R152). -/
def Dev.storeLeave (d : Dev) (n : LoomId) : Dev :=
  match (d.loom n).nextStore with
  | none => d
  | some e =>
    if e.stalled then d
    else match d.storeRetranslate n e with
      | (none, d) => d
      | (some e, d) =>
        if ((d.loom n).stb.takeWhile (·.sent)).any (fun x => !x.dest.passes e.dest) then d
        else match e.dest with
          | .peer p => (d.leaveStreaming n).storeToPeer n e p
          | .host h => (d.leaveStreaming n).storeToHost n e h
          | .scratch => (d.leaveStreaming n).sendStore n e
          | .alias_ => (d.leaveStreaming n).sendStore n e
          | .mem => d.storeToMem n e

/-- An acknowledgement of a store or of an early-acknowledged write; a lost one keeps its place until its wait ends
(R165, R166). -/
def Dev.storeAck (d : Dev) (n : LoomId) (tag : Nat) (r : Reply) : Dev :=
  let l := d.loom n
  match l.stb.find? (fun e => e.tags.contains tag) with
  | some e =>
    if r.lost then (d.setStore n e { e with lostAt := some d.tick }).lostWrite n e.va
    else
      let d := if r.denied then d.lostWrite n e.va else d
      let e' := { e with tags := e.tags.filter (· ≠ tag) }
      if e'.tags.isEmpty && e.sent && e.lostAt.isNone then d.popStore n e else d.setStore n e e'
  | none =>
    match l.early.find? (fun w => w.tag = tag) with
    | some w =>
      if r.lost then (d.setLoom n { l with early := updateIf (fun x => x.tag = tag) (fun x => { x with lostAt := some d.tick }) l.early }).lostWrite n w.va
      else (if r.denied then d.lostWrite n w.va else d).setLoom n { l with early := eraseOne w l.early }
    | none => d

/-- Unsent stores of every loom to a path that broke are discarded (R165); one stalled on a host fault waits for its resume or
its timer (R287, R480). -/
def Dev.discardStores (d : Dev) (p : Dest → Bool) : Dev :=
  (Fmap.keys d.looms).foldl (fun (d : Dev) i =>
    let n := BitVec.ofNat 12 i
    let goes (e : StEnt) : Bool := p e.dest && !e.sent && !(e.stalled && d.inRecord (.storeBuf n))
    let gone := (d.loom n).stb.filter goes
    if gone.isEmpty then d
    else
      let d' := d.setLoom n { d.loom n with stb := (d.loom n).stb.filter (fun e => !goes e), lost := true }
      let d' := if gone.any (·.stalled) then d'.leaveRec (.storeBuf n) else d'
      gone.foldl (fun d e => d.lostWrite n e.va) d') d

/-! ### Fences (R164, R166) -/

/-- An early-acknowledged write of a transfer that still runs, which no fence issued now covers (Table 6-3 note 1). -/
def Loom.ofRunning (l : Loom) (w : EarlyW) : Bool := l.xferRun.any (fun x => some x.id = w.xfer)

/-- Early-acknowledged writes a fence covers: toward hosts for FENCE.IO, all for FENCE.GLOBAL. -/
def Loom.cover (l : Loom) (k : FenceKind) : List Nat :=
  let done := l.early.filter (fun w => !l.ofRunning w)
  match k with
  | .sl | .all => []
  | .io => (done.filter (fun w => match w.dest with | .host _ => true | _ => false)).map (·.tag)
  | .global => done.map (·.tag)

/-- FENCE.SL, FENCE.ALL, FENCE.IO, FENCE.GLOBAL. -/
def Dev.fence (d : Dev) (n : LoomId) (k : FenceKind) (a : SysArgs) : Dev :=
  d.issue n fun d =>
    if a.rd ≠ 0 ∨ a.rs1 ≠ 0 ∨ a.imm ≠ 0 then d.stop n .illegalInstruction
    else d.setLoom n { d.loom n with stall := .fence k ((d.loom n).cover k) }

/-- The conditions of Table 6-3. -/
def Loom.fenceMet (l : Loom) (cover : List Nat) : Bool :=
  l.stb.isEmpty && l.cleanTags.isEmpty && !l.early.any (fun w => cover.contains w.tag)

/-- Sets FENCE_FAULT when the fence covers a lost write, and forgets the losses it reported.  Losses of transfers that
ended while the fence waited are left to the next one (Table 6-3 note 1). -/
def Dev.fenceFault (d : Dev) (n : LoomId) (k : FenceKind) : Dev :=
  let l := d.loom n
  let hostToo := k = .io || k = .global
  let peerToo := k = .global
  let l' := { l with lost := false, lostHost := l.lateHost || (!hostToo && l.lostHost),
                     lostPeer := l.latePeer || (!peerToo && l.lostPeer), lateHost := false, latePeer := false }
  let d := d.setLoom n l'
  if l.lost || (hostToo && l.lostHost) || (peerToo && l.lostPeer) then
    (d.setFld Fld.TREADLE_STATUS_FENCE_FAULT n.toNat 1).report (tileSrc n 1) (mkDetail l.pc.toNat n.toNat 1) (d.wingOf n)
  else d

/-- A loom arrives at its barrier group (R113). -/
def Dev.arrive (d : Dev) (n : LoomId) (rd : Reg) : Dev :=
  match (d.loom n).group with
  | none => d.stop n .noBarrierGroup
  | some g =>
    let k := groupKey (d.wingOf n) g
    let gr := d.group k
    let d := d.setLoom n { d.loom n with stall := .barrier rd }
    if gr.broken then Dev.releaseMember 1 d n
    else
      let d := d.setGroup k { gr with arrivals := gr.arrivals + 1, waiting := gr.waiting ++ [n] }
      if gr.arrivals + 1 = gr.count then d.releaseGroup k 0 else d

/-- FENCE_COMPLETE: the treadle goes on past its fence, or arrives at its barrier. -/
def Dev.fenceComplete (d : Dev) (n : LoomId) : Dev :=
  let l := d.loom n
  match l.stall with
  | .fence k cover =>
    if l.fenceMet cover then ((d.fenceFault n k).setLoom n { (d.fenceFault n k).loom n with stall := .run }).nextPc n 4 else d
  | .barrierFence rd cover => if l.fenceMet cover then (d.fenceFault n .all).arrive n rd else d
  | _ => d

/-- BARRIER: a FENCE.ALL, then the arrival (R113). -/
def Dev.barrier (d : Dev) (n : LoomId) (a : SysArgs) : Dev :=
  d.issue n fun d =>
    if a.rs1 ≠ 0 ∨ a.imm ≠ 0 then d.stop n .illegalInstruction
    else if (d.loom n).group.isNone then d.stop n .noBarrierGroup
    else d.setLoom n { d.loom n with stall := .barrierFence a.rd [] }

/-- BROKEN_PATH_WAIT_EXPIRY: what still waits on a path that broke 2 ms ago leaves with its outcome unknown (R166). -/
def Dev.brokenExpiry (d : Dev) (n : LoomId) : Dev :=
  let l := d.loom n
  let old (t : Option Nat) : Bool := match t with | some k => k + 2000 ≤ d.tick | none => false
  let goneS := l.stb.filter (fun e => old e.lostAt)
  let goneE := l.early.filter (fun w => old w.lostAt)
  -- a write that a waiting fence does not cover is left to the next one (Table 6-3 note 1)
  let late (w : EarlyW) : Bool := match l.stall with
    | .fence _ c => !c.contains w.tag
    | .barrierFence _ c => !c.contains w.tag
    | _ => false
  let isHost (w : EarlyW) : Bool := match w.dest with | .host _ => true | _ => false
  let isPeer (w : EarlyW) : Bool := match w.dest with | .peer _ => true | _ => false
  (d.setLoom n { l with stb := l.stb.filter (fun e => !old e.lostAt), early := l.early.filter (fun w => !old w.lostAt),
                        lost := l.lost || !goneS.isEmpty,
                        lostHost := l.lostHost || goneE.any (fun w => isHost w && !late w),
                        lateHost := l.lateHost || goneE.any (fun w => isHost w && late w),
                        lostPeer := l.lostPeer || goneE.any (fun w => isPeer w && !late w),
                        latePeer := l.latePeer || goneE.any (fun w => isPeer w && late w) }).fenceComplete n

/-! ### Answers of homes to the data cache -/

/-- Applies an answer to a pending request: CompAck goes out when its last sector has arrived (R175). -/
def Dev.pendDone (d : Dev) (n : LoomId) (tag : Nat) (line : BitVec 40) (sects : BitVec 4) : Dev :=
  let l := d.loom n
  match l.pend.find? (fun p => p.1 = tag) with
  | none => d
  | some p =>
    let left := p.2.2 &&& ~~~sects
    let d := d.setLoom n { l with pend := if left = 0 then eraseOne p l.pend else updateIf (· = p) (fun _ => (tag, line, left)) l.pend }
    if left = 0 then d.sendMsg { kind := .compAck, agent := .cache n, tag := tag, line := line, sects := sects } else d

/-- A line that was waited for has arrived: the load completes, stops on poison, or is sent again if its sector was
taken meanwhile (R146, R227). -/
def Dev.wakeFill (d : Dev) (n : LoomId) (line : BitVec 40) (poison : BitVec 4) : Dev :=
  let l := d.loom n
  match l.stall with
  | .fill w a ln =>
    if ln ≠ line then d
    else
      match l.findLine ln with
      | none => d.setLoom n { l with stall := .run }
      | some (_, c) =>
        let k := a / 64 % 4
        if c.wait ≠ 0 then d
        else if c.st k ≠ .i then d.loadDone n w (a % 256) c.data
        else if poison.getLsbD k then d.stop n .poisonedLoad
        else d.setLoom n { l with stall := .run }
  | .lock ln =>
    if ln ≠ line then d
    else match l.findLine ln with
      | none => d.setLoom n { l with stall := .run }
      | some (_, c) =>
        if c.wait ≠ 0 then d
        else if poison ≠ 0 then d.stop n .poisonedLoad
        else (d.setLoom n { l with stall := .run }).nextPc n 4
  | _ => d

/-- DATA for a data cache: sectors take their granted state; a poisoned sector stays invalid (R227). -/
def Dev.cacheData (d : Dev) (n : LoomId) (m : Msg) : Dev :=
  let d := match (d.loom n).findLine m.line with
    | none => d
    | some (key, c) =>
      let c := (sectList m.sects).foldl (fun (c : CLine) k =>
        if m.poison.getLsbD k then c.setSt k .i
        else { c.setSt k (if m.own.getLsbD k then .m else if m.excl.getLsbD k then .e else .s) with
               data := Line.setSector c.data k (Line.sector m.data k) }) c
      d.putLine n key { c with wait := c.wait &&& ~~~m.sects }
  (d.pendDone n m.tag m.line m.sects).wakeFill n m.line m.poison

/-- COMP for a data cache: ownership without data (Upgrade, OwnNoData), a WriteBack, a WriteClean. -/
def Dev.cacheComp (d : Dev) (n : LoomId) (m : Msg) : Dev :=
  let l := d.loom n
  if l.pend.any (fun p => p.1 = m.tag) then
    let d := match l.findLine m.line with
      | none => d
      | some (key, c) =>
        let zero := l.stb.any (fun e => e.zero && e.begun && !e.sent && e.line.setWidth 40 = m.line)
        -- an upgraded sector keeps its data and is now the only copy (M); OwnNoData is written at once
        let c := (sectList m.sects).foldl (fun (c : CLine) k =>
          if zero then { c.setSt k .m with data := Line.setSector c.data k 0 }
          else if c.st k = Moesi.i then c else c.setSt k .m) c
        d.putLine n key { c with wait := c.wait &&& ~~~m.sects }
    (d.pendDone n m.tag m.line m.sects).wakeFill n m.line 0
  else if l.evict.any (fun e => e.sent && e.tag = m.tag) then
    let d := d.setLoom n { l with evict := l.evict.filter (fun e => !(e.sent && e.tag = m.tag)),
                                  cleanTags := l.cleanTags.filter (· ≠ m.tag) }
    d
  else
    -- WriteClean: M becomes E and O becomes S
    let d := match l.findLine m.line with
      | none => d
      | some (key, c) =>
        let c := (sectList (m.sects &&& c.clean)).foldl (fun (c : CLine) k =>
          if c.st k = Moesi.m then c.setSt k .e else if c.st k = Moesi.o then c.setSt k .s else c) c
        d.putLine n key { c with clean := c.clean &&& ~~~m.sects }
    let d := d.setLoom n { d.loom n with cleanTags := (d.loom n).cleanTags.filter (· ≠ m.tag) }
    d.storeAck n m.tag {}

/-- The end of a way power change or CACHE_OP, once every write-back is acknowledged and no powered-down way holds a line
(R151, R168). -/
def Dev.cacheOpEnd (d : Dev) (n : LoomId) : Dev :=
  let l := d.loom n
  let held := (Fmap.keys l.cache).any (fun k => !d.fldBit Fld.CACHE_CTRL_WAY_ON n.toNat (k % 8))
  if !l.cleanTags.isEmpty then d
  else match l.stall with
    | .ways _ => if held then d else ((d.setLoom n { l with stall := .run }).setFld Fld.CACHE_STATUS_WAY_BUSY n.toNat 0).nextPc n 4
    | .cacheOp _ => ((d.setLoom n { l with stall := .run }).setFld Fld.CACHE_STATUS_WAY_BUSY n.toNat 0).nextPc n 4
    | _ => d

/-- The answer to a Recall of one sector in state `st`, and the state it leaves (R184): keep returns data and keeps the copy,
copy changes nothing, inv invalidates; without a copy the answer brings no data. -/
def snoopState (k : MsgKind) (st : Moesi) : Moesi :=
  match k, st with
  | _, .i => .i
  | .recallKeep, .m => .o
  | .recallKeep, .e => .s
  | .recallKeep, x => x
  | .recallCopy, x => x
  | _, _ => .i

/-- RECALL at a loom, answered from the line in the cache or in the eviction buffer (R148); once the WriteBack has been sent the
entry keeps nothing (Table 7-9). -/
def Dev.loomRecall (d : Dev) (n : LoomId) (m : Msg) : Dev :=
  (sectList m.sects).foldl (fun (d : Dev) k =>
    let l := d.loom n
    let bit := (1 : BitVec 4) <<< k
    let answer (d : Dev) (c : CLine) (kept : Bool) : Dev :=
      let st := c.st k
      if st = .i then d.sendMsg { kind := .recallAck, agent := .cache n, tag := m.tag, line := m.line, sects := bit }
      else d.sendMsg { kind := .recallData, agent := .cache n, tag := m.tag, line := m.line, sects := bit,
                       data := Line.setSector 0 k (Line.sector c.data k), excl := if st = .m || st = .o then bit else 0,
                       own := if kept && m.kind ≠ .recallInv then bit else 0 }
    let inEvict (d : Dev) : Dev := match l.findEvict m.line with
      | some e =>
        let st := if e.sent then Moesi.i else snoopState m.kind (e.l.st k)
        let c := if e.sent && e.l.st k ≠ .m && e.l.st k ≠ .o then e.l.setSt k .i else e.l
        answer (d.setLoom n { l with evict := updateIf (· = e) (fun x => { x with l := x.l.setSt k st }) l.evict }) c (!e.sent)
      | none => d.sendMsg { kind := .recallAck, agent := .cache n, tag := m.tag, line := m.line, sects := bit }
    match l.findLine m.line with
    | some (key, c) => if c.st k = .i then inEvict d else answer (d.putLine n key (c.setSt k (snoopState m.kind (c.st k)))) c true
    | none => inEvict d) d

/-- INVALIDATE at a loom; a multicast spares the requester whose transaction it belongs to (R181). -/
def Dev.loomInvalidate (d : Dev) (n : LoomId) (m : Msg) : Dev :=
  let d := if m.ok then d else (sectList m.sects).foldl (fun (d : Dev) k => d.setLoom n ((d.loom n).dropSector m.line k)) d
  d.sendMsg { kind := .invAck, agent := .cache n, tag := m.tag, line := m.line, sects := m.sects }

/-- Unsent eviction buffer entries without a dirty sector have nothing left to write back. -/
def Dev.trimEvict (d : Dev) (n : LoomId) : Dev :=
  d.setLoom n { d.loom n with evict := (d.loom n).evict.filter (fun e => e.sent || e.l.dirty ≠ 0) }

/-- A way for a stashed line without an eviction: the line's own, one that holds nothing, or an eligible one whose sectors are
clean. -/
def Dev.stashWay (d : Dev) (n : LoomId) (line : BitVec 40) : Option (Nat × Dev) :=
  match d.lineFor n line (fun _ => true) with
  | (.way key, _, d) => some (key, d)
  | (.bypass, _, _) => none
  | (.hold, _, _) =>
    let set := cacheSet line
    let at_ (w : Nat) : CLine := Fmap.get {line := 0} (d.loom n).cache (8 * set + w)
    let ok (w : Nat) : Bool := d.fldBit Fld.CACHE_CTRL_WAY_ON n.toNat w && !(at_ w).lock && (at_ w).wait = 0 && (at_ w).dirty = 0
    (((List.range 8).find? ok)).map (fun w => (8 * set + w, d.putLine n (8 * set + w) { line := line }))

/-- STASH at a loom: installs the pushed sectors in E when the line is present or its set has an eligible way, the loom belongs to
the writer's wing and its tile runs; else declines (R190).  A Stash never waits: a way that no eviction frees now, and a
line whose WriteBack is under way, decline (notes/assumptions/59.md). -/
def Dev.loomStash (d : Dev) (n : LoomId) (m : Msg) (running : Bool) : Dev :=
  let no (d : Dev) : Dev := d.sendMsg { kind := .stashAck, agent := .cache n, tag := m.tag, line := m.line, sects := m.sects }
  let going := match (d.loom n).findEvict m.line with
    | some e => e.sent
    | none => false
  if !running || d.wingOf n ≠ m.wing.toNat || going then no d
  else match d.stashWay n m.line with
    | some (key, d) =>
      let c := Fmap.get {line := 0} (d.loom n).cache key
      let c := (sectList m.sects).foldl (fun (c : CLine) k =>
        { c.setSt k .e with data := Line.setSector c.data k (Line.sector m.data k) }) c
      (d.putLine n key c).sendMsg { kind := .stashAck, agent := .cache n, tag := m.tag, line := m.line, sects := m.sects, ok := true }
    | none => no d

/-- WRITE_BACK from a loom: the eviction buffer sends the entry of the line (R148). -/
def Dev.sendEvict (d : Dev) (n : LoomId) (line : BitVec 40) : Option (Req × Dev) :=
  match (d.loom n).evict.find? (fun e => e.l.line = line && !e.sent) with
  | none => none
  | some e =>
    let (tag, d) := d.newTag
    let l := d.loom n
    let mask := (sectList e.l.dirty).foldl (fun (m : BitVec 256) k => m ||| fullMask k) 0
    let d := d.setLoom n { l with evict := updateIf (· = e) (fun x => { x with sent := true, tag := tag }) l.evict }
    some ({ kind := .writeBack, src := .cache n, tag := tag, line := line, sects := e.l.dirty, data := e.l.data, mask := mask,
            wing := BitVec.ofNat 4 (d.wingOf n) }, d)

/-! ### Whole-cache operations (R151, R168, R182) -/

/-- Sends a dirty line home with WriteBack from the eviction side and invalidates it; locks drop.  A fill under way keeps the
line's place until it has arrived. -/
def Dev.flushKey (d : Dev) (n : LoomId) (key : Nat) : Dev :=
  match Fmap.find (d.loom n).cache key with
  | none => d
  | some c =>
    let l := d.loom n
    let kept := if c.wait = 0 then Fmap.del l.cache key else Fmap.put l.cache key { line := c.line, wait := c.wait }
    let d := d.setLoom n { l with cache := kept }
    if c.dirty = 0 then d
    else
      let (tag, d) := d.newTag
      let l := d.loom n
      let mask := (sectList c.dirty).foldl (fun (m : BitVec 256) k => m ||| fullMask k) 0
      let d := d.setLoom n { l with evict := l.evict ++ [{ l := c, sent := true, tag := tag }], cleanTags := l.cleanTags ++ [tag] }
      d.sendReq { kind := .writeBack, src := .cache n, tag := tag, line := c.line, sects := c.dirty, data := c.data, mask := mask,
                  wing := BitVec.ofNat 4 (d.wingOf n) }

def Dev.flushWays (d : Dev) (n : LoomId) (ways : Nat → Bool) : Dev :=
  (((Fmap.keys (d.loom n).cache).filter (fun k => ways (k % 8))).foldl (fun d k => d.flushKey n k) d).showLocked n

/-- A line in a way that is powered down leaves it once its fill has arrived (R151). -/
def Dev.leaveWay (d : Dev) (n : LoomId) (line : BitVec 40) : Dev :=
  match (d.loom n).findLine line with
  | some (key, c) => if d.fldBit Fld.CACHE_CTRL_WAY_ON n.toNat (key % 8) || c.wait ≠ 0 then d else (d.flushKey n key).showLocked n
  | none => d

/-- The eviction buffer's lines of CLEAN_ALL and FLUSH_ALL: those not yet sent are written back, and the operation waits for the
acknowledgement of all (R168). -/
def Dev.evictAll (d : Dev) (n : LoomId) : Dev :=
  let d := ((d.loom n).evict.filter (fun e => !e.sent)).foldl (fun (d : Dev) e =>
    match d.sendEvict n e.l.line with
    | some (r, d) => d.sendReq r
    | none => d) d
  let l := d.loom n
  d.setLoom n { l with cleanTags := l.cleanTags ++ (l.evict.map (·.tag)).filter (fun t => !l.cleanTags.contains t) }

/-- WriteClean of every dirty line of the cache. -/
def Dev.cleanAll (d : Dev) (n : LoomId) : Dev :=
  ((d.loom n).cache.filter (fun c => c.2.dirty ≠ 0)).foldl (fun (d : Dev) (p : Nat × CLine) =>
    let c := p.2
    let (tag, d) := d.newTag
    let d := d.putLine n p.1 { c with clean := c.dirty }
    let d := d.setLoom n { d.loom n with cleanTags := (d.loom n).cleanTags ++ [tag] }
    let mask := (sectList c.dirty).foldl (fun (m : BitVec 256) k => m ||| fullMask k) 0
    d.sendReq { kind := .writeClean, src := .cache n, tag := tag, line := c.line, sects := c.dirty, data := c.data, mask := mask,
                wing := BitVec.ofNat 4 (d.wingOf n) }) d

def Dev.unlockAll (d : Dev) (n : LoomId) : Dev :=
  (d.setLoom n { d.loom n with cache := Fmap.mapAll (fun _ c => { c with lock := false }) (d.loom n).cache }).showLocked n

/-! ### Replies to the treadle -/

/-- A reply to an uncached load, an atomic, or a store of a treadle. -/
def Dev.treadleReply (d : Dev) (n : LoomId) (tag : Nat) (r : Reply) : Dev :=
  let l := d.loom n
  match l.stall with
  | .uncached w a t =>
    if t ≠ tag then d.storeAck n tag r
    else if r.lost then d.stop n .loadLinkLost
    else if r.denied then d.stop n .accessDenied
    else if r.poison.getLsbD (a / 64 % 4) then d.stop n .poisonedLoad
    else d.loadDone n w (a % 256) r.data
  | .atomic rd wide t =>
    if t ≠ tag then d.storeAck n tag r
    else if r.lost then d.stop n .atomicIndeterminate
    else if r.denied then d.stop n .accessDenied
    else if r.poison ≠ 0 then d.stop n .poisonedLoad
    else
      let v : W64 := r.data.setWidth 64
      ((d.setLoom n { l with stall := .run }).setReg n rd (if wide then v else (v.setWidth 32).setWidth 64)).nextPc n 4
  | _ => d.storeAck n tag r

end Sys2Proof.Machine
end

