-- ==== Sys2Proof/Machine/Fetch.lean ====
section
/-! DEFINITION. Instruction fetch (R86, R87, R116, R154): the instruction cache holds 64 sets of 4 lines of 128 bytes, filled
with untracked reads; a hit is neither translated nor checked again.  An instruction command takes effect when the words at
the pc are in the cache and spell it. -/

namespace Sys2Proof.Machine

/-- The cache lines of an instruction of `k` bytes at the pc. -/
def Loom.fetchLines (l : Loom) (k : Nat) : List Nat :=
  let a := l.pc.toNat / 128
  let b := (l.pc + BitVec.ofNat 56 (k - 4)).toNat / 128
  if a = b then [a] else [a, b]

/-- A line is in the instruction cache. -/
def Loom.cached (l : Loom) (x : Nat) : Bool := l.icache.any (fun c => c.1 = x)

/-- Every line of the instruction at the pc is in the instruction cache. -/
def Loom.fetched (l : Loom) (k : Nat) : Bool := (l.fetchLines k).all l.cached

/-- The 32-bit word at a 4-byte boundary, little-endian (R86); 0 where its line is not cached. -/
def Loom.codeWord (l : Loom) (pc : BitVec 56) : W32 :=
  match l.icache.find? (fun c => c.1 = pc.toNat / 128) with
  | some c => c.2.extractLsb' (8 * (pc.toNat % 128)) 32
  | none => 0

/-- The word at the pc in bits [31:0], and the one after it. -/
def Loom.code (l : Loom) : W64 := l.codeWord (l.pc + 4) ++ l.codeWord l.pc

/-- A filled line: the oldest of its set gives way when the four ways are taken. -/
def icacheAdd (c : List (Nat × BitVec 1024)) (x : Nat) (code : BitVec 1024) : List (Nat × BitVec 1024) :=
  let set := c.filter (fun y => y.1 % 64 = x % 64)
  match set with
  | y :: _ => if set.length ≥ 4 then eraseOne y c ++ [(x, code)] else c ++ [(x, code)]
  | [] => c ++ [(x, code)]

/-- The treadle stalls until the answers to these tags have brought the line; `code` is what has arrived. -/
def Dev.fetchWait (d : Dev) (n : LoomId) (x : Nat) (tags : List Nat) (code : BitVec 1024) : Dev :=
  d.setLoom n { d.loom n with stall := .fetch x tags code }

/-- A miss: the line is translated with execute permission and read from its home, its peer or its host. -/
def Dev.fetchMiss (d : Dev) (n : LoomId) (x : Nat) : Dev :=
  let va : W64 := BitVec.ofNat 64 (128 * x)
  match d.translate (.ifetch n) (d.wingOf n) va .exec with
  | (.miss, d) => d
  | (.fault f, d) => d.fault (.ifetch n) (d.wingOf n) va .exec f
  | (.ok t a, d) =>
    let wing : WingId := BitVec.ofNat 4 (d.wingOf n)
    let (tag, d1) := d.newTag
    match destOf t a with
    | .peer p =>
      let m : PMsg := { opc := opcRd, vc := vcReq, epoch := 0, wing := wing, len := 128, off := BitVec.ofNat 48 ((a - remoteBase) % 2 ^ 41) }
      (match d1.peerSend (.ifetch n) tag p m false with
        | (.ok, d) => d.fetchWait n x [tag] 0
        | (.hold, _) => d
        | (.broken, d) => d.stop n .loadLinkLost)
    | .host h =>
      if d.pathBroken h then d.stop n .loadLinkLost
      else (match d1.hostAddr (.ifetch n) wing.toNat va h a false (pageBytes t.big) with
        | (none, d) => d
        | (some y, d) =>
          let (tag2, d) := d.newTag
          let r : HostReq := { tag := tag, op := .rdCurr, src := .ifetch n, addr := y / 128 * 128 }
          ((d.hostSend h r).hostSend h { r with tag := tag2, addr := y / 128 * 128 + 64 }).fetchWait n x [tag, tag2] 0)
    | _ =>
      (d1.sendReq { kind := .readOnce, src := .ifetch n, tag := tag, line := BitVec.ofNat 40 (a / 256),
                    sects := (3 : BitVec 4) <<< (a / 128 % 2 * 2), wing := wing }).fetchWait n x [tag] 0

/-- An instruction of `k` bytes: a missing line is fetched first; words that spell no instruction stop the treadle (R87); the
instruction `i` runs when the words at the pc spell it, and another one cannot run there. -/
def Dev.instr (d : Dev) (i : Instr) (n : LoomId) (k : Nat) (f : Dev → Dev) : Dev :=
  if !d.ready n then d
  else match ((d.loom n).fetchLines k).find? (fun x => !(d.loom n).cached x) with
    | some x => d.fetchMiss n x
    | none =>
      match treadleInstr n (d.loom n).code with
      | none => d.stop n .illegalInstruction
      | some j => if j = i.spelled then f d else d

/-- An answer to an instruction fetch: poison, a lost link or a denial stops the treadle (Table 4-12); the line is there when
every answer has come. -/
def Dev.fetchReply (d : Dev) (n : LoomId) (tag : Nat) (r : Reply) : Dev :=
  let l := d.loom n
  match l.stall with
  | .fetch x tags code =>
    if !tags.contains tag then d
    else if r.lost then d.stop n .loadLinkLost
    else if r.denied then d.stop n .accessDenied
    else if r.poison ≠ 0 then d.stop n .poisonedLoad
    else
      let rest := tags.filter (· ≠ tag)
      let code := code ||| r.data.extractLsb' (1024 * (x % 2)) 1024
      if rest.isEmpty then d.setLoom n { l with stall := .run, icache := icacheAdd l.icache x code }
      else d.fetchWait n x rest code
  | _ => d

end Sys2Proof.Machine
end

