-- ==== Sys2Proof/Machine/Array.lean ====
section
/-! DEFINITION. The array arithmetic of spec/03_array_arithmetic.md (R62 to R80): one block result and its
addition into one accumulator element, in fast and strict mode, with the array flags of Table 3-4. -/

namespace Sys2Proof.Machine

/-- The array flags of Table 3-4. -/
structure AFlags where
  overflow : Bool := false
  underflow : Bool := false
  inexact : Bool := false
  invalid : Bool := false
  trunc : Bool := false
  deriving DecidableEq, Repr

def AFlags.or (a b : AFlags) : AFlags :=
  ⟨a.overflow || b.overflow, a.underflow || b.underflow, a.inexact || b.inexact, a.invalid || b.invalid,
   a.trunc || b.trunc⟩

/-- What a block yields (Tables 3-2, 3-3). -/
inductive BlockOut
  | nan
  | inf (neg : Bool)
  | fin (neg : Bool) (man : Nat) (exp : Int)
  deriving DecidableEq, Repr

/-- Alignment window W of Table 3-1; none = exact. -/
def window (fmt : Nat) : Option Nat :=
  if fmt = 6 || fmt = 7 || fmt = 8 then some 48 else if fmt = 12 || fmt = 13 then some 56 else none

/-- An element as the array reads it: BF16 and FP16 subnormals are flushed (R63). -/
def arrayElem (fmt c : Nat) : FV × AFlags :=
  if (fmt = 12 || fmt = 13) && isSubnormal (fmtLayout fmt) (c % 2 ^ 16) then
    (.fin (c / 2 ^ 15 % 2 = 1) 0 0, { underflow := true })
  else (decodeElem fmt c, {})

/-- Product classes of one block, gathered element by element (Table 3-2). -/
structure Prods where
  snan : Bool := false
  qnan : Bool := false
  infZero : Bool := false
  posInf : Bool := false
  negInf : Bool := false
  list : List (Bool × Nat × Int) := []
  flags : AFlags := {}
  deriving DecidableEq, Repr

def isNan : FV → Bool
  | .nan _ _ => true
  | _ => false
def isSNan : FV → Bool
  | .nan s _ => s
  | _ => false

/-- Adds one pair of elements to the products of the block (R62, R63, Table 3-2). -/
def Prods.add (fmt : Nat) (p : Prods) (ab : Nat × Nat) : Prods :=
  let (a, fa) := arrayElem fmt ab.1
  let (b, fb) := arrayElem fmt ab.2
  let p := { p with flags := p.flags.or (fa.or fb) }
  if isNan a || isNan b then
    { p with snan := p.snan || isSNan a || isSNan b, qnan := true }
  else
    match a, b with
    | .fin n1 m1 e1, .fin n2 m2 e2 =>
      if m1 * m2 = 0 then p else { p with list := (n1 != n2, m1 * m2, e1 + e2) :: p.list }
    | .inf n1, .inf n2 => if n1 != n2 then { p with negInf := true } else { p with posInf := true }
    | .inf n1, .fin n2 m2 _ =>
      if m2 = 0 then { p with infZero := true }
      else if n1 != n2 then { p with negInf := true } else { p with posInf := true }
    | .fin n1 m1 _, .inf n2 =>
      if m1 = 0 then { p with infZero := true }
      else if n1 != n2 then { p with negInf := true } else { p with posInf := true }
    | _, _ => p

/-- Exact sum of the products, as an integer at the lowest exponent. -/
def sumExact (l : List (Bool × Nat × Int)) : Int × Int :=
  let e := l.foldl (fun m p => min m p.2.2) (match l with | [] => 0 | p :: _ => p.2.2)
  (l.foldl (fun (s : Int) p => let v : Int := (p.2.1 * pow2 (p.2.2 - e) : Nat); if p.1 then s - v else s + v) 0, e)

/-- The windowed sum of R64: each product truncated toward minus infinity at `lsb`. -/
def sumWindow (w : Nat) (l : List (Bool × Nat × Int)) : Int × Int × Bool :=
  let emax := l.foldl (fun m p => max m (flog2 p.2.1 p.2.2))
    (match l with | [] => 0 | p :: _ => flog2 p.2.1 p.2.2)
  let lsb := emax - w + 1
  let r := l.foldl (fun (s : Int × Bool) p =>
    let (n, num, _) := splitAt p.2.1 p.2.2 lsb
    let lost := num ≠ 0
    let v : Int := if p.1 then -((n : Int) + (if lost then 1 else 0)) else (n : Int)
    (s.1 + v, s.2 || lost)) ((0 : Int), false)
  (r.1, lsb, r.2)

/-- The block result before the accumulator add (R64, R68, R78, Table 3-2). -/
def blockSum (fmt : Nat) (strict : Bool) (ab : List (Nat × Nat)) (xa xb : Nat) : BlockOut × AFlags :=
  if fmtScaled fmt && (xa = 0xFF || xb = 0xFF) then (.nan, {}) else
  let p := ab.foldl (Prods.add fmt) {}
  if p.snan then (.nan, { p.flags with invalid := true })
  else if p.qnan then (.nan, p.flags)
  else if p.infZero then (.nan, { p.flags with invalid := true })
  else if p.posInf && p.negInf then (.nan, { p.flags with invalid := true })
  else if p.posInf then (.inf false, p.flags)
  else if p.negInf then (.inf true, p.flags)
  else
    let sc : Int := if fmtScaled fmt then (xa : Int) + xb - 254 else 0
    match (if strict then none else window fmt) with
    | none =>
      let (s, e) := sumExact p.list
      (.fin (s < 0) s.natAbs (e + sc), p.flags)
    | some w =>
      let (s, e, lost) := sumWindow w p.list
      (.fin (s < 0) s.natAbs (e + sc), { p.flags with trunc := p.flags.trunc || lost, inexact := p.flags.inexact || lost })

/-- Rounds to 24 significant bits with an unbounded exponent, then to infinity or zero at FP32's limits
(R69 with truncation, R78 with nearest even). -/
def round24 (mode : RMode) (neg : Bool) (man : Nat) (exp : Int) : FV × AFlags :=
  if man = 0 then (.fin neg 0 0, {}) else
  let q := flog2 man exp - 23
  let (n0, num, den) := splitAt man exp q
  let n := roundMag mode neg 0 n0 num den
  let inex := num ≠ 0
  let e := flog2 n q
  if e ≥ 128 then (.inf neg, { overflow := true, inexact := true })
  else if e < -126 then (.fin neg 0 0, { underflow := true, inexact := true })
  else (.fin neg n q, { inexact := inex })

/-- Writes a rounded FP32 value (already on the grid). -/
def fp32Bits : FV → Nat
  | .fin neg man exp => (toFloat .fp32 .rtz 0 neg man exp).1
  | .inf neg => infCode .fp32 neg
  | .nan _ _ => canonNaN .fp32

/-- The block result as the accumulator takes it: strict mode rounds a finite one first, whatever the accumulator
holds (R78). -/
def blockRound (strict : Bool) : BlockOut → BlockOut × AFlags
  | .fin n m e =>
    if strict then
      (match round24 .rne n m e with
        | (.fin n m e, f) => (.fin n m e, f)
        | (.inf n, f) => (.inf n, f)
        | (.nan _ _, f) => (.nan, f))
    else (.fin n m e, {})
  | b => (b, {})

/-- The FP32 accumulator update with a block result already rounded for strict mode (R69 to R71, R74, R75, R78).  DESIGN CHOICE
(notes/assumptions/57.md): a subnormal accumulator raises UNDERFLOW where the block result is finite, as the procedure of R64
does; Table 3-3 shows no flag for the others. -/
def accJoin (strict : Bool) (acc : Nat) (s : BlockOut) : Nat × AFlags :=
  match decodeIeee .fp32 (acc % 2 ^ 32), s with
  | .nan _ _, _ => (canonNaN .fp32, {})
  | _, .nan => (canonNaN .fp32, {})
  | .inf n, .inf m => if n = m then (infCode .fp32 n, {}) else (canonNaN .fp32, { invalid := true })
  | .inf n, .fin _ _ _ => (infCode .fp32 n, {})
  | .fin _ _ _, .inf m => (infCode .fp32 m, {})
  | .fin n0 m0 e0, .fin n1 m1 e1 =>
    let sub := isSubnormal .fp32 (acc % 2 ^ 32)
    let f0 : AFlags := { underflow := sub }
    match FV.addFin false n0 (if sub then 0 else m0) e0 n1 m1 e1 with
    | .fin n m e =>
      if m = 0 then (0, f0)
      else
        let (r, fr) := round24 (if strict then .rne else .rtz) n m e
        (fp32Bits r, f0.or fr)
    | _ => (0, f0)

/-- The FP32 accumulator update (R69, R74, R78). -/
def accAdd (strict : Bool) (acc : Nat) (s : BlockOut) : Nat × AFlags :=
  let (b, f) := blockRound strict s
  let (r, g) := accJoin strict acc b
  (r, f.or g)

/-- The saturating INT32 accumulator update (R72). -/
def accAddInt (acc : Nat) (s : Int) : Nat × AFlags :=
  let t := signedOf 32 acc + s
  if t > 2 ^ 31 - 1 then (2 ^ 31 - 1, { overflow := true })
  else if t < -(2 ^ 31) then (2 ^ 31, { overflow := true })
  else ((t % 2 ^ 32).toNat, {})

/-- One block of one cell (R64, R72, R78): the new accumulator element and the flags it raises. -/
def cellBlock (fmt : Nat) (strict : Bool) (acc : Nat) (ab : List (Nat × Nat)) (xa xb : Nat) : Nat × AFlags :=
  if fmtInt fmt then
    let s := ab.foldl (fun (t : Int) p =>
      match decodeElem fmt p.1, decodeElem fmt p.2 with
      | .fin n1 m1 _, .fin n2 m2 _ => if n1 != n2 then t - (m1 * m2 : Nat) else t + (m1 * m2 : Nat)
      | _, _ => t) 0
    accAddInt acc s
  else
    let (s, f) := blockSum fmt strict ab xa xb
    let (r, g) := accAdd strict acc s
    (r, f.or g)

end Sys2Proof.Machine
end

