-- ==== Sys2Proof/Machine/ReedArith.lean ====
section
/-! DEFINITION. The lane arithmetic of the reed (spec/05_reed_vector_engine.md R125 to R139): float and integer lane
operations in fast and strict mode, reductions, approximations, conversions, block decoding and quantization. -/

namespace Sys2Proof.Machine

/-- The bits of REED_FLAGS. -/
def FFlags.bits (f : FFlags) : Nat :=
  (if f.overflow then 1 else 0) + (if f.underflow then 2 else 0) + (if f.inexact then 4 else 0)
    + (if f.invalid then 8 else 0) + (if f.divzero then 16 else 0) + (if f.flushed then 32 else 0)

/-- REED_CTRL as an instruction captured it. -/
structure RCtl where
  strict : Bool := false
  flush : Bool := false
  rm : RMode := .rne
  rule : Bool := false
  deriving DecidableEq, Repr

/-- The rounding of rnd codes 0 to 3 and of REED_CTRL.RM. -/
def rmOf (k : Nat) : RMode := if k = 0 then .rne else if k = 1 then .rtz else if k = 2 then .rup else .rdn

def RCtl.ofBits (c : W32) : RCtl :=
  ⟨c.getLsbD 3, c.getLsbD 2, rmOf (c.toNat % 4), c.getLsbD 4⟩

/-- Rounding of arithmetic (Table 5-5). -/
def RCtl.arith (c : RCtl) : RMode := if c.strict then c.rm else .rne

/-- Rounding of a conversion by its rnd field (Table 5-2). -/
def RCtl.conv (c : RCtl) (rnd : Nat) : RMode := if rnd = 4 then .sr else if rnd = 5 then c.rm else rmOf rnd

/-- Layout of a float lane type (Table 5-1). -/
def ltLayout (lt : Nat) : FLayout := if lt = 1 then .bf16 else if lt = 2 then .fp16 else .fp32
def ltWidth (lt : Nat) : Nat := if lt = 1 || lt = 2 then 16 else 32
def ltLanes (lt : Nat) : Nat := if lt = 1 || lt = 2 then 32 else 16

/-- A lane code read as an operand: under FLUSH a subnormal is a zero of its sign (R132). -/
def rdLane (L : FLayout) (c : RCtl) (x : Nat) : FV × FFlags :=
  if c.flush && isSubnormal L x then (.fin (x / 2 ^ (L.e + L.m) % 2 = 1) 0 0, { flushed := true })
  else (decodeIeee L x, {})

/-- A finite result written to a lane: rounded, and flushed under FLUSH (R132). -/
def wrFin (L : FLayout) (c : RCtl) (mode : RMode) (u : Nat) (neg : Bool) (man : Nat) (exp : Int) : Nat × FFlags :=
  let (r, f) := toFloat L mode u neg man exp
  if c.flush && isSubnormal L r then
    (zeroCode L neg, { f with flushed := true, underflow := true, inexact := true })
  else (r, f)

/-- The quiet form of a NaN code. -/
def quiet (L : FLayout) (x : Nat) : Nat := x ||| 2 ^ (L.m - 1)

/-- A NaN result from its operands (Table 5-5); INVALID when an operand signals or the operation creates the NaN. -/
def nanOut (L : FLayout) (c : RCtl) (ops : List FV) : Nat × FFlags :=
  let nans := ops.filter isNan
  let inv := nans.any isSNan || nans.isEmpty
  let code := match nans with
    | .nan _ k :: _ => if c.strict then quiet L k else canonNaN L
    | _ => canonNaN L
  (code, { invalid := inv })

/-- A value written to a lane. -/
def wrFV (L : FLayout) (c : RCtl) (v : FV) : Nat × FFlags :=
  match v with
  | .fin n m e => wrFin L c c.arith 0 n m e
  | .inf n => (infCode L n, {})
  | .nan _ _ => (canonNaN L, {})

def FV.neg : FV → FV
  | .fin n m e => .fin (!n) m e
  | .inf n => .inf (!n)
  | v => v

/-- va + vb on float lanes. -/
def fAdd (L : FLayout) (c : RCtl) (a b : FV) (ops : List FV) : Nat × FFlags :=
  if ops.any isNan then nanOut L c ops else
  match a, b with
  | .inf n, .inf m => if n = m then (infCode L n, {}) else nanOut L c []
  | .inf n, _ => (infCode L n, {})
  | _, .inf n => (infCode L n, {})
  | .fin n1 m1 e1, .fin n2 m2 e2 => wrFV L c (FV.addFin (c.arith = .rdn) n1 m1 e1 n2 m2 e2)
  | _, _ => nanOut L c ops

/-- va × vb on float lanes, as an exact value; none when invalid. -/
def fMulV (a b : FV) : Option FV :=
  match a, b with
  | .fin n1 m1 e1, .fin n2 m2 e2 => some (FV.mulFin n1 m1 e1 n2 m2 e2)
  | .inf n, .inf m => some (.inf (n != m))
  | .inf n, .fin m k _ => if k = 0 then none else some (.inf (n != m))
  | .fin m k _, .inf n => if k = 0 then none else some (.inf (n != m))
  | _, _ => none

def fMul (L : FLayout) (c : RCtl) (a b : FV) : Nat × FFlags :=
  if isNan a || isNan b then nanOut L c [a, b] else
  match fMulV a b with
  | some v => wrFV L c v
  | none => nanOut L c []

/-- ±(va × vb) ± vc with one rounding; infinity × 0 is invalid even beside a quiet NaN addend (R131). -/
def fFma (L : FLayout) (c : RCtl) (negP negC : Bool) (a b x : FV) : Nat × FFlags :=
  let ops := [a, b, x]
  let x' := if negC then x.neg else x
  if isNan a || isNan b then nanOut L c ops else
  match fMulV a b with
  | none =>
    let (r, f) := nanOut L c ops
    (r, { f with invalid := true })
  | some p =>
    if isNan x then nanOut L c ops else fAdd L c (if negP then p.neg else p) x' []

/-- The neighbour that fast VDIV and VSQRT return is the implementation's own (R130). -/
def fastMode (c : RCtl) (op : BitVec 7) (a b : Nat) : RMode :=
  if c.strict then c.rm
  else if Config.fastNeighbour op (BitVec.ofNat 32 a) (BitVec.ofNat 32 b) then .away else .rtz

def fDiv (L : FLayout) (c : RCtl) (ca cb : Nat) (a b : FV) : Nat × FFlags :=
  if isNan a || isNan b then nanOut L c [a, b] else
  match a, b with
  | .fin n1 m1 e1, .fin n2 m2 e2 =>
    if m2 = 0 then
      (if m1 = 0 then nanOut L c [] else (infCode L (n1 != n2), { divzero := true }))
    else if m1 = 0 then (zeroCode L (n1 != n2), {})
    else
      match divFin (L.m + 4 + Nat.log2 m2) n1 m1 e1 n2 m2 e2 with
      | .fin n m e => wrFin L c (fastMode c 0x06 ca cb) 0 n m e
      | v => wrFV L c v
  | .inf n, .fin m _ _ => (infCode L (n != m), {})
  | .fin m _ _, .inf n => (zeroCode L (n != m), {})
  | _, _ => nanOut L c []

def fSqrt (L : FLayout) (c : RCtl) (ca : Nat) (a : FV) : Nat × FFlags :=
  match a with
  | .nan _ _ => nanOut L c [a]
  | .inf n => if n then nanOut L c [] else (infCode L false, {})
  | .fin n m e =>
    if m = 0 then (zeroCode L n, {})
    else if n then nanOut L c []
    else
      match sqrtFin (L.m + 4) m e with
      | .fin n m e => wrFin L c (fastMode c 0x07 ca 0) 0 n m e
      | v => wrFV L c v

/-- a < b and a = b on extended reals (R127). -/
def fCmp (a b : FV) : Bool × Bool :=
  match a, b with
  | .fin n1 m1 e1, .fin n2 m2 e2 => ltFin n1 m1 e1 n2 m2 e2
  | .inf n, .inf m => (n && !m, n = m)
  | .inf n, .fin _ _ _ => (n, false)
  | .fin _ _ _, .inf n => (!n, false)
  | _, _ => (false, false)

def FV.sign : FV → Bool
  | .fin n _ _ => n
  | .inf n => n
  | .nan _ _ => false

/-- minimum and maximum of IEEE 754-2019: −0 orders below +0 (R126). -/
def fMinMax (L : FLayout) (c : RCtl) (max : Bool) (ca cb : Nat) (a b : FV) : Nat × FFlags :=
  if isNan a || isNan b then nanOut L c [a, b] else
  let (lt, eq) := fCmp a b
  let aLess := lt || (eq && a.sign && !b.sign)
  let pickA := if max then !aLess else (aLess || eq && (a.sign = b.sign))
  let code (v : FV) (k : Nat) : Nat := match v with
    | .fin n 0 _ => zeroCode L n
    | _ => k
  (if pickA then code a ca else code b cb, {})

/-! ### Approximations (R129, Table 5-4) -/

/-- ln 2 in units of 2^−160, rounded down. -/
def ln2Fix : Nat := 0xB17217F7D1CF79ABC9E3B39803F2F6AF40F34326

/-- Σ y^k / k! for y in units of 2^−160, from term `t` on. -/
def expGo (y : Nat) : Nat → Nat → Nat → Nat
  | 0, _, _ => 0
  | n + 1, k, t => t + expGo y n (k + 1) (t * y / 2 ^ 160 / (k + 1))
/-- e^y for 0 ≤ y < 1 in units of 2^−160, within 2^−150. -/
def expFix (y : Nat) : Nat := expGo y 48 0 (2 ^ 160)

/-- Σ z^(2j+1) / (2j+1) for z in units of 2^−160. -/
def atanhGo (z2 : Nat) : Nat → Nat → Nat → Nat
  | 0, _, _ => 0
  | n + 1, k, t => t / k + atanhGo z2 n (k + 2) (t * z2 / 2 ^ 160)
/-- ln of man / 2^⌊log2 man⌋ in units of 2^−160, within 2^−150. -/
def lnFix (man : Nat) : Nat :=
  let p := 2 ^ Nat.log2 man
  let z := (man - p) * 2 ^ 160 / (man + p)
  2 * atanhGo (z * z / 2 ^ 160) 56 1 z

/-- ±man × 2^exp in units of 2^−160, rounded down. -/
def fix160 (neg : Bool) (man : Nat) (exp : Int) : Int :=
  let s : Int := if neg then -(man : Int) else man
  let e := exp + 160
  if 0 ≤ e then s * (pow2 e : Nat) else s / (pow2 (-e) : Nat)

/-- An enclosure [lo, hi] of an exact result, in units of 2^−320. -/
def encl (v slack : Int) (sh : Nat) : Int × Int := ((v - slack) * (2 ^ sh : Nat), (v + slack) * (2 ^ sh : Nat))

/-- The largest error allowed at an exact result near `lo`: `k` units in the last place. -/
def ulps (k : Nat) (lo : Int) : Int :=
  let e : Int := max ((Nat.log2 lo.natAbs : Int) - 320) (-126)
  (k * 2 ^ (e - 23 + 320).toNat : Nat)

/-- The returned code: the implementation's own one when it keeps the bound of Table 5-4, else the exact result
rounded toward zero (both keep the bound). -/
def approxPick (op : BitVec 7) (x : Nat) (lo hi bound : Int) : Nat :=
  let r := (Config.approx op (BitVec.ofNat 32 x)).toNat
  let dflt := (toFloat .fp32 .rtz 0 (lo < 0) (min lo.natAbs hi.natAbs) (-320)).1
  match decodeIeee .fp32 r with
  | .fin n m e =>
    let v : Int := (if n then -1 else 1) * (m * pow2 (e + 320) : Nat)
    if v + bound ≥ hi ∧ v ≤ lo + bound then r else dflt
  | _ => dflt

/-- An inexact result: INEXACT, and UNDERFLOW when it is tiny; flushed under FLUSH. -/
def approxOut (c : RCtl) (r : Nat) : Nat × FFlags :=
  let tiny := r / 2 ^ 23 % 2 ^ 8 = 0
  if c.flush && isSubnormal .fp32 r then
    (zeroCode .fp32 (r / 2 ^ 31 % 2 = 1), { flushed := true, underflow := true, inexact := true })
  else (r, { inexact := true, underflow := tiny })

/-- The integer k with x = 2^k, for positive powers of two. -/
def pow2Of (man : Nat) (exp : Int) : Option Int :=
  if man = 2 ^ Nat.log2 man then some (Nat.log2 man + exp) else none

/-- VEXP2 (k = 0) and VEXP (k = 1). -/
def fExp (c : RCtl) (op : BitVec 7) (base2 : Bool) (x : Nat) (a : FV) : Nat × FFlags :=
  match a with
  | .nan _ _ => nanOut .fp32 c [a]
  | .inf n => (if n then 0 else infCode .fp32 false, {})
  | .fin n m e =>
    if m = 0 then (0x3F800000, {}) else
    -- thresholds of Table 5-4 in units of 1/10,000
    let big := if base2 then !n && !(ltFin n m e false 128 0).1 else (ltFin false 887228 0 n (10000 * m) e).1
    let small := if base2 then (ltFin n m e true 150 0).1 else (ltFin n (10000 * m) e true 1039800 0).1
    if big then (infCode .fp32 false, { overflow := true })
    else if small then (0, { underflow := true })
    else
      let xi := fix160 n m e
      let one : Int := (2 ^ 160 : Nat)
      if base2 then
        let k := xi / one
        if (splitAt m e 0).2.1 = 0 ∧ -149 ≤ k then wrFin .fp32 c .rne 0 false 1 k
        else
          let v := expFix ((xi % one).toNat * ln2Fix / 2 ^ 160)
          let (lo, hi) := encl v 1024 (160 + k).toNat
          approxOut c (approxPick op x lo hi (ulps 1 lo))
      else
        let k := xi / (ln2Fix : Nat)
        let v := expFix (xi % (ln2Fix : Nat)).toNat
        let (lo, hi) := encl v 1024 (160 + k).toNat
        approxOut c (approxPick op x lo hi (ulps 2 lo))

/-- VLOG2 and VLOG. -/
def fLog (c : RCtl) (op : BitVec 7) (base2 : Bool) (x : Nat) (a : FV) : Nat × FFlags :=
  match a with
  | .nan _ _ => nanOut .fp32 c [a]
  | .inf n => if n then nanOut .fp32 c [] else (infCode .fp32 false, {})
  | .fin n m e =>
    if m = 0 then (infCode .fp32 true, { divzero := true })
    else if n then nanOut .fp32 c []
    else
      let p := pow2Of m e
      if p = some 0 then (0, {})
      else if base2 && p.isSome then wrFV .fp32 c (FV.ofInt (p.getD 0))
      else
        let k := flog2 m e
        let l : Int := lnFix m
        let v : Int := if base2 then k * (2 ^ 160 : Nat) + l * (2 ^ 160 : Nat) / (ln2Fix : Nat) else k * (ln2Fix : Nat) + l
        let (lo, hi) := encl v 1024 160
        let inside := !(ltFin n m e false 3 (-2)).1 && !(ltFin false 3 (-1) n m e).1
        let bound : Int := if inside then (if base2 then 2 ^ 298 else 2 ^ 297 : Nat) else ulps (if base2 then 1 else 2) (if v < 0 then hi else lo)
        approxOut c (approxPick op x lo hi bound)

/-- VRSQRT. -/
def fRsqrt (c : RCtl) (op : BitVec 7) (x : Nat) (a : FV) : Nat × FFlags :=
  match a with
  | .nan _ _ => nanOut .fp32 c [a]
  | .inf n => if n then nanOut .fp32 c [] else (0, {})
  | .fin n m e =>
    if m = 0 then (infCode .fp32 n, { divzero := true })
    else if n then nanOut .fp32 c []
    else
      match pow2Of m e with
      | some k =>
        if k % 2 = 0 then wrFin .fp32 c .rne 0 false 1 (-(k / 2))
        else
          let r : Int := isqrt (2 ^ (640 - k).toNat)
          approxOut c (approxPick op x r (r + 1) (ulps 1 r))
      | none =>
        -- 2^320 / √(m 2^e) = √(2^(640 − e) / m)
        let r : Int := isqrt (2 ^ (640 - e).toNat / m)
        approxOut c (approxPick op x r (r + 1) (ulps 1 r))

/-- VRCP. -/
def fRcp (c : RCtl) (op : BitVec 7) (x : Nat) (a : FV) : Nat × FFlags :=
  match a with
  | .nan _ _ => nanOut .fp32 c [a]
  | .inf n => (zeroCode .fp32 n, {})
  | .fin n m e =>
    if m = 0 then (infCode .fp32 n, { divzero := true })
    else
      match pow2Of m e with
      | some k =>
        if -k > 127 then (infCode .fp32 n, { overflow := true, inexact := true })
        else if -126 ≤ -k then (toFloat .fp32 .rne 0 n 1 (-k)).1 |> fun r => (r, {})
        else
          let q : Int := (2 ^ (320 - k).toNat : Nat)
          let (lo, hi) := if n then (-q, -q) else (q, q)
          approxOut c (approxPick op x lo hi (ulps 1 q))
      | none =>
        let q : Int := (2 ^ (320 - e).toNat / m : Nat)
        if q ≥ (2 ^ 448 : Nat) then (infCode .fp32 n, { overflow := true, inexact := true })
        else
          let (lo, hi) := if n then (-(q + 1), -q) else (q, q + 1)
          approxOut c (approxPick op x lo hi (ulps 1 q))

/-! ### One lane of an elementwise operation -/

/-- A float lane operation of Table 5-3: the lane code and its flags. -/
def floatLane (op lt : Nat) (c : RCtl) (ca cb cx : Nat) : Nat × FFlags :=
  let L := ltLayout lt
  let top := 2 ^ (L.e + L.m)
  if op = 0x0C then (ca % top, {})
  else if op = 0x0D then (ca ^^^ top, {})
  else if op = 0x0E then (ca % top + cb / top % 2 * top, {})
  else
  let o := BitVec.ofNat 7 op
  let (a, f1) := rdLane L c ca
  let un (r : Nat × FFlags) : Nat × FFlags := (r.1, r.2.or f1)
  let (b, f2) := rdLane L c cb
  let bin (r : Nat × FFlags) : Nat × FFlags := (r.1, r.2.or (f1.or f2))
  let (x, f3) := rdLane L c cx
  let ter (r : Nat × FFlags) : Nat × FFlags := (r.1, r.2.or (f1.or (f2.or f3)))
  if op = 0x00 then bin (fAdd L c a b [a, b])
  else if op = 0x01 then bin (fAdd L c a b.neg [a, b])
  else if op = 0x02 then bin (fMul L c a b)
  else if op = 0x03 then ter (fFma L c false false a b x)
  else if op = 0x04 then ter (fFma L c false true a b x)
  else if op = 0x05 then ter (fFma L c true false a b x)
  else if op = 0x06 then bin (fDiv L c ca cb a b)
  else if op = 0x07 then un (fSqrt L c ca a)
  else if op = 0x08 then bin (fMinMax L c false ca cb a b)
  else if op = 0x09 then bin (fMinMax L c true ca cb a b)
  else if op = 0x28 then un (fExp c o true ca a)
  else if op = 0x29 then un (fExp c o false ca a)
  else if op = 0x2A then un (fLog c o true ca a)
  else if op = 0x2B then un (fLog c o false ca a)
  else if op = 0x2C then un (fRsqrt c o ca a)
  else un (fRcp c o ca a)

/-- An INT32 lane operation of Table 5-3. -/
def intLane (op : Nat) (a b : W32) : W32 :=
  let sh := (b &&& 31).toNat
  if op = 0x00 then a + b
  else if op = 0x01 then a - b
  else if op = 0x02 then a * b
  else if op = 0x08 then (if a.slt b then a else b)
  else if op = 0x09 then (if a.slt b then b else a)
  else if op = 0x0A then (if a.ult b then a else b)
  else if op = 0x0B then (if a.ult b then b else a)
  else if op = 0x0C then (if a.slt 0 then -a else a)
  else if op = 0x0D then -a
  else if op = 0x10 then a &&& b
  else if op = 0x11 then a ||| b
  else if op = 0x12 then a ^^^ b
  else if op = 0x13 then a <<< sh
  else if op = 0x14 then a >>> sh
  else a.sshiftRight sh

/-- One lane of the elementwise operations (codes 0x00 to 0x15 and 0x28 to 0x2D). -/
def laneOp (op lt : Nat) (c : RCtl) (a b x : Nat) : Nat × FFlags :=
  if lt = 3 then ((intLane op (BitVec.ofNat 32 a) (BitVec.ofNat 32 b)).toNat, {}) else floatLane op lt c a b x

/-- One lane of a compare (codes 0x18 to 0x1C). -/
def laneCmp (op lt : Nat) (c : RCtl) (ca cb : Nat) : Bool × FFlags :=
  if lt = 3 then
    let a := BitVec.ofNat 32 ca
    let b := BitVec.ofNat 32 cb
    (if op = 0x18 then a = b else if op = 0x19 then a.slt b else if op = 0x1A then a.sle b else a.ult b, {})
  else
    let (a, f1) := rdLane (ltLayout lt) c ca
    let (b, f2) := rdLane (ltLayout lt) c cb
    let f := f1.or f2
    let f := { f with invalid := isSNan a || isSNan b }
    let (l, e) := fCmp a b
    let nan := isNan a || isNan b
    (if op = 0x18 then e && !nan else if op = 0x19 then l && !nan else if op = 0x1A then (l || e) && !nan else nan, f)

/-! ### Lanes of a register -/

/-- Lane n of width w. -/
def laneOf (v : BitVec 512) (w n : Nat) : Nat := (v.extractLsb' (w * n) w).toNat

/-- A register from its lanes, lowest first. -/
def ofLanes (w : Nat) : List Nat → Nat
  | [] => 0
  | x :: xs => x % 2 ^ w + 2 ^ w * ofLanes w xs

/-- Widens a lane of type lt to an FP32 code, NaN payloads included (R128, R131). -/
def widen (lt x : Nat) : Nat :=
  if lt = 1 then x * 2 ^ 16
  else if lt = 2 then
    match decodeIeee .fp16 x with
    | .fin n m e => (toFloat .fp32 .rne 0 n m e).1
    | .inf n => infCode .fp32 n
    | .nan _ _ => x / 2 ^ 15 % 2 * 2 ^ 31 + 0xFF * 2 ^ 23 + x % 2 ^ 10 * 2 ^ 13
  else x

/-- One pairing level of a reduction. -/
def pairUp (f : Nat → Nat → Nat × FFlags) : List Nat → List Nat × FFlags
  | a :: b :: xs =>
    let (r, g) := f a b
    let (rs, gs) := pairUp f xs
    (r :: rs, g.or gs)
  | xs => (xs, {})

/-- The tree of R128, `k` levels. -/
def pairTree (f : Nat → Nat → Nat × FFlags) : Nat → List Nat → List Nat × FFlags
  | 0, xs => (xs, {})
  | k + 1, xs =>
    let (ys, g) := pairUp f xs
    let (zs, h) := pairTree f k ys
    (zs, g.or h)

/-- A reduction of codes 0x20 to 0x23 over (enabled, lane code) pairs: the value of lane 0 and the flags. -/
def reduceLanes (op lt : Nat) (c : RCtl) (xs : List (Bool × Nat)) : Nat × FFlags :=
  let levels := if xs.length = 32 then 5 else 4
  if lt = 3 then
    let idle : Nat := if op = 0x20 then 0 else if op = 0x21 then 0x80000000 else 0x7FFFFFFF
    let o := if op = 0x20 then 0x00 else if op = 0x21 then 0x09 else 0x08
    let ys := xs.map (fun p => if p.1 then p.2 else idle)
    let (r, _) := pairTree (fun a b => ((intLane o (BitVec.ofNat 32 a) (BitVec.ofNat 32 b)).toNat, {})) levels ys
    (r.headD 0, {})
  else
    let idle : Nat := if op = 0x20 then 0x80000000 else if op = 0x21 then infCode .fp32 true
      else if op = 0x22 then infCode .fp32 false else 0
    let o := if op = 0x20 then 0x00 else if op = 0x22 then 0x08 else 0x09
    -- subnormals of the lane's own type are flushed as they are read (R132)
    let rd (p : Bool × Nat) : Nat × FFlags :=
      if !p.1 then (idle, {})
      else
        let fl := c.flush && isSubnormal (ltLayout lt) p.2
        let z := if fl then zeroCode .fp32 (widen lt p.2 / 2 ^ 31 % 2 = 1) else widen lt p.2
        let z := if op = 0x23 && !isNan (decodeIeee .fp32 z) then z % 2 ^ 31 else z
        (z, { flushed := fl })
    let ys := xs.map rd
    let f0 := ys.foldl (fun (f : FFlags) y => f.or y.2) {}
    let (r, f) := pairTree (floatLane' o c) levels (ys.map (·.1))
    (r.headD 0, f0.or f)
where
  floatLane' (o : Nat) (c : RCtl) (a b : Nat) : Nat × FFlags := floatLane o 0 c a b 0

/-! ### Conversions (R134) -/

/-- A NaN converted between layouts: canonical in fast mode; strict keeps sign and leading payload (R131). -/
def cvtNaN (src dst : FLayout) (c : RCtl) (x : Nat) : Nat :=
  if !c.strict then canonNaN dst else
  let s := x / 2 ^ (src.e + src.m) % 2
  let p := x % 2 ^ src.m
  let q := if dst.m ≥ src.m then p * 2 ^ (dst.m - src.m) else p / 2 ^ (src.m - dst.m)
  quiet dst (s * 2 ^ (dst.e + dst.m) + (2 ^ dst.e - 1) * 2 ^ dst.m + q)

/-- One lane of VCVT. -/
def cvtLane (lt : Nat) (dst : FLayout) (c : RCtl) (mode : RMode) (u x : Nat) : Nat × FFlags :=
  if lt = 3 then
    match FV.ofInt (signedOf 32 x) with
    | .fin n m e => wrFin dst c mode u n m e
    | _ => (0, {})
  else
    let L := ltLayout lt
    let (a, f) := rdLane L c x
    match a with
    | .nan s _ => (cvtNaN L dst c x, { f with invalid := s })
    | .inf n => (infCode dst n, f)
    | .fin n m e =>
      let (r, g) := wrFin dst c mode u n m e
      (r, f.or g)

/-- A finite value rounded to an integer. -/
def roundInt (mode : RMode) (u : Nat) (n : Bool) (m : Nat) (e : Int) : Int × Bool :=
  let (k, num, den) := splitAt m e 0
  let r := roundMag mode n u k num den
  (if n then -(r : Int) else r, num ≠ 0)

/-- One lane of VCVTI. -/
def cvtiLane (lt : Nat) (c : RCtl) (mode : RMode) (u x : Nat) : Nat × FFlags :=
  let (a, f) := rdLane (ltLayout lt) c x
  match a with
  | .nan _ _ => (0, { f with invalid := true })
  | .inf n => (if n then 0x80000000 else 0x7FFFFFFF, { f with invalid := true })
  | .fin n m e =>
    let (i, inex) := roundInt mode u n m e
    if i > 2 ^ 31 - 1 then (0x7FFFFFFF, { f with invalid := true })
    else if i < -(2 ^ 31) then (0x80000000, { f with invalid := true })
    else ((i % 2 ^ 32).toNat, { f with inexact := inex })

/-! ### Blocks (R135 to R138) -/

/-- Element k of a packed sequence (R46). -/
def elemAt (w bits k : Nat) : Nat := bits / 2 ^ (w * k) % 2 ^ w

/-- One decoded element of VDQLD as an FP32 code (R135). -/
def dqLane (fmt : Nat) (c : RCtl) (scale code : Nat) : Nat × FFlags :=
  if fmtScaled fmt && scale = 0xFF then (canonNaN .fp32, {}) else
  match decodeElem fmt code with
  | .nan _ _ => (canonNaN .fp32, {})
  | .inf n => (infCode .fp32 n, {})
  | .fin n m e => wrFin .fp32 c .rne 0 n m (e + (if fmtScaled fmt then (scale : Int) - 127 else 0))

/-- emax of Table 5-7. -/
def fmtEmax (f : Nat) : Int :=
  if f = 0 || f = 1 || f = 5 then 2 else if f = 4 then 4 else if f = 6 || f = 8 then 8 else if f = 7 then 15 else 0

/-- Magnitude code of the largest finite element. -/
def fmtMaxMag (f : Nat) : Nat :=
  if f = 0 || f = 1 then 7 else if f = 4 || f = 5 then 0x1F else if f = 6 then 0x7E else if f = 7 then 0x7B else 0x7F

/-- The formats with an element NaN code. -/
def fmtHasNaN (f : Nat) : Bool := f = 1 || f = 6 || f = 7 || f = 8

/-- Rounds a finite magnitude onto the extended element grid: the magnitude code before saturation, and whether it is
inexact (R136). -/
def gridRound (f : Nat) (mode : RMode) (u : Nat) (neg : Bool) (m : Nat) (e : Int) : Nat × Bool :=
  if m = 0 then (0, false)
  else if f = 9 then
    let (k, num, den) := splitAt m e (-6)
    (roundMag mode neg u k num den, num ≠ 0)
  else
    let L := fmtLayout f
    let emin : Int := 1 - L.bias
    let q := min (max (flog2 m e) emin) (fmtEmax f) - L.m
    let (k, num, den) := splitAt m e q
    let n := roundMag mode neg u k num den
    -- magnitude codes rise by one per grid step within and across binades
    let base := (q + L.m - emin).toNat * 2 ^ L.m
    (n + base, num ≠ 0)

/-- The code of an element: SF zeros have no sign (R37); MXINT8 is two's complement (R41). -/
def elemCode (f : Nat) (neg : Bool) (mag : Nat) : Nat :=
  if f = 9 then (if neg then (256 - mag) % 256 else mag)
  else if mag = 0 && (f = 1 || f = 8) then 0
  else (if neg then 2 ^ (fmtBits f - 1) else 0) + mag

/-- Codes of a NaN or infinite input in a format with an element NaN (Table 5-8). -/
def specialElem (f : Nat) (v : FV) : Nat × FFlags :=
  match v with
  | .nan s _ => (if f = 1 then 0x8 else if f = 8 then 0x80 else 0x7F, { invalid := s })
  | .inf n => if f = 7 then (if n then 0xFC else 0x7C, {})
    else (if f = 1 then 0x8 else if f = 8 then 0x80 else 0x7F, { invalid := true })
  | _ => (0, {})

/-- The magnitude part of the largest finite input. -/
def amaxOf (xs : List FV) : Nat × Int :=
  xs.foldl (fun (b : Nat × Int) v => match v with
    | .fin _ m e => if (ltFin false b.1 b.2 false m e).1 then (m, e) else b
    | _ => b) (0, 0)

/-- The scale code of a block (R136). -/
def scaleOf (f : Nat) (rule : Bool) (xs : List FV) : Nat :=
  let (m, e) := amaxOf xs
  if m = 0 then 127
  else
    let k := flog2 m e - fmtEmax f
    let k := if rule && (gridRound f .away 0 false m (e - k)).1 > fmtMaxMag f then k + 1 else k
    (min (max (k + 127) 0) 254).toNat

/-- Quantizes one block of values with one draw per element: element codes, scale code, flags (R136 to R138). -/
def quantize (f : Nat) (mode : RMode) (rule : Bool) (xs : List FV) (us : List Nat) : List Nat × Nat × FFlags :=
  let bad (v : FV) : Bool := match v with
    | .fin _ _ _ => false
    | _ => true
  if xs.any bad && !fmtHasNaN f then
    let inv := xs.any (fun v => match v with
      | .inf _ => true
      | .nan s _ => s
      | _ => false)
    (xs.map (fun _ => 0), 0xFF, { invalid := inv })
  else
    let xs' := scaleOf f rule xs
    let r := (xs.zip us).map fun (p : FV × Nat) =>
      match p.1 with
      | .fin n m e =>
        let (mag, inex) := gridRound f mode p.2 n m (e - ((xs' : Int) - 127))
        let sat : Bool := decide (mag > fmtMaxMag f)
        let g : FFlags := { inexact := inex || sat, overflow := sat, underflow := mag = 0 && m ≠ 0 }
        (elemCode f n (if sat then fmtMaxMag f else mag), g)
      | v => specialElem f v
    (r.map (·.1), xs', r.foldl (fun (g : FFlags) y => g.or y.2) {})

/-- Limits of the unscaled INT formats (R136). -/
def intLimits (f : Nat) : Int × Int :=
  if f = 2 then (-8, 7) else if f = 3 then (0, 15) else if f = 10 then (-128, 127) else (0, 255)

/-- An integer saturated to an INT format, with OVERFLOW when it changes (R138). -/
def satInt (f : Nat) (i : Int) : Nat × FFlags :=
  let (lo, hi) := intLimits f
  let j := max lo (min hi i)
  ((j % 2 ^ fmtBits f).toNat, { overflow := j ≠ i, inexact := j ≠ i })

/-- A float value written to an INT format (R136, Table 5-8). -/
def quantInt (f : Nat) (mode : RMode) (u : Nat) (v : FV) : Nat × FFlags :=
  match v with
  | .nan _ _ => (0, { invalid := true })
  | .inf n => ((if n then (intLimits f).1 else (intLimits f).2) % 2 ^ fmtBits f |>.toNat, { invalid := true })
  | .fin n m e =>
    let (i, inex) := roundInt mode u n m e
    let (k, g) := satInt f i
    (k, { g with inexact := g.inexact || inex, underflow := i = 0 && m ≠ 0 })

/-! ### The stochastic-rounding generator (R139) -/

/-- sr_next: the output and the new state. -/
def srNext (s : W64) : Nat × W64 :=
  let x := if s = 0 then 0x9E3779B97F4A7C15 else s
  let x := x ^^^ (x <<< 13)
  let x := x ^^^ (x >>> 7)
  let x := x ^^^ (x <<< 17)
  ((x >>> 40).toNat, x)

/-- The next n outputs. -/
def srDraws (s : W64) : Nat → List Nat
  | 0 => []
  | n + 1 => (srNext s).1 :: srDraws (srNext s).2 n

/-- The state after n outputs. -/
def srAdvance (s : W64) : Nat → W64
  | 0 => s
  | n + 1 => srAdvance (srNext s).2 n

end Sys2Proof.Machine
end

