-- ==== Sys2Proof/Machine/Reed.lean ====
section
/-! DEFINITION. The reed (spec/05_reed_vector_engine.md): the checks at issue (R124, R135, R136, R140, R141), the reed
queue and the drain path (R121 to R123), and the effect of every class 0xD operation. -/

namespace Sys2Proof.Machine

/-! ### Fields of the word (Table 5-2) -/

/-- A field of a reed word. -/
def rwf (w : W64) (lo len : Nat) : Nat := (w.extractLsb' lo len).toNat
def rwOp (w : W64) : Nat := rwf w 21 7
def rwVd (w : W64) : Nat := rwf w 16 5
def rwVa (w : W64) : Nat := rwf w 11 5
def rwVb (w : W64) : Nat := rwf w 6 5
def rwVc (w : W64) : Nat := rwf w 1 5
def rwRA (w : W64) : Reg := w.extractLsb' 59 5
def rwRm (w : W64) : Reg := w.extractLsb' 54 5
def rwFmt (w : W64) : Nat := rwf w 50 4
def rwRnd (w : W64) : Nat := rwf w 47 3
def rwLt (w : W64) : Nat := rwf w 45 2
def rwTally (w : W64) : Tally := w.extractLsb' 39 6
def rwAfterV (w : W64) : Bool := w.getLsbD 38
def rwAfter (w : W64) : Tally := w.extractLsb' 32 6

/-- The lane types an operation allows (Table 5-3); none for an unassigned code. -/
def reedLts (op : Nat) : List Nat :=
  if op = 0x03 || op = 0x04 || op = 0x05 || op = 0x06 || op = 0x07 || op = 0x0E || op = 0x1B || op = 0x23 || op = 0x39 then [0, 1, 2]
  else if op = 0x0A || op = 0x0B || (0x10 ≤ op && op ≤ 0x15) || op = 0x1C then [3]
  else if (0x28 ≤ op && op ≤ 0x2D) || op = 0x30 || op = 0x31 then [0]
  else if op = 0x3A || op = 0x3B || op = 0x3C then [0, 3]
  else if op ≤ 0x02 || op = 0x08 || op = 0x09 || op = 0x0C || op = 0x0D || (0x18 ≤ op && op ≤ 0x1A) || (0x20 ≤ op && op ≤ 0x22)
    || (0x32 ≤ op && op ≤ 0x35) || op = 0x38 then [0, 1, 2, 3]
  else []

def usesVd (op : Nat) : Bool := op ≤ 0x15 || (0x20 ≤ op && op ≤ 0x30) || op = 0x32 || op = 0x34 || op = 0x35 || (0x38 ≤ op && op ≤ 0x3A)
def usesVa (op : Nat) : Bool := op ≤ 0x2D || op = 0x31 || (0x33 ≤ op && op ≤ 0x39) || op = 0x3B
def usesVb (op : Nat) : Bool :=
  op ≤ 0x06 || (0x08 ≤ op && op ≤ 0x0B) || op = 0x0E || (0x10 ≤ op && op ≤ 0x1C) || op = 0x33 || op = 0x35
def usesVc (op : Nat) : Bool := (0x03 ≤ op && op ≤ 0x05) || op = 0x3C
def usesRA (op : Nat) : Bool := (0x18 ≤ op && op ≤ 0x1C) || (0x30 ≤ op && op ≤ 0x33) || (0x3A ≤ op && op ≤ 0x3C)
def usesRm (op : Nat) : Bool := op ≤ 0x2D || op = 0x32 || op = 0x34 || op = 0x35 || op = 0x3C
def usesFmt (op : Nat) : Bool := op = 0x38 || (0x3A ≤ op && op ≤ 0x3C)
def usesRnd (op : Nat) : Bool := op = 0x38 || op = 0x39 || op = 0x3B || op = 0x3C

/-- Elements of a quantized or decoded block (R135, R136). -/
def reedBlock (f : Nat) : Nat := if f = 1 || f = 8 then 16 else 32

/-- Whether fmt is one that the op accepts (R134 to R136, R140). -/
def reedFmtOk (w : W64) : Bool :=
  let op := rwOp w
  let f := rwFmt w
  let lt := rwLt w
  if op = 0x38 then (f = 0xC && lt ≠ 1) || (f = 0xD && lt ≠ 2) || (f = 0xE && lt ≠ 0)
  else if op = 0x3A || op = 0x3B then f ≤ 0xB && (lt = 0 || fmtInt f)
  else if op = 0x3C then f ≤ 0xE
  else true

/-- A 16-bit lane type. -/
def lt16 (lt : Nat) : Bool := lt = 1 || lt = 2

/-- The registers that must be even (R134 to R136); a format that VDQLD and VQST do not accept has no block, so none must. -/
def reedEven (w : W64) : Bool :=
  let op := rwOp w
  let f := rwFmt w
  let lt := rwLt w
  if op = 0x38 then
    (!(!lt16 lt && (f = 0xC || f = 0xD)) || rwVa w % 2 = 0) && (!(lt16 lt && f = 0xE) || rwVd w % 2 = 0)
  else if op = 0x39 then !lt16 lt || rwVd w % 2 = 0
  else if op = 0x3A then f > 0xB || reedBlock f = 16 || rwVd w % 2 = 0
  else if op = 0x3B then f > 0xB || reedBlock f = 16 || rwVa w % 2 = 0
  else true

/-- Accumulators of a drain: the first and their number (R140). -/
def drainAccs (f : Nat) : Nat := if !fmtScaled f then 1 else if reedBlock f = 16 then 2 else 4

/-- The checks that give ILLEGAL_INSTRUCTION (R124). -/
def reedIllegal (w : W64) : Bool :=
  let op := rwOp w
  let f := rwFmt w
  !(reedLts op).contains (rwLt w) || w.getLsbD 0
    || (!usesVd op && rwVd w ≠ 0) || (!usesVa op && rwVa w ≠ 0) || (!usesVb op && rwVb w ≠ 0) || (!usesVc op && rwVc w ≠ 0)
    || (!usesRA op && rwRA w ≠ 0) || (!usesRm op && rwRm w ≠ 0) || (!usesFmt op && f ≠ 0)
    || rwRnd w ≥ 6 || (!usesRnd op && rwRnd w ≠ 0)
    || (op ≠ 0x3C && (rwTally w ≠ 0 || rwAfterV w || rwAfter w ≠ 0))
    || !reedEven w
    || (op = 0x33 && ltLanes (rwLt w) ≤ rwVb w)
    || (op = 0x3C && f ≤ 0xE &&
        (rwVc w > 3 || (fmtScaled f && (if reedBlock f = 16 then rwVc w % 2 ≠ 0 else rwVc w ≠ 0))))

/-- Bytes of one tile row of a drain (R140, R141). -/
def drainRow (f : Nat) : Nat := 8 * drainAccs f * fmtBits f / 8

/-- Scratch ranges an operation touches, from t[rA]: start and bytes. -/
def reedExtents (w : W64) (ta : W64) : List (Nat × Nat) :=
  let op := rwOp w
  let f := rwFmt w
  let e := (ta.extractLsb' 0 20).toNat
  let s := (ta.extractLsb' 32 20).toNat
  if op = 0x30 || op = 0x31 then [(e, 64)]
  else if op = 0x3A || op = 0x3B then (e, reedBlock f * fmtBits f / 8) :: (if fmtScaled f then [(s, 1)] else [])
  else if op = 0x3C then
    let p := (ta.extractLsb' 20 12).toNat * 8
    let q := (ta.extractLsb' 52 12).toNat
    (e, 7 * p + drainRow f) :: (if fmtScaled f then [(s, 7 * q + 1)] else [])
  else []

/-- The error with which a word stops the treadle at issue, if any. -/
def reedCheck (w : W64) (ta : W64) : Option ErrCode :=
  let op := rwOp w
  let f := rwFmt w
  if reedIllegal w then some .illegalInstruction
  else if !reedFmtOk w then some .illegalFormat
  else if (op = 0x30 || op = 0x31) && ta.toNat % 64 ≠ 0 then some .misaligned
  else if op = 0x3C && ((ta.extractLsb' 20 12).toNat * 8 < drainRow f || (fmtScaled f && (ta.extractLsb' 52 12) = 0)) then
    some .illegalOperand
  else if (reedExtents w ta).any (fun r => r.1 + r.2 > 0xC0000) then some .scratchRange
  else none

/-- Stochastic outputs an instruction reserves at issue (R139). -/
def reedDraws (w : W64) : Nat :=
  let op := rwOp w
  let f := rwFmt w
  if rwRnd w ≠ 4 then 0
  else if op = 0x38 then (if lt16 (rwLt w) || f = 0xC || f = 0xD then 32 else 16)
  else if op = 0x39 then (if lt16 (rwLt w) then 32 else 16)
  else if op = 0x3B then reedBlock f
  else if op = 0x3C then 64 * drainAccs f
  else 0

/-- The operations that write a treadle register (R122). -/
def reedToTreadle (op : Nat) : Bool := (0x18 ≤ op && op ≤ 0x1C) || op = 0x33

/-- REED_ENQUEUE: the treadle checks a class 0xD word, reads its registers and queues it (R121). -/
def Dev.reedEnqueue (d : Dev) (n : LoomId) (w : W64) : Dev :=
  d.issue n fun d =>
    let l := d.loom n
    let op := rwOp w
    match reedCheck w (l.reg (rwRA w)) with
    | some e => d.stop n e
    | none =>
      let drain := op = 0x3C
      if l.reedQ.length + l.drainQ.length ≥ 16 then d
      else if drain && (Fmap.find l.tally (rwTally w).toNat).isSome then d
      else
        let (id, d) := d.newOp
        let seed := BitVec.ofNat 64 (d.fld Fld.REED_SEED_STATE n.toNat)
        let o : ReedOp := { id := id, word := w, ta := l.reg (rwRA w), tm := l.reg (rwRm w),
                            ctrl := BitVec.ofNat 32 (d.card Crd.REED_CTRL n.toNat), seed := seed,
                            dep := if drain then d.depOf n (rwAfterV w) (rwAfter w) else .met }
        let d := d.setFld Fld.REED_SEED_STATE n.toNat (srAdvance seed (reedDraws w)).toNat
        if drain then
          (d.setLoom n ({ l with drainQ := l.drainQ ++ [o] }.holdTally (rwTally w) id)).nextPc n 8
        else
          let d := d.setLoom n { l with reedQ := l.reedQ ++ [o], stall := if reedToTreadle op then .reed else .run }
          if reedToTreadle op then d else d.nextPc n 8

/-- Raises flags in REED_FLAGS (R133). -/
def Dev.reedFlags (d : Dev) (n : LoomId) (f : FFlags) : Dev :=
  let s (b : Bool) (x : Field) (d : Dev) : Dev := if b then d.setFld x n.toNat 1 else d
  s f.overflow Fld.REED_FLAGS_OVERFLOW <| s f.underflow Fld.REED_FLAGS_UNDERFLOW <| s f.inexact Fld.REED_FLAGS_INEXACT <|
    s f.invalid Fld.REED_FLAGS_INVALID <| s f.divzero Fld.REED_FLAGS_DIVZERO <| s f.flushed Fld.REED_FLAGS_FLUSHED d

/-- The enabled lanes (R120). -/
def ReedOp.enabled (o : ReedOp) (k : Nat) : Bool := rwRm o.word = 0 || o.tm.getLsbD k

/-- The registers one in-line instruction writes, its flags, and the value it returns to the treadle. -/
structure ReedOut where
  regs : List (Nat × BitVec 512) := []
  flags : FFlags := {}
  treadle : Option W64 := none
  store : List (Nat × Nat × Nat) := []
  deriving DecidableEq, Repr

def orAll (l : List (Nat × FFlags)) : FFlags := l.foldl (fun (g : FFlags) y => g.or y.2) {}

/-- A register from lane codes. -/
def packLanes (w : Nat) (xs : List Nat) : BitVec 512 := BitVec.ofNat 512 (ofLanes w xs)

/-- Elementwise operations, VBCAST, VMOV and VPERM under the lane mask. -/
def reedLanes (l : Loom) (o : ReedOp) (f : Nat → Nat × FFlags) : ReedOut :=
  let w := ltWidth (rwLt o.word)
  let old := l.vreg (rwVd o.word)
  let r := (List.range (ltLanes (rwLt o.word))).map fun k => if o.enabled k then f k else (laneOf old w k, ({} : FFlags))
  { regs := [(rwVd o.word, packLanes w (r.map (·.1)))], flags := orAll r }

/-- Lanes of one or two source registers of type lt. -/
def srcLanes (l : Loom) (lt r cnt : Nat) : List Nat :=
  (List.range cnt).map fun k => laneOf (l.vreg (r + k / ltLanes lt)) (ltWidth lt) (k % ltLanes lt)

/-- Lanes written to one or two registers of width w. -/
def dstRegs (w r : Nat) (xs : List Nat) : List (Nat × BitVec 512) :=
  let per := 512 / w
  if xs.length ≤ per then [(r, packLanes w xs)] else [(r, packLanes w (xs.take per)), (r + 1, packLanes w (xs.drop per))]

/-- VCVT and VCVTI. -/
def reedConvert (l : Loom) (o : ReedOp) (toInt : Bool) : ReedOut :=
  let w := o.word
  let lt := rwLt w
  let c := RCtl.ofBits o.ctrl
  let mode := c.conv (rwRnd w)
  let dw := if toInt || rwFmt w = 0xE then 32 else 16
  let cnt := if lt16 lt || dw = 16 then 32 else 16
  let us := if mode = .sr then srDraws o.seed cnt else List.replicate cnt 0
  let L := if rwFmt w = 0xC then FLayout.bf16 else if rwFmt w = 0xD then .fp16 else .fp32
  let r := ((srcLanes l lt (rwVa w) cnt).zip us).map fun (p : Nat × Nat) =>
    if toInt then cvtiLane lt c mode p.2 p.1 else cvtLane lt L c mode p.2 p.1
  { regs := dstRegs dw (rwVd w) (r.map (·.1)), flags := orAll r }

/-- VDQLD (R135). -/
def reedDqld (l : Loom) (o : ReedOp) : ReedOut :=
  let w := o.word
  let f := rwFmt w
  let c := RCtl.ofBits o.ctrl
  let cnt := reedBlock f
  let e := (o.ta.extractLsb' 0 20).toNat
  let s := (o.ta.extractLsb' 32 20).toNat
  let bits := Memory.readNat l.scratch e (cnt * fmtBits f / 8)
  let scale := if fmtScaled f then (Memory.read l.scratch s).toNat else 127
  let r := (List.range cnt).map fun k =>
    let code := elemAt (fmtBits f) bits k
    if rwLt w = 3 then
      (match decodeElem f code with
        | .fin n m _ => (((if n then -(m : Int) else m) % 2 ^ 32).toNat, ({} : FFlags))
        | _ => (0, {}))
    else dqLane f c scale code
  { regs := dstRegs 32 (rwVd w) (r.map (·.1)), flags := orAll r }

/-- FP32 values as quantization reads them (R132). -/
def quantIn (c : RCtl) (xs : List Nat) : List (FV × FFlags) := xs.map (rdLane .fp32 c)

/-- One block of values written in a scaled or INT format: packed elements, scale, flags. -/
def quantBlock (f : Nat) (mode : RMode) (rule : Bool) (xs : List FV) (us : List Nat) : Nat × Nat × FFlags :=
  if fmtScaled f then
    let (cs, x, g) := quantize f mode rule xs us
    (ofLanes (fmtBits f) cs, x, g)
  else
    let r := (xs.zip us).map fun (p : FV × Nat) => quantInt f mode p.2 p.1
    (ofLanes (fmtBits f) (r.map (·.1)), 0, orAll r)

/-- VQST (R136). -/
def reedQst (l : Loom) (o : ReedOp) : ReedOut :=
  let w := o.word
  let f := rwFmt w
  let c := RCtl.ofBits o.ctrl
  let cnt := reedBlock f
  let mode := c.conv (rwRnd w)
  let us := if mode = .sr then srDraws o.seed cnt else List.replicate cnt 0
  let codes := srcLanes l 0 (rwVa w) cnt
  let e := (o.ta.extractLsb' 0 20).toNat
  let s := (o.ta.extractLsb' 32 20).toNat
  let bytes := cnt * fmtBits f / 8
  if rwLt w = 3 then
    let r := codes.map (fun x => satInt f (signedOf 32 x))
    { store := [(e, bytes, ofLanes (fmtBits f) (r.map (·.1)))], flags := orAll r }
  else
    let xs := quantIn c codes
    let (el, sc, g) := quantBlock f mode c.rule (xs.map (·.1)) us
    let g := xs.foldl (fun (g : FFlags) y => g.or y.2) g
    { store := (e, bytes, el) :: (if fmtScaled f then [(s, 1, sc)] else []), flags := g }

/-- The effect of one in-line instruction (Table 5-3). -/
def reedInline (l : Loom) (o : ReedOp) : ReedOut :=
  let w := o.word
  let op := rwOp w
  let lt := rwLt w
  let c := RCtl.ofBits o.ctrl
  let lw := ltWidth lt
  let cnt := ltLanes lt
  let a (k : Nat) : Nat := laneOf (l.vreg (rwVa w)) lw k
  let b (k : Nat) : Nat := laneOf (l.vreg (rwVb w)) lw k
  let x (k : Nat) : Nat := laneOf (l.vreg (rwVc w)) lw k
  if op ≤ 0x15 || (0x28 ≤ op && op ≤ 0x2D) then reedLanes l o (fun k => laneOp op lt c (a k) (b k) (x k))
  else if op ≤ 0x1C then
    let r := (List.range cnt).map fun k => if o.enabled k then laneCmp op lt c (a k) (b k) else (false, ({} : FFlags))
    { treadle := some (BitVec.ofNat 64 (ofLanes 1 (r.map (fun p => if p.1 then 1 else 0)))),
      flags := r.foldl (fun (g : FFlags) y => g.or y.2) {} }
  else if op ≤ 0x23 then
    let (r, g) := reduceLanes op lt c ((List.range cnt).map fun k => (o.enabled k, a k))
    { regs := [(rwVd w, BitVec.ofNat 512 (r % 2 ^ 32))], flags := g }
  else if op = 0x30 then
    { regs := [(rwVd w, BitVec.ofNat 512 (Memory.readNat l.scratch (o.ta.extractLsb' 0 20).toNat 64))] }
  else if op = 0x31 then { store := [((o.ta.extractLsb' 0 20).toNat, 64, (l.vreg (rwVa w)).toNat)] }
  else if op = 0x32 then reedLanes l o (fun _ => (o.ta.toNat % 2 ^ lw, {}))
  else if op = 0x33 then { treadle := some (BitVec.ofNat 64 (a (rwVb w))) }
  else if op = 0x34 then reedLanes l o (fun k => (a k, {}))
  else if op = 0x35 then reedLanes l o (fun k => (a (b k % cnt), {}))
  else if op = 0x38 then reedConvert l o false
  else if op = 0x39 then reedConvert l o true
  else if op = 0x3A then reedDqld l o
  else reedQst l o

/-- A row V*: the reed executes the head of its queue when that is the row's operation; VCMP and VEXT let the treadle
go on (R121, R122). -/
def Dev.reedExec (d : Dev) (n : LoomId) (op : Nat) : Dev :=
  let l := d.loom n
  match l.reedQ with
  | [] => d
  | o :: rest =>
    if rwOp o.word ≠ op then d else
    let r := reedInline l o
    let l := r.regs.foldl (fun (l : Loom) p => l.setVreg p.1 p.2) { l with reedQ := rest }
    let d := (d.setLoom n l).reedFlags n r.flags
    let d := r.store.foldl (fun (d : Dev) p => d.scratchWrite n.toNat p.1 p.2.1 p.2.2) d
    match r.treadle with
    | none => d
    | some v =>
      let d := d.setReg n (rwRA o.word) v
      if (d.loom n).stall = .reed then (d.setLoom n { d.loom n with stall := .run }).nextPc n 8 else d

/-! ### Drains (R140 to R142) -/

/-- The element (i, j) of the drained tile: accumulator container of vc + j / 8. -/
def drainElem (l : Loom) (vc i j : Nat) : Nat := (Fmap.get 0 l.acc (64 * (vc + j / 8) + 8 * i + j % 8)).toNat

/-- The value of an element before its conversion: itself, or its product with the factor rounded to FP32 (R142). -/
def drainValue (c : RCtl) (int : Bool) (factor : Option Nat) (x : Nat) : FV × FFlags :=
  let (v, f) := if int then (FV.ofInt (signedOf 32 x), ({} : FFlags)) else rdLane .fp32 c x
  match factor with
  | none => (v, f)
  | some k =>
    let (y, g) := rdLane .fp32 c k
    let c' : RCtl := { c with strict := false }
    let (r, h) := fMul .fp32 c' v y
    (decodeIeee .fp32 r, f.or (g.or h))

/-- A value written in BF16, FP16 or FP32 by a drain.  DESIGN CHOICE (notes/assumptions/57.md): a NaN is written as the canonical
code of the format (R39), with and without STRICT. -/
def drainFloat (L : FLayout) (c : RCtl) (mode : RMode) (u : Nat) (v : FV) : Nat × FFlags :=
  match v with
  | .nan s _ => (canonNaN L, { invalid := s })
  | .inf n => (infCode L n, {})
  | .fin n m e => wrFin L c mode u n m e

/-- One tile row: packed elements, scale, flags. -/
def drainRowBits (l : Loom) (o : ReedOp) (i : Nat) : Nat × Nat × FFlags :=
  let w := o.word
  let f := rwFmt w
  let c := RCtl.ofBits o.ctrl
  let cols := 8 * drainAccs f
  let mode := c.conv (rwRnd w)
  let us := if mode = .sr then (srDraws o.seed (8 * cols)).drop (i * cols) |>.take cols else List.replicate cols 0
  let factor := if rwRm w = 0 then none else some (o.tm.toNat % 2 ^ 32)
  let vs := (List.range cols).map fun j => drainValue c (rwLt w = 3) factor (drainElem l (rwVc w) i j)
  let g0 := vs.foldl (fun (g : FFlags) y => g.or y.2) {}
  if f ≥ 0xC then
    let L := if f = 0xC then FLayout.bf16 else if f = 0xD then .fp16 else .fp32
    let r := (vs.zip us).map fun (p : (FV × FFlags) × Nat) => drainFloat L c mode p.2 p.1.1
    (ofLanes (fmtBits f) (r.map (·.1)), 0, g0.or (orAll r))
  else
    let (el, sc, g) := quantBlock f mode c.rule (vs.map (·.1)) us
    (el, sc, g0.or g)

/-- An earlier array operation on the drain's accumulators is not finished (R104). -/
def drainBlocked (l : Loom) (o : ReedOp) : Bool :=
  let first := rwVc o.word
  let cnt := drainAccs (rwFmt o.word)
  let hits (a : ArrOp) : Bool := a.id < o.id && first ≤ a.a.acc.toNat && a.a.acc.toNat < first + cnt
  l.arrayQ.any hits || (match l.arrayRun with
    | some a => hits a
    | none => false)

/-- DRAIN: the drain at the head of the drain path converts its tile into scratch, and its tally completes. -/
def Dev.drain (d : Dev) (n : LoomId) : Dev :=
  let l := d.loom n
  match l.drainQ with
  | [] => d
  | o :: rest =>
    match o.dep with
    | .on _ => d
    | .failed => (d.setLoom n { l with drainQ := rest }).tallyDone n (rwTally o.word) o.id (some .dependency)
    | .met =>
      if drainBlocked l o then d else
      let f := rwFmt o.word
      let e := (o.ta.extractLsb' 0 20).toNat
      let p := (o.ta.extractLsb' 20 12).toNat * 8
      let s := (o.ta.extractLsb' 32 20).toNat
      let q := (o.ta.extractLsb' 52 12).toNat
      let d := d.setLoom n { l with drainQ := rest }
      let d := (List.range 8).foldl (fun (d : Dev) i =>
        let (el, sc, g) := drainRowBits l o i
        let d := (d.scratchWrite n.toNat (e + i * p) (drainRow f) el).reedFlags n g
        if fmtScaled f then d.scratchWrite n.toNat (s + i * q) 1 sc else d) d
      d.tallyDone n (rwTally o.word) o.id none

end Sys2Proof.Machine
end

