-- ==== Sys2Proof/Machine/Sys.lean ====
section
/-! DEFINITION. The treadle's system instructions (R85, R107, R111), its scratch accesses (R88, R89, R122), and the end
of a program (R117, R118, R163). -/

namespace Sys2Proof.Machine

/-- End of loom scratch (R89). -/
def scratchEnd : Nat := 0xC0000

/-! ### System registers (Table 4-2) -/

/-- CACHE_OP codes 1 to 3 (R168); CLEAN_ALL and FLUSH_ALL hold the treadle until their write-backs are acknowledged. -/
def Dev.cacheWhole (d : Dev) (n : LoomId) (op : Nat) : Dev :=
  if op = 0 then d.nextPc n 4
  else if op = 3 then (d.unlockAll n).nextPc n 4
  else
    let d := d.setLoom n { d.loom n with stall := .cacheOp (BitVec.ofNat 2 op) }
    let d := d.setFld Fld.CACHE_STATUS_WAY_BUSY n.toNat 1
    let d := d.evictAll n
    let d := if op = 1 then d.cleanAll n else (d.unlockAll n).flushWays n (fun _ => true)
    d.cacheOpEnd n

/-- A write of CACHE_CTRL: ways whose bit falls are cleaned and powered down; a value that leaves no way on keeps
WAY_ON (R151). -/
def Dev.cacheCtrl (d : Dev) (n : LoomId) (v : Nat) : Dev :=
  let d := d.setFld Fld.CACHE_CTRL_STREAM_DETECT n.toNat (v % 2)
  let d := if v % 2 = 0 then (d.leaveStreaming n).setLoom n { (d.leaveStreaming n).loom n with streamCount := 0 } else d
  let on := v / 2 ^ 8 % 2 ^ 8
  let old := d.fld Fld.CACHE_CTRL_WAY_ON n.toNat
  if on = 0 || on = old then d.nextPc n 4
  else
    let d := d.setFld Fld.CACHE_CTRL_WAY_ON n.toNat on
    let d := d.setLoom n { d.loom n with stall := .ways (BitVec.ofNat 8 on) }
    let d := d.setFld Fld.CACHE_STATUS_WAY_BUSY n.toNat 1
    (d.flushWays n (fun w => old.testBit w && !on.testBit w)).cacheOpEnd n

/-- The value SRR returns; none for a number without a register. -/
def Dev.sysRead (d : Dev) (n : LoomId) (num : Nat) : Option W64 :=
  let l := d.loom n
  let c (x : Card) : Option W64 := some (BitVec.ofNat 64 (d.card x n.toNat))
  match num with
  | 0x000 => some (n.setWidth 64)
  | 0x001 => some (BitVec.ofNat 64 (d.wingOf n % 2 ^ 8))
  | 0x002 => some (l.rank.setWidth 64)
  | 0x003 => some (l.size.setWidth 64)
  | 0x004 => some (BitVec.ofNat 64 d.tick)
  | 0x005 => some (Config.cycles n d.free)
  | 0x010 => some l.busyMask
  | 0x011 => c Crd.TALLY_FAULT
  | 0x012 => c Crd.TALLY_FIRST
  | 0x013 => some l.inbox
  | 0x020 => c Crd.ARRAY_FLAGS
  | 0x021 => c Crd.TREADLE_STATUS
  | 0x040 => c Crd.REED_CTRL
  | 0x041 => c Crd.REED_FLAGS
  | 0x042 => c Crd.REED_SEED
  | 0x080 => c Crd.CACHE_CTRL
  | 0x081 => c Crd.CACHE_STATUS
  | 0x082 => c Crd.CACHE_LFSR
  | 0x083 => c Crd.CACHE_OP
  | _ => none

/-- SRR and SRW of the reed's registers wait for its in-line instructions (R122). -/
def Dev.reedHolds (d : Dev) (n : LoomId) (num : Nat) : Bool := 0x040 ≤ num && num ≤ 0x042 && !(d.loom n).reedQ.isEmpty

/-- SRR. -/
def Dev.srr (d : Dev) (n : LoomId) (a : SrArgs) : Dev :=
  let num := a.num.toNat
  if a.rsvd ≠ 0 then d.stop n .illegalInstruction
  else match d.sysRead n num with
    | none => d.stop n .illegalInstruction
    | some v =>
      if d.reedHolds n num then d
      else
        let d := if num = 0x005 then d.draw.2 else d
        (d.setReg n a.r v).nextPc n 4

/-- A write of a system register under its access codes. -/
def Dev.sysWrite (d : Dev) (n : LoomId) (num : Nat) (v : W64) : Dev :=
  let k := n.toNat
  match num with
  | 0x011 => (d.writeCard Crd.TALLY_FAULT k v.toNat).nextPc n 4
  | 0x012 => (d.writeCard Crd.TALLY_FIRST k v.toNat).nextPc n 4
  | 0x013 => (d.setLoom n { d.loom n with inbox := (d.loom n).inbox &&& ~~~v }).nextPc n 4
  | 0x020 => (d.writeCard Crd.ARRAY_FLAGS k v.toNat).nextPc n 4
  | 0x021 => (d.writeCard Crd.TREADLE_STATUS k v.toNat).nextPc n 4
  | 0x040 => (d.writeCard Crd.REED_CTRL k v.toNat).nextPc n 4
  | 0x041 => (d.writeCard Crd.REED_FLAGS k v.toNat).nextPc n 4
  | 0x042 => (d.writeCard Crd.REED_SEED k v.toNat).nextPc n 4
  | 0x080 => d.cacheCtrl n v.toNat
  | 0x081 => (d.writeCard Crd.CACHE_STATUS k v.toNat).nextPc n 4
  | 0x082 => (d.setFld Fld.CACHE_LFSR_STATE k (if v.toNat % 2 ^ 16 = 0 then 0xACE1 else v.toNat)).nextPc n 4
  | 0x083 => d.cacheWhole n (v.toNat % 4)
  | _ => d.nextPc n 4

/-- SRW; a number outside Table 4-2 and its assigned ranges stops the treadle (R85). -/
def Dev.srw (d : Dev) (n : LoomId) (a : SrArgs) : Dev :=
  let num := a.num.toNat
  if a.rsvd ≠ 0 || (d.sysRead n num).isNone then d.stop n .illegalInstruction
  else if d.reedHolds n num then d
  else d.sysWrite n num ((d.loom n).reg a.r)

/-! ### Scratch accesses (class 0xB) -/

/-- In-line reed instructions that access scratch and have not completed (R122). -/
def Loom.reedScratch (l : Loom) : Bool :=
  l.reedQ.any (fun o => let op := rwOp o.word; op = 0x30 || op = 0x31 || op = 0x3A || op = 0x3B)

/-- The checks of a class 0xB access: its scratch address, or the error that stops it.  DESIGN CHOICE (notes/assumptions/57.md): a
misaligned address that is also out of range stops with MISALIGNED, and a sum below 0 is out of range and does not wrap. -/
def Loom.scrAddr (l : Loom) (a : ScrArgs) : Except ErrCode Nat :=
  let x : Int := ((l.reg a.rs1).toNat % 2 ^ 20 : Nat) + a.imm.toInt
  let bytes := 2 ^ a.size.toNat
  if x % bytes ≠ 0 then .error .misaligned
  else if x < 0 ∨ x + bytes > scratchEnd then .error .scratchRange
  else .ok x.toNat

/-- SLD. -/
def Dev.sld (d : Dev) (n : LoomId) (a : ScrArgs) : Dev :=
  let l := d.loom n
  match l.scrAddr a with
  | .error e => d.stop n e
  | .ok x =>
    if l.reedScratch then d
    else
      let bits := 8 * 2 ^ a.size.toNat
      let v := Memory.readNat l.scratch x (2 ^ a.size.toNat)
      let r : W64 := if a.sext && v.testBit (bits - 1) then BitVec.ofInt 64 ((v : Int) - 2 ^ bits) else BitVec.ofNat 64 v
      (d.setReg n a.r r).nextPc n 4

/-- SST. -/
def Dev.sst (d : Dev) (n : LoomId) (a : ScrArgs) : Dev :=
  let l := d.loom n
  if a.sext then d.stop n .illegalInstruction
  else match l.scrAddr a with
    | .error e => d.stop n e
    | .ok x =>
      if l.reedScratch then d
      else (d.scratchWrite n.toNat x (2 ^ a.size.toNat) (l.reg a.r).toNat).nextPc n 4

/-! ### Tallies and waits (R107, R111) -/

/-- A class 0xE word of TALLY.POLL or TALLY.CLEAR uses op, rMem and rScr alone (R107). -/
def XferArgs.tallyForm (a : XferArgs) : Bool :=
  a.tally = 0 && !a.afterV && a.after = 0 && !a.notify && a.rStr = 0 && a.rows = 0 && a.len = 0 && a.rsvd = 0

/-- TALLY.POLL. -/
def Dev.tallyPoll (d : Dev) (n : LoomId) (a : XferArgs) : Dev :=
  if !a.tallyForm then d.stop n .illegalInstruction
  else (d.setReg n a.rMem (d.loom n).busyMask).nextPc n 8

/-- TALLY.CLEAR. -/
def Dev.tallyClear (d : Dev) (n : LoomId) (a : XferArgs) : Dev :=
  if !a.tallyForm then d.stop n .illegalInstruction
  else
    let m := ((d.loom n).reg a.rScr).toNat
    let first := d.fld Fld.TALLY_FIRST_TALLY n.toNat
    let hit := m.testBit first && d.fldBit Fld.TALLY_FAULT_FAULT n.toNat first
    let d := d.clrFld Fld.TALLY_FAULT_FAULT n.toNat m
    let d := if hit then d.setFld Fld.TALLY_FIRST_VALID n.toNat 0 else d
    d.nextPc n 8

/-- TALLY.WAIT. -/
def Dev.tallyWait (d : Dev) (n : LoomId) (a : SysArgs) : Dev :=
  if a.imm ≠ 0 then d.stop n .illegalInstruction
  else (d.setLoom n { d.loom n with stall := .tallyWait a.rd ((d.loom n).reg a.rs1) }).tallyRelease n

/-- INBOX.WAIT. -/
def Dev.inboxWait (d : Dev) (n : LoomId) (a : SysArgs) : Dev :=
  if a.imm ≠ 0 then d.stop n .illegalInstruction
  else (d.setLoom n { d.loom n with stall := .inboxWait a.rd ((d.loom n).reg a.rs1) }).inboxRelease n

/-- HALT: waits for the tallies, then records its exit code and ends the program.  DESIGN CHOICE (notes/assumptions/57.md): imm14 is
a field that HALT uses, so its bits [13:8] may be set. -/
def Dev.halt (d : Dev) (n : LoomId) (a : SysArgs) : Dev :=
  if a.rd ≠ 0 ∨ a.rs1 ≠ 0 then d.stop n .illegalInstruction
  else (d.setLoom n { d.loom n with stall := .halt (a.imm.setWidth 8) }).tallyRelease n

/-! ### The end of a program (R117, R118, R163) -/

/-- The treadle is between two instructions: the one it waits at has had no effect. -/
def Stall.boundary : Stall → Bool
  | .run => true
  | .walk => true
  | .fetch _ _ _ => true
  | .inboxWait _ _ => true
  | .barrier _ => true
  | _ => false

/-- Asks a running loom to pause or to be fenced; a fence wins over a pause (R117, R118). -/
def Dev.askStop (d : Dev) (n : LoomId) (e : Ending) : Dev :=
  let l := d.loom n
  if d.loomState n = stRunning ∧ (l.request ≠ .fenced ∨ e = .fenced) then d.setLoom n { l with request := e } else d

/-- A requested pause or fence takes the loom at its instruction boundary. -/
def Dev.takeStop (d : Dev) (n : LoomId) : Dev :=
  let l := d.loom n
  if l.request ≠ .none && l.ending = .none && l.stall.boundary then
    let d := (d.leaveRec (.treadle n)).leaveRec (.ifetch n)
    -- a loom that waits at its BARRIER breaks the group, which releases it first (R113)
    let d := match l.stall with
      | .barrier _ => d.breakGroup n
      | _ => d
    let l := d.loom n
    let d := d.setLoom n { l with ending := l.request, request := .none, stall := .run }
    let d := d.setFld Fld.TREADLE_STATUS_ERROR_CODE n.toNat ErrCode.stopRequested.code
    let d := d.setFld Fld.TREADLE_PC_PC n.toNat l.pc.toNat
    (d.breakGroup n).cancelQueued n
  else if l.request = .fenced && l.ending = .paused then d.setLoom n { l with ending := .fenced, request := .none }
  else d

/-- The state a loom leaves RUNNING for. -/
def Ending.state : Ending → Nat
  | .halt => stIdle
  | .stopped => stStopped
  | .paused => stPaused
  | .fenced => stFenced
  | .none => stRunning

/-- A loom that has stopped or is fenced is no member of its group, which it left BROKEN (R113, R117). -/
def Dev.quitGroup (d : Dev) (n : LoomId) : Dev :=
  match (d.loom n).group with
  | none => d
  | some g =>
    let k := groupKey (d.wingOf n) g
    (d.setLoom n { d.loom n with group := none }).setGroup k { d.group k with members := (d.group k).members.filter (· ≠ n) }

/-- LOOM_PROGRAM_END: a loom that halts, stops, pauses or is fenced leaves RUNNING once its store buffer is empty and its
in-line reed instructions are done. -/
def Dev.programEnd (d : Dev) (n : LoomId) : Dev :=
  if d.loomState n ≠ stRunning then d else
  let d := d.takeStop n
  let l := d.loom n
  if l.ending = .none || !l.stb.isEmpty || !l.reedQ.isEmpty || l.busyMask ≠ 0 then d
  else
    let e := l.ending
    let d := if e = .halt then d.leaveGroup n else if e = .paused then d else d.quitGroup n
    let d := d.setLoom n { d.loom n with ending := .none, request := .none, stall := .run }
    let fault := d.fld Fld.TALLY_FAULT_FAULT n.toNat ≠ 0
    let d := d.setFld Fld.TREADLE_STATUS_TALLY_FAULT_PENDING n.toNat (if fault then 1 else 0)
    d.setLoomState n e.state

end Sys2Proof.Machine
end

