-- ==== Sys2Proof/Machine/ArrayOps.lean ====
section
/-! DEFINITION. The WEAVE family (R97 to R105): checks and issue, the start of an operation with its arithmetic, and its
completion. -/

namespace Sys2Proof.Machine

/-- A pitch field in bytes: 0 means 256 units of 64 bytes. -/
def pitchBytes (p : BitVec 8) : Nat := if p = 0 then 256 * 64 else p.toNat * 64

/-- Bytes of one element row of a WEAVE (R47). -/
def ArrArgs.rowBytes (a : ArrArgs) : Nat := (a.kb.toNat + 1) * fmtBlock a.fmt.toNat * fmtBits a.fmt.toNat / 8

/-- Issues an array operation: the tally must be idle and the queue of eight must have room (R93, R103).  DESIGN CHOICE
(notes/assumptions/57.md): the eight are those that wait; the one that runs has left the queue. -/
def Dev.issueArr (d : Dev) (n : LoomId) (op : BitVec 2) (a : ArrArgs) : Dev :=
  let l := d.loom n
  if (Fmap.find l.tally a.tally.toNat).isSome || l.arrayQ.length ≥ 8 then d
  else
    let (id, d) := d.newOp
    let o : ArrOp := { id := id, op := op, a := a, dep := d.depOf n a.afterV a.after, ab := l.reg a.rAB, s := l.reg a.rS }
    (d.setLoom n ({ l with arrayQ := l.arrayQ ++ [o] }.holdTally a.tally id)).nextPc n 8

/-- Low and high 20-bit addresses of a packed register. -/
def lo20 (v : W64) : Nat := (v.extractLsb' 0 20).toNat
def hi20 (v : W64) : Nat := (v.extractLsb' 32 20).toNat

/-- The checks of R98 and R99. -/
def weaveCheck (a : ArrArgs) (ab s : W64) : Option ErrCode :=
  let f := a.fmt.toNat
  if a.rsvd ≠ 0 then some .illegalInstruction
  else if !fmtArray f then some .illegalFormat
  else if lo20 ab % 64 ≠ 0 ∨ hi20 ab % 64 ≠ 0 then some .misaligned
  else if pitchBytes a.pitchA < a.rowBytes ∨ pitchBytes a.pitchB < a.rowBytes then some .illegalOperand
  else
    let out (b p : Nat) : Bool := b + 7 * p + a.rowBytes > scratchEnd
    let scl (b : Nat) : Bool := fmtScaled f && b + 8 * (a.kb.toNat + 1) > scratchEnd
    if out (lo20 ab) (pitchBytes a.pitchA) || out (hi20 ab) (pitchBytes a.pitchB) || scl (lo20 s) || scl (hi20 s) then some .scratchRange
    else none

/-- WEAVE. -/
def Dev.weaveOp (d : Dev) (n : LoomId) (a : ArrArgs) : Dev :=
  let l := d.loom n
  match weaveCheck a (l.reg a.rAB) (l.reg a.rS) with
  | some e => d.stop n e
  | none => d.issueArr n 0 a

/-- The fields that ACC.LOAD, ACC.STORE and ACC.ZERO leave at zero (R98). -/
def ArrArgs.accForm (a : ArrArgs) : Bool :=
  a.fmt = 0 && !a.strict && !a.fresh && a.kb = 0 && a.pitchA = 0 && a.pitchB = 0 && a.rS = 0 && a.rsvd = 0

/-- ACC.LOAD and ACC.STORE. -/
def Dev.accMove (d : Dev) (n : LoomId) (op : BitVec 2) (a : ArrArgs) : Dev :=
  let x := lo20 ((d.loom n).reg a.rAB)
  if !a.accForm then d.stop n .illegalInstruction
  else if x % 64 ≠ 0 then d.stop n .misaligned
  else if x + 256 > scratchEnd then d.stop n .scratchRange
  else d.issueArr n op a

/-- ACC.ZERO. -/
def Dev.accZero (d : Dev) (n : LoomId) (a : ArrArgs) : Dev :=
  if !a.accForm || a.rAB ≠ 0 then d.stop n .illegalInstruction else d.issueArr n 3 a

/-! ### Execution -/

/-- Elements of block b of a packed row. -/
def blockElems (f row b : Nat) : List Nat := (List.range (fmtBlock f)).map (fun k => elemAt (fmtBits f) row (b * fmtBlock f + k))

/-- One cell of a WEAVE: its blocks in increasing order (R59). -/
def weaveCell (f : Nat) (strict : Bool) (kb rowA rowB : Nat) (xa xb : Nat → Nat) (acc : Nat) : Nat × AFlags :=
  (List.range (kb + 1)).foldl (fun (x : Nat × AFlags) b =>
    let (r, g) := cellBlock f strict x.1 ((blockElems f rowA b).zip (blockElems f rowB b)) (xa b) (xb b)
    (r, x.2.or g)) (acc, {})

/-- The accumulator contents and flags after a WEAVE (R59 to R61, R100). -/
def Loom.weaveRun (l : Loom) (o : ArrOp) : Fmap W32 × AFlags :=
  let a := o.a
  let f := a.fmt.toNat
  let kb := a.kb.toNat
  let rowA (i : Nat) : Nat := Memory.readNat l.scratch (lo20 o.ab + i * pitchBytes a.pitchA) a.rowBytes
  let rowB (j : Nat) : Nat := Memory.readNat l.scratch (hi20 o.ab + j * pitchBytes a.pitchB) a.rowBytes
  let sc (base i b : Nat) : Nat := if fmtScaled f then (Memory.read l.scratch (base + i * (kb + 1) + b)).toNat else 127
  let rowsA := (List.range 8).map rowA
  let rowsB := (List.range 8).map rowB
  (List.range 64).foldl (fun (x : Fmap W32 × AFlags) c =>
    let i := c / 8
    let j := c % 8
    let key := 64 * a.acc.toNat + c
    let old := if a.fresh then 0 else (Fmap.get 0 l.acc key).toNat
    let (r, g) := weaveCell f a.strict kb (rowsA.getD i 0) (rowsB.getD j 0) (sc (lo20 o.s) i) (sc (hi20 o.s) j) old
    (Fmap.put x.1 key (BitVec.ofNat 32 r), x.2.or g)) (l.acc, {})

/-- Raises flags in ARRAY_FLAGS (R76). -/
def Dev.arrayFlags (d : Dev) (n : LoomId) (f : AFlags) : Dev :=
  let s (b : Bool) (x : Field) (d : Dev) : Dev := if b then d.setFld x n.toNat 1 else d
  s f.overflow Fld.ARRAY_FLAGS_OVERFLOW <| s f.underflow Fld.ARRAY_FLAGS_UNDERFLOW <| s f.inexact Fld.ARRAY_FLAGS_INEXACT <|
    s f.invalid Fld.ARRAY_FLAGS_INVALID <| s f.trunc Fld.ARRAY_FLAGS_TRUNC d

/-- An earlier drain of the operation's accumulator is not finished (R104). -/
def Loom.drainAhead (l : Loom) (o : ArrOp) : Bool :=
  l.drainQ.any (fun r => r.id < o.id && rwVc r.word ≤ o.a.acc.toNat && o.a.acc.toNat < rwVc r.word + drainAccs (rwFmt r.word))

/-- The effect of an array operation on its accumulator and scratch. -/
def Dev.arrRun (d : Dev) (n : LoomId) (o : ArrOp) : Dev :=
  let l := d.loom n
  let acc := o.a.acc.toNat
  let x := lo20 o.ab
  if o.op = 0 then
    let (m, g) := l.weaveRun o
    (d.setLoom n { l with acc := m }).arrayFlags n g
  else if o.op = 1 then
    d.setLoom n { l with acc := (List.range 64).foldl (fun (m : Fmap W32) c =>
      Fmap.put m (64 * acc + c) (BitVec.ofNat 32 (Memory.readNat l.scratch (x + 4 * c) 4))) l.acc }
  else if o.op = 2 then
    (List.range 64).foldl (fun (d : Dev) c => d.scratchWrite n.toNat (x + 4 * c) 4 (Fmap.get 0 l.acc (64 * acc + c)).toNat) d
  else
    d.setLoom n { l with acc := l.acc.filter (fun c => !(64 * acc ≤ c.1 && c.1 < 64 * acc + 64)) }

/-- ARRAY_OP_START: the head of the array queue starts once its dependency is met; a failed dependency completes it
with DEPENDENCY (R94, R103, R104). -/
def Dev.arrayStart (d : Dev) (n : LoomId) : Dev :=
  let l := d.loom n
  match l.arrayRun, l.arrayQ with
  | none, o :: rest =>
    (match o.dep with
      | .on _ => d
      | .failed => (d.setLoom n { l with arrayQ := rest }).tallyDone n o.a.tally o.id (some .dependency)
      | .met => if l.drainAhead o then d else (d.setLoom n { l with arrayQ := rest, arrayRun := some o }).arrRun n o)
  | _, _ => d

/-- ARRAY_OP_COMPLETE. -/
def Dev.arrayComplete (d : Dev) (n : LoomId) : Dev :=
  let l := d.loom n
  match l.arrayRun with
  | none => d
  | some o => (d.setLoom n { l with arrayRun := none }).tallyDone n o.a.tally o.id none

end Sys2Proof.Machine
end

