-- ==== Sys2Proof/Machine/Transfer.lean ====
section
/-! DEFINITION. Transfers (R106 to R110, R162): checks and issue of FETCH, PUT and SEND, their start, their requests and
the answers to them. -/

namespace Sys2Proof.Machine

/-- The registers of a transfer, decoded (Table 4-9, R108). -/
def Loom.xferOf (l : Loom) (id : Nat) (op : BitVec 3) (dep : Dep) (a : XferArgs) : Xfer :=
  let m := l.reg a.rMem
  let s := l.reg a.rScr
  { id := id, op := op, tally := a.tally, dep := dep,
    addr := if op = 2 then (m.extractLsb' 32 20).setWidth 64 else m,
    dest := m.setWidth 12, notify := a.notify, index := m.extractLsb' 16 6,
    scr := (s.extractLsb' 0 20).toNat, pitch := (s.extractLsb' 32 20).toNat, stride := (l.reg a.rStr).toInt,
    rows := a.rows.toNat + 1, len := 8 * (a.len.toNat + 1) }

/-- The checks of R108.  DESIGN CHOICE (notes/assumptions/57.md): a transfer that fails several takes the first error of the table. -/
def Xfer.check (x : Xfer) : Option ErrCode :=
  let send := x.op = 2
  let last : Int := x.addr.toNat + (x.rows - 1 : Nat) * x.stride
  if x.addr.toNat % 8 ≠ 0 ∨ x.scr % 8 ≠ 0 ∨ x.pitch % 8 ≠ 0 ∨ x.stride % 8 ≠ 0 then some .misaligned
  else if x.pitch < x.len ∨ (send ∧ x.stride < x.len) then some .illegalOperand
  else if x.scr + (x.rows - 1) * x.pitch + x.len > scratchEnd ∨ (send ∧ last + x.len > scratchEnd) then some .scratchRange
  else none

/-- FETCH, PUT and SEND at issue: the tally must be idle and the queue of 32 must have room (R93, R109).  DESIGN CHOICE
(notes/assumptions/57.md): started transfers count among the 32 until they complete. -/
def Dev.issueXfer (d : Dev) (n : LoomId) (op : BitVec 3) (a : XferArgs) : Dev :=
  let l := d.loom n
  if a.rsvd ≠ 0 || (a.notify && op ≠ 2) then d.stop n .illegalInstruction
  else match (l.xferOf 0 op .met a).check with
    | some e => d.stop n e
    | none =>
      if (Fmap.find l.tally a.tally.toNat).isSome || l.xferQ.length + l.xferRun.length ≥ 32 then d
      else
        let (id, d) := d.newOp
        let x := l.xferOf id op (d.depOf n a.afterV a.after) a
        (d.setLoom n ({ l with xferQ := l.xferQ ++ [x] }.holdTally a.tally id)).nextPc n 8

/-- TRANSFER_START: the oldest queued transfer whose dependency is met starts; one whose dependency failed completes with
DEPENDENCY, and a SEND out of the wing with WING_DENIED (R94, R109, R110). -/
def Dev.xferStart (d : Dev) (n : LoomId) : Dev :=
  let l := d.loom n
  match l.xferQ.find? (fun x => x.dep = .met || x.dep = .failed) with
  | none => d
  | some x =>
    let l := { l with xferQ := eraseOne x l.xferQ }
    if x.dep = .failed then (d.setLoom n l).tallyDone n x.tally x.id (some .dependency)
    else if x.op = 2 && d.wingOf x.dest ≠ d.wingOf n then (d.setLoom n l).tallyDone n x.tally x.id (some .wingDenied)
    else d.setLoom n { l with xferRun := l.xferRun ++ [x] }

/-- Scratch address and remote address of the next byte of a transfer, and the bytes left in its row. -/
def Xfer.next (x : Xfer) : Nat × W64 × Nat :=
  let r := x.pos / x.len
  let o := x.pos % x.len
  (x.scr + r * x.pitch + o, x.addr + BitVec.ofInt 64 ((r : Int) * x.stride) + BitVec.ofNat 64 o, x.len - o)

/-- A request of a transfer has been issued. -/
def Dev.xferIssued (d : Dev) (n : LoomId) (x : Xfer) (o : XOut) (acked : Bool) : Dev :=
  d.setXfer n { x with pos := x.pos + o.len, outs := if acked then x.outs else x.outs ++ [o] }

/-- A request that met a broken path before it was sent: zeros for a read, INDETERMINATE for a write (Table 4-7). -/
def Dev.xferBroken (d : Dev) (n : LoomId) (x : Xfer) (scr len : Nat) (va : W64) (host : Bool) : Dev :=
  let x := { x with pos := x.pos + len }
  if x.op = 0 then ((d.setXfer n x).scratchWrite n.toNat scr len 0).xferFault n x.id .linkLost false
  else
    let x := { x with lostHost := x.lostHost || host, lostPeer := x.lostPeer || !host }
    ((d.setXfer n x).lostWrite n va).xferFault n x.id .indeterminate false

/-- Bytes of scratch at their place in a line. -/
def Dev.lineOf (d : Dev) (n scr off len : Nat) : Line := BitVec.ofNat 2048 (d.scratchRead n scr len * 2 ^ (8 * off))
/-- The byte mask [off, off + len) of a line. -/
def runMask (off len : Nat) : BitVec 256 := BitVec.ofNat 256 ((2 ^ len - 1) * 2 ^ off)
/-- The sectors a run of bytes touches. -/
def runSects (off len : Nat) : BitVec 4 :=
  (List.range 4).foldl (fun (s : BitVec 4) k => if off < 64 * k + 64 && 64 * k < off + len then setBit4 s k else s) 0

/-- The request of a FETCH or PUT whose address translated to `a`. -/
def Dev.xferMem (d : Dev) (n : LoomId) (x : Xfer) (t : Tlb) (va : W64) (a scr left : Nat) : Dev :=
  let w := d.wingOf n
  let wing : WingId := BitVec.ofNat 4 w
  let read := x.op = 0
  let early := !read && pteAttr t.leaf = attrDeviceEa
  let (tag, d1) := d.newTag
  -- each line, or part of one, counts once (R292); a host takes a line in 64-byte parts
  let count (d : Dev) : Dev := if pteHost t.leaf && a % 256 ≥ 64 && x.pos % x.len ≠ 0 then d else d.countLoom n t va
  let noteEarly (d : Dev) (dst : Dest) : Dev :=
    if early then d.setLoom n { d.loom n with early := (d.loom n).early ++ [{ tag := tag, dest := dst, xfer := some x.id, va := va }] } else d
  match destOf t a with
  | .peer p =>
    let off := a % 256
    let len := min left (256 - off)
    let o : XOut := { tag := tag, scr := scr, dpa := a, len := len, read := read }
    let rd : PMsg := { opc := opcRd, vc := vcReq, epoch := 0, wing := wing, len := BitVec.ofNat 9 len,
                       off := BitVec.ofNat 48 ((a - remoteBase) % 2 ^ 41) }
    let wr : PMsg := { opc := opcWr, vc := vcBwr, epoch := 0, wing := wing, len := BitVec.ofNat 9 len,
                       off := BitVec.ofNat 48 ((a - remoteBase) % 2 ^ 41), data := BitVec.ofNat 2048 (d.scratchRead n.toNat scr len) }
    (match d1.peerSend (.xfer n) tag p (if read then rd else wr) early with
      | (.ok, d) => (((count d).xferIssued n x o early).xferEnd n x.id) |> fun d => noteEarly d (.peer p)
      | (.hold, _) => d
      | (.broken, d) => d.xferBroken n x scr len va false)
  | .host h =>
    let off := a % 256
    let len := min left (64 - a % 64)
    let o : XOut := { tag := tag, scr := scr, dpa := a, len := len, read := read, host := true }
    if d.pathBroken h then d.xferBroken n x scr len va true
    else (match d1.hostAddr (.xfer n x.id) w va h a (!read) (pageBytes t.big) with
      | (none, d) => d
      | (some y, d) =>
        let r : HostReq := if read then { tag := tag, op := .rdCurr, src := .xfer n, addr := y / 64 * 64 }
          else hostWrite tag (.xfer n) (y / 64 * 64) (maskSector (runMask off len) (off / 64))
            (Line.sector (d.lineOf n.toNat scr off len) (off / 64)) early
        ((((count d).hostSend h r).xferIssued n x o early).xferEnd n x.id) |> fun d => noteEarly d (.host h))
  | dst =>
    let off := a % 256
    let len := min left (256 - off)
    let o : XOut := { tag := tag, scr := scr, dpa := a, len := len, read := read }
    let r : Req := { kind := if read then .readOnce else if dst = .alias_ then .reduceWrite else .write, src := .xfer n, tag := tag,
                     line := BitVec.ofNat 40 (a / 256), sects := runSects off len, wing := wing }
    let r := if read then r else { r with data := d.lineOf n.toNat scr off len, mask := runMask off len }
    ((count d1).sendReq r).xferIssued n x o false

/-- The next request of a SEND, through the home of the destination's scratch range (R110). -/
def Dev.xferSend (d : Dev) (n : LoomId) (x : Xfer) (scr left : Nat) (dst : Nat) : Dev :=
  let a := scratchBase + x.dest.toNat * MiB + dst
  let off := a % 256
  let len := min left (256 - off)
  let (tag, d1) := d.newTag
  let r : Req := { kind := .write, src := .xfer n, tag := tag, line := BitVec.ofNat 40 (a / 256), sects := runSects off len,
                   data := d.lineOf n.toNat scr off len, mask := runMask off len, wing := BitVec.ofNat 4 (d.wingOf n) }
  (d1.sendReq r).xferIssued n x { tag := tag, scr := scr, dpa := a, len := len, read := false } false

/-- TRANSFER_REQUEST_ISSUE: the oldest started transfer with bytes left takes a free slot, 64 reads and 64 writes in all
(R109). -/
def Dev.xferRequest (d : Dev) (n : LoomId) : Dev :=
  let l := d.loom n
  match l.xferRun.find? (fun x => x.pos < x.total && !x.stalled) with
  | none => d
  | some x =>
    let used := (l.xferRun.map (fun y => (y.outs.filter (fun o => o.read = (x.op = 0))).length)).sum
    if used ≥ 64 then d
    else
      let (scr, va, left) := x.next
      if x.op = 2 then d.xferSend n x scr left va.toNat
      else
        let k : AccKind := if x.op = 0 then .load else .store
        match d.translate (.xfer n x.id) (d.wingOf n) va k with
        | (.miss, d) => d
        | (.fault f, d) => d.fault (.xfer n x.id) (d.wingOf n) va k f
        | (.ok t a, d) => d.xferMem n x t va a scr left

/-- The data of a FETCH request: poisoned and lost sectors are zeros (Table 4-7). -/
def fetchBytes (o : XOut) (r : Reply) : Nat :=
  (List.range o.len).foldl (fun (v : Nat) i =>
    let p := (o.dpa + i) % 256
    if r.lost || r.denied || r.poison.getLsbD (p / 64) then v
    else v + (r.data.extractLsb' (8 * p) 8).toNat * 2 ^ (8 * i)) 0

/-- An answer to a request of a transfer (R95, R96, Table 4-7). -/
def Dev.xferReply (d : Dev) (n : LoomId) (tag : Nat) (r : Reply) : Dev :=
  match (d.loom n).xferRun.find? (fun x => x.outs.any (fun o => o.tag = tag)) with
  | none => d.storeAck n tag r
  | some x =>
    match x.outs.find? (fun o => o.tag = tag) with
    | none => d
    | some o =>
      let x := { x with outs := x.outs.filter (fun y => y.tag ≠ tag) }
      if r.denied then (d.setXfer n x).xferFault n x.id .wingDenied true
      else if o.read then
        let d := (d.setXfer n x).scratchWrite n.toNat o.scr o.len (fetchBytes o r)
        if r.lost then d.xferFault n x.id .linkLost false
        else if r.poison &&& runSects (o.dpa % 256) o.len ≠ 0 then d.xferFault n x.id .poisoned false
        else d.xferEnd n x.id
      else if r.lost then
        let x := { x with lostPeer := x.lostPeer || !o.host, lostHost := x.lostHost || o.host }
        ((d.setXfer n x).lostWrite n (BitVec.ofNat 64 o.dpa)).xferFault n x.id .indeterminate false
      else (d.setXfer n x).xferEnd n x.id

end Sys2Proof.Machine
end

