-- ==== Sys2Proof/Machine/Courier.lean ====
section
/-! DEFINITION. Couriers and their queues (spec/12_couriers_host_coupling.md): doorbells, arbitration, slot fetches, the
descriptors of Table 12-3, completion, and what head events do to a queue. -/

namespace Sys2Proof.Machine

/-! ### Queue registers -/

def Dev.qWing (d : Dev) (q : Nat) : Nat := d.fld Fld.QUEUE_BIND_WING q
def Dev.qHead (d : Dev) (q : Nat) : HeadId := BitVec.ofNat 4 (d.fld Fld.QUEUE_BIND_HEAD q)
def Dev.qXdie (d : Dev) (q : Nat) : Nat := d.fld Fld.QUEUE_BIND_XDIE q
/-- Slots of the submission ring and records of the completion ring (R300). -/
def Dev.sqSize (d : Dev) (q : Nat) : Nat := 64 * 2 ^ min 6 (d.fld Fld.SQ_BASE_SIZE q)
def Dev.cqSize (d : Dev) (q : Nat) : Nat := 64 * 2 ^ min 6 (d.fld Fld.CQ_BASE_SIZE q)
def Dev.slotBytes (d : Dev) (q : Nat) : Nat := if d.fld Fld.QUEUE_CTRL_DSIZE q = 1 then 128 else 64
def Dev.qEnabled (d : Dev) (q : Nat) : Bool := d.fld Fld.QUEUE_CTRL_ENABLE q = 1 && d.fld Fld.QUEUE_BIND_VALID q = 1

/-- Paused: the home head's Bus Master Enable is clear, the head is frozen or ABSENT, or FATAL containment holds
(Table 12-6); a full completion ring stops the queue as well (R316). -/
def Dev.qPaused (d : Dev) (q : Nat) : Bool :=
  let h := d.qHead q
  !(d.head h).bme || d.frozen h || d.isAbsent h

/-- Ready to fetch (R298). -/
def Dev.qReady (d : Dev) (q : Nat) : Bool :=
  d.qEnabled q && d.fld Fld.QUEUE_STATUS_HEAD_RESET q = 0 && !d.qPaused q && d.fld Fld.QUEUE_STATUS_CQ_FULL q = 0 &&
    d.fld Fld.SQ_HEAD_HEAD q ≠ d.fld Fld.SQ_TAIL_TAIL q

/-- DOORBELL (R300): a value beyond the ring is ignored; a valid one restarts a fetch that waits for a doorbell. -/
def Dev.doorbell (d : Dev) (q : Nat) (v : Nat) : Dev :=
  if v ≥ d.sqSize q then d.setFld Fld.QUEUE_STATUS_BAD_DOORBELL q 1
  else
    let d := d.setFld Fld.SQ_TAIL_TAIL q v
    let x := d.queue q
    if x.fetch = .doorbell then d.setQueue q { x with fetch := .idle } else d

/-- CQ_HEAD_WRITE: reduced modulo the ring; CQ_FULL clears (R316). -/
def Dev.cqHeadWrite (d : Dev) (q : Nat) (v : Nat) : Dev :=
  (d.setFld Fld.CQ_HEAD_HEAD q (v % 2 ^ 12 % d.cqSize q)).setFld Fld.QUEUE_STATUS_CQ_FULL q 0

/-- Couriers in use. -/
def Dev.couriersBusy (d : Dev) : List (BitVec 6) :=
  d.queues.foldl (fun (l : List (BitVec 6)) x =>
    l ++ x.2.courier.toList ++ (x.2.cur.map (fun y => y.courier)).toList) []

/-- The lowest free courier of an X-die in a direction (R296). -/
def Dev.freeCourier (d : Dev) (x : Nat) (outbound : Bool) : Option (BitVec 6) :=
  let n := 32 / d.asm.xdies
  let busy := d.couriersBusy
  ((List.range n).map (fun i => BitVec.ofNat 6 ((if outbound then 32 else 0) + x * n + i))).find? (fun c => !busy.contains c)

/-- A queue waits for a courier: it is ready, no descriptor of it is in progress, and no re-fetch is still to come
(R298, R301). -/
def Dev.qWaits (d : Dev) (x : XDie) (q : Nat) : Bool :=
  let z := d.queue q
  d.fld Fld.QUEUE_BIND_VALID q = 1 && d.qXdie q = x.toNat && d.qReady q && z.cur.isNone && z.courier.isNone &&
    (match z.fetch with
      | .idle => true
      | .backoff _ t => decide (t ≤ d.tick)
      | _ => false)

/-- Queue a goes before queue b: a higher level, then the one served longer ago (R298). -/
def Dev.before (d : Dev) (a b : Nat) : Bool :=
  let pa := d.fld Fld.QUEUE_CTRL_PRIO a
  let pb := d.fld Fld.QUEUE_CTRL_PRIO b
  pa > pb || (pa = pb && (d.queue a).served < (d.queue b).served)

/-- The queue of an X-die that gets its next courier. -/
def Dev.nextQueue (d : Dev) (x : XDie) : Option Nat :=
  match (List.range 512).filter (d.qWaits x) with
  | [] => none
  | q0 :: rest => some (rest.foldl (fun b a => if d.before a b then a else b) q0)

/-- A queue gets a courier. -/
def Dev.giveCourier (d : Dev) (q : Nat) (c : BitVec 6) : Dev :=
  let (n, d) := d.newOp
  d.setQueue q { d.queue q with courier := some c, served := n + 1 }

/-- The courier of an X-die that takes a queue next: an inbound one, else an outbound one. -/
def Dev.anyCourier (d : Dev) (x : Nat) : Option (BitVec 6) := (d.freeCourier x false).or (d.freeCourier x true)

/-- QUEUE_SCHEDULE: the X-die gives a free courier to its ready queue of the highest level, round robin within it
(R298). -/
def Dev.schedule (d : Dev) (x : XDie) : Dev :=
  match d.nextQueue x, d.anyCourier x.toNat with
  | some q, some c => d.giveCourier q c
  | _, _ => d

/-! ### Descriptor fields (Tables 12-2, 12-3) -/

/-- n bytes of a descriptor from byte i, as one number. -/
def Desc.num (x : Desc) (i n : Nat) : Nat := ((x.bytes.drop i).take n).foldr (fun b (v : Nat) => b.toNat + 256 * v) 0
def Desc.op (x : Desc) : Nat := x.num 0 1
def Desc.bit (x : Desc) (i : Nat) : Bool := (x.num 1 1).testBit i
def Desc.fence (x : Desc) : Bool := x.bit 6
def Desc.global (x : Desc) : Bool := x.bit 5
def Desc.crec (x : Desc) : Bool := x.bit 4
def Desc.flag (x : Desc) : Bool := x.bit 3
def Desc.irq (x : Desc) : Bool := x.bit 2
def Desc.dst (x : Desc) : Nat := if x.op = 1 || x.op = 5 then x.num 16 8 else x.num 8 8
/-- Bytes of the extent. -/
def Desc.len (x : Desc) : Nat :=
  match x.op with
  | 1 => x.num 24 4
  | 2 => x.num 16 2
  | 3 => x.num 24 4
  | 4 => 8
  | 5 => x.num 24 4
  | _ => 0
def Desc.place (x : Desc) : Nat := if x.op = 2 then x.num 18 2 else if x.op = 1 || x.op = 3 then x.num 28 2 else 0
def Desc.zeroFrom (x : Desc) (i : Nat) : Bool := (x.bytes.drop i).all (· = 0)

/-- The two tests of R301. -/
def slotPasses (bytes : List Byte) (phase : Bool) : Bool :=
  bytes.foldl (fun (a : Byte) b => a ^^^ b) 0 = 0xA5 && ((bytes.getD 1 0).getLsbD 7 = phase)

/-- KIND, HEAD and address of a 64-bit address (Table 12-1). -/
def aKind (a : Nat) : Nat := a / 2 ^ 62 % 4
def aHead (a : Nat) : HeadId := BitVec.ofNat 4 (a / 2 ^ 58)
def aIova (a : Nat) : Nat := a % 2 ^ 58

/-- A host address in the format of Table 12-1: KIND 2. -/
def hostAddrField (h : HeadId) (iova : Nat) : W64 := BitVec.ofNat 64 (2 ^ 63 + h.toNat * 2 ^ 58 + iova % 2 ^ 58)

/-- The address follows Table 12-1 for a queue's wing. -/
def Dev.addrOk (d : Dev) (w a : Nat) : Bool :=
  match aKind a with
  | 0 => a / 2 ^ 48 = 0
  | 1 => a / 2 ^ 56 % 64 = 0
  | 2 => d.isType2Of (aHead a) w
  | _ => false

/-- Rules of R304 and R305 for a descriptor. -/
def Dev.descOk (d : Dev) (w : Nat) (x : Desc) : Bool :=
  let a1 := x.num 8 8
  let a2 := x.num 16 8
  x.num 1 1 % 4 = 0 && x.num 3 1 = 0 && (x.op = 2 || x.zeroFrom 64) &&
  (match x.op with
    | 0 => x.zeroFrom 8
    | 1 =>
      let n := x.num 24 4
      d.addrOk w a1 && d.addrOk w a2 && 1 ≤ n && x.num 28 2 < 2 ^ 14 && x.zeroFrom 30 &&
        !(aKind a1 = aKind a2 && (aKind a1 ≠ 2 || aHead a1 = aHead a2) && a1 < a2 + n && a2 < a1 + n)
    | 2 =>
      let n := x.num 16 2
      d.addrOk w a1 && 1 ≤ n && n ≤ x.bytes.length - 24 && x.num 18 2 < 2 ^ 14 && x.num 20 4 = 0 && x.zeroFrom (24 + n)
    | 3 => d.addrOk w a1 && x.num 28 2 < 2 ^ 14 && x.zeroFrom 30
    | 4 => d.addrOk w a1 && a1 % 8 = 0 && x.zeroFrom 24
    | 5 =>
      let n := x.num 24 4
      d.addrOk w a1 && d.addrOk w a2 && aKind a1 ≠ 2 && aKind a2 ≠ 2 && a1 % 64 = 0 && a2 % 64 = 0 && n % 64 = 0 && x.num 28 1 < 2 && x.zeroFrom 29
    | 6 => aKind a1 = 1 && a1 / 2 ^ 56 % 64 = 0 && x.num 28 1 / 64 % 2 = 0 && x.num 29 3 = 0 && x.zeroFrom 40 &&
        aKind (x.num 32 8) = 0 && x.num 32 8 / 2 ^ 48 = 0 &&
        (if x.num 32 8 = 0 then 1 ≤ x.num 26 2 && x.num 24 2 + x.num 26 2 ≤ 4096 else x.num 24 4 = 0)
    | 7 => x.num 8 2 < 2 ^ 12 && x.zeroFrom 10
    | _ => false)

/-- The direction of a descriptor (R298): outbound when its data writes go to host or peer memory.  A virtual destination
has the direction of its translation, and none while that is not cached. -/
def Dev.descOutbound (d : Dev) (q : Nat) (x : Desc) : Option Bool :=
  if x.op = 0 || x.op ≥ 6 then some false
  else
    let a := x.dst
    let out (t : Nat) : Bool := remoteBase ≤ t && t < scratchBase
    match aKind a with
    | 0 => some (out a)
    | 1 => ((d.dieTlb (4 + d.qXdie q)).find? (fun t => t.hits (d.qWing q) (a % 2 ^ 56))).map
        (fun t => pteHost t.leaf || out (leafTarget t (a % 2 ^ 56)))
    | _ => some true

/-- A courier is outbound. -/
def outbound (c : BitVec 6) : Bool := 32 ≤ c.toNat

/-! ### Fetching a slot (R301) -/

/-- Attempt n failed: a backoff of 1 to 128 µs, or a wait for a doorbell after eight re-fetches; the courier is free
meanwhile. -/
def Dev.slotFail (d : Dev) (q n : Nat) : Dev :=
  let x := d.queue q
  if n < 8 then d.setQueue q { x with courier := none, fetch := .backoff (n + 1) (d.tick + 2 ^ n) }
  else (d.setQueue q { x with courier := none, fetch := .doorbell }).setFld Fld.QUEUE_STATUS_DOORBELL_EARLY q 1

/-- The slot's bytes have been read by courier `by_`: it is accepted by a courier of its direction, or fetched again later.
A descriptor whose direction is not known yet stays with the courier that fetched it, which translates its destination. -/
def Dev.slotRead (d : Dev) (q n : Nat) (v : Nat) : Dev :=
  let by_ := (d.queue q).courier
  let bytes := (List.range (d.slotBytes q)).map (fun i => BitVec.ofNat 8 (v / 256 ^ i))
  let x := d.queue q
  if !slotPasses bytes (d.fld Fld.QUEUE_STATUS_EXPECT_PHASE q = 1) then d.slotFail q n
  else
    let head := d.fld Fld.SQ_HEAD_HEAD q
    let y : Desc := { id := d.opSeq, slot := head, bytes := bytes, courier := 0 }
    let d' := d.setQueue q { x with courier := none, fetch := .idle }
    match ((d.descOutbound q y).map (fun o => d'.freeCourier (d.qXdie q) o)).getD by_ with
    | none => d'
    | some c =>
      let nxt := (head + 1) % d.sqSize q
      let d' := d'.newOp.2.setFld Fld.SQ_HEAD_HEAD q nxt
      let d' := if nxt = 0 then d'.setFld Fld.QUEUE_STATUS_EXPECT_PHASE q (1 - d.fld Fld.QUEUE_STATUS_EXPECT_PHASE q) else d'
      d'.setQueue q { d'.queue q with cur := some { y with courier := c } }

/-- Sends the reads of a slot, 64 bytes each, with fresh tags; a path that refuses one fails the attempt. -/
def Dev.slotReads (d : Dev) (q n : Nat) (f : Dev → Nat → Nat → Sent × Dev) : Dev :=
  let ks := List.range (d.slotBytes q / 64)
  let (tags, ok, d) := ks.foldl (fun (x : List (Nat × Nat) × Bool × Dev) k =>
    let (t, d) := x.2.2.newTag
    match f d t (64 * k) with
    | (.ok, d) => (x.1 ++ [(t, 64 * k)], x.2.1, d)
    | (_, d) => (x.1, false, d)) (([] : List (Nat × Nat)), true, d)
  if ok then d.setQueue q { d.queue q with fetch := .read n tags 0 } else d.slotFail q n

/-- Reads the slot at SQ_HEAD: ReadOnce for a DPA ring, RdCurr for a host ring (R301). -/
def Dev.fetchSlotAt (d : Dev) (q n : Nat) (c : BitVec 6) : Dev :=
  let sz := d.slotBytes q
  let base := d.fld Fld.SQ_BASE_ADDR q * 4096 + d.fld Fld.SQ_HEAD_HEAD q * sz
  let wing : WingId := BitVec.ofNat 4 (d.qWing q)
  if d.fld Fld.SQ_BASE_KIND q = 0 then
    if !d.wingMay (d.qWing q) base then d.slotFail q n
    else match d.range base with
      | .remote p off => d.slotReads q n (fun d t k => d.peerSend (.courier c) t (BitVec.ofNat 3 p)
          { opc := opcRd, vc := vcReq, epoch := 0, wing := wing, len := 64, off := BitVec.ofNat 48 (off + k) } false)
      | .memory | .scratch _ _ => d.slotReads q n (fun d t k => (.ok, d.sendReq
          { kind := .readOnce, src := .courier c, tag := t, line := BitVec.ofNat 40 ((base + k) / 256),
            sects := setBit4 0 ((base + k) / 64 % 4), wing := wing }))
      | _ => d.slotFail q n
  else
    let h := d.qHead q
    if d.pathBroken h then d.slotFail q n
    else match d.hostAddr (.courier c) (d.qWing q) (hostAddrField h base) h base false 0 with
      | (none, d) => d
      | (some y, d) => d.slotReads q n (fun d t k =>
          (.ok, d.hostSend h { tag := t, op := .rdCurr, src := .courier c, addr := y / 64 * 64 + k }))

/-- FETCH_SLOT: a scheduled queue's courier reads the slot for the first time. -/
def Dev.fetchSlot (d : Dev) (q : Nat) : Dev :=
  let x := d.queue q
  match x.courier, x.cur, x.fetch with
  | some c, none, .idle => if d.qReady q then d.fetchSlotAt q 0 c else d.setQueue q { x with courier := none }
  | _, _, _ => d

/-- SLOT_REFETCH: a backoff has expired; the slot is read again by the courier that the queue has been given, or that it
gets now because no queue goes before it (R298). -/
def Dev.slotRefetch (d : Dev) (q : Nat) : Dev :=
  let x := d.queue q
  match x.cur, x.fetch with
  | none, .backoff n t =>
    if d.tick < t || !d.qReady q then d
    else match x.courier with
      | some c => d.fetchSlotAt q n c
      | none =>
        if d.nextQueue (BitVec.ofNat 2 (d.qXdie q)) ≠ some q then d
        else match d.anyCourier (d.qXdie q) with
          | some c => (d.giveCourier q c).fetchSlotAt q n c
          | none => d
  | _, _ => d

/-! ### Addresses of a descriptor -/

/-- Where an access of a descriptor goes. -/
inductive CRes
  | ok (path : CPath) (target : Nat) (reduce early : Bool)
  /-- the path to a host is broken (R165) -/
  | broken (h : HeadId) (iova : Nat)
  /-- a translation or ATS is awaited, or has ended the descriptor -/
  | wait
  deriving DecidableEq, Repr

/-- The queue's descriptor in progress ends early; its courier leaves the faults and translations it waits for. -/
def Dev.endDesc (d : Dev) (q st : Nat) : Dev :=
  let d := match (d.queue q).cur with
    | some y => d.leaveRec (.courier y.courier)
    | none => d
  let x := d.queue q
  d.setQueue q { x with cur := x.cur.map (fun y => y.endWith st) }

/-- The path of a DPA, or of the target of a device leaf. -/
def dpaPath (a : Nat) : CPath := if remoteBase ≤ a ∧ a < scratchBase then .peer (BitVec.ofNat 3 ((a - remoteBase) / 2 ^ 41)) else .device

/-- The host side of an access: a broken path has its outcome before the translation is asked for (R165, R284). -/
def Dev.resolveHost (d : Dev) (w : Nat) (c : BitVec 6) (va : W64) (h : HeadId) (iova : Nat) (write : Bool) (page : Nat) : CRes × Dev :=
  if d.pathBroken h then (.broken h iova, d)
  else match d.hostAddr (.courier c) w va h iova write page with
    | (none, d) => (.wait, d)
    | (some y, d) => (.ok (.host h) y false false, d)

/-- Resolves a descriptor address plus an offset, with the checks of Tables 11-3 and 12-1. -/
def Dev.resolve12 (d : Dev) (q : Nat) (c : BitVec 6) (a off : Nat) (write : Bool) : CRes × Dev :=
  let w := d.qWing q
  match aKind a with
  | 0 =>
    let t := a + off
    if d.wingMay w t && d.range t ≠ .nothing then (.ok (dpaPath t) t (aliasBase ≤ t && t < remoteBase) false, d)
    else (.wait, d.endDesc q 2)
  | 1 =>
    let va : W64 := BitVec.ofNat 64 (a % 2 ^ 56 + off)
    let k : AccKind := if write then .store else .load
    (match d.translate (.courier c) w va k with
      | (.miss, d) => (.wait, d)
      | (.fault f, d) => (.wait, d.fault (.courier c) w va k f)
      | (.ok t x, d) =>
        if pteHost t.leaf then d.resolveHost w c va (pteHead t.leaf) x write (pageBytes t.big)
        else (.ok (dpaPath x) x (pteAttr t.leaf = attrAlias || (aliasBase ≤ x && x < remoteBase)) false, d))
  | _ =>
    let h := aHead a
    if (d.head h).up && !(d.head h).cxl then (.wait, d.endDesc q 2)
    else d.resolveHost w c (BitVec.ofNat 64 (a + off)) h (aIova a + off) write 0

/-! ### Extents (R305) -/

/-- A part of an extent whose bytes follow each other at one place: its path, first address there and length, and whether
writes to it reduce. -/
structure Piece where
  path : CPath
  base : Nat
  len : Nat
  reduce : Bool
  deriving DecidableEq, Repr

/-- The leaf of a page as the translation caches and tables stand; none where a walk would fault or has to wait. -/
def Dev.leafNow (d : Dev) (x w va : Nat) : Option Tlb :=
  match (d.dieTlb (4 + x)).find? (fun t => t.hits w va) with
  | some t => some t
  | none => match (d.walk (.walker 127) (4 + x) w va).1 with
    | .leaf big l => some ⟨BitVec.ofNat 4 w, va / pageBytes big * pageBytes big, big, l⟩
    | _ => none

/-- The pieces of an extent of a descriptor, one for each 64 MiB of a virtual one. -/
def Dev.pieces (d : Dev) (q a len : Nat) : List Piece :=
  let page := 64 * MiB
  match aKind a with
  | 0 => [⟨dpaPath a, a, len, aliasBase ≤ a && a < remoteBase⟩]
  | 1 =>
    let va := a % 2 ^ 56
    (List.range ((va % page + len + page - 1) / page)).filterMap (fun i =>
      let lo := max va ((va / page + i) * page)
      let hi := min (va + len) ((va / page + i + 1) * page)
      (d.leafNow (d.qXdie q) (d.qWing q) lo).map (fun t =>
        let x := leafTarget t lo
        if pteHost t.leaf then ⟨.host (pteHead t.leaf), x, hi - lo, false⟩
        else ⟨dpaPath x, x, hi - lo, pteAttr t.leaf = attrAlias || (aliasBase ≤ x && x < remoteBase)⟩))
  | _ => [⟨.host (aHead a), aIova a, len, false⟩]

def Piece.meets (x y : Piece) : Bool := x.path = y.path && decide (x.base < y.base + y.len) && decide (y.base < x.base + x.len)

/-- The rules of R305 on where the extents of a descriptor lie: those of COPY do not overlap; REDUCE_FORWARD reads display or
depot memory and writes aliases or remote windows.  They are judged as translations stand at the check (DEDUCED,
notes/assumptions/68.md). -/
def Dev.placesOk (d : Dev) (q : Nat) (x : Desc) : Bool :=
  let src := d.pieces q (x.num 8 8) x.len
  let dst := d.pieces q x.dst x.len
  match x.op with
  | 1 => !src.any (fun a => dst.any (fun b => a.meets b))
  | 5 => src.all (fun a => a.path = .device && d.populated a.base) &&
      dst.all (fun b => b.reduce || (match b.path with | .peer _ => true | _ => false))
  | _ => true

/-- A line, or part of one, that a courier moves at a virtual address counts in its X-die's counter cache (R292). -/
def Dev.countCourier (d : Dev) (q a off : Nat) : Dev :=
  let va := a % 2 ^ 56 + off
  let die := 4 + d.qXdie q
  if aKind a ≠ 1 then d
  else match (d.dieTlb die).find? (fun t => t.hits (d.qWing q) va) with
    | some t => d.countAccess die (d.qWing q) t va 1
    | none => d

/-! ### Writes of a descriptor -/

def Dev.addOut (d : Dev) (q : Nat) (o : COut) : Dev := d.setQueue q { d.queue q with outs := (d.queue q).outs ++ [o] }

/-- A write that met a broken path: it may or may not have taken effect; the descriptor ends (R165, R312). -/
def Dev.lostDesc (d : Dev) (q own off st : Nat) : Dev :=
  let x := d.queue q
  let f (y : Desc) : Desc :=
    if y.id ≠ own then y else
    let y := { y with stopAt := some (min off (y.stopAt.getD off)) }
    if y.phase = .run then y.endWith st else if y.status = 0 ∨ y.status = 4 then { y with status := st } else y
  let d := match x.cur with
    | some y => if y.id = own && decide (y.phase = DPhase.run) then d.leaveRec (.courier y.courier) else d
    | none => d
  d.setQueue q { x with cur := x.cur.map f, rest := x.rest.map f }

/-- The ledger event of a courier write that a broken path to a host loses (R165): source k = 0 of its X-die.  A port
reports its lost requests itself (R364). -/
def Dev.reportLost (d : Dev) (p : CPath) (a : Nat) (w : Nat) : Dev :=
  match p with
  | .host h => d.report (0x350 + h.toNat / 4 * 4) (mkDetail a h.toNat 0) w
  | .peer _ | .device => d

/-- A completion write to a broken path is discarded and raises an event of its head (R311, Table 18-1). -/
def Dev.reportCpl (d : Dev) (h : HeadId) (a w : Nat) : Dev := d.report (0x2D0 + 4 * h.toNat + 2) (mkDetail a h.toNat 0) w

/-- Sends one write of at most a line on its path; `o` describes it, without a tag where it is a request of its own: the
write of read data goes on under the tag of its read, so that an invalidation waits for both (R290). -/
def Dev.courierWrite (d : Dev) (q : Nat) (c : BitVec 6) (o : COut) (data : Line) (poison : BitVec 4) : Dev :=
  let w := d.qWing q
  let wing : WingId := BitVec.ofNat 4 w
  let (tag, d) := if o.read || o.clear then (o.tag, d) else d.newTag
  let o := { o with tag := tag, read := false, ready := false, data := 0, poison := 0, st := 0, courier := c }
  let off := o.dst % 256
  match o.path with
  | .device =>
    let r : Req := { kind := if o.reduce then .reduceWrite else .write, src := .courier c, tag := tag,
                     line := BitVec.ofNat 40 (o.dst / 256), sects := runSects off o.len, data := data, mask := runMask off o.len,
                     poison := poison, wing := wing, place := o.place }
    (d.sendReq r).addOut q o
  | .host h =>
    if d.pathBroken h then (d.reportLost o.path o.dst w).lostDesc q o.own o.off 6
    else
      let r := hostWrite tag (.courier c) (o.dst / 64 * 64) (maskSector (runMask off o.len) (off / 64)) (Line.sector data (off / 64)) false
      (d.hostSend h { r with poison := poison ≠ 0 }).addOut q o
  | .peer p =>
    let flagWrite : Bool := match (d.queue q).cur with
      | some y => decide (y.op = 4)
      | none => false
    let m : PMsg := { opc := opcWr, vc := if flagWrite then vcOwr else vcBwr, epoch := 0, wing := wing, attr := poison, len := BitVec.ofNat 9 o.len,
                      off := BitVec.ofNat 48 ((o.dst - remoteBase) % 2 ^ 41), data := data >>> (8 * off) }
    match d.peerSend (.courier c) tag p m false with
    | (.broken, d) => d.lostDesc q o.own o.off 6
    | (_, d) => d.addOut q o

/-- Moves past issued bytes of the descriptor in progress. -/
def Dev.descMove (d : Dev) (q n : Nat) : Dev :=
  let x := d.queue q
  d.setQueue q { x with cur := x.cur.map (fun y => { y with pos := y.pos + n }) }

/-- A descriptor that has issued every read and write, the zeros of CLEAR among them, leaves the front of its queue
(R299). -/
def Dev.descIssued (d : Dev) (q : Nat) : Dev :=
  let x := d.queue q
  match x.cur with
  | some y =>
    let reads := x.outs.any (fun o => o.own = y.id && (o.read || (o.clear && y.phase = .run)))
    let done := y.phase = .issued || (y.phase = .run && y.begun && 1 ≤ y.op && y.op ≤ 5 && y.pos ≥ y.len)
    if done && !reads then d.setQueue q { x with cur := none, rest := x.rest ++ [{ y with phase := .issued }] } else d
  | none => d

/-- A number of bytes placed at an offset of a line. -/
def placeLine (v off : Nat) : Line := BitVec.ofNat 2048 (v * 2 ^ (8 * off))

/-- Reads, or writes, that a courier has outstanding, those of earlier descriptors included; a read counts until its data
has left for its destination (R296). -/
def Dev.courierCount (d : Dev) (c : BitVec 6) (read : Bool) : Nat :=
  d.queues.foldl (fun (n : Nat) z => n + (z.2.outs.filter (fun o => o.courier = c && o.read = read && o.lostAt.isNone)).length) 0

/-- Largest chunk at an address: within its line, or its 64-byte host line. -/
def chunkAt (p : CPath) (a : Nat) : Nat :=
  match p with
  | .host _ => 64 - a % 64
  | _ => 256 - a % 256

/-- Bytes of the extent that are left, up to its next 4 KiB boundary where the descriptor is to stop there (Table 12-6). -/
def Desc.room (x : Desc) : Nat := if x.abort then min (x.len - x.pos) (4096 - x.pos % 4096) else x.len - x.pos

/-- The bytes WRITE_INLINE and FLAG_WRITE write. -/
def Desc.inlineLine (x : Desc) (dst len : Nat) : Line :=
  match x.op with
  | 2 => placeLine (x.num (24 + x.pos) len) (dst % 256)
  | _ => placeLine (x.num 16 8) (dst % 256)

/-- The pattern line of FILL: byte k of the extent takes byte (DST + k) mod 8, DST being the descriptor's address. -/
def Desc.fillAt (x : Desc) (dst len : Nat) : Line :=
  BitVec.ofNat 2048 ((List.range len).foldl (fun (v : Nat) i =>
    v + (x.num 16 8 / 256 ^ ((x.dst + x.pos + i) % 8) % 256) * 2 ^ (8 * (dst % 256 + i))) 0)

/-- A FLAG_WRITE to a peer whose port has changed waits for the earlier ordered writes of its courier (R361). -/
def Dev.flagHeld (d : Dev) (c : BitVec 6) (p : CPath) : Bool :=
  match p with
  | .peer k => (match d.peerPort (.courier c) k with
    | some q => d.peerWaits (.courier c) k q
    | none => false)
  | _ => false

/-- One step of WRITE_INLINE, FILL or FLAG_WRITE: the next chunk is written. -/
def Dev.stepWrite (d : Dev) (q : Nat) (x : Desc) : Dev :=
  if d.courierCount x.courier false ≥ 128 then d
  else match d.resolve12 q x.courier x.dst x.pos true with
    | (.wait, d) => d
    | (.broken h a, d) => (d.reportLost (.host h) a (d.qWing q)).lostDesc q x.id x.pos 6
    | (.ok p t red _, d) =>
      if x.op = 4 && d.flagHeld x.courier p then d else
      let n := min x.room (chunkAt p t)
      let data := if x.op = 3 then x.fillAt t n else x.inlineLine t n
      let o : COut := { tag := 0, own := x.id, off := x.pos, len := n, read := false, path := p, dst := t, reduce := red,
                        place := BitVec.ofNat 14 x.place }
      ((d.countCourier q x.dst x.pos).courierWrite q x.courier o data 0).descMove q n

/-- The data of a source read goes on to its destination, and what the read found wrong takes effect (Table 12-3 notes 2 to
4, R312); nothing goes on for a descriptor that has ended. -/
def Dev.passOn (d : Dev) (q : Nat) (o : COut) : Dev :=
  let z := d.queue q
  let live := match z.cur with | some y => y.id = o.own && y.phase = .run | none => false
  let d := d.setQueue q { z with outs := z.outs.filter (fun x => x.tag ≠ o.tag) }
  if !live then d.lostDesc q o.own o.off 0
  else
    let d := d.courierWrite q o.courier o o.data o.poison
    if o.st = 4 then
      (let z := d.queue q
       d.setQueue q { z with cur := z.cur.map (fun y => if y.id = o.own && y.status = 0 then { y with status := 4 } else y) })
    else if o.st ≠ 0 then d.lostDesc q o.own o.off o.st
    else d

/-- The oldest source data that waits at a courier. -/
def Dev.oldestReady (d : Dev) (c : BitVec 6) : Option (Nat × COut) :=
  d.queues.findSome? (fun z => (z.2.outs.find? (fun o => o.courier = c && o.ready)).map (fun o => (z.1, o)))

/-- Source data that waits at a courier goes on while the courier has writes left (R296). -/
def Dev.passReady (c : BitVec 6) : Nat → Dev → Dev
  | 0, d => d
  | k + 1, d =>
    if d.courierCount c false ≥ 128 then d
    else match d.oldestReady c with
      | some (q, o) => Dev.passReady c k ((d.passOn q o).descIssued q)
      | none => d

/-- Every piece of source data that waits at a courier. -/
def Dev.passAll (d : Dev) (c : BitVec 6) : Dev :=
  Dev.passReady c (d.queues.foldl (fun (n : Nat) z => n + (z.2.outs.filter (fun o => o.courier = c && o.ready)).length) 0) d

/-- The data of a source read is there: the bitmap of a LAUNCH grows, any other data waits for a write of its courier. -/
def Dev.courierData (d : Dev) (q : Nat) (o : COut) (r : Reply) : Dev :=
  let bad := r.lost || r.poison &&& runSects (o.src % 256) o.len ≠ 0
  let v := if r.lost then 0 else r.data.toNat / 2 ^ (8 * (o.src % 256)) % 2 ^ (8 * o.len)
  let st := if r.lost then 5 else if r.denied then 2 else if bad then 4 else 0
  let z := d.queue q
  match z.cur with
  | some y =>
    if y.id = o.own && y.op = 6 then
      let d := d.setQueue q { z with outs := z.outs.filter (fun x => x.tag ≠ o.tag),
                                     cur := some { y with bits := y.bits + v * 2 ^ (8 * o.off) } }
      if st ≠ 0 && y.phase = .run then (d.endDesc q st).descIssued q else d
    else
      -- destination sectors that receive a byte of a poisoned source sector
      let pz : BitVec 4 := (List.range o.len).foldl (fun (s : BitVec 4) i =>
        if r.lost || r.poison.getLsbD ((o.src + i) % 256 / 64) then setBit4 s ((o.dst + i) % 256 / 64) else s) 0
      let o' := { o with ready := true, data := placeLine v (o.dst % 256), poison := pz, st := st }
      (d.setQueue q { z with outs := updateIf (· = o) (fun _ => o') z.outs }).passAll o.courier
  | none => (d.setQueue q { z with outs := z.outs.filter (fun x => x.tag ≠ o.tag) }).lostDesc q o.own o.off 0

/-- Sends one source read of a descriptor; a broken path answers it at once with lost data (R312). -/
def Dev.courierRead (d : Dev) (q : Nat) (o : COut) (ps : CPath) : Dev :=
  let (tag, d) := d.newTag
  let wing : WingId := BitVec.ofNat 4 (d.qWing q)
  let o := { o with tag := tag, read := true }
  match ps with
  | .device =>
    (d.sendReq { kind := .readOnce, src := .courier o.courier, tag := tag, line := BitVec.ofNat 40 (o.src / 256),
                 sects := runSects (o.src % 256) o.len, wing := wing }).addOut q o
  | .host h => (d.hostSend h { tag := tag, op := .rdCurr, src := .courier o.courier, addr := o.src / 64 * 64 }).addOut q o
  | .peer p =>
    match d.peerSend (.courier o.courier) tag p { opc := opcRd, vc := vcReq, epoch := 0, wing := wing, len := BitVec.ofNat 9 o.len,
                                                          off := BitVec.ofNat 48 ((o.src - remoteBase) % 2 ^ 41) } false with
    | (.broken, d) => (d.addOut q o).courierData q o { lost := true }
    | (_, d) => d.addOut q o

/-- One step of COPY or REDUCE_FORWARD: the next chunk of the source is read; its write follows when its data comes. -/
def Dev.stepCopy (d : Dev) (q : Nat) (x : Desc) : Dev :=
  let fwd := x.op = 5
  if d.courierCount x.courier true ≥ 128 then d
  else match d.resolve12 q x.courier (x.num 8 8) x.pos false with
    | (.wait, d) => d
    | (rs, d) =>
      match d.resolve12 q x.courier (x.num 16 8) x.pos true with
      | (.wait, d) => d
      | (.broken h a, d) => (d.reportLost (.host h) a (d.qWing q)).lostDesc q x.id x.pos 6
      | (.ok pd t red _, d) =>
        let o (s n : Nat) : COut := { tag := 0, own := x.id, off := x.pos, len := n, read := true, path := pd, src := s, dst := t,
                                      clear := fwd && (x.num 28 1).testBit 0, reduce := red, place := BitVec.ofNat 14 x.place,
                                      courier := x.courier }
        let left := min x.room (if fwd then 64 else x.len)
        match rs with
        | .ok ps s _ _ =>
          let remote := match pd with | .peer _ => true | _ => false
          if fwd && (!(red || remote) || ps ≠ .device || !d.populated s) then d.endDesc q 1
          else
            let n := min left (min (chunkAt ps s) (chunkAt pd t))
            (((d.countCourier q (x.num 8 8) x.pos).countCourier q (x.num 16 8) x.pos).descMove q n).courierRead q (o s n) ps
        | .broken h s =>
          let n := min left (min (chunkAt (.host h) s) (chunkAt pd t))
          let (tag, d) := (d.descMove q n).newTag
          let o := { o s n with tag := tag }
          (d.addOut q o).courierData q o { lost := true }
        | .wait => d

/-- Every write of the queue's earlier descriptors is final (FENCE, R306, R254). -/
def CQueue.fenced (z : CQueue) (x : Desc) : Bool := !z.outs.any (fun o => o.own < x.id && !o.read)

/-- Checks a descriptor once; INVALID ends it (R305). -/
def Dev.beginDesc (d : Dev) (q : Nat) (x : Desc) : Dev :=
  if x.begun then d
  else
    let ok := d.descOk (d.qWing q) x && d.placesOk q x
    let z := d.queue q
    d.setQueue q { z with cur := z.cur.map (fun y =>
      if ok then { y with begun := true } else { (y.endWith 1) with stopAt := some 0, begun := true }) }

/-- A checked descriptor goes to a courier of its direction before it moves anything: while its virtual destination has no
cached translation, its courier translates it; while no courier of the direction is free, it waits (R298). -/
def Dev.direct (d : Dev) (q : Nat) (x : Desc) (f : Dev → Desc → Dev) : Dev :=
  if x.pos ≠ 0 then f d x
  else match d.descOutbound q x with
    | none =>
      let va : W64 := BitVec.ofNat 64 (x.dst % 2 ^ 56)
      (match d.translate (.courier x.courier) (d.qWing q) va .store with
        | (.fault e, d) => d.fault (.courier x.courier) (d.qWing q) va .store e
        | (_, d) => d)
    | some o =>
      if outbound x.courier = o then f d x
      else match d.freeCourier (d.qXdie q) o with
        | none => d
        | some c =>
          let x := { x with courier := c }
          f (d.setQueue q { d.queue q with cur := some x }) x

/-- One step of the descriptor in progress when its operation is `op`: nothing happens while it waits for its FENCE, is
stalled or is held up by a full completion ring (R316); a queue that was disabled stops it at a 4 KiB boundary once its reads
have ended (Table 12-6). -/
def Dev.courierStep (d : Dev) (q op : Nat) (f : Dev → Desc → Dev) : Dev :=
  match (d.queue q).cur with
  | none => d
  | some x =>
    if x.op ≠ op || x.stalled || x.phase ≠ .run || d.fld Fld.QUEUE_STATUS_CQ_FULL q = 1 then d
    else if x.fence && !(d.queue q).fenced x then d
    else
      let d := d.beginDesc q x
      match (d.queue q).cur with
      | none => d
      | some x =>
        let d := if x.phase ≠ .run then d
          else if x.abort && x.pos % 4096 = 0 then
            (if (d.queue q).outs.any (fun o => o.own = x.id && o.read) then d else d.endDesc q 7)
          else if 1 ≤ op && op ≤ 5 && x.pos ≥ x.len then d
          else d.direct q x f
        d.descIssued q

/-- COURIER_NOP. -/
def Dev.stepNop (d : Dev) (q : Nat) (_ : Desc) : Dev :=
  let z := d.queue q
  d.setQueue q { z with cur := z.cur.map (fun y => { y with phase := .issued }) }

/-! ### LAUNCH (R112, R114, R306, R307) -/

/-- A loom is busy for a launch. -/
def Dev.launchBusy (d : Dev) (n : LoomId) : Bool :=
  let s := d.loomState n
  s = stWaking || s = stRunning || s = stPaused || s = stScrubbing

/-- The reason for which a launch is refused, if any (Table 12-5).  DESIGN CHOICE (notes/assumptions/57.md): a loom with a fence
asked of it counts as FENCED, and a launch whose busy looms are running members of the group it names is refused at once. -/
def Dev.launchRefused (d : Dev) (w : Nat) (looms : List LoomId) (group : Option Nat) : Option Nat :=
  if looms.any (fun n => d.wingOf n ≠ w) then some 1
  else if looms.any (fun n => d.loomState n = stFenced || d.loomState n = stScrubbing || (d.loom n).request = .fenced ||
    (d.loom n).ending = .fenced) then some 2
  else match group with
    | none => none
    | some g => if (d.group (64 * w + g)).members.any (fun n => (d.loom n).group = some (BitVec.ofNat 6 g) &&
          (d.loomState n = stRunning || d.loomState n = stWaking || d.loomState n = stPaused))
        then some 3 else none

/-- A sleeping tile starts to wake: 2 µs from GATED, 40 µs from PLL_OFF (R20, R410). -/
def Dev.wakeTile (d : Dev) (t : Nat) : Dev :=
  let s := d.fld Fld.TILE_STATE_STATE t
  let e := (d.setFld Fld.TILE_STATE_STATE t 2).setFld Fld.TILE_STATE_PHASE t 3
  if s = 0 then { e with tileAt := Fmap.put d.tileAt t (d.tick + 40) }
  else if s = 1 then { e with tileAt := Fmap.put d.tileAt t (d.tick + 2) }
  else d

/-- State of a loom at program entry (Table 4-11); it runs at once when its tile runs, else when the tile has woken. -/
def Dev.enterLoom (d : Dev) (entry : Nat) (arg : Nat) (size : Nat) (g : Option Nat) (rank : Nat) (n : LoomId) : Dev :=
  let l := d.loom n
  let t : Fmap W64 := [(1, BitVec.ofNat 64 arg), (2, BitVec.ofNat 64 rank), (3, BitVec.ofNat 64 size), (4, n.setWidth 64)]
  let l := { l with t := t.filter (fun c => c.2 ≠ 0), pc := BitVec.ofNat 56 entry, tally := [], inbox := 0,
                    rank := BitVec.ofNat 16 rank, size := BitVec.ofNat 16 size, stall := .run, ending := .none, request := .none,
                    group := g.map (BitVec.ofNat 6), icache := [], launched := d.tick }
  let d := (d.setLoom n l).setPc n l.pc
  let k := n.toNat
  let d := [Fld.TALLY_FAULT_FAULT, Fld.TALLY_FIRST_VALID, Fld.TREADLE_STATUS_ERROR_CODE, Fld.TREADLE_STATUS_EXIT_CODE,
    Fld.TREADLE_STATUS_FENCE_FAULT, Fld.TREADLE_STATUS_BARRIER_BROKEN, Fld.TREADLE_STATUS_TALLY_FAULT_PENDING].foldl
      (fun d f => d.setFld f k 0) d
  let tile := loomTile k
  let d := d.wakeTile tile
  d.setLoomState n (if d.fld Fld.TILE_STATE_STATE tile = 3 then stRunning else stWaking)

/-- The launch starts: its barrier group is set up and every loom enters its program (R112, R115). -/
def Dev.launchStart (d : Dev) (q : Nat) (x : Desc) : Dev :=
  let w := d.qWing q
  let g : Option Nat := if (x.num 28 1).testBit 7 then some (x.num 28 1 % 64) else none
  let size := x.looms.length
  let d := match g with
    | some g => d.setGroup (64 * w + g) { count := size, members := x.looms }
    | none => d
  let d := ((List.range size).zip x.looms).foldl (fun (d : Dev) (p : Nat × LoomId) =>
    d.enterLoom (x.num 8 8 % 2 ^ 56) (x.num 16 8) size g p.1 p.2) d
  let z := d.queue q
  d.setQueue q { z with cur := z.cur.map (fun y => { y with phase := .launched }) }

/-- A launch that starts nothing: REFUSED with its reason (R307). -/
def Dev.launchRefuse (d : Dev) (q reason : Nat) : Dev :=
  let z := d.queue q
  d.setQueue q { z with cur := z.cur.map (fun y => { y.endWith 8 with result := reason }) }

/-- Tries to start a launch whose loom set is known; busy looms make it wait (R114). -/
def Dev.launchTry (d : Dev) (q : Nat) (x : Desc) : Dev :=
  let g : Option Nat := if (x.num 28 1).testBit 7 then some (x.num 28 1 % 64) else none
  match d.launchRefused (d.qWing q) x.looms g with
  | some r => d.launchRefuse q r
  | none =>
    if x.looms.any d.launchBusy then
      let z := d.queue q
      d.setQueue q { z with cur := z.cur.map (fun y => { y with phase := .launchWait }) }
    else d.launchStart q x

/-- Looms of the set of a LAUNCH: a range, or the bits of its bitmap (R306). -/
def Desc.set (x : Desc) : List LoomId :=
  if x.num 32 8 = 0 then (List.range (x.num 26 2)).map (fun i => BitVec.ofNat 12 (x.num 24 2 + i))
  else ((List.range 4096).filter (fun i => x.bits.testBit i)).map (BitVec.ofNat 12)

/-- Reads the next part of a bitmap of 512 bytes: at most the rest of a line. -/
def Dev.bitmapRead (d : Dev) (q : Nat) (x : Desc) : Dev :=
  let a := x.num 32 8 + x.pos
  let n := min (512 - x.pos) (256 - a % 256)
  if !d.wingMay (d.qWing q) a || d.range a = .nothing then d.endDesc q 2
  else (d.descMove q n).courierRead q { tag := 0, own := x.id, off := x.pos, len := n, read := true, path := .device, src := a,
                                        courier := x.courier } (dpaPath a)

/-- LAUNCH: waits for the final writes of earlier descriptors, reads its loom set, and starts, waits or is refused. -/
def Dev.stepLaunch (d : Dev) (q : Nat) (x : Desc) : Dev :=
  if !(d.queue q).fenced x then d
  else if x.num 32 8 ≠ 0 && x.pos < 512 then d.bitmapRead q x
  else if (d.queue q).outs.any (fun o => o.own = x.id && o.read) then d
  else if x.set.isEmpty then d.endDesc q 1
  else
    let x := { x with looms := x.set }
    let z := d.queue q
    (d.setQueue q { z with cur := some x }).launchTry q x

/-- LAUNCH_LOOMS_START: a waiting launch finds its looms free and starts their programs. -/
def Dev.launchLooms (d : Dev) (q : Nat) : Dev :=
  match (d.queue q).cur with
  | some x => if x.phase = .launchWait then (d.launchTry q x).descIssued q else d
  | none => d

/-- A launch completes when every loom of its set is IDLE or STOPPED (R117, Table 12-5). -/
def Dev.launchDone (d : Dev) (q : Nat) : Dev :=
  match (d.queue q).cur with
  | some x =>
    if x.phase = .launched && x.looms.all (fun n => d.loomState n = stIdle || d.loomState n = stStopped) then
      let stopped := (x.looms.filter (fun n => d.loomState n = stStopped)).length
      let faults := (x.looms.filter (fun n => d.fld Fld.TREADLE_STATUS_TALLY_FAULT_PENDING n.toNat = 1)).length
      let codes := x.looms.foldl (fun (v : Nat) n => v ||| d.fld Fld.TREADLE_STATUS_EXIT_CODE n.toNat) 0
      let z := d.queue q
      let r := stopped % 2 ^ 16 + faults % 2 ^ 16 * 2 ^ 16 + codes * 2 ^ 32
      (d.setQueue q { z with cur := z.cur.map (fun y => { y with phase := .issued, result := r }) }).descIssued q
    else d
  | none => d

/-- RUN_REGION: after the final writes of earlier descriptors the region is triggered, or the descriptor is refused
(R254). -/
def Dev.stepRegion (d : Dev) (q : Nat) (x : Desc) : Dev :=
  if !(d.queue q).fenced x then d
  else
    let r := x.num 8 2
    if d.regionWing r ≠ d.qWing q then d.launchRefuse q 5
    else if d.rgState r ≠ rgOpen then d.launchRefuse q 4
    else
      let d := d.triggerRegion r
      let z := d.queue q
      d.setQueue q { z with cur := z.cur.map (fun y => { y with phase := .issued }) }

/-! ### Completion (R308 to R312) -/

/-- The path of the completion record, and of the flag. -/
def Dev.recPath (d : Dev) (q : Nat) : CPath :=
  if d.fld Fld.CQ_BASE_KIND q = 2 then .host (d.qHead q)
  else dpaPath (d.fld Fld.CQ_BASE_ADDR q * 4096 + 16 * d.fld Fld.CQ_TAIL_TAIL q)
def Dev.flagPath (d : Dev) (q : Nat) : CPath :=
  if d.fld Fld.CPL_FLAG_KIND q = 2 then .host (BitVec.ofNat 4 (d.fld Fld.CPL_FLAG_HEAD q)) else dpaPath (d.fld Fld.CPL_FLAG_ADDR q * 8)

/-- Every data write that a completion write on path `p` waits for is final (R309), the zeros that a REDUCE_FORWARD is still to
write to device memory included.  With no completion write, the descriptor's own writes are awaited. -/
def CQueue.final (z : CQueue) (x : Desc) (p : Option CPath) : Bool :=
  !z.outs.any (fun o => (!o.read || o.clear) && o.own ≤ x.id && (match p with
    | none => o.own = x.id
    | some p => x.global || o.path = p || (o.clear && p = .device)))

/-- RESULT of a descriptor (Table 12-5). -/
def CQueue.resultOf (z : CQueue) (x : Desc) : Nat :=
  if x.op = 6 || x.op = 7 then (if x.status = 0 || x.status = 8 then x.result else 0)
  else if x.status = 0 || x.status = 4 then x.len
  else if x.status = 1 then 0
  else z.outs.foldl (fun (m : Nat) o => if o.own = x.id then min m o.off else m) (x.stopAt.getD x.pos)

/-- The 16 bytes of the completion record (Table 12-4). -/
def Dev.recordBytes (d : Dev) (q : Nat) (x : Desc) : Nat :=
  x.num 4 4 + x.slot % 2 ^ 12 * 2 ^ 32 + x.status * 2 ^ 48 + d.fld Fld.CQ_TAIL_PHASE q * 2 ^ 63 + (d.queue q).resultOf x % 2 ^ 64 * 2 ^ 64

/-- Replaces the oldest issued descriptor. -/
def Dev.setOldest (d : Dev) (q : Nat) (x : Desc) : Dev := d.setQueue q { d.queue q with rest := x :: (d.queue q).rest.tail }

/-- Sends completion bytes on a path: to the home as a Write, which reduces at an alias and is discarded with an event outside
memory (R23, R243); through the head to its host; to a peer.  A broken path, or a translation that was refused, discards them
(R311).  None while the translation or the peer is not to be had. -/
def Dev.complWrite (d : Dev) (q : Nat) (x : Desc) (p : CPath) (a bytes v : Nat) : Option (Option Nat) × Dev :=
  if x.dropped then (some none, d) else
  match p with
  | .device =>
    if !d.wingMay (d.qWing q) a && d.range a ≠ .nothing then (some none, d)
    else
      let (tag, d) := d.newTag
      let o := a % 256
      (some (some tag), d.sendReq { kind := .write, src := .courier x.courier, tag := tag, line := BitVec.ofNat 40 (a / 256),
                                    sects := runSects o bytes, data := placeLine v o, mask := runMask o bytes,
                                    wing := BitVec.ofNat 4 (d.qWing q) })
  | .host h =>
    if d.pathBroken h then (some none, d.reportCpl h a (d.qWing q))
    else match d.hostAddr (.compl x.courier (BitVec.ofNat 9 q)) (d.qWing q) (hostAddrField h a) h a true 0 with
      | (none, d) => (none, d)
      | (some y, d) =>
        let (tag, d) := d.newTag
        let mask : BitVec 64 := (BitVec.allOnes 64 >>> (64 - bytes)) <<< (y % 64)
        (some (some tag), d.hostSend h (hostWrite tag (.courier x.courier) (y / 64 * 64) mask (BitVec.ofNat 512 (v * 2 ^ (8 * (y % 64)))) false))
  | .peer p =>
    if !d.wingMay (d.qWing q) a then (some none, d)
    else
      let (tag, d1) := d.newTag
      let m : PMsg := { opc := opcWr, vc := vcOwr, epoch := 0, wing := BitVec.ofNat 4 (d.qWing q), len := BitVec.ofNat 9 bytes,
                        off := BitVec.ofNat 48 ((a - remoteBase) % 2 ^ 41), data := BitVec.ofNat 2048 v }
      match d1.peerSend (.courier x.courier) tag p m false with
      | (.broken, d) => (some none, d)
      | (.hold, _) => (none, d)
      | (.ok, d) => (some (some tag), d)

/-- The descriptor's record is still to be written (R308). -/
def Desc.wantsRec (x : Desc) : Bool := x.crec || x.status ≠ 0

/-- The completion ring has room (R316). -/
def Dev.cqRoom (d : Dev) (q : Nat) : Bool := (d.fld Fld.CQ_TAIL_TAIL q + 1) % d.cqSize q ≠ d.fld Fld.CQ_HEAD_HEAD q

/-- The oldest issued descriptor takes its interrupt and is done. -/
def Dev.complEnd (d : Dev) (q : Nat) (x : Desc) : Dev :=
  let d := if x.status ≠ 0 then d.setFld Fld.QUEUE_STATUS_ERROR q 1 else d
  let d := d.setQueue q { d.queue q with rest := (d.queue q).rest.tail }
  if x.irq || (x.status ≠ 0 && d.fld Fld.QUEUE_CTRL_ERR_IRQ q = 1) then d.interrupt (d.qHead q) (d.fld Fld.QUEUE_CTRL_VECTOR q) else d

/-- Writes the flag, or goes on to the interrupt. -/
def Dev.complFlag (d : Dev) (q : Nat) (x : Desc) : Dev :=
  if !x.flag then d.complEnd q x
  else
    let p := d.flagPath q
    if !(d.queue q).final x (some p) then d.setOldest q { x with phase := .record none }
    else match d.complWrite q x p (d.fld Fld.CPL_FLAG_ADDR q * 8) 8 x.count with
      | (none, d) => d.setOldest q { x with phase := .record none }
      | (some none, d) => d.complEnd q { x with dropped := false }
      | (some (some t), d) => d.setOldest q { x with phase := .flag (some t) }

/-- DESCRIPTOR_COMPLETE: the oldest descriptor that has issued everything takes its next completion action: COMPLETED
counts it, its record is written, then its flag, then its interrupt is raised (R308). -/
def Dev.complete (d : Dev) (q : Nat) : Dev :=
  let d := d.descIssued q
  let z := d.queue q
  match z.rest with
  | [] => d
  | x :: _ =>
    match x.phase with
    | .issued =>
      let p := if x.wantsRec then some (d.recPath q) else if x.flag then some (d.flagPath q) else none
      if !z.final x p then d
      else if x.wantsRec && !d.cqRoom q then d.setFld Fld.QUEUE_STATUS_CQ_FULL q 1
      else
        let cnt := (d.fld Fld.COMPLETED_COUNT q + 1) % 2 ^ 64
        let x := { x with count := cnt }
        if !x.wantsRec then (d.setFld Fld.COMPLETED_COUNT q cnt).complFlag q x
        else
          let tail := d.fld Fld.CQ_TAIL_TAIL q
          let a := d.fld Fld.CQ_BASE_ADDR q * 4096 + 16 * tail
          let v := d.recordBytes q x
          let adv (d : Dev) : Dev :=
            let nxt := (tail + 1) % d.cqSize q
            let d := (d.setFld Fld.CQ_TAIL_TAIL q nxt).setFld Fld.COMPLETED_COUNT q cnt
            if nxt = 0 then d.setFld Fld.CQ_TAIL_PHASE q (1 - d.fld Fld.CQ_TAIL_PHASE q) else d
          match d.complWrite q x (d.recPath q) a 16 v with
          | (none, d) => d
          | (some none, d) => (adv d).complFlag q { x with dropped := false }
          | (some (some t), d) => (adv d).setOldest q { x with phase := .record (some t) }
    | .record none => d.complFlag q x
    | .flag none => d.complEnd q x
    | _ => d

/-- COMPLETION_WAIT_EXPIRY: writes lost 2 ms ago on a path that broke no longer hold a completion; every descriptor whose
completion waited for one ends INDETERMINATE (R311). -/
def Dev.complExpiry (d : Dev) (q : Nat) : Dev :=
  let z := d.queue q
  let old (o : COut) : Bool := match o.lostAt with | some t => t + 2000 ≤ d.tick | none => false
  let lost : CQueue := { z with outs := z.outs.filter old }
  let f (x : Desc) : Desc :=
    let p := if x.wantsRec then some (d.recPath q) else if x.flag then some (d.flagPath q) else none
    if x.phase = .issued && (x.status = 0 || x.status = 4) && !lost.final x p then { x with status := 6 } else x
  (d.setQueue q { z with outs := z.outs.filter (fun o => !old o), rest := z.rest.map f }).descIssued q

/-! ### Answers to couriers -/

/-- The source of a REDUCE_FORWARD's chunk is cleared once its ReduceWrite is final (Table 12-3 note 3). -/
def Dev.clearSource (d : Dev) (q : Nat) (o : COut) : Dev :=
  let o' := { o with path := .device, dst := o.src, reduce := false }
  let d := d.courierWrite q o.courier o' 0 0
  let z := d.queue q
  d.setQueue q { z with outs := updateIf (fun x => x.tag = o.tag) (fun x => { x with clear := false }) z.outs }

/-- An answer to a courier: slot bytes, source data, the end of a write, of a record or of a flag. -/
def Dev.courierReply (d : Dev) (c : BitVec 6) (tag : Nat) (r : Reply) : Dev :=
  match d.queues.find? (fun z => z.2.outs.any (fun o => o.tag = tag)) with
  | some (q, z) =>
    (match z.outs.find? (fun o => o.tag = tag) with
      | none => d
      | some o =>
        if o.read then d.courierData q o r
        else if r.lost then
          let d := d.setQueue q { z with outs := updateIf (fun x => x.tag = tag) (fun x => { x with lostAt := some d.tick }) z.outs }
          (d.reportLost o.path o.dst (d.qWing q)).lostDesc q o.own o.off 6
        else
          let live := match z.cur with | some y => y.id = o.own && y.phase = .run | none => false
          let d := d.setQueue q { z with outs := z.outs.filter (fun x => x.tag ≠ tag) }
          let d := if r.denied then d.lostDesc q o.own o.off 2
            else if o.clear && live then d.clearSource q o
            else d
          (d.descIssued q).passAll c)
  | none =>
    let isTag (p : DPhase) : Bool := p = .record (some tag) || p = .flag (some tag)
    match d.queues.find? (fun z => z.2.rest.any (fun y => isTag y.phase)) with
    | some (q, z) =>
      let d := match z.rest.find? (fun y => isTag y.phase) with
        | some y =>
          let flag : Bool := decide (y.phase = DPhase.flag (some tag))
          let a := if flag then d.fld Fld.CPL_FLAG_ADDR q * 8 else d.fld Fld.CQ_BASE_ADDR q * 4096
          (match r.lost, (if flag then d.flagPath q else d.recPath q) with
            | true, .host h => d.reportCpl h a (d.qWing q)
            | _, _ => d)
        | none => d
      d.setQueue q { z with rest := z.rest.map (fun y =>
        if y.phase = .record (some tag) then { y with phase := .record none }
        else if y.phase = .flag (some tag) then { y with phase := .flag none } else y) }
    | none =>
      match d.queues.find? (fun z => match z.2.fetch with | .read _ ts _ => ts.any (fun t => t.1 = tag) | _ => false) with
      | none => d
      | some (q, z) =>
        match z.fetch with
        | .read n ts got =>
          (match ts.find? (fun t => t.1 = tag) with
            | none => d
            | some t =>
              if r.lost || r.poison ≠ 0 then d.slotFail q n
              else
                let rest := ts.filter (fun u => u.1 ≠ tag)
                -- the slot's offset inside its line is that of the sectors of the answer
                let sec := (List.range 4).foldl (fun (v : Nat) k => v ||| (Line.sector r.data k).toNat) 0
                let got := got + sec * 2 ^ (8 * t.2)
                if rest.isEmpty then d.slotRead q n got else d.setQueue q { z with fetch := .read n rest got })
        | _ => d

/-! ### Events on a queue (R314 to R316, Table 12-6) -/

/-- A ring base or flag address is valid (R300, R302); a ring's DPA lies where Table 12-1 note 1 allows. -/
def Dev.baseOk (d : Dev) (q kind head addr : Nat) (home : Bool) : Bool :=
  let ring : Bool := d.wingMay (d.qWing q) (addr * 4096) && (match d.range (addr * 4096) with
    | .redAlias _ => false
    | .nothing => false
    | _ => true)
  (kind = 0 && addr / 2 ^ 36 = 0 && (!home || ring)) ||
  (kind = 2 && d.isType2Of (BitVec.ofNat 4 head) (d.qWing q) && (!home || head = (d.qHead q).toNat))

/-- QUEUE_ENABLE (R316). -/
def Dev.queueEnable (d : Dev) (q : Nat) : Dev :=
  let ok := d.fld Fld.QUEUE_BIND_VALID q = 1 &&
    d.baseOk q (d.fld Fld.SQ_BASE_KIND q) (d.fld Fld.SQ_BASE_HEAD q) (d.fld Fld.SQ_BASE_ADDR q) true &&
    d.baseOk q (d.fld Fld.CQ_BASE_KIND q) (d.fld Fld.CQ_BASE_HEAD q) (d.fld Fld.CQ_BASE_ADDR q) true &&
    d.baseOk q (d.fld Fld.CPL_FLAG_KIND q) (d.fld Fld.CPL_FLAG_HEAD q) (d.fld Fld.CPL_FLAG_ADDR q / 512) false
  if d.fld Fld.QUEUE_CTRL_ENABLE q = 1 then d
  else if !ok then d.setFld Fld.QUEUE_STATUS_CONFIG_ERR q 1
  else
    let d := [Fld.SQ_HEAD_HEAD, Fld.SQ_TAIL_TAIL, Fld.CQ_HEAD_HEAD, Fld.CQ_TAIL_TAIL, Fld.COMPLETED_COUNT].foldl (fun d f => d.setFld f q 0) d
    let d := ((d.setFld Fld.CQ_TAIL_PHASE q 1).setFld Fld.QUEUE_STATUS_EXPECT_PHASE q 1).setFld Fld.QUEUE_STATUS_CQ_FULL q 0
    let d := d.setFld Fld.QUEUE_CTRL_ENABLE q 1
    let x := d.queue q
    d.setQueue q { x with fetch := .idle, courier := none }

/-- What stops a queue's descriptor in progress also takes its courier out of the faults and translations it waits for. -/
def Dev.leaveDesc (d : Dev) (q : Nat) : Dev :=
  let x := d.queue q
  (x.courier.toList ++ (x.cur.map (fun y => y.courier)).toList).foldl (fun (d : Dev) c => d.leaveRec (.courier c)) d

/-- The descriptor in progress is to end ABORTED: a launch that has not started ends at once, one that runs goes on, any
other stops at its next 4 KiB boundary, one that is stalled where it is. -/
def Dev.abortDesc (d : Dev) (q : Nat) : Dev :=
  let d := if (d.queue q).cur.any (fun y => y.stalled) || (d.queue q).courier.isSome then d.leaveDesc q else d
  let x := d.queue q
  let reads (y : Desc) : Bool := x.outs.any (fun o => o.own = y.id && o.read)
  let f (y : Desc) : Desc :=
    match y.phase with
    | .launchWait => y.endWith 7
    | .run =>
      if y.stalled || y.op = 0 || y.op ≥ 6 || (y.pos % 4096 = 0 && !reads y) then y.endWith 7 else { y with abort := true }
    | _ => y
  (d.setQueue q { x with cur := x.cur.map f, courier := none, fetch := .idle }).descIssued q

/-- QUEUE_DISABLE: SQ_HEAD and CQ_TAIL keep their values. -/
def Dev.queueDisable (d : Dev) (q : Nat) : Dev :=
  if d.fld Fld.QUEUE_CTRL_ENABLE q = 0 then d else (d.abortDesc q).setFld Fld.QUEUE_CTRL_ENABLE q 0

/-- HEAD_RESET_CLEAR: the queue resumes at SQ_HEAD with the current phase (R315). -/
def Dev.headResetClear (d : Dev) (q : Nat) : Dev := d.setFld Fld.QUEUE_STATUS_HEAD_RESET q 0

/-- Queues whose home head is h. -/
def Dev.homeQueues (d : Dev) (h : HeadId) : List Nat :=
  (List.range 512).filter (fun q => d.fld Fld.QUEUE_BIND_VALID q = 1 && d.qHead q = h)

/-- FLR of the home head: the descriptor in progress ends ABORTED, HEAD_RESET is set; a LAUNCH in progress goes on. -/
def Dev.queueFlr (d : Dev) (q : Nat) : Dev :=
  let d := d.leaveDesc q
  let x := d.queue q
  let f (y : Desc) : Desc := if y.op = 6 then y else if y.phase = .run then y.endWith 7 else y
  ((d.setQueue q { x with cur := x.cur.map f, courier := none, fetch := .idle }).descIssued q).setFld Fld.QUEUE_STATUS_HEAD_RESET q 1

/-- Link down, PERST_N or hot reset of the home head, and the release of a frozen one: HEAD_RESET is set. -/
def Dev.queueHeadReset (d : Dev) (q : Nat) : Dev :=
  let d := match (d.queue q).courier with
    | some c => d.leaveRec (.courier c)
    | none => d
  let x := d.queue q
  (d.setQueue q { x with courier := none, fetch := .idle }).setFld Fld.QUEUE_STATUS_HEAD_RESET q 1

/-- The derived bits of QUEUE_STATUS. -/
def Dev.showQueue (d : Dev) (q : Nat) : Dev :=
  let x := d.queue q
  let b (c : Bool) : Nat := if c then 1 else 0
  let bme := (d.head (d.qHead q)).bme
  let d := d.setFld Fld.QUEUE_STATUS_ACTIVE q (b (d.qEnabled q && d.fld Fld.QUEUE_STATUS_HEAD_RESET q = 0 && !d.qPaused q))
  let d := d.setFld Fld.QUEUE_STATUS_RUNNING q (b (x.cur.isSome || !x.rest.isEmpty))
  let d := d.setFld Fld.QUEUE_STATUS_FAULT_STALL q (b (match x.cur with
    | some y => y.stalled && d.inRecord (.courier y.courier)
    | none => false))
  d.setFld Fld.QUEUE_STATUS_BME_PAUSED q (b (d.qEnabled q && !bme))

end Sys2Proof.Machine
end

