-- ==== Sys2Proof/Machine/Heads.lean ====
section
/-! DEFINITION. Heads (spec/13): HDM decoding, CXL.mem, BAR 2, errors, Bus Master Enable, freeze, resets, and what a
head event does to the wing. -/

namespace Sys2Proof.Machine

def headSrc (h : HeadId) (k : Nat) : Nat := 0x2D0 + 4 * h.toNat + k

def wgFree : Nat := 0
def wgActive : Nat := 1
def wgPreserved : Nat := 2
def wgReleasing : Nat := 3
def Dev.wgState (d : Dev) (w : Nat) : Nat := d.fld Fld.WING_STATE_STATE w

/-- Heads and personality (Table 13-1); no wing for an unbound head. -/
def Dev.personality (d : Dev) (h : HeadId) : Nat := d.fld Fld.HEAD_STATUS_PERSONALITY h.toNat
def Dev.headWing (d : Dev) (h : HeadId) : Nat := if d.personality h = 0 then noWing else d.fld Fld.HEAD_STATUS_WING h.toNat
def allHeads : List HeadId := (List.range 16).map (BitVec.ofNat 4)
def Dev.wingHeads (d : Dev) (w : Nat) : List HeadId := allHeads.filter (fun h => d.headWing h = w)
def Dev.wingLooms (d : Dev) (w : Nat) : List LoomId :=
  (d.loomWing.filter (fun c => c.2 = w)).map (fun c => BitVec.ofNat 12 c.1)

/-- Sets a wing's state and shows PRESERVED at its heads (R334). -/
def Dev.setWgState (d : Dev) (w s : Nat) : Dev :=
  let d := d.setFld Fld.WING_STATE_STATE w s
  (d.wingHeads w).foldl (fun d h => d.setFld Fld.HEAD_STATUS_PRESERVED h.toNat (if s = wgPreserved then 1 else 0)) d

/-- A FATAL is latched and not released (R449). -/
def Dev.fatal (d : Dev) : Bool := d.fld Fld.LEDGER_FATAL_VALID 0 = 1 && d.fld Fld.LEDGER_FATAL_RELEASED 0 = 0

/-- The looms of a wing must stay paused: the PAUSE policy of a PRESERVED wing, or an unreleased FATAL (R381, R450). -/
def Dev.wingHolds (d : Dev) (w : Nat) : Bool :=
  d.fatal || (d.wgState w = wgPreserved && d.fld Fld.WING_STATE_POLICY w = 1)

/-- A wing enters PRESERVED (R334, R381): policy PAUSE asks its running looms to pause. -/
def Dev.preserveWing (d : Dev) (w : Nat) : Dev :=
  if d.wgState w ≠ wgActive then d
  else
    let d := d.setWgState w wgPreserved
    if d.fld Fld.WING_STATE_POLICY w = 1 then (d.wingLooms w).foldl (fun d n => d.askStop n .paused) d else d

/-- A paused loom, or one about to pause, goes on when nothing holds it (R381). -/
def Dev.unpause (d : Dev) (n : LoomId) : Dev :=
  if d.wingHolds (d.wingOf n) then d
  else
    let l := d.loom n
    let l := if l.request = .paused then { l with request := .none } else l
    let l := if l.ending = .paused then { l with ending := .none } else l
    let d := d.setLoom n l
    if d.loomState n = stPaused then d.setLoomState n stRunning else d

/-! ### Answers from outside (R165, R303) -/

/-- An answer reaches a requester of this package that is no tracked agent. -/
def Dev.answerAgent (d : Dev) (a : Agent) (tag : Nat) (r : Reply) : Dev :=
  match a with
  | .treadle n => d.treadleReply n tag r
  | .xfer n => d.xferReply n tag r
  | .ifetch n => d.fetchReply n tag r
  | .courier c => d.courierReply c tag r
  | .cache n => d.storeAck n tag r
  | .engine (.faults _) => (d.asked tag).fqRetry
  | .engine _ => d.asked tag
  | .head _ | .port _ => d

/-- A host path breaks (R165): requests end locally, unsent stores are discarded, ATS requests are forgotten and their
engines try again. -/
def Dev.breakPath (d : Dev) (h : HeadId) : Dev :=
  let x := d.head h
  let lost := x.outs ++ x.waiting
  let ats := d.trans.ats.filter (fun q => q.head = h)
  let d := d.setHead h { x with outs := [], waiting := [], brokenAt := d.tick }
  let d := { d with trans := { d.trans with ats := d.trans.ats.filter (fun q => q.head ≠ h) } }
  let d := (d.setFld Fld.HEAD_STATUS_PATH_BROKEN h.toNat 1).showNp h
  let d := d.discardStores (fun p => p = .host h)
  let d := ats.foldl (fun d q => d.unstall q.engine) d
  lost.foldl (fun (d : Dev) r => d.answerAgent r.src r.tag { lost := true }) d

/-- The path is whole again: the link is up and neither FLR, freeze nor Bus Master Enable breaks it. -/
def Dev.healPath (d : Dev) (h : HeadId) : Dev :=
  if (d.head h).up && !(d.head h).bmeBroken && !d.frozen h && d.fld Fld.HEAD_STATUS_FLR_ACTIVE h.toNat = 0 then
    d.setFld Fld.HEAD_STATUS_PATH_BROKEN h.toNat 0
  else d

/-- The head leaves ABSENT once its link is up, no freeze holds it and its sweep has ended in every home (R193, R340). -/
def Dev.headPresent (d : Dev) (h : HeadId) : Dev :=
  if (d.head h).up && !d.frozen h && !d.weave.sweeping.getLsbD h.toNat then
    { d with weave := { d.weave with absent := d.weave.absent &&& ~~~((1 : BitVec 16) <<< h.toNat) } }
  else d

/-- ABSENT with its sweep shown (R193). -/
def Dev.headGone (d : Dev) (h : HeadId) : Dev :=
  let d := { d with trans := { d.trans with atc := d.trans.atc.filter (fun a => a.head ≠ h) } }
  (d.headAbsent h).setFld Fld.HEAD_STATUS_SWEEP_PENDING h.toNat 1

/-- A foreground command of a head that is reset runs on, and its result is discarded: its box number gains 64 (R396). -/
def Dev.mbDiscard (d : Dev) (h : HeadId) : Dev :=
  let q := updateIf (fun (c : MbCmd) => c.box = h.toNat || c.box = 16 + h.toNat) (fun c => { c with box := c.box + 64 }) d.reg.cmdQ
  { d with reg := { d.reg with cmdQ := q } }

/-- A head freezes; FREEZE_CAUSE records the first trigger (R338, R339). -/
def Dev.freeze (d : Dev) (h : HeadId) (cause : Nat) : Dev :=
  if d.frozen h || d.personality h = 0 then d
  else
    let d := (d.setFld Fld.HEAD_STATUS_FROZEN h.toNat 1).setFld Fld.HEAD_STATUS_FREEZE_CAUSE h.toNat cause
    ((d.breakPath h).headGone h).preserveWing (d.headWing h)

/-- A freeze ends: the head's queues show HEAD_RESET (R340). -/
def Dev.unfreeze (d : Dev) (h : HeadId) : Dev :=
  if !d.frozen h then d
  else
    let d := (d.setFld Fld.HEAD_STATUS_FROZEN h.toNat 0).setFld Fld.HEAD_STATUS_FREEZE_CAUSE h.toNat 0
    let d := (d.homeQueues h).foldl Dev.queueHeadReset ((d.headPresent h).healPath h)
    d.flushIrqs h

/-! ### Errors (R336, R337) -/

/-- Class and status bit (PCI Express 6.0): true = correctable. -/
def Aer.bit : Aer → Bool × Nat
  | .receiver => (true, 0) | .badTlp => (true, 6) | .badDllp => (true, 7) | .replayRollover => (true, 8)
  | .replayTimer => (true, 12) | .advisory => (true, 13) | .corrInternal => (true, 14)
  | .dlProtocol => (false, 4) | .poisonedTlp => (false, 12) | .flowControl => (false, 13)
  | .completionTimeout => (false, 14) | .unexpected => (false, 16) | .overflow => (false, 17) | .malformed => (false, 18)
  | .unsupported => (false, 20) | .uncInternal => (false, 22) | .ideFail => (false, 28)

/-- Errors whose header is logged. -/
def Aer.headered : Aer → Bool
  | .advisory | .overflow | .malformed | .ideFail | .poisonedTlp | .unexpected | .unsupported => true
  | _ => false

/-- The header of the TLP in error, and its prefixes, enter their logs.  A TLP's header has fields that no command names (its
requester, tag and attributes), so the logged values are free. -/
def Dev.logHeader (d : Dev) (h : HeadId) : Dev :=
  let (a, d) := d.draw
  let (b, d) := d.draw
  d.setHead h { d.head h with hdrLog := BitVec.ofNat 128 a, prefixLog := BitVec.ofNat 128 b }

/-- An unmasked uncorrectable error becomes the first one, with its header, when no earlier one stands (R337). -/
def Dev.firstError (d : Dev) (h : HeadId) (e : Aer) (i : Nat) (was : BitVec 32) : Dev :=
  let x := d.head h
  if was.getLsbD x.fep then d
  else
    let d := d.setHead h { x with fep := i, hdrLog := 0, prefixLog := 0 }
    if e.headered then d.logHeader h else d

/-- An uncorrectable error of non-fatal severity in an advisory case of PCI Express 6.0 is signalled as correctable. -/
def Dev.aerAdvisory (d : Dev) (h : HeadId) (e : Aer) (i : Nat) : Dev :=
  let x := d.head h
  let d := d.setHead h { x with corStatus := x.corStatus ||| (1 : BitVec 32) <<< 13 }
  if x.corMask.getLsbD 13 then d
  else
    let d := d.setHead h { d.head h with uncStatus := x.uncStatus ||| (1 : BitVec 32) <<< i }
    let d := if x.uncMask.getLsbD i then d else d.firstError h e i x.uncStatus
    if x.corEn then d.send (.errCor h) else d

/-- Logs an error, reports it at the head's source, sends its message and freezes the head as R338 says.  `np` marks the
advisory cases of PCI Express 6.0: an Unsupported Request that its completion reports, an Unexpected Completion. -/
def Dev.aer (d : Dev) (h : HeadId) (e : Aer) (np : Bool := false) : Dev :=
  let x := d.head h
  let (cor, i) := e.bit
  let b : BitVec 32 := (1 : BitVec 32) <<< i
  let adv := !cor && np && !x.uncSev.getLsbD i
  let d := d.report (headSrc h (if cor || adv then 0 else 1)) (mkDetail 0 h.toNat i) (d.headWing h)
  if adv then d.aerAdvisory h e i
  else if cor then
    let d := d.setHead h { x with corStatus := x.corStatus ||| b }
    if x.corMask.getLsbD i || !x.corEn then d else d.send (.errCor h)
  else if x.uncMask.getLsbD i then d.setHead h { x with uncStatus := x.uncStatus ||| b }
  else
    let d := (d.setHead h { x with uncStatus := x.uncStatus ||| b }).firstError h e i x.uncStatus
    let fatal := x.uncSev.getLsbD i
    let d := if fatal && (x.fatEn || x.serr) then d.send (.errFatal h)
      else if !fatal && (x.nfEn || x.serr) then d.send (.errNonfatal h) else d
    if fatal && d.fld Fld.HEAD_CTRL_FREEZE_ON_FATAL h.toNat = 1 then d.freeze h 2 else d

/-- An event of the CXL RAS capability: its status bit is set; an unmasked one is signalled as an Internal Error (R337), and an
unmasked uncorrectable one of Fatal severity freezes the head (R338). -/
def Dev.rasEvent (d : Dev) (h : HeadId) (unc : Bool) (i : Nat) : Dev :=
  let x := d.head h
  let b : BitVec 32 := (1 : BitVec 32) <<< i
  if unc then
    let d := d.setHead h { x with rasUnc := x.rasUnc ||| b }
    if x.rasUncMask.getLsbD i then d
    else
      let d := d.aer h .uncInternal
      if x.rasUncSev.getLsbD i && d.fld Fld.HEAD_CTRL_FREEZE_ON_FATAL h.toNat = 1 then d.freeze h 2 else d
  else
    let d := d.setHead h { x with rasCor := x.rasCor ||| b }
    if x.rasCorMask.getLsbD i then d else d.aer h .corrInternal

/-- The head is there for its host: trained and bound (R319, note 2). -/
def Dev.served (d : Dev) (h : HeadId) : Bool := (d.head h).up && d.personality h ≠ 0

/-! ### BAR 0 reach (R8, R327, R339, R386, R446) -/

/-- The wing a register's instance belongs to, for blocks of wings. -/
def Dev.blockWing (d : Dev) (b : Block) (i : Nat) : Nat :=
  match b with
  | .loomStatus | .loomSys => d.wingOf (BitVec.ofNat 12 i)
  | .doorbell => if d.fld Fld.QUEUE_BIND_VALID i = 1 then d.fld Fld.QUEUE_BIND_WING i else noWing
  | .trans => i
  | .cons => d.regionWing i
  | _ => 0

/-- A head reaches a register's instance with a write. -/
def Dev.reach (d : Dev) (h : HeadId) (b : Block) (i : Nat) : Bool :=
  match b with
  | .headCtl => true
  | .loomStatus | .doorbell | .trans | .cons => d.blockWing b i = d.headWing h
  | .loomSys => false
  | .tiers | .ikq | .wingCtl => h = 0
  | .selvage | .ledger => h = 0

/-- The blocks a frozen head serves. -/
def Block.inFreeze : Block → Bool
  | .ledger | .headCtl | .selvage => true
  | _ => false

/-- BARs answer: Memory Space Enable is set and the function is in D0 (R326, R327). -/
def Dev.barsOn (d : Dev) (h : HeadId) : Bool := (d.head h).mse && decide ((d.head h).pm ≠ 3)

/-- A BAR 0 write by a head: an Unsupported Request while Memory Space Enable is clear, ignored where R8 or R339 says
so, else `f`. -/
def Dev.barWrite (d : Dev) (h : HeadId) (b : Block) (i : Nat) (f : Dev → Dev) : Dev :=
  if !d.served h then d
  else if !d.barsOn h then d.aer h .unsupported
  else if (d.frozen h && !b.inFreeze) || !d.reach h b i then d
  else f d

/-! ### Halves of 64-bit registers (R7) -/

/-- A register's instance as a key. -/
def Card.key (c : Card) (i : Nat) : Nat := (c.fields.head?.elim 0 (·.id)) * 2 ^ 16 + i

/-- The lower half that a head holds for a register's instance. -/
def Dev.half (d : Dev) (h : HeadId) (c : Card) (i : Nat) : Option Nat := Fmap.find (d.head h).halves (c.key i)
def Dev.holdHalf (d : Dev) (h : HeadId) (c : Card) (i v : Nat) : Dev :=
  d.setHead h { d.head h with halves := Fmap.put (d.head h).halves (c.key i) v }
/-- A write of the whole register discards what the head holds for it. -/
def Dev.dropHalf (d : Dev) (h : HeadId) (c : Card) (i : Nat) : Dev :=
  if (d.half h c i).isNone then d
  else d.setHead h { d.head h with halves := Fmap.del (d.head h).halves (c.key i) }

/-- A write of a whole 64-bit register by a head. -/
def Dev.wideWrite (d : Dev) (h : HeadId) (b : Block) (c : Card) (i : Nat) (f : Dev → Dev) : Dev :=
  d.barWrite h b i (fun d => f (d.dropHalf h c i))

/-! ### CXL.mem (R321 to R323, R184) -/

/-- HD of R321, when a committed decoder accepts the address. -/
def Hdm.decode (x : Hdm) (hpa : Nat) : Option Nat :=
  let g := 256 * 2 ^ x.ig
  let ways := 2 ^ x.iw
  if !x.committed || hpa < x.base || hpa ≥ x.base + x.size then none
  else
    let o := hpa - x.base
    if o / g % ways ≠ x.pos then none else some (o / (g * ways) * g + o % g)

/-- A DPA lies in the head's Dynamic Capacity regions but in no extent its host has accepted (R323). -/
def Dev.dcHides (d : Dev) (h : HeadId) (a : Nat) : Bool :=
  let x := d.head h
  d.personality h = 3 && x.dcRegions.any (fun r => r.2.base ≤ a && a < r.2.base + r.2.len) &&
    !x.dc.any (fun e => e.st ≠ .offered && e.base ≤ a && a < e.base + e.len)

/-- The DPA of a host physical address; none where R322 refuses. -/
def Dev.hdmDpa (d : Dev) (h : HeadId) (hpa : Nat) : Option Nat :=
  let x := d.head h
  match (List.range 4).findSome? (fun n => ((Fmap.get {} x.hdm n).decode hpa).map (fun hd => (n, hd))) with
  | none => none
  | some (n, hd) =>
    let k := 4 * h.toNat + n
    if d.fld Fld.HDM_DPA_VALID k = 0 then none
    else
      let a := d.fld Fld.HDM_DPA_BASE k * 2 ^ 28 + hd
      let u := if aliasBase ≤ a && a < remoteBase then a - aliasBase else a
      if d.extentWing u = d.headWing h && !d.dcHides h u && d.populated u then some a else none

/-- A refused request raises a NOTE at the head (R322, R313, R339). -/
def Dev.refused (d : Dev) (h : HeadId) (a : Nat) : Dev := d.report (headSrc h 2) (mkDetail a h.toNat 0) (d.headWing h)

def Dev.memHead (d : Dev) (h : HeadId) : Bool := d.served h && (d.head h).cxl

/-- Hands a host request to its home. -/
def Dev.headReq (d : Dev) (h : HeadId) (htag : Nat) (bar2 : Bool) (off len : Nat) (r : Req) : Dev :=
  let (tag, d) := d.newTag
  let d := d.setHead h { d.head h with mem := (d.head h).mem ++ [{ tag := tag, htag := htag, bar2 := bar2, off := off, len := len }] }
  d.sendReq { r with src := .head h, tag := tag, wing := BitVec.ofNat 4 (d.headWing h) }

/-- MEM_RD. -/
def Dev.memRd (d : Dev) (h : HeadId) (htag hpa : Nat) (s : Snp) : Dev :=
  if !d.memHead h then d
  else if d.frozen h then d.send (.memData h htag 0 true)
  else if s ≠ .noOp && d.weave.sweeping.getLsbD h.toNat then
    d.setHead h { d.head h with memWait := (d.head h).memWait ++ [⟨htag, hpa, s⟩] }
  else match d.hdmDpa h hpa with
    | none => (d.refused h hpa).send (.memData h htag 0 true)
    | some a =>
      let k : ReqKind := match s with | .noOp => .readOnce | .data => .readShared | .inv => .readOwn
      d.headReq h htag false (a % 256 / 64 * 64) 64
        { kind := k, src := .head h, tag := 0, line := BitVec.ofNat 40 (a / 256), sects := setBit4 0 (a / 64 % 4) }

/-- An open snoop to the head asks for the sector. -/
def Dev.snoopOpen (d : Dev) (h : HeadId) (line k : Nat) : Bool :=
  d.weave.txns.any (fun t => t.2.waits.any (fun s => s.matches (4096 + h.toNat) line && s.sects.getLsbD k))

/-- MEM_WR: a refused write is discarded after its Cmp; a write of the recorded owner answers an open snoop; any other goes to
its home as a WriteBack, which the home takes as a Write when the head is not the owner (Table 7-7, R192).  A poisoned one sets
Mem_Poison_Received in the RAS capability (PRESUMED, CXL 3.1, notes/assumptions/67.md). -/
def Dev.memWr (d : Dev) (h : HeadId) (htag hpa : Nat) (mask : BitVec 64) (data : Sector) (poison : Bool) : Dev :=
  if !d.memHead h then d
  else
  let d := if poison then d.rasEvent h false 5 else d
  if d.frozen h then (d.refused h hpa).send (.memCmp h htag)
  else match d.hdmDpa h hpa with
    | none => (d.refused h hpa).send (.memCmp h htag)
    | some a =>
      let line := a / 256
      let k := a / 64 % 4
      let ss := setBit4 0 k
      let full := Line.setSector 0 k data
      let p : BitVec 4 := if poison then ss else 0
      let m : BitVec 256 := mask.setWidth 256 <<< (64 * k)
      if ((d.ent line).sec k).st = .excl && ((d.ent line).sec k).owner = 4096 + h.toNat && d.snoopOpen h line k then
        (d.sendMsg { kind := .recallData, agent := .head h, tag := 0, line := BitVec.ofNat 40 line, sects := ss, data := full,
                     excl := ss, poison := p, mask := m }).send (.memCmp h htag)
      else
        d.headReq h htag false (64 * k) 64
          { kind := .writeBack, src := .head h, tag := 0, line := BitVec.ofNat 40 line, sects := ss, data := full, mask := m,
            poison := p }

/-- MEM_CLN_EVCT. -/
def Dev.memClnEvct (d : Dev) (h : HeadId) (htag hpa : Nat) : Dev :=
  if !d.memHead h then d
  else if d.frozen h then d.send (.memCmp h htag)
  else match d.hdmDpa h hpa with
    | none => (d.refused h hpa).send (.memCmp h htag)
    | some a =>
      (d.sendReq { kind := .cleanEvict, src := .head h, tag := 0, line := BitVec.ofNat 40 (a / 256),
                   sects := setBit4 0 (a / 64 % 4), wing := BitVec.ofNat 4 (d.headWing h) }).send (.memCmp h htag)

/-- BI_RSP: BIRspI, or BIRspS that keeps a shared copy. -/
def Dev.biRsp (d : Dev) (h : HeadId) (line : BitVec 40) (k : BitVec 2) (shared : Bool) : Dev :=
  let ss := setBit4 0 k.toNat
  if !d.memHead h then d
  else d.sendMsg { kind := .recallAck, agent := .head h, tag := 0, line := line, sects := ss, own := if shared then ss else 0 }

/-- HOST_SNOOP: a head caches nothing of its host, so it answers RspIHitI (R342). -/
def Dev.hostSnoop (d : Dev) (h : HeadId) : Dev := if d.memHead h then d.send (.snpRsp h) else d

/-! ### BAR 2 (R313) -/

def Dev.windowOff (d : Dev) (base : Nat) : Bool :=
  let a := base * 64 * MiB
  let e := a + 512 * MiB
  !(decide (e ≤ d.dspSize) || (decide (depotBase ≤ a) && decide (e ≤ depotBase + d.depSize)) ||
    (decide (scratchBase ≤ a) && decide (e ≤ scratchBase + 4096 * MiB)))

/-- WINDOW_BASE_WRITE. -/
def Dev.windowWrite (d : Dev) (h : HeadId) (v : W64) : Dev :=
  let b := (v.extractLsb' 26 22).toNat
  (d.setFld Fld.WINDOW_BASE_BASE h.toNat b).setFld Fld.WINDOW_BASE_ERR h.toNat (if d.windowOff b then 1 else 0)

/-- The front BAR 2 request of a head has some more bytes done. -/
def Dev.bar2Move (d : Dev) (h : HeadId) (n v : Nat) (poison : Bool) : Dev :=
  let x := d.head h
  match x.bar2Q with
  | [] => d
  | r :: rest =>
    let r := { r with got := r.got + n, acc := r.acc + v * 2 ^ (8 * r.got), poison := r.poison || poison }
    d.setHead h { x with bar2Q := r :: rest }

/-- Sends the head's next part of a BAR 2 request, at most the rest of a line: one at a time, so requests are performed in
order and a read returns after the writes before it. -/
def Dev.bar2Pump (d : Dev) (h : HeadId) : Nat → Dev
  | 0 => d
  | n + 1 =>
    let x := d.head h
    if x.mem.any (·.bar2) then d
    else match x.bar2Q with
      | [] => d
      | r :: rest =>
        if r.off || r.len ≤ r.got then
          let d := d.setHead h { x with bar2Q := rest }
          (if r.write then d else d.send (.bar2Data h r.htag (if r.poison then 0 else r.acc) r.poison)).bar2Pump h n
        else
          let a := r.dpa + r.got
          let off := a % 256
          let k := min (r.len - r.got) (256 - off)
          if !d.wingMay (d.headWing h) a then ((d.bar2Move h k 0 false).refused h a).bar2Pump h n
          else
            d.headReq h r.htag true off k
              { kind := if r.write then .write else .readOnce, src := .head h, tag := 0, line := BitVec.ofNat 40 (a / 256),
                sects := runSects off k, data := BitVec.ofNat 2048 (r.data / 2 ^ (8 * r.got) % 2 ^ (8 * k) * 2 ^ (8 * off)),
                mask := if r.write then runMask off k else 0 }

/-- Parts and ends of the BAR 2 requests of a head: a bound on what one call of the pump can do. -/
def Dev.bar2Count (d : Dev) (h : HeadId) : Nat := (d.head h).bar2Q.foldl (fun (n : Nat) r => n + r.len / 256 + 3) 0

/-- BAR2_READ and BAR2_WRITE of `len` bytes at an offset; WINDOW_BASE as it stands applies to the request. -/
def Dev.bar2 (d : Dev) (h : HeadId) (htag : Nat) (write poison : Bool) (off len data : Nat) : Dev :=
  if !d.served h then d
  else if !d.barsOn h then
    if write then d.aer h .unsupported else (d.aer h .unsupported true).send (.unsupported h)
  else if write && poison then d.aer h .poisonedTlp
  else if d.frozen h then (if write then d else d.send (.bar2Data h htag (2 ^ (8 * len) - 1) false))
  else
    let a := d.fld Fld.WINDOW_BASE_BASE h.toNat * 64 * MiB + off
    let x := d.head h
    let r : BarReq := { htag := htag, write := write, dpa := a, len := len, data := data,
                        off := d.windowOff (d.fld Fld.WINDOW_BASE_BASE h.toNat) }
    let d := d.setHead h { x with bar2Q := x.bar2Q ++ [r] }
    d.bar2Pump h (d.bar2Count h)

/-! ### Answers of homes to a head -/

/-- A home's answer to a host request: data, or a completion. -/
def Dev.headReply (d : Dev) (h : HeadId) (m : Msg) : Dev :=
  match (d.head h).mem.find? (fun x => x.tag = m.tag) with
  | none => d
  | some e =>
    let d := d.setHead h { d.head h with mem := eraseOne e (d.head h).mem }
    let poison := (m.poison &&& runSects e.off e.len) ≠ 0
    if e.bar2 then
      let d := if m.kind ≠ .data then d.bar2Move h e.len 0 false
        else if e.gone then d
        else d.bar2Move h e.len (m.data.toNat / 2 ^ (8 * e.off) % 2 ^ (8 * e.len)) poison
      d.bar2Pump h (d.bar2Count h)
    else if e.gone then d
    else if m.kind = .data then d.send (.memData h e.htag (if poison then 0 else Line.sector m.data (e.off / 64)) poison)
    else d.send (.memCmp h e.htag)

/-! ### Upstream requests and Bus Master Enable (R303, R331) -/

/-- GO: the host has taken a write; it is final. -/
def Dev.go (d : Dev) (h : HeadId) (tag : Nat) : Dev :=
  let x := d.head h
  match x.outs.find? (fun r => r.tag = tag && r.op ≠ .rdCurr) with
  | none => d
  | some r => ((d.setHead h { x with outs := eraseOne r x.outs }).showNp h).answerAgent r.src r.tag {}

/-- RD_CURR_DATA: host data of one 64-byte line; poison sets Cache_Poison_Received in the RAS capability (PRESUMED, CXL
3.1). -/
def Dev.rdCurrData (d : Dev) (h : HeadId) (tag : Nat) (data : Sector) (poison : Bool) : Dev :=
  let x := d.head h
  match x.outs.find? (fun r => r.tag = tag && r.op = .rdCurr) with
  | none => d
  | some r =>
    let k := r.addr / 64 % 4
    let d := if poison then d.rasEvent h false 4 else d
    let x := d.head h
    ((d.setHead h { x with outs := eraseOne r x.outs }).showNp h).answerAgent r.src r.tag
      { data := Line.setSector 0 k (if poison then 0 else data), poison := if poison then setBit4 0 k else 0 }

/-- BUS_MASTER_ENABLE_CLEAR. -/
def Dev.bmeClear (d : Dev) (h : HeadId) : Dev :=
  let x := d.head h
  if !d.served h || !x.bme then d
  else (d.setHead h { x with bme := false, bmeOff := some d.tick }).setFld Fld.HEAD_STATUS_MASTER_QUIESCED h.toNat 1

/-- BUS_MASTER_ENABLE_SET: waiting requests issue and pending interrupts are sent. -/
def Dev.bmeSet (d : Dev) (h : HeadId) : Dev :=
  let x := d.head h
  if !d.served h || x.bme then d
  else
    let d := d.setHead h { x with bme := true, bmeOff := none, bmeBroken := false, outs := x.outs ++ x.waiting, waiting := [] }
    let d := (x.waiting.foldl (fun d r => d.send (.cacheReq h r)) d).atsResume h
    (((d.setFld Fld.HEAD_STATUS_MASTER_QUIESCED h.toNat 0).healPath h).showNp h).flushIrqs h

/-- BME_TIMEOUT: Bus Master Enable has stayed clear for 10 ms. -/
def Dev.bmeTimeout (d : Dev) (h : HeadId) : Dev :=
  match (d.head h).bmeOff with
  | some t => if t + 10000 ≤ d.tick then (d.setHead h { d.head h with bmeOff := none, bmeBroken := true }).breakPath h else d
  | none => d

/-! ### Interrupt masks (R329) -/

/-- INTERRUPT_UNMASK of a vector of the mode in force. -/
def Dev.intUnmask (d : Dev) (h : HeadId) (v : Nat) : Dev :=
  let x := d.head h
  if !d.served h then d
  else if x.msixEn then
    (d.setHead h { x with msix := Fmap.put x.msix (v % 256) (x.msixEntry (v % 256) &&& ~~~((1 : BitVec 128) <<< 96)) }).flushIrqs h
  else (d.setHead h { x with msiMask := x.msiMask &&& ~~~((1 : BitVec 32) <<< (v % 32)) }).flushIrqs h

/-- INTX_PENDING_CLEAR. -/
def Dev.intxClear (d : Dev) (h : HeadId) (m : W64) : Dev :=
  (d.clrFld Fld.HEAD_INT_PENDING_PEND h.toNat m.toNat).driveInta h

/-! ### Head events (R332 to R335) -/

/-- Cards of a head's HEAD and FLR domains. -/
def headCards : List Card := [Crd.HEAD_CTRL, Crd.LEDGER_WINDOW]
def flrCards : List Card := [Crd.WINDOW_BASE, Crd.HEAD_INT_PENDING, Crd.LEDGER_IRQ]

/-- The configuration space and held register halves of a function return to reset; link, decoder contents, Dynamic
Capacity, requests in progress and the sticky registers of the AER and RAS capabilities stay (R9, R326, R336, R337). -/
def Head.resetFn (x : Head) : Head :=
  { ({} : Head) with up := x.up, cxl := x.cxl, width := x.width, speed := x.speed, rrs := x.rrs, hdm := x.hdm,
                     dcRegions := x.dcRegions, dc := x.dc, outs := x.outs, waiting := x.waiting, brokenAt := x.brokenAt,
                     flrAt := x.flrAt, mem := x.mem, memWait := x.memWait, bar2Q := x.bar2Q,
                     uncStatus := x.uncStatus, uncMask := x.uncMask, uncSev := x.uncSev, corStatus := x.corStatus,
                     corMask := x.corMask, fep := x.fep, hdrLog := x.hdrLog, prefixLog := x.prefixLog, rasUnc := x.rasUnc, rasUncMask := x.rasUncMask, rasUncSev := x.rasUncSev, rasCor := x.rasCor,
                     rasCorMask := x.rasCorMask, rasHdr := x.rasHdr }

/-- The sticky error registers return to reset, as PERST_N does. -/
def Head.resetErr (x : Head) : Head :=
  let z : Head := {}
  { x with uncStatus := z.uncStatus, uncMask := z.uncMask, uncSev := z.uncSev, corStatus := z.corStatus, corMask := z.corMask,
           fep := z.fep, hdrLog := z.hdrLog, prefixLog := z.prefixLog, rasUnc := z.rasUnc, rasUncMask := z.rasUncMask, rasUncSev := z.rasUncSev,
           rasCor := z.rasCor, rasCorMask := z.rasCorMask, rasHdr := z.rasHdr }

/-- The registrar has finished its start-up, so a bound head may answer (R324, Table 16-1 step 8). -/
def Dev.layoutDone (d : Dev) : Bool := d.reg.running

/-- A conventional reset of a head, or the loss of its link: Table 13-7 rows 1 to 3, Table 13-8. -/
def Dev.headReset (d : Dev) (h : HeadId) : Dev :=
  let d := d.breakPath h
  let x := (d.head h).resetFn
  let d := d.setHead h { x with up := false, cxl := false, memWait := [], flrAt := none, rrs := !d.layoutDone,
                                mem := (x.mem.filter (·.bar2)).map (fun m => { m with gone := true }), hdm := [], bar2Q := x.bar2Q.filter (·.write) }
  let d := (headCards ++ flrCards).foldl (fun d c => d.resetCard c (· = h.toNat)) d
  let d := (d.setFld Fld.HEAD_STATUS_FLR_ACTIVE h.toNat 0).setFld Fld.HEAD_STATUS_MASTER_QUIESCED h.toNat 0
  let d := (d.homeQueues h).foldl Dev.queueHeadReset ((d.headGone h).mbDiscard h)
  d.preserveWing (d.headWing h)

/-- LINK_DOWN. -/
def Dev.linkDown (d : Dev) (h : HeadId) : Dev :=
  if !(d.head h).up then d
  else (d.report (headSrc h 3) (mkDetail 0 h.toNat 0) (d.headWing h)).headReset h

/-- Widths and speed codes that a head can train at: at most x16, or x8 where its port is bifurcated, and 64, 32 or 16 GT/s
(R318; the codes are those of PCI Express 6.0). -/
def Dev.linkFits (d : Dev) (h : HeadId) (width speed : Nat) : Bool :=
  [1, 2, 4, 8, 16].contains width && (width ≤ 8 || !d.bifur.getLsbD (h.toNat / 2)) && [4, 5, 6].contains speed

/-- HEAD_LINK_UP: the link of a bound head whose PERST_N is high comes up (R318, R332, R193). -/
def Dev.headUp (d : Dev) (h : HeadId) (cxl : Bool) (width speed : Nat) : Dev :=
  if d.personality h = 0 || (d.head h).up || !d.pins.perstN.getLsbD (h.toNat / 2) || !d.linkFits h width speed then d
  else
    let d := d.setHead h { d.head h with up := true, cxl := cxl, width := width, speed := speed }
    if d.frozen h then d else (d.headPresent h).healPath h

/-- FLR: its initiation (R333).  The head's queues stop first, so their descriptors end ABORTED (Table 12-6); then the host path
breaks; pending INTx bits clear, and an asserted INTA is deasserted (R329). -/
def Dev.flr (d : Dev) (h : HeadId) : Dev :=
  if !d.served h || d.fld Fld.HEAD_STATUS_FLR_ACTIVE h.toNat = 1 then d
  else
    let d := (d.homeQueues h).foldl Dev.queueFlr ((d.setFld Fld.HEAD_STATUS_FLR_ACTIVE h.toNat 1).mbDiscard h)
    let d := d.breakPath h
    let d := { d with trans := { d.trans with atc := d.trans.atc.filter (fun a => a.head ≠ h) } }
    let d := d.setHead h { (d.head h).resetFn with rrs := true, flrAt := some d.tick, inta := (d.head h).inta }
    let d := (flrCards.foldl (fun d c => d.resetCard c (· = h.toNat)) d).setFld Fld.HEAD_STATUS_MASTER_QUIESCED h.toNat 0
    (d.driveInta h).preserveWing (d.headWing h)

/-- FLR_COMPLETE. -/
def Dev.flrComplete (d : Dev) (h : HeadId) : Dev :=
  if d.fld Fld.HEAD_STATUS_FLR_ACTIVE h.toNat = 0 then d
  else
    let d := (d.setFld Fld.HEAD_STATUS_FLR_ACTIVE h.toNat 0).setHead h { d.head h with rrs := !d.layoutDone, flrAt := none }
    (d.healPath h).driveInta h

/-- CATALOGUE_SWEEP_COMPLETE: the sweep ends, and reads that waited for it go on. -/
def Dev.sweepDone (d : Dev) (h : HeadId) : Dev :=
  if !d.weave.sweeping.getLsbD h.toNat then d
  else
    let d := ((d.sweep h).setFld Fld.HEAD_STATUS_SWEEP_PENDING h.toNat 0).headPresent h
    let ws := (d.head h).memWait
    ws.foldl (fun (d : Dev) w => d.memRd h w.htag w.hpa w.snp) (d.setHead h { d.head h with memWait := [] })

/-- ATS_TRANSLATION_COMPLETION; one that answers no outstanding request is an Unexpected Completion (Table 13-9). -/
def Dev.atsCompletion (d : Dev) (h : HeadId) (iova : Nat) (ok : Bool) (target size : Nat) (mayWrite : Bool) : Dev :=
  if d.trans.ats.any (fun q => q.head = h && q.iova = iova / 4096 * 4096 && q.sent) then d.atsDone h iova ok target size mayWrite
  else if d.served h then d.aer h .unexpected true
  else d

/-- COMPLETION_TIMEOUT: an ATS request without completion; the access faults with HOST_FAULT. -/
def Dev.atsTimeout (d : Dev) (h : HeadId) (iova : Nat) : Dev :=
  if d.trans.ats.any (fun q => q.head = h && q.iova = iova / 4096 * 4096 && q.sent) then
    (d.atsDone h iova false 0 0 false).aer h .completionTimeout
  else d

end Sys2Proof.Machine
end

