-- ==== Sys2Proof/Machine/ConfigSpace.lean ====
section
/-! DEFINITION. Configuration space and the expansion ROM of a head (R324 to R328). -/

namespace Sys2Proof.Machine

/-- Subsystem ID: rows of Table 0-1 in order. -/
def Assembly.id : Assembly → Nat
  | .d16x4 => 1 | .d12x4 => 2 | .d12x2 => 3 | .d8x2 => 4 | .d8x1 => 5

/-- CRC-32 of IEEE 802.3. -/
def crc32Bits : Nat → Nat → Nat
  | 0, c => c
  | k + 1, c => crc32Bits k (if c % 2 = 1 then c / 2 ^^^ 0xEDB88320 else c / 2)
def crc32 (bs : List Nat) : Nat := bs.foldl (fun (c : Nat) b => crc32Bits 8 (c ^^^ b)) 0xFFFFFFFF ^^^ 0xFFFFFFFF

/-- The order code (Table 0-1) in ASCII: CZB4096-D, the number of stacks, X, the number of X-dies. -/
def Assembly.orderCode (a : Assembly) : List Byte :=
  let digit (n : Nat) : Byte := BitVec.ofNat 8 (0x30 + n % 10)
  let tens := if 10 ≤ a.stacks then [digit (a.stacks / 10)] else []
  ([0x43, 0x5A, 0x42, 0x34, 0x30, 0x39, 0x36, 0x2D, 0x44] : List Byte) ++ tens ++ [digit a.stacks, 0x58, digit a.xdies]

/-- The provenance ROM as delivered, its CRC fields apart: the identity record's fixed bytes (Table 16-9), empty repair
slots (R407), and part-specific bytes. -/
def Assembly.provPlain (a : Assembly) (o : Nat) : Byte :=
  match o with
  | 0 => 0x43 | 1 => 0x5A | 2 => 0x50 | 3 => 0x52 | 4 => 1 | 5 => 0
  | 6 => BitVec.ofNat 8 a.id
  | 7 => 0
  | 8 => BitVec.ofNat 8 a.stacks
  | 9 => BitVec.ofNat 8 a.xdies
  | 10 => Config.provByte 10 &&& 3
  | _ =>
    if 32 ≤ o && o < 64 then a.orderCode.getD (o - 32) 0
    else if (12 ≤ o && o < 16) || (28 ≤ o && o < 32) || (64 ≤ o && o < 252) then 0
    else if 0x8000 ≤ o then 0xFF
    else Config.provByte o

/-- The CRC-32 of `n` bytes of the ROM as delivered. -/
def Assembly.provCrc (a : Assembly) (o n : Nat) : Nat := crc32 ((List.range n).map (fun i => (a.provPlain (o + i)).toNat))

/-- The provenance ROM as delivered: the identity record and the V/F tables hold their CRC (Tables 16-9 and 16-10). -/
def Assembly.provBase (a : Assembly) (o : Nat) : Byte :=
  if 252 ≤ o && o < 256 then BitVec.ofNat 8 (a.provCrc 0 252 / 256 ^ (o - 252))
  else if 0x200 ≤ o && o < 0x1200 && 0x3FC ≤ (o - 0x200) % 0x400 then
    BitVec.ofNat 8 (a.provCrc (0x200 + (o - 0x200) / 0x400 * 0x400) 0x3FC / 256 ^ (o % 4))
  else a.provPlain o

/-- A byte of the provenance ROM. -/
def Dev.provByte (d : Dev) (o : Nat) : Nat := (Fmap.get (d.asm.provBase o) d.prov o).toNat
def Dev.provNat (d : Dev) (o n : Nat) : Nat := (List.range n).foldl (fun (v : Nat) i => v + d.provByte (o + i) * 256 ^ i) 0

/-- Revision ID and package serial number (Table 16-9). -/
def Dev.stepping (d : Dev) : Nat := d.provByte 11
def Dev.serial (d : Dev) : Nat := d.provNat 16 8

def b01 (b : Bool) : Nat := if b then 1 else 0
/-- Header of an extended capability of version 1. -/
def extCap (id ver next : Nat) : Nat := id + ver * 2 ^ 16 + next * 2 ^ 20
/-- A time of Readiness Time Reporting: value and scale of 32 (PCI Express 6.0). -/
def rtTime (v s : Nat) : Nat := v + s * 2 ^ 9

/-- The dword at an offset of configuration space (Tables 13-2 to 13-4). -/
def Dev.cfgDword (d : Dev) (h : HeadId) (o : Nat) : Nat :=
  let x := d.head h
  let p := d.personality h
  let bar (i sz fl : Nat) : Nat := Fmap.get 0 x.bars i / sz * sz % 2 ^ 32 + fl
  match o with
  | 0x00 => 0x1D5E + (0xB400 + p) * 2 ^ 16
  | 0x04 => b01 x.mse * 2 + b01 x.bme * 4 + b01 x.perr * 2 ^ 6 + b01 x.serr * 2 ^ 8 + b01 x.intxOff * 2 ^ 10 +
            (b01 x.inta * 8 + 16) * 2 ^ 16
  | 0x08 => d.stepping + (if p = 3 then 0x050210 else 0x120000) * 256
  | 0x0C => Fmap.get 0 x.cfg 3
  | 0x10 => bar 0 (64 * MiB) 4
  | 0x14 => Fmap.get 0 x.bars 1
  | 0x18 => bar 2 (512 * MiB) 0xC
  | 0x1C => Fmap.get 0 x.bars 3
  | 0x20 => bar 4 (2 ^ 16) 4
  | 0x24 => Fmap.get 0 x.bars 5
  | 0x2C => 0x1D5E + d.asm.id * 2 ^ 16
  | 0x30 => bar 6 MiB (Fmap.get 0 x.bars 6 % 2)
  | 0x34 => 0x40
  | 0x3C => Fmap.get 0 x.cfg 15 + 0x100
  | 0x40 => 0x00035001
  | 0x44 => x.pm + 8
  | 0x50 => 0x00029010
  | 0x54 => 2 + 2 ^ 15 + 2 ^ 28
  | 0x58 => b01 x.corEn + b01 x.nfEn * 2 + b01 x.fatEn * 4 + Fmap.get 0 x.cfg 22
  | 0x74 => 0xE + 2 ^ 16 + 2 ^ 17
  | 0x78 => Fmap.get 0 x.cfg 30
  | 0x90 => 0xB005 + (b01 x.msiEn + 10 + x.msiLog * 16 + 2 ^ 7 + 2 ^ 8) * 2 ^ 16
  | 0x94 => x.msiAddr % 2 ^ 32
  | 0x98 => x.msiAddr / 2 ^ 32
  | 0x9C => x.msiData
  | 0xA0 => x.msiMask.toNat
  | 0xA4 => x.msiPend.toNat
  | 0xB0 => 0x0011 + (255 + b01 x.msixMask * 2 ^ 14 + b01 x.msixEn * 2 ^ 15) * 2 ^ 16
  | 0xB4 => 4
  | 0xB8 => 0x8004
  | 0x100 => extCap 0x0001 2 0x148
  | 0x104 => x.uncStatus.toNat
  | 0x108 => x.uncMask.toNat
  | 0x10C => x.uncSev.toNat
  | 0x110 => x.corStatus.toNat
  | 0x114 => x.corMask.toNat
  | 0x118 => x.fep
  | 0x11C => (x.hdrLog.extractLsb' 0 32).toNat
  | 0x120 => (x.hdrLog.extractLsb' 32 32).toNat
  | 0x124 => (x.hdrLog.extractLsb' 64 32).toNat
  | 0x128 => (x.hdrLog.extractLsb' 96 32).toNat
  | 0x138 => (x.prefixLog.extractLsb' 0 32).toNat
  | 0x13C => (x.prefixLog.extractLsb' 32 32).toNat
  | 0x140 => (x.prefixLog.extractLsb' 64 32).toNat
  | 0x144 => (x.prefixLog.extractLsb' 96 32).toNat
  | 0x148 => extCap 0x0003 1 0x158
  | 0x14C => d.serial % 2 ^ 32
  | 0x150 => d.serial / 2 ^ 32
  | 0x158 => extCap 0x0019 1 0x188
  | 0x188 => extCap 0x0025 1 0x1A0
  | 0x1A0 => extCap 0x0026 1 0x1E0
  | 0x1E0 => extCap 0x002A 1 0x220
  | 0x220 => extCap 0x0031 1 0x260
  | 0x260 => extCap 0x0027 1 (if p = 3 then 0x2C0 else 0x2B0)
  | 0x2B0 => if p = 3 then 0 else extCap 0x000F 1 0x2C0
  | 0x2B4 => if p = 3 then 0 else b01 x.atsEn * 2 ^ 31
  | 0x2C0 => extCap 0x0022 1 0x2D0
  | 0x2C4 => rtTime 96 4 + rtTime 306 3 * 2 ^ 12 + 2 ^ 31
  | 0x2C8 => rtTime 306 3 + rtTime 306 3 * 2 ^ 12
  | 0x2D0 => extCap 0x002E 1 0x2F0
  | 0x2DC => b01 (!x.doeRsp.isEmpty) * 2 ^ 31
  | 0x2E4 => x.doeRsp.headD 0
  | 0x2F0 => extCap 0x0030 1 0x350
  -- IDE (PRESUMED, PCI Express 6.0): one link stream, IDE_KM, AES-GCM-256; no selective stream
  | 0x2F4 => 1 + 2 ^ 6
  | 0x2F8 => Fmap.get 0 x.cfg 0xBE
  | 0x2FC => Fmap.get 0 x.cfg 0xBF
  | 0x350 => extCap 0x0023 1 0x390
  | 0x354 => 0x1E98
  | 0x358 => 0x0000
  | 0x390 => extCap 0x0023 1 0x3B0
  | 0x394 => 0x1E98
  | 0x398 => 0x0007
  | 0x3B0 => extCap 0x0023 1 0x3E0
  | 0x3B4 => 0x1E98
  | 0x3B8 => 0x0008
  -- register locator entries: component registers (id 1) at BAR 0 + 0, memory device registers (id 3) at BAR 0 + 0x1_0000
  | 0x3BC => 0x00000100
  | 0x3C0 => 0
  | 0x3C4 => 0x00010300
  | 0x3C8 => 0
  | 0x3E0 => extCap 0x0023 1 0x3F0
  | 0x3E4 => 0x1E98
  | 0x3E8 => 0x0005
  | 0x3F0 => extCap 0x0023 1 0x000
  | 0x3F4 => 0x1D5E + 0x18 * 2 ^ 20
  | 0x3F8 => 0x0001 + (p * 16 + h.toNat) * 2 ^ 16 + d.fld Fld.HEAD_STATUS_WING h.toNat * 2 ^ 24
  | 0x3FC => d.asm.id + d.bifur.toNat * 2 ^ 16
  | 0x400 => d.serial % 2 ^ 32
  | 0x404 => d.serial / 2 ^ 32
  | _ => 0

/-- CONFIG_READ. -/
def Dev.cfgRead (d : Dev) (h : HeadId) (o : Nat) : Dev :=
  if !d.served h then d
  else d.send (if (d.head h).rrs then .cfgRetry h else .cfgData h (d.cfgDword h (o / 4 * 4)))

/-- Merges the enabled bytes of a dword. -/
def byteMerge (be : BitVec 4) (old new : Nat) : Nat :=
  (List.range 4).foldl (fun (v : Nat) i => v + (if be.getLsbD i then new else old) / 256 ^ i % 256 * 256 ^ i) 0

/-! ### The DOE mailbox (R343) -/

/-- Header of a data object: vendor, type and length in dwords (PCI Express 6.0). -/
def doeHead (vendor type len : Nat) : List Nat := [vendor + type * 2 ^ 16, len]

/-- The protocols of R343: DOE Discovery, CMA/SPDM, Secured CMA/SPDM, CXL Table Access. -/
def doeKinds : List (Nat × Nat) := [(0x0001, 0), (0x0001, 1), (0x0001, 2), (0x1E98, 2)]

def bytesOf (v n : Nat) : List Byte := (List.range n).map (fun i => BitVec.ofNat 8 (v / 256 ^ i))
def numOf (l : List Byte) : Nat := l.foldr (fun b (v : Nat) => b.toNat + 256 * v) 0
def dwordsOf (l : List Byte) : List Nat := (List.range ((l.length + 3) / 4)).map (fun i => numOf ((l.drop (4 * i)).take 4))

/-! ### Identity (R409) -/

/-- The identity key: the ROM's wrapped half under the wrapping key of this boot. -/
def Dev.identityKey (d : Dev) : BitVec 384 := Config.unwrap Config.pufKey ((List.range 256).map (fun i => BitVec.ofNat 8 (d.provByte (0x4000 + i))))

/-- The measurement of the running image. -/
def Dev.imageSum (d : Dev) : BitVec 384 := Config.imageSum d.reg.slot (Fmap.get 0 d.reg.fwVer d.reg.slot)

/-- At each boot the registrar derives the alias key and issues its certificate, signed with the identity key. -/
def Dev.deriveAlias (d : Dev) : Dev :=
  let k := Config.aliasKey d.identityKey d.imageSum
  { d with reg := { d.reg with aliasKey := k, aliasCert := Config.aliasCert d.identityKey k } }

/-- The chain of certificate slot 0: length, digest of the root, the intermediate and device certificates of the ROM, the alias
certificate (the layout is that of SPDM 1.2). -/
def Dev.spdmChain (d : Dev) : List Byte :=
  let rom : List Byte := (List.range (min Config.certLen 8192)).map (fun i => BitVec.ofNat 8 (d.provByte (0x2000 + i)))
  let certs := rom ++ d.reg.aliasCert
  bytesOf (52 + certs.length) 2 ++ [0, 0] ++ bytesOf Config.rootSum.toNat 48 ++ certs

/-- Measurement of an index (Table 13-11). -/
def Dev.measure (d : Dev) (h : HeadId) (i : Nat) : BitVec 384 :=
  match i with
  | 1 => d.imageSum
  | 2 => Config.imageSum 3 d.reg.ucodeVer
  | 3 => Config.digest ((List.range 256).map (fun k => BitVec.ofNat 8 (d.provByte k)))
  | _ => Config.digest [BitVec.ofNat 8 (d.personality h), BitVec.ofNat 8 (d.fld Fld.HEAD_STATUS_WING h.toNat)]

/-- A measurement block of SPDM 1.2. -/
def Dev.measureBlock (d : Dev) (h : HeadId) (i : Nat) : List Byte :=
  [BitVec.ofNat 8 i, 1] ++ bytesOf 51 2 ++ [1] ++ bytesOf 48 2 ++ bytesOf (d.measure h i).toNat 48

def Dev.drawBytes (d : Dev) (n : Nat) : List Byte × Dev :=
  (List.range n).foldl (fun (a : List Byte × Dev) _ => let (v, d) := a.2.draw; (BitVec.ofNat 8 v :: a.1, d)) (([] : List Byte), d)

/-- The response to an SPDM message of a head.  CHALLENGE and MEASUREMENTS are signed with the alias key over the messages since
the last GET_VERSION; the contents of responses that spec/ does not describe are free (PRESUMED: codes and layouts of SPDM
1.2, notes/assumptions/61.md). -/
def Dev.spdmAnswer (d : Dev) (h : HeadId) (m : List Byte) : List Byte × Dev :=
  let p1 := m.getD 2 0
  let p2 := m.getD 3 0
  let log := (if m.getD 1 0 = 0x84 then [] else (d.head h).spdm) ++ m
  let (r, d) : List Byte × Dev :=
    match (m.getD 1 0).toNat with
    | 0x81 => ([0x12, 0x01, 0, 1] ++ bytesOf (Config.digest d.spdmChain).toNat 48, d)
    | 0x82 =>
      let off := numOf ((m.drop 4).take 2)
      let n := min (numOf ((m.drop 6).take 2)) (d.spdmChain.length - off)
      if p1 ≠ 0 then ([0x12, 0x7F, 1, 0], d)
      else ([0x12, 0x02, 0, 0] ++ bytesOf n 2 ++ bytesOf (d.spdmChain.length - off - n) 2 ++ (d.spdmChain.drop off).take n, d)
    | 0x83 =>
      let (nonce, d) := d.drawBytes 32
      let sum := if p2 = 0 then [] else
        bytesOf (Config.digest (([1, 2, 3, 4].map (d.measureBlock h)).flatten)).toNat 48
      let body := [0x12, 0x03, p1, 1] ++ bytesOf (Config.digest d.spdmChain).toNat 48 ++ nonce ++ sum ++ [0, 0]
      (body ++ bytesOf (Config.sign d.reg.aliasKey (log ++ body)).toNat 96, d)
    | 0xE0 =>
      let (nonce, d) := d.drawBytes 32
      let ks := if p2 = 0xFF then [1, 2, 3, 4] else [1, 2, 3, 4].filter (fun i => decide (i = p2.toNat))
      let blocks := (ks.map (d.measureBlock h)).flatten
      let body := [0x12, 0x60, if p2 = 0 then 4 else 0, 0, BitVec.ofNat 8 ks.length] ++ bytesOf blocks.length 3 ++ blocks ++ nonce ++ [0, 0]
      (if p1.getLsbD 0 then body ++ bytesOf (Config.sign d.reg.aliasKey (log ++ body)).toNat 96 else body, d)
    | _ =>
      let (n, d) := d.draw
      d.drawBytes (4 + n % 4096)
  (r, d.setHead h { d.head h with spdm := log ++ r })

/-- The response to a data object: DOE Discovery names the protocols in turn; SPDM is answered only while the registrar runs; the
contents of secured messages and of Table Access are free.  An object of any other kind, or of a wrong length, is discarded. -/
def Dev.doeAnswer (d : Dev) (h : HeadId) : Dev :=
  let x := d.head h
  let q := x.doeReq
  let vendor := q.headD 0 % 2 ^ 16
  let type := q.headD 0 / 2 ^ 16 % 2 ^ 8
  let d := d.setHead h { x with doeReq := [] }
  let answer (d : Dev) (l : List Nat) : Dev := d.setHead h { d.head h with doeRsp := doeHead vendor type (2 + l.length) ++ l }
  if q.length < 2 || 4096 < q.length || q.getD 1 0 % 2 ^ 18 ≠ q.length || !x.doeRsp.isEmpty then d
  else if vendor = 1 && type = 0 then
    let i := q.getD 2 0 % 256
    match doeKinds[i]? with
    | some (v, t) => answer d [v + t * 2 ^ 16 + (i + 1) % doeKinds.length * 2 ^ 24]
    | none => answer d [0xFFFF]
  else if !doeKinds.contains (vendor, type) || (vendor = 1 && !d.reg.running) then d
  else if vendor = 1 && type = 1 then
    let (r, d) := d.spdmAnswer h ((q.drop 2).flatMap (fun v => bytesOf v 4))
    answer d (dwordsOf r)
  else
    let (n, d) := d.draw
    let (l, d) := (List.range (n % 4094 + 1)).foldl (fun (a : List Nat × Dev) _ =>
      let (v, d) := a.2.draw
      (v % 2 ^ 32 :: a.1, d)) (([] : List Nat), d)
    answer d l

/-- The writable fields of a configuration dword (Tables 13-2, 13-3). -/
def Dev.cfgSet (d : Dev) (h : HeadId) (o v : Nat) : Dev :=
  let x := d.head h
  let bit (i : Nat) : Bool := v.testBit i
  let barSet (i sz : Nat) : Dev := d.setHead h { x with bars := Fmap.put x.bars i (v / sz * sz) }
  match o with
  | 0x04 =>
    let d := d.setHead h { x with mse := bit 1, perr := bit 6, serr := bit 8, intxOff := bit 10 }
    let d := if bit 2 then d.bmeSet h else d.bmeClear h
    d.driveInta h
  | 0x0C => d.setHead h { x with cfg := Fmap.put x.cfg 3 (v % 256) }
  | 0x10 => barSet 0 (64 * MiB)
  | 0x14 => d.setHead h { x with bars := Fmap.put x.bars 1 v }
  | 0x18 => barSet 2 (512 * MiB)
  | 0x1C => d.setHead h { x with bars := Fmap.put x.bars 3 v }
  | 0x20 => barSet 4 (2 ^ 16)
  | 0x24 => d.setHead h { x with bars := Fmap.put x.bars 5 v }
  | 0x30 => d.setHead h { x with bars := Fmap.put x.bars 6 (v / MiB * MiB + v % 2) }
  | 0x3C => d.setHead h { x with cfg := Fmap.put x.cfg 15 (v % 256) }
  -- D0 and D3hot only
  | 0x44 => if v % 4 = 0 || v % 4 = 3 then (d.setHead h { x with pm := v % 4 }).flushIrqs h else d
  | 0x58 =>
    let d := d.setHead h { x with corEn := bit 0, nfEn := bit 1, fatEn := bit 2,
                                  cfg := Fmap.put x.cfg 22 (v % 2 ^ 15 / 8 * 8) }
    if bit 15 then d.flr h else d
  | 0x78 => d.setHead h { x with cfg := Fmap.put x.cfg 30 v }
  | 0x90 => (d.setHead h { x with msiEn := bit 16, msiLog := min 5 (v / 2 ^ 20 % 8) }).flushIrqs h
  | 0x94 => d.setHead h { x with msiAddr := x.msiAddr / 2 ^ 32 * 2 ^ 32 + v / 4 * 4 }
  | 0x98 => d.setHead h { x with msiAddr := v * 2 ^ 32 + x.msiAddr % 2 ^ 32 }
  | 0x9C => d.setHead h { x with msiData := v % 2 ^ 16 }
  | 0xA0 => (d.setHead h { x with msiMask := BitVec.ofNat 32 v }).flushIrqs h
  | 0xB0 => (d.setHead h { x with msixMask := bit 30, msixEn := bit 31 }).flushIrqs h
  | 0x104 => d.setHead h { x with uncStatus := x.uncStatus &&& ~~~(BitVec.ofNat 32 v) }
  | 0x108 => d.setHead h { x with uncMask := BitVec.ofNat 32 v &&& 0x10577010 }
  | 0x10C => d.setHead h { x with uncSev := BitVec.ofNat 32 v &&& 0x10577010 }
  | 0x110 => d.setHead h { x with corStatus := x.corStatus &&& ~~~(BitVec.ofNat 32 v) }
  | 0x114 => d.setHead h { x with corMask := BitVec.ofNat 32 v &&& 0x000071C1 }
  | 0x2B4 => if d.personality h = 3 then d else d.setHead h { x with atsEn := bit 31 }
  | 0x2F8 => d.setHead h { x with cfg := Fmap.put x.cfg 0xBE (v % 8) }
  | 0x2FC => d.setHead h { x with cfg := Fmap.put x.cfg 0xBF v }
  -- DOE control: abort, GO; write and read data mailboxes
  | 0x2D8 =>
    if bit 0 then d.setHead h { x with doeReq := [], doeRsp := [] } else if bit 31 then d.doeAnswer h else d
  | 0x2E0 => if x.doeReq.length ≤ 4096 then d.setHead h { x with doeReq := x.doeReq ++ [v] } else d
  | 0x2E4 => d.setHead h { x with doeRsp := x.doeRsp.tail }
  | _ => d

/-- CONFIG_WRITE of a dword under byte enables. -/
def Dev.cfgWrite (d : Dev) (h : HeadId) (o : Nat) (be : BitVec 4) (v : Nat) : Dev :=
  if !d.served h then d
  else if (d.head h).rrs then d.send (.cfgRetry h)
  else
    let o := o / 4 * 4
    let old := d.cfgDword h o
    -- bytes that are not enabled write zero to RW1C fields
    let old' := if o = 0x104 || o = 0x110 || o = 0x2E0 then 0 else old
    d.cfgSet h o (byteMerge be old' (v % 2 ^ 32))

/-- The discovery table of Table 13-6 without its checksum. -/
def Dev.discovery (d : Dev) (h : HeadId) : List Nat :=
  let w := d.fld Fld.HEAD_STATUS_WING h.toNat
  let le (n v : Nat) : List Nat := (List.range n).map (fun i => v / 256 ^ i % 256)
  let cap := (Fmap.get {} d.wings w).extents.foldl (fun (s : Nat) e => s + e.2) 0
  let queues := ((List.range 512).filter (fun q => d.fld Fld.QUEUE_BIND_VALID q = 1 && d.qWing q = w)).length
  let a := [0x43, 0x5A, 0x31, 0x44] ++ le 2 2 ++ le 2 64 ++ [1, h.toNat, d.personality h, w] ++ le 4 d.asm.id
  let b := le 8 0x10000 ++ le 8 0x400000 ++ le 8 cap ++ le 2 (d.wingLooms w).length ++ le 2 queues
  a ++ b ++ le 19 0

/-- Bytes of the image that spec/ fixes: the ROM header, and the signature and vendor of the PCI Data Structure at the place
that the header's bytes 0x18 and 0x19 name (R328; the layout is that of the PCI Firmware specification). -/
def romFixed (o : Nat) : Option Byte :=
  let p := (Config.romByte 0x18).toNat + 256 * (Config.romByte 0x19).toNat
  if o = 0 then some 0x55 else if o = 1 then some 0xAA
  else if p < 0x1A || o < p || p + 6 ≤ o then none
  else ([0x50, 0x43, 0x49, 0x52, 0x5E, 0x1D] : List Byte)[o - p]?

/-- A byte of the expansion ROM: the discovery table, the image, or zero. -/
def Dev.romByte (d : Dev) (h : HeadId) (o : Nat) : Byte :=
  if 0x80000 ≤ o ∧ o < 0x80040 then
    let t := d.discovery h
    let sum := t.foldl (fun (s : Nat) x => s + x) 0
    BitVec.ofNat 8 ((t ++ [(256 - sum % 256) % 256]).getD (o - 0x80000) 0)
  else if (romFixed o).isSome then (romFixed o).getD 0
  else if o < Config.romLen then Config.romByte o else 0

/-- EXPANSION_ROM_READ of up to 64 bytes. -/
def Dev.romRead (d : Dev) (h : HeadId) (o n : Nat) : Dev :=
  if !d.served h then d
  else if !d.barsOn h then (d.aer h .unsupported true).send (.unsupported h)
  else d.send (.romData h ((List.range n).map (fun i => d.romByte h (o + i))))

end Sys2Proof.Machine
end

