-- ==== Sys2Proof/Machine/Runs.lean ====
section
/-! DEFINITION. Conservator runs and routines (spec/10 R254 to R269, R242). -/

namespace Sys2Proof.Machine

/-! ### FP32 values with STATUS bits (R264, Table 10-9) -/

def stPoison : Nat := 1
def stInvalid : Nat := 2
def stNanIn : Nat := 4
def stOverflow : Nat := 8
def stUnderflow : Nat := 16
def stInexact : Nat := 32
def stDone : Nat := 64

/-- An FP32 code and the STATUS bits raised so far. -/
abbrev Cv := Nat × Nat

def cNaN (x : Nat) : Bool := x / 2 ^ 23 % 256 = 255 && x % 2 ^ 23 ≠ 0
def cInf (x : Nat) : Bool := x / 2 ^ 23 % 256 = 255 && x % 2 ^ 23 = 0

/-- Binary32, round to nearest even, no flush. -/
def cCtl : RCtl := { strict := true }

/-- One operation on operands: a NaN operand gives the canonical NaN and raises nothing. -/
def cOp (ops : List Cv) (f : List FV → Nat × FFlags) : Cv :=
  let st := ops.foldl (fun (s : Nat) o => s ||| o.2) 0
  if ops.any (fun o => cNaN o.1) then (canonNaN .fp32, st)
  else
    let (r, g) := f (ops.map (fun o => decodeIeee .fp32 o.1))
    let made (b : Bool) (k : Nat) : Nat := if b then k else 0
    let bits := made (cNaN r) stInvalid ||| made (cInf r && !ops.any (fun o => cInf o.1)) stOverflow |||
      made g.underflow stUnderflow ||| made g.inexact stInexact
    (if cNaN r then canonNaN .fp32 else r, st ||| bits)

def cAdd (a b : Cv) : Cv := cOp [a, b] fun v => match v with
  | [x, y] => fAdd .fp32 cCtl x y [x, y]
  | _ => (0, {})
def cMul (a b : Cv) : Cv := cOp [a, b] fun v => match v with
  | [x, y] => fMul .fp32 cCtl x y
  | _ => (0, {})
def cFma (a b x : Cv) : Cv := cOp [a, b, x] fun v => match v with
  | [a, b, x] => fFma .fp32 cCtl false false a b x
  | _ => (0, {})
def cDiv (a b : Cv) : Cv := cOp [a, b] fun v => match v with
  | [x, y] => fDiv .fp32 cCtl 0 0 x y
  | _ => (0, {})
def cSqrt (a : Cv) : Cv := cOp [a] fun v => match v with
  | [x] => fSqrt .fp32 cCtl 0 x
  | _ => (0, {})
/-- The opposite sign; a NaN stays canonical. -/
def cNeg (a : Cv) : Cv := (if cNaN a.1 then canonNaN .fp32 else a.1 ^^^ 2 ^ 31, a.2)
def cSub (a b : Cv) : Cv := cAdd a (cNeg b)
/-- sign(v) of R264. -/
def cSign (a : Cv) : Cv :=
  (if cNaN a.1 then canonNaN .fp32 else if a.1 % 2 ^ 31 = 0 then 0 else a.1 / 2 ^ 31 * 2 ^ 31 + 0x3F800000, a.2)
def cOne : Cv := (0x3F800000, 0)
/-- min(1.0, v); NaN for NaN. -/
def cMin1 (a : Cv) : Cv :=
  if cNaN a.1 then (canonNaN .fp32, a.2)
  else if (fCmp (decodeIeee .fp32 a.1) (decodeIeee .fp32 cOne.1)).1 then a else (cOne.1, a.2)

/-- Element formats of operands: FP32, BF16 or FP16. -/
def fmtF (f : Nat) : Bool := f = 12 || f = 13 || f = 14
/-- An element read as FP32 (exact); a NaN sets NAN_IN. -/
def cRead (f x : Nat) : Cv :=
  let r := if f = 12 then widen 1 x else if f = 13 then widen 2 x else x
  (r, if cNaN r then stNanIn else 0)
/-- A result written in a format: rounded once, to nearest even. -/
def cWrite (f : Nat) (v : Cv) : Cv :=
  if f = 14 then v
  else
    let L := fmtLayout f
    match decodeIeee .fp32 v.1 with
    | .nan _ _ => (canonNaN L, v.2)
    | .inf n => (infCode L n, v.2)
    | .fin n m e =>
      let (r, g) := toFloat L .rne 0 n m e
      (r, v.2 ||| (if g.overflow then stOverflow else 0) ||| (if g.underflow then stUnderflow else 0) |||
        (if g.inexact then stInexact else 0))

/-! ### Spans of memory -/

/-- The lines a span of bytes touches. -/
def spanLines (a n : Nat) : List Nat := if n = 0 then [] else (List.range ((a + n - 1) / 256 + 1 - a / 256)).map (· + a / 256)

/-- Sectors of a line that a span touches. -/
def spanSects (a n ln : Nat) : BitVec 4 :=
  let lo := max a (256 * ln)
  runSects (lo - 256 * ln) (min (a + n) (256 * ln + 256) - lo)

/-- A span that a step reads or writes: first byte, bytes. -/
abbrev Span := Nat × Nat

/-- The work can read the spans `rd` and write the spans `wr` now: their lines are open and no head holds a copy in the way. -/
def Dev.spansReady (d : Dev) (w : Work) (rd wr : List Span) : Bool :=
  rd.all (fun s => (spanLines s.1 s.2).all (fun ln => d.canRead w ln (spanSects s.1 s.2 ln))) &&
    wr.all (fun s => (spanLines s.1 s.2).all (fun ln => d.canWrite ln (spanSects s.1 s.2 ln)))

/-- Asks the heads for every copy that stands in the way of a read or a write of the spans (R185 note 4, R242). -/
def Dev.spansAsk (d : Dev) (w : Work) (rd wr : List Span) : Dev :=
  let d := rd.foldl (fun (d : Dev) s => (spanLines s.1 s.2).foldl (fun (d : Dev) ln => d.askRead w ln (spanSects s.1 s.2 ln)) d) d
  wr.foldl (fun (d : Dev) s => (spanLines s.1 s.2).foldl (fun (d : Dev) ln => d.askWrite w ln (spanSects s.1 s.2 ln)) d) d

/-- A step of a work over spans: it happens when it can, else it asks for what it needs (DEDUCED, notes/assumptions/63.md). -/
def Dev.withSpans (d : Dev) (w : Work) (rd wr : List Span) (f : Dev → Dev) : Dev :=
  if d.spansReady w rd wr then f (d.endAsks w) else d.spansAsk w rd wr

/-- The work of a run in a slot. -/
def runWork (slot : Nat) : Work := .run (BitVec.ofNat 6 slot)

/-- Bytes of a span as a number, and its poisoned 64-byte units. -/
def Dev.spanRead (d : Dev) (a n : Nat) : Nat × List Nat × Dev :=
  (spanLines a n).foldl (fun (x : Nat × List Nat × Dev) ln =>
    let lo := max a (256 * ln)
    let hi := min (a + n) (256 * ln + 256)
    let (l, p, d) := x.2.2.readNow ln (runSects (lo - 256 * ln) (hi - lo))
    let bad := (sectList p).map (fun k => 4 * ln + k)
    (x.1 + l.toNat / 2 ^ (8 * (lo - 256 * ln)) % 2 ^ (8 * (hi - lo)) * 2 ^ (8 * (lo - a)), x.2.1 ++ bad, d)) (0, [], d)

/-- Writes a span; the units of `bad` become poison; PLACE as Table 7-12. -/
def Dev.spanWrite (d : Dev) (a n v : Nat) (bad : List Nat) (place w : Nat) : Dev :=
  (spanLines a n).foldl (fun (d : Dev) ln =>
    let lo := max a (256 * ln)
    let hi := min (a + n) (256 * ln + 256)
    let data := placeLine (v / 2 ^ (8 * (lo - a)) % 2 ^ (8 * (hi - lo))) (lo - 256 * ln)
    let p := (List.range 4).foldl (fun (s : BitVec 4) k => if bad.contains (4 * ln + k) then setBit4 s k else s) 0
    let mask := runMask (lo - 256 * ln) (hi - lo)
    let d := d.writeNow ln mask data p (place / 2 ^ 12 = 2)
    let full := (List.range 4).foldl (fun (s : BitVec 4) k =>
      if maskSector mask k = BitVec.allOnes 64 && !p.getLsbD k then setBit4 s k else s) 0
    if place / 2 ^ 12 = 1 then d.stashNow ln full data (BitVec.ofNat 12 (place % 2 ^ 12)) w else d) d

/-- Every 256 MiB block of a range belongs to the wing and is populated (R262, R249). -/
def Dev.ownsRange (d : Dev) (w a n : Nat) : Bool :=
  n = 0 || ((List.range ((a + n - 1) / 2 ^ 28 + 1 - a / 2 ^ 28)).all (fun i => d.extentWing ((a / 2 ^ 28 + i) * 2 ^ 28) = w) &&
    d.populated a && d.populated (a + n - 1))

/-! ### Routine entries (Table 10-7) -/


def Entry.fld (e : Entry) (byte lo n : Nat) : Nat := (e.extractLsb' (8 * byte + lo) n).toNat
def Entry.op (e : Entry) : Nat := e.fld 0 0 8
def Entry.store (e : Entry) : Bool := e.fld 1 4 1 = 1
def Entry.halt (e : Entry) : Bool := e.fld 1 0 1 = 1
def Entry.xsrc (e : Entry) : Nat := e.fld 2 0 3
def Entry.xdst (e : Entry) : Nat := e.fld 3 0 2
def Entry.n (e : Entry) : Nat := e.fld 4 0 32
/-- Operand k (A, B, C, D): address and format. -/
def Entry.addr (e : Entry) (k : Nat) : Nat := e.fld (8 + 8 * k) 0 48
def Entry.fmt (e : Entry) (k : Nat) : Nat := e.fld (8 + 8 * k) 48 4
def Entry.rows (e : Entry) : Nat := e.fld 40 0 32
def Entry.k (e : Entry) : Nat := e.fld 44 0 32
def Entry.pitch (e : Entry) (i : Nat) : Nat := e.fld (48 + 4 * i) 0 32
def Entry.p (e : Entry) (i : Nat) : Cv := let x := e.fld (64 + 4 * i) 0 32; (x, 0)
def Entry.place (e : Entry) : Nat := e.fld 104 0 14

/-- Bytes of an element. -/
def fBytes (f : Nat) : Nat := if f = 14 then 4 else 2

/-- Operands a routine uses: index, bytes of the extent. -/
def Entry.extents (e : Entry) : List (Nat × Nat) :=
  let el (k : Nat) : Nat × Nat := (k, e.n * fBytes (e.fmt k))
  let st : List (Nat × Nat) := if e.store then [(3, 4)] else []
  match e.op with
  | 1 => [(0, e.n)]
  | 2 => [(0, e.n), (1, e.n)]
  | 3 | 4 => [el 0, el 1]
  | 5 => el 0 :: st
  | 6 => (if e.n = 0 then [] else [el 0]) ++ st
  | 7 | 8 => [el 0, el 1, el 2]
  | 9 => [el 0, el 1, el 2, el 3]
  | 10 =>
    let ext (i row : Nat) : Nat := (e.rows - 1) * e.pitch i + row
    [(0, ext 0 (e.k * fBytes (e.fmt 0))), (1, ext 1 (e.k * fmtBits (e.fmt 1) / 8)), (2, ext 2 (e.k / fmtBlock (e.fmt 1)))]
  | _ => []

/-- Parameters a routine uses. -/
def opParams (op : Nat) : List Nat :=
  match op with
  | 3 | 4 => [0]
  | 6 => [0, 1]
  | 7 => [0, 1, 4]
  | 8 => [0, 1, 2, 4]
  | 9 => [0, 1, 2, 3, 4]
  | _ => []

/-- Formats of the used operands (Table 10-8). -/
def Entry.fmtsOk (e : Entry) : Bool :=
  let st := !e.store || e.fmt 3 = 14
  match e.op with
  | 3 | 4 => fmtF (e.fmt 0) && fmtF (e.fmt 1)
  | 5 => fmtF (e.fmt 0) && st
  | 6 => (e.n = 0 || fmtF (e.fmt 0)) && st
  | 7 | 8 => fmtF (e.fmt 0) && fmtF (e.fmt 1) && fmtF (e.fmt 2)
  | 9 => fmtF (e.fmt 0) && fmtF (e.fmt 1) && fmtF (e.fmt 2) && fmtF (e.fmt 3)
  | 10 => fmtF (e.fmt 0) && fmtScaled (e.fmt 1) && e.fmt 2 = 0
  | _ => true

/-- Reserved and unused fields are zero. -/
def Entry.zeros (e : Entry) : Bool :=
  let op := e.op
  let z (use : Bool) (b lo n : Nat) : Bool := use || e.fld b lo n = 0
  let uses (k : Nat) : Bool := e.extents.any (fun x => x.1 = k) || (op = 6 && k = 0)
  z false 1 5 3 && z (op = 5 || op = 6) 1 4 1 && z (op = 10) 1 2 2 && z (op = 7) 1 1 1 && z false 2 3 5 && z false 3 2 6 &&
  z (op = 3 || op = 4 || (6 ≤ op && op ≤ 9)) 2 0 3 && z (op = 5 || op = 6) 3 0 2 && z (1 ≤ op && op ≤ 9) 4 0 32 &&
  (List.range 4).all (fun k => z (uses k) (8 + 8 * k) 0 52 && z false (8 + 8 * k) 52 12) &&
  z (op = 10) 40 0 160 && z false 60 0 32 &&
  (List.range 8).all (fun i => z ((opParams op).contains i) (64 + 4 * i) 0 32) &&
  z (op = 9 || op = 10) 96 0 64 && z (1 ≤ op && op ≤ 10) 104 0 14 && z false 104 14 50 && z false 116 0 96 && e.xsrc ≤ 4

/-- Two extents overlap. -/
def overlap (a m b n : Nat) : Bool := a < b + n && b < a + m

/-- The checks of R262. -/
def Dev.entryOk (d : Dev) (w : Nat) (e : Entry) : Bool :=
  let op := e.op
  let xs := e.extents
  let sz (k : Nat) : Nat := (xs.find? (fun x => x.1 = k)).elim 0 (·.2)
  let pairs : List (Nat × Nat) := [(0, 1), (0, 2), (0, 3), (1, 2), (1, 3), (2, 3)]
  let same (p : Nat × Nat) : Bool := op = 3 && p = (0, 1) && e.addr 0 = e.addr 1 && e.fmt 0 = e.fmt 1
  let block := fmtBlock (e.fmt 1)
  let req : Bool := op ≠ 10 || (e.rows ≥ 1 && e.k % block = 0 && e.pitch 0 ≥ e.k * fBytes (e.fmt 0) &&
    e.pitch 1 ≥ e.k * fmtBits (e.fmt 1) / 8 && e.pitch 2 ≥ e.k / block)
  op ≤ 10 && e.zeros && e.fmtsOk &&
  xs.all (fun x => e.addr x.1 % 64 = 0 && d.ownsRange w (e.addr x.1) x.2) &&
  pairs.all (fun p => same p || sz p.1 = 0 || sz p.2 = 0 || !overlap (e.addr p.1) (sz p.1) (e.addr p.2) (sz p.2)) &&
  (op = 0 || op = 6 || op = 10 || e.n ≠ 0) && ((op ≠ 1 && op ≠ 2) || e.n % 64 = 0) && (op ≠ 6 || e.xsrc ≠ 0) && req

/-! ### Runs -/

def Dev.runOf (d : Dev) (r : Nat) : Option (Nat × Run) := d.runs.find? (fun x => x.2.region = r)
def Dev.setRun (d : Dev) (slot : Nat) (x : Run) : Dev := { d with runs := Fmap.put d.runs slot x }
def Dev.entryAddr (d : Dev) (r i : Nat) : Nat := d.regListAddr r + 128 * i
/-- Source of a run's slot: engine e of the M-die that is home to the region (Table 18-1). -/
def Dev.runSrc (d : Dev) (r slot : Nat) : Nat := 0x150 + 16 * d.home (d.regBase r) + slot

/-- The interrupt of a region (R257). -/
def Dev.regionIrq (d : Dev) (r : Nat) : Dev :=
  if d.regIrqEn r then d.interrupt (BitVec.ofNat 4 (d.regHead r)) (d.regVector r) else d

/-- A run stops with a fault code (R258); code 16 disables the region without a trace (Table 10-6). -/
def Dev.stopRun (d : Dev) (slot : Nat) (x : Run) (code : Nat) : Dev :=
  let r := x.region
  let d := { d with runs := Fmap.del d.runs slot }
  if code ≥ 16 then (d.setRgState r rgDisabled).clearCounts r
  else
    let d := { d with rerun := Fmap.put d.rerun r (x.idx, x.xs) }
    let d := ((d.setRgState r rgFaulted).setFld Fld.REGION_STATUS_FAULT r code).setFld Fld.REGION_STATUS_ENTRY r x.idx
    (d.report (d.runSrc r slot) (mkDetail (d.entryAddr r x.idx) r code) (d.regionWing r)).regionIrq r

/-- Run scalar gs of R265, with NAN_IN when it is a NaN. -/
def Run.gs (x : Run) (e : Entry) : Cv :=
  if e.xsrc = 0 then cOne else let v := x.xs.getD (e.xsrc - 1) 0; (v, if cNaN v then stNanIn else 0)

/-- The per-run values of an entry, computed once at its start (R265): the STATUS bits they raise, the factor of CLIP_APPLY,
S0 and S1 of ADAM. -/
def Run.entryStart (x : Run) (e : Entry) : Run :=
  let gs := x.gs e
  let bits (x : Run) (vs : List Cv) : Run := { x with bits := vs.foldl (fun (b : Nat) v => b ||| v.2) x.bits }
  let ob1 := cSub cOne (e.p 1)
  let ob2 := cSub cOne (e.p 2)
  let k := cSub cOne (cMul (e.p 0) (e.p 4))
  match e.op with
  | 3 | 4 => bits x [gs, cMul (e.p 0) gs]
  | 6 =>
    let c := cMin1 (cDiv (e.p 0) (cAdd (cSqrt gs) (e.p 1)))
    bits { x with xs := x.xs.set e.xdst c.1 } [gs, c]
  | 7 => bits x [gs]
  | 8 => bits x [gs, ob1, ob2, k]
  | 9 =>
    let s0 := cMul (x.s0, 0) (e.p 1)
    let s1 := cMul (x.s1, 0) (e.p 2)
    bits { x with s0 := s0.1, s1 := s1.1 }
      [gs, s0, s1, ob1, ob2, k, cDiv (e.p 0) (cSub cOne (s0.1, 0)), cDiv cOne (cSub cOne (s1.1, 0))]
  | _ => x

/-- Writes words of an entry in place: its state words and STATUS (Table 10-4 step 3). -/
def Dev.entryState (d : Dev) (x : Run) (e : Entry) : Dev :=
  let a := d.entryAddr x.region x.idx
  let w := d.regionWing x.region
  if e.op = 9 then d.spanWrite (a + 96) 8 (x.s0 + x.s1 * 2 ^ 32) [] 0 w
  else if e.op = 10 then d.spanWrite (a + 96) 8 x.seed.toNat [] 0 w else d

def Dev.entryStatus (d : Dev) (x : Run) (bits : Nat) : Dev :=
  d.spanWrite (d.entryAddr x.region x.idx + 112) 4 bits [] 0 (d.regionWing x.region)

/-- The run goes on to entry `i`, checked before it starts; past the last entry the list has ended.  An entry that fails
the check stops the run and writes nothing but its STATUS word (R262, R269). -/
def Dev.enterEntry (d : Dev) (slot : Nat) (x : Run) (i : Nat) : Dev :=
  let x := { x with idx := i, pos := 0, bits := 0 }
  match x.entries[i]? with
  | none => d.setRun slot { x with ended := true, idx := i - 1 }
  | some e =>
    let d := d.setFld Fld.REGION_STATUS_ENTRY x.region i
    if d.entryOk (d.regionWing x.region) e then
      d.setRun slot (Run.entryStart
        { x with s0 := e.fld 96 0 32, s1 := e.fld 100 0 32, seed := BitVec.ofNat 64 (e.fld 96 0 64) } e)
    else if d.spansReady (runWork slot) [] [(d.entryAddr x.region i, 128)] then (d.entryStatus x 0).stopRun slot x 2
    else d.setRun slot { x with stop := some 2 }

/-- RUN_START: the region triggered first starts when one of 16 slots is free and no M-die is draining (R255, R260). -/
def Dev.runStart (d : Dev) (r : Nat) : Dev :=
  match d.runQ with
  | [] => d
  | r0 :: rest =>
    match (List.range 16).find? (fun s => (Fmap.find d.runs s).isNone) with
    | none => d
    | some slot =>
      let n := d.desc r 240 4 + 1
      let (from_, xs) := Fmap.get (0, [0, 0, 0, 0]) d.rerun r
      let lo := d.entryAddr r from_
      if r0 ≠ r || d.fld Fld.CONS_STATE_DRAINING 0 ≠ 0 then d
      else d.withSpans (runWork slot) [(lo, 128 * (n - from_))] [] fun d =>
        let d := (d.setRgState r rgRunning).setFld Fld.REGION_STATUS_FAULT r 0
        let d := { d with runQ := rest, rerun := Fmap.del d.rerun r }
        let (v, bad, d) := d.spanRead lo (128 * (n - from_))
        let es : List Entry := (List.range n).map (fun i =>
          if i < from_ then 0 else BitVec.ofNat 1024 (v / 2 ^ (1024 * (i - from_))))
        let x : Run := { region := r, entries := es, idx := from_, xs := xs }
        if bad.isEmpty then d.enterEntry slot x from_ else d.stopRun slot x 3

/-- An entry ends: state words, D of STORE, STATUS; HALT may stop the run, else the next entry is checked.  The D of a NORM2 that
lost an element is written as poison (R268). -/
def Dev.entryEnd (d : Dev) (slot : Nat) (x : Run) (e : Entry) : Dev :=
  let d := d.entryState x e
  let bad := if e.op = 5 && x.bits &&& stPoison ≠ 0 then [e.addr 3 / 64] else []
  let d := if e.store then d.spanWrite (e.addr 3) 4 (x.xs.getD e.xdst 0) bad e.place (d.regionWing x.region) else d
  let d := d.entryStatus x (x.bits ||| stDone)
  if e.halt && (x.bits &&& (stPoison ||| stInvalid ||| stNanIn)) ≠ 0 then d.stopRun slot x 1
  else if e.op = 0 then d.setRun slot { x with ended := true }
  else d.enterEntry slot x (x.idx + 1)

/-- An entry goes on to its next chunk, or ends. -/
def Dev.chunkDone (d : Dev) (slot : Nat) (x : Run) (e : Entry) (m total : Nat) : Dev :=
  let x := { x with pos := x.pos + m }
  if x.pos ≥ total then d.entryEnd slot x e else d.setRun slot x

/-! ### Routines (R263 to R268) -/

/-- Elements of the current chunk of operand k: values, and whether each is lost. -/
def Dev.chunkIn (d : Dev) (x : Run) (e : Entry) (k m : Nat) : List (Cv × Bool) × Dev :=
  let f := e.fmt k
  let sz := fBytes f
  let a := e.addr k + x.pos * sz
  let (v, bad, d) := d.spanRead a (m * sz)
  ((List.range m).map (fun i => (cRead f (v / 2 ^ (8 * sz * i) % 2 ^ (8 * sz)), bad.contains ((a + i * sz) / 64))), d)

/-- Writes the current chunk of operand k; returns the STATUS bits raised. -/
def Dev.chunkOut (d : Dev) (x : Run) (e : Entry) (k : Nat) (vs : List (Cv × Bool)) : Nat × Dev :=
  let f := e.fmt k
  let sz := fBytes f
  let a := e.addr k + x.pos * sz
  let out : List (Cv × Bool) := vs.map (fun v => if v.2 then ((0, 0), true) else (cWrite f v.1, false))
  let n := out.foldr (fun (v : Cv × Bool) (acc : Nat) => v.1.1 + 2 ^ (8 * sz) * acc) 0
  let bad := ((List.range vs.length).zip out).filterMap (fun (p : Nat × Cv × Bool) => if p.2.2 then some ((a + p.1 * sz) / 64) else none)
  let bits := out.foldl (fun (s : Nat) v => s ||| v.1.2 ||| (if v.2 then stPoison else 0)) 0
  (bits, d.spanWrite a (vs.length * sz) n bad e.place (d.regionWing x.region))

/-- Operands that a routine writes. -/
def Entry.outs (e : Entry) : List Nat :=
  match e.op with
  | 1 | 3 | 6 => [0]
  | 2 | 4 => [1]
  | 7 | 8 => [0, 1]
  | 9 => [0, 1, 2]
  | _ => []

/-- The span of operand k in the current chunk. -/
def Run.span (x : Run) (e : Entry) (m k : Nat) : Span :=
  let step : Nat := if e.op = 1 || e.op = 2 then 1 else fBytes (e.fmt k)
  (e.addr k + x.pos * step, m * step)

/-- Operands of the current chunk that the routine reads, and those that it writes with its list entry and its D. -/
def Run.reads (x : Run) (e : Entry) (m : Nat) : List Span :=
  ((e.extents.map (·.1)).filter (fun k => !(e.store && k = 3 && e.op ≤ 6) && !(e.op ≤ 2 && e.outs.contains k))).map (x.span e m)
def Run.writes (x : Run) (e : Entry) (m : Nat) (entry : Nat) : List Span :=
  (entry, 128) :: (if e.store then [(e.addr 3, 4)] else []) ++ e.outs.map (x.span e m)

/-- A chunk of the entry happens when everything it reads and writes, the end of the entry included, is to be had. -/
def Dev.onChunk (d : Dev) (slot : Nat) (x : Run) (e : Entry) (m : Nat) (f : Dev → Dev) : Dev :=
  d.withSpans (runWork slot) (x.reads e m) (x.writes e m (d.entryAddr x.region x.idx)) f

/-- One chunk of the entry in progress of region r, when its routine is `op` and no stop is due. -/
def Dev.runChunk (d : Dev) (r op : Nat) (f : Dev → Nat → Run → Entry → Dev) : Dev :=
  match d.runOf r with
  | none => d
  | some (slot, x) =>
    match x.entries[x.idx]? with
    | none => d
    | some e => if x.ended || x.stop.isSome || e.op ≠ op then d else f d slot x e

/-- END ends the list. -/
def Dev.runEndEntry (d : Dev) (slot : Nat) (x : Run) (e : Entry) : Dev :=
  d.withSpans (runWork slot) [] [(d.entryAddr x.region x.idx, 128)] fun d => d.entryEnd slot x e

/-- ZERO and SNAPSHOT: 64 KiB at a time. -/
def Dev.runBytes (copy : Bool) (d : Dev) (slot : Nat) (x : Run) (e : Entry) : Dev :=
  let m := min 65536 (e.n - x.pos)
  d.onChunk slot x e m fun d =>
  if copy then
    let (v, bad, d) := d.spanRead (e.addr 0 + x.pos) m
    let b := bad.map (fun u => u - e.addr 0 / 64 + e.addr 1 / 64)
    (d.spanWrite (e.addr 1 + x.pos) m v b e.place (d.regionWing x.region)).chunkDone slot
      { x with bits := x.bits ||| (if bad.isEmpty then 0 else stPoison) } e m e.n
  else (d.spanWrite (e.addr 0 + x.pos) m 0 [] e.place (d.regionWing x.region)).chunkDone slot x e m e.n

/-- A routine over elements: reads the operands `ins`, computes one value per output of `outs` for each index. -/
def Dev.runElems (ins outs : List Nat) (g : Run → Entry → List Cv → List Cv) (d : Dev) (slot : Nat) (x : Run) (e : Entry) : Dev :=
  let m := min 1024 (e.n - x.pos)
  d.onChunk slot x e m fun d =>
    let (cols, d) := ins.foldl (fun (a : List (List (Cv × Bool)) × Dev) k =>
      let (c, d) := a.2.chunkIn x e k m
      (a.1 ++ [c], d)) ([], d)
    let rows : List (List Cv × Bool) := (List.range m).map (fun i =>
      let vs := cols.map (fun c => c.getD i ((0, 0), false))
      (g x e (vs.map (·.1)), vs.any (·.2)))
    -- inputs beside a lost one are read all the same
    let nan := (List.range m).foldl (fun (s : Nat) i =>
      cols.foldl (fun (s : Nat) c => let v := c.getD i ((0, 0), true); if v.2 then s else s ||| v.1.2) s) 0
    let (bits, d) := ((List.range outs.length).zip outs).foldl (fun (a : Nat × Dev) (p : Nat × Nat) =>
      let (b, d) := a.2.chunkOut x e p.2 (rows.map (fun (row : List Cv × Bool) => (row.1.getD p.1 (0, 0), row.2)))
      (a.1 ||| b, d)) (x.bits ||| nan, d)
    d.chunkDone slot { x with bits := bits } e m e.n

/-- SCALE, AXPY, SGD_MOMENTUM, LION of R265: values of the outputs at one index. -/
def scaleAt (x : Run) (e : Entry) (v : List Cv) : List Cv := [cMul (cMul (e.p 0) (x.gs e)) (v.getD 0 (0, 0))]

def axpyAt (x : Run) (e : Entry) (v : List Cv) : List Cv :=
  [cFma (cMul (e.p 0) (x.gs e)) (v.getD 0 (0, 0)) (v.getD 1 (0, 0))]

def sgdAt (x : Run) (e : Entry) (v : List Cv) : List Cv :=
  let w := v.getD 0 (0, 0)
  let g := cFma (e.p 4) w (cMul (v.getD 2 (0, 0)) (x.gs e))
  let m := cFma (e.p 1) (v.getD 1 (0, 0)) g
  let s := if e.fld 1 1 1 = 1 then cFma (e.p 1) m g else m
  [cFma (cNeg (e.p 0)) s w, m]

def lionAt (x : Run) (e : Entry) (v : List Cv) : List Cv :=
  let w := v.getD 0 (0, 0)
  let m := v.getD 1 (0, 0)
  let k := cSub cOne (cMul (e.p 0) (e.p 4))
  let g := cMul (v.getD 2 (0, 0)) (x.gs e)
  let c := cFma (e.p 1) m (cMul (cSub cOne (e.p 1)) g)
  [cFma w k (cNeg (cMul (e.p 0) (cSign c))), cFma (e.p 2) m (cMul (cSub cOne (e.p 2)) g)]

/-- ADAM at one index; S0 and S1 have advanced when the entry started. -/
def adamAt (x : Run) (e : Entry) (v : List Cv) : List Cv :=
  let w := v.getD 0 (0, 0)
  let k := cSub cOne (cMul (e.p 0) (e.p 4))
  let c1 := cDiv (e.p 0) (cSub cOne (x.s0, 0))
  let c2 := cDiv cOne (cSub cOne (x.s1, 0))
  let g := cMul (v.getD 3 (0, 0)) (x.gs e)
  let m := cFma (e.p 1) (v.getD 1 (0, 0)) (cMul (cSub cOne (e.p 1)) g)
  let u := cFma (e.p 2) (v.getD 2 (0, 0)) (cMul (cSub cOne (e.p 2)) (cMul g g))
  let dn := cAdd (cSqrt (cMul u c2)) (e.p 3)
  [cFma w k (cNeg (cMul c1 (cDiv m dn))), m, u]

/-- NORM2: one chunk of 1,024 elements in 64 lanes, then the tree, then the run scalar (R266). -/
def Dev.runNorm (d : Dev) (slot : Nat) (x : Run) (e : Entry) : Dev :=
  let m := min 1024 (e.n - x.pos)
  d.onChunk slot x e m fun d =>
    let (vs, d) := d.chunkIn x e 0 m
    let lane (l : Nat) : Cv := (List.range 16).foldl (fun (s : Cv) j =>
      match vs[l + 64 * j]? with
      | some (a, lost) => let a : Cv := if lost then (canonNaN .fp32, 0) else a; cFma a a s
      | none => s) (0, 0)
    let rec tree : Nat → List Cv → List Cv
      | 0, l => l
      | k + 1, l =>
        let rec pair : List Cv → List Cv
          | a :: b :: t => cAdd a b :: pair t
          | t => t
        tree k (pair l)
    let part := (tree 6 ((List.range 64).map lane)).getD 0 (0, 0)
    let old := x.xs.getD e.xdst 0
    let sum := cAdd (old, if cNaN old then stNanIn else 0) part
    let lost := vs.any (·.2)
    let bits := x.bits ||| sum.2 ||| (if lost then stPoison else 0)
    d.chunkDone slot { x with xs := x.xs.set e.xdst sum.1, bits := bits } e m e.n

/-- CLIP_APPLY: the elements, by the factor that its start computed; none when N = 0. -/
def Dev.runClip (d : Dev) (slot : Nat) (x : Run) (e : Entry) : Dev :=
  if e.n = 0 then d.onChunk slot x e 0 fun d => d.chunkDone slot x e 0 0
  else d.runElems [0] [0] (fun x e v => [cMul (x.xs.getD e.xdst 0, 0) (v.getD 0 (0, 0))]) slot x e

/-- One block of REQUANT: row, block in the row (R267, R268). -/
def Dev.requantBlock (e : Entry) (row b : Nat) (a : Run × Dev) : Run × Dev :=
  let (x, d) := a
  let f := e.fmt 0
  let sz := fBytes f
  let t := e.fmt 1
  let L := fmtBlock t
  let src := e.addr 0 + row * e.pitch 0 + b * L * sz
  let (v, bad, d) := d.spanRead src (L * sz)
  let ins : List Cv := (List.range L).map (fun i => cRead f (v / 2 ^ (8 * sz * i) % 2 ^ (8 * sz)))
  let sr := e.fld 1 2 1 = 1
  let us := if sr then srDraws x.seed L else List.replicate L 0
  let x := if sr then { x with seed := srAdvance x.seed L } else x
  let (codes, scale, g) := quantize t (if sr then .sr else .rne) (e.fld 1 3 1 = 1) (ins.map (fun i => decodeIeee .fp32 (if cNaN i.1 then canonNaN .fp32 else i.1))) us
  let w := fmtBits t
  let packed := codes.foldr (fun (c acc : Nat) => c + 2 ^ w * acc) 0
  let lost := !bad.isEmpty
  let da := e.addr 1 + row * e.pitch 1 + b * L * w / 8
  let sa := e.addr 2 + row * e.pitch 2 + b
  let units (a n : Nat) : List Nat := if lost then (List.range ((a + n - 1) / 64 + 1 - a / 64)).map (· + a / 64) else []
  let wing := d.regionWing x.region
  let d := d.spanWrite da (L * w / 8) packed (units da (L * w / 8)) e.place wing
  let d := d.spanWrite sa 1 scale (units sa 1) e.place wing
  let made (c : Bool) (k : Nat) : Nat := if c then k else 0
  let nan := ((List.range L).zip ins).foldl (fun (s : Nat) (p : Nat × Cv) => if bad.contains ((src + p.1 * sz) / 64) then s else s ||| p.2.2) 0
  let bits := nan ||| (if lost then stPoison else
    made g.overflow stOverflow ||| made g.underflow stUnderflow ||| made g.inexact stInexact ||| made g.invalid stInvalid)
  ({ x with bits := x.bits ||| bits }, d)

/-- REQUANT: 1,024 elements in order of row, then block. -/
def Dev.runRequant (d : Dev) (slot : Nat) (x : Run) (e : Entry) : Dev :=
  let L := fmtBlock (e.fmt 1)
  let per := e.k / L
  let total := e.rows * e.k
  let m := min 1024 (total - x.pos)
  let bs := (List.range (m / L)).map (fun i => ((x.pos / L + i) / per, (x.pos / L + i) % per))
  let rd : List Span := bs.map (fun p => (e.addr 0 + p.1 * e.pitch 0 + p.2 * L * fBytes (e.fmt 0), L * fBytes (e.fmt 0)))
  let wr : List Span := bs.flatMap (fun p =>
    [(e.addr 1 + p.1 * e.pitch 1 + p.2 * L * fmtBits (e.fmt 1) / 8, L * fmtBits (e.fmt 1) / 8), (e.addr 2 + p.1 * e.pitch 2 + p.2, 1)])
  d.withSpans (runWork slot) rd ((d.entryAddr x.region x.idx, 128) :: wr) fun d =>
    let (x, d) := bs.foldl (fun (a : Run × Dev) p => Dev.requantBlock e p.1 p.2 a) (x, d)
    d.chunkDone slot x e m total

/-! ### The end of a run and its stop -/

/-- RUN_END: counts to 0, OPEN, the epoch word advances, the interrupt (Table 10-4 steps 4 to 6). -/
def Dev.runEnd (d : Dev) (r : Nat) : Dev :=
  match d.runOf r with
  | none => d
  | some (slot, x) =>
    let a := d.regEpochAddr r
    if !x.ended || x.stop.isSome then d
    else d.withSpans (runWork slot) [] [(a, 8)] fun d =>
      let d := ({ d with runs := Fmap.del d.runs slot }.clearCounts r).setRgState r rgOpen
      let (v, _, d) := d.spanRead a 8
      (d.spanWrite a 8 ((v + 1) % 2 ^ 64) [] 0 (d.regionWing r)).regionIrq r

/-- RUN_ABORT_STOP: a run told to stop does so at its chunk boundary; the entry ends, so its state words and STATUS are
written (Table 10-4 step 3, R269).  A run whose last entry has ended keeps that entry's STATUS. -/
def Dev.runAbortStop (d : Dev) (r : Nat) : Dev :=
  match d.runOf r with
  | none => d
  | some (slot, x) =>
    match x.stop with
    | none => d
    | some c =>
      if x.ended then d.stopRun slot x c
      else d.withSpans (runWork slot) [] [(d.entryAddr r x.idx, 128)] fun d =>
        let d := match x.entries[x.idx]? with
          | some e => if c = 2 then d else d.entryState x e
          | none => d
        (d.entryStatus x x.bits).stopRun slot x c

/-- Stops a region's run at its next chunk boundary, or a WAITING region at once. -/
def Dev.abortRegion (d : Dev) (r code : Nat) : Dev :=
  if d.rgState r = rgWaiting then
    let d := { d with runQ := d.runQ.filter (· ≠ r) }
    if code ≥ 16 then (d.setRgState r rgDisabled).clearCounts r
    else
      let i := (Fmap.get (0, [0, 0, 0, 0]) d.rerun r).1
      let d := ((d.setRgState r rgFaulted).setFld Fld.REGION_STATUS_FAULT r code).setFld Fld.REGION_STATUS_ENTRY r i
      (d.report (d.runSrc r 0) (mkDetail (d.entryAddr r i) r code) (d.regionWing r)).regionIrq r
  else match d.runOf r with
    | some (slot, x) => if x.stop.isNone || code ≥ 16 then d.setRun slot { x with stop := some code } else d
    | none => d

/-! ### Region commands (Tables 10-11 and R249) -/

/-- A descriptor's field. -/
def descField (v : BitVec 512) (lo n : Nat) : Nat := (v.extractLsb' lo n).toNat

/-- The extents of enabled regions: data, epoch word, list. -/
def Dev.regionSpans (d : Dev) (r : Nat) : List (Nat × Nat) :=
  [(d.regBase r, d.regBytes r), (d.regEpochAddr r, 8), (d.regListAddr r, 128 * (d.desc r 240 4 + 1))]

/-- Command results of Table 16-3. -/
def rOk : Nat := 0
def rInvalid : Nat := 1
def rDenied : Nat := 2
def rBusy : Nat := 3
def rOverlap : Nat := 4
def rNoSpace : Nat := 5
def rNotFound : Nat := 6
def rInternal : Nat := 7

/-- The reason for which an enable is refused, if any (R249). -/
def Dev.enableRefused (d : Dev) (w r : Nat) (v : BitVec 512) : Option Nat :=
  let f := descField v
  let et := f 48 4
  let base := f 0 48
  let bytes := f 64 48 * etypeBytes et
  let ep := f 128 48
  let la := f 192 48
  let ln := 128 * (f 240 4 + 1)
  let bad := f 52 12 ≠ 0 || f 177 15 ≠ 0 || f 244 12 ≠ 0 || f 333 19 ≠ 0 || f 352 160 ≠ 0 || et > 5 || base % 64 ≠ 0 ||
    f 64 48 = 0 || f 112 16 = 0 || ep % 8 ≠ 0 || la % 128 ≠ 0
  let others := (Fmap.keys d.regions).filter (fun q => q ≠ r && d.rgState q ≠ rgDisabled)
  let clash := others.any (fun q =>
    match d.regionSpans q with
    | [(b, n), (e, _), (l, m)] =>
      overlap base bytes b n || overlap ep 8 b n || overlap la ln b n || overlap base bytes e 8 || overlap base bytes l m
    | _ => false)
  if d.regionWing r ≠ w || !d.ownsRange w base bytes || !d.ownsRange w ep 8 || !d.ownsRange w la ln ||
      d.headWing (BitVec.ofNat 4 (f 320 4)) ≠ w then some rDenied
  else if d.rgState r ≠ rgDisabled then some rBusy
  else if bad then some rInvalid
  else if clash || overlap base bytes ep 8 || overlap base bytes la ln then some rOverlap
  else none

/-- The epoch word of an accepted enable can be written. -/
def Dev.epochReady (d : Dev) (r : Nat) (v : BitVec 512) : Bool :=
  d.spansReady (.region (BitVec.ofNat 12 r)) [] [(descField v 128 48, 8)]

/-- An accepted enable: counts 0, EPOCH_INIT written, OPEN after its Comp: while the line is busy, or a host still holds the
epoch word, it only asks for it (R249). -/
def Dev.regionOpen (d : Dev) (r : Nat) (v : BitVec 512) : Dev :=
  d.withSpans (.region (BitVec.ofNat 12 r)) [] [(descField v 128 48, 8)] fun d =>
    let d := ({ d with regions := Fmap.put d.regions r v }.clearCounts r)
    let d := d.spanWrite (descField v 128 48) 8 (descField v 256 64) [] 0 (d.regionWing r)
    (d.setRgState r rgOpen).setFld Fld.REGION_STATUS_FAULT r 0

/-- A disable, a reopen, a rerun from entry k. -/
def Dev.regionClose (d : Dev) (r : Nat) : Dev :=
  let d := { d with regions := Fmap.del d.regions r, rerun := Fmap.del d.rerun r }
  ((d.clearCounts r).setRgState r rgDisabled).setFld Fld.REGION_STATUS_FAULT r 0
def Dev.regionReopen (d : Dev) (r : Nat) : Dev := 
  (({ d with rerun := Fmap.del d.rerun r }.clearCounts r).setRgState r rgOpen).setFld Fld.REGION_STATUS_FAULT r 0
def Dev.regionRerun (d : Dev) (r k : Nat) : Dev :=
  let xs := (Fmap.get (0, [0, 0, 0, 0]) d.rerun r).2
  ({ d with rerun := Fmap.put d.rerun r (k, xs) }.triggerRegion r).setFld Fld.REGION_STATUS_FAULT r 0

end Sys2Proof.Machine
end

