-- ==== Sys2Proof/Machine/Tiers.lean ====
section
/-! DEFINITION. Rotation, evacuation, retirement, patrol, refresh, interface errors, tier counters and atrium pins
(spec/08, spec/09). -/

namespace Sys2Proof.Machine

/-! ### Background commands (R396) -/

/-- A background command ends: RESULT and output go to its mailbox's status. -/
def Dev.bgEnd (d : Dev) (op obj result : Nat) (out : List Byte) : Dev :=
  match d.reg.bg.find? (fun b => b.op = op && b.obj = obj) with
  | none => d
  | some b =>
    let d := if result = 7 then d.report 0x377 (mkDetail 0 op 0) noWing else d
    { d with reg := { d.reg with bg := eraseOne b d.reg.bg, bgStat := Fmap.put d.reg.bgStat b.box (op, result, out) } }

/-! ### States of stacks and channels -/

def Dev.stackState (d : Dev) (s : Nat) : Nat := d.fld Fld.DSP_STACK_STATE_STATE 0 / 4 ^ s % 4
def Dev.setStackState (d : Dev) (s v : Nat) : Dev :=
  let x := d.fld Fld.DSP_STACK_STATE_STATE 0
  d.setFld Fld.DSP_STACK_STATE_STATE 0 (x - x / 4 ^ s % 4 * 4 ^ s + v * 4 ^ s)
def Dev.chanState (d : Dev) (c : Nat) : Nat := d.fld Fld.DEP_CHANNEL_STATE_STATE 0 / 4 ^ c % 4
def Dev.setChanState (d : Dev) (c v : Nat) : Dev :=
  let x := d.fld Fld.DEP_CHANNEL_STATE_STATE 0
  d.setFld Fld.DEP_CHANNEL_STATE_STATE 0 (x - x / 4 ^ c % 4 * 4 ^ c + v * 4 ^ c)

/-- Depot channels that share slots with channel c (R206, R219). -/
def Dev.chanGroup (d : Dev) (c : Nat) : List Nat :=
  if d.groupMode then (List.range 6).map (· + c / 6 * 6) else List.range 24

def Slot.k (s : Slot) : Nat := s.kind.toNat
def Slot.n (s : Slot) : Nat := s.slot.toNat
/-- Depot channels a depot slot uses. -/
def Dev.slotChans (d : Dev) (s : Slot) : List Nat :=
  if d.groupMode then d.chanGroup (6 * (s.n * 2 ^ 26 / (d.depotCap / 4))) else List.range 24
/-- Display stacks a display slot uses. -/
def Dev.slotStacks (_d : Dev) (s : Slot) : List Nat :=
  if s.k = 0 then (List.range 4).map (fun m => 4 * m + s.n / 2 ^ 12 % 4) else if s.k = 1 then [s.n / 2 ^ 12 % 16] else []
/-- A slot uses a channel (numbered as Phys.chanNo). -/
def Dev.slotUses (d : Dev) (s : Slot) (c : Nat) : Bool :=
  if s.k = 2 then 512 ≤ c && (d.slotChans s).contains (c - 512) else c < 512 && (d.slotStacks s).contains (c / 32)
/-- Every stack or channel of a slot is ONLINE. -/
def Dev.slotOnline (d : Dev) (s : Slot) : Bool :=
  if s.k = 2 then (d.slotChans s).all (fun c => d.chanState c = 1) else (d.slotStacks s).all (fun t => d.stackState t = 1)

/-! ### Rotation (R194, R216, R217) -/

def rsIdle : Nat := 0
def rsCopying : Nat := 1
def rsSwitching : Nat := 2
def rsDone : Nat := 3
def rsAborted : Nat := 4
def rsFailed : Nat := 5
def rsNoConverge : Nat := 6
def Dev.rotStatus (d : Dev) (i : Nat) : Nat := d.fld Fld.ROT_STATE_STATUS i
def Dev.setRotStatus (d : Dev) (i s : Nat) : Dev := d.setFld Fld.ROT_STATE_STATUS i s

/-- Placements R201 allows for a page: kind, and the M-die of a homed slot. -/
def Dev.placeOk (d : Dev) (page : Nat) (s : Slot) : Bool :=
  let a := page * 2 ^ 26
  if s.k = 2 then true
  else if a < d.dspSize && d.zEnd ≤ a then s.k = 1 && s.n / 2 ^ 12 % 16 / 4 = d.home a
  else s.k = 0

/-- A slot belongs to an evacuation. -/
def Dev.evacSlot (d : Dev) (e : Nat) (s : Slot) : Bool :=
  if e < 16 then (d.slotStacks s).contains e else s.k = 2 && (d.slotChans s).contains (e - 16)

/-- A free slot may be taken by a page: its stacks or channels are ONLINE and none of them is being emptied (R201, R216, R218). -/
def Dev.slotOpen (d : Dev) (page : Nat) (s : Slot) : Bool :=
  d.placeOk page s && d.slotOnline s && !(d.tiers.evac.map (·.1) ++ d.tiers.evacHalt).any (fun e => d.evacSlot e s)

/-- The first free slot of a kind that a page may take. -/
def Dev.freeSlot (d : Dev) (page kind : Nat) : Option Slot := d.tiers.free.find? (fun s => s.k = kind && d.slotOpen page s)

def Dev.setLoc (d : Dev) (page : Nat) (l : Loc) : Dev := { d with tiers := { d.tiers with loc := Fmap.put d.tiers.loc page l } }
def Dev.setRots (d : Dev) (r : Fmap Rot) : Dev := { d with tiers := { d.tiers with rots := r } }
def Dev.setFree (d : Dev) (f : List Slot) : Dev := { d with tiers := { d.tiers with free := f } }

/-- A rotation register that runs no rotation. -/
def Dev.rotReg (d : Dev) : Option Nat := (List.range 16).find? (fun i => d.rotStatus i ≠ rsCopying && d.rotStatus i ≠ rsSwitching)

/-- The withheld slots of the tiers as start-up leaves them: the rotation reserve and what rounding leaves over, next to the
slots of the pages (R202, R207). -/
def Dev.dspReserve (d : Dev) : List Slot :=
  let g := d.asm.groups
  let s := ((List.range 16).filter (fun i => d.asm.hasStack i && d.fld Fld.SPARE_DSP_TOTAL i ≠ 0)).length
  let rest := (s * 64 * GiB - s * 326 * MiB - 1024 * MiB) % 2 ^ 28 / 2 ^ 26
  let z := d.zEnd / 2 ^ 26
  let q := (d.dspSize - d.zEnd) / 4 / 2 ^ 26
  if d.dspSize = 0 then [] else
  (List.range (8 + rest)).map (fun i => (⟨0, BitVec.ofNat 30 ((z + i) % g * 2 ^ 12 + (z + i) / g)⟩ : Slot)) ++
    (List.range 8).map (fun i => ⟨1, BitVec.ofNat 30 ((4 * (i / 2) + (q + i % 2) % g) * 2 ^ 12 + (1023 - (q + i % 2) / g))⟩)
def Dev.depReserve (d : Dev) : List Slot :=
  let c := d.chanCap
  let rest := (24 * c - 24 * (c / 200 / 2 ^ 21) * 2 ^ 21 - 1024 * MiB) % 2 ^ 28 / 2 ^ 26
  let per := d.depSize / 4 / 2 ^ 26
  if d.depSize = 0 then [] else
  (List.range (16 + rest)).map (fun i =>
    if d.groupMode then ⟨2, BitVec.ofNat 30 (i % 4 * (d.depotCap / 4 / 2 ^ 26) + per + i / 4)⟩
    else ⟨2, BitVec.ofNat 30 (d.depSize / 2 ^ 26 + i)⟩)

/-- Starts a rotation into a slot. -/
def Dev.rotStart (d : Dev) (i page : Nat) (dst : Slot) : Dev :=
  let src := (d.locOf page).at_
  let d := (d.setFree (eraseOne dst d.tiers.free)).setLoc page ⟨.rotating, src⟩
  let d := d.setRots (Fmap.put d.tiers.rots i { page := page, src := src, dst := dst })
  let d := ((d.setRotStatus i rsCopying).setFld Fld.ROT_STATE_ROUNDS i 0).setFld Fld.ROT_STATE_DEST_KIND i dst.k
  d.setFld Fld.ROT_STATE_PAGE i page

/-- ROTATE: the result and the ROT_STATE index (R216). -/
def Dev.rotate (d : Dev) (page kind : Nat) : Nat × Nat × Dev :=
  let l := d.locOf page
  if l.st = .unpopulated then (rNotFound, 0, d)
  else if kind > 2 || !([0, 1, 2].any (fun s => s = kind && d.placeOk page
      ⟨BitVec.ofNat 2 s, BitVec.ofNat 30 (if s = 1 then 4 * d.home (page * 2 ^ 26) * 2 ^ 12 else 0)⟩)) then (rInvalid, 0, d)
  else if l.st ≠ .resident then (rBusy, 0, d)
  else match d.rotReg with
    | none => (rBusy, 0, d)
    | some i =>
      match d.freeSlot page kind with
      | none => (rNoSpace, 0, d)
      | some s => (rOk, i, d.rotStart i page s)

/-- A rotation ends at its source; `dst` goes back to the reserve, or out of the pool when its channel failed. -/
def Dev.rotStop (d : Dev) (i status : Nat) : Dev :=
  match Fmap.find d.tiers.rots i with
  | none => d
  | some r =>
    let d := (d.setRots (Fmap.del d.tiers.rots i)).setLoc r.page ⟨.resident, r.src⟩
    let d := if status = rsFailed then { d with tiers := { d.tiers with lostSlots := d.tiers.lostSlots ++ [r.dst] } }
      else d.setFree (d.tiers.free ++ [r.dst])
    let d := d.setRotStatus i status
    if status = rsNoConverge || status = rsFailed then
      d.report (homeSrc (d.home (r.page * 2 ^ 26)) 6) (mkDetail (r.page * 2 ^ 26) i status) (d.extentWing (r.page * 2 ^ 26))
    else d

/-- Reads the units of a page that hold symbol errors, so that the copy is corrected or poisoned (Table 9-2). -/
def Dev.copyUnits (d : Dev) (inCopy : Nat → Bool) : Dev :=
  ((Fmap.keys d.tiers.errs).filter (fun u => inCopy (64 * u))).foldl (fun (d : Dev) u => (d.dramRead (64 * u) false).2.2) d

/-- No channel is FAULTED. -/
def Dev.noFault (d : Dev) : Bool := (List.range 9).all (fun i => d.fld Fld.CHAN_FAULT_FAULTED i = 0)

/-- Units that cannot be read arrive as poison. -/
def Dev.poisonUnits (d : Dev) (us : List Nat) : Dev :=
  { d with tiers := { d.tiers with poison := us.foldl insSorted d.tiers.poison,
                                   errs := d.tiers.errs.filter (fun c => !us.contains c.1),
                                   mem := us.foldl (fun m u => Memory.clear m (64 * u) 64) d.tiers.mem } }

/-- The 64-byte units of a page. -/
def pageUnits (page : Nat) : List Nat := (List.range (2 ^ 20)).map (fun k => page * 2 ^ 20 + k)

/-- Units of a page whose source channel is FAULTED arrive as poison (R230). -/
def Dev.copyFaulted (d : Dev) (page : Nat) (src : Slot) : Dev :=
  if d.noFault then d
  else d.poisonUnits ((pageUnits page).filter (fun u => d.chanFaulted (d.physIn src (64 * u)).chanNo))

/-- A unit of a slot, as a key. -/
def slotKey (s : Slot) (u : Nat) : Nat := (s.k * 2 ^ 30 + s.n) * 2 ^ 20 + u
/-- A key names a unit of a slot. -/
def keyIn (s : Slot) (key : Nat) : Bool := key / 2 ^ 20 = s.k * 2 ^ 30 + s.n

def Dev.setSlotErrs (d : Dev) (m : Fmap (List (Nat × Nat × Nat))) : Dev := { d with tiers := { d.tiers with slotErrs := m } }

/-- A copy stores lines of a page in a slot: what the slot held there is gone, and an armed injection takes the first write on
its channel (R240). -/
def Dev.copyStore (d : Dev) (page : Nat) (dst : Slot) (lines : Nat → Bool) : Dev :=
  let d := d.setSlotErrs (d.tiers.slotErrs.filter (fun c => !(keyIn dst c.1 && lines (c.1 % 2 ^ 20 / 4))))
  if d.fld Fld.MEMINJ_FLIP_ARMED 0 = 0 then d else
  let at_ (u : Nat) : Phys := d.physIn dst (page * 2 ^ 26 + 64 * u)
  match (List.range (2 ^ 20)).find? (fun u => lines (u / 4) && d.injHit (at_ u)) with
  | none => d
  | some u =>
    let (es, d) := d.injectAt (at_ u) none
    d.setSlotErrs (putErrs d.tiers.slotErrs (slotKey dst u) es)

/-- The stored errors of a page and of its slots when its entry switches: those of the new slot are the page's now, and those
that the page left behind are its old slot's. -/
def Dev.swapErrs (d : Dev) (page : Nat) (src dst : Slot) : Dev :=
  let t := d.tiers
  let mine (c : Nat × List (Nat × Nat × Nat)) : Bool := c.1 / 2 ^ 20 = page
  let old := t.errs.filter mine
  let new := t.slotErrs.filter (fun c => keyIn dst c.1)
  let errs := new.foldl (fun m c => Fmap.put m (page * 2 ^ 20 + c.1 % 2 ^ 20) c.2) (t.errs.filter (fun c => !mine c))
  let slots := old.foldl (fun m c => Fmap.put m (slotKey src (c.1 % 2 ^ 20)) c.2) (t.slotErrs.filter (fun c => !keyIn dst c.1))
  { d with tiers := { t with errs := errs, slotErrs := slots } }

/-- A page rotation of an evacuation failed: it ends and its stack stays EVACUATING (R218, R219). -/
def Dev.evacFail (d : Dev) (r : Rot) : Dev :=
  (d.tiers.evac.filter (fun p => d.evacSlot p.1 r.src)).foldl (fun (d : Dev) p =>
    ({ d with tiers := { d.tiers with evac := d.tiers.evac.filter (fun q => q.1 ≠ p.1),
                                      evacHalt := d.tiers.evacHalt ++ [p.1] } } : Dev).bgEnd
      (if p.1 < 16 then 0xC017 else 0xC018) (if p.1 < 16 then p.1 else p.1 - 16) rInternal []) d

/-- ROTATION_ROUND_END: every part has finished a round; the hold, another round, or NO_CONVERGE. -/
def Dev.rotRound (d : Dev) (i : Nat) : Dev :=
  match Fmap.find d.tiers.rots i with
  | none => d
  | some r =>
    let n := d.fld Fld.ROT_STATE_ROUNDS i
    if d.rotStatus i ≠ rsCopying || (n = 0 && d.fld Fld.CONS_STATE_DRAINING 0 ≠ 0) then d
    else
      let d := d.copyUnits (fun a => a / 2 ^ 26 = r.page)
      let d := if n = 0 then d.copyStore r.page r.dst (fun _ => true) else d
      let d := d.setFld Fld.ROT_STATE_ROUNDS i (n + 1)
      let part (m : Nat) : Nat := (r.marked.filter (fun l => d.home (r.page * 2 ^ 26 + 256 * l) = m)).length
      if (List.range 4).all (fun m => part m < 4096) then (d.setRotStatus i rsSwitching).setLoc r.page ⟨.held, r.src⟩
      else if n + 1 ≥ 8 then (d.rotStop i rsNoConverge).evacFail r
      else (d.copyStore r.page r.dst r.marked.contains).setRots (Fmap.put d.tiers.rots i { r with marked := [] })

/-- Requests that a held page kept waiting have been accepted: their homes serve them as lines and trackers become free, and
never answer Retry (R194, Table 8-6). -/
def Dev.releaseHeld (d : Dev) (page : Nat) : Dev :=
  let mine (r : Req) : Bool := r.line.toNat / 2 ^ 18 = page
  let w := { d.weave with held := d.weave.held.filter (fun r => !mine r), waitQ := d.weave.waitQ ++ d.weave.held.filter mine }
  (List.range 4).foldl (fun (d : Dev) m => Dev.drainHome m d.waitCount d) { d with weave := w }

/-! ### Evacuation (R218, R219) -/

/-- All populated pages. -/
def Dev.pages (d : Dev) : List Nat :=
  List.range (d.dspSize / 2 ^ 26) ++ (List.range (d.depSize / 2 ^ 26)).map (· + depotBase / 2 ^ 26)

def Dev.evacPages (d : Dev) (e : Nat) : List Nat := d.pages.filter (fun p => d.evacSlot e (d.locOf p).at_)

/-- A homed display page (R201). -/
def Dev.homedPage (d : Dev) (page : Nat) : Bool := decide (page * 2 ^ 26 < d.dspSize) && decide (d.zEnd ≤ page * 2 ^ 26)

/-- A slot an evacuated page may take: a homed page takes a homed slot of its M-die, else the depot; another page leaves a
stack for other striped slots first, and a channel for other depot slots first. -/
def Dev.evacDest (d : Dev) (e page : Nat) : Option Slot :=
  let free (k : Nat) : Option Slot := d.tiers.free.find? (fun s => s.k = k && d.slotOpen page s && !d.evacSlot e s)
  let order := if d.homedPage page then [1, 2] else if e ≥ 16 then [2, 0] else [0, 2]
  order.findSome? free

/-- Starts rotations of an evacuation while registers and slots are free. -/
def Dev.evacGo (d : Dev) (e : Nat) : Nat → Dev
  | 0 => d
  | n + 1 =>
    match d.rotReg, (d.evacPages e).find? (fun p => (d.locOf p).st = .resident) with
    | some i, some p =>
      (match d.evacDest e p with
        | some s => Dev.evacGo (d.rotStart i p s) e n
        | none => d)
    | _, _ => d

/-- Slots that are not free: those of pages, those that rotations fill, and those out of the pool. -/
def Dev.slotsTaken (d : Dev) : List Slot :=
  d.pages.map (fun p => (d.locOf p).at_) ++ d.tiers.rots.map (fun r => r.2.dst) ++ d.tiers.lostSlots

/-- The stacks and bays of a display slot. -/
def Slot.bays (s : Slot) : List (Nat × Nat) :=
  match s.k with
  | 0 => (List.range 4).map (fun m => (4 * m + s.n / 2 ^ 12 % 4, s.n % 2 ^ 12))
  | 1 => (List.range 4).map (fun i => (s.n / 2 ^ 12 % 16, 4 * (s.n % 2 ^ 10) + i))
  | _ => []

/-- Two slots share storage. -/
def Slot.clash (s t : Slot) : Bool := s = t || s.bays.any (fun b => t.bays.contains b)

/-- The homed slots of a stack that no page, rotation or failed slot touches and that are not in the pool yet, from the top
down, less the six that hold its spare frames (R202, R237; DESIGN CHOICE, notes/assumptions/65.md). -/
def Dev.homedRest (d : Dev) (t : Nat) (pool : List Slot) : List Slot :=
  let used := (d.slotsTaken ++ pool).filter (fun s => (d.slotStacks s).contains t)
  (((List.range 1024).reverse.map (fun i => (⟨1, BitVec.ofNat 30 (t * 2 ^ 12 + i)⟩ : Slot))).filter (fun s =>
    used.all (fun u => !s.clash u))).drop 6

/-- The last page has left: the stack is RETIRED and frees its group's bays; or the channels are EVACUATED. -/
def Dev.evacDone (d : Dev) (e : Nat) : Dev :=
  if e < 16 then
    let d := d.setStackState e 3
    let keep := d.tiers.free.filter (fun s => !(s.k = 0 && s.n / 2 ^ 12 % 4 = e % 4))
    let others := (List.range 16).filter (fun t => t % 4 = e % 4 && t ≠ e && d.asm.hasStack t)
    d.setFree (keep ++ others.flatMap (fun t => d.homedRest t keep))
  else (d.chanGroup (e - 16)).foldl (fun d c => if d.chanState c = 1 then d.setChanState c 2 else d) d

/-- A rotation still fills a slot of an evacuation: its page leaves after it has arrived. -/
def Dev.evacFilling (d : Dev) (e : Nat) : Bool := d.tiers.rots.any (fun r => d.evacSlot e r.2.dst)

/-- Goes on with every evacuation; one whose pages have all left ends. -/
def Dev.evacPump (d : Dev) : Dev :=
  d.tiers.evac.foldl (fun (d : Dev) p =>
    if (d.evacPages p.1).isEmpty && !d.evacFilling p.1 then
      let d := { d with tiers := { d.tiers with evac := d.tiers.evac.filter (fun q => q.1 ≠ p.1) } }
      (d.evacDone p.1).bgEnd (if p.1 < 16 then 0xC017 else 0xC018) (if p.1 < 16 then p.1 else p.1 - 16) rOk []
    else d.evacGo p.1 16) d

/-- STACK_EVACUATE and CHANNEL_EVACUATE: NO_SPACE, or it starts or resumes. -/
def Dev.evacuate (d : Dev) (e box : Nat) : Nat × Dev :=
  let ps := d.evacPages e
  let usable := d.tiers.free.filter (fun s => d.slotOnline s && !(e :: (d.tiers.evac.map (·.1) ++ d.tiers.evacHalt)).any (fun x => d.evacSlot x s))
  let fits (ok : Slot → Bool) : Nat := (usable.filter ok).length
  let homed (m : Nat) : List Nat := ps.filter (fun p => d.homedPage p && d.home (p * 2 ^ 26) = m)
  let ovr := (List.range 4).foldl (fun (t : Nat) m =>
    t + ((homed m).length - fits (fun s => s.k = 1 && s.n / 2 ^ 12 % 16 / 4 = m))) 0
  let rest := (ps.filter (fun p => !d.homedPage p)).length + ovr
  if ovr > fits (fun s => s.k = 2) || rest > fits (fun s => s.k = 2) + fits (fun s => s.k = 0) then (rNoSpace, d)
  else
    let d := if e < 16 then d.setStackState e 2 else d
    let es := (d.tiers.evac.filter (fun q => q.1 ≠ e)) ++ [(e, box)]
    let d : Dev := { d with tiers := { d.tiers with evac := es, evacHalt := d.tiers.evacHalt.filter (· ≠ e) } }
    (rOk, d.evacPump)

/-- ROTATION_SWITCH: the held copy ends, the entry switches, the held requests go on (R194, R216). -/
def Dev.rotSwitch (d : Dev) (i : Nat) : Dev :=
  match Fmap.find d.tiers.rots i with
  | none => d
  | some r =>
    if d.rotStatus i ≠ rsSwitching || d.weave.txns.any (fun t => t.1 / 2 ^ 18 = r.page) then d
    else
      let d := ((d.copyUnits (fun a => a / 2 ^ 26 = r.page)).copyStore r.page r.dst r.marked.contains).copyFaulted r.page r.src
      let d := ((d.swapErrs r.page r.src r.dst).setRots (Fmap.del d.tiers.rots i)).setLoc r.page ⟨.resident, r.dst⟩
      let d := (d.setFree (d.tiers.free ++ [r.src])).setRotStatus i rsDone
      (d.releaseHeld r.page).evacPump

/-- ROTATE_ABORT: refused once the switch has begun (Table 8-6). -/
def Dev.rotAbort (d : Dev) (i : Nat) : Nat × Dev :=
  if i ≥ 16 then (rInvalid, d)
  else if d.rotStatus i = rsCopying then
    match Fmap.find d.tiers.rots i with
    | some r => (rOk, (d.rotStop i rsAborted).evacFail r)
    | none => (rNotFound, d)
  else if d.rotStatus i = rsSwitching then (rBusy, d)
  else (rNotFound, d)

/-- Rotations still copying end ABORTED: of some pages, or all (Table 8-6). -/
def Dev.rotAbortAll (d : Dev) (p : Nat → Bool) : Dev :=
  (List.range 16).foldl (fun (d : Dev) i =>
    match Fmap.find d.tiers.rots i with
    | some r => if p r.page && d.rotStatus i = rsCopying then (d.rotStop i rsAborted).evacFail r else d
    | none => d) d

/-! ### Channel service (R229 to R232, R219) -/

/-- A place that names a channel only. -/
def chanPhys (c : Nat) : Phys := if c < 512 then ⟨false, c / 32, c % 32, 0⟩ else ⟨true, 0, c - 512, 0⟩

/-- Sets a channel's bit in CHAN_FAULT_i. -/
def Dev.setFault (d : Dev) (c : Nat) (on : Bool) : Dev :=
  let (i, b) := if c < 512 then (c / 64, c % 64) else (8, c - 512)
  if on then d.orFld Fld.CHAN_FAULT_FAULTED i (2 ^ b) else d.clrFld Fld.CHAN_FAULT_FAULTED i (2 ^ b)

/-- A channel becomes FAULTED; rotations into it fail (R230, Table 8-6). -/
def Dev.chanFault (d : Dev) (c : Nat) : Dev :=
  if d.chanFaulted c then d
  else
    let p := chanPhys c
    let d := (d.setFault c true).report (memSrc p .channelFault) (d.memDetail .channelFault none p false 0 63 63) noWing
    (List.range 16).foldl (fun (d : Dev) i =>
      match Fmap.find d.tiers.rots i with
      | some r => if d.rotStatus i = rsCopying && d.slotUses r.dst c then (d.rotStop i rsFailed).evacFail r else d
      | none => d) d

/-- A write that failed for good is lost: what its unit holds is a free value (R230; DESIGN CHOICE, notes/assumptions/65.md). -/
def Dev.loseWrite (d : Dev) (a : Nat) : Dev :=
  let (v, d) := d.draw
  let u := a / 64
  let t := d.tiers
  { d with tiers := { t with errs := Fmap.del t.errs u, poison := delSorted t.poison u,
                             mem := Memory.writeNat (Memory.clear t.mem (64 * u) 64) (64 * u) 64 (v % 2 ^ 512) } }

/-- PARITY_RETRY: one retry of a command on a channel; the third failure makes the channel FAULTED. -/
def Dev.parityRetry (d : Dev) (x : RetryIn) (ok : Bool) : Dev :=
  let c := x.chan.toNat
  if d.chanFaulted c then d
  else
    -- the line of a page that the command names lies on the channel
    let a := (x.at_.map BitVec.toNat).filter (fun a => d.populated a && (d.physOf a).chanNo = c)
    let p := (a.map d.physOf).getD (chanPhys c)
    let n := Fmap.get 0 d.tiers.retries c + 1
    let d := d.report (memSrc p .parityRetry) (d.memDetail .parityRetry a p false 0 63 63) ((a.map d.extentWing).getD noWing)
    let set (d : Dev) (v : Nat) : Dev :=
      { d with tiers := { d.tiers with retries := if v = 0 then Fmap.del d.tiers.retries c else Fmap.put d.tiers.retries c v } }
    if ok then set d 0
    else if n < 3 then set d n
    else
      let d := match a with
        | some a => if x.write then d.loseWrite a else d
        | none => d
      (set d 0).chanFault c

/-- Refresh rate of a stack at a temperature in half degrees, with the 3 °C hysteresis of R232. -/
def refreshRate (old t : Nat) : Nat :=
  if t > 190 then 2
  else if old = 2 && t > 184 then 2
  else if t > 170 then 1
  else if old ≥ 1 && t > 164 then 1
  else 0

/-- REFRESH_RATE_CHANGE of a stack, or of a depot channel's DIMMs. -/
def Dev.refresh (d : Dev) (depot : Bool) (i temp : Nat) : Dev :=
  if depot then
    if temp > 170 then d.orFld Fld.REFRESH_STATE_DEP 0 (2 ^ i) else d.clrFld Fld.REFRESH_STATE_DEP 0 (2 ^ i)
  else
    let x := d.fld Fld.REFRESH_STATE_DSP 0
    let old := x / 4 ^ i % 4
    d.setFld Fld.REFRESH_STATE_DSP 0 (x - old * 4 ^ i + refreshRate old temp * 4 ^ i)

/-- One bit of the CRC-16 of a repair record (R407). -/
def crc16Bit (c : Nat) (b : Bool) : Nat :=
  let t := (c / 2 ^ 15 % 2 = 1) != b
  let c := c * 2 % 2 ^ 16
  if t then c ^^^ 0x1021 else c
def crc16 (bs : List Nat) : Nat :=
  bs.foldl (fun (c : Nat) x => [7, 6, 5, 4, 3, 2, 1, 0].foldl (fun c i => crc16Bit c (x.testBit i)) c) 0xFFFF

def Dev.repairSlot (d : Dev) : Option Nat := (List.range 2048).find? (fun i => d.provByte (0x8000 + 16 * i) = 0xFF)
def Dev.repairUsed (d : Dev) : Nat := ((List.range 2048).filter (fun i => d.provByte (0x8000 + 16 * i) ≠ 0xFF)).length

/-- Bytes 0 to 13 of a record, appended with its CRC; a full history reports at 0x374. -/
def Dev.repairAdd (d : Dev) (bs : List Nat) : Bool × Dev :=
  match d.repairSlot with
  | none => (false, d.report 0x374 0 noWing)
  | some i =>
    let bs := (bs ++ List.replicate 14 0).take 14
    let c := crc16 bs
    let all := bs ++ [c % 256, c / 256]
    (true, { d with prov := ((List.range 16).zip all).foldl (fun (m : Fmap Byte) (p : Nat × Nat) =>
      Fmap.put m (0x8000 + 16 * i + p.1) (BitVec.ofNat 8 p.2)) d.prov })

/-- Lane repair of a display channel: spares first, then known bad pins, then FAULTED. -/
def Dev.laneRepair (d : Dev) (c : Nat) (t : TrainRes) : Dev :=
  let d := t.lanes.foldl (fun (d : Dev) (l : Nat) =>
    let used := Fmap.get 0 d.tiers.lanesUsed c
    if used < 2 then
      let d := { d with tiers := { d.tiers with lanesUsed := Fmap.put d.tiers.lanesUsed c (used + 1) } }
      (d.repairAdd [1, 0, c / 32, c % 32, 0, l, 0, 0, 0, 0, used, 0]).2
    else
      let p := chanPhys c
      let d := { d with tiers := { d.tiers with badPins := Fmap.put d.tiers.badPins c (insSorted (Fmap.get [] d.tiers.badPins c) l) } }
      d.report (memSrc p .laneDegraded) (d.memDetail .laneDegraded none p false (pinSym l).1 (pinSym l).2 63) noWing) d
  let bad := Fmap.get [] d.tiers.badPins c
  let half (h : Nat) : Nat := (bad.filter (fun l => (pinSym l).1 = h)).length
  let cmdBad := t.cmdLane && Fmap.get 0 d.tiers.lanesUsed (1024 + c) ≥ 1
  let d := if t.cmdLane && !cmdBad then
      (({ d with tiers := { d.tiers with lanesUsed := Fmap.put d.tiers.lanesUsed (1024 + c) 1 } } : Dev).repairAdd
        [1, 0, c / 32, c % 32, 0, 72, 0, 0, 0, 0, 2, 0]).2
    else d
  if half 0 > 1 || half 1 > 1 || cmdBad then d.chanFault c else d

/-! ### Patrol, counters, injection -/

/-- Units of a tier: every channel of every present stack, or 24 channels of the present capacity. -/
def Dev.tierUnits (d : Dev) (depot : Bool) : Nat := if depot then 24 * d.chanCap / 64 else d.asm.stacks * 2 ^ 30

/-- The patrol reads a unit of a slot that holds no page, by the channel controller alone: corrected codewords are stored, and
an uncorrectable line becomes zero (R233). -/
def Dev.patrolSlot (d : Dev) (s : Slot) (u : Nat) : Dev :=
  let p := d.physIn s (64 * u)
  let (bad, d) := d.pinErrs p
  let cs := cwClasses p.depot (Fmap.get [] d.tiers.slotErrs (slotKey s u) ++ bad) false
  let note (d : Dev) (k : MemEv) (c s0 s1 : Nat) : Dev := d.report (memSrc p k) (d.memDetail k none p true c s0 s1) noWing
  -- the write of the controller, which an armed injection may take
  let store (d : Dev) : Dev :=
    let (es, d) := d.injectAt p none
    d.setSlotErrs (putErrs d.tiers.slotErrs (slotKey s u) es)
  match cs.find? (fun c => c.2 = .uncorrectable) with
  | some c => note (store d) .uncorr c.1 63 63
  | none =>
    let two := cs.find? (fun c => match c.2 with | .corrected e => e.length = 2 | _ => false)
    let one := cs.find? (fun c => match c.2 with | .corrected e => e.length = 1 | _ => false)
    match two, one with
    | some (c, .corrected [x, y]), _ => note (store d) .corr2 c x.1 y.1
    | _, some (c, .corrected [x]) => note (store d) .corr1 c x.1 63
    | _, _ => d

/-- A slot of a tier that holds no page: free, out of the pool, or the destination of a rotation. -/
def Dev.idleSlot (d : Dev) (depot : Bool) (s : Slot) : Bool :=
  (s.k = 2) == depot && (d.tiers.free ++ d.tiers.lostSlots ++ d.tiers.rots.map (fun r => r.2.dst)).contains s

/-- The patrol of a tier reads one more sector or line of a page, of a slot without a page, or of a spare frame (R233). -/
def Dev.patrol (d : Dev) (depot : Bool) (x : PatrolAt) : Dev :=
  let en := d.fld (if depot then Fld.PATROL_CTRL_DEP_EN else Fld.PATROL_CTRL_DSP_EN) 0 = 1
  let total := d.tierUnits depot
  let waits : Bool := match x with
    | .page a => !d.lineOpen (a.toNat / 256)
    | _ => false
  if !en || total = 0 || waits then d
  else
    let d := match x with
      | .page a =>
        let p := d.physOf a.toNat
        if d.populated a.toNat && p.depot = depot && !d.chanFaulted p.chanNo then (d.dramRead (a.toNat / 64 * 64) true).2.2 else d
      | .slot s u =>
        if d.idleSlot depot s && !d.chanFaulted (d.physIn s (64 * u.toNat)).chanNo then d.patrolSlot s u.toNat else d
      | .spare => d
    let n := Fmap.get 0 d.tiers.patrolPos (b01 depot) + 1
    let pass := n ≥ total
    let n := if pass then 0 else n
    let d := { d with tiers := { d.tiers with patrolPos := Fmap.put d.tiers.patrolPos (b01 depot) n } }
    let d := d.setFld (if depot then Fld.PATROL_STATUS_DEP_PCT else Fld.PATROL_STATUS_DSP_PCT) 0 (100 * n / total)
    let f := if depot then Fld.PATROL_STATUS_DEP_PASSES else Fld.PATROL_STATUS_DSP_PASSES
    if pass then d.setFld f 0 (d.fld f 0 + 1) else d

/-- TIER_COUNTER_HALVING. -/
def Dev.heatHalve (d : Dev) : Dev :=
  if d.tick < d.tiers.lastHalf + d.fld Fld.TIER_INTERVAL_PERIOD 0 * 1000 then d
  else { d with tiers := { d.tiers with heat := Fmap.mapAll (fun _ h => h / 2) d.tiers.heat, lastHalf := d.tick } }

/-- MEMINJ_ARM: a write of MEMINJ_FLIP. -/
def Dev.memInj (d : Dev) (v : Nat) : Dev :=
  let depot := v.testBit 59
  let ch := v / 2 ^ 54 % 32
  let st := v / 2 ^ 50 % 16
  let online := if depot then ch < 24 && d.chanState ch = 1 && !d.chanFaulted (512 + ch)
    else d.stackState st = 1 && !d.chanFaulted (32 * st + ch)
  if v.testBit 63 && (d.fld Fld.MEMINJ_FLIP_ARMED 0 = 1 || !online) then d
  else
    let d := d.writeCard Crd.MEMINJ_FLIP 0 v
    if v.testBit 63 then d.setFld Fld.MEMINJ_FLIP_ARMED 0 1 else d

/-! ### Retirement (R237 to R239) -/

/-- Ranks of a depot channel: those of the DIMM in slot 0, then those in slot 1. -/
def Dev.chanRanks (d : Dev) : Nat := max 1 (d.fld Fld.DEP_LAYOUT_DPC 0) * d.tiers.ranks

/-- Banks and rows of a channel (R237, R479). -/
def Dev.frameOk (d : Dev) (f : Frame) : Bool :=
  if f.depot then
    let rank := d.chanCap / max 1 (d.fld Fld.DEP_LAYOUT_DPC 0) / max 1 d.tiers.ranks
    f.chan < 24 && d.chanState f.chan ≠ 0 && f.rank < d.chanRanks && f.bank < 32 && f.row % 128 = 0 && f.row < rank / 32 / 2 ^ 14
  else f.chan < 512 && d.asm.hasStack (f.chan / 32) && f.rank = 0 && f.bank < 64 && f.row % 1024 = 0 && f.row < 16384

/-- Frames of a bank. -/
def Dev.bankFrames (d : Dev) (f : Frame) : List Frame :=
  if f.depot then
    let rank := d.chanCap / max 1 (d.fld Fld.DEP_LAYOUT_DPC 0) / max 1 d.tiers.ranks
    (List.range (rank / 32 / 2 ^ 21)).map (fun i => { f with row := 128 * i })
  else (List.range 16).map (fun i => { f with row := 1024 * i })

/-- M-die of a channel. -/
def Frame.home (f : Frame) : Nat := if f.depot then f.chan / 6 else f.chan / 32 / 4

/-- A place lies in a frame. -/
def Dev.placeInFrame (d : Dev) (f : Frame) (p : Phys) : Bool :=
  let l := d.dramLoc p
  p.depot = f.depot && (if f.depot then p.chan else 32 * p.stack + p.chan) = f.chan && l.bank = f.bank &&
    (if f.depot then l.slot * d.tiers.ranks + l.rank = f.rank && f.row ≤ l.row && l.row < f.row + 128 else f.row ≤ l.row && l.row < f.row + 1024)

/-- A DPA lies in a frame. -/
def Dev.inFrame (d : Dev) (f : Frame) (a : Nat) : Bool := d.placeInFrame f (d.physOf a)

/-- A rotation in progress is on a page that uses the frame, in its old slot or its new one (Table 8-6). -/
def Dev.rotUses (d : Dev) (f : Frame) : Bool :=
  d.tiers.rots.any (fun r => [r.2.src, r.2.dst].any (fun s => d.slotUses s (if f.depot then 512 + f.chan else f.chan) &&
    (List.range (2 ^ 20)).any (fun k => d.placeInFrame f (d.physIn s (r.2.page * 2 ^ 26 + 64 * k)))))

/-- A wing in release has an extent that uses the frame: its scrub has not passed the frame (Table 15-5). -/
def Dev.releaseUses (d : Dev) (f : Frame) : Bool :=
  d.wings.any (fun w => d.wgState w.1 = wgReleasing && w.2.extents.any (fun e =>
    (List.range (e.2 / 64)).any (fun k => d.inFrame f (e.1 + 64 * k))))

def Dev.spareFree (d : Dev) (f : Frame) : Nat :=
  if f.depot then d.fld Fld.SPARE_DEP_FREE f.chan else d.fld Fld.SPARE_DSP_FREE (f.chan / 32)
def Dev.spareTotal (d : Dev) (f : Frame) : Nat :=
  if f.depot then d.fld Fld.SPARE_DEP_TOTAL f.chan else d.fld Fld.SPARE_DSP_TOTAL (f.chan / 32)
def Dev.setSpareFree (d : Dev) (f : Frame) (n : Nat) : Dev :=
  if f.depot then d.setFld Fld.SPARE_DEP_FREE f.chan n else d.setFld Fld.SPARE_DSP_FREE (f.chan / 32) n

/-- RETIRE_FRAME and RETIRE_BANK: starts a retirement, or refuses it. -/
def Dev.retire (d : Dev) (f : Frame) (bank : Bool) (box : Nat) : Nat × Dev :=
  let f := if bank then { f with row := 0 } else f
  if !d.frameOk f then (rInvalid, d)
  else
    let fs := (if bank then d.bankFrames f else [f]).filter (fun x => !d.tiers.retired.any (fun r => r.1 = x))
    if d.tiers.retiring.any (fun r => r.home = f.home) then (rBusy, d)
    else if d.spareFree f < fs.length || d.repairSlot.isNone then (rNoSpace, if d.repairSlot.isNone then (d.repairAdd []).2 else d)
    else
      let first := d.spareTotal f - d.spareFree f
      let d := d.setSpareFree f (d.spareFree f - fs.length)
      (rOk, { d with tiers := { d.tiers with retiring := d.tiers.retiring ++ [⟨f.home, fs, first, box, bank⟩] } })

/-- The copy of frames to their spares: corrected, with what cannot be read as poison, and its first write on an armed channel
takes the injection (R238, R240).  A spare frame lies on the channel of its frame. -/
def Dev.frameCopy (d : Dev) (fs : List Frame) : Dev :=
  let inF (a : Nat) : Bool := fs.any (fun f => d.inFrame f a)
  let d := d.copyUnits inF
  let bad := fs.any (fun f => d.chanFaulted (if f.depot then 512 + f.chan else f.chan))
  let d := if bad then d.poisonUnits ((d.pages.flatMap pageUnits).filter (fun u => inF (64 * u))) else d
  match fs with
  | [] => d
  | f :: _ =>
    let p := chanPhys (if f.depot then 512 + f.chan else f.chan)
    if !d.injHit p then d else
    match (d.pages.flatMap pageUnits).find? (fun u => inF (64 * u)) with
    | some u => d.inject (64 * u)
    | none => (d.injectAt p none).2

def le (n v : Nat) : List Byte := (List.range n).map (fun i => BitVec.ofNat 8 (v / 256 ^ i))

/-- RETIREMENT_SWITCH of home m: the frame's lines have been copied; the remap entries switch. -/
def Dev.retireSwitch (d : Dev) (m : Nat) : Dev :=
  match d.tiers.retiring.find? (fun r => r.home = m) with
  | none => d
  | some r =>
    if r.frames.any d.rotUses || r.frames.any d.releaseUses || d.weave.txns.any (fun t => r.frames.any (fun f => d.inFrame f (256 * t.1))) then d
    else
      let d := d.frameCopy r.frames
      let recOf (f : Frame) (sp : Nat) : List Nat :=
        let c := if f.depot then f.chan else f.chan % 32
        [if r.bank then 3 else 2, b01 f.depot, if f.depot then 0 else f.chan / 32, c, f.rank, f.bank,
         f.row % 256, f.row / 256 % 256, f.row / 65536 % 256, 0, sp % 256, sp / 256]
      let d := match r.frames with
        | f :: _ => (d.repairAdd (recOf f r.spare)).2
        | [] => d
      let ids := (List.range r.frames.length).map (· + r.spare)
      let d := { d with tiers := { d.tiers with retiring := eraseOne r d.tiers.retiring,
                                                retired := d.tiers.retired ++ r.frames.zip ids } }
      d.bgEnd (if r.bank then 0xC021 else 0xC020) m rOk (le 2 (if r.bank then r.frames.length else r.spare))

/-- A retirement interrupted by a FATAL leaves the frame in use (R239). -/
def Dev.retireStop (d : Dev) : Dev :=
  d.tiers.retiring.foldl (fun (d : Dev) r =>
    let d := match r.frames with
      | f :: _ => d.setSpareFree f (d.spareFree f + r.frames.length)
      | [] => d
    ({ d with tiers := { d.tiers with retiring := eraseOne r d.tiers.retiring } } : Dev).bgEnd
      (if r.bank then 0xC021 else 0xC020) r.home rInternal []) d

/-! ### Atrium pins (R213) -/

/-- Lines of a range. -/
def rangeLines (a n : Nat) : List Nat := (List.range (n / 256)).map (· + a / 256)

/-- Pinned lines a set would hold. -/
def Dev.pinFits (d : Dev) (w a n : Nat) : Bool :=
  let ways := ((List.range 16).filter (fun k => d.fldBit Fld.ATRIUM_WING_WAYS w k)).length
  let ls := rangeLines a n
  let key (l : Nat) : Nat × Nat := (d.home (256 * l), d.atriumSet (256 * l))
  let old := d.tiers.atrium.filter (fun x => x.2.pinned && d.extentWing (256 * x.2.line.toNat) = w && !ls.contains x.2.line.toNat)
  ls.all (fun l => (ls.filter (fun m => key m = key l)).length + (old.filter (fun x => key x.2.line.toNat = key l)).length + 1 ≤ ways)

/-- ATRIUM_PIN: loads or zeroes the lines and keeps them. -/
def Dev.atriumPin (d : Dev) (w a n : Nat) (zero : Bool) : Nat × Dev :=
  if d.asm.atriumBits = 0 then (rNoSpace, d)
  else if a % 256 ≠ 0 || n % 256 ≠ 0 || n = 0 then (rInvalid, d)
  else if !d.ownsRange w a n then (rDenied, d)
  else if !d.pinFits w a n then (rNoSpace, d)
  else
    (rOk, (rangeLines a n).foldl (fun (d : Dev) ln =>
      let fill (d : Dev) (k : Nat) (l : ALine) : Dev :=
        if zero then d.atriumPut k { l with valid := 15, dirty := 15, poison := 0, data := 0, pinned := true, nru := true }
        else
          let miss := (15 : BitVec 4) &&& ~~~l.valid
          let (l, d) := (sectList miss).foldl (fun (x : ALine × Dev) s =>
            let (v, p, d) := x.2.dramRead (256 * ln + 64 * s) false
            ({ x.1 with data := Line.setSector x.1.data s v, valid := setBit4 x.1.valid s,
                        poison := if p then setBit4 x.1.poison s else clrBit4 x.1.poison s }, d)) (l, d)
          d.atriumPut k { l with pinned := true, nru := true }
      match d.atriumFind (256 * ln) with
      | some (k, l) => fill d k l
      | none =>
        match d.atriumAlloc (256 * ln) with
        | some (k, d) => fill d k { line := BitVec.ofNat 40 ln }
        | none => d) { d with tiers := { d.tiers with pins := d.tiers.pins ++ [(BitVec.ofNat 4 w, a, n)] } })

/-- ATRIUM_UNPIN: dirty sectors are written back. -/
def Dev.atriumUnpin (d : Dev) (w a n : Nat) : Nat × Dev :=
  if d.asm.atriumBits = 0 then (rNotFound, d)
  else if a % 256 ≠ 0 || n % 256 ≠ 0 || n = 0 then (rInvalid, d)
  else if !d.ownsRange w a n then (rDenied, d)
  else
    (rOk, (rangeLines a n).foldl (fun (d : Dev) ln =>
      match d.atriumFind (256 * ln) with
      | some (k, l) => if l.pinned then (d.atriumClean l).atriumPut k { l with pinned := false, dirty := 0 } else d
      | none => d) { d with tiers := { d.tiers with pins := d.tiers.pins.filter (fun p => p ≠ (BitVec.ofNat 4 w, a, n)) } })

/-- Drops every atrium line of a wing without writing it back (Table 15-3 step 6). -/
def Dev.atriumDrop (d : Dev) (w : Nat) : Dev :=
  { d with tiers := { d.tiers with atrium := d.tiers.atrium.filter (fun x => d.extentWing (256 * x.2.line.toNat) ≠ w),
                                   pins := d.tiers.pins.filter (fun p => p.1.toNat ≠ w) } }

end Sys2Proof.Machine
end

