-- ==== Sys2Proof/Machine/Wings.lean ====
section
/-! DEFINITION. Wings (spec/15): grants, bindings, keys, windows, fencing of looms, scrub and release. -/

namespace Sys2Proof.Machine

/-! ### Resources (R372 to R377) -/

def Dev.wing (d : Dev) (w : Nat) : Wing := Fmap.get {} d.wings w
def Dev.setExtents (d : Dev) (w : Nat) (es : List (Nat × Nat)) : Dev :=
  { d with wings := Fmap.put d.wings w { d.wing w with extents := es } }

/-- The counts that WING_STATE_w and WING_RES_w show. -/
def Dev.showWing (d : Dev) (w : Nat) : Dev :=
  let d := d.setFld Fld.WING_STATE_LOOMS w (d.wingLooms w).length
  let d := d.setFld Fld.WING_STATE_EXTENTS w (d.wing w).extents.length
  let d := d.setFld Fld.WING_STATE_HEADS w ((d.wingHeads w).foldl (fun v h => v + 2 ^ h.toNat) 0)
  let qs := (List.range 512).filter (fun q => d.fld Fld.QUEUE_BIND_VALID q = 1 && d.fld Fld.QUEUE_BIND_WING q = w)
  (d.setFld Fld.WING_RES_QUEUES w qs.length).setFld Fld.WING_RES_ATRIUM_WAYS w (d.fld Fld.ATRIUM_WING_WAYS w)

/-- A wing that a command may add to: the refusal otherwise (R374, R382). -/
def Dev.wingUsable (d : Dev) (w : Nat) : Option Nat :=
  if w ≥ 16 then some rInvalid
  else if d.wgState w = wgFree then some rNotFound
  else if d.wgState w = wgReleasing then some rBusy
  else none

/-- Runs a command on a usable wing. -/
def Dev.onWing (d : Dev) (w : Nat) (f : Nat × Dev) : Nat × Dev :=
  match d.wingUsable w with
  | some r => (r, d)
  | none => f

/-- Draws a key from the registrar's random source (R379). -/
def Dev.keygen (d : Dev) (w : Nat) : Dev :=
  let (k, d) := d.draw
  { d with reg := { d.reg with keys := Fmap.put d.reg.keys w (BitVec.ofNat 512 k) } }

/-- Marks slot w loaded, with its tag. -/
def Dev.keyLoaded (d : Dev) (w id : Nat) : Dev :=
  (d.setFld Fld.WING_STATE_KEY_LOADED w 1).setFld Fld.WING_KEY_KEY_ID w id

/-- WING_CREATE (R374). -/
def Dev.wingCreate (d : Dev) (w policy : Nat) (keygen : Bool) : Nat × Dev :=
  if w = 0 || w ≥ 16 then (rInvalid, d)
  else if d.wgState w ≠ wgFree then (rBusy, d)
  else
    let d := (d.setFld Fld.WING_STATE_STATE w wgActive).setFld Fld.WING_STATE_POLICY w policy
    (rOk, if keygen then (d.keygen w).keyLoaded w 0 else d)

/-- WING_GRANT_LOOMS: every named loom is free and IDLE or STOPPED, or nothing is granted. -/
def Dev.grantLooms (d : Dev) (w : Nat) (ns : List LoomId) : Nat × Dev :=
  d.onWing w <|
    if ns.any (fun n => d.wingOf n ≠ noWing) then (rOverlap, d)
    else if ns.any (fun n => d.loomState n ≠ stIdle && d.loomState n ≠ stStopped) then (rBusy, d)
    else
      let d := { d with loomWing := ns.foldl (fun (m : Fmap Nat) (n : LoomId) => Fmap.put m n.toNat w) d.loomWing }
      (rOk, d.showWing w)

/-- All memory that belongs to a wing or is on its way to one. -/
def Dev.taken (d : Dev) : List (Nat × Nat) :=
  (d.wings.flatMap (fun c => c.2.extents)) ++ d.reg.fills.map (fun f => (f.base, f.len))

/-- WING_GRANT_EXTENTS starts the zero-fill of an extent (R375, R380). -/
def Dev.grantExtent (d : Dev) (w base units box : Nat) : Nat × Dev :=
  let n := units * 2 ^ 28
  let inTier (lo size : Nat) : Bool := lo ≤ base && base + n ≤ lo + size
  d.onWing w <|
    if units = 0 || base % 2 ^ 28 ≠ 0 || !(inTier 0 d.dspSize || inTier depotBase d.depSize) then (rInvalid, d)
    else if d.taken.any (fun e => overlap base n e.1 e.2) then (rOverlap, d)
    else if d.fld Fld.WING_STATE_KEY_LOADED w = 0 then (rInvalid, d)
    else if (d.wing w).extents.length + (d.reg.fills.filter (fun f => f.wing.toNat = w)).length ≥ 64 then (rNoSpace, d)
    else
      let fs := d.reg.fills ++ [⟨BitVec.ofNat 4 w, base, n, box⟩]
      (rOk, ({ d with reg := { d.reg with fills := fs } } : Dev).setFld Fld.WING_STATE_SCRUB_PCT w 0)

/-- Pages of a range. -/
def rangePages (base len : Nat) : List Nat := (List.range (len / 2 ^ 26)).map (· + base / 2 ^ 26)

/-- No transaction and no switch of a rotation holds a line of the range. -/
def Dev.rangeOpen (d : Dev) (base len : Nat) : Bool :=
  d.weave.txns.all (fun t => !(base ≤ 256 * t.1 && 256 * t.1 < base + len)) &&
    (rangePages base len).all (fun p => (d.locOf p).st ≠ .held)

/-- Lines of a range that the catalogue lists with a copy of a head. -/
def Dev.rangeHeld (d : Dev) (base len : Nat) : List Nat :=
  (Fmap.keys d.weave.cat).filter (fun l => base ≤ 256 * l && 256 * l < base + len && d.toClear l 15 ≠ 0)

/-- The scrub of a wing asks the heads for the copies that stand in its way. -/
def Dev.rangeAsk (d : Dev) (w : Nat) (base len : Nat) : Dev :=
  (d.rangeHeld base len).foldl (fun (d : Dev) l => d.askWrite (.scrub (BitVec.ofNat 4 w)) l 15) d

/-- Zeros written over a range as full-sector Writes through the homes: stored errors, poison and copies go, the sectors
behind a FAULTED channel stay, an armed injection takes its write, the page heat saturates (R375, R383, R215). -/
def Dev.zeroRange (d : Dev) (base len : Nat) : Dev :=
  let inR (a : Nat) : Bool := base ≤ a && a < base + len
  let lines := (Fmap.keys d.weave.cat).filter (fun l => inR (256 * l))
  let d := lines.foldl (fun (d : Dev) l => (List.range 4).foldl (fun (d : Dev) k => d.dropCopies l k) d) d
  let keep (u : Nat) : Bool := !inR (64 * u) || d.chanFaulted (d.physOf (64 * u)).chanNo
  let faulted := !((List.range 9).all (fun i => d.fld Fld.CHAN_FAULT_FAULTED i = 0))
  let mem := if faulted then d.tiers.mem.filter (fun c => keep (c.1 / 64)) else Memory.clear d.tiers.mem base len
  let d := { d with tiers := { d.tiers with
    mem := mem,
    poison := d.tiers.poison.filter keep,
    errs := d.tiers.errs.filter (fun c => keep c.1),
    atrium := d.tiers.atrium.filter (fun c => !inR (256 * c.2.line.toNat)),
    rots := Fmap.mapAll (fun _ r => if inR (r.page * 2 ^ 26) then { r with marked := List.range (2 ^ 18) } else r) d.tiers.rots } }
  let d := (rangePages base len).foldl (fun (d : Dev) p =>
    let ms := (List.range 4).filter (fun m => (List.range 64).any (fun i => d.home (p * 2 ^ 26 + i * 4096) = m))
    { d with tiers := { d.tiers with heat := ms.foldl (fun h m => Fmap.put h (4 * p + m) 0xFFFF) d.tiers.heat } }) d
  if d.fld Fld.MEMINJ_FLIP_ARMED 0 = 0 then d
  else
    (List.range (len / 64)).foldl (fun (d : Dev) i => d.inject (base + 64 * i)) d

/-- EXTENT_ZERO_FILL_COMPLETE: the oldest fill of a wing ends and its extent joins the wing. -/
def Dev.fillDone (d : Dev) (w : WingId) : Dev :=
  match d.reg.fills.find? (fun f => f.wing = w) with
  | none => d
  | some f =>
    if !d.rangeOpen f.base f.len then d
    else if !(d.rangeHeld f.base f.len).isEmpty then d.rangeAsk w.toNat f.base f.len
    else
      let d := (d.endAsks (.scrub w)).zeroRange f.base f.len
      let d := { d with reg := { d.reg with fills := eraseOne f d.reg.fills } }
      let es := (d.wing w.toNat).extents ++ [(f.base, f.len)]
      let d := ((d.setExtents w.toNat es).showWing w.toNat).setFld Fld.WING_STATE_SCRUB_PCT w.toNat 100
      d.bgEnd 0xC001 f.base rOk []

/-- WING_GRANT_REGION_RANGE (R248). -/
def Dev.grantRegions (d : Dev) (w first count : Nat) : Nat × Dev :=
  let base (v : Nat) := d.fld Fld.WING_RES_REGION_BASE v
  let cnt (v : Nat) := d.fld Fld.WING_RES_REGION_COUNT v
  d.onWing w <|
    if first + count > 4096 then (rInvalid, d)
    else if (List.range (cnt w)).any (fun i => d.rgState (base w + i) ≠ rgDisabled) then (rBusy, d)
    else if (List.range 16).any (fun v => v ≠ w && overlap first count (base v) (cnt v)) then (rOverlap, d)
    else
      (rOk, (d.setFld Fld.WING_RES_REGION_BASE w (if count = 0 then 0 else first)).setFld Fld.WING_RES_REGION_COUNT w count)

/-- WING_GRANT_ATRIUM_WAYS: ways are added to the wing's mask; one way stays outside every mask (R211, R372). -/
def Dev.grantWays (d : Dev) (w ways alloc : Nat) : Nat × Dev :=
  let all := (List.range 16).foldl (fun v u => v ||| d.fld Fld.ATRIUM_WING_WAYS u) 0
  d.onWing w <|
    if alloc > 2 then (rInvalid, d)
    else if all &&& ways ≠ 0 then (rOverlap, d)
    else if d.asm.atriumBits = 0 || all ||| ways = 0xFFFF then (rNoSpace, d)
    else
      let d := (d.setFld Fld.ATRIUM_WING_WAYS w (d.fld Fld.ATRIUM_WING_WAYS w ||| ways)).setFld Fld.ATRIUM_WING_ALLOC w alloc
      (rOk, d.showWing w)

/-- WING_GRANT_WINDOW_BITS. -/
def Dev.grantWindows (d : Dev) (w peers : Nat) : Nat × Dev :=
  let old := d.fld Fld.WING_STATE_WINDOWS w
  d.onWing w <|
    if old &&& peers ≠ 0 then (rOverlap, d) else (rOk, d.setFld Fld.WING_STATE_WINDOWS w (old ||| peers))

/-- KEY_LOAD (R379, R380). -/
def Dev.keyLoad (d : Dev) (w id : Nat) (key : BitVec 512) : Nat × Dev :=
  d.onWing w <|
    if !(d.wing w).extents.isEmpty || d.reg.fills.any (fun f => f.wing.toNat = w) then (rBusy, d)
    else (rOk, ({ d with reg := { d.reg with keys := Fmap.put d.reg.keys w key } } : Dev).keyLoaded w id)

/-! ### Heads and queues (R297, R320, R377) -/

/-- A head exists in the port configuration (R317). -/
def Dev.headExists (d : Dev) (h : Nat) : Bool := d.asm.hasHead h && (h % 2 = 0 || d.bifur.getLsbD (h / 2))

/-- A head leaves its wing: its link goes down with the outcomes of the old binding. -/
def Dev.unbindHead (d : Dev) (h : HeadId) : Dev :=
  let w := d.headWing h
  let d := d.linkDown h
  let d := (d.setFld Fld.HEAD_STATUS_PERSONALITY h.toNat 0).setFld Fld.HEAD_STATUS_WING h.toNat 0
  let d := d.resetCard Crd.HDM_DPA (fun i => i / 4 = h.toNat)
  let d := (d.setFld Fld.HEAD_STATUS_FROZEN h.toNat 0).setFld Fld.HEAD_STATUS_FREEZE_CAUSE h.toNat 0
  let d := d.setHead h { d.head h with dcRegions := [], dc := [] }
  let d := { d with trans := { d.trans with atc := d.trans.atc.filter (fun a => a.head ≠ h) } }
  if w < 16 then d.showWing w else d

/-- The decoders of a head map a wing's extents in order, as far as they go (R321; DEDUCED, notes/assumptions/68.md). -/
def Dev.mapHdm (d : Dev) (h : HeadId) (w : Nat) : Dev :=
  let es := (d.wing w).extents
  (List.range 4).foldl (fun (d : Dev) n =>
    let k := 4 * h.toNat + n
    match es[n]? with
    | some e => (d.setFld Fld.HDM_DPA_BASE k (e.1 / 2 ^ 28)).setFld Fld.HDM_DPA_VALID k 1
    | none => (d.setFld Fld.HDM_DPA_BASE k 0).setFld Fld.HDM_DPA_VALID k 0) d

/-- HEAD_BIND (R320, Table 16-5 note 4). -/
def Dev.headBind (d : Dev) (h w pers : Nat) (hdm : List Nat) : Nat × Dev :=
  let hh := BitVec.ofNat 4 h
  let base (v : Nat) : Nat := v &&& 0x0000FFFFF0000000
  let u (a : Nat) : Nat := if aliasBase ≤ a && a < remoteBase then a - aliasBase else a
  if h = 0 || h ≥ 16 || (pers ≠ 0 && pers ≠ 2 && pers ≠ 3) then (rInvalid, d)
  else if !d.headExists h then (rNotFound, d)
  else if pers = 0 then (rOk, d.unbindHead hh)
  else if w = 0 then (rInvalid, d)
  else d.onWing w <|
    if d.personality hh ≠ 0 && d.headWing hh ≠ w then (rOverlap, d)
    else if hdm.any (fun v => v ≠ base v + v % 2) then (rInvalid, d)
    else if hdm.any (fun v => v % 2 = 1 && d.extentWing (u (base v)) ≠ w) then (rDenied, d)
    else
      let d := if d.personality hh ≠ 0 then d.unbindHead hh else d
      let d := (d.setFld Fld.HEAD_STATUS_PERSONALITY h pers).setFld Fld.HEAD_STATUS_WING h w
      let d := ((List.range 4).zip hdm).foldl (fun (d : Dev) (p : Nat × Nat) =>
        (d.setFld Fld.HDM_DPA_BASE (4 * h + p.1) (p.2 / 2 ^ 28 % 2 ^ 20)).setFld Fld.HDM_DPA_VALID (4 * h + p.1) (p.2 % 2)) d
      let d := d.setHead hh { d.head hh with rrs := !d.layoutDone }
      (rOk, (d.setFld Fld.HEAD_STATUS_PRESERVED h (b01 (d.wgState w = wgPreserved))).showWing w)

/-- Frees a queue: its registers return to reset. -/
def Dev.unbindQueue (d : Dev) (q : Nat) : Dev :=
  let cs := allCards.filter (fun c => c.block = .doorbell)
  let d := cs.foldl (fun (d : Dev) c => d.resetCard c (· = q)) d
  { d with queues := Fmap.del d.queues q }

/-- QUEUE_BIND: binds a range of queues, or unbinds disabled ones. -/
def Dev.queueBind (d : Dev) (w h prio first count : Nat) : Nat × Dev :=
  let qs := (List.range count).map (· + first)
  if first + count > 512 || count = 0 then (rInvalid, d)
  else if w = 0xFF then
    if h ≠ 0 || prio ≠ 0 then (rInvalid, d)
    else if qs.any (fun q => d.fld Fld.QUEUE_CTRL_ENABLE q = 1 || (d.queue q).cur.isSome || !(d.queue q).rest.isEmpty) then (rBusy, d)
    else
      let ws := (qs.filter (fun q => d.fld Fld.QUEUE_BIND_VALID q = 1)).map (fun q => d.fld Fld.QUEUE_BIND_WING q)
      (rOk, ws.foldl Dev.showWing (qs.foldl Dev.unbindQueue d))
  else d.onWing w <|
    if h ≥ 16 || prio > 3 then (rInvalid, d)
    else if d.headWing (BitVec.ofNat 4 h) ≠ w then (rDenied, d)
    else if qs.any (fun q => d.fld Fld.QUEUE_BIND_VALID q = 1) then (rOverlap, d)
    else
      let d := qs.foldl (fun (d : Dev) q =>
        (((d.setFld Fld.QUEUE_BIND_VALID q 1).setFld Fld.QUEUE_BIND_WING q w).setFld Fld.QUEUE_BIND_HEAD q h).setFld
          Fld.QUEUE_BIND_XDIE q (h / 4)) d
      (rOk, (d.setFld Fld.WING_RES_PRIO_MAX w prio).showWing w)

/-! ### Windows of the receiving side (R366, R368) -/

def Dev.window (d : Dev) (p e : Nat) : BitVec 64 := Fmap.get 0 d.reg.windows (32768 * p + e)

/-- Reserved bits of Table 14-6. -/
def windowReserved (v : BitVec 64) : Bool := v.extractLsb' 19 3 ≠ 0 || v.extractLsb' 1 14 ≠ 0

/-- WINDOW_SET. -/
def Dev.windowSet (d : Dev) (p first : Nat) (es : List (BitVec 64)) : Nat × Dev :=
  if p ≥ 8 || es.isEmpty || es.length > 256 || first + es.length > 32768 || es.any windowReserved then (rInvalid, d)
  else
    let ws := ((List.range es.length).zip es).foldl
      (fun (m : Fmap (BitVec 64)) (x : Nat × BitVec 64) => Fmap.put m (32768 * p + first + x.1) x.2) d.reg.windows
    (rOk, { d with reg := { d.reg with windows := ws } })

/-! ### Preserve and resume (R381) -/

/-- WING_PRESERVE. -/
def Dev.wingPreserve (d : Dev) (w : Nat) : Nat × Dev := d.onWing w (rOk, d.preserveWing w)

/-- WING_RESUME. -/
def Dev.wingResume (d : Dev) (w : Nat) : Nat × Dev :=
  d.onWing w <|
    if d.wgState w = wgActive then (rOk, d)
    else (rOk, (d.wingLooms w).foldl Dev.unpause (d.setWgState w wgActive))

/-! ### Fence, scrub and return of looms (R118, R376, R383) -/

/-- Orders a loom to be fenced: PAUSED and stopped looms are FENCED at once, a RUNNING one at its boundary. -/
def Dev.fenceLoom (d : Dev) (n : LoomId) : Dev :=
  let s := d.loomState n
  if s = stRunning then d.askStop n .fenced
  else if s = stPaused then
    (((d.setFld Fld.TREADLE_STATUS_ERROR_CODE n.toNat ErrCode.stopRequested.code).setFld Fld.TREADLE_PC_PC n.toNat
      (d.loom n).pc.toNat).quitGroup n).setLoomState n stFenced
  else if s = stIdle || s = stStopped then (d.quitGroup n).setLoomState n stFenced
  else d

/-- LOOM_FENCE. -/
def Dev.loomFence (d : Dev) (w n : Nat) : Nat × Dev :=
  let l := BitVec.ofNat 12 n
  d.onWing w <|
    if n ≥ 4096 then (rInvalid, d)
    else if d.wingOf l ≠ w then (rDenied, d)
    else if d.loomState l = stFenced || d.loomState l = stScrubbing then (rBusy, d)
    else (rOk, d)

/-- LOOM_ADMIT. -/
def Dev.loomAdmit (d : Dev) (w n : Nat) : Nat × Dev :=
  let l := BitVec.ofNat 12 n
  d.onWing w <|
    if n ≥ 4096 then (rInvalid, d)
    else if d.wingOf l ≠ w then (rDenied, d)
    else if d.loomState l ≠ stFenced then (rBusy, d)
    else (rOk, d.setLoomState l stIdle)

/-- Nothing of a stopped loom is under way. -/
def Dev.loomQuiet (d : Dev) (n : LoomId) : Bool :=
  let l := d.loom n
  let s := d.loomState n
  (s = stIdle || s = stStopped || s = stFenced || s = stScrubbing) && l.pend.isEmpty && l.evict.isEmpty && l.stb.isEmpty &&
    l.xferRun.isEmpty && l.xferQ.isEmpty && l.arrayRun.isNone && l.drainQ.isEmpty && l.cleanTags.isEmpty &&
    l.cache.all (fun c => d.lineOpen c.2.line.toNat)

/-- Fences that were ordered and that waiting looms have not yet met; a LOOM_FENCE ends when its loom is FENCED; the looms
of a wing in release whose stores and write-backs have ended are SCRUBBING, and their tiles wake (Table 15-3 steps 3 and 4,
Table 17-1). -/
def Dev.fencePump (d : Dev) : Dev :=
  let d := (d.reg.bg.filter (fun b => b.op = 0xC00C)).foldl (fun (d : Dev) b =>
    let n := BitVec.ofNat 12 b.obj
    let d := if d.loomState n = stFenced then d else d.fenceLoom n
    if d.loomState n = stFenced || d.wingOf n = noWing then d.bgEnd 0xC00C b.obj rOk [] else d) d
  ((List.range 16).filter (fun w => d.wgState w = wgReleasing)).foldl (fun (d : Dev) w =>
    let ns := d.wingLooms w
    let d := ns.foldl (fun (d : Dev) n => if d.loomState n = stRunning then d.fenceLoom n else d) d
    if ns.all d.loomQuiet && ns.any (fun n => d.loomState n ≠ stScrubbing) then
      ns.foldl (fun (d : Dev) n => (d.setLoomState n stScrubbing).wakeTile (loomTile n.toNat)) d
    else d) d

/-- A stopped loom writes back and invalidates its data cache; locked lines keep their way, without data (R150, R182, R195). -/
def Dev.loomFlush (d : Dev) (n : LoomId) : Dev :=
  let d := (d.loom n).cache.foldl (fun (d : Dev) c =>
    let line := c.2.line.toNat
    let dirty := (List.range 4).filter (fun k => c.2.st k = .m || c.2.st k = .o)
    let d := if dirty.isEmpty then d
      else d.writeLine line (dirty.foldl (fun m k => m ||| fullMask k) 0) c.2.data 0 false
    let e := (List.range 4).foldl (fun (e : CatEnt) k =>
      let s := e.sec k
      if (s.st = .excl || s.st = .owned) && s.owner = n.toNat then
        e.setSec k (if s.st = .owned then { st := .shared } else {})
      else e) (d.ent line)
    let e := if e.lists n.toNat then e.dropSharer n.toNat else e
    let e := if !e.coarse && e.ptrs.isEmpty then
        (List.range 4).foldl (fun (e : CatEnt) k => if (e.sec k).st = .shared then e.setSec k {} else e) e
      else e
    d.setEnt line e) d
  d.setLoom n { d.loom n with cache := ((d.loom n).cache.filter (fun c => c.2.lock)).map (fun c =>
    (c.1, { c.2 with s0 := .i, s1 := .i, s2 := .i, s3 := .i })) }

/-- A loom's state is cleared and it is IDLE (Table 15-4); barrier groups do not keep it. -/
def Dev.scrubLoom (d : Dev) (n : LoomId) : Dev :=
  let cs := allCards.filter (fun c => c.block = .loomStatus || c.block = .loomSys)
  let d := cs.foldl (fun (d : Dev) c => d.resetCard c (· = n.toNat)) ((d.loomFlush n).quitGroup n)
  { d with looms := Fmap.del d.looms n.toNat, loomWing := Fmap.del d.loomWing n.toNat }

/-- LOOM_RETURN: refusal, or none while the loom is being fenced or its tile wakes for the scrub (R376, R410). -/
def Dev.loomReturn (d : Dev) (w n : Nat) : Option Nat × Dev :=
  let l := BitVec.ofNat 12 n
  match d.wingUsable w with
  | some r => (some r, d)
  | none =>
    if n ≥ 4096 then (some rInvalid, d)
    else if d.wingOf l ≠ w then (some rDenied, d)
    else
      let d := if d.loomState l = stFenced || d.loomState l = stScrubbing then d else d.fenceLoom l
      if !d.loomQuiet l then (none, d)
      else
        let d := (d.setLoomState l stScrubbing).wakeTile (loomTile n)
        if d.fld Fld.TILE_STATE_STATE (loomTile n) ≠ 3 then (none, d)
        else (some rOk, (d.scrubLoom l).showWing w)

/-! ### Release (R382 to R385, R481) -/

/-- A queue stops without a record (Table 12-6). -/
def Dev.queueDrop (d : Dev) (q : Nat) : Dev :=
  let d := d.leaveDesc q
  ({ d with queues := Fmap.del d.queues q }).setFld Fld.QUEUE_CTRL_ENABLE q 0

def Dev.wingQueues (d : Dev) (w : Nat) : List Nat :=
  (List.range 512).filter (fun q => d.fld Fld.QUEUE_BIND_VALID q = 1 && d.fld Fld.QUEUE_BIND_WING q = w)
def Dev.wingRegions (d : Dev) (w : Nat) : List Nat :=
  (List.range (d.fld Fld.WING_RES_REGION_COUNT w)).map (· + d.fld Fld.WING_RES_REGION_BASE w)

/-- WING_RELEASE: steps 1 and 2 of Table 15-3, and the order of step 3; a zero-fill of the wing ends BUSY (R375). -/
def Dev.wingRelease (d : Dev) (w box : Nat) : Nat × Dev :=
  d.onWing w <|
    let d := d.setWgState w wgReleasing
    let d := ((d.wingHeads w).filter (· ≠ 0)).foldl Dev.unbindHead d
    let d := (d.wingQueues w).foldl Dev.queueDrop d
    let d := (d.wingRegions w).foldl (fun (d : Dev) r => d.abortRegion r 16) d
    let d := d.rotAbortAll (fun p => d.extentWing (p * 2 ^ 26) = w)
    let fs := d.reg.fills.filter (fun f => f.wing.toNat = w)
    let d := fs.foldl (fun (d : Dev) f =>
      ({ d with reg := { d.reg with fills := eraseOne f d.reg.fills } } : Dev).bgEnd 0xC001 f.base rBusy []) d
    let d := (d.wingLooms w).foldl Dev.fenceLoom d
    let d := d.setFld Fld.WING_STATE_SCRUB_PCT w 0
    (rOk, { d with reg := { d.reg with rel := Fmap.put d.reg.rel w { box := box } } })

/-- The looms are quiet and their tiles awake for the scrub, the runs have stopped, and nothing is open on the wing's memory. -/
def Dev.releaseReady (d : Dev) (w : Nat) : Bool :=
  d.wgState w = wgReleasing && (d.wingLooms w).all d.loomQuiet &&
    (d.wingLooms w).all (fun n => d.loomState n = stScrubbing && d.fld Fld.TILE_STATE_STATE (loomTile n.toNat) = 3) &&
    (d.wingRegions w).all (fun r => (d.runOf r).isNone) && (d.wing w).extents.all (fun e => d.rangeOpen e.1 e.2)

/-- Translation state of a wing goes (Table 15-4). -/
def Dev.scrubTrans (d : Dev) (w : Nat) : Dev :=
  let tr := d.trans
  let mine (x : WingId) : Bool := x.toNat = w
  let hs := d.wingHeads w
  let d := d.endWalks (fun x => mine x.wing)
  { d with trans := { tr with
      dieTlb := Fmap.mapAll (fun _ l => l.filter (fun t => !mine t.wing)) tr.dieTlb,
      pwc := Fmap.mapAll (fun _ l => l.filter (fun t => !mine t.1)) tr.pwc,
      walks := d.trans.walks,
      recs := tr.recs.filter (fun x => !mine x.wing),
      unrecorded := tr.unrecorded.filter (fun x => !mine x.wing),
      fqWait := tr.fqWait.filter (fun x => !mine x.wing),
      nextTag := Fmap.del tr.nextTag w,
      atc := tr.atc.filter (fun x => !hs.contains x.head),
      ats := tr.ats.filter (fun x => !mine x.wing),
      inval := tr.inval.filter (fun x => !mine x.wing),
      counts := tr.counts.filter (fun c => c.1 / 2 ^ 36 % 16 ≠ w) } }

/-- WING_RELEASE_COMPLETE: steps 3 to 8. -/
def Dev.releaseDone (d : Dev) (w : Nat) : Dev :=
  if !d.releaseReady w then d
  else if (d.wing w).extents.any (fun e => !(d.rangeHeld e.1 e.2).isEmpty) then
    (d.wing w).extents.foldl (fun (d : Dev) e => d.rangeAsk w e.1 e.2) d
  else
    let d := d.endAsks (.scrub (BitVec.ofNat 4 w))
    let looms := d.wingLooms w
    let d := looms.foldl Dev.loomFlush d
    let d := looms.foldl Dev.scrubLoom d
    let ws := d.reg.windows.filter (fun c => !((c.2.extractLsb' 22 4).toNat = w && c.2.getLsbD 0))
    let d := { d with reg := { d.reg with windows := ws } }
    let d := (d.wing w).extents.foldl (fun (d : Dev) e => d.zeroRange e.1 e.2) (d.atriumDrop w)
    let d := d.scrubTrans w
    let rs := d.wingRegions w
    let d := rs.foldl (fun (d : Dev) r => (d.regionClose r).resetCard Crd.REGION_STATUS (· = r)) d
    let d := (d.wingQueues w).foldl Dev.unbindQueue d
    let cs := allCards.filter (fun c => c.block = .trans)
    let d := cs.foldl (fun (d : Dev) c => d.resetCard c (· = w)) d
    let d := ((d.resetCard Crd.ATRIUM_WING (· = w)).resetCard Crd.HDM_DPA (fun i => w = 0 && i / 4 = 0))
    let d := ([Crd.WING_STATE, Crd.WING_RES, Crd.WING_KEY].foldl (fun (d : Dev) c => d.resetCard c (· = w)) d)
    let d := { d with groups := d.groups.filter (fun c => c.1 / 64 ≠ w), wings := Fmap.del d.wings w }
    let d := { d with reg := { d.reg with keys := Fmap.del d.reg.keys w, rel := Fmap.del d.reg.rel w } }
    let d := if w = 0 then (d.setWgState 0 wgActive).showWing 0 else d
    (d.report 0x376 (mkDetail 0 w 0) noWing).bgEnd 0xC003 w rOk []

/-! ### Queries (R399, R400) -/

/-- Output of WING_QUERY. -/
def Dev.wingQuery (d : Dev) (w : Nat) : List Byte :=
  let es := (d.wing w).extents
  le 512 ((d.wingLooms w).foldl (fun v n => v + 2 ^ n.toNat) 0) ++ le 8 es.length ++
    es.flatMap (fun e => le 8 e.1 ++ le 4 (e.2 / 2 ^ 28) ++ le 4 0)

/-- Output of STATE_DESCRIPTOR (Table 16-6). -/
def Dev.stateDescriptor (d : Dev) (w : Nat) : List Byte :=
  let qs := (d.wingQueues w).filter (fun q => d.fld Fld.QUEUE_STATUS_HEAD_RESET q = 1)
  let recs := (d.trans.recs.filter (fun r => r.wing.toNat = w)).length
  let cnt (s : Nat) : Nat := ((d.wingRegions w).filter (fun r => d.rgState r = s)).length
  let st (n : Nat) : Nat := if d.wingOf (BitVec.ofNat 12 n) = w then d.loomState (BitVec.ofNat 12 n) else 15
  le 8 (d.card Crd.WING_STATE w) ++ le 8 (d.card Crd.WING_RES w) ++ le 64 (qs.foldl (fun v q => v + 2 ^ q) 0) ++ le 2 recs ++
    le 2 (cnt rgOpen) ++ le 2 (cnt rgWaiting) ++ le 2 (cnt rgRunning) ++ le 2 (cnt rgFaulted) ++ le 6 0 ++
    (List.range 2048).map (fun i => BitVec.ofNat 8 (st (2 * i) + 16 * st (2 * i + 1)))

end Sys2Proof.Machine
end

