-- ==== Sys2Proof/Machine/Mailbox.lean ====
section
/-! DEFINITION. Mailboxes (spec/16): acceptance, the checks every command passes, its end. -/

namespace Sys2Proof.Machine

/-- Opcodes the registrar knows (Tables 16-4, 16-5); the numbers of the standard commands are CXL 3.1's. -/
def mbOpcodes : List Nat :=
  [0x0001, 0x0002, 0x0003, 0x0004, 0x0005, 0x0100, 0x0101, 0x0102, 0x0103, 0x0200, 0x0201, 0x0202, 0x0300, 0x0301,
   0x0400, 0x0401, 0x4000, 0x4200, 0x4201, 0x4202, 0x4800, 0x4801, 0x4802, 0x4803, 0x5500, 0x5501,
   0x5600, 0x5601, 0x5602, 0x5603, 0x5604, 0x5605,
   0xC000, 0xC001, 0xC002, 0xC003, 0xC004, 0xC005, 0xC006, 0xC007, 0xC008, 0xC009, 0xC00A, 0xC00B, 0xC00C, 0xC00D,
   0xC010, 0xC011, 0xC012, 0xC013, 0xC014, 0xC015, 0xC016, 0xC017, 0xC018, 0xC019, 0xC01A, 0xC020, 0xC021, 0xC022,
   0xC030, 0xC031, 0xC032, 0xC033, 0xC034, 0xC035, 0xC040, 0xC041, 0xC042, 0xC043, 0xC050, 0xC051, 0xC052, 0xC053,
   0xC054]

/-- CXL return codes (Table 16-3; the numbers are CXL 3.1's). -/
def retOk : Nat := 0
def retBg : Nat := 1
def retInvalid : Nat := 2
def retUnsupported : Nat := 3
def retInternal : Nat := 4
def retBusy : Nat := 6
def retFwTransfer : Nat := 0x8
def retFwOrder : Nat := 0x9
def retFwVerify : Nat := 0xA
def retFwSlot : Nat := 0xB
def retFwRolledBack : Nat := 0xC
def retLength : Nat := 0x16

/-- The CXL return code of a RESULT (Table 16-3). -/
def retOf (r : Nat) : Nat := if r = rOk then retOk else if r = rBusy then retBusy else if r = rInternal then retInternal else retInvalid

/-- Boxes: 0 to 15 and 16 to 31 of the heads, 32 MCTP, 33 a secured session; 64 more where the result is discarded. -/
def boxMctp : Nat := 32
def boxSec : Nat := 33
def MbCmd.place (c : MbCmd) : Nat := c.box % 64

/-- A box is reached: MCTP and secured sessions while the registrar's image runs, a head's boxes as its BAR 0 block
(R339, R393, R464). -/
def Dev.boxServed (d : Dev) (box : Nat) : Bool :=
  let h := BitVec.ofNat 4 (box % 16)
  ((box = boxMctp || box = boxSec) && d.reg.running) || (box < 32 && d.served h && d.barsOn h && !d.frozen h)

/-- Ends a command: it leaves the queue, and its mailbox shows the return code and the RESULT (R395). -/
def Dev.mbReply (d : Dev) (c : MbCmd) (ret result : Nat) (out : List Byte) : Dev :=
  let d := { d with reg := { d.reg with cmdQ := eraseOne c d.reg.cmdQ } }
  let d := if result = rInternal then d.report 0x377 (mkDetail 0 c.op 0) noWing else d
  if c.box ≥ 64 then d else d.send (.mbox c.box c.op ret result out)

/-- The same for a command whose output CXL 3.1 lays out. -/
def Dev.mbReplyCxl (d : Dev) (c : MbCmd) (ret : Nat) (vals : List Nat) : Dev :=
  let d := { d with reg := { d.reg with cmdQ := eraseOne c d.reg.cmdQ } }
  if c.box ≥ 64 then d else d.send (.cxl c.box c.op ret vals)

/-- MAILBOX_DOORBELL: one command per mailbox is accepted at a time, in doorbell order; an unknown opcode is answered
when its turn comes (R393, R394, R398, R399). -/
def Dev.mailbox (d : Dev) (box op : Nat) (data : List Byte) : Dev :=
  if !d.boxServed box || d.reg.cmdQ.any (fun c => c.box = box) then d
  else
    let c : MbCmd := ⟨box, op, data⟩
    if d.reg.running && d.reg.cmdQ.isEmpty && !mbOpcodes.contains op then d.mbReply c retUnsupported rOk []
    else { d with reg := { d.reg with cmdQ := d.reg.cmdQ ++ [c] } }

/-- Answers the unknown opcodes that have come to the front. -/
def Dev.mbUnknown (d : Dev) : Nat → Dev
  | 0 => d
  | n + 1 =>
    match d.reg.cmdQ with
    | c :: _ => if d.reg.running && !mbOpcodes.contains c.op then Dev.mbUnknown (d.mbReply c retUnsupported rOk []) n else d
    | [] => d

/-! ### Payloads and contexts -/

def MbCmd.num (c : MbCmd) (i n : Nat) : Nat :=
  (List.range n).foldl (fun (v : Nat) k => v + ((c.data[i + k]?).getD 0).toNat * 256 ^ k) 0

/-- Bytes outside the fields of a payload are zero (R399). -/
def MbCmd.clean (c : MbCmd) (fields : List (Nat × Nat)) : Bool :=
  ((List.range c.data.length).zip c.data).all (fun p => p.2 = 0 || fields.any (fun f => f.1 ≤ p.1 && p.1 < f.1 + f.2))

/-- The three contexts of R393; none for a mailbox of an unbound head. -/
inductive Ctx | operator | wing (w : Nat) | secured
  deriving DecidableEq, Repr

def Dev.ctx (d : Dev) (c : MbCmd) : Option Ctx :=
  let b := c.place
  if b = boxSec then some .secured
  else if b = boxMctp || b % 16 = 0 then some .operator
  else
    let w := d.headWing (BitVec.ofNat 4 (b % 16))
    if w < 16 then some (.wing w) else none

/-- Who may issue a command: O, W with the wing it names, or S. -/
inductive Right | op | wing | region | sec
  deriving DecidableEq, Repr

def Dev.allowed (d : Dev) (c : MbCmd) (r : Right) : Bool :=
  match r, d.ctx c with
  | .sec, some .secured => true
  | .op, some .operator | .wing, some .operator | .region, some .operator => true
  | .wing, some (.wing w) => c.num 0 1 = w
  | .region, some (.wing w) => d.regionWing (c.num 0 2) = w
  | _, _ => false

/-! ### One vendor command (R394 to R399) -/

/-- Outcome of a command's own rule. -/
inductive MbRes
  | done (result : Nat) (out : List Byte) (d : Dev)
  /-- not now: it stays at the front -/
  | wait (d : Dev)
  /-- a background command starts; it ends at once with a result, or later -/
  | bg (obj : Nat) (ended : Option (Nat × List Byte)) (d : Dev)

structure MbSpec where
  op : Nat
  len : MbCmd → Nat
  fields : MbCmd → List (Nat × Nat)
  right : Right := .op
  /-- starts work, so an unreleased FATAL refuses it (R397) -/
  start : MbCmd → Bool := fun _ => false
  bg : MbCmd → Bool := fun _ => false
  safe : Bool := false
  sel : MbCmd → Bool := fun _ => true

/-- The command at the front, when the registrar runs and it is this one. -/
def Dev.mbFront (d : Dev) (op : Nat) : Option MbCmd :=
  match d.reg.cmdQ with
  | c :: _ => if d.reg.running && c.op = op then some c else none
  | [] => none

/-- A background command cannot start: its mailbox runs one, or the device runs eight (R396). -/
def Dev.bgFull (d : Dev) (c : MbCmd) : Bool := d.reg.bg.any (fun b => b.box = c.place) || d.reg.bg.length ≥ 8

/-- Executes the command at the front if it is `s.op`. -/
def Dev.mbRun (d : Dev) (s : MbSpec) (f : MbCmd → Dev → MbRes) : Dev :=
  match d.mbFront s.op with
  | none => d
  | some c =>
    if !s.sel c then d
    else if c.data.length ≠ s.len c then d.mbReply c retLength rInvalid []
    else if d.reg.safe && !s.safe then d.mbReply c retBusy rBusy []
    else if !d.allowed c s.right then d.mbReply c retInvalid rDenied []
    else if !c.clean (s.fields c) then d.mbReply c retInvalid rInvalid []
    else if (d.fatal && s.start c) || (s.bg c && d.bgFull c) then d.mbReply c retBusy rBusy []
    else match f c d with
      | .done r out d => d.mbReply c (retOf r) r out
      | .wait d => d
      | .bg obj ended d =>
        let d := ({ d with reg := { d.reg with bg := d.reg.bg ++ [⟨c.place, c.op, obj⟩] } } : Dev).mbReply c retBg rOk []
        match ended with
        | some (r, out) => d.bgEnd c.op obj r out
        | none => d

/-- A command whose rule gives a result and a new state. -/
def plain (x : Nat × Dev) : MbRes := .done x.1 [] x.2

/-- A background command that starts unless it is refused. -/
def started (obj : Nat) (x : Nat × Dev) : MbRes := if x.1 = rOk then .bg obj none x.2 else .done x.1 [] x.2

/-- A background command that ends within its step. -/
def atOnce (obj : Nat) (out : List Byte) (x : Nat × Dev) : MbRes :=
  if x.1 = rOk then .bg obj (some (rOk, out)) x.2 else .done x.1 [] x.2

/-! ### One standard command (Table 16-4) -/

/-- Executes the standard command at the front if it is `op`; `opOnly`: operator context only. -/
def Dev.mbStd (d : Dev) (op : Nat) (opOnly safe : Bool) (f : MbCmd → Dev → Nat × List Nat × Dev) : Dev :=
  match d.mbFront op with
  | none => d
  | some c =>
    if d.reg.safe && !safe then d.mbReplyCxl c retBusy []
    else match d.ctx c with
      | none => d.mbReplyCxl c retInvalid []
      | some x =>
        if x = .secured || (opOnly && x ≠ .operator) then d.mbReplyCxl c retInvalid []
        else
          let (ret, vals, d) := f c d
          d.mbReplyCxl c ret vals

/-- The head whose mailbox carries a command; h0 for MCTP. -/
def MbCmd.head (c : MbCmd) : HeadId := if c.place < 32 then BitVec.ofNat 4 (c.place % 16) else 0

/-- The wing a standard command speaks for. -/
def Dev.mbWing (d : Dev) (c : MbCmd) : Nat :=
  match d.ctx c with
  | some (.wing w) => w
  | _ => 0

end Sys2Proof.Machine
end

