-- ==== Sys2Proof/Machine/Registrar.lean ====
section
/-! DEFINITION. The mailbox commands of Table 16-4: the standard CXL 3.1 command sets and the Fabric Manager API.
CXL 3.1 lays out their payloads; where spec/ gives no layout the offsets here are PRESUMED (notes/assumptions/11.md). -/

namespace Sys2Proof.Machine

/-! ### Generic component -/

/-- IDENTIFY: serial number and the largest message as a power of two (R393). -/
def Dev.cmdIdentify (d : Dev) : Dev := d.mbStd 0x0001 false true (fun _ d => (retOk, [d.serial, 12], d))

/-- BACKGROUND_OPERATION_STATUS: running or not, opcode, RESULT, output of the last one (R396). -/
def Dev.cmdBgStatus (d : Dev) : Dev :=
  d.mbStd 0x0002 false false (fun c d =>
    match d.reg.bg.find? (fun b => b.box = c.place) with
    | some b => (retOk, [1, b.op], d)
    | none =>
      let (op, r, out) := Fmap.get (0, 0, []) d.reg.bgStat c.place
      (retOk, [0, op, r] ++ out.map (·.toNat), d))

/-- GET_RESPONSE_MESSAGE_LIMIT and SET_RESPONSE_MESSAGE_LIMIT: a power of two from 256 bytes to 4 KiB. -/
def Dev.cmdGetLimit (d : Dev) : Dev :=
  d.mbStd 0x0003 false false (fun c d => (retOk, [Fmap.get 12 d.reg.respLimit c.place], d))
def Dev.cmdSetLimit (d : Dev) : Dev :=
  d.mbStd 0x0004 false false (fun c d =>
    let n := c.num 0 1
    if c.data.length ≠ 1 then (retLength, [], d)
    else if n < 8 || n > 12 then (retInvalid, [], d)
    else (retOk, [n], { d with reg := { d.reg with respLimit := Fmap.put d.reg.respLimit c.place n } }))

/-- REQUEST_ABORT_BACKGROUND_OPERATION: the mailbox's evacuation, or its last rotation or region run, is aborted where
ROTATE_ABORT or REGION_ABORT would be accepted; otherwise it is refused (Table 10-11 note 2). -/
def Dev.cmdAbort (d : Dev) : Dev :=
  d.mbStd 0x0005 false false (fun c d =>
    match d.reg.bg.find? (fun b => b.box = c.place && (b.op = 0xC017 || b.op = 0xC018)) with
    | some b =>
      let e := if b.op = 0xC017 then b.obj else 16 + b.obj
      let mine := (List.range 16).filter (fun i =>
        match Fmap.find d.tiers.rots i with
        | some r => d.rotStatus i = rsCopying && d.evacSlot e r.src
        | none => false)
      if mine.isEmpty then (retInvalid, [], d) else (retOk, [], mine.foldl (fun (d : Dev) i => (d.rotAbort i).2) d)
    | none =>
      match Fmap.find d.reg.lastJob c.place with
      | some (0, i) => if d.rotStatus i = rsCopying then (retOk, [], (d.rotAbort i).2) else (retInvalid, [], d)
      | some (_, r) =>
        if d.rgState r = rgWaiting || d.rgState r = rgRunning then (retOk, [], d.abortRegion r 4) else (retInvalid, [], d)
      | none => (retInvalid, [], d))

/-! ### Events (the ledger's records) -/

/-- Records a mailbox sees: every record for the operator, those of the wing for a tenant (R398). -/
def Dev.eventsOf (d : Dev) (c : MbCmd) : List LRec :=
  let seen := Fmap.get [] d.reg.evCleared c.head.toNat
  (d.ledger.ring.map (·.2)).filter (fun r =>
    (d.ctx c = some .operator || r.wing = d.mbWing c) && r.cls = c.num 0 1 && !seen.contains r.seq)

/-- The time stamp of a tick: the value set last, in nanoseconds, and the time since (R398). -/
def Dev.stampAt (d : Dev) (tick : Nat) : Nat :=
  match d.reg.stamp with
  | some (v, t) => v + 1000 * (tick - t)
  | none => 0

/-- GET_EVENT_RECORDS of one log (a class): kind 1 DRAM, 2 Memory Module; SEQ, source, time stamp. -/
def Dev.cmdGetEvents (d : Dev) : Dev :=
  d.mbStd 0x0100 false false (fun c d =>
    if c.data.length ≠ 1 then (retLength, [], d)
    else if c.num 0 1 > 3 then (retInvalid, [], d)
    else
      (retOk, (d.eventsOf c).flatMap (fun r =>
        [if 0x190 ≤ r.source && r.source < 0x2D0 then 1 else 2, r.seq, r.source, d.stampAt r.last]), d))

/-- CLEAR_EVENT_RECORDS: all of a log, or the records whose handles (low half of SEQ) are listed. -/
def Dev.cmdClearEvents (d : Dev) : Dev :=
  d.mbStd 0x0101 false false (fun c d =>
    let n := c.num 2 1
    if c.data.length ≠ 6 + 2 * n then (retLength, [], d)
    else if c.num 0 1 > 3 then (retInvalid, [], d)
    else
      let hs := (List.range n).map (fun i => c.num (6 + 2 * i) 2)
      let gone := ((d.eventsOf c).filter (fun r => c.num 1 1 % 2 = 1 || hs.contains (r.seq % 65536))).map (·.seq)
      let h := c.head.toNat
      (retOk, [], { d with reg := { d.reg with evCleared := Fmap.put d.reg.evCleared h (Fmap.get [] d.reg.evCleared h ++ gone) } }))

def Dev.cmdGetEvPolicy (d : Dev) : Dev :=
  d.mbStd 0x0102 false false (fun c d => (retOk, [Fmap.get 0 d.reg.evPolicy c.head.toNat], d))
def Dev.cmdSetEvPolicy (d : Dev) : Dev :=
  d.mbStd 0x0103 false false (fun c d =>
    if c.data.length ≠ 4 && c.data.length ≠ 5 then (retLength, [], d)
    else (retOk, [], { d with reg := { d.reg with evPolicy := Fmap.put d.reg.evPolicy c.head.toNat (c.num 0 5) } }))

/-! ### Firmware (R398, R402) -/

/-- GET_FW_INFO: slots, active slot, slot of the next cold reset, versions. -/
def Dev.cmdFwInfo (d : Dev) : Dev :=
  d.mbStd 0x0200 true true (fun _ d =>
    (retOk, [3, d.reg.slot, d.reg.nextSlot.getD 0] ++ [1, 2, 3].map (fun s => Fmap.get 0 d.reg.fwVer s), d))

/-- Bytes that a firmware slot holds (Table 16-2). -/
def fwSize (slot : Nat) : Nat := if slot = 3 then 4 * 2 ^ 20 else 24 * 2 ^ 20

/-- Writes image bytes into a slot up to `len`; a whole image has a version of its own, which spec/ does not give. -/
def Dev.fwPut (d : Dev) (slot len : Nat) (x : Option (Nat × Nat)) : Dev :=
  let d := { d with reg := { d.reg with fwLen := Fmap.put d.reg.fwLen slot len, fwXfer := x } }
  match x with
  | some _ => d
  | none =>
    let (v, d) := d.draw
    { d with reg := { d.reg with fwVer := Fmap.put d.reg.fwVer slot (v % 2 ^ 64) } }

/-- TRANSFER_FW: action 0 full, 1 first, 2 middle, 3 last, 4 abort; slot; offset in 128-byte units; data from byte 128. -/
def Dev.cmdTransferFw (d : Dev) : Dev :=
  d.mbStd 0x0201 true true (fun c d =>
    let act := c.num 0 1
    let slot := c.num 1 1
    let off := c.num 4 4
    let n := c.data.length - 128
    if c.data.length < 128 then (retLength, [], d)
    else if act > 4 then (retInvalid, [], d)
    else if act = 4 then (retOk, [], { d with reg := { d.reg with fwXfer := none } })
    else if act ≤ 1 && (slot = 0 || slot > 3 || slot = d.reg.slot) then (retFwSlot, [], d)
    else match act, d.reg.fwXfer with
      | 0, some _ | 1, some _ => (retFwTransfer, [], d)
      | 0, none => (retOk, [], d.fwPut slot n none)
      | 1, none => if off ≠ 0 then (retFwOrder, [], d) else (retOk, [], d.fwPut slot n (some (slot, n)))
      | _, none => (retFwOrder, [], d)
      | _, some (s, next) =>
        if 128 * off ≠ next then (retFwOrder, [], d)
        else if fwSize s < next + n then (retInvalid, [], d)
        else (retOk, [], d.fwPut s (next + n) (if act = 3 then none else some (s, next + n))))

/-- The boot record is written with OVERRIDE naming a slot (R391, R402). -/
def Dev.bootRecord (d : Dev) (slot : Nat) : Dev :=
  { d with reg := { d.reg with bootGen := d.reg.bootGen + 1, bootOver := slot } }

/-- ACTIVATE_FW: action 0 online, 1 at the next cold reset; whether the image verifies and passes its self-check, and its
version, come from outside. -/
def Dev.cmdActivateFw (d : Dev) (verified selfCheck : Bool) (version : Nat) : Dev :=
  d.mbStd 0x0202 true true (fun c d =>
    let slot := c.num 1 1
    if c.data.length ≠ 2 then (retLength, [], d)
    else if c.num 0 1 > 1 then (retInvalid, [], d)
    else if slot = 0 || slot > 2 then (retFwSlot, [], d)
    else if c.num 0 1 = 1 then
      (retOk, [], ({ d with reg := { d.reg with nextSlot := some slot } } : Dev).bootRecord slot)
    else if slot = d.reg.slot then (retFwSlot, [], d)
    else if !d.reg.bg.isEmpty || (List.range 16).any (fun w => d.wgState w = wgReleasing) then (retBusy, [], d)
    else if !verified then (retFwVerify, [], d)
    else if !selfCheck then (retFwRolledBack, [], d)
    else
      let d := { d with reg := { d.reg with slot := slot, fwVer := Fmap.put d.reg.fwVer slot version } }
      (retOk, [], d.bootRecord slot))

/-! ### Time stamp, logs, memory device -/

def Dev.cmdGetTimestamp (d : Dev) : Dev := d.mbStd 0x0300 false false (fun _ d => (retOk, [d.stampAt d.tick], d))
def Dev.cmdSetTimestamp (d : Dev) : Dev :=
  d.mbStd 0x0301 false false (fun c d =>
    if c.data.length ≠ 8 then (retLength, [], d)
    else (retOk, [], { d with reg := { d.reg with stamp := some (c.num 0 8, d.tick) } }))

/-- GET_SUPPORTED_LOGS: one log, the Command Effects Log; GET_LOG: the opcodes it lists. -/
def Dev.cmdGetLogs (d : Dev) : Dev := d.mbStd 0x0400 false false (fun _ d => (retOk, [1], d))
def Dev.cmdGetLog (d : Dev) : Dev := d.mbStd 0x0401 false false (fun _ d => (retOk, mbOpcodes, d))

/-- IDENTIFY_MEMORY_DEVICE: capacity of the wing's extents in 256 MiB units. -/
def Dev.cmdIdentifyMem (d : Dev) : Dev :=
  d.mbStd 0x4000 false false (fun c d =>
    (retOk, [(d.wing (d.mbWing c)).extents.foldl (fun (v : Nat) e => v + e.2 / 2 ^ 28) 0], d))

/-- GET_HEALTH_INFO: the highest junction temperature; CXL's other figures are not in spec/. -/
def Dev.cmdHealthInfo (d : Dev) : Dev := d.mbStd 0x4200 false false (fun _ d => (retOk, [d.fld Fld.SELV_TEMP_JUNCTION_MAX 0], d))
def Dev.cmdGetAlert (d : Dev) : Dev := d.mbStd 0x4201 false false (fun c d => (retOk, [Fmap.get 0 d.reg.alert c.head.toNat], d))
def Dev.cmdSetAlert (d : Dev) : Dev :=
  d.mbStd 0x4202 false false (fun c d =>
    if c.data.length > 16 then (retLength, [], d)
    else (retOk, [], { d with reg := { d.reg with alert := Fmap.put d.reg.alert c.head.toNat (c.num 0 16) } }))

/-! ### Dynamic Capacity (R323) -/

/-- Runs a command of a Type 3 head. -/
def Dev.onType3 (d : Dev) (h : HeadId) (f : Nat × List Nat × Dev) : Nat × List Nat × Dev :=
  if d.personality h = 3 then f else (retUnsupported, [], d)

def regionVals (r : DcRegion) : List Nat := [r.base, r.len, b01 r.sharable]
def extentVals (e : DcExtent) : List Nat := [e.region, e.base, e.len]

/-- Extents of a payload: a count in bytes 0 to 3, then DPA and length in 24 bytes each from byte 8. -/
def MbCmd.extents (c : MbCmd) : List (Nat × Nat) := (List.range (c.num 0 4)).map (fun i => (c.num (8 + 24 * i) 8, c.num (16 + 24 * i) 8))
def MbCmd.extentsOk (c : MbCmd) : Bool := c.data.length = 8 + 24 * c.num 0 4

/-- GET_DC_CONFIGURATION: block size, then the regions. -/
def Dev.cmdDcConfig (d : Dev) : Dev :=
  d.mbStd 0x4800 false false (fun c d =>
    d.onType3 c.head (retOk, 2 ^ 28 :: (List.range 8).flatMap (fun i => regionVals (Fmap.get {} (d.head c.head).dcRegions i)), d))

/-- GET_DC_EXTENT_LIST: the extents the host has accepted. -/
def Dev.cmdDcExtents (d : Dev) : Dev :=
  d.mbStd 0x4801 false false (fun c d =>
    d.onType3 c.head (retOk, (((d.head c.head).dc.filter (fun e => e.st ≠ .offered)).flatMap extentVals), d))

/-- ADD_DC_RESPONSE: offered extents that are listed are accepted, the others refused. -/
def Dev.cmdAddDc (d : Dev) : Dev :=
  d.mbStd 0x4802 false false (fun c d =>
    d.onType3 c.head
      (let x := d.head c.head
       let es := c.extents
       if !c.extentsOk then (retLength, [], d)
       else if !es.all (fun e => x.dc.any (fun y => y.st = .offered && y.base = e.1 && y.len = e.2)) then (retInvalid, [], d)
       else
         let dc := (x.dc.filter (fun y => y.st ≠ .offered || es.contains (y.base, y.len))).map (fun y =>
           if y.st = .offered then { y with st := .accepted } else y)
         (retOk, [], d.setHead c.head { x with dc := dc })))

/-- RELEASE_DC: the host confirms; the extents stop decoding and are not scrubbed. -/
def Dev.cmdReleaseDc (d : Dev) : Dev :=
  d.mbStd 0x4803 false false (fun c d =>
    d.onType3 c.head
      (let x := d.head c.head
       let es := c.extents
       if !c.extentsOk then (retLength, [], d)
       else if !es.all (fun e => x.dc.any (fun y => y.st ≠ .offered && y.base = e.1 && y.len = e.2)) then (retInvalid, [], d)
       else (retOk, [], d.setHead c.head { x with dc := x.dc.filter (fun y => y.st = .offered || !es.contains (y.base, y.len)) })))

/-! ### Fabric Manager API, over MCTP (R323, R398) -/

/-- Runs an FM API command: MCTP only. -/
def Dev.mbFm (d : Dev) (op : Nat) (f : MbCmd → Dev → Nat × List Nat × Dev) : Dev :=
  d.mbStd op true false (fun c d => if c.place = boxMctp then f c d else (retUnsupported, [], d))

/-- GET_MULTI_HEADED_INFO: number of heads, then the Type 3 heads. -/
def Dev.cmdMultiHeaded (d : Dev) : Dev :=
  d.mbFm 0x5500 (fun _ d =>
    (retOk, ((List.range 16).filter d.headExists).length :: (List.range 16).filter (fun h => d.personality (BitVec.ofNat 4 h) = 3), d))

/-- GET_HEAD_INFO: link state, width and speed of the head in byte 0. -/
def Dev.cmdHeadInfo (d : Dev) : Dev :=
  d.mbFm 0x5501 (fun c d =>
    let x := d.head (BitVec.ofNat 4 (c.num 0 1))
    if !d.headExists (c.num 0 1) then (retInvalid, [], d) else (retOk, [b01 x.up, x.width, x.speed], d))

/-- GET_DCD_INFO: regions per head and block size. -/
def Dev.cmdDcdInfo (d : Dev) : Dev := d.mbFm 0x5600 (fun _ d => (retOk, [8, 2 ^ 28], d))

/-- GET_HOST_DC_REGION_CONFIGURATION of the head in byte 0. -/
def Dev.cmdHostDc (d : Dev) : Dev :=
  d.mbFm 0x5601 (fun c d =>
    let h := BitVec.ofNat 4 (c.num 0 1)
    d.onType3 h (retOk, (List.range 8).flatMap (fun i => regionVals (Fmap.get {} (d.head h).dcRegions i)), d))

/-- SET_DC_REGION_CONFIGURATION: head, region, sharable, then base and length from byte 8; the region lies in the wing's
extents in blocks of 256 MiB and holds no extent. -/
def Dev.cmdSetDcRegion (d : Dev) : Dev :=
  d.mbFm 0x5602 (fun c d =>
    let h := BitVec.ofNat 4 (c.num 0 1)
    let i := c.num 1 1
    let r : DcRegion := ⟨c.num 8 8, c.num 16 8, c.num 2 1 % 2 = 1⟩
    let x := d.head h
    d.onType3 h
      (if c.data.length ≠ 24 then (retLength, [], d)
       else if c.num 0 1 ≥ 16 || i ≥ 8 || r.base % 2 ^ 28 ≠ 0 || r.len % 2 ^ 28 ≠ 0 || !d.ownsRange (d.headWing h) r.base r.len then
         (retInvalid, [], d)
       else if x.dc.any (fun e => e.region = i) then (retBusy, [], d)
       else (retOk, [], d.setHead h { x with dcRegions := Fmap.put x.dcRegions i r })))

/-- GET_DC_REGION_EXTENT_LISTS of the head in byte 0. -/
def Dev.cmdDcLists (d : Dev) : Dev :=
  d.mbFm 0x5603 (fun c d =>
    let h := BitVec.ofNat 4 (c.num 0 1)
    d.onType3 h (retOk, ((d.head h).dc.flatMap extentVals), d))

/-- INITIATE_DC_ADD: head, region, then DPA and length from byte 8; refused unless the extent lies wholly in the wing's
extents and in the region, clear of others. -/
def Dev.cmdDcAdd (d : Dev) : Dev :=
  d.mbFm 0x5604 (fun c d =>
    let h := BitVec.ofNat 4 (c.num 0 1)
    let i := c.num 1 1
    let a := c.num 8 8
    let n := c.num 16 8
    let x := d.head h
    let r := Fmap.get {} x.dcRegions i
    d.onType3 h
      (if c.data.length ≠ 24 then (retLength, [], d)
       else if d.fatal then (retBusy, [], d)
       else if c.num 0 1 ≥ 16 || i ≥ 8 || n = 0 || a % 2 ^ 28 ≠ 0 || n % 2 ^ 28 ≠ 0 || a < r.base || r.base + r.len < a + n ||
           !d.ownsRange (d.headWing h) a n || x.dc.any (fun e => overlap a n e.base e.len) then (retInvalid, [], d)
       else (retOk, [], (d.setHead h { x with dc := x.dc ++ [⟨i, a, n, .offered⟩] }).send (.dcEvent h true a n))))

/-- INITIATE_DC_RELEASE: the host is asked to release an accepted extent. -/
def Dev.cmdDcRelease (d : Dev) : Dev :=
  d.mbFm 0x5605 (fun c d =>
    let h := BitVec.ofNat 4 (c.num 0 1)
    let a := c.num 8 8
    let n := c.num 16 8
    let x := d.head h
    let mine (e : DcExtent) : Bool := e.region = c.num 1 1 && e.base = a && e.len = n && e.st = .accepted
    d.onType3 h
      (if c.data.length ≠ 24 then (retLength, [], d)
       else if !x.dc.any mine then (retInvalid, [], d)
       else (retOk, [], (d.setHead h { x with dc := updateIf mine (fun e => { e with st := .releasing }) x.dc }).send
         (.dcEvent h false a n))))

end Sys2Proof.Machine
end

