-- ==== Sys2Proof/Machine/Selvage.lean ====
section
/-! DEFINITION. The selvage (spec/17): tiles and their points, the current-budget arbiter, the power cap, estimate and
measurement, job-group commits, heat, the trip. Power in mW, temperatures in 0.5 °C, voltages in 0.1 mV, currents in
0.25 A. -/

namespace Sys2Proof.Machine

def roleLead : Nat := 1
def roleMember : Nat := 2
def Dev.jgRole (d : Dev) : Nat := d.fld Fld.IKQ_CTRL_JG_ROLE 0
def allPorts : List PortId := (List.range 16).map (BitVec.ofNat 4)
def allPeers : List PeerId := (List.range 8).map (BitVec.ofNat 3)

def tsPllOff : Nat := 0
def tsGated : Nat := 1
def tsWaking : Nat := 2
def tsRun : Nat := 3
def tsTripped : Nat := 4
def Dev.tileState (d : Dev) (t : Nat) : Nat := d.fld Fld.TILE_STATE_STATE t
def Dev.runTiles (d : Dev) : List Nat := (List.range 64).filter (fun t => d.tileState t = tsRun)
def Dev.point (d : Dev) (t : Nat) : Nat := d.fld Fld.TILE_STATE_POINT t

/-- The selvage runs: AON power is there and RST_N is high. -/
def Dev.selvOn (d : Dev) : Bool := d.pins.aonPower && d.pins.aonClk && d.pins.rstN && d.pins.phase ≠ .strap

def Dev.setReason (d : Dev) (k : Nat) (on : Bool) : Dev :=
  if on then d.orFld Fld.SELV_STATUS_REASONS 0 (2 ^ k) else d.clrFld Fld.SELV_STATUS_REASONS 0 (2 ^ k)

/-! ### Voltage (R406, R413) -/

def signed8 (n : Nat) : Int := if n ≥ 128 then (n : Int) - 256 else n
def signed16 (n : Nat) : Int := if n ≥ 32768 then (n : Int) - 65536 else n

/-- The offset of a tile at a point, with its raises. -/
def Dev.vfOffset (d : Dev) (t n : Nat) : Int :=
  match Fmap.find d.selv.vf (16 * t + n) with
  | some x => x
  | none => signed8 (d.provByte (0x200 + t / 16 * 0x400 + 0x40 + 16 * (t % 16) + n))

/-- Temperature of a tile as used; sensors as Table 17-4 orders them. -/
def Dev.tempOf (d : Dev) (i : Nat) : Int := Fmap.get 0 d.selv.temps i

/-- The voltage a tile requires at a point, in 0.1 mV (R413). -/
def Dev.vReq (d : Dev) (t n : Nat) : Int :=
  let b := 0x200 + t / 16 * 0x400
  let vmin : Int := d.provNat (b + 4 * n + 2) 2
  let tc := min (max (d.tempOf t) 0) 200
  10 * vmin + 25 * d.vfOffset t n + 10 * signed16 (d.provNat (b + 0x140) 2) * ((200 - tc) / 20) + 100

/-- Highest usable point: at most 900 mV. -/
def Dev.vfPoint (d : Dev) (t : Nat) : Nat :=
  ((List.range 16).reverse.find? (fun n => d.vReq t n ≤ 9000)).getD 0

def Dev.railMv (d : Dev) (die : Nat) : Nat := Fmap.get 750 d.selv.rail die

/-! ### Point limits (Table 17-3) -/

/-- The preference of a tile (R421). -/
def Dev.preferred (d : Dev) (t : Nat) : Nat :=
  if d.fld Fld.SELV_PHASE_EN 0 = 0 then 15
  else match d.fld Fld.TILE_STATE_PHASE t with
    | 1 => d.fld Fld.SELV_PHASE_MEMORY 0
    | 2 => d.fld Fld.SELV_PHASE_SYNC 0
    | _ => d.fld Fld.SELV_PHASE_COMPUTE 0

def Dev.extLimit (d : Dev) : Nat := if d.pins.throttleIn then d.fld Fld.SELV_LIMITS_EXT_POINT 0 else 15
def Dev.heatLimit (d : Dev) (t : Nat) : Nat := d.fld Fld.TILE_STATE_HEAT_LIMIT t
def Dev.powerLimit (d : Dev) (t : Nat) : Nat := Fmap.get 15 d.selv.power t

/-- Lock states of SELV_STATUS.JG_STATE. -/
def jsSolo : Nat := 0
def jsLead : Nat := 1
def jsLocked : Nat := 2
def jsFree : Nat := 3
def Dev.jgState (d : Dev) : Nat := d.fld Fld.SELV_STATUS_JG_STATE 0
def Dev.locked (d : Dev) : Bool := d.jgState = jsLocked || (d.jgState = jsLead && d.jg.n ≠ 0)

/-- The limit of a tile that this package would choose alone. -/
def Dev.localLimit (d : Dev) (t : Nat) : Nat :=
  min (min (d.preferred t) (d.powerLimit t)) (min (d.heatLimit t) (min d.extLimit (d.vfPoint t)))

/-- The limits that act at once under lock: heat and THROTTLE_IN (R428); a usable voltage always (R413). -/
def Dev.hardLimit (d : Dev) (t : Nat) : Nat := min (d.heatLimit t) (min d.extLimit (d.vfPoint t))

/-- What a tile's point should be (R422, R427, R370). -/
def Dev.targetPoint (d : Dev) (t : Nat) : Nat :=
  if d.locked then min d.jg.point.toNat (d.hardLimit t)
  else if d.jgState = jsFree then min (d.point t) (d.hardLimit t)
  else d.localLimit t

/-- Starting point of a woken tile (R421, R427). -/
def Dev.startPoint (d : Dev) (t : Nat) : Nat :=
  if d.locked then min d.jg.point.toNat (d.hardLimit t) else d.localLimit t

/-- JG_LIMIT of this package: lowest of power, heat, external and voltage limits over its RUN tiles (R427). -/
def Dev.jgLimit (d : Dev) : Nat :=
  d.runTiles.foldl (fun (v : Nat) t => min v (min (d.powerLimit t) (d.hardLimit t))) 15

/-- SHT5, SHT6 and SHT7: a tile held below its preference, a sensor above its throttle point, reasons CAP, RAIL or
EST_DIVERGE (R429, R467). -/
def Dev.shuttleOuts (d : Dev) : Dev :=
  let run : Bool := d.pins.phase = .run
  let jg := if d.locked then d.jg.point.toNat else 15
  let thr : Int := 2 * (d.fld Fld.SELV_THERMAL_THROTTLE 0 : Int)
  let stk : Int := 2 * (d.fld Fld.SELV_THERMAL_STACK_POINT 0 : Int)
  let r := d.fld Fld.SELV_STATUS_REASONS 0
  let p := { d.pins with
    throttled := run && d.runTiles.any (fun t => min jg (d.localLimit t) < d.preferred t)
    hot := run && d.selv.temps.any (fun c => decide ((if c.1 < 104 then thr else stk) < c.2))
    limited := run && (r.testBit 0 || r.testBit 1 || r.testBit 7) }
  { d with pins := p }

/-- A heat limit below the preference of a RUN tile, lowered by its own sensor (bit 0) or by a die sensor (bit 1). -/
def Dev.heatHolds (d : Dev) (bit : Nat) : Bool :=
  d.runTiles.any (fun t => d.heatLimit t < d.preferred t && (Fmap.get 0 d.selv.heatBy t).testBit bit)

/-- The reasons that follow from the points: THERMAL, THERMAL_DIE, EXT, JG, VF, TRIP, EST_DIVERGE (Table 17-5). -/
def Dev.showReasons (d : Dev) : Dev :=
  let d := d.setReason 3 (d.heatHolds 0)
  let d := d.setReason 4 (d.heatHolds 1 || d.selv.stackHot ≠ 0)
  let d := d.setReason 5 d.pins.throttleIn
  let d := d.setReason 6 (d.locked && d.runTiles.any (fun t => d.jg.point.toNat < d.localLimit t))
  let d := d.setReason 7 (d.fld Fld.SELV_STATUS_DIVERGING 0 = 1)
  let d := d.setReason 8 (d.runTiles.any (fun t => d.vfPoint t < d.preferred t))
  (d.setReason 10 d.selv.tripped).shuttleOuts

/-! ### Rails and point changes (R413, R414) -/

/-- The rail request of a die: the highest voltage of its tiles in RUN or WAKING, at least 550 mV; a frame when it
changes (R413, R458). -/
def Dev.railAsk (d : Dev) (die : Nat) : Dev :=
  let ts := (List.range 64).filter (fun t => t / 16 = die && (d.tileState t = tsRun || d.tileState t = tsWaking))
  let mv (t : Nat) : Nat :=
    let p := if d.tileState t = tsWaking then d.startPoint t else Fmap.get (d.point t) d.selv.pend t
    ((d.vReq t p + 9) / 10).toNat
  let v := ts.foldl (fun (v : Nat) t => max v (mv t)) 550
  if Fmap.get 750 d.selv.want die = v then d
  else
    let d := { d with selv := { d.selv with want := Fmap.put d.selv.want die v } }
    d.send (.railFrame die v)

/-- A tile takes a point now (R414): upward only when the rail shows its voltage, else the point waits. -/
def Dev.setPoint (d : Dev) (t n : Nat) : Dev :=
  let die := t / 16
  let ok := n ≤ d.point t || d.vReq t n ≤ 10 * (d.railMv die : Int)
  let d := { d with selv := { d.selv with pend := if ok then Fmap.del d.selv.pend t else Fmap.put d.selv.pend t n } }
  let d := if ok && n ≠ d.point t then
      { d.setFld Fld.TILE_STATE_POINT t n with selv := { d.selv with moved := Fmap.put d.selv.moved t d.tick } }
    else d
  d.railAsk die

/-- RAIL_SETTLED: the monitor of a die's rail shows the voltage requested; waiting points are taken. -/
def Dev.railSettled (d : Dev) (die : Nat) : Dev :=
  if !d.selvOn || die ≥ 4 then d
  else
    let d := { d with selv := { d.selv with rail := Fmap.put d.selv.rail die (Fmap.get 750 d.selv.want die) } }
    (d.selv.pend.filter (fun c => c.1 / 16 = die)).foldl (fun (d : Dev) c =>
      if d.tileState c.1 = tsRun then d.setPoint c.1 c.2 else d) d

/-! ### Job-group messages (R369, R426) -/

/-- A JG message to a peer, on the first port of its trunk. -/
def Dev.jgMsg (d : Dev) (p : PeerId) (attr : BitVec 4) (n : BitVec 16) (point : BitVec 4) (delay : Nat) : Dev :=
  match d.trunk p with
  | [] => d
  | q :: _ =>
    let data : Line := BitVec.ofNat 2048 (n.toNat + point.toNat * 2 ^ 16 + delay % 2 ^ 32 * 2 ^ 32)
    d.enqueue q { m := { opc := opcJg, vc := vcMgt, epoch := BitVec.ofNat 8 (d.fld Fld.IKQ_PORT_EPOCH q.toNat),
                         attr := attr, len := 16, data := data }, since := d.tick }

/-- Peers of the job group: those this package has a port for. -/
def Dev.jgPeers (d : Dev) : List PeerId :=
  allPeers.filter (fun p => (List.range 16).any (fun q => d.fld Fld.IKQ_PORT_PEER_VALID q = 1 && d.fld Fld.IKQ_PORT_PEER q = p.toNat))

/-- The lowest point among the lead's limit, its reachable members' limits, and the ring's (R369, R370, R469). -/
def Dev.jgLowest (d : Dev) : Nat :=
  let ms := (d.jg.limits.filter (fun c => !(d.trunk (BitVec.ofNat 3 c.1)).isEmpty)).map (fun c => c.2.toNat)
  let ring := if d.jg.ringBroken then [] else (d.jg.ringLimit.map (·.toNat)).toList
  (ms ++ ring).foldl min d.jgLimit

/-- A lock frame (Table 19-8) with its parity. -/
def lockFrame (type_ : Nat) (point : BitVec 4) (n : BitVec 16) (delay : Nat) : BitVec 32 :=
  let b := BitVec.ofNat 32 (type_ + point.toNat * 4 + n.toNat * 2 ^ 6 + delay % 512 * 2 ^ 22)
  let odd := ((List.range 31).filter (fun i => b.getLsbD i)).length % 2 = 1
  if odd then b ||| (1 : BitVec 32) <<< 31 else b

/-- Sends a frame on LOCK_OUT; a package in its fault phase sends none. -/
def Dev.sendLock (d : Dev) (f : BitVec 32) : Dev :=
  if d.pins.phase = .run then d.send (.lockFrame (f.setWidth 64)) else d

/-- Delay of a commit: 36 µs for each member (R469). -/
def Dev.jgDelay (d : Dev) : Nat := 36 * max 1 d.jgPeers.length

/-- Sends the current commit to every member and on the ring. -/
def Dev.jgTell (d : Dev) (delay : Nat) : Dev :=
  let d := d.jgPeers.foldl (fun (d : Dev) p => d.jgMsg p 1 d.jg.n d.jg.point delay) d
  d.sendLock (lockFrame 1 d.jg.point d.jg.n delay)

/-- The lead commits a new point when the lowest limit has changed. -/
def Dev.jgCommit (d : Dev) : Dev :=
  let low := BitVec.ofNat 4 d.jgLowest
  let last := match d.jg.due with
    | some (n, p, _) => (n, p)
    | none => (d.jg.n, d.jg.point)
  if last.1 ≠ 0 && last.2 = low then d
  else
    let n := if last.1 + 1 = 0 then 1 else last.1 + 1
    let dl := d.jgDelay
    let d := d.jgPeers.foldl (fun (d : Dev) p => d.jgMsg p 1 n low dl) d
    let d := d.sendLock (lockFrame 1 low n dl)
    { d with jg := { d.jg with due := some (n, low, d.tick + dl), lastRepeat := d.tick } }

/-- The package's limit may have changed: a member tells the lead, a lead commits (R369, R428). -/
def Dev.jgNotify (d : Dev) : Dev :=
  if d.jgRole = roleMember then
    { d.jgPeers.foldl (fun (d : Dev) p => d.jgMsg p 0 0 (BitVec.ofNat 4 d.jgLimit) 0) d with jg := { d.jg with lastRepeat := d.tick } }
  else if d.jgRole = roleLead then d.jgCommit
  else d

/-- 100 µs have passed since the last point change of a tile (R414). -/
def Dev.mayMove (d : Dev) (t : Nat) : Bool :=
  match Fmap.find d.selv.moved t with
  | some m => decide (m + 100 ≤ d.tick)
  | none => true

/-- Every RUN tile drops to what binds at once; `now`: the tiles whose change is exempt from R414's interval. -/
def Dev.dropPoints (d : Dev) (now : Nat → Bool) : Dev :=
  d.runTiles.foldl (fun (d : Dev) t =>
    let n := min (Fmap.get (d.point t) d.selv.pend t) (d.hardLimit t)
    if n < d.point t then
      (if now t || d.mayMove t then d.setPoint t n else { d with selv := { d.selv with pend := Fmap.del d.selv.pend t } })
    else if (Fmap.find d.selv.pend t).isSome then d.setPoint t n else d) d

/-- JG_SWITCH: the time of the commit has come; every RUN tile takes the point, within the limits of R428. -/
def Dev.jgSwitch (d : Dev) : Dev :=
  match d.jg.due with
  | none => d
  | some (n, p, at_) =>
    if d.tick < at_ || !d.selvOn then d
    else
      let d := { d with jg := { d.jg with n := n, point := p, due := none } }
      let d := (d.setFld Fld.SELV_STATUS_JG_POINT 0 p.toNat).setFld Fld.SELV_STATUS_JG_N 0 n.toNat
      let d := if d.jgRole = roleMember then d.setFld Fld.SELV_STATUS_JG_STATE 0 jsLocked else d
      let d := d.runTiles.foldl (fun (d : Dev) t => d.setPoint t (d.targetPoint t)) d
      let d := if d.jgRole = roleMember then d.jgPeers.foldl (fun (d : Dev) q => d.jgMsg q 2 n p 0) d else d
      d.showReasons

/-! ### Tiles (R410, R411) -/

/-- TILE_WAKE. -/
def Dev.tileWake (d : Dev) (t : Nat) : Dev :=
  if d.selvOn && t < 64 && !d.selv.tripped then (d.wakeTile t).railAsk (t / 16) else d

/-- TILE_WAKE_COMPLETE: the wake time is over and the arbiter has granted current; its WAKING looms run. -/
def Dev.tileWoken (d : Dev) (t : Nat) : Dev :=
  if !d.selvOn || t ≥ 64 || d.tileState t ≠ tsWaking || d.tick < Fmap.get 0 d.tileAt t || (Fmap.find d.selv.grants t).isNone then d
  else
    let d := d.setFld Fld.TILE_STATE_STATE t tsRun
    let p := d.startPoint t
    let now := ((List.range (p + 1)).reverse.find? (fun n => d.vReq t n ≤ 10 * (d.railMv (t / 16) : Int))).getD 0
    let d := (d.setFld Fld.TILE_STATE_POINT t now).setPoint t p
    let d := { d with tileIdle := Fmap.del d.tileIdle t }
    ((List.range 4096).filter (fun n => loomTile n = t && d.loomState (BitVec.ofNat 12 n) = stWaking)).foldl
      (fun (d : Dev) k =>
        let n := BitVec.ofNat 12 k
        let d := d.setLoomState n stRunning
        if d.wingHolds (d.wingOf n) then d.askStop n .paused else d) d

/-- Looms of a tile. -/
def tileLooms (t : Nat) : List LoomId := ((List.range 4096).filter (fun n => loomTile n = t)).map (BitVec.ofNat 12)

/-- A loom keeps its tile running. -/
def Dev.keepsTile (d : Dev) (n : LoomId) : Bool :=
  let s := d.loomState n
  s = stWaking || s = stRunning || s = stPaused || s = stScrubbing

/-- TILE_GATE: idle for 10 µs; the looms clean and invalidate their caches, their TLBs are emptied. -/
def Dev.tileGate (d : Dev) (t : Nat) : Dev :=
  let ls := tileLooms t
  if !d.selvOn || t ≥ 64 || d.tileState t ≠ tsRun || ls.any d.keepsTile || !ls.all d.loomQuiet then d
  else match Fmap.find d.tileIdle t with
    | none => d
    | some since =>
      if d.tick < since + 10 then d
      else
        let d := ls.foldl Dev.loomFlush d
        let d := ls.foldl (fun (d : Dev) n => d.setLoom n { d.loom n with tlb := [] }) d
        let d := { d.setFld Fld.TILE_STATE_STATE t tsGated with
          tileAt := Fmap.put d.tileAt t d.tick,
          selv := { d.selv with pend := Fmap.del d.selv.pend t, grants := Fmap.del d.selv.grants t,
                                powerOk := d.selv.powerOk.filter (fun c => c.1 / 16 ≠ t) } }
        d.railAsk (t / 16)

/-- TILE_PLL_OFF. -/
def Dev.tilePllOff (d : Dev) (t : Nat) : Dev :=
  let delay := d.fld Fld.TILE_CTRL_PLLOFF_DELAY 0
  if !d.selvOn || t ≥ 64 || d.tileState t ≠ tsGated || delay = 0xFFFF || d.tick < Fmap.get 0 d.tileAt t + delay then d
  else d.setFld Fld.TILE_STATE_STATE t tsPllOff

/-! ### The arbiter and the cap (R415 to R420) -/

/-- Engages or releases the cap by A (R419). -/
def Dev.capState (d : Dev) : Dev :=
  let cap := d.fld Fld.SELV_CAP_CAP 0 * 10 ^ 9
  let a := d.selv.avg
  let d := if 100 * a ≥ 99 * cap then d.setFld Fld.SELV_STATUS_ENGAGED 0 1
    else if 100 * a < 95 * cap then d.setFld Fld.SELV_STATUS_ENGAGED 0 0 else d
  d.setFld Fld.SELV_POWER_ALLOW 0 (if d.fld Fld.SELV_STATUS_ENGAGED 0 = 1 then d.fld Fld.SELV_CAP_CAP 0 else 0xFFFF)

/-- One period's grants on one rail: the tiles with their wishes, capped by equal shares of a limit. -/
def shareRail (limit : Nat) (wish : List (Nat × Nat)) : List (Nat × Nat) :=
  let total := wish.foldl (fun (s : Nat) w => s + w.2) 0
  if total ≤ limit then wish else wish.map (fun w => (w.1, min w.2 (limit / max 1 wish.length)))

/-- ARBITER_PERIOD (R415 to R419).  DESIGN CHOICE (notes/assumptions/66.md): how X-dies and memory share what ALLOW leaves. -/
def Dev.arbiter (d : Dev) (x : ArbIn) : Dev :=
  if !d.selvOn || d.selv.tripped then d
  else
    let e := x.act * d.fld Fld.SELV_STATUS_CAL 0 / 4096
    let div := d.fld Fld.SELV_STATUS_DIVERGING 0 = 1
    let p := if div then max e x.meas else e
    let w := d.fld Fld.SELV_CAP_WINDOW 0
    let a := ((d.selv.avg : Int) + (((p : Int) * 10 ^ 6 - d.selv.avg) * 2) / ((w : Int) * 10 ^ 6)).toNat
    let d := { d with selv := { d.selv with avg := a, meas := x.meas, est := e } }
    let d := (d.setFld Fld.SELV_POWER_AVG 0 (a / 10 ^ 9)).capState
    let capped := d.fld Fld.SELV_STATUS_ENGAGED 0 = 1
    let allow := d.fld Fld.SELV_CAP_CAP 0 * 1000
    let tiles := (List.range 64).filter (fun t => d.tileState t = tsRun || d.tileState t = tsWaking)
    let floor (t : Nat) : Nat := x.floors.getD t 0
    let want (t : Nat) : Nat := if d.tileState t = tsWaking then floor t else max (x.demand.getD t 0) (floor t)
    let mv (t : Nat) : Nat := d.railMv (t / 16)
    -- the share of the compute budget of each RUN tile, in 0.25 A on its rail
    let share (t : Nat) : Nat := (allow - x.links - x.mem) / max 1 d.runTiles.length * 4 / max 1 (mv t)
    let byCap (t : Nat) : Nat := if capped then max (min (want t) (share t)) (floor t) else want t
    let floorMw := tiles.foldl (fun (s : Nat) t => s + floor t * mv t / 4) 0
    -- the X-dies are served in full, memory in full unless ALLOW is short with compute at its floor, and half at least
    let mem := if capped then max (x.mem / 2) (min x.mem (allow - x.links - floorMw)) else x.mem
    let d := { d with selv := { d.selv with linkGrant := x.links, memGrant := mem } }
    let imax := 4 * d.fld Fld.SELV_LIMITS_RAIL_IMAX 0
    let rise := 4 * d.fld Fld.SELV_LIMITS_RISE 0
    let d := d.setReason 0 (capped && (tiles.any (fun t => byCap t < want t) || d.selv.pointHit))
    let d := d.setReason 9 (capped && x.links + x.mem / 2 + floorMw > allow)
    let (d, railHit, slopeHit) := (List.range 4).foldl (fun (y : Dev × Bool × Bool) die =>
      let (d, r, s) := y
      let wish := (tiles.filter (fun t => t / 16 = die)).map (fun t => (t, byCap t))
      let w1 := shareRail imax wish
      let w2 := shareRail (Fmap.get 0 d.selv.railTotal die + rise) w1
      let ok := w2.filter (fun g => d.tileState g.1 = tsRun || floor g.1 ≤ g.2)
      let total := ok.foldl (fun (s : Nat) g => s + g.2) 0
      let keep := d.selv.grants.filter (fun c => c.1 / 16 ≠ die)
      let gs := ok.foldl (fun (m : Fmap Nat) (g : Nat × Nat) => Fmap.put m g.1 g.2) keep
      (({ d with selv := { d.selv with grants := gs, railTotal := Fmap.put d.selv.railTotal die total } } : Dev),
        r || decide (w1 ≠ wish), s || decide (w2 ≠ w1))) (d, false, false)
    ((d.setReason 1 (railHit || (!capped && d.selv.pointHit))).setReason 2 slopeHit).showReasons

/-- SELV_CAP_WRITE: each field stores the nearest bound of its range; the cap engages or releases at once. -/
def clamp (lo hi v : Nat) : Nat := min hi (max lo v)
def Dev.selvCapWrite (d : Dev) (h : HeadId) (v : Nat) : Dev :=
  d.barWrite h .selvage 0 (fun d =>
    let d := d.setFld Fld.SELV_CAP_CAP 0 (clamp 1500 3600 (v % 2 ^ 12))
    (d.setFld Fld.SELV_CAP_WINDOW 0 (clamp 1 30 (v / 2 ^ 16 % 2 ^ 5))).capState)

/-! ### The slow loop (R421 to R423) -/

/-- Phase of a tile: 0 COMPUTE, 1 MEMORY, 2 SYNC (R421). -/
def TileAct.phase (a : TileAct) : Nat := if a.clocks < 2 * a.busy then 0 else if a.clocks < 2 * a.wait then 1 else 2

def SlowIn.limit (x : SlowIn) (t : Nat) : Nat := min 15 (x.power.getD t 15)

/-- Since when the power limit has allowed each point of a tile (R423). -/
def Dev.noteAllowed (d : Dev) (t : Nat) : Fmap Nat :=
  ((List.range 16).drop 1).foldl (fun (m : Fmap Nat) n =>
    if d.powerLimit t < n then Fmap.del m (16 * t + n)
    else if (Fmap.find m (16 * t + n)).isSome then m else Fmap.put m (16 * t + n) d.tick) d.selv.powerOk

/-- The slow loop moves one RUN tile: down to its limit, or up by one point. -/
def Dev.slowMove (d : Dev) (t : Nat) : Dev :=
  let cur := d.point t
  let goal := d.targetPoint t
  let own := if (Fmap.get 0 d.selv.heatBy t).testBit 0 then d.heatLimit t else 15
  if goal < cur then (if d.mayMove t || d.locked || min d.extLimit own < cur then d.setPoint t goal else d)
  else if goal = cur || !d.mayMove t then d
  else if d.locked then d.setPoint t goal
  else match Fmap.find d.selv.powerOk (16 * t + (cur + 1)) with
    | some s => if s + 1000 ≤ d.tick then d.setPoint t (cur + 1) else d
    | none => d

/-- SLOW_LOOP. -/
def Dev.slowLoop (d : Dev) (x : SlowIn) : Dev :=
  if !d.selvOn || d.selv.tripped then d
  else
    let d := { d with selv := { d.selv with power := (List.range 64).foldl (fun (m : Fmap Nat) t => Fmap.put m t (x.limit t)) [] } }
    let d := d.runTiles.foldl (fun (d : Dev) t =>
      let d := d.setFld Fld.TILE_STATE_PHASE t (x.act.getD t {}).phase
      { d with selv := { d.selv with powerOk := d.noteAllowed t } }) d
    let hit := d.runTiles.any (fun t => d.powerLimit t < d.preferred t)
    let d := { d with selv := { d.selv with pointHit := hit } }
    let d := d.runTiles.foldl Dev.slowMove d
    let d := if hit then d.setReason (if d.fld Fld.SELV_STATUS_ENGAGED 0 = 1 then 0 else 1) true else d
    d.showReasons.jgNotify

/-! ### Calibration and divergence (R424, R425) -/

/-- The largest c below 2^13 with c^8 × e at most x. -/
def root8 (x e : Nat) : Nat :=
  [12, 11, 10, 9, 8, 7, 6, 5, 4, 3, 2, 1, 0].foldl (fun (c : Nat) b => if (c + 2 ^ b) ^ 8 * e ≤ x then c + 2 ^ b else c) 0

/-- CALIBRATION with the 1 ms averages of E and M in mW. -/
def Dev.calibrate (d : Dev) (e m : Nat) : Dev :=
  if !d.selvOn || d.selv.tripped then d
  else
    let cal := d.fld Fld.SELV_STATUS_CAL 0
    let (r, d) := if e = 0 && m = 0 then d.draw else (root8 (cal ^ 8 * m) e, d)
    let d := d.setFld Fld.SELV_STATUS_CAL 0 (clamp 3072 5447 r)
    let d := (d.setFld Fld.SELV_POWER_EST 0 (min 0xFFFF (e / 1000))).setFld Fld.SELV_POWER_MEAS 0 (min 0xFFFF (m / 1000))
    let diff := if e ≥ m then e - m else m - e
    let above : Bool := diff * 100 > 15 * (d.fld Fld.SELV_CAP_CAP 0 * 1000)
    let div := d.fld Fld.SELV_STATUS_DIVERGING 0 = 1
    let since : Option Nat := if above then (d.selv.divSince <|> some d.tick) else none
    let okSince : Option Nat := if above then none else (d.selv.okSince <|> some d.tick)
    let d := { d with selv := { d.selv with divSince := since, okSince := okSince } }
    let enter : Bool := match since with
      | some s => !div && decide (d.tick > s + 1000000)
      | none => false
    let leave : Bool := match okSince with
      | some s => div && decide (d.tick ≥ s + 1000000)
      | none => false
    let d := if enter then (d.setFld Fld.SELV_STATUS_DIVERGING 0 1).report 0x361 (mkDetail 0 0 0) noWing
      else if leave then d.setFld Fld.SELV_STATUS_DIVERGING 0 0 else d
    d.showReasons

/-! ### Heat (R430 to R434) -/

/-- Sensors of Table 17-4: 0 to 63 tiles, 64 to 79 periphery, 80 to 95 M-dies, 96 to 103 X-dies, 104 to 119 stacks. -/
def sensorCount : Nat := 120
def sensorGroup (i : Nat) : Nat := if i < 64 then 0 else if i < 80 then 1 else if i < 96 then 2 else if i < 104 then 3 else 4
def Dev.hasSensor (d : Dev) (i : Nat) : Bool :=
  i < 96 || (i < 104 && (i - 96) / 2 < d.asm.xdies) || (104 ≤ i && i < 120 && d.asm.hasStack (i - 104))

/-- Neighbours: the adjacent tiles of the die (4 by 4), or the rest of the group. -/
def Dev.neighbours (d : Dev) (i : Nat) : List Nat :=
  if i < 64 then
    let r := i % 16 / 4
    let c := i % 4
    (List.range 64).filter (fun j => j / 16 = i / 16 &&
      ((j % 16 / 4 = r && (j % 4 + 1 = c || c + 1 = j % 4)) || (j % 4 = c && (j % 16 / 4 + 1 = r || r + 1 = j % 16 / 4))))
  else (List.range sensorCount).filter (fun j => j ≠ i && sensorGroup j = sensorGroup i && d.hasSensor j)

def absDiff (a b : Int) : Nat := (a - b).natAbs

/-- The sensors that are there. -/
def Dev.sensors (d : Dev) : List Nat := (List.range sensorCount).filter d.hasSensor

/-- The highest of a list of readings; 0 of none. -/
def maxBy (f : Nat → Int) : List Nat → Int
  | [] => 0
  | j :: js => js.foldl (fun v k => max v (f k)) (f j)

/-- Takes the readings: failed sensors are reported once and replaced (R430). -/
def Dev.readSensors (d : Dev) (raw : List Int) : Dev :=
  let rd (i : Nat) : Int := raw.getD i 0
  let far (i : Nat) : Bool := !(d.neighbours i).isEmpty && (d.neighbours i).all (fun j => absDiff (rd i) (rd j) > 30)
  let differs : Fmap Nat := d.sensors.foldl (fun (m : Fmap Nat) i =>
    if far i then (if (Fmap.find m i).isSome then m else Fmap.put m i d.tick) else Fmap.del m i) d.selv.differs
  let bad (i : Nat) : Bool := rd i < -40 || rd i > 300 || (match Fmap.find differs i with
    | some s => decide (d.tick ≥ s + 1000)
    | none => false)
  let failed := d.sensors.filter bad
  let use (i : Nat) : Int :=
    if !failed.contains i then rd i
    else
      let group := if i < 64 then d.neighbours i else d.sensors.filter (fun j => sensorGroup j = sensorGroup i)
      let good := group.filter (fun j => !failed.contains j)
      maxBy rd (if good.isEmpty then group else good)
  let temps : Fmap Int := d.sensors.foldl (fun (m : Fmap Int) i => Fmap.put m i (use i)) []
  let new := failed.filter (fun i => !d.selv.failed.contains i)
  let d := { d with selv := { d.selv with temps := temps, failed := failed, differs := differs } }
  new.foldl (fun (d : Dev) i => d.report 0x360 (mkDetail 0 i 0) noWing) d

/-- The throttle point in 0.5 °C. -/
def Dev.throttleAt (d : Dev) : Int := 2 * (d.fld Fld.SELV_THERMAL_THROTTLE 0 : Int)

/-- The new heat limit of a tile: a hot tile loses a point of those it runs at, a hot die sensor lowers every tile's
limit by one, and a cool tile rises one point per 1 ms (R432, R433). -/
def Dev.heatNext (d : Dev) (t : Nat) (dieHot dieCool : Bool) : Nat :=
  let v := d.tempOf t
  let thr := d.throttleAt
  let lim := d.heatLimit t
  let due (n : Nat) : Bool := match Fmap.find d.selv.heatAt t with
    | some s => decide (d.tick ≥ s + n)
    | none => true
  let base := if d.tileState t = tsRun then min lim (d.point t) else lim
  if v > thr + 10 then 0
  else if v > thr && due 100 then base - 1
  else if dieHot && due 100 then lim - 1
  else if v < thr - 6 && dieCool && due 1000 then min 15 (lim + 1)
  else lim

/-- A tile's reading is shown and its heat limit moves. -/
def Dev.heatTile (d : Dev) (dieHot dieCool : Bool) (t : Nat) : Dev :=
  let lim := d.heatLimit t
  let new := d.heatNext t dieHot dieCool
  let why := if new < lim then (if d.tempOf t > d.throttleAt then 1 else 0) ||| (if dieHot then 2 else 0) else 0
  let d := d.setFld Fld.TILE_STATE_TEMP t (min 255 (d.tempOf t).toNat)
  if new = lim then d
  else
    let by_ := if new = 15 then Fmap.del d.selv.heatBy t else Fmap.put d.selv.heatBy t (Fmap.get 0 d.selv.heatBy t ||| why)
    { d.setFld Fld.TILE_STATE_HEAT_LIMIT t new with
      selv := { d.selv with heatAt := Fmap.put d.selv.heatAt t d.tick, heatBy := by_ } }

/-- Stacks above STACK_POINT have their admission halved until they read 3 °C below it (R433). -/
def Dev.hotStacks (d : Dev) : BitVec 16 :=
  let stk : Int := 2 * (d.fld Fld.SELV_THERMAL_STACK_POINT 0 : Int)
  (d.sensors.filter (104 ≤ ·)).foldl (fun (b : BitVec 16) i =>
    if d.tempOf i > stk then b ||| (1 : BitVec 16) <<< (i - 104)
    else if d.tempOf i ≤ stk - 6 then b &&& ~~~((1 : BitVec 16) <<< (i - 104)) else b) d.selv.stackHot

/-- Points of the RUN tiles. -/
def Dev.points (d : Dev) : List Nat := d.runTiles.map d.point

/-- SENSOR_SAMPLE with the readings in 0.5 °C: failed sensors are replaced, then the heat limits move. -/
def Dev.sensorSample (d : Dev) (raw : List Int) : Dev :=
  if !d.selvOn then d
  else
    let d := d.readSensors raw
    let dies := d.sensors.filter (fun i => 64 ≤ i && i < 104)
    let hot : Bool := dies.any (fun i => d.tempOf i > d.throttleAt)
    let cool : Bool := dies.all (fun i => d.tempOf i < d.throttleAt - 6)
    let d := (List.range 64).foldl (fun (d : Dev) t => d.heatTile hot cool t) d
    let d := { d with selv := { d.selv with dieHot := if hot then true else if cool then false else d.selv.dieHot,
                                            stackHot := d.hotStacks } }
    let most (l : List Nat) : Nat := (maxBy d.tempOf l % 65536).toNat
    let d := (d.setFld Fld.SELV_TEMP_JUNCTION_MAX 0 (most (d.sensors.filter (· < 104)))).setFld Fld.SELV_TEMP_STACK_MAX 0
      (most (d.sensors.filter (104 ≤ ·)))
    let e := d.dropPoints (fun t => d.tempOf t > d.throttleAt)
    (if e.points = d.points then e else e.jgNotify).showReasons

/-- THERMAL_TRIP: the fast clocks stop and THERMTRIP_N is asserted until cold reset (R434, R477). -/
def Dev.thermalTrip (d : Dev) : Dev :=
  if !d.pins.aonPower || d.selv.tripped then d
  else
    let d := { d with selv := { d.selv with tripped := true }, pins := { d.pins with thermtrip := true },
                      reg := { d.reg with running := false } }
    let d := (List.range 64).foldl (fun (d : Dev) t => d.setFld Fld.TILE_STATE_STATE t tsTripped) d
    (d.report 0x363 (mkDetail 0 0 0) noWing).showReasons

/-- THROTTLE_IN asserted or not; RST_N low and the fault phase ignore it (R429, R475, Table 19-6). -/
def Dev.throttleIn (d : Dev) (on : Bool) : Dev :=
  if d.pins.phase ≠ .run || !d.pins.rstN then d
  else
    let d := { d with pins := { d.pins with throttleIn := on } }
    (if on then (d.dropPoints (fun t => d.extLimit < d.point t)).jgNotify else d.jgNotify).showReasons

/-- RRL_ALERT. -/
def Dev.rrlAlert (d : Dev) : Dev := if d.selvOn then d.report 0x362 (mkDetail 0 0 0) noWing else d

/-- One microsecond of the reason counters and of the energy counter (R435, R436). -/
def Dev.selvTick (d : Dev) : Dev :=
  let r := d.fld Fld.SELV_STATUS_REASONS 0
  let d := (List.range 16).foldl (fun (d : Dev) k =>
    if r.testBit k then d.setFld Fld.SELV_REASON_DURATION k (d.fld Fld.SELV_REASON_DURATION k + 1) else d) d
  let nj := d.selv.nj + d.selv.meas
  let d := d.setFld Fld.SELV_ENERGY_ENERGY 0 (d.fld Fld.SELV_ENERGY_ENERGY 0 + nj / 1000)
  { d with selv := { d.selv with nj := nj % 1000 } }

end Sys2Proof.Machine
end

