-- ==== Sys2Proof/Machine/Vendor.lean ====
section
/-! DEFINITION. The vendor mailbox commands of Table 16-5 (spec/16). -/

namespace Sys2Proof.Machine

/-- A command of fixed payload length. -/
def mbSpec (op len : Nat) (fields : List (Nat × Nat)) : MbSpec := { op := op, len := fun _ => len, fields := fun _ => fields }
def MbSpec.by (s : MbSpec) (r : Right) : MbSpec := { s with right := r }
def MbSpec.starts (s : MbSpec) : MbSpec := { s with start := fun _ => true }
def MbSpec.back (s : MbSpec) : MbSpec := { s with bg := fun _ => true }
def MbSpec.inSafe (s : MbSpec) : MbSpec := { s with safe := true }

/-- A bit of a byte beyond those a payload uses. -/
def MbCmd.over (c : MbCmd) (byte bound : Nat) : Bool := c.num byte 1 ≥ bound

/-! ### Wing-grant group -/

def Dev.cmdWingCreate (d : Dev) : Dev :=
  d.mbRun ((mbSpec 0xC000 2 [(0, 2)]).starts) (fun c d =>
    if c.over 1 4 then .done rInvalid [] d else plain (d.wingCreate (c.num 0 1) (c.num 1 1 % 2) (c.num 1 1 ≥ 2)))

/-- The five kinds of WING_GRANT share an opcode: byte 1 selects the row; kinds above 4 are INVALID. -/
def grantSpec (kind len : Nat) (fields : List (Nat × Nat)) : MbSpec :=
  { (mbSpec 0xC001 len ((0, 2) :: fields)).starts with sel := fun c => c.num 1 1 = kind }

def Dev.cmdGrantLooms (d : Dev) : Dev :=
  d.mbRun { grantSpec 0 528 [(16, 512)] with
      sel := fun c => c.num 1 1 = 0 || c.num 1 1 ≥ 5,
      len := fun c => if c.num 1 1 = 0 then 528 else c.data.length } (fun c d =>
    if c.num 1 1 ≠ 0 then .done rInvalid [] d
    else
      let ns := ((List.range 4096).filter (fun n => ((c.data[16 + n / 8]?).getD 0).toNat.testBit (n % 8))).map (BitVec.ofNat 12)
      plain (d.grantLooms (c.num 0 1) ns))

def Dev.cmdGrantExtents (d : Dev) : Dev :=
  d.mbRun (grantSpec 1 16 [(4, 12)]).back (fun c d => started (c.num 8 8) (d.grantExtent (c.num 0 1) (c.num 8 8) (c.num 4 4) c.place))

def Dev.cmdGrantRegions (d : Dev) : Dev :=
  d.mbRun (grantSpec 2 8 [(4, 4)]) (fun c d => plain (d.grantRegions (c.num 0 1) (c.num 4 2) (c.num 6 2)))

def Dev.cmdGrantWays (d : Dev) : Dev :=
  d.mbRun (grantSpec 3 7 [(4, 3)]) (fun c d => plain (d.grantWays (c.num 0 1) (c.num 4 2) (c.num 6 1)))

def Dev.cmdGrantWindows (d : Dev) : Dev :=
  d.mbRun (grantSpec 4 5 [(4, 1)]) (fun c d => plain (d.grantWindows (c.num 0 1) (c.num 4 1)))

def Dev.cmdLoomReturn (d : Dev) : Dev :=
  d.mbRun (mbSpec 0xC002 6 [(0, 1), (4, 2)]) (fun c d =>
    match d.loomReturn (c.num 0 1) (c.num 4 2) with
    | (some r, d) => .done r [] d
    | (none, d) => .wait d)

def Dev.cmdWingRelease (d : Dev) : Dev :=
  d.mbRun (mbSpec 0xC003 1 [(0, 1)]).back (fun c d => started (c.num 0 1) (d.wingRelease (c.num 0 1) c.place))

def Dev.cmdWingPreserve (d : Dev) : Dev := d.mbRun (mbSpec 0xC004 1 [(0, 1)]) (fun c d => plain (d.wingPreserve (c.num 0 1)))

def Dev.cmdWingResume (d : Dev) : Dev :=
  d.mbRun ((mbSpec 0xC005 1 [(0, 1)]).by .wing) (fun c d => plain (d.wingResume (c.num 0 1)))

/-- A query of an existing wing. -/
def Dev.queryWing (d : Dev) (w : Nat) (out : List Byte) : MbRes :=
  if w ≥ 16 then .done rInvalid [] d else if d.wgState w = wgFree then .done rNotFound [] d else .done rOk out d

def Dev.cmdWingQuery (d : Dev) : Dev :=
  d.mbRun (mbSpec 0xC006 1 [(0, 1)]) (fun c d => d.queryWing (c.num 0 1) (d.wingQuery (c.num 0 1)))

def Dev.cmdStateDescriptor (d : Dev) : Dev :=
  d.mbRun ((mbSpec 0xC007 1 [(0, 1)]).by .wing) (fun c d => d.queryWing (c.num 0 1) (d.stateDescriptor (c.num 0 1)))

def Dev.cmdHeadBind (d : Dev) : Dev :=
  d.mbRun { mbSpec 0xC008 40 [(0, 3), (8, 32)] with start := fun c => c.num 2 1 ≠ 0 } (fun c d =>
    plain (d.headBind (c.num 0 1) (c.num 1 1) (c.num 2 1) ((List.range 4).map (fun n => c.num (8 + 8 * n) 8))))

def Dev.cmdQueueBind (d : Dev) : Dev :=
  d.mbRun { mbSpec 0xC009 8 [(0, 3), (4, 4)] with start := fun c => c.num 0 1 ≠ 0xFF } (fun c d =>
    plain (d.queueBind (c.num 0 1) (c.num 1 1) (c.num 2 1) (c.num 4 2) (c.num 6 2)))

def Dev.cmdKeyLoad (d : Dev) : Dev :=
  d.mbRun ((mbSpec 0xC00A 72 [(0, 1), (4, 68)]).by .sec).starts (fun c d =>
    plain (d.keyLoad (c.num 0 1) (c.num 4 4) (BitVec.ofNat 512 (c.num 8 64))))

/-- A port still performs a request that used an entry of the peer's window table (R368). -/
def Dev.windowBusy (d : Dev) (p first n : Nat) : Bool :=
  d.ports.any (fun c => d.fld Fld.IKQ_PORT_PEER c.1 = p && c.2.serve.any (fun s =>
    first ≤ s.2.off.toNat / 2 ^ 26 && s.2.off.toNat / 2 ^ 26 < first + n))

/-- WINDOW_SET waits for the requests that used the old entries. -/
def Dev.cmdWindowSet (d : Dev) : Dev :=
  d.mbRun { mbSpec 0xC00B 0 [] with
      start := fun _ => true
      len := fun c => if 1 ≤ c.num 2 2 && c.num 2 2 ≤ 256 then 8 + 8 * c.num 2 2 else c.data.length
      fields := fun c => [(0, 1), (2, 6), (8, 8 * c.num 2 2)] } (fun c d =>
    if c.num 2 2 = 0 || c.num 2 2 > 256 then .done rInvalid [] d
    else if d.windowBusy (c.num 0 1) (c.num 4 4) (c.num 2 2) then .wait d
    else plain (d.windowSet (c.num 0 1) (c.num 4 4) ((List.range (c.num 2 2)).map (fun i => BitVec.ofNat 64 (c.num (8 + 8 * i) 8)))))

def Dev.cmdLoomFence (d : Dev) : Dev :=
  d.mbRun (mbSpec 0xC00C 6 [(0, 1), (4, 2)]).back (fun c d => started (c.num 4 2) (d.loomFence (c.num 0 1) (c.num 4 2)))

def Dev.cmdLoomAdmit (d : Dev) : Dev :=
  d.mbRun (mbSpec 0xC00D 6 [(0, 1), (4, 2)]).starts (fun c d => plain (d.loomAdmit (c.num 0 1) (c.num 4 2)))

/-! ### Tiers group -/

/-- The display pages whose class or home another limit changes (R208). -/
def Dev.limitMoves (d : Dev) (l : Nat) : List Nat :=
  let e := d.setFld Fld.DSP_LAYOUT_LIMIT 0 l
  (List.range (d.dspSize / 2 ^ 26)).filter (fun p =>
    let a := p * 2 ^ 26
    decide (a < d.zEnd) != decide (a < e.zEnd) || (d.zEnd ≤ a && e.zEnd ≤ a && d.home a ≠ e.home a))

/-- Display slots of a page's class, in the order of R207: striped bays from the bottom, homed groups from the top. -/
def Dev.classSlots (d : Dev) (page : Nat) : List Slot :=
  let a := page * 2 ^ 26
  if a < d.zEnd then
    (List.range (1024 * 4)).flatMap (fun b => (List.range d.asm.groups).map (fun j => (⟨0, BitVec.ofNat 30 (j * 2 ^ 12 + b)⟩ : Slot)))
  else
    (List.range 1024).flatMap (fun i => (List.range d.asm.groups).map (fun j =>
      (⟨1, BitVec.ofNat 30 ((4 * d.home a + j) * 2 ^ 12 + (1023 - i))⟩ : Slot)))

/-- The slot that a page of the display range takes: where R207 puts it, else the first of its class that is clear of the
others, else a depot slot. -/
def Dev.slotFor (d : Dev) (taken : List Slot) (page : Nat) : Option Slot :=
  let clear (s : Slot) : Bool := d.slotOpen page s && taken.all (fun t => !s.clash t)
  ((d.initialSlot page :: d.classSlots page).find? clear).orElse fun _ => (d.tiers.free.filter (fun s => s.k = 2)).find? clear

/-- Gives slots to pages in order; none when one finds none. -/
def Dev.relocate (d : Dev) (taken : List Slot) : List Nat → Option (List (Nat × Slot))
  | [] => some []
  | p :: ps =>
    match d.slotFor taken p with
    | none => none
    | some s => (d.relocate (s :: taken) ps).map ((p, s) :: ·)

/-- The display pool that R202 withholds, clear of the slots in use: 8 striped slots with what rounding leaves over, and 2
homed slots for each M-die. -/
def Dev.dspPool (d : Dev) (taken : List Slot) : List Slot :=
  let take (n : Nat) (got cand : List Slot) : List Slot :=
    cand.foldl (fun (l : List Slot) s =>
      if l.length < got.length + n && (taken ++ l).all (fun t => !s.clash t) then l ++ [s] else l) got
  let r := d.dspReserve
  let striped := take (r.filter (fun s => s.k = 0)).length [] (r.filter (fun s => s.k = 0) ++
    (List.range (1024 * 4)).flatMap (fun b => (List.range d.asm.groups).map (fun j => (⟨0, BitVec.ofNat 30 (j * 2 ^ 12 + b)⟩ : Slot))))
  (List.range 4).foldl (fun (l : List Slot) m =>
    take 2 l (r.filter (fun s => s.k = 1 && s.n / 2 ^ 12 % 16 / 4 = m) ++
      (List.range 1024).flatMap (fun i => (List.range d.asm.groups).map (fun j =>
        (⟨1, BitVec.ofNat 30 ((4 * m + j) * 2 ^ 12 + (1023 - i))⟩ : Slot))))) striped

/-- STRIPE_LIMIT: no owned page may change, nor one that rotates.  The pages that change are copied to slots of their new class;
every other page stays in its slot; the display reserve lies clear of them all. -/
def Dev.stripeLimit (d : Dev) (l : Nat) : Nat × Dev :=
  let ps := d.limitMoves l
  if l > 16 then (rInvalid, d)
  else if ps.any (fun p => d.extentWing (p * 2 ^ 26) ≠ noWing) then (rOverlap, d)
  else if ps.any (fun p => (d.locOf p).st = .rotating || (d.locOf p).st = .held) then (rBusy, d)
  else
    let stay := (List.range (d.dspSize / 2 ^ 26)).filter (fun p => !ps.contains p)
    let e := d.copyUnits (fun a => ps.contains (a / 2 ^ 26))
    let e := ps.foldl (fun (e : Dev) p => e.copyFaulted p (d.locOf p).at_) e
    -- pages that stay keep the slots they have, named or not
    let e := (stay.filter (fun p => (d.locOf p).at_ ≠ (d.setFld Fld.DSP_LAYOUT_LIMIT 0 l).initialSlot p)).foldl (fun (e : Dev) p =>
      e.setLoc p (d.locOf p)) e
    let loc := e.tiers.loc.filter (fun c => !ps.contains c.1)
    let e := ({ e with tiers := { e.tiers with loc := loc } } : Dev).setFld Fld.DSP_LAYOUT_LIMIT 0 l
    let kept := (stay ++ (List.range (d.depSize / 2 ^ 26)).map (· + depotBase / 2 ^ 26)).map (fun p => (e.locOf p).at_) ++
      d.tiers.rots.map (fun r => r.2.dst) ++ d.tiers.lostSlots
    match e.relocate kept ps with
    | none => (rNoSpace, d)
    | some ms =>
      let e := (ms.filter (fun x => x.2 ≠ e.initialSlot x.1)).foldl (fun (e : Dev) x => e.setLoc x.1 ⟨.resident, x.2⟩) e
      let used := kept ++ ms.map (·.2)
      (rOk, e.setFree (e.dspPool used ++ d.tiers.free.filter (fun s => s.k = 2 && !used.contains s)))

def Dev.cmdStripeLimit (d : Dev) : Dev :=
  d.mbRun (mbSpec 0xC010 1 [(0, 1)]).starts.back (fun c d => atOnce (c.num 0 1) [] (d.stripeLimit (c.num 0 1)))

def LocSt.code : LocSt → Nat
  | .unpopulated => 0 | .resident => 1 | .rotating => 2 | .held => 3

/-- A location entry with home 0's HEAT (Table 8-3). -/
def Dev.locEntry (d : Dev) (p : Nat) : Nat :=
  let l := d.locOf p
  if l.st = .unpopulated then 0
  else Fmap.get 0 d.tiers.heat (4 * p) * 2 ^ 48 + l.st.code * 2 ^ 34 + l.at_.kind.toNat * 2 ^ 30 + l.at_.slot.toNat

def Dev.cmdLocationRead (d : Dev) : Dev :=
  d.mbRun (mbSpec 0xC011 6 [(0, 6)]) (fun c d =>
    let n := c.num 4 2
    if n = 0 || n > 256 || c.num 0 4 ≥ 2 ^ 22 then .done rInvalid [] d
    else .done rOk ((List.range n).flatMap (fun i => le 8 (d.locEntry (c.num 0 4 + i)))) d)

/-- Sum of the four homes' HEAT (R215). -/
def Dev.pageHeat (d : Dev) (p : Nat) : Nat := (List.range 4).foldl (fun (s : Nat) m => s + Fmap.get 0 d.tiers.heat (4 * p + m)) 0

/-- Inserts into a list ordered by `le`, keeping the first n. -/
def insTop (le : Nat × Nat → Nat × Nat → Bool) (n : Nat) (x : Nat × Nat) (l : List (Nat × Nat)) : List (Nat × Nat) :=
  ((l.filter (fun y => le y x)) ++ x :: l.filter (fun y => !le y x)).take n

/-- The hottest, then the coldest 32 pages of a kind; equal ones in page order. -/
def Dev.tierExtremes (d : Dev) (kind : Nat) : List Byte :=
  let ps := (d.pages.filter (fun p => (d.locOf p).at_.k = kind)).map (fun p => (p, d.pageHeat p))
  let hot := ps.foldl (fun l x => insTop (fun y z => y.2 ≥ z.2) 32 x l) []
  let cold := ps.foldl (fun l x => insTop (fun y z => y.2 ≤ z.2) 32 x l) []
  (hot ++ cold).flatMap (fun x => le 4 x.1 ++ le 4 x.2)

def Dev.cmdTierStats (d : Dev) : Dev :=
  d.mbRun { mbSpec 0xC012 10 [] with
      fields := fun c => if c.num 0 1 = 0 then [(0, 1), (4, 6)] else [(0, 2)] } (fun c d =>
    let n := c.num 8 2
    if c.num 0 1 > 1 || c.num 1 1 > 2 then .done rInvalid [] d
    else if c.num 0 1 = 1 then .done rOk (d.tierExtremes (c.num 1 1)) d
    else if n = 0 || n > 512 || c.num 4 4 ≥ 2 ^ 22 then .done rInvalid [] d
    else .done rOk ((List.range n).flatMap (fun i => le 4 (d.pageHeat (c.num 4 4 + i)))) d)

/-- The mailbox's last rotation or region run, for Request Abort. -/
def Dev.noteJob (d : Dev) (c : MbCmd) (kind i : Nat) : Dev :=
  { d with reg := { d.reg with lastJob := Fmap.put d.reg.lastJob c.place (kind, i) } }

def Dev.cmdRotate (d : Dev) : Dev :=
  d.mbRun (mbSpec 0xC013 5 [(0, 5)]).starts (fun c d =>
    let (r, i, d) := d.rotate (c.num 0 4) (c.num 4 1)
    if r = rOk then .done r (le 1 i) (d.noteJob c 0 i) else .done r [] d)

def Dev.cmdRotateAbort (d : Dev) : Dev := d.mbRun (mbSpec 0xC014 1 [(0, 1)]) (fun c d => plain (d.rotAbort (c.num 0 1)))

def Dev.cmdAtriumPin (d : Dev) : Dev :=
  d.mbRun ((mbSpec 0xC015 24 [(0, 2), (8, 16)]).by .wing).starts.back (fun c d =>
    if c.over 1 2 then .done rInvalid [] d
    else
      let x := d.onWing (c.num 0 1) (d.atriumPin (c.num 0 1) (c.num 8 8) (c.num 16 8) (c.num 1 1 = 1))
      if x.1 = rOk && !d.rangeOpen (c.num 8 8) (c.num 16 8) then .wait d else atOnce (c.num 8 8) [] x)

def Dev.cmdAtriumUnpin (d : Dev) : Dev :=
  d.mbRun ((mbSpec 0xC016 24 [(0, 1), (8, 16)]).by .wing).back (fun c d =>
    let x := d.onWing (c.num 0 1) (d.atriumUnpin (c.num 0 1) (c.num 8 8) (c.num 16 8))
    if x.1 = rOk && !d.rangeOpen (c.num 8 8) (c.num 16 8) then .wait d else atOnce (c.num 8 8) [] x)

/-- STACK_EVACUATE and CHANNEL_EVACUATE: BUSY while one of the same object runs or the stack is RETIRED. -/
def Dev.cmdStackEvacuate (d : Dev) : Dev :=
  d.mbRun (mbSpec 0xC017 1 [(0, 1)]).starts.back (fun c d =>
    let s := c.num 0 1
    if s ≥ 16 then .done rInvalid [] d
    else if !d.asm.hasStack s || d.stackState s = 0 then .done rNotFound [] d
    else if d.stackState s = 3 || d.tiers.evac.any (fun e => e.1 = s) then .done rBusy [] d
    else
      let x := d.evacuate s c.place
      -- an evacuation with nothing to move has ended already
      if x.1 = rOk && !x.2.tiers.evac.any (fun e => e.1 = s) then atOnce s [] x else started s x)

def Dev.cmdChannelEvacuate (d : Dev) : Dev :=
  d.mbRun (mbSpec 0xC018 1 [(0, 1)]).starts.back (fun c d =>
    let k := c.num 0 1
    if k ≥ 24 then .done rInvalid [] d
    else if d.chanState k = 0 then .done rNotFound [] d
    else if d.chanState k ≠ 1 || d.tiers.evac.any (fun e => e.1 ≥ 16 && (d.chanGroup k).contains (e.1 - 16)) then .done rBusy [] d
    else
      let x := d.evacuate (16 + k) c.place
      if x.1 = rOk && !x.2.tiers.evac.any (fun e => e.1 = 16 + k) then atOnce k [] x else started k x)

def Dev.cmdChannelOffline (d : Dev) : Dev :=
  d.mbRun (mbSpec 0xC019 1 [(0, 1)]) (fun c d =>
    let k := c.num 0 1
    if k ≥ 24 then .done rInvalid [] d
    else if d.chanState k ≠ 2 then .done rBusy [] d
    else .done rOk [] (d.setChanState k 3))

/-- CHANNEL_RETRAIN: a display channel repairs lanes; an EVACUATED or OFFLINE depot channel returns with its group when
the population it reads suits Table 8-1 and the other channels (R219, R231). -/
def Dev.chanRetrain (d : Dev) (tier s k : Nat) (popOk : Bool) (t : TrainRes) : Nat × Dev :=
  if tier = 0 then
    if s ≥ 16 || k ≥ 32 then (rInvalid, d)
    else if !d.asm.hasStack s || d.stackState s = 0 then (rNotFound, d)
    else if d.stackState s = 3 then (rBusy, d)
    else
      let c := 32 * s + k
      let spares := t.lanes.length > 0 && Fmap.get 0 d.tiers.lanesUsed c < 2
      if d.repairSlot.isNone && (spares || t.cmdLane) then (rNoSpace, d.report 0x374 0 noWing)
      else (rOk, d.laneRepair c t)
  else if tier > 1 || s ≠ 0 || k ≥ 24 then (rInvalid, d)
  else if d.chanState k = 0 then (rNotFound, d)
  else if !popOk then (rInvalid, d)
  else
    let d := d.setFault (512 + k) false
    if d.chanState k = 1 then (rOk, d)
    else
      let d := d.setChanState k 1
      let back (s : Slot) : Bool := s.k = 2 && (d.slotChans s).contains k
      let d : Dev := { d with tiers := { d.tiers with free := d.tiers.free ++ d.tiers.lostSlots.filter back,
                                                      lostSlots := d.tiers.lostSlots.filter (fun s => !back s) } }
      (rOk, (d.chanGroup k).foldl (fun (d : Dev) j => if d.chanState j = 2 then d.setChanState j 1 else d) d)

def Dev.cmdChannelRetrain (d : Dev) (popOk : Bool) (t : TrainRes) : Dev :=
  d.mbRun (mbSpec 0xC01A 3 [(0, 3)]).starts.back (fun c d => atOnce (c.num 0 1) [] (d.chanRetrain (c.num 0 1) (c.num 1 1) (c.num 2 1) popOk t))

/-! ### Integrity group -/

/-- The frame a payload names. -/
def MbCmd.frame (c : MbCmd) (row : Nat) : Frame :=
  let depot := c.num 0 1 = 1
  ⟨depot, if depot then c.num 2 1 else 32 * c.num 1 1 + c.num 2 1, c.num 3 1, c.num 4 1, row⟩

/-- TIER, stack and channel are within range; a depot frame names stack 0. -/
def MbCmd.frameRange (c : MbCmd) : Bool :=
  if c.num 0 1 = 0 then c.num 1 1 < 16 && c.num 2 1 < 32 else c.num 0 1 = 1 && c.num 1 1 = 0 && c.num 2 1 < 24

def Dev.cmdRetireFrame (d : Dev) : Dev :=
  d.mbRun (mbSpec 0xC020 12 [(0, 5), (8, 4)]).starts.back (fun c d =>
    let f := c.frame (c.num 8 4)
    if !c.frameRange then .done rInvalid [] d
    else if d.tiers.retired.any (fun r => r.1 = f) then .done rBusy [] d
    else started f.home (d.retire f false c.place))

def Dev.cmdRetireBank (d : Dev) : Dev :=
  d.mbRun (mbSpec 0xC021 5 [(0, 5)]).starts.back (fun c d =>
    let f := c.frame 0
    if !c.frameRange then .done rInvalid [] d else started f.home (d.retire f true c.place))

/-- The slots of a depot channel are being evacuated, or a failed evacuation waits to be resumed. -/
def Dev.chanEmptying (d : Dev) (k : Nat) : Bool :=
  (d.tiers.evac.map (·.1) ++ d.tiers.evacHalt).any (fun e => e ≥ 16 && (d.chanGroup k).contains (e - 16))

/-- MARGIN with the offsets each lane passed, as the controller measured them (R235). -/
def Dev.cmdMargin (d : Dev) (res : List (Byte × Byte)) : Dev :=
  d.mbRun (mbSpec 0xC022 7 [(0, 7)]).starts.back (fun c d =>
    let depot := c.num 0 1 = 1
    let k := c.num 2 1
    let out := le 2 res.length ++ res.flatMap (fun p => [p.1, p.2])
    let dev := c.num 6 1
    if !c.frameRange || c.num 4 1 > 4 || (depot && (c.num 4 1 = 4 || c.num 3 1 > 1 || c.num 5 1 ≥ d.chanRanks || (dev > 9 && dev ≠ 0xFF)))
        || (!depot && (c.num 3 1 ≠ 0 || c.num 5 1 ≠ 0 || (dev ≠ 0 && dev ≠ 0xFF))) then .done rInvalid [] d
    else if depot then
      (if d.chanState k = 0 then .done rNotFound [] d
       else if d.chanFaulted (512 + k) || d.chanEmptying k then .done rBusy [] d
       else atOnce (512 + k) out (rOk, d))
    else
      let s := c.num 1 1
      if !d.asm.hasStack s || d.stackState s = 0 then .done rNotFound [] d
      else if d.stackState s = 2 || d.chanFaulted (32 * s + k) then .done rBusy [] d
      else atOnce (32 * s + k) out (rOk, d))

/-! ### Reduction group (Table 10-11) -/

/-- A region command: the region exists, belongs to a wing, and is in one of the states. -/
def Dev.onRegion (d : Dev) (r : Nat) (states : List Nat) (f : MbRes) : MbRes :=
  if r ≥ 4096 then .done rInvalid [] d
  else if d.regionWing r ≥ 16 then .done rNotFound [] d
  else if !states.contains (d.rgState r) then .done rBusy [] d
  else f

def Dev.cmdRegionEnable (d : Dev) : Dev :=
  d.mbRun ((mbSpec 0xC030 72 [(0, 2), (8, 64)]).by .region).starts (fun c d =>
    let r := c.num 0 2
    let v := BitVec.ofNat 512 (c.num 8 64)
    let w := d.regionWing r
    if r ≥ 4096 then .done rInvalid [] d
    else if w ≥ 16 then .done rNotFound [] d
    else match d.enableRefused w r v with
      | some e => .done e [] d
      | none =>
        let e := d.regionOpen r v
        if d.epochReady r v then .done rOk [] e else .wait e)

def Dev.cmdRegionDisable (d : Dev) : Dev :=
  d.mbRun ((mbSpec 0xC031 2 [(0, 2)]).by .region) (fun c d =>
    d.onRegion (c.num 0 2) [rgOpen, rgFaulted] (.done rOk [] (d.regionClose (c.num 0 2))))

def Dev.cmdRegionRun (d : Dev) : Dev :=
  d.mbRun ((mbSpec 0xC032 2 [(0, 2)]).by .region).starts (fun c d =>
    d.onRegion (c.num 0 2) [rgOpen] (.done rOk [] ((d.triggerRegion (c.num 0 2)).noteJob c 1 (c.num 0 2))))

def Dev.cmdRegionReopen (d : Dev) : Dev :=
  d.mbRun ((mbSpec 0xC033 2 [(0, 2)]).by .region).starts (fun c d =>
    d.onRegion (c.num 0 2) [rgFaulted] (.done rOk [] (d.regionReopen (c.num 0 2))))

def Dev.cmdRegionRerun (d : Dev) : Dev :=
  d.mbRun ((mbSpec 0xC034 3 [(0, 3)]).by .region).starts (fun c d =>
    let r := c.num 0 2
    d.onRegion r [rgFaulted]
      (if c.num 2 1 > d.desc r 240 4 then .done rInvalid [] d
       else .done rOk [] ((d.regionRerun r (c.num 2 1)).noteJob c 1 r)))

def Dev.cmdRegionAbort (d : Dev) : Dev :=
  d.mbRun ((mbSpec 0xC035 2 [(0, 2)]).by .region) (fun c d =>
    d.onRegion (c.num 0 2) [rgWaiting, rgRunning] (.done rOk [] (d.abortRegion (c.num 0 2) 4)))

/-! ### Records of boot flash -/

/-- PORT_CONFIG: a bit for each port of the X-dies present; it takes effect at the next cold start. -/
def Dev.cmdPortConfig (d : Dev) : Dev :=
  d.mbRun (mbSpec 0xC040 2 [(0, 2)]) (fun c d =>
    if c.num 0 2 ≥ 2 ^ (2 * d.asm.xdies) then .done rInvalid [] d
    else .done rOk [] { d with bifurRec := BitVec.ofNat 8 (c.num 0 2) })

/-- PORT_MAP: SELF and the peer of every port, 0xFF where unused. -/
def Dev.cmdPortMap (d : Dev) : Dev :=
  d.mbRun (mbSpec 0xC041 18 [(0, 18)]) (fun c d =>
    let ps := (List.range 16).map (fun q => c.num (2 + q) 1)
    if c.num 0 1 > 7 || c.num 1 1 ≠ 0 || ps.any (fun p => p > 7 && p ≠ 0xFF) then .done rInvalid [] d
    else .done rOk [] { d with reg := { d.reg with portMap := c.num 0 1 :: ps } })

/-! ### Service -/

/-- VF_RECALIBRATE with the raises the monitors ask for: tile, point, offset (R408). -/
def Dev.recalibrate (d : Dev) (mask : Nat) (persist : Bool) (raises : List (Nat × Nat × Int)) : Nat × List Byte × Dev :=
  let named := (List.range 64).filter (fun t => mask.testBit t)
  let done := named.filter (fun t => (tileLooms t).all (fun n => d.loomState n = stIdle))
  let bits (l : List Nat) : Nat := l.foldl (fun v t => v + 2 ^ t) 0
  let out := le 8 (bits done) ++ le 8 (bits (named.filter (fun t => !done.contains t)))
  let rs := raises.filter (fun x => done.contains x.1 && x.2.1 < 16 && decide (d.vfOffset x.1 x.2.1 < x.2.2) && decide (x.2.2 < 128))
  let (full, d) := rs.foldl (fun (y : Bool × Dev) x =>
    let (full, d) := y
    let (ok, d) := if persist then
        d.repairAdd [4, x.1 / 16, x.1 % 16, 0, 0, x.2.1, (x.2.2 % 256).toNat, 0, 0, 0, 0, 0]
      else (true, d)
    if ok then (full, { d with selv := { d.selv with vf := Fmap.put d.selv.vf (16 * x.1 + x.2.1) x.2.2 } }) else (true, d)) (false, d)
  (if full then rNoSpace else rOk, out, d)

def Dev.cmdVfRecalibrate (d : Dev) (raises : List (Nat × Nat × Int)) : Dev :=
  d.mbRun (mbSpec 0xC050 9 [(0, 9)]).back (fun c d =>
    if c.over 8 2 then .done rInvalid [] d
    else
      let (r, out, d) := d.recalibrate (c.num 0 8) (c.num 8 1 = 1) raises
      .bg (c.num 0 8) (some (r, out)) ((List.range 4).foldl Dev.railAsk d))

/-- Output of HEALTH (Table 16-7). -/
def Dev.health (d : Dev) : List Byte :=
  let badStacks := (List.range 16).filter (fun s => d.asm.hasStack s && d.stackState s ≠ 1)
  let chans := (List.range 24).filter (fun c => d.chanState c ≠ 1)
  let free (f : Field) (n : Nat) : Nat := (List.range n).foldl (fun (s : Nat) i => s + d.fld f i) 0
  le 1 d.reg.slot ++ le 1 (b01 d.reg.safe) ++ le 2 (d.fld Fld.SELV_TEMP_JUNCTION_MAX 0) ++ le 2 (d.fld Fld.SELV_TEMP_STACK_MAX 0) ++
    le 2 d.repairUsed ++ le 8 (Fmap.get 0 d.reg.fwVer d.reg.slot) ++ le 8 d.reg.ucodeVer ++ le 4 (d.fld Fld.LEDGER_STATUS_OPEN_COUNT 0) ++
    le 2 badStacks.length ++ le 2 chans.length ++ le 4 (free Fld.SPARE_DSP_FREE 16) ++ le 4 (free Fld.SPARE_DEP_FREE 24) ++ le 8 d.tick

def Dev.cmdHealth (d : Dev) : Dev := d.mbRun (mbSpec 0xC051 0 []).inSafe (fun _ d => .done rOk d.health d)

/-- UCODE_RELOAD: the lowest M-die of the mask starts to drain (R403). -/
def Dev.cmdUcodeReload (d : Dev) : Dev :=
  d.mbRun (mbSpec 0xC052 1 [(0, 1)]).back (fun c d =>
    let ms := (List.range 4).filter (fun m => (c.num 0 1).testBit m)
    if c.over 0 16 then .done rInvalid [] d
    else if !d.reg.ucode.isEmpty then .done rBusy [] d
    else match ms with
      | [] => .bg (c.num 0 1) (some (rOk, [])) d
      | m :: _ =>
        .bg 0 none (({ d with reg := { d.reg with ucode := ms, ucodeBox := c.place } } : Dev).orFld Fld.CONS_STATE_DRAINING 0 (2 ^ m)))

/-- No engine of an M-die works: its runs, the copies under way, its retirement have ended. -/
def Dev.enginesIdle (d : Dev) (m : Nat) : Bool :=
  d.runs.all (fun r => d.home (d.regBase r.2.region) ≠ m) &&
    (List.range 16).all (fun i => d.rotStatus i ≠ rsSwitching && (d.rotStatus i ≠ rsCopying || d.fld Fld.ROT_STATE_ROUNDS i = 0)) &&
    d.tiers.retiring.all (fun r => r.home ≠ m)

/-- UCODE_LOAD: the draining M-die loads and verifies the microcode; then the next one drains, or the reload ends. -/
def Dev.ucodeLoad (d : Dev) (ok : Bool) : Dev :=
  match d.reg.ucode with
  | [] => d
  | m :: ms =>
    if !d.reg.running || !d.enginesIdle m then d
    else
      let d := d.clrFld Fld.CONS_STATE_DRAINING 0 (2 ^ m)
      if !ok then ({ d with reg := { d.reg with ucode := [] } } : Dev).bgEnd 0xC052 0 rInternal []
      else match ms with
        | n :: _ => ({ d with reg := { d.reg with ucode := ms } } : Dev).orFld Fld.CONS_STATE_DRAINING 0 (2 ^ n)
        | [] => ({ d with reg := { d.reg with ucode := [], ucodeVer := Fmap.get 0 d.reg.fwVer 3 } } : Dev).bgEnd 0xC052 0 rOk []

def Dev.cmdProvRead (d : Dev) : Dev :=
  d.mbRun (mbSpec 0xC054 4 [(0, 4)]).inSafe (fun c d =>
    let o := c.num 0 2
    let n := c.num 2 2
    if n = 0 || n > 4096 || o + n > 2 ^ 16 then .done rInvalid [] d
    else .done rOk ((List.range n).map (fun i =>
      if 0x4000 ≤ o + i && o + i < 0x4100 then 0 else BitVec.ofNat 8 (d.provByte (o + i)))) d)

end Sys2Proof.Machine
end

