-- ==== Sys2Proof/Machine/Ikiquel.lean ====
section
/-! DEFINITION. Ikiquel links (spec/14): flits, replay, lanes, training, breaks; messages of peers; the job group over
Ikiquel and over the lock ring (R469). -/

namespace Sys2Proof.Machine

def replayTime (d : Dev) : Nat := d.fld Fld.IKQ_TIMERS_REPLAY_TIMER 0

/-! ### Breaks (R362, R364) -/

/-- The link of a port breaks: every request without a response takes its outcome of Table 14-5 and is reported. -/
def Dev.portBreak (d : Dev) (q : PortId) : Dev :=
  if !d.portUp q then d
  else
    let p := d.port q
    let gone := (p.outs ++ p.queue).filter (fun i => i.own.isSome)
    let d := d.setPort q { p with outs := [], queue := [], replay := [], rx := [], starved := [], resends := 0,
                                  brokenAt := some d.tick, failedAt := none }
    let d := ((d.setFld Fld.IKQ_PORT_STATE q.toNat psDown).setFld Fld.IKQ_PORT_LANES_UP q.toNat 0).satAdd Fld.IKQ_ERR_BREAKS q.toNat 1
    let d := d.report (portSrc q.toNat 2) (mkDetail 0 q.toNat 0) noWing
    -- unsent stores to the peer are discarded (R165)
    let d := d.discardStores (fun x => x = .peer (BitVec.ofNat 3 (d.fld Fld.IKQ_PORT_PEER q.toNat)))
    gone.foldl (fun (d : Dev) i =>
      let d := d.report (portSrc q.toNat 3) (mkDetail i.m.off.toNat i.m.src.toNat 0) i.m.wing.toNat
      match i.own with
      | some (a, tag) => d.answerAgent a tag { lost := true, poison := 15 }
      | none => d) d

/-- LANE_LOCK_LOSS. -/
def Dev.laneLockLoss (d : Dev) (q : PortId) : Dev := d.portBreak q

/-- TXN_TIMEOUT: a request of this package is without a response too long. -/
def Dev.txnTimeout (d : Dev) (q : PortId) : Dev :=
  if (d.port q).outs.any (fun i => i.since ≤ d.tick) then d.portBreak q else d

/-- CREDIT_TIMEOUT; the timers pause during a width change (R348, R356). -/
def Dev.creditTimeout (d : Dev) (q : PortId) : Dev :=
  if d.portState q = psUp && (d.port q).starved.any (fun c => c.2 ≤ d.tick) then d.portBreak q else d

/-! ### Replay (R351 to R353) -/

/-- Sends again every flit of the replay buffer from the one numbered `n`. -/
def Dev.sendAgain (d : Dev) (q : PortId) (n : BitVec 12) : Dev :=
  let p := d.port q
  let due := d.tick + replayTime d
  let oldest := (p.replay.head?.map (·.seq)).getD p.nextSeq
  let from_ (f : PFlit) : Bool := (f.seq - oldest).toNat ≥ (n - oldest).toNat
  let d := d.setPort q { p with replay := p.replay.map (fun f => if from_ f then { f with due := due } else f) }
  (p.replay.filter from_).foldl (fun (d : Dev) f => d.sendFlit q f.seq.toNat 1 0 f.slots) d

/-- A resend of R353; the eighth without progress breaks the link. -/
def Dev.resend (d : Dev) (q : PortId) (n : BitVec 12) : Dev :=
  let p := d.port q
  let d := d.setPort q { p with resends := p.resends + 1, lastResend := some (n, d.tick + replayTime d) }
  let d := (d.satAdd Fld.IKQ_ERR_REPLAYS q.toNat 1).report (portSrc q.toNat 0) (mkDetail 0 q.toNat 1) noWing
  if p.resends + 1 ≥ 8 then d.portBreak q else d.sendAgain q n

/-- REPLAY_TIMER_EXPIRY. -/
def Dev.replayExpiry (d : Dev) (q : PortId) : Dev :=
  match (d.port q).replay with
  | f :: _ => if d.portState q = psUp && f.due < d.tick then d.resend q f.seq else d
  | [] => d

/-- Sends a NAK for NEXT_RX, at most once per replay interval. -/
def Dev.sendNak (d : Dev) (q : PortId) : Dev :=
  let p := d.port q
  let recent : Bool := match p.lastNak with
    | some (n, t) => decide (n = p.nextRx) && decide (d.tick < t)
    | none => false
  if recent then d
  else (d.setPort q { p with lastNak := some (p.nextRx, d.tick + replayTime d) }).sendFlit q 0 2 1 []

/-- Takes an acknowledgement: frees the flits before `a`; a NAK for a held flit asks for a resend. -/
def Dev.takeAck (d : Dev) (q : PortId) (type_ : Nat) (a : BitVec 12) : Dev :=
  let p := d.port q
  let oldest := (p.replay.head?.map (·.seq)).getD p.nextSeq
  let k := (a - oldest).toNat
  if (type_ ≠ 1 && type_ ≠ 2) || k > p.replay.length then d
  else
    let rest := p.replay.drop k
    let d := d.setPort q { p with replay := rest, resends := if k > 0 then 0 else p.resends }
    let recent : Bool := match p.lastResend with
      | some (n, t) => decide (n = a) && decide (d.tick < t)
      | none => false
    if type_ = 2 && !rest.isEmpty && !recent then d.resend q a else d

/-- Takes a credit return. -/
def Dev.takeCredit (d : Dev) (q : PortId) (vc n : Nat) : Dev :=
  if vc > 5 || n = 0 then d
  else
    let p := d.port q
    d.setPort q { p with credits := Fmap.put p.credits vc (p.credit vc + n), starved := Fmap.del p.starved vc }

/-! ### Reception of messages (R358, R359) -/

/-- A header that breaks R359: unassigned opcode, reserved field, length or line crossing. -/
def PMsg.bad (m : PMsg) : Bool :=
  let known := [opcRd, opcAtom, opcWr, opcWrm, opcCmp, opcRdata, opcAtomdata, opcJg].contains m.opc
  let req := m.opc = opcRd || m.opc = opcAtom || m.opc = opcWr || m.opc = opcWrm
  let o := m.off.toNat
  let n := m.len.toNat
  !known || m.rsvd ≠ 0 || o ≥ 2 ^ 41 ||
    (req && (m.status ≠ 0 || n = 0 || n > 256 || o % 256 + n > 256 || (m.opc = opcWrm && (n ≠ 64 || o % 64 ≠ 0)) ||
      (m.opc = opcAtom && (m.attr.toNat > 9 || o % (if m.wide then 8 else 4) ≠ 0))))

/-- Sends a response to a request of the peer, unless the link has another epoch by now (R363, R364). -/
def Dev.respond (d : Dev) (q : PortId) (m : PMsg) (r : PMsg) : Dev :=
  if d.portUp q && m.epoch.toNat = d.fld Fld.IKQ_PORT_EPOCH q.toNat then
    d.enqueue q { m := { r with epoch := m.epoch, tag := m.tag, src := m.src, wing := m.wing }, since := d.tick }
  else d

/-- STATUS DENIED, with every sector poisoned where data is due (R359, R367). -/
def Dev.denyPeer (d : Dev) (q : PortId) (m : PMsg) : Dev :=
  if m.opc = opcWr || m.opc = opcWrm then d.respond q m { opc := opcCmp, vc := vcRsp, epoch := 0, status := 1 }
  else if m.opc = opcAtom then d.respond q m { opc := opcAtomdata, vc := vcDat, epoch := 0, attr := 15, status := 1, len := 8 }
  else if m.opc = opcRd then d.respond q m { opc := opcRdata, vc := vcDat, epoch := 0, attr := 15, status := 1, len := m.len }
  else d

/-- A complete message: of another epoch, discarded; malformed, reported and denied; else it waits to be handled. -/
def Dev.arrived (d : Dev) (q : PortId) (m : PMsg) : Dev :=
  if m.bad then
    ((d.report (portSrc q.toNat 3) (mkDetail m.off.toNat m.src.toNat 1) noWing).oweSlots q m.vc.toNat m.slotCount).denyPeer q m
  else if m.epoch.toNat ≠ d.fld Fld.IKQ_PORT_EPOCH q.toNat then d.oweSlots q m.vc.toNat m.slotCount
  else d.setPort q { d.port q with inq := (d.port q).inq ++ [m] }

/-- Cuts the received slots into messages; an all-zero slot where a header is due is an empty slot. -/
def Dev.cutSlots (d : Dev) (q : PortId) (bulk : Bool) : Nat → Dev
  | 0 => d
  | k + 1 =>
    let p := d.port q
    match p.rx with
    | [] => d
    | h :: rest =>
      if h = 0 then Dev.cutSlots (d.setPort q { p with rx := rest }) q bulk k
      else
        let n := dataSlots (h.extractLsb' 0 8) (h.extractLsb' 40 9).toNat
        if rest.length < n then d.setPort q { p with rxBulk := bulk }
        else Dev.cutSlots ((d.setPort q { p with rx := rest.drop n }).arrived q (PMsg.ofSlots h (rest.take n) bulk)) q bulk k

/-- A lane leaves the link: a width change, or a break when too few lanes are left (R348). -/
def Dev.dropLane (d : Dev) (q : PortId) (lane : BitVec 3) (named : Bool) : Dev :=
  let up := d.fld Fld.IKQ_PORT_LANES_UP q.toNat
  if !d.portUp q || !up.testBit lane.toNat then d
  else
    let d := (d.clrFld Fld.IKQ_PORT_LANES_UP q.toNat (2 ^ lane.toNat)).orFld Fld.IKQ_PORT_LANES_BAD q.toNat (2 ^ lane.toNat)
    let left := ((List.range 8).filter (fun i => (d.fld Fld.IKQ_PORT_LANES_UP q.toNat).testBit i)).length
    if left < max 1 (d.fld Fld.IKQ_CTRL_MIN_LANES 0) then d.portBreak q
    else
      let d := if named then d else d.send (.width q lane)
      let at_ := if d.portState q = psWidth then (d.port q).widthAt else d.tick
      let d := d.setPort q { d.port q with widthAt := at_ }
      ((d.setFld Fld.IKQ_PORT_STATE q.toNat psWidth).satAdd Fld.IKQ_ERR_WIDTH_CHANGES q.toNat 1).report (portSrc q.toNat 1)
        (mkDetail 0 q.toNat 0) noWing

/-- LANE_BAD: this side finds a lane bad. -/
def Dev.laneBad (d : Dev) (q : PortId) (lane : BitVec 3) : Dev := d.dropLane q lane false

/-- WIDTH_CHANGE_COMPLETE: both ends send again from the oldest unacknowledged flit. -/
def Dev.widthDone (d : Dev) (q : PortId) : Dev :=
  if d.portState q ≠ psWidth then d
  else
    let p := d.port q
    let pause := d.tick - p.widthAt
    let d := d.setPort q { p with starved := Fmap.mapAll (fun _ t => t + pause) p.starved }
    let d := d.setFld Fld.IKQ_PORT_STATE q.toNat psUp
    let d := match p.replay with
      | f :: _ => d.sendAgain q f.seq
      | [] => d
    d.pump q

/-- FLIT_RECEIVE: bytes 0 to 247 and the CRC; whether its write messages travel on BWR; the content of a control flit. -/
def Dev.flitReceive (d : Dev) (q : PortId) (raw : BitVec 1984) (crc : BitVec 64) (bulk : Bool) (ctl : CtlFlit) : Dev :=
  if !d.portUp q then d
  else if flitCrc raw ≠ crc then
    ((d.satAdd Fld.IKQ_ERR_CRC_ERRORS q.toNat 1).report (portSrc q.toNat 0) (mkDetail 0 q.toNat 0) noWing).sendNak q
  else
    let f (lo n : Nat) : Nat := (raw.extractLsb' lo n).toNat
    let d := d.takeAck q (f 38 2) (BitVec.ofNat 12 (f 40 12))
    if !d.portUp q then d
    else
      let d := (d.takeCredit q (f 33 3) (f 24 9)).takeCredit q (f 21 3) (f 12 9)
      let kind := f 36 2
      let d := if kind = 0 then
          let p := d.port q
          if f 52 12 = p.nextRx.toNat then
            let slots := (List.range 15).map (fun i => raw.extractLsb' (64 + 128 * i) 128)
            let wide := if p.rx.isEmpty then bulk else p.rxBulk
            let d := d.setPort q { p with nextRx := p.nextRx + 1, rx := p.rx ++ slots, rxBulk := wide }
            (d.cutSlots q wide 40).sendIdle q
          else d.sendNak q
        else if kind = 2 then
          match ctl with
          | .none => d
          | .linkDown => d.portBreak q
          | .width lane => d.dropLane q lane true
        else d
      d.pump q

/-! ### Training (R346, R363, R365) -/

/-- The epoch both ends take. -/
def nextEpoch (a b : Nat) : Nat :=
  ((List.range 256).map (fun i => (max a b + 1 + i) % 256)).find? (fun e => e ≠ a && e ≠ b) |>.getD 0

/-- LINK_TRAINING_COMPLETE. -/
def Dev.trained (d : Dev) (q : PortId) (t : TrainMsg) : Dev :=
  let k := q.toNat
  if d.portState q ≠ psTraining then d
  else
    let up := (List.range 8).foldl (fun (v : Nat) i => if t.lanes.testBit i && !(d.fld Fld.IKQ_PORT_LANES_BAD k).testBit i then v + 2 ^ i else v) 0
    let n := ((List.range 8).filter (fun i => up.testBit i)).length
    let wrong := d.report (portSrc k 1) (mkDetail 0 k 1) noWing
    if !t.ok || n < max 1 (d.fld Fld.IKQ_CTRL_MIN_LANES 0) then
      (wrong.setFld Fld.IKQ_PORT_STATE k psDown).setPort q { d.port q with failedAt := some d.tick, brokenAt := none }
    else if t.self ≠ d.fld Fld.IKQ_PORT_PEER k || t.expects ≠ d.fld Fld.IKQ_CTRL_SELF 0 then wrong.setFld Fld.IKQ_PORT_STATE k psMiswired
    else
      let p := d.port q
      let d := d.setPort q { inq := p.inq, serve := p.serve }
      let d := d.setFld Fld.IKQ_PORT_EPOCH k (nextEpoch (d.fld Fld.IKQ_PORT_EPOCH k) (t.epoch % 256))
      (d.setFld Fld.IKQ_PORT_STATE k psUp).setFld Fld.IKQ_PORT_LANES_UP k up

/-- The port begins to train. -/
def Dev.beginTraining (d : Dev) (q : PortId) : Dev :=
  (d.setFld Fld.IKQ_PORT_STATE q.toNat psTraining).setPort q { d.port q with brokenAt := none, failedAt := none }

/-- TRAINING_RETRY. -/
def Dev.trainingRetry (d : Dev) (q : PortId) : Dev :=
  match (d.port q).failedAt with
  | some t => if d.portState q = psDown && d.tick ≥ t + 1000000 then d.beginTraining q else d
  | none => d

/-- AUTO_RETRAIN. -/
def Dev.autoRetrain (d : Dev) (q : PortId) : Dev :=
  match (d.port q).brokenAt with
  | some t =>
    if d.portState q = psDown && d.fld Fld.IKQ_CTRL_AUTO_RETRAIN 0 = 1 && d.tick ≥ t + 1000 then d.beginTraining q else d
  | none => d

/-- Ports of an X-die in SRIS mode stay DISABLED (R462). -/
def Dev.portUsable (d : Dev) (q : Nat) : Bool :=
  d.asm.hasPort q && d.fld Fld.IKQ_PORT_PEER_VALID q = 1 && Fmap.get 0 d.reg.clkMode (q / 4) ≠ 2

/-- IKQ_RETRAIN with the lanes that pass the retest. -/
def Dev.retrain (d : Dev) (q : Nat) (pass : Nat) : Nat × Dev :=
  let p := BitVec.ofNat 4 q
  if q ≥ 16 then (rInvalid, d)
  else if !d.portUsable q then (rNotFound, d)
  else
    let s := d.portState p
    let bad := d.fld Fld.IKQ_PORT_LANES_BAD q
    let back := (List.range 8).foldl (fun (v : Nat) i => if bad.testBit i && pass.testBit i then v + 2 ^ i else v) 0
    if s = psDisabled || s = psTraining || s = psWidth then (rBusy, d)
    else
      let d := d.clrFld Fld.IKQ_PORT_LANES_BAD q back
      if s = psUp then
        if back = 0 then (rOk, d)
        else
          let d := (d.orFld Fld.IKQ_PORT_LANES_UP q back).setPort p { d.port p with widthAt := d.tick }
          (rOk, ((d.setFld Fld.IKQ_PORT_STATE q psWidth).satAdd Fld.IKQ_ERR_WIDTH_CHANGES q 1).report (portSrc q 1) (mkDetail 0 q 0) noWing)
      else (rOk, d.beginTraining p)

def Dev.cmdIkqRetrain (d : Dev) (pass : Nat) : Dev :=
  d.mbRun (mbSpec 0xC042 1 [(0, 1)]).starts (fun c d => plain (d.retrain (c.num 0 1) pass))

/-- IKQ_PORT_DISABLE: 1 breaks the link and disables the port, 0 lets it train (R362). -/
def Dev.portDisable (d : Dev) (q : Nat) (off : Bool) : Nat × Dev :=
  let p := BitVec.ofNat 4 q
  if q ≥ 16 then (rInvalid, d)
  else if !d.portUsable q then (rNotFound, d)
  else if off then
    let d := if d.portUp p then (d.portBreak p).send (.linkDown p) else d
    (rOk, (d.setFld Fld.IKQ_PORT_STATE q psDisabled).setPort p { d.port p with brokenAt := none, failedAt := none })
  else (rOk, if d.portState p = psDisabled then d.beginTraining p else d)

def Dev.cmdIkqDisable (d : Dev) : Dev :=
  d.mbRun { mbSpec 0xC043 2 [(0, 2)] with start := fun c => c.num 1 1 = 0 } (fun c d =>
    if c.over 1 2 then .done rInvalid [] d else plain (d.portDisable (c.num 0 1) (c.num 1 1 = 1)))

/-! ### Requests of a peer (R366, R367) -/

/-- Takes a message out of a port's queue; its slots are given back. -/
def Dev.takeIn (d : Dev) (q : PortId) (m : PMsg) : Option Dev :=
  let p := d.port q
  if p.inq.contains m then some ((d.setPort q { p with inq := eraseOne m p.inq }).oweSlots q m.vc.toNat m.slotCount) else none

/-- What a peer's request may do with the page its entry maps. -/
inductive PeerOp | read | write | atomic
  deriving DecidableEq, Repr

/-- The local DPA a peer's request reaches, whether through the alias, and the owner; none when it is refused. -/
def Dev.peerTarget (d : Dev) (q : PortId) (m : PMsg) (op : PeerOp) : Option (Nat × Bool × Nat) :=
  let e := d.window (d.fld Fld.IKQ_PORT_PEER q.toNat) (m.off.toNat / 2 ^ 26)
  let owner := (e.extractLsb' 22 4).toNat
  let alias_ := e.getLsbD 18
  let a := (e.extractLsb' 26 22).toNat * 2 ^ 26 + m.off.toNat % 2 ^ 26
  let allowed : Bool := match op with
    | .read => e.getLsbD 15 && !alias_
    | .write => e.getLsbD 16
    | .atomic => e.getLsbD 17 && !alias_
  if d.fatal || !e.getLsbD 0 || !e.getLsbD (48 + m.wing.toNat) || !allowed || d.extentWing a ≠ owner then none
  else some (a, alias_, owner)

/-- Performs a request of a peer through a home, or denies it. -/
def Dev.servePeer (d : Dev) (q : PortId) (m : PMsg) (op : PeerOp) (mk : Nat → Req → Req) : Dev :=
  match d.takeIn q m with
  | none => d
  | some d =>
    match d.peerTarget q m op with
    | none => ((d.report (portSrc q.toNat 3) (mkDetail m.off.toNat m.src.toNat 2) noWing).denyPeer q m).pump q
    | some (a, al, owner) =>
      let (tag, d) := d.newTag
      let d := d.setPort q { d.port q with serve := (d.port q).serve ++ [(tag, m)] }
      let line := (if al then aliasBase + a else a) / 256
      let r : Req := { kind := .readOnce, src := .port q, tag := tag, line := BitVec.ofNat 40 line,
                       sects := runSects (a % 256) m.len.toNat, wing := BitVec.ofNat 4 owner }
      (d.sendReq (mk a r)).pump q

/-- RD. -/
def Dev.peerRead (d : Dev) (q : PortId) (m : PMsg) : Dev :=
  if m.opc ≠ opcRd then d else d.servePeer q m .read (fun _ r => r)

def atomOpOf (n : BitVec 4) : AtomOp :=
  match n.toNat with
  | 0 => .swap | 1 => .add | 2 => .and | 3 => .or | 4 => .xor | 5 => .min | 6 => .max | 7 => .minu | 8 => .maxu | _ => .cas

/-- ATOM. -/
def Dev.peerAtomic (d : Dev) (q : PortId) (m : PMsg) : Dev :=
  if m.opc ≠ opcAtom then d
  else d.servePeer q m .atomic (fun a r =>
    { r with kind := .atomic (atomOpOf m.attr), sects := (1 : BitVec 4) <<< (a / 64 % 4), off := BitVec.ofNat 8 (a % 256),
             wide := m.wide, opnd := m.data.extractLsb' 0 64, cmp := m.data.extractLsb' 64 64 })

/-- Ordered writes of one source go to their homes one after the other (R360). -/
def Dev.inOrder (d : Dev) (q : PortId) (m : PMsg) : Bool :=
  let p := d.port q
  m.vc ≠ vcOwr || (!(p.serve.any (fun s => s.2.vc = vcOwr && s.2.src = m.src)) &&
    (p.inq.find? (fun x => x.vc = vcOwr && x.src = m.src)).getD m = m)

/-- WR.  DESIGN CHOICE (notes/assumptions/43.md): its ATTR marks poisoned sectors as that of RDATA does; Table 14-3 gives it no
meaning, and Table 12-3 note 4 has peers take poison. -/
def Dev.peerWrite (d : Dev) (q : PortId) (m : PMsg) : Dev :=
  if m.opc ≠ opcWr || !d.inOrder q m then d
  else d.servePeer q m .write (fun a r =>
    { r with kind := .write, data := m.data <<< (8 * (a % 256)), mask := runMask (a % 256) m.len.toNat, poison := m.attr })

/-- WRM. -/
def Dev.peerWriteMasked (d : Dev) (q : PortId) (m : PMsg) : Dev :=
  if m.opc ≠ opcWrm || !d.inOrder q m then d
  else d.servePeer q m .write (fun a r =>
    { r with kind := .write, data := (m.data &&& BitVec.ofNat 2048 (2 ^ 512 - 1)) <<< (8 * (a % 256)),
             mask := (m.mask.setWidth 256) <<< (a % 256), poison := m.attr })

/-- A home's answer to a request of the peer goes back as its response. -/
def Dev.portReply (d : Dev) (q : PortId) (w : Msg) : Dev :=
  let p := d.port q
  match p.serve.find? (fun s => s.1 = w.tag) with
  | none => d
  | some s =>
    let m := s.2
    let d := d.setPort q { p with serve := eraseOne s p.serve }
    let off := m.off.toNat % 256
    if w.kind = .data then
      if m.opc = opcAtom then
        d.respond q m { opc := opcAtomdata, vc := vcDat, epoch := 0, attr := w.poison, len := 8, data := (w.data.setWidth 64).setWidth 2048 }
      else
        d.respond q m { opc := opcRdata, vc := vcDat, epoch := 0, attr := w.poison, len := m.len,
                        data := w.data >>> (8 * off) &&& BitVec.ofNat 2048 (2 ^ (8 * m.len.toNat) - 1) }
    else d.respond q m { opc := opcCmp, vc := vcRsp, epoch := 0 }

/-! ### Responses to this package (R360, R363) -/

/-- A response: of an old epoch it is discarded; else its tag is freed and the requester has its answer. -/
def Dev.peerAnswer (d : Dev) (q : PortId) (m : PMsg) (opc : BitVec 8) (ask : PItem → Bool) (r : PItem → Reply) : Dev :=
  if m.opc ≠ opc then d
  else match d.takeIn q m with
    | none => d
    | some d =>
      if m.epoch.toNat ≠ d.fld Fld.IKQ_PORT_EPOCH q.toNat then d.pump q
      else match (d.port q).outs.find? (fun i => i.m.tag = m.tag && ask i) with
        | none => d.pump q
        | some i =>
          let d := d.setPort q { d.port q with outs := eraseOne i (d.port q).outs }
          let d := match i.own with
            | some (a, tag) => d.answerAgent a tag (r i)
            | none => d
          d.pump q

/-- CMP. -/
def Dev.peerCmp (d : Dev) (q : PortId) (m : PMsg) : Dev :=
  d.peerAnswer q m opcCmp (fun i => i.m.opc = opcWr || i.m.opc = opcWrm) (fun _ => { denied := m.status = 1 })

/-- RDATA: the data at its place in the line, with the sectors marked poisoned. -/
def Dev.peerData (d : Dev) (q : PortId) (m : PMsg) : Dev :=
  d.peerAnswer q m opcRdata (fun i => i.m.opc = opcRd) (fun i =>
    { data := m.data <<< (8 * (i.m.off.toNat % 256)), poison := m.attr, denied := m.status = 1 })

/-- ATOMDATA: the old value. -/
def Dev.peerAtomData (d : Dev) (q : PortId) (m : PMsg) : Dev :=
  d.peerAnswer q m opcAtomdata (fun i => i.m.opc = opcAtom) (fun _ =>
    { data := m.data &&& BitVec.ofNat 2048 (2 ^ 64 - 1), poison := m.attr, denied := m.status = 1 })

/-! ### Job group (R369, R370) -/

def PMsg.jgN (m : PMsg) : BitVec 16 := m.data.extractLsb' 0 16
def PMsg.jgPoint (m : PMsg) : BitVec 4 := m.data.extractLsb' 16 4
def PMsg.jgDelay (m : PMsg) : Nat := (m.data.extractLsb' 32 32).toNat

/-- Takes a JG message of a type. -/
def Dev.onJg (d : Dev) (q : PortId) (m : PMsg) (attr : BitVec 4) (f : Dev → Dev) : Dev :=
  if m.opc ≠ opcJg || m.attr ≠ attr then d
  else match d.takeIn q m with
    | none => d
    | some d => (f d).pump q

/-- JG_LIMIT: the lead notes the member's limit and commits the lowest. -/
def Dev.jgLimitIn (d : Dev) (q : PortId) (m : PMsg) : Dev :=
  d.onJg q m 0 (fun d =>
    if d.jgRole ≠ roleLead then d
    else ({ d with jg := { d.jg with limits := Fmap.put d.jg.limits (d.fld Fld.IKQ_PORT_PEER q.toNat) m.jgPoint } } : Dev).jgCommit)

/-- A commit from either path: N newer than the last applied and than the pending one, within half of the space. -/
def Dev.takeCommit (d : Dev) (n : BitVec 16) (p : BitVec 4) (delay : Nat) : Dev :=
  if d.jgRole ≠ roleMember then d
  else
    let d := { d with jg := { d.jg with lastCommit := d.tick, inLock := true } }
    let newer (o : BitVec 16) : Bool := n ≠ o && (n - o).toNat < 2 ^ 15
    let ok : Bool := match d.jg.due with
      | some (o, _, _) => newer o
      | none => true
    if newer d.jg.n && ok then { d with jg := { d.jg with due := some (n, p, d.tick + delay) } }
    else d

/-- A member back in lock shows it when the commit it already runs is repeated. -/
def Dev.showLock (d : Dev) (n : BitVec 16) : Dev :=
  if d.jgRole = roleMember && d.jg.n = n && d.jg.n ≠ 0 then d.setFld Fld.SELV_STATUS_JG_STATE 0 jsLocked else d

/-- JG_COMMIT. -/
def Dev.jgCommitIn (d : Dev) (q : PortId) (m : PMsg) : Dev :=
  d.onJg q m 1 (fun d => (d.takeCommit m.jgN m.jgPoint m.jgDelay).showLock m.jgN)

/-- JG_ACK. -/
def Dev.jgAckIn (d : Dev) (q : PortId) (m : PMsg) : Dev :=
  d.onJg q m 2 (fun d =>
    if d.jgRole ≠ roleLead then d
    else { d with jg := { d.jg with acks := Fmap.put d.jg.acks (d.fld Fld.IKQ_PORT_PEER q.toNat) m.jgN } })

/-- JG_REPEAT_TIMER: every 1 ms the member sends its limit again and the lead its commit. -/
def Dev.jgRepeat (d : Dev) : Dev :=
  if !d.selvOn || d.tick < d.jg.lastRepeat + 1000 then d
  else
    let d := { d with jg := { d.jg with lastRepeat := d.tick } }
    if d.jgRole = roleMember then d.jgNotify
    else if d.jgRole = roleLead then
      (match d.jg.due with
        | some (n, p, t) =>
          let d := d.jgPeers.foldl (fun (d : Dev) x => d.jgMsg x 1 n p (t - d.tick)) d
          d.sendLock (lockFrame 1 p n (t - d.tick))
        | none => if d.jg.n = 0 then d.jgCommit else d.jgTell 0)
    else d

/-- JG_LOCK_LOSS: a member without a commit for 10 ms. -/
def Dev.jgLockLoss (d : Dev) : Dev :=
  if d.selvOn && d.jgRole = roleMember && d.jg.inLock && d.tick ≥ d.jg.lastCommit + 10000 then
    { d with jg := { d.jg with inLock := false } }.setFld Fld.SELV_STATUS_JG_STATE 0 jsFree
  else d

/-! ### The lock ring (R468, R469) -/

/-- A frame that a receiver keeps: even parity, TYPE 0 or 1; the stop bit is checked as it arrives. -/
def lockOk (f : BitVec 32) : Bool :=
  ((List.range 32).filter (fun i => f.getLsbD i)).length % 2 = 0 && (f.extractLsb' 0 2).toNat ≤ 1

/-- The package takes part in the ring. -/
def Dev.onRing (d : Dev) : Bool := d.selvOn && d.pins.phase = .run && (d.jgRole = roleLead || d.jgRole = roleMember)

/-- LOCK_LIMIT_SEND: every 1 ms the lead sends its own limit. -/
def Dev.lockSend (d : Dev) : Dev :=
  if !d.onRing || d.jgRole ≠ roleLead || d.tick < d.jg.ringSent + 1000 || d.jg.ringAt.isSome then d
  else
    { d with jg := { d.jg with ringAt := some d.tick, ringSent := d.tick } }.sendLock
      (lockFrame 0 (BitVec.ofNat 4 d.jgLimit) 0 0)

/-- LOCK_LIMIT_FRAME: a member lowers POINT and forwards it; the lead takes it as the ring's limit. -/
def Dev.lockLimit (d : Dev) (f : BitVec 32) (stop : Bool) : Dev :=
  if !d.onRing || !stop || !lockOk f || f.extractLsb' 0 2 ≠ 0 then d
  else
    let p : BitVec 4 := f.extractLsb' 2 4
    if d.jgRole = roleMember then d.sendLock (lockFrame 0 (BitVec.ofNat 4 (min p.toNat d.jgLimit)) 0 0)
    else ({ d with jg := { d.jg with ringAt := none, ringBroken := false, ringLimit := some p } } : Dev).jgCommit

/-- LOCK_COMMIT_FRAME: a member schedules it and forwards it with DELAY less 36 µs; the lead ends its way. -/
def Dev.lockCommit (d : Dev) (f : BitVec 32) (stop : Bool) : Dev :=
  if !d.onRing || !stop || !lockOk f || f.extractLsb' 0 2 ≠ 1 || d.jgRole ≠ roleMember then d
  else
    let p : BitVec 4 := f.extractLsb' 2 4
    let n : BitVec 16 := f.extractLsb' 6 16
    let delay := (f.extractLsb' 22 9).toNat
    ((d.takeCommit n p delay).showLock n).sendLock (lockFrame 1 p n (delay - 36))

/-- LOCK_RING_TIMEOUT. -/
def Dev.lockTimeout (d : Dev) : Dev :=
  match d.jg.ringAt with
  | some t => if d.tick ≥ t + 1000 then { d with jg := { d.jg with ringBroken := true, ringAt := none, ringLimit := none } } else d
  | none => d

end Sys2Proof.Machine
end

