-- ==== Sys2Proof/Machine/Deliver.lean ====
section
/-! DEFINITION. Delivery of weave messages (Table 7-7): requests to homes, snoops to holders, answers to requesters,
refusals and credits (R175 to R177, R184, R190). -/

namespace Sys2Proof.Machine

/-! ### Requests to a home -/

/-- A request reaches its home when nothing that its source sent there before is still under way (R170). -/
def Dev.reqIn (d : Dev) (r : Req) : Dev := if d.reqArrives r then d.homeReq r else d

/-- A request of the named kind reaches its home. -/
def Dev.onKind (d : Dev) (r : Req) (k : ReqKind) : Dev := if r.kind = k then d.reqIn r else d

/-- WRITE_BACK: one in flight, or the entry of the line that waits in the loom's eviction buffer (R148). -/
def Dev.writeBack (d : Dev) (r : Req) : Dev :=
  if r.kind ≠ .writeBack then d
  else if d.weave.reqs.contains r then d.reqIn r
  else match r.src with
    | .cache n =>
      (match d.sendEvict n r.line with
        | some (x, d) => d.reqIn x
        | none => d.reqIn r)
    | _ => d.reqIn r

/-- ATOMIC: any read-modify-write operation. -/
def Dev.atomicReq (d : Dev) (r : Req) : Dev :=
  match r.kind with
  | .atomic _ => d.reqIn r
  | _ => d

/-! ### Snoops to a holder -/

/-- A head sends the back-invalidate snoop of each 64-byte line to its host (R184). -/
def Dev.headSnoop (d : Dev) (h : HeadId) (m : Msg) : Dev :=
  if d.isAbsent h then d
  else (sectList m.sects).foldl (fun (d : Dev) k => d.send (.biSnp h m.kind (256 * m.line.toNat + 64 * k))) d

/-- RECALL. -/
def Dev.recallIn (d : Dev) (m : Msg) : Dev :=
  if (m.kind ≠ .recallKeep && m.kind ≠ .recallCopy && m.kind ≠ .recallInv) || !d.arrives m then d
  else
    let d := d.takeMsg m
    match m.agent with
    | .cache n => (d.loomRecall n m).trimEvict n
    | .head h => d.headSnoop h m
    | _ => d

/-- INVALIDATE. -/
def Dev.invalidateIn (d : Dev) (m : Msg) : Dev :=
  if m.kind ≠ .invalidate || !d.arrives m then d
  else
    let d := d.takeMsg m
    match m.agent with
    | .cache n => (d.loomInvalidate n m).trimEvict n
    | .head h => d.headSnoop h m
    | _ => d

/-- STASH: the loom's tile must run. -/
def Dev.stashIn (d : Dev) (m : Msg) : Dev :=
  if m.kind ≠ .stash || !d.arrives m then d
  else
    let d := d.takeMsg m
    match m.agent with
    | .cache n => d.loomStash n m (d.tileState (loomTile n.toNat) = tsRun)
    | _ => d

/-! ### Answers to a requester -/

/-- The transaction of a head's tracked read waits for its CompAck. -/
def Dev.headAcks (d : Dev) (m : Msg) : Dev :=
  match d.txn m.line.toNat with
  | some t =>
    if t.phase = .ack && t.req.src = m.agent && t.req.tag = m.tag then
      d.sendMsg { kind := .compAck, agent := m.agent, tag := m.tag, line := m.line, sects := m.sects }
    else d
  | none => d

/-- DATA. -/
def Dev.dataIn (d : Dev) (m : Msg) : Dev :=
  if m.kind ≠ .data || !d.arrives m then d
  else
    let d := d.takeMsg m
    match m.agent with
    | .cache n => ((d.cacheData n m).leaveWay n m.line).cacheOpEnd n
    | .head h => (d.headReply h m).headAcks m
    | .port q => d.portReply q m
    | a => d.answerAgent a m.tag { data := m.data, poison := m.poison }

/-- COMP. -/
def Dev.compIn (d : Dev) (m : Msg) : Dev :=
  if m.kind ≠ .comp || !d.arrives m then d
  else
    let d := d.takeMsg m
    match m.agent with
    | .cache n => ((d.cacheComp n m).leaveWay n m.line).cacheOpEnd n
    | .head h => (d.headReply h m).headAcks m
    | .port q => d.portReply q m
    | a => d.answerAgent a m.tag {}

/-- RECALL_DATA. -/
def Dev.recallDataIn (d : Dev) (m : Msg) : Dev := if m.kind = .recallData && d.arrives m then (d.recallData m).settleAbsent else d
/-- RECALL_ACK. -/
def Dev.recallAckIn (d : Dev) (m : Msg) : Dev := if m.kind = .recallAck && d.arrives m then (d.recallAck m).settleAbsent else d
/-- INV_ACK. -/
def Dev.invAckIn (d : Dev) (m : Msg) : Dev := if m.kind = .invAck && d.arrives m then (d.recallAck m).settleAbsent else d
/-- COMP_ACK. -/
def Dev.compAckIn (d : Dev) (m : Msg) : Dev := if m.kind = .compAck && d.arrives m then (d.compAck m).settleAbsent else d
/-- STASH_ACK. -/
def Dev.stashAckIn (d : Dev) (m : Msg) : Dev := if m.kind = .stashAck && d.arrives m then (d.stashAck m).settleAbsent else d

/-! ### Refusals (R176, R177) -/

/-- RETRY: the requester learns that its request was refused; from now on it may be reissued. -/
def Dev.retryIn (d : Dev) (m : Msg) : Dev := if (m.kind = .retryNoTracker || m.kind = .retryBusy) && d.arrives m then d.takeMsg m else d

/-- A refused request whose Retry is still on its way. -/
def Dev.retryComing (d : Dev) (r : Req) : Bool :=
  d.weave.msgs.any (fun m => (m.kind = .retryNoTracker || m.kind = .retryBusy) && m.agent = r.src && m.tag = r.tag && m.line = r.line)

/-- A refused request is sent to its home again, its retry count raised; AGED from the 64th retry. -/
def Dev.reissue (d : Dev) (x : Req × Bool) (credit : Bool) : Dev :=
  let n := x.1.retries + 1
  let r := { x.1 with retries := n, aged := n ≥ 64, credit := credit }
  ({ d with weave := { d.weave with refused := eraseOne x d.weave.refused } } : Dev).sendReq r |>.reqIn r

/-- LINE_BUSY_REISSUE: the oldest request refused with LINE_BUSY of an agent for a line. -/
def Dev.lineBusyReissue (d : Dev) (a : Agent) (line : BitVec 40) : Dev :=
  match d.weave.refused.find? (fun x => !x.2 && x.1.src = a && x.1.line = line && !d.retryComing x.1) with
  | some x => d.reissue x false
  | none => d

/-- CREDIT of a home (in `line`): the agent's oldest request refused by it with NO_TRACKER; a Credit that finds none goes
to the next pending requester. -/
def Dev.creditIn (d : Dev) (m : Msg) : Dev :=
  if m.kind ≠ .credit || !d.arrives m then d
  else
    let d := d.takeMsg m
    match d.weave.refused.find? (fun x => x.2 && x.1.src.order = m.agent.order && !d.retryComing x.1 && d.home (256 * x.1.line.toNat) = m.line.toNat) with
    | some x => d.reissue x true
    | none => d.giveCredit m.line.toNat

end Sys2Proof.Machine
end

