-- ==== Sys2Proof/Machine/LedgerOps.lean ====
section
/-! DEFINITION. The fault ledger (spec/18): events, records, the first-error latch, containment, release, the shuttle
pins it drives, commits to boot flash, the SMBus responder. -/

namespace Sys2Proof.Machine

def clsFatal : Nat := 3

/-- The ledger runs: AON power and its clock are there, and the strap phase is over. -/
def Dev.ledgerOn (d : Dev) : Bool := d.pins.aonPower && d.pins.aonClk && d.pins.rstN && d.pins.phase ≠ .strap

/-- Fault class of a source (Table 18-1). -/
def faultClass (n : Nat) : Nat :=
  if n < 0x100 then 1
  else if n < 0x110 then 2
  else if n < 0x150 then 3
  else if n < 0x190 then 4
  else if n < 0x210 then 5
  else if n < 0x2D0 then 6
  else if n < 0x310 then 7
  else if n < 0x350 then 8
  else if n < 0x360 then 9
  else if n = 0x363 then 0xB
  else if n < 0x370 then 0xA
  else if n < 0x380 then 0xC
  else 0xD

/-! ### Records (R443) -/

/-- The next slot after the previous record that holds no open record. -/
def Ledger.slotFor (l : Ledger) : Nat :=
  let free (i : Nat) : Bool := match Fmap.find l.ring i with
    | some r => !r.isOpen
    | none => true
  match (List.range 4096).find? (fun k => free ((l.next + k) % 4096)) with
  | some k => (l.next + k) % 4096
  | none => l.next

/-- A slot changed since the last commit; the newest change last. -/
def Ledger.touch (l : Ledger) (slot : Nat) : Ledger := { l with changed := l.changed.filter (· ≠ slot) ++ [slot] }

def Dev.setLedger (d : Dev) (l : Ledger) : Dev := { d with ledger := l }

/-- Writes a new record with SEQ = NEXT_SEQ. -/
def Dev.newRecord (d : Dev) (n cls detail wing : Nat) (forced rail : Bool) : Nat × LRec × Dev :=
  let l := d.ledger
  let slot := l.slotFor
  let seq := d.fld Fld.LEDGER_STATUS_NEXT_SEQ 0
  let r : LRec := { seq := seq, source := n, cls := cls, forced := forced, rail := rail, wing := wing, first := d.tick,
                    last := d.tick, detail := detail }
  let d := d.setLedger (({ l with ring := Fmap.put l.ring slot r, next := (slot + 1) % 4096 } : Ledger).touch slot)
  (slot, r, d.setFld Fld.LEDGER_STATUS_NEXT_SEQ 0 (seq + 1))

/-- The first-error latch and its overflow (R443). -/
def Dev.latch (d : Dev) (n cls seq : Nat) (opened : Bool) : Dev :=
  if cls < d.fld Fld.LEDGER_CTRL_LATCH_CLASS 0 then d
  else if d.fld Fld.LEDGER_FIRST_VALID 0 = 0 then
    (((d.setFld Fld.LEDGER_FIRST_VALID 0 1).setFld Fld.LEDGER_FIRST_CLASS 0 cls).setFld Fld.LEDGER_FIRST_SOURCE 0 n).setFld
      Fld.LEDGER_FIRST_SEQ 0 seq
  else if n = d.fld Fld.LEDGER_FIRST_SOURCE 0 then d
  else
    let d := (d.setFld Fld.LEDGER_OVERFLOW_OVERFLOW 0 1).satAdd Fld.LEDGER_OVERFLOW_EVENTS 0 1
    if opened then d.satAdd Fld.LEDGER_OVERFLOW_SOURCES 0 1 else d

/-! ### Containment (R449, Table 18-4) -/

/-- The shuttle pins enter the fault phase; a later FATAL changes nothing of it (R451). -/
def Dev.faultPhase (d : Dev) (cls : Nat) : Dev :=
  if d.pins.phase ≠ .run then d
  else
    { d.setFld Fld.LEDGER_STATUS_FAULT_PHASE 0 1 with
      pins := { d.pins with phase := .fault, alive := false, fault := true, faultAt := d.tick, nibble := cls, frameAt := none,
                            throttleIn := false, throttled := false, hot := false, limited := false } }

/-- Every FATAL action of Table 18-4. -/
def Dev.containAll (d : Dev) : Dev :=
  let d := allHeads.foldl (fun (d : Dev) h => d.freeze h 1) d
  let d := (List.range 4096).foldl (fun (d : Dev) n => d.askStop (BitVec.ofNat 12 n) .paused) d
  let d := (Fmap.keys d.queues).foldl (fun (d : Dev) q => if (d.queue q).cur.isSome then d.abortDesc q else d) d
  let d := (d.runQ ++ d.runs.map (fun r => r.2.region)).foldl (fun (d : Dev) r => d.abortRegion r 5) d
  (d.rotAbortAll (fun _ => true)).retireStop

/-- FATAL_CONTAINMENT: while no unreleased FATAL exists, the record is latched and the device contained. -/
def Dev.contain (d : Dev) (n seq : Nat) (forced : Bool) : Dev :=
  if d.fatal then d
  else
    let cls := if forced then 0xE else faultClass n
    let d := (d.setFld Fld.LEDGER_FATAL_VALID 0 1).setFld Fld.LEDGER_FATAL_TRIP 0 (b01 (n = 0x363))
    let d := (d.setFld Fld.LEDGER_FATAL_RELEASED 0 0).setFld Fld.LEDGER_FATAL_FORCED 0 (b01 forced)
    let d := (d.setFld Fld.LEDGER_FATAL_FAULT_CLASS 0 cls).setFld Fld.LEDGER_FATAL_SOURCE 0 n
    let d := (d.setFld Fld.LEDGER_FATAL_SEQ 0 seq).setFld Fld.LEDGER_STATUS_FATAL 0 1
    (d.faultPhase cls).containAll

/-- Interrupts of a record that opened or rose, and of a FATAL classification (R445). -/
def Dev.ledgerNotify (d : Dev) (r : LRec) (rose fatal : Bool) : Dev :=
  allHeads.foldl (fun (d : Dev) h =>
    let k := h.toNat
    let sees := h = 0 || (r.wing < 16 && d.headWing h = r.wing)
    let due := fatal || (sees && rose && d.fld Fld.LEDGER_IRQ_MIN_CLASS k ≤ r.cls)
    let fresh := !d.ledger.stale.getLsbD (k / 4)
    if d.fld Fld.LEDGER_IRQ_EN k = 1 && d.personality h ≠ 0 && due && fresh then d.interrupt h (d.fld Fld.LEDGER_IRQ_VECTOR k) else d) d

/-! ### Events (R442) -/

/-- The event procedure of R442. -/
def Dev.event (d : Dev) (n detail wing : Nat) (forced rail : Bool) : Dev :=
  let w := d.fld Fld.LEDGER_SRC_WCOUNT n
  let fresh := w = 0 || d.tick - Fmap.get 0 d.ledger.wstart n ≥ d.fld Fld.LEDGER_SRC_W n * 1000
  let d := if fresh then d.setLedger { d.ledger with wstart := Fmap.put d.ledger.wstart n d.tick } else d
  let w := min ((if fresh then 0 else w) + 1) 2047
  let d := d.setFld Fld.LEDGER_SRC_WCOUNT n w
  let d := if w ≥ d.fld Fld.LEDGER_SRC_N n then d.setFld Fld.LEDGER_SRC_ESCALATED n 1 else d
  let base := d.fld Fld.LEDGER_SRC_BASE n
  let cls := if d.fld Fld.LEDGER_SRC_ESCALATED n = 1 then max base (d.fld Fld.LEDGER_SRC_ESC n) else base
  let d := d.satAdd Fld.LEDGER_CNT_TOTAL n 1
  let slot := d.fld Fld.LEDGER_SRC_SLOT n
  let (r, prev, d) : LRec × Option Nat × Dev :=
    if d.fld Fld.LEDGER_SRC_OPEN n = 1 then
      let r := (Fmap.find d.ledger.ring slot).getD { seq := 0, source := n, cls := cls, wing := wing, first := d.tick, last := d.tick, detail := 0 }
      let new := { r with count := min (r.count + 1) (2 ^ 32 - 1), last := d.tick, cls := max r.cls cls,
                          escalated := r.escalated || decide (cls > r.cls) }
      (new, some r.cls, d.setLedger (({ d.ledger with ring := Fmap.put d.ledger.ring slot new } : Ledger).touch slot))
    else
      let (s, r, d) := d.newRecord n cls detail wing forced rail
      (r, none, (d.setFld Fld.LEDGER_SRC_OPEN n 1).setFld Fld.LEDGER_SRC_SLOT n s)
  let opened := prev.isNone
  let d := d.latch n r.cls r.seq opened
  let fatal := r.cls = clsFatal && prev ≠ some clsFatal
  -- the interrupt leaves before the freeze that the containment orders has taken effect (R338, R445)
  let d := d.ledgerNotify r (opened || prev ≠ some r.cls) fatal
  if fatal then (d.setLedger { d.ledger with lastFatal := some (d.tick, r.seq) }).contain n r.seq forced else d

/-- Hardware detects an error: its unit reports it, and a head logs it (Tables 13-9, 18-1;
PRESUMED, notes/assumptions/67.md). -/
def Dev.hwError (d : Dev) : HwErr → Dev
  | .tile t => d.report (4 * t.toNat + 2) (mkDetail 0 t.toNat 0) noWing
  | .weave die k => d.report (0x100 + 4 * die.toNat + k.toNat) (mkDetail 0 die.toNat 0) noWing
  | .home m bad => d.report (homeSrc m.toNat (if bad then 4 else 3)) (mkDetail 0 m.toNat 0) noWing
  | .xdie x bad => d.report (0x350 + 4 * x.toNat + (if bad then 2 else 1)) (mkDetail 0 x.toNat 0) noWing
  | .handler => d.report 0x373 0 noWing
  | .ledger bad => d.report (if bad then 0x382 else 0x381) 0 noWing
  | .aer h e => if (d.head h).up then d.aer h e else d

/-- LEDGER_EVENT: the oldest report arrives at the ledger (R438), which ignores a pair with a faulty rail (R439).  An error that
hardware detects in the same step is reported first. -/
def Dev.ledgerEvent (d : Dev) (x : Option HwErr) : Dev :=
  if !d.ledgerOn then d else
  let d := match x with
    | some e => d.hwError e
    | none => d
  match d.reports with
  | [] => d
  | r :: rest =>
    let d := { d with reports := rest }
    if d.fld Fld.LEDGER_SRC_RAIL_BAD r.src = 1 then d else d.event r.src r.detail r.wing false false

/-- RAIL_FAULT: the pair of source n shows equal levels. -/
def Dev.railFault (d : Dev) (n : Nat) : Dev :=
  if !d.ledgerOn || n ≥ 1024 || d.fld Fld.LEDGER_SRC_RAIL_BAD n = 1 then d
  else
    let d := (d.setFld Fld.LEDGER_SRC_RAIL_BAD n 1).event n (mkDetail 0 n 0) noWing false true
    if d.fld Fld.LEDGER_SRC_RAIL_BAD 0x380 = 1 && n ≠ 0x380 then d else d.event 0x380 (mkDetail 0 n 0) noWing false false

/-! ### Writes of the operator (R440, R443) -/

/-- Closes the open record of a source. -/
def Dev.closeRecord (d : Dev) (n : Nat) : Dev :=
  let slot := d.fld Fld.LEDGER_SRC_SLOT n
  if d.fld Fld.LEDGER_SRC_OPEN n = 0 then d
  else
    let d := d.setFld Fld.LEDGER_SRC_OPEN n 0
    match Fmap.find d.ledger.ring slot with
    | some r => d.setLedger (({ d.ledger with ring := Fmap.put d.ledger.ring slot { r with isOpen := false } } : Ledger).touch slot)
    | none => d

/-- A write of LEDGER_SRC_n: classes and thresholds, then the clears, then the forced event. -/
def Dev.srcSet (d : Dev) (n : Nat) (v : W64) : Dev :=
  let f (lo k : Nat) : Nat := (v.extractLsb' lo k).toNat
  let d := if n = 0x363 then d else (d.setFld Fld.LEDGER_SRC_BASE n (f 58 2)).setFld Fld.LEDGER_SRC_ESC n (f 56 2)
  let d := (d.setFld Fld.LEDGER_SRC_N n (max 1 (f 45 11))).setFld Fld.LEDGER_SRC_W n (max 1 (f 29 16))
  let d := if v.getLsbD 62 then d.closeRecord n else d
  let d := if v.getLsbD 61 then (d.setFld Fld.LEDGER_SRC_ESCALATED n 0).setFld Fld.LEDGER_SRC_WCOUNT n 0 else d
  if v.getLsbD 63 then d.event n (mkDetail 0 0 0) noWing true false else d

/-- A write of LEDGER_SRC_n by a head. -/
def Dev.srcWrite (d : Dev) (h : HeadId) (n : Nat) (v : W64) : Dev :=
  if n ≥ 1024 || !d.ledgerOn then d else d.wideWrite h .ledger Crd.LEDGER_SRC n (fun d => d.srcSet n v)

/-- FORCE, OPEN_CLEAR, ESCALATED_CLEAR: the writes that set these bits; a write that sets several is the first of them. -/
def Dev.force (d : Dev) (h : HeadId) (n : Nat) (v : W64) : Dev := if v.getLsbD 63 then d.srcWrite h n v else d
def Dev.openClear (d : Dev) (h : HeadId) (n : Nat) (v : W64) : Dev :=
  if !v.getLsbD 63 && v.getLsbD 62 then d.srcWrite h n v else d
def Dev.escalatedClear (d : Dev) (h : HeadId) (n : Nat) (v : W64) : Dev :=
  if !v.getLsbD 63 && !v.getLsbD 62 && v.getLsbD 61 then d.srcWrite h n v else d

/-- FIRST_VALID_CLEAR. -/
def Dev.firstClear (d : Dev) (h : HeadId) : Dev :=
  d.wideWrite h .ledger Crd.LEDGER_FIRST 0 (fun d => d.setFld Fld.LEDGER_FIRST_VALID 0 0)

/-- OVERFLOW_CLEAR also zeroes SOURCES and EVENTS. -/
def Dev.overflowClear (d : Dev) (h : HeadId) : Dev :=
  d.wideWrite h .ledger Crd.LEDGER_OVERFLOW 0 (fun d =>
    ((d.setFld Fld.LEDGER_OVERFLOW_OVERFLOW 0 0).setFld Fld.LEDGER_OVERFLOW_SOURCES 0 0).setFld Fld.LEDGER_OVERFLOW_EVENTS 0 0)

/-- What a release does (R450, R340). -/
def Dev.releaseFatal (d : Dev) : Dev :=
  let d := (d.setFld Fld.LEDGER_FATAL_RELEASED 0 1).setFld Fld.LEDGER_STATUS_FATAL 0 0
  let d := allHeads.foldl (fun (d : Dev) h => if d.fld Fld.HEAD_STATUS_FREEZE_CAUSE h.toNat = 1 then d.unfreeze h else d) d
  (List.range 4096).foldl (fun (d : Dev) n =>
    let l := BitVec.ofNat 12 n
    if d.loomState l = stPaused || d.loomState l = stRunning then d.unpause l else d) d

/-- A FATAL record other than the latched one was classified less than 100 µs ago: the containment stands (R450). -/
def Dev.newFatal (d : Dev) : Bool :=
  match d.ledger.lastFatal with
  | some (t, q) => q ≠ d.fld Fld.LEDGER_FATAL_SEQ 0 && d.tick < t + 100
  | none => false

/-- A write of LEDGER_RELEASE: ignored for another SEQ, for a thermal trip, and beside a new FATAL (R450). -/
def Dev.releaseSeq (d : Dev) (seq : Nat) : Dev :=
  if !d.fatal || d.fld Fld.LEDGER_FATAL_TRIP 0 = 1 || d.fld Fld.LEDGER_FATAL_SEQ 0 ≠ seq || d.newFatal then d else d.releaseFatal

/-- LEDGER_RELEASE by h0. -/
def Dev.ledgerRelease (d : Dev) (h : HeadId) (seq : Nat) : Dev := d.barWrite h .ledger 0 (fun d => d.releaseSeq seq)

/-- Fields of the ledger block. -/
def ledgerIds : List Nat := (allCards.filter (fun c => c.block = .ledger)).flatMap (fun c => c.fields.map (·.id))

/-- MIRROR_STALE of an X-die: the mirror keeps the last state it holds (R444). -/
def Dev.mirrorStale (d : Dev) (x : Nat) : Dev :=
  if !d.ledgerOn || x ≥ d.asm.xdies || d.ledger.stale.getLsbD x then d
  else
    let m : Mirror := { regs := d.regs.filter (fun c => ledgerIds.contains c.1), ring := d.ledger.ring }
    let l := { d.ledger with stale := d.ledger.stale ||| (1 : BitVec 4) <<< x, mirrors := Fmap.put d.ledger.mirrors x m }
    (d.setLedger l).report (0x350 + 4 * x + 3) (mkDetail 0 x 0) noWing

/-! ### Shuttle pins (R451, R467, R470) -/

/-- ALIVE_TOGGLE. -/
def Dev.aliveToggle (d : Dev) : Dev :=
  if !d.ledgerOn || d.pins.phase ≠ .run || d.tick < d.pins.aliveAt + 500 then d
  else { d with pins := { d.pins with alive := !d.pins.alive, aliveAt := d.tick } }

/-- FAULT_N in the run phase: some open record has a class at or above PIN_CLASS. -/
def Dev.showFault (d : Dev) : Dev :=
  if d.pins.phase ≠ .run then d
  else
    let on := d.ledger.ring.any (fun r => r.2.isOpen && d.fld Fld.LEDGER_CTRL_PIN_CLASS 0 ≤ r.2.cls)
    { d with pins := { d.pins with fault := on } }

/-- FAULT_N_HOLD_EXPIRY. -/
def Dev.faultHold (d : Dev) : Dev :=
  if d.pins.phase ≠ .fault || d.tick < d.pins.faultAt + 10000 then d
  else { d with pins := { d.pins with fault := d.fld Fld.LEDGER_CTRL_FAULT_HOLD 0 = 1 } }

/-- FAULT_NIBBLE_FRAME: the fault class of the first FATAL, every 100 ms. -/
def Dev.nibbleFrame (d : Dev) : Dev :=
  let due : Bool := match d.pins.frameAt with
    | some t => decide (d.tick ≥ t + 100000)
    | none => true
  if d.pins.phase ≠ .fault || !due then d
  else ({ d with pins := { d.pins with frameAt := some d.tick } } : Dev).send (.nibble (BitVec.ofNat 4 d.pins.nibble))

/-! ### Heartbeat (R441) -/

/-- HEARTBEAT.  The registrar erases commit slots ahead of use: the oldest commit goes while fewer than 16 are erased. -/
def Dev.heartbeat (d : Dev) : Dev :=
  if !d.reg.running then d
  else
    let d := { d with reg := { d.reg with beat := d.tick, lost := 0 } }
    if d.ledger.erased ≥ 16 then d
    else d.setLedger { d.ledger with commits := d.ledger.commits.drop 1, erased := d.ledger.erased + 1 }

/-- HEARTBEAT_LOST: each second without a heartbeat. -/
def Dev.heartbeatLost (d : Dev) : Dev :=
  if !d.ledgerOn || d.tick < d.reg.beat + (d.reg.lost + 1) * 1000000 then d
  else ({ d with reg := { d.reg with lost := d.reg.lost + 1 } } : Dev).report 0x372 (mkDetail 0 0 0) noWing

/-! ### Commits (R453) -/

/-- Writes a commit into an erased slot: the newest 256 changed records. -/
def Dev.commit (d : Dev) (powerFail : Bool) : Dev :=
  let l := d.ledger
  let keep := l.changed.drop (l.changed.length - 256)
  let c : Commit :=
    { boot := l.boot, num := (l.commits.filter (fun c => c.boot = l.boot)).length, powerFail := powerFail,
      nextSeq := d.fld Fld.LEDGER_STATUS_NEXT_SEQ 0, tick := d.tick, energy := d.fld Fld.SELV_ENERGY_ENERGY 0,
      firstReg := d.card Crd.LEDGER_FIRST 0, fatalReg := d.card Crd.LEDGER_FATAL 0, overflowReg := d.card Crd.LEDGER_OVERFLOW 0,
      dropped := l.changed.length - keep.length, recs := keep.filterMap (fun s => Fmap.find l.ring s) }
  d.setLedger { l with commits := l.commits ++ [c], erased := l.erased - 1, changed := [], lastCommit := d.tick }

/-- PERIODIC_COMMIT: every 10 s while more than one erased slot remains. -/
def Dev.periodicCommit (d : Dev) : Dev :=
  if !d.ledgerOn || !d.pins.pwrfailN || d.tick < d.ledger.lastCommit + 10000000 then d
  else if d.ledger.erased ≤ 1 then (d.setLedger { d.ledger with lastCommit := d.tick }).report 0x383 (mkDetail 0 0 0) noWing
  else d.commit false

/-- PWRFAIL_N_FALL: the power-fail commit. -/
def Dev.pwrfailFall (d : Dev) : Dev :=
  if !d.pins.rstN || !d.pins.pwrfailN || !d.pins.aonPower then d
  else
    let d := { d with pins := { d.pins with pwrfailN := false } }
    if d.ledger.erased = 0 then d.report 0x383 (mkDetail 0 0 0) noWing else d.commit true

/-- PWRFAIL_N_RISE. -/
def Dev.pwrfailRise (d : Dev) : Dev := { d with pins := { d.pins with pwrfailN := true } }

/-! ### The responder (R448) -/

/-- A record's 64 bytes (Table 18-2). -/
def LRec.bytes (r : LRec) : List Byte :=
  let flags := r.cls % 4 + 4 * b01 r.escalated + 8 * b01 r.forced + 16 * b01 r.isOpen + 32 * b01 r.prevBoot + 64 * b01 r.rail
  le 4 r.seq ++ le 2 r.source ++ le 1 flags ++ le 1 (if r.wing < 16 then r.wing else 0xFF) ++ le 4 r.count ++ le 4 0 ++
    le 8 r.first ++ le 8 r.last ++ le 16 r.detail ++ le 16 0

/-- Answers a command of Table 18-3 whose input has the right length, else NACK. -/
def Dev.responder (d : Dev) (input : List Byte) (n : Nat) (out : Dev → List Byte) : Dev :=
  if !d.ledgerOn then d else if input.length ≠ n then d.send .nack else d.send (.smbus (out d))

def bytesNat (l : List Byte) : Nat := l.reverse.foldl (fun (v : Nat) b => 256 * v + b.toNat) 0

/-- RESPONDER_STATUS_READ and RESPONDER_OVERFLOW_READ. -/
def Dev.respStatus (d : Dev) (input : List Byte) : Dev :=
  d.responder input 0 (fun d => le 8 (d.card Crd.LEDGER_STATUS 0) ++ le 8 (d.card Crd.LEDGER_FIRST 0) ++ le 8 (d.card Crd.LEDGER_FATAL 0))
def Dev.respOverflow (d : Dev) (input : List Byte) : Dev :=
  d.responder input 0 (fun d => le 8 (d.card Crd.LEDGER_OVERFLOW 0) ++ le 8 (d.card Crd.LEDGER_PREV 0))

/-- RESPONDER_RECORD_READ. -/
def Dev.respRecord (d : Dev) (input : List Byte) : Dev :=
  d.responder input 4 (fun d =>
    match d.ledger.ring.find? (fun c => c.2.seq = bytesNat input) with
    | some c => c.2.bytes
    | none => le 64 0)

/-- RESPONDER_SOURCE_READ. -/
def Dev.respSource (d : Dev) (input : List Byte) : Dev :=
  d.responder input 2 (fun d =>
    let n := bytesNat input
    if n ≥ 1024 then le 16 0 else le 8 (d.card Crd.LEDGER_SRC n) ++ le 8 (d.card Crd.LEDGER_CNT n))

end Sys2Proof.Machine
end

