-- ==== Sys2Proof/Machine/TransOps.lean ====
section
/-! DEFINITION. Invalidation (R290, R291), the writes of the translation block (R286, R288, R294, R295), and ATS
Invalidation Requests (R283). -/

namespace Sys2Proof.Machine

/-! ### Invalidation -/

/-- Request tags of a loom's accesses that have no answer yet; an access acknowledged at its point is done. -/
def Loom.openTags (l : Loom) : List Nat :=
  let st := match l.stall with
    | .uncached _ _ t => [t]
    | .atomic _ _ t => [t]
    | .fetch _ ts _ => ts
    | _ => []
  st ++ l.pend.map (fun p => p.1) ++ l.cleanTags ++ l.xferRun.flatMap (fun x => x.outs.map (fun o => o.tag))

/-- Looms of a wing that State lists. -/
def Dev.listedLooms (d : Dev) (w : Nat) : List (Nat × Loom) := d.looms.filter (fun c => d.wingOf (BitVec.ofNat 12 c.1) = w)

/-- Queues of a wing that State lists. -/
def Dev.listedQueues (d : Dev) (w : Nat) : List (Nat × CQueue) :=
  d.queues.filter (fun c => d.fld Fld.QUEUE_BIND_VALID c.1 = 1 && d.fld Fld.QUEUE_BIND_WING c.1 = w)

/-- Tags of a wing's accesses that have no answer yet. -/
def Dev.wingTags (d : Dev) (w : Nat) : List Nat :=
  (d.listedLooms w).flatMap (fun c => c.2.openTags) ++ (d.listedQueues w).flatMap (fun c => c.2.outs.map (fun o => o.tag))

/-- Store buffer entries of a wing whose page overlaps [lo, hi). -/
def Dev.wingStores (d : Dev) (w lo hi : Nat) : List (Nat × Nat) :=
  (d.listedLooms w).flatMap (fun c =>
    (c.2.stb.filter (fun (e : StEnt) =>
      let n := match e.tlb with
        | some t => pageBytes t.big
        | none => 64 * MiB
      decide (e.va.toNat / n * n < hi) && decide (lo < e.va.toNat / n * n + n))).map (fun e => (c.1, e.id)))

/-- A page-walk cache pointer whose table covers part of [lo, hi). -/
def pwcCovers (lo hi key : Nat) : Bool :=
  if key < 2 ^ 24 then decide (key * 2 ^ 44 < hi) && decide (lo < (key + 1) * 2 ^ 44)
  else decide ((key - 2 ^ 24) * 2 ^ 32 < hi) && decide (lo < (key - 2 ^ 24 + 1) * 2 ^ 32)

/-- Removes every cached translation, pointer and counter of a wing for [lo, hi). -/
def Dev.dropTrans (d : Dev) (w lo hi : Nat) : Dev :=
  let hit (t : Tlb) : Bool := t.wing.toNat = w && decide (t.va < hi) && decide (lo < t.va + pageBytes t.big)
  let keep (l : List Tlb) : List Tlb := l.filter (fun t => !hit t)
  let looms := Fmap.mapAll (fun _ (l : Loom) => { l with tlb := keep l.tlb }) d.looms
  let tr := d.trans
  let dt := Fmap.mapAll (fun _ l => keep l) tr.dieTlb
  let pw := Fmap.mapAll (fun _ (l : List (WingId × Nat × W64)) =>
    l.filter (fun p => !(p.1.toNat = w && pwcCovers lo hi p.2.1))) tr.pwc
  let cs := tr.counts.filter (fun c =>
    !(c.1 / 2 ^ 36 % 16 = w && decide (c.1 % 2 ^ 36 * (64 * MiB) < hi) && decide (lo < (c.1 % 2 ^ 36 + 1) * (64 * MiB))))
  { d with looms := looms, trans := { tr with dieTlb := dt, pwc := pw, counts := cs } }

/-- The invalidation of a wing ends. -/
def Dev.invalDone (d : Dev) (w : Nat) : Dev :=
  let d := { d with trans := { d.trans with inval := d.trans.inval.filter (fun x => x.wing.toNat ≠ w) } }
  (d.setFld Fld.INV_CTRL_BUSY w 0).setFld Fld.INV_CTRL_DONE_SEQ w (d.fld Fld.INV_CTRL_DONE_SEQ w + 1)

/-- A write of INV_CTRL. -/
def Dev.invWrite (d : Dev) (w v : Nat) : Dev :=
  let d := if v.testBit 29 then d.setFld Fld.INV_CTRL_REJECTED w 0 else d
  if !v.testBit 31 then d
  else if d.fld Fld.INV_CTRL_BUSY w = 1 then d.setFld Fld.INV_CTRL_REJECTED w 1
  else
    let lo := d.fld Fld.INV_BASE_VA w * (64 * MiB)
    let pages := d.fld Fld.INV_SIZE_PAGES w
    let hi := min (lo + pages * (64 * MiB)) (2 ^ 56)
    if pages = 0 then d.invalDone w
    else
      let x : Inval := { wing := BitVec.ofNat 4 w, tags := d.wingTags w, stores := d.wingStores w lo hi }
      let d := (d.dropTrans w lo hi).setFld Fld.INV_CTRL_BUSY w 1
      { d with trans := { d.trans with inval := d.trans.inval ++ [x] } }

/-- INVALIDATION_START: a write of INV_CTRL with GO by a head of the wing. -/
def Dev.invStart (d : Dev) (h : HeadId) (v : Nat) : Dev :=
  if !v.testBit 31 then d else d.barWrite h .trans (d.headWing h) (fun d => d.invWrite (d.headWing h) v)

/-- Every engine has acknowledged. -/
def Dev.invAcked (d : Dev) (x : Inval) : Bool :=
  let ts := d.wingTags x.wing.toNat
  x.tags.all (fun t => !ts.contains t) &&
    x.stores.all (fun s => !(d.loom (BitVec.ofNat 12 s.1)).stb.any (fun e => e.id = s.2))

/-- INVALIDATION_COMPLETE. -/
def Dev.invComplete (d : Dev) (w : WingId) : Dev :=
  match d.trans.inval.find? (fun x => x.wing = w) with
  | none => d
  | some x => if d.invAcked x then d.invalDone w.toNat else d

/-! ### Writes of the translation block -/

/-- TRANS_ROOT_WRITE. -/
def Dev.rootWrite (d : Dev) (h : HeadId) (v : W64) : Dev :=
  d.wideWrite h .trans Crd.TRANS_ROOT (d.headWing h) (fun d => d.writeCard Crd.TRANS_ROOT (d.headWing h) v.toNat)

/-- FQ_BASE: a size above 6 stores 6; the indices return to 0, so waiting records find slots. -/
def Dev.fqBase (d : Dev) (w v : Nat) : Dev :=
  let d := d.writeCard Crd.FQ_BASE w v
  let d := d.setFld Fld.FQ_BASE_SIZE w (min 6 (d.fld Fld.FQ_BASE_SIZE w))
  ((d.setFld Fld.FQ_PROD_PROD w 0).setFld Fld.FQ_CONS_CONS w 0).fqDrain w

/-- FQ_BASE_WRITE. -/
def Dev.fqBaseWrite (d : Dev) (h : HeadId) (v : W64) : Dev :=
  d.wideWrite h .trans Crd.FQ_BASE (d.headWing h) (fun d => d.fqBase (d.headWing h) v.toNat)

/-- FQ_CONS: reduced modulo the ring; waiting records take the slots that are free now. -/
def Dev.fqCons (d : Dev) (w v : Nat) : Dev := (d.setFld Fld.FQ_CONS_CONS w (v % 2 ^ 12 % d.fqSize w)).fqDrain w

/-- FQ_CONS_WRITE. -/
def Dev.fqConsWrite (d : Dev) (h : HeadId) (v : W32) : Dev :=
  d.barWrite h .trans (d.headWing h) (fun d => d.fqCons (d.headWing h) v.toNat)

/-- A write of FAULT_RESUME: without GO it has no effect. -/
def Dev.resumeSet (d : Dev) (w v : Nat) : Dev :=
  if v.testBit 31 then d.resumeFault (BitVec.ofNat 4 w) (v % 2 ^ 16) (v.testBit 28) else d

/-- FAULT_RESUME. -/
def Dev.resumeWrite (d : Dev) (h : HeadId) (v : W32) : Dev :=
  d.barWrite h .trans (d.headWing h) (fun d => d.resumeSet (d.headWing h) v.toNat)

/-! ### ATS Invalidation Requests -/

/-- Answers the requests whose accesses have completed. -/
def Dev.atsAnswer (d : Dev) (h : HeadId) : Dev :=
  let x := d.head h
  let live : List Nat := (x.outs ++ x.waiting).map (fun r => r.tag)
  let done (q : Nat × List Nat) : Bool := q.2.all (fun t => !live.contains t)
  let d := d.setHead h { x with atsInv := x.atsInv.filter (fun q => !done q) }
  (x.atsInv.filter done).foldl (fun (d : Dev) q => d.send (.atsInvDone h q.1)) d

/-- ATS_INVALIDATION_REQUEST of a range of I/O virtual addresses, with its tag. -/
def Dev.atsInvalidate (d : Dev) (h : HeadId) (iova size itag : Nat) : Dev :=
  if !(d.head h).up || !(d.head h).cxl then d
  else
    let hit (a : Atc) : Bool := a.head = h && decide (a.iova < iova + size) && decide (iova < a.iova + a.size)
    let gone := d.trans.atc.filter hit
    let d := { d with trans := { d.trans with atc := d.trans.atc.filter (fun a => !hit a) } }
    let x := d.head h
    let used (r : HostReq) : Bool := gone.any (fun a => decide (a.target ≤ r.addr) && decide (r.addr < a.target + a.size))
    let tags : List Nat := ((x.outs ++ x.waiting).filter used).map (fun r => r.tag)
    (d.setHead h { x with atsInv := x.atsInv ++ [(itag, tags)] }).atsAnswer h

end Sys2Proof.Machine
end

