-- ==== Sys2Proof/Machine/RegWrite.lean ====
section
/-! DEFINITION. Writes of registers through BAR 0 and BAR 4 (R5, R7, R8, R327, R437): where an offset leads, the halves of
64-bit registers, and what a write of each register does. -/

namespace Sys2Proof.Machine

/-- The block at a BAR 0 offset, the page it names, and the offset in it (Table 13-5). -/
def blockAt (off : Nat) : Option (Block × Nat × Nat) :=
  if 0x1000000 ≤ off then
    (if off < 0x2000000 then some (.loomStatus, (off - 0x1000000) / 0x1000, off % 0x1000) else none)
  else if 0x400000 ≤ off then (if off < 0x600000 then some (.doorbell, (off - 0x400000) / 0x1000, off % 0x1000) else none)
  else match off / 0x10000 with
    | 2 => some (.headCtl, 0, off % 0x10000)
    | 3 => some (.trans, 0, off % 0x10000)
    | 4 => some (.selvage, 0, off % 0x10000)
    | 5 => some (.ledger, 0, off % 0x10000)
    | 6 => some (.wingCtl, 0, off % 0x10000)
    | 7 => some (.ikq, 0, off % 0x10000)
    | 8 => some (.cons, 0, off % 0x10000)
    | 9 => some (.tiers, 0, off % 0x10000)
    | _ => none

/-- A register of a block: card, its number in the card, and the byte offset in the register. -/
def cardAt (b : Block) (o : Nat) : Option (Card × Nat × Nat) :=
  allCards.findSome? (fun c =>
    if c.block ≠ b || o < c.offset then none
    else
      let r := o - c.offset
      let i := if c.step = 0 then 0 else r / c.step
      let k := if c.step = 0 then r else r % c.step
      if i < max 1 c.count && k < c.width / 8 then some (c, i, k) else none)

/-- A register a head's access reaches: card, instance, byte offset in the register. -/
structure RegAt where
  card : Card
  inst : Nat
  part : Nat
  deriving DecidableEq, Repr

/-- The register at a BAR 0 offset, as head h reaches it: its own head control block, its wing's translation block. -/
def Dev.regAt (d : Dev) (h : HeadId) (off : Nat) : Option RegAt :=
  match blockAt off with
  | none => none
  | some (b, page, o) =>
    match cardAt b o with
    | none => none
    | some (c, i, k) =>
      let n := match b with
        | .loomStatus | .doorbell => page
        | .trans => d.headWing h
        | .headCtl => if c.count > 1 then 4 * h.toNat + i else h.toNat
        | _ => if c = Crd.LEDGER_WINDOW || c = Crd.LEDGER_IRQ then h.toNat else i
      some ⟨c, n, k⟩

/-- A write of HEAD_CTRL: FREEZE freezes the head, RELEASE ends a freeze whose cause is not FATAL (R338, R340). -/
def Dev.headCtlWrite (d : Dev) (h : HeadId) (v : Nat) : Dev :=
  let d := d.setFld Fld.HEAD_CTRL_FREEZE_ON_FATAL h.toNat (v % 2)
  let d := if v.testBit 1 then d.freeze h 3 else d
  if v.testBit 2 && d.fld Fld.HEAD_STATUS_FREEZE_CAUSE h.toNat ≠ 1 then d.unfreeze h else d

/-- A write of QUEUE_CTRL: PRIO stores at most the wing's maximum (R377), DSIZE only while disabled, and ENABLE sets or
clears (R316). -/
def Dev.queueCtlWrite (d : Dev) (q v : Nat) : Dev :=
  let d := if d.fld Fld.QUEUE_CTRL_ENABLE q = 0 then d.setFld Fld.QUEUE_CTRL_DSIZE q (v / 2 ^ 30 % 2) else d
  let d := d.setFld Fld.QUEUE_CTRL_PRIO q (min (v / 2 ^ 28 % 4) (d.fld Fld.WING_RES_PRIO_MAX (d.qWing q)))
  let d := (d.setFld Fld.QUEUE_CTRL_ERR_IRQ q (v / 2 ^ 27 % 2)).setFld Fld.QUEUE_CTRL_VECTOR q (v / 2 ^ 8 % 2 ^ 8)
  if v.testBit 31 then d.queueEnable q else d.queueDisable q

/-- A ring base or flag address of a queue: written only while the queue is disabled (R316). -/
def Dev.queueBaseWrite (d : Dev) (c : Card) (q v : Nat) : Dev :=
  if d.fld Fld.QUEUE_CTRL_ENABLE q = 1 then d
  else
    let d := d.writeCard c q v
    if c = Crd.SQ_BASE then d.setFld Fld.SQ_BASE_SIZE q (min 6 (d.fld Fld.SQ_BASE_SIZE q))
    else if c = Crd.CQ_BASE then d.setFld Fld.CQ_BASE_SIZE q (min 6 (d.fld Fld.CQ_BASE_SIZE q))
    else d

/-- A field stores no less than a bound. -/
def Dev.floorFld (d : Dev) (f : Field) (n lo : Nat) : Dev := d.setFld f n (max lo (d.fld f n))
/-- A field stores the nearest bound of its range (R437). -/
def Dev.clampFld (d : Dev) (f : Field) (n lo hi : Nat) : Dev := d.setFld f n (clamp lo hi (d.fld f n))

/-- Writes of the blocks of queues, heads and wings that do more than their access codes. -/
def Dev.regSetA (d : Dev) (h : HeadId) (c : Card) (n v : Nat) : Option Dev :=
  if c = Crd.SQ_TAIL then some (d.doorbell n (v % 2 ^ 12))
  else if c = Crd.CQ_HEAD then some (d.cqHeadWrite n v)
  else if c = Crd.QUEUE_CTRL then some (d.queueCtlWrite n v)
  else if c = Crd.SQ_BASE || c = Crd.CQ_BASE || c = Crd.CPL_FLAG then some (d.queueBaseWrite c n v)
  else if c = Crd.HEAD_CTRL then some (d.headCtlWrite h v)
  else if c = Crd.HEAD_INT_PENDING then some (d.intxClear h (BitVec.ofNat 64 v))
  else if c = Crd.WINDOW_BASE then some (d.windowWrite h (BitVec.ofNat 64 v))
  else if c = Crd.FQ_BASE then some (d.fqBase n v)
  else if c = Crd.FQ_CONS then some (d.fqCons n v)
  else if c = Crd.FAULT_RESUME then some (d.resumeSet n v)
  else if c = Crd.INV_CTRL then some (d.invWrite n v)
  else if c = Crd.TRANS_CTRL then some ((d.writeCard c n v).floorFld Fld.TRANS_CTRL_TIMEOUT n 1)
  else if c = Crd.ACC_CTRL then
    some (let x := v % 32; d.setFld Fld.ACC_CTRL_THRESHOLD n (if x = 0 then 0 else max 8 x))
  else none

/-- Writes of the operator's blocks that do more than their access codes. -/
def Dev.regSetB (d : Dev) (c : Card) (n v : Nat) : Option Dev :=
  if c = Crd.LEDGER_SRC then some (d.srcSet n (BitVec.ofNat 64 v))
  else if c = Crd.LEDGER_OVERFLOW then
    some (if v.testBit 63 then
      ((d.setFld Fld.LEDGER_OVERFLOW_OVERFLOW 0 0).setFld Fld.LEDGER_OVERFLOW_SOURCES 0 0).setFld Fld.LEDGER_OVERFLOW_EVENTS 0 0
      else d)
  else if c = Crd.LEDGER_RELEASE then some (d.releaseSeq v)
  else if c = Crd.LEDGER_CTRL then some ((d.writeCard c n v).faultHold)
  else if c = Crd.MEMINJ_FLIP then some (d.memInj v)
  else if c = Crd.PATROL_CTRL then some ((d.writeCard c n v).floorFld Fld.PATROL_CTRL_PERIOD 0 1)
  else if c = Crd.TIER_INTERVAL then some ((d.writeCard c n v).floorFld Fld.TIER_INTERVAL_PERIOD 0 1)
  else if c = Crd.HOME_TIMEOUT then some ((d.writeCard c n v).floorFld Fld.HOME_TIMEOUT_TIMEOUT 0 1000)
  else if c = Crd.SELV_CAP then
    some (((d.writeCard c n v).clampFld Fld.SELV_CAP_CAP 0 1500 3600).clampFld Fld.SELV_CAP_WINDOW 0 1 30).capState
  else if c = Crd.SELV_LIMITS then
    some (((d.writeCard c n v).floorFld Fld.SELV_LIMITS_RISE 0 1).clampFld Fld.SELV_LIMITS_RAIL_IMAX 0 100 1000)
  else if c = Crd.SELV_THERMAL then
    some (((d.writeCard c n v).clampFld Fld.SELV_THERMAL_STACK_POINT 0 70 105).clampFld Fld.SELV_THERMAL_THROTTLE 0 70 105)
  else if c = Crd.IKQ_CTRL then some ((d.writeCard c n v).clampFld Fld.IKQ_CTRL_MIN_LANES 0 1 8)
  else if c = Crd.IKQ_TIMERS then
    some (((d.writeCard c n v).floorFld Fld.IKQ_TIMERS_TXN_TIMEOUT 0 1).floorFld Fld.IKQ_TIMERS_CREDIT_TIMEOUT 0 100
      |>.floorFld Fld.IKQ_TIMERS_REPLAY_TIMER 0 1)
  else none

/-- A write of a whole register. -/
def Dev.regSet (d : Dev) (h : HeadId) (c : Card) (n v : Nat) : Dev :=
  match d.regSetA h c n v with
  | some d => d
  | none =>
    match d.regSetB c n v with
    | some d => d
    | none => d.writeCard c n v

/-- The block whose reach a register has: LEDGER_WINDOW and LEDGER_IRQ are each head's own (R446). -/
def Card.reach (c : Card) : Block := if c = Crd.LEDGER_WINDOW || c = Crd.LEDGER_IRQ then .headCtl else c.block

/-! ### What a read returns (R8, R339, R386, R446, R447) -/

/-- The ledger as the mirror of an X-die serves it: the core's, or the last state of a stale mirror (R444, R447). -/
def Dev.mirrorView (d : Dev) (x : Nat) : Dev :=
  match Fmap.find d.ledger.mirrors x with
  | none => d
  | some m =>
    let own := [Crd.LEDGER_WINDOW, Crd.LEDGER_IRQ].flatMap (fun c => c.fields.map (·.id))
    let regs := d.regs.filter (fun c => !ledgerIds.contains c.1 || own.contains c.1)
    let regs := (m.regs.filter (fun c => !own.contains c.1)).foldl (fun r c => Fmap.put r c.1 c.2) regs
    { d with regs := regs, ledger := { d.ledger with ring := m.ring } }

/-- A head reaches a register's instance with a read (Table 15-6, R272). -/
def Dev.reads (d : Dev) (h : HeadId) (c : Card) (i : Nat) : Bool :=
  if c = Crd.CONS_BUSY || c = Crd.CONS_STATE then h = 0
  else match c.reach with
    | .selvage => true
    | .ledger => h = 0 || c = Crd.LEDGER_STATUS || c = Crd.LEDGER_FATAL
    | b => d.reach h b i

/-- What a tenant sees of LEDGER_STATUS and LEDGER_FATAL (R446): NEXT_SEQ, FAULT_PHASE, FATAL; VALID, RELEASED, FAULT_CLASS. -/
def tenantMask (c : Card) (v : Nat) : Nat :=
  if c = Crd.LEDGER_STATUS then v &&& 0xFFFFFFFF00000006
  else if c = Crd.LEDGER_FATAL then v &&& 0xAF00000000000000
  else v

/-- A register's value as a head reads it. -/
def Dev.readCard (d : Dev) (h : HeadId) (c : Card) (i : Nat) : Nat :=
  let x := h.toNat / 4
  let v := (d.mirrorView x).card c i
  let v := if c = Crd.LEDGER_STATUS && d.ledger.stale.getLsbD x then v ||| 8 else v
  if !d.reads h c i then 0 else if h = 0 then v else tenantMask c v

/-- A write of a register in one access or one half (R7). -/
def Dev.regPart (d : Dev) (h : HeadId) (r : RegAt) (wide : Bool) (v : W64) : Dev :=
  let lo := v.toNat % 2 ^ 32
  if r.card.width = 32 then (if wide || r.part ≠ 0 then d else d.regSet h r.card r.inst lo)
  else if wide then (if r.part ≠ 0 then d else (d.dropHalf h r.card r.inst).regSet h r.card r.inst v.toNat)
  else if r.part = 0 then d.holdHalf h r.card r.inst lo
  else if r.part = 4 then
    let low := (d.half h r.card r.inst).getD (d.readCard h r.card r.inst % 2 ^ 32)
    (d.dropHalf h r.card r.inst).regSet h r.card r.inst (low + lo * 2 ^ 32)
  else d

/-- A write through BAR 0; a poisoned one is discarded and logged (Table 13-9). -/
def Dev.bar0Write (d : Dev) (h : HeadId) (off : Nat) (wide : Bool) (v : W64) (poison : Bool) : Dev :=
  if poison && d.served h && d.barsOn h then d.aer h .poisonedTlp
  else match d.regAt h off with
  | none => d.barWrite h .headCtl h.toNat id
  | some r => d.barWrite h r.card.reach r.inst (fun d => d.regPart h r wide v)

/-- A write of a head's own component registers or of BAR 4: no wing restricts it. -/
def Dev.ownWrite (d : Dev) (h : HeadId) (f : Dev → Dev) : Dev :=
  if !d.served h then d else if !d.barsOn h then d.aer h .unsupported else f d

/-- A doubleword of the MSI-X table; the PBA is read-only (PCI Express 6.0). -/
def Dev.bar4Write (d : Dev) (h : HeadId) (off : Nat) (v : W32) : Dev :=
  d.ownWrite h (fun d =>
    if off % 4 ≠ 0 || off ≥ 0x1000 then d
    else
      let x := d.head h
      let k := 32 * (off / 4 % 4)
      let w : W32 := if k = 96 then v &&& 1 else if k = 0 then v &&& ~~~3 else v
      let e := (x.msixEntry (off / 16) &&& ~~~((BitVec.allOnes 32).setWidth 128 <<< k)) ||| (w.setWidth 128 <<< k)
      (d.setHead h { x with msix := Fmap.put x.msix (off / 16) e }).flushIrqs h)

/-- An HDM decoder: a locked one keeps its value; a commit needs the ranges of CXL 3.1 (R321). -/
def Dev.hdmWrite (d : Dev) (h : HeadId) (n : BitVec 2) (x : Hdm) : Dev :=
  d.ownWrite h (fun d =>
    let hd := d.head h
    let old := Fmap.get {} hd.hdm n.toNat
    let prev := Fmap.get {} hd.hdm (n.toNat - 1)
    if d.frozen h || (old.committed && old.locked) then d
    else
      let ok : Bool := decide (x.iw ≤ 4) && decide (x.ig ≤ 6) && decide (x.pos < 2 ^ x.iw) && decide (x.base % (256 * MiB) = 0)
        && decide (x.size % (256 * MiB * 2 ^ x.iw) = 0) && decide (x.size ≠ 0)
        && (n = 0 || (prev.committed && decide (prev.base + prev.size ≤ x.base)))
      let y : Hdm := { x with committed := x.committed && ok, locked := x.locked && x.committed && ok }
      d.setHead h { hd with hdm := Fmap.put hd.hdm n.toNat y })

/-- A write of a RAS register: the status registers clear the bits written as 1. -/
def Dev.rasWrite (d : Dev) (h : HeadId) (r : RasReg) (v : W32) : Dev :=
  d.ownWrite h (fun d =>
    let x := d.head h
    if d.frozen h then d
    else match r with
      | .unc => d.setHead h { x with rasUnc := x.rasUnc &&& ~~~v }
      | .uncMask => d.setHead h { x with rasUncMask := v &&& 0x0001CFFF }
      | .uncSev => d.setHead h { x with rasUncSev := v &&& 0x0001CFFF }
      | .cor => d.setHead h { x with rasCor := x.rasCor &&& ~~~v }
      | .corMask => d.setHead h { x with rasCorMask := v &&& 0x7F })

/-- REGISTER_WRITE. -/
def Dev.registerWrite (d : Dev) (h : HeadId) : RegDest → Dev
  | .bar0 off wide v poison => d.bar0Write h off wide v poison
  | .bar4 off v => d.bar4Write h off v
  | .hdm n x => d.hdmWrite h n x
  | .ras r v => d.rasWrite h r v

end Sys2Proof.Machine
end

