-- ==== Sys2Proof/Machine/RegRead.lean ====
section
/-! DEFINITION. What reads of BAR 0 and BAR 4 return (R5, R7, R8, R327, R339, R386, R446, R447).  Reads have no row in
spec/opcode_table.json: this is the reader's view of the registers, and a read changes nothing but what `readRefused` says. -/

namespace Sys2Proof.Machine

/-- The ring window: slot 512 × BASE + i at 0x8000 + 64 × i; a tenant reads the records of its wing. -/
def Dev.ringByte (d : Dev) (h : HeadId) (o : Nat) : Byte :=
  let slot := 512 * d.fld Fld.LEDGER_WINDOW_BASE h.toNat + (o - 0x8000) / 64
  match Fmap.find (d.mirrorView (h.toNat / 4)).ledger.ring slot with
  | some r => if h = 0 || (r.wing < 16 && r.wing = d.headWing h) then r.bytes.getD (o % 64) 0 else 0
  | none => 0

/-- A read of 4 or 8 bytes (`wide`) of BAR 0 at 0x0002_0000 and up; none: an Unsupported Request, or an access that R7
forbids. -/
def Dev.bar0Read (d : Dev) (h : HeadId) (off : Nat) (wide : Bool) : Option Nat :=
  let n := if wide then 8 else 4
  if !d.served h || !d.barsOn h || off % n ≠ 0 || off < 0x20000 then none
  else
    let inFreeze := match blockAt off with | some (b, _, _) => b.inFreeze | none => false
    if d.frozen h && !inFreeze then some (2 ^ (8 * n) - 1)
    else if 0x58000 ≤ off && off < 0x60000 then
      some ((List.range n).foldl (fun (v : Nat) k => v + (d.ringByte h (off - 0x50000 + k)).toNat * 256 ^ k) 0)
    else match d.regAt h off with
      | none => some 0
      | some r =>
        if r.part + n > r.card.width / 8 then none
        else some (d.readCard h r.card r.inst / 256 ^ r.part % 256 ^ n)

/-- A read while the BARs do not answer is an Unsupported Request (R327, Table 13-9). -/
def Dev.readRefused (d : Dev) (h : HeadId) : Dev := if d.served h && !d.barsOn h then d.aer h .unsupported (np := true) else d

/-- A doubleword of BAR 4: the MSI-X table of 256 entries at 0, the PBA of 32 bytes at 0x8000, zero elsewhere. -/
def Dev.bar4Read (d : Dev) (h : HeadId) (off : Nat) : Option W32 :=
  if !d.served h || !d.barsOn h || off % 4 ≠ 0 || off ≥ 0x10000 then none
  else
    let x := d.head h
    some (if off < 0x1000 then (x.msixEntry (off / 16)).extractLsb' (32 * (off / 4 % 4)) 32
      else if 0x8000 ≤ off && off < 0x8020 then x.pba.extractLsb' (8 * (off - 0x8000)) 32
      else 0)

/-- A RAS register of the CXL component registers at the start of BAR 0 (Table 13-5, R337). -/
def Dev.rasRead (d : Dev) (h : HeadId) (r : RasReg) : Option W32 :=
  if !d.served h || !d.barsOn h then none
  else if d.frozen h then some (BitVec.allOnes 32)
  else
    let x := d.head h
    some (match r with
      | .unc => x.rasUnc
      | .uncMask => x.rasUncMask
      | .uncSev => x.rasUncSev
      | .cor => x.rasCor
      | .corMask => x.rasCorMask)

/-- An HDM decoder of the component registers (R321). -/
def Dev.hdmRead (d : Dev) (h : HeadId) (n : BitVec 2) : Option Hdm :=
  if !d.served h || !d.barsOn h || d.frozen h then none else some (Fmap.get {} (d.head h).hdm n.toNat)

end Sys2Proof.Machine
end

