-- ==== Sys2Proof/Machine/Startup.lean ====
section
/-! DEFINITION. Resets (R474, R475), the registrar's start-up (R389 to R392), and the power, clock and reset pins of
spec/19. -/

namespace Sys2Proof.Machine

/-! ### What resets clear (Table 19-10) -/

/-- What boot flash holds of the registrar (Table 16-2). -/
def Registrar.flash (r : Registrar) : Registrar :=
  { slot := r.slot, nextSlot := r.nextSlot, bootGen := r.bootGen, bootOver := r.bootOver, fwLen := r.fwLen, fwVer := r.fwVer,
    ucodeVer := r.ucodeVer, clkMode := r.clkMode, portMap := r.portMap }

/-- What boot flash holds of the ledger. -/
def Ledger.flash (l : Ledger) : Ledger := { boot := l.boot, commits := l.commits, erased := l.erased }

/-- Input pins and clocks keep their levels; the strap phase begins. -/
def Pins.strapPhase (p : Pins) : Pins :=
  { aonPower := p.aonPower, aonClk := p.aonClk, clkAt := p.clkAt, pwrOk := p.pwrOk, rstN := p.rstN, rstAt := p.rstAt,
    perstN := p.perstN, pwrfailN := p.pwrfailN }

/-- A COLD event: every field of the domains it covers, and every state of Table 19-10's COLD column.  The converters
keep their targets (R458), SELV_ENERGY counts on (R436), the sent log and the model's own counters stay. -/
def Dev.coldReset (d : Dev) : Dev :=
  let e : Dev :=
    { asm := d.asm, tick := d.tick, regs := (d.resetDomain .cold).regs, tx := d.tx, bifurRec := d.bifurRec, prov := d.prov,
      opSeq := d.opSeq, free := d.free, reg := d.reg.flash, ledger := d.ledger.flash, pins := d.pins.strapPhase,
      selv := { nj := d.selv.nj, want := d.selv.want, rail := d.selv.rail }, weave := { nextTag := d.weave.nextTag } }
  e.setFld Fld.WING_STATE_STATE 0 wgActive

/-- Loss of always-on power: the AON domain as well. -/
def Dev.aonLost (d : Dev) : Dev :=
  let e := d.coldReset
  let e : Dev := { e with regs := [], tick := 0, selv := {}, pins := { e.pins with aonPower := false, pwrOk := false, clkAt := 0, rstAt := 0 } }
  e.setFld Fld.WING_STATE_STATE 0 wgActive

/-- A warm reset (R385, R473, R474): tenant wings FREE, keys erased, looms, caches, links and requests gone; straps, phase,
ledger, selvage, page placement, retirements and the operator wing's resources stay. -/
def Dev.warmReset (d : Dev) : Dev :=
  let tenants := (List.range 15).map (· + 1)
  let d := d.resetDomain .warm
  let d := tenants.foldl (fun (d : Dev) w =>
    [Crd.WING_STATE, Crd.WING_RES, Crd.WING_KEY].foldl (fun (d : Dev) c => d.resetCard c (· = w)) d) d
  let d := ((d.setFld Fld.WING_STATE_STATE 0 wgActive).setFld Fld.WING_STATE_KEY_LOADED 0 0).setFld Fld.WING_KEY_KEY_ID 0 0
  let gone (q : Nat) : Bool := d.fld Fld.QUEUE_BIND_WING q ≠ 0
  let d := d.resetCard Crd.QUEUE_BIND gone
  let frozen := d.frozen 0
  let cause := d.fld Fld.HEAD_STATUS_FREEZE_CAUSE 0
  let d := d.resetCard Crd.HEAD_STATUS (fun _ => true)
  let d := ((d.setFld Fld.HEAD_STATUS_PERSONALITY 0 1).setFld Fld.HEAD_STATUS_FROZEN 0 (b01 frozen)).setFld Fld.HEAD_STATUS_FREEZE_CAUSE 0 cause
  let d := (d.resetCard Crd.CONS_STATE (fun _ => true)).resetCard Crd.CONS_BUSY (fun _ => true)
  let d := (d.resetCard Crd.ROT_STATE (fun _ => true)).resetCard Crd.SQ_TAIL (fun _ => true)
  let up := allPorts.filter (fun q => d.portState q ≠ psDisabled)
  let d := up.foldl (fun (d : Dev) q => (d.setFld Fld.IKQ_PORT_STATE q.toNat psDown).setFld Fld.IKQ_PORT_LANES_UP q.toNat 0) d
  let t := d.tiers
  let back := (Fmap.keys t.loc).foldl (fun (m : Fmap Loc) p =>
    let l := d.locOf p
    Fmap.put m p { l with st := .resident }) t.loc
  let free := t.free ++ t.rots.map (fun r => r.2.dst)
  let d := (t.evac.filter (fun e => e.1 < 16)).foldl (fun (d : Dev) e => d.setStackState e.1 1) d
  let d := t.retiring.foldl (fun (d : Dev) r =>
    match r.frames with
    | f :: _ => d.setSpareFree f (d.spareFree f + r.frames.length)
    | [] => d) d
  let tiers : Tiers :=
    { loc := back, free := free, lostSlots := t.lostSlots, slotErrs := t.slotErrs, retired := t.retired, ranks := t.ranks, patrolPos := t.patrolPos,
      lastHalf := t.lastHalf, badPins := t.badPins, lanesUsed := t.lanesUsed }
  let reg : Registrar := { d.reg.flash with warm := true, safe := d.reg.safe, beat := d.reg.beat, lost := d.reg.lost,
                                            windows := d.reg.windows.filter (fun c => c.2.extractLsb' 22 4 = 0) }
  let d : Dev :=
    { d with looms := [], loomWing := d.loomWing.filter (fun c => c.2 = 0), groups := [], wings := d.wings.filter (fun c => c.1 = 0),
             weave := { nextTag := d.weave.nextTag }, tiers := tiers, trans := {}, regions := [], regCount := [], runQ := [], runs := [],
             rerun := [], heads := [], ports := [], queues := [], reg := reg }
  d.showWing 0

/-- WARM_RESET: the response, then the reset. -/
def Dev.cmdWarmReset (d : Dev) : Dev :=
  match d.mbFront 0xC053 with
  | none => d
  | some c =>
    let ok := c.data.isEmpty && !d.reg.safe && d.allowed c .op
    let d := d.mbRun (mbSpec 0xC053 0 []) (fun _ d => plain (rOk, d))
    if ok then d.warmReset else d

/-! ### Start-up of the registrar (Table 16-1) -/

/-- A population that Table 8-1 permits. -/
def Population.ok : Population → Bool
  | .dimms dpc cap _ _ ranks => (dpc = 1 || dpc = 2) && [32, 64, 128, 256].contains cap && [1, 2, 4, 8].contains ranks
  | _ => false

def Dev.strap (d : Dev) (i : Nat) : Bool := d.pins.straps.getLsbD i

/-- Steps 1 and 2: the image that starts; each image that fails its signature is reported (R391). -/
def Dev.boot (d : Dev) (x : StartIn) : Option Nat × Dev :=
  let first := if d.reg.bootOver ≠ 0 then d.reg.bootOver else if d.strap 2 then 2 else 1
  let second := if first = 1 then 2 else 1
  let good (s : Nat) : Bool := if s = 1 then x.okA else x.okB
  if good first then (some first, d)
  else
    let d := d.report 0x370 (mkDetail 0 first 0) noWing
    if good second then (some second, d) else (none, d.report 0x370 (mkDetail 0 second 0) noWing)

/-- Step 3: the identity record confirms the assembly (R392). -/
def Dev.identityOk (d : Dev) : Bool :=
  d.strap 3 && crc32 ((List.range 252).map d.provByte) = d.provNat 252 4 &&
    d.provByte 10 % 4 = (d.pins.straps.extractLsb' 6 2).toNat

/-- The records of the repair history whose CRC holds, in slot order (R407). -/
def Dev.repairRecords (d : Dev) : List (List Nat) :=
  ((List.range 2048).map (fun i => (List.range 16).map (fun k => d.provByte (0x8000 + 16 * i + k)))).filter (fun r =>
    let c := crc16 (r.take 14)
    (r.drop 14 = [c % 256, c / 256]) && r.head? ≠ some 0xFF)

def recNum (r : List Nat) (i : Nat) : Nat := (r[i]?).getD 0

/-- Step 4: lane repairs and V/F raises. -/
def Dev.applyRepairs (d : Dev) : Dev :=
  d.repairRecords.foldl (fun (d : Dev) r =>
    let b := recNum r
    if b 0 = 1 then
      let c := 32 * b 2 + b 3
      let k := if b 5 = 72 then 1024 + c else c
      { d with tiers := { d.tiers with lanesUsed := Fmap.put d.tiers.lanesUsed k (Fmap.get 0 d.tiers.lanesUsed k + 1) } }
    else if b 0 = 4 then { d with selv := { d.selv with vf := Fmap.put d.selv.vf (16 * (16 * b 1 + b 2) + b 5) (signed8 (b 6)) } }
    else d) d

/-- Step 5: stacks and channels train; lanes that failed are repaired or known bad (R231). -/
def Dev.trainStacks (d : Dev) (x : StartIn) : Dev :=
  let d := (x.lanes.filter (fun l => l.1 < 512 && d.asm.hasStack (l.1 / 32))).foldl (fun (d : Dev) l => d.laneRepair l.1 l.2) d
  let d := (List.range 16).foldl (fun (d : Dev) s => d.setStackState s (b01 (d.asm.hasStack s))) d
  (List.range 24).foldl (fun (d : Dev) c => d.setChanState c (b01 x.pop.ok)) d

/-- Spare frames of a depot channel (R237). -/
def depSpares (cap : Nat) : Nat := cap / 200 / 2 ^ 21

/-- The depot rate in 100 MT/s: the highest of Table 8-2 that every DIMM supports, up to `most` (R199). -/
def depotRate (mr : Bool) (dpc most : Nat) : Nat := if mr then 88 else if dpc = 1 && 64 ≤ most then 64 else 56

/-- Step 6: layout registers, spare counts, free slots; retirements are taken again (R202, R239, R241). -/
def Dev.layout (d : Dev) (x : StartIn) : Dev :=
  let whole (s : Nat) : Bool := d.asm.hasStack s && (List.range 32).all (fun k => !d.chanFaulted (32 * s + k))
  let n := ((List.range 16).filter whole).length
  let d := (d.setFld Fld.DSP_LAYOUT_SIZE 0 ((n * 64 * GiB - n * 326 * MiB - 1024 * MiB) / 2 ^ 28)).setFld Fld.DSP_LAYOUT_LIMIT 0 16
  let d := d.setFld Fld.DSP_LAYOUT_GROUPS 0 d.asm.groups
  let d := ((List.range 16).filter whole).foldl (fun (d : Dev) s => (d.setFld Fld.SPARE_DSP_TOTAL s 163).setFld Fld.SPARE_DSP_FREE s 163) d
  let d := match x.pop with
    | .dimms dpc cap mr rate ranks =>
      if !x.pop.ok then d.report 0x375 (mkDetail 0 0 0) noWing
      else
        let c := dpc * cap * GiB
        let f := depSpares c
        let d := (d.setFld Fld.DEP_LAYOUT_SIZE 0 ((24 * c - 24 * f * 2 ^ 21 - 1024 * MiB) / 2 ^ 28)).setFld Fld.DEP_LAYOUT_MODE 0 (b01 x.group)
        let d := (d.setFld Fld.DEP_LAYOUT_RATE 0 (depotRate mr dpc rate)).setFld Fld.DEP_LAYOUT_CHANNEL_CAP 0 (dpc * cap / 8)
        let d := (d.setFld Fld.DEP_LAYOUT_MRDIMM 0 (b01 mr)).setFld Fld.DEP_LAYOUT_DPC 0 dpc
        let d := (List.range 24).foldl (fun (d : Dev) c => (d.setFld Fld.SPARE_DEP_TOTAL c f).setFld Fld.SPARE_DEP_FREE c f) d
        { d with tiers := { d.tiers with ranks := ranks } }
    | .empty => d
    | .bad => d.report 0x375 (mkDetail 0 0 0) noWing
  let d := d.setFree (d.dspReserve ++ d.depReserve)
  (d.repairRecords.filter (fun r => recNum r 0 = 2 || recNum r 0 = 3)).foldl (fun (d : Dev) r =>
    let b := recNum r
    let depot : Bool := decide (b 1 = 1)
    let row := b 6 + 256 * b 7 + 65536 * b 8
    let f : Frame := { depot := depot, chan := if depot then b 3 else 32 * b 2 + b 3, rank := b 4, bank := b 5, row := row }
    let fs := (if b 0 = 3 then d.bankFrames f else [f]).filter (fun y => !d.tiers.retired.any (fun z => z.1 = y))
    let ids := (List.range fs.length).map (· + (b 10 + 256 * b 11))
    let d := d.setSpareFree f (d.spareFree f - fs.length)
    { d with tiers := { d.tiers with retired := d.tiers.retired ++ fs.zip ids } }) d

/-- Step 7: the port and node configuration records; a mapped port of a die with an unspread clock trains (R317, R346). -/
def Dev.applyRecords (d : Dev) : Dev :=
  let d := { d with bifur := d.bifurRec }
  let d := d.setFld Fld.IKQ_CTRL_SELF 0 ((d.reg.portMap[0]?).getD 0)
  (List.range 16).foldl (fun (d : Dev) q =>
    let p := (d.reg.portMap[q + 1]?).getD 0xFF
    if p < 8 && d.asm.hasPort q then (d.setFld Fld.IKQ_PORT_PEER q p).setFld Fld.IKQ_PORT_PEER_VALID q 1 else d) d

def Dev.trainPorts (d : Dev) (old : Nat) : Dev :=
  (allPorts.filter (fun q => d.portUsable q.toNat && d.portState q = old)).foldl Dev.beginTraining d

/-- h0 is bound as the operator head; its decoders map the operator wing's extents (R321). -/
def Dev.bindOperator (d : Dev) : Dev :=
  let d := ((d.setFld Fld.HEAD_STATUS_PERSONALITY 0 1).setFld Fld.HEAD_STATUS_WING 0 0).mapHdm 0 0
  (d.setFld Fld.WING_STATE_STATE 0 wgActive).showWing 0

/-- Step 8: configuration retry ends on every bound head. -/
def Dev.releaseRetry (d : Dev) : Dev :=
  allHeads.foldl (fun (d : Dev) h => if d.personality h = 0 then d else d.setHead h { d.head h with rrs := false }) d

/-! ### Restore of the ledger (R455) -/

/-- The newest 256 records of a boot's commits, each as last committed, in their order. -/
def Ledger.saved (cs : List Commit) : List LRec :=
  let all := cs.flatMap (fun c => c.recs)
  let seqs := all.foldl (fun (l : List Nat) r => insSorted l r.seq) []
  let last := seqs.drop (seqs.length - 256)
  last.filterMap (fun s => all.reverse.find? (fun r => r.seq = s))

/-- LEDGER_PREV from a commit. -/
def Dev.showPrev (d : Dev) (c : Commit) : Dev :=
  let f (v lo n : Nat) : Nat := v / 2 ^ lo % 2 ^ n
  let d := (d.setFld Fld.LEDGER_PREV_VALID 0 1).setFld Fld.LEDGER_PREV_POWER_FAIL 0 (b01 c.powerFail)
  let d := (d.setFld Fld.LEDGER_PREV_FIRST_VALID 0 (f c.firstReg 63 1)).setFld Fld.LEDGER_PREV_FATAL_VALID 0 (f c.fatalReg 63 1)
  let d := (d.setFld Fld.LEDGER_PREV_FAULT_CLASS 0 (f c.fatalReg 56 4)).setFld Fld.LEDGER_PREV_FIRST_CLASS 0 (f c.firstReg 56 2)
  let d := (d.setFld Fld.LEDGER_PREV_FATAL_SOURCE 0 (f c.fatalReg 32 10)).setFld Fld.LEDGER_PREV_FIRST_SOURCE 0 (f c.firstReg 32 10)
  d.setFld Fld.LEDGER_PREV_DROPPED 0 (min c.dropped 0xFFFF)

/-- Moves this boot's records behind `n` restored ones. -/
def Dev.shiftRecords (d : Dev) (n : Nat) : Dev :=
  let l := d.ledger
  let ring := l.ring.foldl (fun (m : Fmap LRec) (c : Nat × LRec) => Fmap.put m ((c.1 + n) % 4096) { c.2 with seq := c.2.seq + n }) []
  let d := ((l.ring.filter (fun c => c.2.isOpen)).map (fun c => c.2.source)).foldl (fun (d : Dev) s =>
    d.setFld Fld.LEDGER_SRC_SLOT s (d.fld Fld.LEDGER_SRC_SLOT s + n))
    (d.setLedger { l with ring := ring, next := (l.next + n) % 4096, changed := l.changed.map (fun s => (s + n) % 4096),
                          lastFatal := l.lastFatal.map (fun c => (c.1, c.2 + n)) })
  let d := if d.fld Fld.LEDGER_FIRST_VALID 0 = 1 then d.setFld Fld.LEDGER_FIRST_SEQ 0 (d.fld Fld.LEDGER_FIRST_SEQ 0 + n) else d
  let d := if d.fld Fld.LEDGER_FATAL_VALID 0 = 1 then d.setFld Fld.LEDGER_FATAL_SEQ 0 (d.fld Fld.LEDGER_FATAL_SEQ 0 + n) else d
  d.setFld Fld.LEDGER_STATUS_NEXT_SEQ 0 (d.fld Fld.LEDGER_STATUS_NEXT_SEQ 0 + n)

/-- LEDGER_RESTORE: the previous boot's records and LEDGER_PREV; SELV_ENERGY from the newest commit (R436). -/
def Dev.ledgerRestore (d : Dev) : Dev :=
  let mine := d.ledger.commits.filter (fun c => c.boot + 1 = d.ledger.boot)
  let rs := Ledger.saved mine
  let d := if rs.isEmpty then d else d.shiftRecords rs.length
  let ring := ((List.range rs.length).zip rs).foldl (fun (m : Fmap LRec) (p : Nat × LRec) =>
    Fmap.put m p.1 { p.2 with seq := p.1, prevBoot := true, isOpen := false }) d.ledger.ring
  let d := d.setLedger { d.ledger with ring := ring }
  let d := match mine.getLast? with
    | some c => d.showPrev c
    | none => d
  match d.ledger.commits.getLast? with
  | some c => d.setFld Fld.SELV_ENERGY_ENERGY 0 (max (d.fld Fld.SELV_ENERGY_ENERGY 0) c.energy)
  | none => d

/-- Steps 4 to 6 with a confirmed identity; a warm reset trains again over the layout that stands. -/
def Dev.bringUp (d : Dev) (x : StartIn) : Dev :=
  if d.reg.warm then (x.lanes.filter (fun l => l.1 < 512 && d.asm.hasStack (l.1 / 32))).foldl (fun (d : Dev) l => d.laneRepair l.1 l.2) d
  else (d.applyRepairs.trainStacks x).layout x

/-- Steps 3 to 8. -/
def Dev.startImage (d : Dev) (x : StartIn) : Dev :=
  let warm := d.reg.warm
  let ok := d.identityOk
  let d := d.deriveAlias
  let d := if ok then d.bringUp x
    else ((d.setFld Fld.DSP_LAYOUT_SIZE 0 0).setFld Fld.DEP_LAYOUT_SIZE 0 0).report 0x371 (mkDetail 0 0 0) noWing
  let d := if warm || d.jgRole ≠ 3 then d else d.report 0x378 (mkDetail 0 0 0) noWing
  let d := if !ok then { d with bifur := d.bifurRec } else if warm then d.trainPorts psDown else d.applyRecords.trainPorts psDisabled
  let d := d.bindOperator
  let d := if warm then d else d.ledgerRestore
  ({ d with reg := { d.reg with running := true, safe := !ok, warm := false, nextSlot := none } } : Dev).releaseRetry

/-- REGISTRAR_START_UP, once after RST_N rises and the straps are latched, and once after a warm reset. -/
def Dev.startUp (d : Dev) (x : StartIn) : Dev :=
  if d.pins.phase = .strap || !d.pins.rstN || !d.pins.aonPower || !d.pins.aonClk || d.selv.tripped || d.reg.running then d
  else if d.reg.warm then d.startImage x
  else match d.boot x with
    | (some s, d) => ({ d with reg := { d.reg with slot := s } } : Dev).startImage x
    | (none, d) => d

/-! ### Power, clock and reset pins (R463, R465, R471, R475) -/

/-- PWR_OK_RISE: ignored until AON_CLK has run for 1 ms.  After a loss of AON power it stands for the power-up of R471. -/
def Dev.pwrOkRise (d : Dev) : Dev :=
  if !d.pins.aonClk || d.tick < d.pins.clkAt + (if d.pins.aonPower then 1000 else 0) then d
  else
    let p := { d.pins with aonPower := true, pwrOk := true, rstAt := d.tick }
    let e := ({ d with pins := p } : Dev).coldReset
    { e with selv := { nj := e.selv.nj } }

/-- RST_N_ASSERT. -/
def Dev.rstAssert (d : Dev) : Dev :=
  if !d.pins.rstN then d
  else
    let d := { d with pins := { d.pins with rstN := false } }
    if d.pins.aonPower then d.coldReset else d

/-- RST_N_RISE: the count of 1 ms begins. -/
def Dev.rstRise (d : Dev) : Dev :=
  if d.pins.rstN then d else { d with pins := { d.pins with rstN := true, rstAt := d.tick } }

/-- STRAP_LATCH: RST_N has been high for 1 ms; the run phase begins (R465, R467). -/
def Dev.strapLatch (d : Dev) (straps : BitVec 8) : Dev :=
  let p := d.pins
  if !p.aonPower || !p.aonClk || !p.pwrOk || !p.rstN || p.phase ≠ .strap || d.tick < p.rstAt + 1000 then d
  else
    let role := (straps.extractLsb' 4 2).toNat
    let d := { d with pins := { p with straps := straps, phase := .run, alive := true, aliveAt := d.tick },
                      reg := { d.reg with beat := d.tick, lost := 0 }, jg := { d.jg with lastCommit := d.tick },
                      ledger := { d.ledger with boot := d.ledger.boot + 1, lastCommit := d.tick } }
    let d := d.setFld Fld.IKQ_CTRL_JG_ROLE 0 role
    d.setFld Fld.SELV_STATUS_JG_STATE 0 (if role = roleLead then jsLead else if role = roleMember then jsFree else jsSolo)

/-- AON_CLK_LOSS acts as an assertion of RST_N; the tick holds its value. -/
def Dev.aonClkLoss (d : Dev) : Dev :=
  if !d.pins.aonClk || !d.pins.aonPower then d
  else ({ d with pins := { d.pins with aonClk := false } } : Dev).coldReset

/-- AON_CLK_RETURN: the implied assertion ends, and a high RST_N counts from now. -/
def Dev.aonClkReturn (d : Dev) : Dev :=
  if d.pins.aonClk then d else { d with pins := { d.pins with aonClk := true, clkAt := d.tick, rstAt := d.tick } }

/-- AON_POWER_LOSS. -/
def Dev.aonPowerLoss (d : Dev) : Dev := if d.pins.aonPower then d.aonLost else d

/-- REFCLK_LOSS of an X-die: its heads' links go down, its Ikiquel links break (R462). -/
def Dev.refclkLoss (d : Dev) (x : Nat) : Dev :=
  let d := (allHeads.filter (fun h => h.toNat / 4 = x)).foldl Dev.linkDown d
  (allPorts.filter (fun q => q.toNat / 4 = x)).foldl Dev.portBreak d

/-- Heads behind a PERST_N pin. -/
def Dev.pinHeads (d : Dev) (k : Nat) : List HeadId := allHeads.filter (fun h => h.toNat / 2 = k && d.headExists h.toNat)

/-- PERST_N: an assertion resets the heads of its port; ignored while RST_N is low (R332, R475). -/
def Dev.perst (d : Dev) (k : BitVec 3) : Dev :=
  if !d.pins.rstN || !d.pins.perstN.getLsbD k.toNat then d
  else
    let d := { d with pins := { d.pins with perstN := d.pins.perstN &&& ~~~((1 : BitVec 8) <<< k.toNat) } }
    (d.pinHeads k.toNat).foldl (fun (d : Dev) h => let d := d.headReset h; d.setHead h (d.head h).resetErr) d

/-- PERST_N_RISE: the links of bound heads may train; HEAD_LINK_UP is the end of the training. -/
def Dev.perstRise (d : Dev) (k : BitVec 3) : Dev :=
  if !d.pins.rstN then d
  else { d with pins := { d.pins with perstN := d.pins.perstN ||| (1 : BitVec 8) <<< k.toNat } }

end Sys2Proof.Machine
end

