-- ==== Sys2Proof/Machine/State.lean ====
section
/-! DEFINITION. The state of the block: the device and the queue of commands that wait, as plain data; the outcomes that
stop a step; and the state after reset. -/

namespace Sys2Proof.Machine

/-- The device and the commands that wait, first in first out. -/
structure State where
  dev : Dev
  pending : List Instr
  deriving DecidableEq, Repr

/-- Reasons a step can stop with a fault: none.  Every command of the table has its effect; a command whose event cannot
happen now leaves the state as it is. -/
inductive Fault
  deriving DecidableEq, Repr

/-- Reasons a step can refuse a command. -/
inductive Refusal
  /-- Raised by `exec` alone, for a command that has no meaning yet; safe. -/
  | notModelled (mnemonic : String)
  deriving DecidableEq, Repr

/-- The state after the COLD event (R9, R465): PWR_OK is high, RST_N and every PERST_N are low, the shuttle pins are in the
strap phase; every field holds the reset value of its card, and the operator wing is ACTIVE (R372).  DESIGN CHOICE (notes/assumptions/58.md):
of the five assemblies of Table 0-1 the device is a CZB4096-D16X4; every definition takes the assembly from `asm`. -/
def State.reset : State := { dev := { regs := [(Fld.WING_STATE_STATE.id, [(0, 1)])] }, pending := [] }

end Sys2Proof.Machine
end

