-- ==== Sys2Proof/Machine/Run.lean ====
section
/-! DEFINITION. What surrounds a command's effect: when the device answers at all, the status that follows from its state,
effects that have become due, and the microsecond tick. -/

namespace Sys2Proof.Machine

/-- Power, clocks and resets let the fast logic work: always-on power and clock, PWR_OK and RST_N high, straps latched, no
thermal trip (R434, R463, R465, R475). -/
def Dev.live (d : Dev) : Bool :=
  d.pins.aonPower && d.pins.aonClk && d.pins.pwrOk && d.pins.rstN && d.pins.phase ≠ .strap && !d.selv.tripped

/-! ### Status that follows from the state -/

/-- Queues that have been bound. -/
def Dev.boundQueues (d : Dev) : List Nat := Fmap.keys (Fmap.get [] d.regs Fld.QUEUE_BIND_VALID.id)

/-- Homes of the lines of a page: all four of a striped or WIDE page, else one (R203). -/
def Dev.pageHomes (d : Dev) (page : Nat) : List Nat :=
  let a := page * 2 ^ 26
  if a < d.dspSize && d.zEnd ≤ a || d.dspSize ≤ a && d.groupMode then [d.home a] else List.range 4

/-- Engines at work: a run's slot at the home of its region, a rotation's register at each home of its page, engine 15 for a
retirement (the assignment of engines is not in spec/). -/
def Dev.busyEngines (d : Dev) : Nat :=
  let r := d.runs.foldl (fun (v : Nat) x => v ||| 2 ^ (16 * d.home (d.regBase x.2.region) + x.1 % 16)) 0
  let t := d.tiers.rots.foldl (fun (v : Nat) x => (d.pageHomes x.2.page).foldl (fun v m => v ||| 2 ^ (16 * m + x.1 % 16)) v) r
  d.tiers.retiring.foldl (fun (v : Nat) x => v ||| 2 ^ (16 * (x.home % 4) + 15)) t

/-- CONS_BUSY and CONS_STATE. -/
def Dev.showCons (d : Dev) : Dev :=
  let d := d.setFld Fld.CONS_BUSY_BUSY 0 d.busyEngines
  (d.setFld Fld.CONS_STATE_RUNNING 0 d.runs.length).setFld Fld.CONS_STATE_WAITING 0 d.runQ.length

/-- OPEN_COUNT and COMMIT_READY of LEDGER_STATUS. -/
def Dev.showLedger (d : Dev) : Dev :=
  let n := (d.ledger.ring.filter (fun r => r.2.isOpen)).length
  (d.setFld Fld.LEDGER_STATUS_OPEN_COUNT 0 n).setFld Fld.LEDGER_STATUS_COMMIT_READY 0 (if d.ledger.erased > 0 then 1 else 0)

/-- Every field that only shows the rest of the state. -/
def Dev.show (d : Dev) : Dev := (d.boundQueues.foldl Dev.showQueue d).showCons.showLedger.showFault

/-! ### Effects that have become due -/

/-- A descriptor with an operation outside Table 12-3 completes with INVALID. -/
def Dev.dropUnknown (d : Dev) (q : Nat) : Dev :=
  match (d.queue q).cur with
  | some x => if x.op > 7 && x.phase = .run then (d.beginDesc q x).descIssued q else d
  | none => d

/-- Descriptors that are issued, launches that have ended. -/
def Dev.queuePump (d : Dev) : Dev :=
  (Fmap.keys d.queues).foldl (fun (d : Dev) q => ((d.dropUnknown q).descIssued q).launchDone q) d

/-- Fault records that waited for the line of their slot. -/
def Dev.faultPump (d : Dev) : Dev :=
  if d.trans.fqWait.isEmpty && d.trans.recs.all (fun r => r.written) then d else d.fqRetry

/-- ATS Invalidation Requests whose accesses have completed. -/
def Dev.atsPump (d : Dev) : Dev :=
  ((d.heads.filter (fun c => !c.2.atsInv.isEmpty)).map (fun c => BitVec.ofNat 4 c.1)).foldl (fun (d : Dev) h => d.atsAnswer h) d

/-- Since when each running tile has had no loom that keeps it running (R410). -/
def Dev.idlePump (d : Dev) : Dev :=
  let busy := ((Fmap.keys (Fmap.get [] d.regs Fld.TREADLE_STATUS_STATE.id)).filter (fun n => d.keepsTile (BitVec.ofNat 12 n))).map loomTile
  let m := (List.range 64).foldl (fun (m : Fmap Nat) t =>
    if d.tileState t ≠ tsRun || busy.contains t then Fmap.del m t
    else if (Fmap.find m t).isSome then m else Fmap.put m t d.tick) d.tileIdle
  { d with tileIdle := m }

def Dev.pumps (d : Dev) : Dev :=
  ((d.mbUnknown d.reg.cmdQ.length).fencePump.queuePump.faultPump.atsPump).idlePump

/-! ### Commands -/

abbrev Out := Host.Outcome State Fault Refusal

/-- The state with a changed device: a command never touches the queue. -/
def State.next (s : State) (f : Dev → Dev) : Out := .next { s with dev := f s.dev }

/-- A command of the fast logic after which nothing else becomes due. -/
def State.pure (s : State) (f : Dev → Dev) : Out := s.next (fun d => if d.live then (f d).show else d)

/-- A command of the fast logic. -/
def State.run (s : State) (f : Dev → Dev) : Out := s.next (fun d => if d.live then (f d).pumps.show else d)

/-- A command of the pins, the selvage or the ledger: it states itself when it acts. -/
def State.aon (s : State) (f : Dev → Dev) : Out := s.next (fun d => (f d).show)

/-! ### The tick -/

/-- One microsecond of the AON tick: the empty queue's step (R21, R436). -/
def Dev.tickOn (d : Dev) : Dev :=
  if !d.pins.aonPower || !d.pins.aonClk then d
  else
    let d := { d with tick := d.tick + 1 }
    (if d.selvOn then d.selvTick else d).idlePump.show

end Sys2Proof.Machine
end

