-- ==== Sys2Proof/Machine/Commands.lean ====
section
/-! DEFINITION. Meanings of commands: commands of the mailboxes (spec/16). -/

namespace Sys2Proof.Machine

/-- MAILBOX_DOORBELL (R394): A mailbox or MCTP command is accepted for execution in order. -/
def execMailboxDoorbell (box : BitVec 6) (op : BitVec 16) (data : List Byte) (s : State) : Out :=
  s.run fun d => d.mailbox box.toNat op.toNat data

/-- IDENTIFY (R398): CXL Identify command. -/
def execIdentify (s : State) : Out := s.run fun d => d.cmdIdentify

/-- BACKGROUND_OPERATION_STATUS (R398): Returns background command status. -/
def execBackgroundOperationStatus (s : State) : Out := s.run fun d => d.cmdBgStatus

/-- GET_RESPONSE_MESSAGE_LIMIT (R398): Returns the response message limit. -/
def execGetResponseMessageLimit (s : State) : Out := s.run fun d => d.cmdGetLimit

/-- SET_RESPONSE_MESSAGE_LIMIT (R398): Sets the response message limit. -/
def execSetResponseMessageLimit (s : State) : Out := s.run fun d => d.cmdSetLimit

/-- REQUEST_ABORT_BACKGROUND_OPERATION (R398): Acts as ROTATE_ABORT or REGION_ABORT where allowed. -/
def execRequestAbortBackgroundOperation (s : State) : Out := s.run fun d => d.cmdAbort

/-- GET_EVENT_RECORDS (R398): Returns event records of the head's wing. -/
def execGetEventRecords (s : State) : Out := s.run fun d => d.cmdGetEvents

/-- CLEAR_EVENT_RECORDS (R398): Clears event records. -/
def execClearEventRecords (s : State) : Out := s.run fun d => d.cmdClearEvents

/-- GET_EVENT_INTERRUPT_POLICY (R398): Returns the event interrupt policy. -/
def execGetEventInterruptPolicy (s : State) : Out := s.run fun d => d.cmdGetEvPolicy

/-- SET_EVENT_INTERRUPT_POLICY (R398): Sets the event interrupt policy. -/
def execSetEventInterruptPolicy (s : State) : Out := s.run fun d => d.cmdSetEvPolicy

/-- GET_FW_INFO (R398): Returns firmware slot information. -/
def execGetFwInfo (s : State) : Out := s.run fun d => d.cmdFwInfo

/-- TRANSFER_FW (R398): Transfers an image into a firmware slot. -/
def execTransferFw (s : State) : Out := s.run fun d => d.cmdTransferFw

/-- ACTIVATE_FW (R402): Activates a registrar image online or at next cold reset. -/
def execActivateFw (verified : Bool) (selfCheck : Bool) (version : Nat) (s : State) : Out :=
  s.run fun d => d.cmdActivateFw verified selfCheck version

/-- GET_TIMESTAMP (R398): Returns the event-record timestamp. -/
def execGetTimestamp (s : State) : Out := s.run fun d => d.cmdGetTimestamp

/-- SET_TIMESTAMP (R398): Sets the timestamp used to label event records. -/
def execSetTimestamp (s : State) : Out := s.run fun d => d.cmdSetTimestamp

/-- GET_SUPPORTED_LOGS (R398): Returns the supported logs. -/
def execGetSupportedLogs (s : State) : Out := s.run fun d => d.cmdGetLogs

/-- GET_LOG (R398): Returns the Command Effects Log. -/
def execGetLog (s : State) : Out := s.run fun d => d.cmdGetLog

/-- IDENTIFY_MEMORY_DEVICE (R398): Returns memory device identity with wing capacities. -/
def execIdentifyMemoryDevice (s : State) : Out := s.run fun d => d.cmdIdentifyMem

/-- GET_HEALTH_INFO (R398): Returns CXL health information. -/
def execGetHealthInfo (s : State) : Out := s.run fun d => d.cmdHealthInfo

/-- GET_ALERT_CONFIGURATION (R398): Returns the alert configuration. -/
def execGetAlertConfiguration (s : State) : Out := s.run fun d => d.cmdGetAlert

/-- SET_ALERT_CONFIGURATION (R398): Sets the alert configuration. -/
def execSetAlertConfiguration (s : State) : Out := s.run fun d => d.cmdSetAlert

/-- GET_DC_CONFIGURATION (R323): Returns Dynamic Capacity configuration. -/
def execGetDcConfiguration (s : State) : Out := s.run fun d => d.cmdDcConfig

/-- GET_DC_EXTENT_LIST (R323): Returns the Dynamic Capacity extent list. -/
def execGetDcExtentList (s : State) : Out := s.run fun d => d.cmdDcExtents

/-- ADD_DC_RESPONSE (R323): Host accepts added Dynamic Capacity extents. -/
def execAddDcResponse (s : State) : Out := s.run fun d => d.cmdAddDc

/-- RELEASE_DC (R323): Host confirms release of extents, which stop decoding. -/
def execReleaseDc (s : State) : Out := s.run fun d => d.cmdReleaseDc

/-- GET_MULTI_HEADED_INFO (R398): FM API multi-headed device query. -/
def execGetMultiHeadedInfo (s : State) : Out := s.run fun d => d.cmdMultiHeaded

/-- GET_HEAD_INFO (R398): FM API head query. -/
def execGetHeadInfo (s : State) : Out := s.run fun d => d.cmdHeadInfo

/-- GET_DCD_INFO (R398): FM API Dynamic Capacity device query. -/
def execGetDcdInfo (s : State) : Out := s.run fun d => d.cmdDcdInfo

/-- GET_HOST_DC_REGION_CONFIGURATION (R398): FM API region configuration query. -/
def execGetHostDcRegionConfiguration (s : State) : Out := s.run fun d => d.cmdHostDc

/-- SET_DC_REGION_CONFIGURATION (R398): FM API sets a DC region configuration. -/
def execSetDcRegionConfiguration (s : State) : Out := s.run fun d => d.cmdSetDcRegion

/-- GET_DC_REGION_EXTENT_LISTS (R398): FM API returns region extent lists. -/
def execGetDcRegionExtentLists (s : State) : Out := s.run fun d => d.cmdDcLists

/-- INITIATE_DC_ADD (R323): FM API starts adding an extent to a Type 3 head. -/
def execInitiateDcAdd (s : State) : Out := s.run fun d => d.cmdDcAdd

/-- INITIATE_DC_RELEASE (R323): FM API starts releasing an extent. -/
def execInitiateDcRelease (s : State) : Out := s.run fun d => d.cmdDcRelease

end Sys2Proof.Machine
end

