-- ==== Sys2Proof/Machine/Couriers.lean ====
section
/-! DEFINITION. Meanings of commands: courier queues and descriptors (spec/12). -/

namespace Sys2Proof.Machine

/-- DOORBELL (R300): A write of SQ_TAIL rings a courier queue. -/
def execDoorbell (h : HeadId) (q : BitVec 9) (v : BitVec 12) (s : State) : Out :=
  s.run fun d => d.barWrite h .doorbell q.toNat (fun d => d.doorbell q.toNat v.toNat)

/-- QUEUE_SCHEDULE (R298): An X-die gives a free courier to the highest-priority ready queue. -/
def execQueueSchedule (x : XDie) (s : State) : Out := s.run fun d => d.schedule x

/-- FETCH_SLOT (R301): A courier reads the slot at SQ_HEAD and accepts it or backs off. -/
def execFetchSlot (q : BitVec 9) (s : State) : Out := s.run fun d => d.fetchSlot q.toNat

/-- SLOT_REFETCH (R301): A backoff expires and the courier re-reads the slot. -/
def execSlotRefetch (q : BitVec 9) (s : State) : Out := s.run fun d => d.slotRefetch q.toNat

/-- COURIER_NOP (R305): Descriptor that completes at once. -/
def execCourierNop (q : BitVec 9) (s : State) : Out := s.run fun d => d.courierStep q.toNat 0 (fun d => d.stepNop q.toNat)

/-- COPY (R305): Descriptor copies LEN bytes. -/
def execCopy (q : BitVec 9) (s : State) : Out := s.run fun d => d.courierStep q.toNat 1 (fun d => d.stepCopy q.toNat)

/-- WRITE_INLINE (R305): Descriptor writes its inline data. -/
def execWriteInline (q : BitVec 9) (s : State) : Out := s.run fun d => d.courierStep q.toNat 2 (fun d => d.stepWrite q.toNat)

/-- FILL (R305): Descriptor fills an extent with a pattern. -/
def execFill (q : BitVec 9) (s : State) : Out := s.run fun d => d.courierStep q.toNat 3 (fun d => d.stepWrite q.toNat)

/-- FLAG_WRITE (R305): Descriptor writes one indivisible 8-byte value. -/
def execFlagWrite (q : BitVec 9) (s : State) : Out := s.run fun d => d.courierStep q.toNat 4 (fun d => d.stepWrite q.toNat)

/-- REDUCE_FORWARD (R305): Descriptor forwards a source as ReduceWrites, optionally clearing it. -/
def execReduceForward (q : BitVec 9) (s : State) : Out :=
  s.run fun d => d.courierStep q.toNat 5 (fun d => d.stepCopy q.toNat)

/-- LAUNCH (R306): Descriptor starts a loom kernel on a loom set. -/
def execLaunch (q : BitVec 9) (s : State) : Out := s.run fun d => d.courierStep q.toNat 6 (fun d => d.stepLaunch q.toNat)

/-- RUN_REGION (R254): Descriptor triggers a region run after its earlier writes are final. -/
def execRunRegion (q : BitVec 9) (s : State) : Out := s.run fun d => d.courierStep q.toNat 7 (fun d => d.stepRegion q.toNat)

/-- LAUNCH_LOOMS_START (R114): A waiting launch finds its looms free and starts their programs. -/
def execLaunchLoomsStart (q : BitVec 9) (s : State) : Out := s.run fun d => d.launchLooms q.toNat

/-- DESCRIPTOR_COMPLETE (R308): A descriptor's writes are final and its record, flag and interrupt follow. -/
def execDescriptorComplete (q : BitVec 9) (s : State) : Out := s.run fun d => d.complete q.toNat

/-- COMPLETION_WAIT_EXPIRY (R311): A completion wait blocked by a broken path ends INDETERMINATE after 2 ms. -/
def execCompletionWaitExpiry (q : BitVec 9) (s : State) : Out := s.run fun d => d.complExpiry q.toNat

/-- QUEUE_ENABLE (R316): Setting QUEUE_CTRL.ENABLE checks the configuration and resets indices. -/
def execQueueEnable (h : HeadId) (q : BitVec 9) (v : W32) (s : State) : Out :=
  s.run fun d => if v.getLsbD 31 then d.barWrite h .doorbell q.toNat (fun d => d.queueCtlWrite q.toNat v.toNat) else d

/-- QUEUE_DISABLE (R314): Clearing QUEUE_CTRL.ENABLE stops the queue and aborts its descriptor. -/
def execQueueDisable (h : HeadId) (q : BitVec 9) (v : W32) (s : State) : Out :=
  s.run fun d => if v.getLsbD 31 then d else d.barWrite h .doorbell q.toNat (fun d => d.queueCtlWrite q.toNat v.toNat)

/-- CQ_HEAD_WRITE (R316): Host advances CQ_HEAD and a full ring resumes. -/
def execCqHeadWrite (h : HeadId) (q : BitVec 9) (v : BitVec 12) (s : State) : Out :=
  s.run fun d => d.barWrite h .doorbell q.toNat (fun d => d.cqHeadWrite q.toNat v.toNat)

/-- HEAD_RESET_CLEAR (R315): Clearing QUEUE_STATUS.HEAD_RESET resumes fetching. -/
def execHeadResetClear (h : HeadId) (q : BitVec 9) (s : State) : Out :=
  s.run fun d => d.barWrite h .doorbell q.toNat (fun d => d.headResetClear q.toNat)

/-- WINDOW_BASE_WRITE (R313): A write of WINDOW_BASE moves or disables the BAR 2 window. -/
def execWindowBaseWrite (h : HeadId) (v : W64) (s : State) : Out :=
  s.run fun d => d.wideWrite h .headCtl Crd.WINDOW_BASE h.toNat (fun d => d.windowWrite h v)

/-- BAR2_READ (R313): A BAR 2 read is served by ReadOnce at the home. -/
def execBar2Read (h : HeadId) (tag : Nat) (off : BitVec 29) (len : Nat) (s : State) : Out :=
  s.run fun d => d.bar2 h tag false false off.toNat len 0

/-- BAR2_WRITE (R313): A BAR 2 write is performed as Write at the home. -/
def execBar2Write (h : HeadId) (tag : Nat) (poison : Bool) (off : BitVec 29) (len : Nat) (data : Nat) (s : State) : Out :=
  s.run fun d => d.bar2 h tag true poison off.toNat len data

end Sys2Proof.Machine
end

