-- ==== Sys2Proof/Machine/HostPort.lean ====
section
/-! DEFINITION. Meanings of commands: the host port and its heads (spec/13). -/

namespace Sys2Proof.Machine

/-- CONFIG_READ (R324): X-die serves a configuration read. -/
def execConfigRead (h : HeadId) (o : BitVec 12) (s : State) : Out := s.run fun d => d.cfgRead h o.toNat

/-- CONFIG_WRITE (R324): X-die serves a configuration write. -/
def execConfigWrite (h : HeadId) (o : BitVec 12) (be : BitVec 4) (v : W32) (s : State) : Out :=
  s.run fun d => d.cfgWrite h o.toNat be v.toNat

/-- EXPANSION_ROM_READ (R328): X-die serves an option ROM read, building the discovery table. -/
def execExpansionRomRead (h : HeadId) (o : BitVec 20) (len : Nat) (s : State) : Out := s.run fun d => d.romRead h o.toNat len

/-- MEM_RD (R322): Head decodes a host CXL.mem read to a DPA or refuses it. -/
def execMemRd (h : HeadId) (tag : Nat) (hpa : BitVec 64) (snp : Snp) (s : State) : Out :=
  s.run fun d => d.memRd h tag hpa.toNat snp

/-- MEM_WR (R322): Head decodes a host CXL.mem write to a DPA or refuses it. -/
def execMemWr (h : HeadId) (tag : Nat) (hpa : BitVec 64) (mask : BitVec 64) (data : Sector) (poison : Bool) (s : State) : Out :=
  s.run fun d => d.memWr h tag hpa.toNat mask data poison

/-- MEM_CLN_EVCT (R184): Head forwards a host clean eviction as CleanEvict. -/
def execMemClnEvct (h : HeadId) (tag : Nat) (hpa : BitVec 64) (s : State) : Out :=
  s.run fun d => d.memClnEvct h tag hpa.toNat

/-- BI_RSP (R184): Head forwards a host back-invalidate response. -/
def execBiRsp (h : HeadId) (line : BitVec 40) (sect : BitVec 2) (shared : Bool) (s : State) : Out :=
  s.run fun d => d.biRsp h line sect shared

/-- GO (R303): A host GO makes a courier or loom write to host memory final. -/
def execGo (h : HeadId) (tag : Nat) (s : State) : Out := s.run fun d => d.go h tag

/-- RD_CURR_DATA (R303): Host data returns for a device RdCurr read. -/
def execRdCurrData (h : HeadId) (tag : Nat) (data : Sector) (poison : Bool) (s : State) : Out :=
  s.run fun d => d.rdCurrData h tag data poison

/-- BUS_MASTER_ENABLE_CLEAR (R331): Host clears Bus Master Enable and the head stops issuing upstream. -/
def execBusMasterEnableClear (h : HeadId) (s : State) : Out := s.run fun d => d.bmeClear h

/-- BUS_MASTER_ENABLE_SET (R331): Host sets Bus Master Enable; pending interrupts are sent. -/
def execBusMasterEnableSet (h : HeadId) (s : State) : Out := s.run fun d => d.bmeSet h

/-- BME_TIMEOUT (R331): Bus Master Enable stays clear for 10 ms and the host path is broken. -/
def execBmeTimeout (h : HeadId) (s : State) : Out := s.run fun d => d.bmeTimeout h

/-- INTERRUPT_UNMASK (R329): An MSI or MSI-X vector is unmasked and its pending message is sent. -/
def execInterruptUnmask (h : HeadId) (v : BitVec 8) (s : State) : Out := s.run fun d => d.intUnmask h v.toNat

/-- INTX_PENDING_CLEAR (R329): Clearing HEAD_INT_PENDING bits may deassert INTA. -/
def execIntxPendingClear (h : HeadId) (mask : W64) (s : State) : Out :=
  s.run fun d => d.wideWrite h .headCtl Crd.HEAD_INT_PENDING h.toNat (fun d => d.intxClear h mask)

/-- FLR (R333): A function level reset of a head is initiated. -/
def execFlr (h : HeadId) (s : State) : Out := s.run fun d => d.flr h

/-- FLR_COMPLETE (R333): An FLR completes and the head leaves Request Retry Status. -/
def execFlrComplete (h : HeadId) (s : State) : Out := s.run fun d => d.flrComplete h

/-- PERST_N (R332): PERST_N assertion resets a head and marks it ABSENT. -/
def execPerstN (k : BitVec 3) (s : State) : Out := s.aon fun d => d.perst k

/-- HOT_RESET (R332): A hot reset of a head. -/
def execHotReset (h : HeadId) (s : State) : Out := s.run fun d => if (d.head h).up then d.headReset h else d

/-- LINK_DOWN (R335): A head's link goes down; in-flight requests end. -/
def execLinkDown (h : HeadId) (s : State) : Out := s.run fun d => d.linkDown h

/-- HEAD_LINK_UP (R318): A head finishes training and its link comes up. -/
def execHeadLinkUp (h : HeadId) (cxl : Bool) (width : BitVec 6) (speed : BitVec 4) (s : State) : Out :=
  s.run fun d => d.headUp h cxl width.toNat speed.toNat

/-- FREEZE (R338): HEAD_CTRL.FREEZE freezes the head. -/
def execFreeze (h : HeadId) (s : State) : Out := s.run fun d => d.barWrite h .headCtl h.toNat (fun d => d.freeze h 3)

/-- RELEASE (R340): HEAD_CTRL.RELEASE releases a non-FATAL freeze. -/
def execRelease (h : HeadId) (s : State) : Out :=
  s.run fun d => d.barWrite h .headCtl h.toNat (fun d => if d.fld Fld.HEAD_STATUS_FREEZE_CAUSE h.toNat = 1 then d else d.unfreeze h)

/-- HOST_SNOOP (R342): A head receives a CXL.cache snoop from its host and answers RspIHitI. -/
def execHostSnoop (h : HeadId) (s : State) : Out := s.run fun d => d.hostSnoop h

end Sys2Proof.Machine
end

