-- ==== Sys2Proof/Machine/Ledgers.lean ====
section
/-! DEFINITION. Meanings of commands: the fault ledger (spec/18). -/

namespace Sys2Proof.Machine

/-- LEDGER_EVENT (R442): A source's dual-rail excursion is counted, classified and recorded: the oldest report that waits, or
first an error that hardware outside the model's state signals. -/
def execLedgerEvent (s : State) (x : Option HwErr := none) : Out := s.aon fun d => d.ledgerEvent x

/-- RAIL_FAULT (R439): A pair shows equal levels for 8 clocks and is ignored. -/
def execRailFault (n : BitVec 10) (s : State) : Out := s.aon fun d => d.railFault n.toNat

/-- FORCE (R443): A write of LEDGER_SRC_n.FORCE raises one forced event. -/
def execForce (h : HeadId) (n : BitVec 10) (v : W64) (s : State) : Out := s.run fun d => d.force h n.toNat v

/-- OPEN_CLEAR (R443): Clearing LEDGER_SRC_n.OPEN closes the source's record. -/
def execOpenClear (h : HeadId) (n : BitVec 10) (v : W64) (s : State) : Out := s.run fun d => d.openClear h n.toNat v

/-- ESCALATED_CLEAR (R442): Clearing ESCALATED resets the source's window count. -/
def execEscalatedClear (h : HeadId) (n : BitVec 10) (v : W64) (s : State) : Out :=
  s.run fun d => d.escalatedClear h n.toNat v

/-- FIRST_VALID_CLEAR (R443): Clearing LEDGER_FIRST.VALID re-arms the first-error latch. -/
def execFirstValidClear (h : HeadId) (s : State) : Out := s.run fun d => d.firstClear h

/-- OVERFLOW_CLEAR (R443): Clearing LEDGER_OVERFLOW zeroes its counts. -/
def execOverflowClear (h : HeadId) (s : State) : Out := s.run fun d => d.overflowClear h

/-- LEDGER_RELEASE (R450): h0 releases the latched FATAL by its SEQ. -/
def execLedgerRelease (h : HeadId) (seq : W32) (s : State) : Out := s.run fun d => d.ledgerRelease h seq.toNat

/-- ALIVE_TOGGLE (R451): ALIVE toggles every 500 µs in the run phase. -/
def execAliveToggle (s : State) : Out := s.aon fun d => d.aliveToggle

/-- FAULT_N_HOLD_EXPIRY (R451): After 10 ms FAULT_N follows FAULT_HOLD. -/
def execFaultNHoldExpiry (s : State) : Out := s.aon fun d => d.faultHold

/-- FAULT_NIBBLE_FRAME (R470): Every 100 ms SHT[7:4] send the fault class. -/
def execFaultNibbleFrame (s : State) : Out := s.aon fun d => d.nibbleFrame

/-- MIRROR_STALE (R444): A mirror missing updates for 100 µs marks itself stale. -/
def execMirrorStale (x : XDie) (s : State) : Out := s.aon fun d => d.mirrorStale x.toNat

/-- PERIODIC_COMMIT (R453): Every 10 s changed records are committed to boot flash. -/
def execPeriodicCommit (s : State) : Out := s.aon fun d => d.periodicCommit

/-- RESPONDER_STATUS_READ (R448): SMBus command 0x01 returns status, first and FATAL latches. -/
def execResponderStatusRead (input : List Byte) (s : State) : Out := s.aon fun d => d.respStatus input

/-- RESPONDER_OVERFLOW_READ (R448): SMBus command 0x02 returns overflow and previous-boot state. -/
def execResponderOverflowRead (input : List Byte) (s : State) : Out := s.aon fun d => d.respOverflow input

/-- RESPONDER_RECORD_READ (R448): SMBus command 0x03 returns the record with a SEQ. -/
def execResponderRecordRead (input : List Byte) (s : State) : Out := s.aon fun d => d.respRecord input

/-- RESPONDER_SOURCE_READ (R448): SMBus command 0x04 returns a source's registers. -/
def execResponderSourceRead (input : List Byte) (s : State) : Out := s.aon fun d => d.respSource input

end Sys2Proof.Machine
end

