-- ==== Sys2Proof/Machine/Links.lean ====
section
/-! DEFINITION. Meanings of commands: Ikiquel links and the job group (spec/14). -/

namespace Sys2Proof.Machine

/-- FLIT_RECEIVE (R352): An Ikiquel port takes a flit, its acknowledgement and credits. -/
def execFlitReceive (q : PortId) (raw : BitVec 1984) (crc : BitVec 64) (bulk : Bool) (ctl : CtlFlit) (s : State) : Out :=
  s.run fun d => d.flitReceive q raw crc bulk ctl

/-- REPLAY_TIMER_EXPIRY (R353): The oldest unacknowledged flit waited too long and is resent. -/
def execReplayTimerExpiry (q : PortId) (s : State) : Out := s.run fun d => d.replayExpiry q

/-- LANE_BAD (R348): A lane is found bad and a width change begins. -/
def execLaneBad (q : PortId) (lane : BitVec 3) (s : State) : Out := s.run fun d => d.laneBad q lane

/-- WIDTH_CHANGE_COMPLETE (R348): Both ends realign on the remaining lanes and resume. -/
def execWidthChangeComplete (q : PortId) (s : State) : Out := s.run fun d => d.widthDone q

/-- CREDIT_TIMEOUT (R356): A channel waited without credits too long; the link breaks. -/
def execCreditTimeout (q : PortId) (s : State) : Out := s.run fun d => d.creditTimeout q

/-- TXN_TIMEOUT (R362): A request got no response in time; the link breaks. -/
def execTxnTimeout (q : PortId) (s : State) : Out := s.run fun d => d.txnTimeout q

/-- LINK_TRAINING_COMPLETE (R363): A port trains, takes a new epoch, or enters MISWIRED. -/
def execLinkTrainingComplete (q : PortId) (t : TrainMsg) (s : State) : Out := s.run fun d => d.trained q t

/-- TRAINING_RETRY (R346): A port that failed to train tries again after 1 s. -/
def execTrainingRetry (q : PortId) (s : State) : Out := s.run fun d => d.trainingRetry q

/-- AUTO_RETRAIN (R365): A broken port begins training 1 ms after the break. -/
def execAutoRetrain (q : PortId) (s : State) : Out := s.run fun d => d.autoRetrain q

/-- LANE_LOCK_LOSS (R362): An Ikiquel port loses lane lock and declares its link broken. -/
def execLaneLockLoss (q : PortId) (s : State) : Out := s.run fun d => d.laneLockLoss q

/-- RD (R367): Receiving port translates and performs a peer read. -/
def execRd (q : PortId) (m : PMsg) (s : State) : Out := s.run fun d => d.peerRead q m

/-- ATOM (R367): Receiving port translates and performs a peer atomic. -/
def execAtom (q : PortId) (m : PMsg) (s : State) : Out := s.run fun d => d.peerAtomic q m

/-- WR (R360): Receiving port performs a peer write, in order for OWR. -/
def execWr (q : PortId) (m : PMsg) (s : State) : Out := s.run fun d => d.peerWrite q m

/-- WRM (R360): Receiving port performs a byte-masked peer write. -/
def execWrm (q : PortId) (m : PMsg) (s : State) : Out := s.run fun d => d.peerWriteMasked q m

/-- CMP (R360): A requester receives the completion of a peer write. -/
def execCmp (q : PortId) (m : PMsg) (s : State) : Out := s.run fun d => d.peerCmp q m

/-- RDATA (R358): A requester receives peer read data. -/
def execRdata (q : PortId) (m : PMsg) (s : State) : Out := s.run fun d => d.peerData q m

/-- ATOMDATA (R358): A requester receives the old value of a peer atomic. -/
def execAtomdata (q : PortId) (m : PMsg) (s : State) : Out := s.run fun d => d.peerAtomData q m

/-- JG_LIMIT (R369): The lead takes a member's highest holdable point. -/
def execJgLimit (q : PortId) (m : PMsg) (s : State) : Out := s.run fun d => d.jgLimitIn q m

/-- JG_COMMIT (R369): A member schedules a newer committed point. -/
def execJgCommit (q : PortId) (m : PMsg) (s : State) : Out := s.run fun d => d.jgCommitIn q m

/-- JG_ACK (R369): The lead learns that a member applied a commit. -/
def execJgAck (q : PortId) (m : PMsg) (s : State) : Out := s.run fun d => d.jgAckIn q m

/-- JG_SWITCH (R369): At the commit time the package switches every RUN tile to the point. -/
def execJgSwitch (s : State) : Out := s.aon fun d => d.jgSwitch

/-- JG_REPEAT_TIMER (R369): Every 1 ms the member resends JG_LIMIT and the lead resends JG_COMMIT. -/
def execJgRepeatTimer (s : State) : Out := s.run fun d => d.jgRepeat

/-- JG_LOCK_LOSS (R370): A member without a commit for 10 ms leaves lock. -/
def execJgLockLoss (s : State) : Out := s.aon fun d => d.jgLockLoss

/-- LOCK_LIMIT_SEND (R469): Every 1 ms the lead sends a LIMIT frame on the ring. -/
def execLockLimitSend (s : State) : Out := s.aon fun d => d.lockSend

/-- LOCK_LIMIT_FRAME (R469): A ring package takes a LIMIT frame, lowers POINT and forwards it. -/
def execLockLimitFrame (f : W32) (stop : Bool) (s : State) : Out := s.aon fun d => d.lockLimit f stop

/-- LOCK_COMMIT_FRAME (R469): A ring member takes a COMMIT frame, schedules it and forwards it. -/
def execLockCommitFrame (f : W32) (stop : Bool) (s : State) : Out := s.aon fun d => d.lockCommit f stop

/-- LOCK_RING_TIMEOUT (R469): A LIMIT not returned within 1 ms marks the ring broken. -/
def execLockRingTimeout (s : State) : Out := s.aon fun d => d.lockTimeout

end Sys2Proof.Machine
end

