-- ==== Sys2Proof/Machine/LoomMemory.lean ====
section
/-! DEFINITION. Meanings of commands: loads, stores, atomics, cache operations, fences and waits of a loom (spec/06). -/

namespace Sys2Proof.Machine

/-- LB (R159): Treadle load of a sign-extended byte. -/
def execLb (n : LoomId) (a : LoadArgs) (s : State) : Out := s.run fun d => d.instr (.lb n a) n 4 fun d => d.load n ⟨a.rd, 1, true⟩ a

/-- LH (R159): Treadle load of a sign-extended halfword. -/
def execLh (n : LoomId) (a : LoadArgs) (s : State) : Out := s.run fun d => d.instr (.lh n a) n 4 fun d => d.load n ⟨a.rd, 2, true⟩ a

/-- LW (R159): Treadle load of a sign-extended word. -/
def execLw (n : LoomId) (a : LoadArgs) (s : State) : Out := s.run fun d => d.instr (.lw n a) n 4 fun d => d.load n ⟨a.rd, 4, true⟩ a

/-- LD (R159): Treadle load of a doubleword. -/
def execLd (n : LoomId) (a : LoadArgs) (s : State) : Out := s.run fun d => d.instr (.ld n a) n 4 fun d => d.load n ⟨a.rd, 8, false⟩ a

/-- LBU (R159): Treadle load of a zero-extended byte. -/
def execLbu (n : LoomId) (a : LoadArgs) (s : State) : Out := s.run fun d => d.instr (.lbu n a) n 4 fun d => d.load n ⟨a.rd, 1, false⟩ a

/-- LHU (R159): Treadle load of a zero-extended halfword. -/
def execLhu (n : LoomId) (a : LoadArgs) (s : State) : Out := s.run fun d => d.instr (.lhu n a) n 4 fun d => d.load n ⟨a.rd, 2, false⟩ a

/-- LWU (R159): Treadle load of a zero-extended word. -/
def execLwu (n : LoomId) (a : LoadArgs) (s : State) : Out := s.run fun d => d.instr (.lwu n a) n 4 fun d => d.load n ⟨a.rd, 4, false⟩ a

/-- SB (R157): Treadle byte store into the store buffer. -/
def execSb (n : LoomId) (a : StoreArgs) (s : State) : Out := s.run fun d => d.instr (.sb n a) n 4 fun d => d.store n 1 a

/-- SH (R157): Treadle halfword store into the store buffer. -/
def execSh (n : LoomId) (a : StoreArgs) (s : State) : Out := s.run fun d => d.instr (.sh n a) n 4 fun d => d.store n 2 a

/-- SW (R157): Treadle word store into the store buffer. -/
def execSw (n : LoomId) (a : StoreArgs) (s : State) : Out := s.run fun d => d.instr (.sw n a) n 4 fun d => d.store n 4 a

/-- SD (R157): Treadle doubleword store into the store buffer. -/
def execSd (n : LoomId) (a : StoreArgs) (s : State) : Out := s.run fun d => d.instr (.sd n a) n 4 fun d => d.store n 8 a

/-- ATOMIC_SWAP (R161): Treadle atomic swap at the home. -/
def execAtomicSwap (n : LoomId) (a : AtomArgs) (s : State) : Out := s.run fun d => d.instr (.atomicSwap n a) n 4 fun d => d.atomic n .swap a

/-- ATOMIC_ADD (R161): Treadle atomic add at the home. -/
def execAtomicAdd (n : LoomId) (a : AtomArgs) (s : State) : Out := s.run fun d => d.instr (.atomicAdd n a) n 4 fun d => d.atomic n .add a

/-- ATOMIC_AND (R161): Treadle atomic AND at the home. -/
def execAtomicAnd (n : LoomId) (a : AtomArgs) (s : State) : Out := s.run fun d => d.instr (.atomicAnd n a) n 4 fun d => d.atomic n .and a

/-- ATOMIC_OR (R161): Treadle atomic OR at the home. -/
def execAtomicOr (n : LoomId) (a : AtomArgs) (s : State) : Out := s.run fun d => d.instr (.atomicOr n a) n 4 fun d => d.atomic n .or a

/-- ATOMIC_XOR (R161): Treadle atomic XOR at the home. -/
def execAtomicXor (n : LoomId) (a : AtomArgs) (s : State) : Out := s.run fun d => d.instr (.atomicXor n a) n 4 fun d => d.atomic n .xor a

/-- ATOMIC_MIN (R161): Treadle atomic signed minimum. -/
def execAtomicMin (n : LoomId) (a : AtomArgs) (s : State) : Out := s.run fun d => d.instr (.atomicMin n a) n 4 fun d => d.atomic n .min a

/-- ATOMIC_MAX (R161): Treadle atomic signed maximum. -/
def execAtomicMax (n : LoomId) (a : AtomArgs) (s : State) : Out := s.run fun d => d.instr (.atomicMax n a) n 4 fun d => d.atomic n .max a

/-- ATOMIC_MINU (R161): Treadle atomic unsigned minimum. -/
def execAtomicMinu (n : LoomId) (a : AtomArgs) (s : State) : Out := s.run fun d => d.instr (.atomicMinu n a) n 4 fun d => d.atomic n .minu a

/-- ATOMIC_MAXU (R161): Treadle atomic unsigned maximum. -/
def execAtomicMaxu (n : LoomId) (a : AtomArgs) (s : State) : Out := s.run fun d => d.instr (.atomicMaxu n a) n 4 fun d => d.atomic n .maxu a

/-- ATOMIC_CAS (R161): Treadle atomic compare-and-swap. -/
def execAtomicCas (n : LoomId) (a : AtomArgs) (s : State) : Out := s.run fun d => d.instr (.atomicCas n a) n 4 fun d => d.atomic n .cas a

/-- PREFETCH_R (R153): Hint that allocates a line with shared sectors. -/
def execPrefetchR (n : LoomId) (a : CacheArgs) (s : State) : Out := s.run fun d => d.instr (.prefetchR n a) n 4 fun d => d.prefetch n false a

/-- PREFETCH_W (R153): Hint that allocates a line with ownership of all sectors. -/
def execPrefetchW (n : LoomId) (a : CacheArgs) (s : State) : Out := s.run fun d => d.instr (.prefetchW n a) n 4 fun d => d.prefetch n true a

/-- ZERO_LINE (R153): Allocates a line in M with every byte zero without fetching. -/
def execZeroLine (n : LoomId) (a : CacheArgs) (s : State) : Out := s.run fun d => d.instr (.zeroLine n a) n 4 fun d => d.zeroLine n a

/-- CLEAN_LINE (R153): Writes back M or O sectors of a line and keeps it present. -/
def execCleanLine (n : LoomId) (a : CacheArgs) (s : State) : Out := s.run fun d => d.instr (.cleanLine n a) n 4 fun d => d.cleanLine n a

/-- LOCK_PRELOAD (R150): Allocates and locks a line in ways 0 to 3, or refuses. -/
def execLockPreload (n : LoomId) (a : CacheArgs) (s : State) : Out := s.run fun d => d.instr (.lockPreload n a) n 4 fun d => d.lockPreload n a

/-- UNLOCK (R150): Clears the lock of a line. -/
def execUnlock (n : LoomId) (a : CacheArgs) (s : State) : Out := s.run fun d => d.instr (.unlock n a) n 4 fun d => d.unlock n a

/-- FENCE_SL (R164): Fence waiting for earlier stores to become visible. -/
def execFenceSl (n : LoomId) (a : SysArgs) (s : State) : Out := s.run fun d => d.instr (.fenceSl n a) n 4 fun d => d.fence n .sl a

/-- FENCE_ALL (R164): Fence waiting for earlier stores, loads and atomics. -/
def execFenceAll (n : LoomId) (a : SysArgs) (s : State) : Out := s.run fun d => d.instr (.fenceAll n a) n 4 fun d => d.fence n .all a

/-- FENCE_IO (R164): Fence also waiting for host acknowledgement of earlier host writes. -/
def execFenceIo (n : LoomId) (a : SysArgs) (s : State) : Out := s.run fun d => d.instr (.fenceIo n a) n 4 fun d => d.fence n .io a

/-- FENCE_GLOBAL (R164): Fence waiting for final acknowledgement of every earlier write. -/
def execFenceGlobal (n : LoomId) (a : SysArgs) (s : State) : Out := s.run fun d => d.instr (.fenceGlobal n a) n 4 fun d => d.fence n .global a

/-- FENCE_COMPLETE (R164): A waiting fence's conditions hold and the treadle continues. -/
def execFenceComplete (n : LoomId) (s : State) : Out := s.run fun d => d.fenceComplete n

/-- BROKEN_PATH_WAIT_EXPIRY (R166): A wait blocked by a broken path completes 2 ms after the break, setting FENCE_FAULT. -/
def execBrokenPathWaitExpiry (n : LoomId) (s : State) : Out := s.run fun d => d.brokenExpiry n

/-- TALLY_WAIT (R111): Treadle waits until the masked tallies are idle. -/
def execTallyWait (n : LoomId) (a : SysArgs) (s : State) : Out := s.run fun d => d.instr (.tallyWait n a) n 4 fun d => d.tallyWait n a

/-- INBOX_WAIT (R111): Treadle waits until a masked INBOX bit is set. -/
def execInboxWait (n : LoomId) (a : SysArgs) (s : State) : Out := s.run fun d => d.instr (.inboxWait n a) n 4 fun d => d.inboxWait n a

/-- BARRIER (R113): Fence then arrival at the loom's barrier group. -/
def execBarrier (n : LoomId) (a : SysArgs) (s : State) : Out := s.run fun d => d.instr (.barrier n a) n 4 fun d => d.barrier n a

/-- HALT (R111): Waits for all tallies, records EXIT_CODE and ends the program. -/
def execHalt (n : LoomId) (a : SysArgs) (s : State) : Out := s.run fun d => d.instr (.halt n a) n 4 fun d => d.halt n a

/-- LOOM_PROGRAM_END (R163): A halting or stopping loom leaves RUNNING once its store buffer is empty. -/
def execLoomProgramEnd (n : LoomId) (s : State) : Out := s.run fun d => d.programEnd n

/-- STORE_BUFFER_ENTRY_LEAVE (R157): The oldest store buffer entry becomes visible in the cache or is sent uncached. -/
def execStoreBufferEntryLeave (n : LoomId) (s : State) : Out := s.run fun d => d.storeLeave n

end Sys2Proof.Machine
end

