-- ==== Sys2Proof/Machine/LoomUnits.lean ====
section
/-! DEFINITION. Meanings of commands: the tensor array and the transfer unit of a loom (spec/03, spec/04). -/

namespace Sys2Proof.Machine

/-- WEAVE (R97): Treadle checks and queues a WEAVE for the array. -/
def execWeave (n : LoomId) (a : ArrArgs) (s : State) : Out := s.run fun d => d.instr (.weave n a) n 8 fun d => d.weaveOp n a

/-- ACC_LOAD (R101): Treadle queues a copy of 256 scratch bytes into an accumulator. -/
def execAccLoad (n : LoomId) (a : ArrArgs) (s : State) : Out := s.run fun d => d.instr (.accLoad n a) n 8 fun d => d.accMove n 1 a

/-- ACC_STORE (R101): Treadle queues a copy of an accumulator into scratch. -/
def execAccStore (n : LoomId) (a : ArrArgs) (s : State) : Out := s.run fun d => d.instr (.accStore n a) n 8 fun d => d.accMove n 2 a

/-- ACC_ZERO (R101): Treadle queues a clear of an accumulator. -/
def execAccZero (n : LoomId) (a : ArrArgs) (s : State) : Out := s.run fun d => d.instr (.accZero n a) n 8 fun d => d.accZero n a

/-- ARRAY_OP_START (R103): The array starts the operation at the head of its queue once its dependency is met. -/
def execArrayOpStart (n : LoomId) (s : State) : Out := s.run fun d => d.arrayStart n

/-- ARRAY_OP_COMPLETE (R95): An array operation finishes and its tally completes. -/
def execArrayOpComplete (n : LoomId) (s : State) : Out := s.run fun d => d.arrayComplete n

/-- FETCH (R108): Treadle checks and queues a memory-to-scratch transfer. -/
def execFetch (n : LoomId) (a : XferArgs) (s : State) : Out := s.run fun d => d.instr (.fetch n a) n 8 fun d => d.issueXfer n 0 a

/-- PUT (R109): Treadle checks and queues a scratch-to-memory transfer. -/
def execPut (n : LoomId) (a : XferArgs) (s : State) : Out := s.run fun d => d.instr (.put n a) n 8 fun d => d.issueXfer n 1 a

/-- SEND (R110): Treadle checks and queues a scratch-to-scratch copy to another loom. -/
def execSend (n : LoomId) (a : XferArgs) (s : State) : Out := s.run fun d => d.instr (.send n a) n 8 fun d => d.issueXfer n 2 a

/-- TALLY_POLL (R107): Writes TALLY_BUSY to a register. -/
def execTallyPoll (n : LoomId) (a : XferArgs) (s : State) : Out := s.pure fun d => d.instr (.tallyPoll n a) n 8 fun d => d.tallyPoll n a

/-- TALLY_CLEAR (R107): Clears selected TALLY_FAULT bits and possibly TALLY_FIRST.VALID. -/
def execTallyClear (n : LoomId) (a : XferArgs) (s : State) : Out := s.pure fun d => d.instr (.tallyClear n a) n 8 fun d => d.tallyClear n a

/-- TRANSFER_START (R109): The transfer unit starts the oldest queued transfer whose dependency is met. -/
def execTransferStart (n : LoomId) (s : State) : Out := s.run fun d => d.xferStart n

/-- TRANSFER_REQUEST_ISSUE (R109): A transfer request takes a freed outstanding slot and is issued. -/
def execTransferRequestIssue (n : LoomId) (s : State) : Out := s.run fun d => d.xferRequest n

end Sys2Proof.Machine
end

