-- ==== Sys2Proof/Machine/Memories.lean ====
section
/-! DEFINITION. Meanings of commands: the tiers, rotation, retirement and integrity (spec/08, spec/09). -/

namespace Sys2Proof.Machine

/-- PARITY_RETRY (R229): A channel detects an interface error and repeats the command. -/
def execParityRetry (x : RetryIn) (ok : Bool) (s : State) : Out := s.run fun d => d.parityRetry x ok

/-- REFRESH_RATE_CHANGE (R232): A stack crosses a temperature threshold and changes its refresh rate. -/
def execRefreshRateChange (depot : Bool) (k : BitVec 5) (temp : Nat) (s : State) : Out :=
  s.run fun d => d.refresh depot k.toNat temp

/-- PATROL_READ (R233): The patrol reads and classifies the next sector or line. -/
def execPatrolRead (depot : Bool) (a : PatrolAt) (s : State) : Out := s.run fun d => d.patrol depot a

/-- MEMINJ_ARM (R240): A write of MEMINJ_FLIP.ARM arms an error injection. -/
def execMeminjArm (h : HeadId) (v : W64) (s : State) : Out :=
  s.run fun d => if v.getLsbD 63 then d.wideWrite h .tiers Crd.MEMINJ_FLIP 0 (fun d => d.memInj v.toNat) else d

/-- TIER_COUNTER_HALVING (R215): At each TIER_INTERVAL period every home halves every HEAT field. -/
def execTierCounterHalving (s : State) : Out := s.run fun d => d.heatHalve

/-- ROTATION_ROUND_END (R216): A rotation copy round ends; another round, the hold, or NO_CONVERGE follows. -/
def execRotationRoundEnd (k : BitVec 4) (s : State) : Out := s.run fun d => d.rotRound k.toNat

/-- ROTATION_SWITCH (R194): Homes finish the held copy, switch the location entry and release held requests. -/
def execRotationSwitch (k : BitVec 4) (s : State) : Out := s.run fun d => d.rotSwitch k.toNat

/-- RETIREMENT_SWITCH (R238): A frame copy finishes and the channel remap entry switches. -/
def execRetirementSwitch (m : BitVec 2) (s : State) : Out := s.run fun d => d.retireSwitch m.toNat

end Sys2Proof.Machine
end

