-- ==== Sys2Proof/Machine/PinEvents.lean ====
section
/-! DEFINITION. Meanings of commands: pins, resets and start-up (spec/19). -/

namespace Sys2Proof.Machine

/-- PWR_OK_RISE (R465): PWR_OK rises: COLD event and strap phase. -/
def execPwrOkRise (s : State) : Out := s.aon fun d => d.pwrOkRise

/-- RST_N_ASSERT (R475): RST_N assertion resets the COLD domain. -/
def execRstNAssert (s : State) : Out := s.aon fun d => d.rstAssert

/-- RST_N_RISE (R465): RST_N rises and the strap-latch count starts. -/
def execRstNRise (s : State) : Out := s.aon fun d => d.rstRise

/-- STRAP_LATCH (R465): 1 ms after RST_N rises the straps latch and the run phase begins. -/
def execStrapLatch (straps : BitVec 8) (s : State) : Out := s.aon fun d => d.strapLatch straps

/-- PWRFAIL_N_FALL (R476): PWRFAIL_N low for 10 µs counts as fallen. -/
def execPwrfailNFall (s : State) : Out := s.aon fun d => d.pwrfailFall

/-- PWRFAIL_N_RISE (R453): PWRFAIL_N rises without power loss and operation continues. -/
def execPwrfailNRise (s : State) : Out := s.aon fun d => d.pwrfailRise

/-- AON_CLK_LOSS (R463): No AON_CLK edge for 4 µs acts as RST_N assertion. -/
def execAonClkLoss (s : State) : Out := s.aon fun d => d.aonClkLoss

/-- AON_POWER_LOSS (R474): Loss of always-on power clears the AON domain. -/
def execAonPowerLoss (s : State) : Out := s.aon fun d => d.aonPowerLoss

/-- REFCLK_LOSS (R462): Loss of an X-die REFCLK takes its links down. -/
def execRefclkLoss (x : XDie) (s : State) : Out := s.aon fun d => d.refclkLoss x.toNat

/-- PERST_N_RISE (R471): PERST_N rises on a bound head and its link starts training within 1 ms. -/
def execPerstNRise (k : BitVec 3) (s : State) : Out := s.aon fun d => d.perstRise k

/-- AON_CLK_RETURN (R463): AON_CLK edges return after an absence, ending the implied RST_N assertion and letting the AON tick run again. -/
def execAonClkReturn (s : State) : Out := s.aon fun d => d.aonClkReturn

end Sys2Proof.Machine
end

