-- ==== Sys2Proof/Machine/Power.lean ====
section
/-! DEFINITION. Meanings of commands: the selvage: power, points, temperature, tiles (spec/17). -/

namespace Sys2Proof.Machine

/-- ARBITER_PERIOD (R415): Every 2 µs the selvage updates the average, ALLOW and all grants. -/
def execArbiterPeriod (x : ArbIn) (s : State) : Out := s.aon fun d => d.arbiter x

/-- SLOW_LOOP (R423): Every 100 µs tiles are classified and their points moved. -/
def execSlowLoop (x : SlowIn) (s : State) : Out := s.aon fun d => d.slowLoop x

/-- CALIBRATION (R424): Every 1 ms the selvage updates CAL. -/
def execCalibration (est : Nat) (meas : Nat) (s : State) : Out := s.aon fun d => d.calibrate est meas

/-- RAIL_SETTLED (R414): The rail monitor shows the new voltage and the tile clock changes. -/
def execRailSettled (die : BitVec 2) (s : State) : Out := s.aon fun d => d.railSettled die.toNat

/-- SENSOR_SAMPLE (R430): Every 20 µs the sensors are sampled and heat limits applied. -/
def execSensorSample (raw : List Int) (s : State) : Out := s.aon fun d => d.sensorSample raw

/-- THERMAL_TRIP (R434): A junction crosses 120 °C; fast clocks stop and THERMTRIP_N asserts. -/
def execThermalTrip (s : State) : Out := s.aon fun d => d.thermalTrip

/-- THROTTLE_IN (R429): THROTTLE_IN asserts or deasserts the external point limit. -/
def execThrottleIn (on : Bool) (s : State) : Out := s.aon fun d => d.throttleIn on

/-- RRL_ALERT (R458): A converter asserts RRL_ALERT_N, counted at source 0x362. -/
def execRrlAlert (s : State) : Out := s.aon fun d => d.rrlAlert

/-- SELV_CAP_WRITE (R420): A write of SELV_CAP changes the cap from the next period. -/
def execSelvCapWrite (h : HeadId) (v : W32) (s : State) : Out := s.run fun d => d.selvCapWrite h v.toNat

/-- TILE_WAKE (R410): A launch, SEND or scrub names a sleeping tile and it starts waking. -/
def execTileWake (t : BitVec 6) (s : State) : Out := s.aon fun d => d.tileWake t.toNat

/-- TILE_WAKE_COMPLETE (R20): A waking tile's clocks run. -/
def execTileWakeComplete (t : BitVec 6) (s : State) : Out := s.aon fun d => d.tileWoken t.toNat

/-- TILE_GATE (R410): A tile idle for 10 µs cleans its caches and clock-gates. -/
def execTileGate (t : BitVec 6) (s : State) : Out := s.aon fun d => d.tileGate t.toNat

/-- TILE_PLL_OFF (R410): A tile GATED for PLLOFF_DELAY turns its PLL off. -/
def execTilePllOff (t : BitVec 6) (s : State) : Out := s.aon fun d => d.tilePllOff t.toNat

end Sys2Proof.Machine
end

