-- ==== Sys2Proof/Machine/ReedUnit.lean ====
section
/-! DEFINITION. Meanings of commands: the reed vector engine of a loom (spec/05). -/

namespace Sys2Proof.Machine

/-- REED_ENQUEUE (R121): Treadle checks a class 0xD word and places it in the reed queue. -/
def execReedEnqueue (n : LoomId) (w : W64) (s : State) : Out := s.pure fun d => d.instr (.reedEnqueue n w) n 8 fun d => d.reedEnqueue n w

/-- VADD (R125): Reed lane-wise add. -/
def execVadd (n : LoomId) (s : State) : Out := s.pure fun d => d.reedExec n 0x00

/-- VSUB (R125): Reed lane-wise subtract. -/
def execVsub (n : LoomId) (s : State) : Out := s.pure fun d => d.reedExec n 0x01

/-- VMUL (R125): Reed lane-wise multiply. -/
def execVmul (n : LoomId) (s : State) : Out := s.pure fun d => d.reedExec n 0x02

/-- VFMA (R125): Reed fused multiply-add. -/
def execVfma (n : LoomId) (s : State) : Out := s.pure fun d => d.reedExec n 0x03

/-- VFMS (R125): Reed fused multiply-subtract. -/
def execVfms (n : LoomId) (s : State) : Out := s.pure fun d => d.reedExec n 0x04

/-- VFNMA (R125): Reed negated fused multiply-add. -/
def execVfnma (n : LoomId) (s : State) : Out := s.pure fun d => d.reedExec n 0x05

/-- VDIV (R130): Reed lane-wise divide. -/
def execVdiv (n : LoomId) (s : State) : Out := s.pure fun d => d.reedExec n 0x06

/-- VSQRT (R130): Reed lane-wise square root. -/
def execVsqrt (n : LoomId) (s : State) : Out := s.pure fun d => d.reedExec n 0x07

/-- VMIN (R126): Reed lane-wise minimum. -/
def execVmin (n : LoomId) (s : State) : Out := s.pure fun d => d.reedExec n 0x08

/-- VMAX (R126): Reed lane-wise maximum. -/
def execVmax (n : LoomId) (s : State) : Out := s.pure fun d => d.reedExec n 0x09

/-- VMINU (R125): Reed unsigned minimum. -/
def execVminu (n : LoomId) (s : State) : Out := s.pure fun d => d.reedExec n 0x0A

/-- VMAXU (R125): Reed unsigned maximum. -/
def execVmaxu (n : LoomId) (s : State) : Out := s.pure fun d => d.reedExec n 0x0B

/-- VABS (R125): Reed absolute value. -/
def execVabs (n : LoomId) (s : State) : Out := s.pure fun d => d.reedExec n 0x0C

/-- VNEG (R125): Reed negation. -/
def execVneg (n : LoomId) (s : State) : Out := s.pure fun d => d.reedExec n 0x0D

/-- VCOPYSIGN (R125): Reed copy of sign. -/
def execVcopysign (n : LoomId) (s : State) : Out := s.pure fun d => d.reedExec n 0x0E

/-- VAND (R125): Reed bitwise AND. -/
def execVand (n : LoomId) (s : State) : Out := s.pure fun d => d.reedExec n 0x10

/-- VOR (R125): Reed bitwise OR. -/
def execVor (n : LoomId) (s : State) : Out := s.pure fun d => d.reedExec n 0x11

/-- VXOR (R125): Reed bitwise XOR. -/
def execVxor (n : LoomId) (s : State) : Out := s.pure fun d => d.reedExec n 0x12

/-- VSHL (R125): Reed shift left. -/
def execVshl (n : LoomId) (s : State) : Out := s.pure fun d => d.reedExec n 0x13

/-- VSHR (R125): Reed logical shift right. -/
def execVshr (n : LoomId) (s : State) : Out := s.pure fun d => d.reedExec n 0x14

/-- VSRA (R125): Reed arithmetic shift right. -/
def execVsra (n : LoomId) (s : State) : Out := s.pure fun d => d.reedExec n 0x15

/-- VCMPEQ (R127): Reed compare equal into a treadle register. -/
def execVcmpeq (n : LoomId) (s : State) : Out := s.pure fun d => d.reedExec n 0x18

/-- VCMPLT (R127): Reed compare less than into a treadle register. -/
def execVcmplt (n : LoomId) (s : State) : Out := s.pure fun d => d.reedExec n 0x19

/-- VCMPLE (R127): Reed compare less or equal into a treadle register. -/
def execVcmple (n : LoomId) (s : State) : Out := s.pure fun d => d.reedExec n 0x1A

/-- VCMPUN (R127): Reed compare unordered into a treadle register. -/
def execVcmpun (n : LoomId) (s : State) : Out := s.pure fun d => d.reedExec n 0x1B

/-- VCMPLTU (R125): Reed unsigned compare less than. -/
def execVcmpltu (n : LoomId) (s : State) : Out := s.pure fun d => d.reedExec n 0x1C

/-- VREDSUM (R128): Reed tree sum of enabled lanes into lane 0. -/
def execVredsum (n : LoomId) (s : State) : Out := s.pure fun d => d.reedExec n 0x20

/-- VREDMAX (R128): Reed maximum of enabled lanes. -/
def execVredmax (n : LoomId) (s : State) : Out := s.pure fun d => d.reedExec n 0x21

/-- VREDMIN (R128): Reed minimum of enabled lanes. -/
def execVredmin (n : LoomId) (s : State) : Out := s.pure fun d => d.reedExec n 0x22

/-- VREDAMAX (R128): Reed largest magnitude of enabled lanes. -/
def execVredamax (n : LoomId) (s : State) : Out := s.pure fun d => d.reedExec n 0x23

/-- VEXP2 (R129): Reed base-2 exponential approximation. -/
def execVexp2 (n : LoomId) (s : State) : Out := s.pure fun d => d.reedExec n 0x28

/-- VEXP (R129): Reed natural exponential approximation. -/
def execVexp (n : LoomId) (s : State) : Out := s.pure fun d => d.reedExec n 0x29

/-- VLOG2 (R129): Reed base-2 logarithm approximation. -/
def execVlog2 (n : LoomId) (s : State) : Out := s.pure fun d => d.reedExec n 0x2A

/-- VLOG (R129): Reed natural logarithm approximation. -/
def execVlog (n : LoomId) (s : State) : Out := s.pure fun d => d.reedExec n 0x2B

/-- VRSQRT (R129): Reed reciprocal square root approximation. -/
def execVrsqrt (n : LoomId) (s : State) : Out := s.pure fun d => d.reedExec n 0x2C

/-- VRCP (R129): Reed reciprocal approximation. -/
def execVrcp (n : LoomId) (s : State) : Out := s.pure fun d => d.reedExec n 0x2D

/-- VLD (R125): Reed loads 64 bytes from scratch. -/
def execVld (n : LoomId) (s : State) : Out := s.pure fun d => d.reedExec n 0x30

/-- VST (R125): Reed stores 64 bytes to scratch. -/
def execVst (n : LoomId) (s : State) : Out := s.pure fun d => d.reedExec n 0x31

/-- VBCAST (R125): Reed broadcasts a treadle value to every lane. -/
def execVbcast (n : LoomId) (s : State) : Out := s.pure fun d => d.reedExec n 0x32

/-- VEXT (R125): Reed extracts one lane into a treadle register. -/
def execVext (n : LoomId) (s : State) : Out := s.pure fun d => d.reedExec n 0x33

/-- VMOV (R125): Reed register copy. -/
def execVmov (n : LoomId) (s : State) : Out := s.pure fun d => d.reedExec n 0x34

/-- VPERM (R125): Reed lane permutation. -/
def execVperm (n : LoomId) (s : State) : Out := s.pure fun d => d.reedExec n 0x35

/-- VCVT (R134): Reed conversion between lane types. -/
def execVcvt (n : LoomId) (s : State) : Out := s.pure fun d => d.reedExec n 0x38

/-- VCVTI (R134): Reed conversion to INT32 with saturation. -/
def execVcvti (n : LoomId) (s : State) : Out := s.pure fun d => d.reedExec n 0x39

/-- VDQLD (R135): Reed decodes one narrow block from scratch. -/
def execVdqld (n : LoomId) (s : State) : Out := s.pure fun d => d.reedExec n 0x3A

/-- VQST (R136): Reed quantizes and stores one block to scratch. -/
def execVqst (n : LoomId) (s : State) : Out := s.pure fun d => d.reedExec n 0x3B

/-- DRAIN (R140): Reed drain path converts accumulators and writes them to scratch. -/
def execDrain (n : LoomId) (s : State) : Out := s.run fun d => d.drain n

end Sys2Proof.Machine
end

