-- ==== Sys2Proof/Machine/Registers.lean ====
section
/-! DEFINITION. Meanings of commands: writes of registers without a row of their own (R5, R7, R8). -/

namespace Sys2Proof.Machine

/-- REGISTER_WRITE (R5): A write to a register field that has no row of its own, applied under its access code. -/
def execRegisterWrite (h : HeadId) (x : RegDest) (s : State) : Out := s.run fun d => d.registerWrite h x

end Sys2Proof.Machine
end

