-- ==== Sys2Proof/Machine/Routines.lean ====
section
/-! DEFINITION. Meanings of commands: runs of the conservators (spec/10). -/

namespace Sys2Proof.Machine

/-- RUN_START (R255): A WAITING region starts its run when a run slot is free. -/
def execRunStart (r : BitVec 12) (s : State) : Out := s.run fun d => d.runStart r.toNat

/-- END (R255): Routine entry that ends the list. -/
def execListEnd (r : BitVec 12) (s : State) : Out := s.run fun d => d.runChunk r.toNat 0x00 Dev.runEndEntry

/-- ZERO (R263): Routine writes N bytes of zero. -/
def execZero (r : BitVec 12) (s : State) : Out := s.run fun d => d.runChunk r.toNat 0x01 (Dev.runBytes false)

/-- SNAPSHOT (R263): Routine copies N bytes. -/
def execSnapshot (r : BitVec 12) (s : State) : Out := s.run fun d => d.runChunk r.toNat 0x02 (Dev.runBytes true)

/-- SCALE (R265): Routine scales A into B. -/
def execScale (r : BitVec 12) (s : State) : Out := s.run fun d => d.runChunk r.toNat 0x03 (Dev.runElems [0] [1] scaleAt)

/-- AXPY (R265): Routine adds a scaled A into B. -/
def execAxpy (r : BitVec 12) (s : State) : Out := s.run fun d => d.runChunk r.toNat 0x04 (Dev.runElems [0, 1] [1] axpyAt)

/-- NORM2 (R266): Routine accumulates a sum of squares into a run scalar. -/
def execNorm2 (r : BitVec 12) (s : State) : Out := s.run fun d => d.runChunk r.toNat 0x05 Dev.runNorm

/-- CLIP_APPLY (R265): Routine computes a clip factor and scales A. -/
def execClipApply (r : BitVec 12) (s : State) : Out := s.run fun d => d.runChunk r.toNat 0x06 Dev.runClip

/-- SGD_MOMENTUM (R265): Routine performs an SGD step with momentum. -/
def execSgdMomentum (r : BitVec 12) (s : State) : Out :=
  s.run fun d => d.runChunk r.toNat 0x07 (Dev.runElems [0, 1, 2] [0, 1] sgdAt)

/-- LION (R265): Routine performs a Lion optimizer step. -/
def execLion (r : BitVec 12) (s : State) : Out :=
  s.run fun d => d.runChunk r.toNat 0x08 (Dev.runElems [0, 1, 2] [0, 1] lionAt)

/-- ADAM (R265): Routine performs an Adam step with decoupled decay. -/
def execAdam (r : BitVec 12) (s : State) : Out :=
  s.run fun d => d.runChunk r.toNat 0x09 (Dev.runElems [0, 1, 2, 3] [0, 1, 2] adamAt)

/-- REQUANT (R267): Routine quantizes A into a scaled shadow. -/
def execRequant (r : BitVec 12) (s : State) : Out := s.run fun d => d.runChunk r.toNat 0x0A Dev.runRequant

/-- RUN_END (R255): After the last entry, counts reset, the region reopens, the epoch advances and the interrupt is sent. -/
def execRunEnd (r : BitVec 12) (s : State) : Out := s.run fun d => d.runEnd r.toNat

/-- RUN_ABORT_STOP (R258): A run stops at its next chunk boundary and the region becomes FAULTED. -/
def execRunAbortStop (r : BitVec 12) (s : State) : Out := s.run fun d => d.runAbortStop r.toNat

end Sys2Proof.Machine
end

