-- ==== Sys2Proof/Machine/Translation.lean ====
section
/-! DEFINITION. Meanings of commands: translation, its faults and invalidations (spec/11). -/

namespace Sys2Proof.Machine

/-- PAGE_WALK (R275): A walker translates a missed virtual page or faults. -/
def execPageWalk (e : Engine) (s : State) : Out := s.run fun d => d.pageWalk e

/-- FAULT_RESUME (R286): Host resumes an open fault record with RETRY or DENY. -/
def execFaultResume (h : HeadId) (v : W32) (s : State) : Out := s.run fun d => d.resumeWrite h v

/-- TRANSLATION_FAULT_TIMEOUT (R287): A stalled engine's fault timer expires. -/
def execTranslationFaultTimeout (e : Engine) (s : State) : Out := s.run fun d => d.faultTimeout e

/-- INVALIDATION_START (R290): INV_CTRL.GO starts removal of cached translations of a range. -/
def execInvalidationStart (h : HeadId) (v : W32) (s : State) : Out := s.run fun d => d.invStart h v.toNat

/-- INVALIDATION_COMPLETE (R290): Every engine has acknowledged and the invalidation completes. -/
def execInvalidationComplete (w : WingId) (s : State) : Out := s.run fun d => d.invComplete w

/-- TRANS_ROOT_WRITE (R294): A write of TRANS_ROOT applies to later walks. -/
def execTransRootWrite (h : HeadId) (v : W64) (s : State) : Out := s.run fun d => d.rootWrite h v

/-- FQ_BASE_WRITE (R295): A write of FQ_BASE resets the queue indices. -/
def execFqBaseWrite (h : HeadId) (v : W64) (s : State) : Out := s.run fun d => d.fqBaseWrite h v

/-- FQ_CONS_WRITE (R288): Host frees slots and a waiting record is written. -/
def execFqConsWrite (h : HeadId) (v : W32) (s : State) : Out := s.run fun d => d.fqConsWrite h v

/-- ATS_TRANSLATION_COMPLETION (R282): A head receives an ATS completion and fills its ATC or faults the access. -/
def execAtsTranslationCompletion (h : HeadId) (iova : BitVec 64) (ok : Bool) (target : BitVec 64) (size : Nat) (mayWrite : Bool) (s : State) : Out :=
  s.run fun d => d.atsCompletion h iova.toNat ok target.toNat size mayWrite

/-- ATS_INVALIDATION_REQUEST (R283): A head drops matching ATC entries and answers the host. -/
def execAtsInvalidationRequest (h : HeadId) (iova : BitVec 64) (size : Nat) (itag : BitVec 5) (s : State) : Out :=
  s.run fun d => d.atsInvalidate h iova.toNat size itag.toNat

/-- COMPLETION_TIMEOUT (R336): An ATS Translation Request gets no completion in time; the access faults with HOST_FAULT and a Completion Timeout is logged. -/
def execCompletionTimeout (h : HeadId) (iova : BitVec 64) (s : State) : Out := s.run fun d => d.atsTimeout h iova.toNat

end Sys2Proof.Machine
end

