-- ==== Sys2Proof/Machine/TreadleAlu.lean ====
section
/-! DEFINITION. Meanings of commands: treadle instructions on registers, scratch and system registers, branches and jumps (R85, R88, R89). -/

namespace Sys2Proof.Machine

/-- ADD (R88): Treadle register ADD. -/
def execAdd (n : LoomId) (a : RArgs) (s : State) : Out := s.pure fun d => d.instr (.add n a) n 4 fun d => d.aluReg n .add a

/-- SUB (R88): Treadle register SUB. -/
def execSub (n : LoomId) (a : RArgs) (s : State) : Out := s.pure fun d => d.instr (.sub n a) n 4 fun d => d.aluReg n .sub a

/-- AND (R88): Treadle register AND. -/
def execAnd (n : LoomId) (a : RArgs) (s : State) : Out := s.pure fun d => d.instr (.and n a) n 4 fun d => d.aluReg n .and a

/-- OR (R88): Treadle register OR. -/
def execOr (n : LoomId) (a : RArgs) (s : State) : Out := s.pure fun d => d.instr (.or n a) n 4 fun d => d.aluReg n .or a

/-- XOR (R88): Treadle register XOR. -/
def execXor (n : LoomId) (a : RArgs) (s : State) : Out := s.pure fun d => d.instr (.xor n a) n 4 fun d => d.aluReg n .xor a

/-- SLL (R88): Treadle shift left logical. -/
def execSll (n : LoomId) (a : RArgs) (s : State) : Out := s.pure fun d => d.instr (.sll n a) n 4 fun d => d.aluReg n .sll a

/-- SRL (R88): Treadle shift right logical. -/
def execSrl (n : LoomId) (a : RArgs) (s : State) : Out := s.pure fun d => d.instr (.srl n a) n 4 fun d => d.aluReg n .srl a

/-- SRA (R88): Treadle shift right arithmetic. -/
def execSra (n : LoomId) (a : RArgs) (s : State) : Out := s.pure fun d => d.instr (.sra n a) n 4 fun d => d.aluReg n .sra a

/-- SLT (R88): Treadle set if less than, signed. -/
def execSlt (n : LoomId) (a : RArgs) (s : State) : Out := s.pure fun d => d.instr (.slt n a) n 4 fun d => d.aluReg n .slt a

/-- SLTU (R88): Treadle set if less than, unsigned. -/
def execSltu (n : LoomId) (a : RArgs) (s : State) : Out := s.pure fun d => d.instr (.sltu n a) n 4 fun d => d.aluReg n .sltu a

/-- MIN (R88): Treadle signed minimum. -/
def execMin (n : LoomId) (a : RArgs) (s : State) : Out := s.pure fun d => d.instr (.min n a) n 4 fun d => d.aluReg n .min a

/-- MAX (R88): Treadle signed maximum. -/
def execMax (n : LoomId) (a : RArgs) (s : State) : Out := s.pure fun d => d.instr (.max n a) n 4 fun d => d.aluReg n .max a

/-- MINU (R88): Treadle unsigned minimum. -/
def execMinu (n : LoomId) (a : RArgs) (s : State) : Out := s.pure fun d => d.instr (.minu n a) n 4 fun d => d.aluReg n .minu a

/-- MAXU (R88): Treadle unsigned maximum. -/
def execMaxu (n : LoomId) (a : RArgs) (s : State) : Out := s.pure fun d => d.instr (.maxu n a) n 4 fun d => d.aluReg n .maxu a

/-- MUL (R88): Treadle multiply, low 64 bits. -/
def execMul (n : LoomId) (a : RArgs) (s : State) : Out := s.pure fun d => d.instr (.mul n a) n 4 fun d => d.aluReg n .mul a

/-- MULH (R88): Treadle signed multiply, high 64 bits. -/
def execMulh (n : LoomId) (a : RArgs) (s : State) : Out := s.pure fun d => d.instr (.mulh n a) n 4 fun d => d.aluReg n .mulh a

/-- MULHU (R88): Treadle unsigned multiply, high 64 bits. -/
def execMulhu (n : LoomId) (a : RArgs) (s : State) : Out := s.pure fun d => d.instr (.mulhu n a) n 4 fun d => d.aluReg n .mulhu a

/-- DIV (R88): Treadle signed divide toward zero. -/
def execDiv (n : LoomId) (a : RArgs) (s : State) : Out := s.pure fun d => d.instr (.div n a) n 4 fun d => d.aluReg n .div a

/-- DIVU (R88): Treadle unsigned divide. -/
def execDivu (n : LoomId) (a : RArgs) (s : State) : Out := s.pure fun d => d.instr (.divu n a) n 4 fun d => d.aluReg n .divu a

/-- REM (R88): Treadle signed remainder. -/
def execRem (n : LoomId) (a : RArgs) (s : State) : Out := s.pure fun d => d.instr (.rem n a) n 4 fun d => d.aluReg n .rem a

/-- REMU (R88): Treadle unsigned remainder. -/
def execRemu (n : LoomId) (a : RArgs) (s : State) : Out := s.pure fun d => d.instr (.remu n a) n 4 fun d => d.aluReg n .remu a

/-- ADDI (R88): Treadle add immediate. -/
def execAddi (n : LoomId) (a : IArgs) (s : State) : Out := s.pure fun d => d.instr (.addi n a) n 4 fun d => d.aluImm n .add a

/-- ANDI (R88): Treadle AND immediate. -/
def execAndi (n : LoomId) (a : IArgs) (s : State) : Out := s.pure fun d => d.instr (.andi n a) n 4 fun d => d.aluImm n .and a

/-- ORI (R88): Treadle OR immediate. -/
def execOri (n : LoomId) (a : IArgs) (s : State) : Out := s.pure fun d => d.instr (.ori n a) n 4 fun d => d.aluImm n .or a

/-- XORI (R88): Treadle XOR immediate. -/
def execXori (n : LoomId) (a : IArgs) (s : State) : Out := s.pure fun d => d.instr (.xori n a) n 4 fun d => d.aluImm n .xor a

/-- SLLI (R88): Treadle shift left logical immediate. -/
def execSlli (n : LoomId) (a : IArgs) (s : State) : Out := s.pure fun d => d.instr (.slli n a) n 4 fun d => d.aluImm n .sll a

/-- SRLI (R88): Treadle shift right logical immediate. -/
def execSrli (n : LoomId) (a : IArgs) (s : State) : Out := s.pure fun d => d.instr (.srli n a) n 4 fun d => d.aluImm n .srl a

/-- SRAI (R88): Treadle shift right arithmetic immediate. -/
def execSrai (n : LoomId) (a : IArgs) (s : State) : Out := s.pure fun d => d.instr (.srai n a) n 4 fun d => d.aluImm n .sra a

/-- SLTI (R88): Treadle set if less than immediate. -/
def execSlti (n : LoomId) (a : IArgs) (s : State) : Out := s.pure fun d => d.instr (.slti n a) n 4 fun d => d.aluImm n .slt a

/-- SLTIU (R88): Treadle set if less than immediate, unsigned. -/
def execSltiu (n : LoomId) (a : IArgs) (s : State) : Out := s.pure fun d => d.instr (.sltiu n a) n 4 fun d => d.aluImm n .sltu a

/-- MOVW (R88): Treadle moves a 16-bit immediate into a register halfword. -/
def execMovw (n : LoomId) (a : MovwArgs) (s : State) : Out := s.pure fun d => d.instr (.movw n a) n 4 fun d => d.movw n a

/-- BRANCH_EQ (R88): Treadle branch if equal. -/
def execBranchEq (n : LoomId) (a : BrArgs) (s : State) : Out := s.pure fun d => d.instr (.branchEq n a) n 4 fun d => d.branch n .eq a

/-- BRANCH_NE (R88): Treadle branch if not equal. -/
def execBranchNe (n : LoomId) (a : BrArgs) (s : State) : Out := s.pure fun d => d.instr (.branchNe n a) n 4 fun d => d.branch n .ne a

/-- BRANCH_LT (R88): Treadle branch if less than, signed. -/
def execBranchLt (n : LoomId) (a : BrArgs) (s : State) : Out := s.pure fun d => d.instr (.branchLt n a) n 4 fun d => d.branch n .lt a

/-- BRANCH_GE (R88): Treadle branch if greater or equal, signed. -/
def execBranchGe (n : LoomId) (a : BrArgs) (s : State) : Out := s.pure fun d => d.instr (.branchGe n a) n 4 fun d => d.branch n .ge a

/-- BRANCH_LTU (R88): Treadle branch if less than, unsigned. -/
def execBranchLtu (n : LoomId) (a : BrArgs) (s : State) : Out := s.pure fun d => d.instr (.branchLtu n a) n 4 fun d => d.branch n .ltu a

/-- BRANCH_GEU (R88): Treadle branch if greater or equal, unsigned. -/
def execBranchGeu (n : LoomId) (a : BrArgs) (s : State) : Out := s.pure fun d => d.instr (.branchGeu n a) n 4 fun d => d.branch n .geu a

/-- JAL (R88): Treadle jump and link, pc-relative. -/
def execJal (n : LoomId) (a : JalArgs) (s : State) : Out := s.pure fun d => d.instr (.jal n a) n 4 fun d => d.jal n a

/-- JALR (R88): Treadle jump and link through a register. -/
def execJalr (n : LoomId) (a : JalrArgs) (s : State) : Out := s.pure fun d => d.instr (.jalr n a) n 4 fun d => d.jalr n a

/-- NOP (R111): Treadle no-operation. -/
def execNop (n : LoomId) (a : SysArgs) (s : State) : Out := s.pure fun d => d.instr (.nop n a) n 4 fun d => d.nop n a

/-- SLD (R89): Treadle load from its own loom scratch. -/
def execSld (n : LoomId) (a : ScrArgs) (s : State) : Out := s.pure fun d => d.instr (.sld n a) n 4 fun d => d.sld n a

/-- SST (R89): Treadle store to its own loom scratch. -/
def execSst (n : LoomId) (a : ScrArgs) (s : State) : Out := s.pure fun d => d.instr (.sst n a) n 4 fun d => d.sst n a

/-- SRR (R85): Treadle reads a system register. -/
def execSrr (n : LoomId) (a : SrArgs) (s : State) : Out := s.pure fun d => d.instr (.srr n a) n 4 fun d => d.srr n a

/-- SRW (R85): Treadle writes a system register without behaviour of its own. -/
def execSrw (n : LoomId) (a : SrArgs) (s : State) : Out := s.run fun d => d.instr (.srw n a) n 4 fun d => d.srw n a

/-- WAY_POWER_CHANGE (R151): An SRW of CACHE_CTRL.WAY_ON cleans and powers ways down or up. -/
def execWayPowerChange (n : LoomId) (a : SrArgs) (s : State) : Out :=
  s.run fun d => d.instr (.wayPowerChange n a) n 4 fun d => if a.num = 0x080 then d.srw n a else d

/-- CLEAN_ALL (R168): CACHE_OP writes back every dirty sector of the data cache. -/
def execCleanAll (n : LoomId) (a : SrArgs) (s : State) : Out :=
  s.run fun d => d.instr (.cleanAll n a) n 4 fun d => if a.num = 0x083 && (d.loom n).reg a.r % 4 = 1 then d.srw n a else d

/-- FLUSH_ALL (R168): CACHE_OP writes back, invalidates and unlocks every line. -/
def execFlushAll (n : LoomId) (a : SrArgs) (s : State) : Out :=
  s.run fun d => d.instr (.flushAll n a) n 4 fun d => if a.num = 0x083 && (d.loom n).reg a.r % 4 = 2 then d.srw n a else d

/-- UNLOCK_ALL (R168): CACHE_OP removes every lock. -/
def execUnlockAll (n : LoomId) (a : SrArgs) (s : State) : Out :=
  s.run fun d => d.instr (.unlockAll n a) n 4 fun d => if a.num = 0x083 && (d.loom n).reg a.r % 4 = 3 then d.srw n a else d

end Sys2Proof.Machine
end

