-- ==== Sys2Proof/Machine/Vendors.lean ====
section
/-! DEFINITION. Meanings of commands: vendor commands of the mailboxes and what they start (spec/15, spec/16). -/

namespace Sys2Proof.Machine

/-- WING_CREATE (R374): Creates a FREE tenant wing as ACTIVE. -/
def execWingCreate (s : State) : Out := s.run fun d => d.cmdWingCreate

/-- WING_GRANT_LOOMS (R374): Grants free IDLE or STOPPED looms to a wing. -/
def execWingGrantLooms (s : State) : Out := s.run fun d => d.cmdGrantLooms

/-- WING_GRANT_EXTENTS (R375): Zero-fills and grants memory extents to a wing. -/
def execWingGrantExtents (s : State) : Out := s.run fun d => d.cmdGrantExtents

/-- EXTENT_ZERO_FILL_COMPLETE (R375): The zero-fill ends and the extent joins the wing. -/
def execExtentZeroFillComplete (w : WingId) (s : State) : Out := s.run fun d => d.fillDone w

/-- WING_GRANT_REGION_RANGE (R248): Grants or replaces a wing's reduction region range. -/
def execWingGrantRegionRange (s : State) : Out := s.run fun d => d.cmdGrantRegions

/-- WING_GRANT_ATRIUM_WAYS (R211): Sets a wing's atrium way mask and policy. -/
def execWingGrantAtriumWays (s : State) : Out := s.run fun d => d.cmdGrantWays

/-- WING_GRANT_WINDOW_BITS (R372): Grants sender-side remote window permissions. -/
def execWingGrantWindowBits (s : State) : Out := s.run fun d => d.cmdGrantWindows

/-- LOOM_RETURN (R376): Fences, scrubs and frees one loom of a wing. -/
def execLoomReturn (s : State) : Out := s.run fun d => d.cmdLoomReturn

/-- WING_RELEASE (R382): Starts the release steps of a wing. -/
def execWingRelease (s : State) : Out := s.run fun d => d.cmdWingRelease

/-- WING_RELEASE_COMPLETE (R382): The scrub ends, the key is erased and the wing becomes FREE. -/
def execWingReleaseComplete (w : WingId) (s : State) : Out := s.run fun d => d.releaseDone w.toNat

/-- WING_PRESERVE (R381): Moves a wing to PRESERVED under its policy. -/
def execWingPreserve (s : State) : Out := s.run fun d => d.cmdWingPreserve

/-- WING_RESUME (R381): Returns a PRESERVED wing to ACTIVE. -/
def execWingResume (s : State) : Out := s.run fun d => d.cmdWingResume

/-- WING_QUERY (R399): Returns a wing's loom mask and extent list. -/
def execWingQuery (s : State) : Out := s.run fun d => d.cmdWingQuery

/-- STATE_DESCRIPTOR (R400): Returns the wing state descriptor. -/
def execStateDescriptor (s : State) : Out := s.run fun d => d.cmdStateDescriptor

/-- HEAD_BIND (R320): Binds or unbinds a head and retrains its link. -/
def execHeadBind (s : State) : Out := s.run fun d => d.cmdHeadBind

/-- QUEUE_BIND (R297): Binds or unbinds courier queues to a wing and home head. -/
def execQueueBind (s : State) : Out := s.run fun d => d.cmdQueueBind

/-- KEY_LOAD (R379): Loads a wing key into all four M-dies. -/
def execKeyLoad (s : State) : Out := s.run fun d => d.cmdKeyLoad

/-- WINDOW_SET (R368): Writes receiving-side window table entries. -/
def execWindowSet (s : State) : Out := s.run fun d => d.cmdWindowSet

/-- LOOM_FENCE (R118): Fences one loom of a wing. -/
def execLoomFence (s : State) : Out := s.run fun d => d.cmdLoomFence

/-- LOOM_ADMIT (R118): Returns a FENCED loom to IDLE. -/
def execLoomAdmit (s : State) : Out := s.run fun d => d.cmdLoomAdmit

/-- STRIPE_LIMIT (R208): Moves the display stripe boundary. -/
def execStripeLimit (s : State) : Out := s.run fun d => d.cmdStripeLimit

/-- LOCATION_READ (R207): Returns location entries of pages. -/
def execLocationRead (s : State) : Out := s.run fun d => d.cmdLocationRead

/-- TIER_STATS (R215): Returns page heat sums or extremes. -/
def execTierStats (s : State) : Out := s.run fun d => d.cmdTierStats

/-- ROTATE (R216): Starts a rotation of a page to another slot kind. -/
def execRotate (s : State) : Out := s.run fun d => d.cmdRotate

/-- ROTATE_ABORT (R217): Aborts a rotation before its switch. -/
def execRotateAbort (s : State) : Out := s.run fun d => d.cmdRotateAbort

/-- ATRIUM_PIN (R213): Pins a DPA range of the wing in the atrium. -/
def execAtriumPin (s : State) : Out := s.run fun d => d.cmdAtriumPin

/-- ATRIUM_UNPIN (R213): Unpins a range and writes back its dirty sectors. -/
def execAtriumUnpin (s : State) : Out := s.run fun d => d.cmdAtriumUnpin

/-- STACK_EVACUATE (R218): Rotates every page off a display stack and retires it. -/
def execStackEvacuate (s : State) : Out := s.run fun d => d.cmdStackEvacuate

/-- CHANNEL_EVACUATE (R219): Empties the depot slots that use a channel. -/
def execChannelEvacuate (s : State) : Out := s.run fun d => d.cmdChannelEvacuate

/-- CHANNEL_OFFLINE (R219): Takes an evacuated depot channel OFFLINE. -/
def execChannelOffline (s : State) : Out := s.run fun d => d.cmdChannelOffline

/-- CHANNEL_RETRAIN (R219): Retrains a channel and its lanes. -/
def execChannelRetrain (popOk : Bool) (t : TrainRes) (s : State) : Out := s.run fun d => d.cmdChannelRetrain popOk t

/-- RETIRE_FRAME (R238): Retires one frame onto a spare frame. -/
def execRetireFrame (s : State) : Out := s.run fun d => d.cmdRetireFrame

/-- RETIRE_BANK (R238): Retires every frame of one bank. -/
def execRetireBank (s : State) : Out := s.run fun d => d.cmdRetireBank

/-- MARGIN (R235): Measures lane eyes of a channel along one axis. -/
def execMargin (res : List (Byte × Byte)) (s : State) : Out := s.run fun d => d.cmdMargin res

/-- REGION_ENABLE (R249): Enables a reduction region with its descriptor. -/
def execRegionEnable (s : State) : Out := s.run fun d => d.cmdRegionEnable

/-- REGION_DISABLE (R259): Disables an OPEN or FAULTED region. -/
def execRegionDisable (s : State) : Out := s.run fun d => d.cmdRegionDisable

/-- REGION_RUN (R254): Triggers a run of an OPEN region. -/
def execRegionRun (s : State) : Out := s.run fun d => d.cmdRegionRun

/-- REGION_REOPEN (R259): Resets counts and reopens a FAULTED region. -/
def execRegionReopen (s : State) : Out := s.run fun d => d.cmdRegionReopen

/-- REGION_RERUN (R259): Restarts a FAULTED region's run from entry k. -/
def execRegionRerun (s : State) : Out := s.run fun d => d.cmdRegionRerun

/-- REGION_ABORT (R259): Aborts a WAITING or RUNNING region. -/
def execRegionAbort (s : State) : Out := s.run fun d => d.cmdRegionAbort

/-- PORT_CONFIG (R317): Rewrites the port bifurcation record. -/
def execPortConfig (s : State) : Out := s.run fun d => d.cmdPortConfig

/-- PORT_MAP (R346): Rewrites the node configuration record. -/
def execPortMap (s : State) : Out := s.run fun d => d.cmdPortMap

/-- IKQ_RETRAIN (R348): Retrains an Ikiquel port and retests bad lanes. -/
def execIkqRetrain (pass : BitVec 8) (s : State) : Out := s.run fun d => d.cmdIkqRetrain pass.toNat

/-- IKQ_PORT_DISABLE (R362): Enables or disables an Ikiquel port. -/
def execIkqPortDisable (s : State) : Out := s.run fun d => d.cmdIkqDisable

/-- VF_RECALIBRATE (R408): Measures and raises tile voltage offsets. -/
def execVfRecalibrate (raises : List (Nat × Nat × Int)) (s : State) : Out := s.run fun d => d.cmdVfRecalibrate raises

/-- HEALTH (R401): Returns the HEALTH fields. -/
def execHealth (s : State) : Out := s.run fun d => d.cmdHealth

/-- UCODE_RELOAD (R403): Starts a conservator microcode reload per M-die. -/
def execUcodeReload (s : State) : Out := s.run fun d => d.cmdUcodeReload

/-- UCODE_LOAD (R403): A drained M-die loads and verifies the microcode. -/
def execUcodeLoad (ok : Bool) (s : State) : Out := s.run fun d => d.ucodeLoad ok

/-- WARM_RESET (R473): Responds and then resets the WARM domain. -/
def execWarmReset (s : State) : Out := s.run fun d => d.cmdWarmReset

/-- PROVENANCE_READ (R404): Returns provenance ROM bytes. -/
def execProvenanceRead (s : State) : Out := s.run fun d => d.cmdProvRead

/-- REGISTRAR_START_UP (R389): The registrar runs its start-up sequence after RST_N rises. -/
def execRegistrarStartUp (x : StartIn) (s : State) : Out := s.run fun d => d.startUp x

/-- HEARTBEAT (R441): Registrar firmware writes its heartbeat every 10 ms. -/
def execHeartbeat (s : State) : Out := s.aon fun d => d.heartbeat

/-- HEARTBEAT_LOST (R441): Each second without a heartbeat reports at source 0x372. -/
def execHeartbeatLost (s : State) : Out := s.aon fun d => d.heartbeatLost

end Sys2Proof.Machine
end

