-- ==== Sys2Proof/Machine/WeaveMsgs.lean ====
section
/-! DEFINITION. Meanings of commands: messages of the weave: homes, requesters, holders (spec/07). -/

namespace Sys2Proof.Machine

/-- READ_SHARED (R185): Home handles a request for a shared copy of sectors. -/
def execReadShared (r : Req) (s : State) : Out := s.run fun d => d.onKind r .readShared

/-- READ_OWN (R185): Home handles a request for ownership of sectors. -/
def execReadOwn (r : Req) (s : State) : Out := s.run fun d => d.onKind r .readOwn

/-- UPGRADE (R185): Home handles a request for ownership without data. -/
def execUpgrade (r : Req) (s : State) : Out := s.run fun d => d.onKind r .upgrade

/-- OWN_NO_DATA (R185): Home grants ownership without data for ZERO.LINE. -/
def execOwnNoData (r : Req) (s : State) : Out := s.run fun d => d.onKind r .ownNoData

/-- WRITE_BACK (R185): Home takes dirty sectors from an evicting owner. -/
def execWriteBack (r : Req) (s : State) : Out := s.run fun d => d.writeBack r

/-- WRITE_CLEAN (R185): Home takes dirty sectors while the holder keeps a clean copy. -/
def execWriteClean (r : Req) (s : State) : Out := s.run fun d => d.onKind r .writeClean

/-- CLEAN_EVICT (R184): Home learns that a host dropped its copy. -/
def execCleanEvict (r : Req) (s : State) : Out := s.run fun d => d.onKind r .cleanEvict

/-- READ_ONCE (R185): Home serves current data without a tracked copy. -/
def execReadOnce (r : Req) (s : State) : Out := s.run fun d => d.onKind r .readOnce

/-- WRITE (R185): Home performs an untracked full-sector or byte-masked write. -/
def execWrite (r : Req) (s : State) : Out := s.run fun d => d.onKind r .write

/-- ATOMIC (R187): Home resolves a sector and performs a read-modify-write. -/
def execAtomic (r : Req) (s : State) : Out := s.run fun d => d.atomicReq r

/-- REDUCE_WRITE (R245): Home adds the selected elements of an alias write into memory and counts them. -/
def execReduceWrite (r : Req) (s : State) : Out := s.run fun d => d.onKind r .reduceWrite

/-- RECALL (R185): A holder answers a home Recall with or without data. -/
def execRecallMsg (m : Msg) (s : State) : Out := s.run fun d => d.recallIn m

/-- INVALIDATE (R185): A holder drops its copy and answers InvAck. -/
def execInvalidate (m : Msg) (s : State) : Out := s.run fun d => d.invalidateIn m

/-- STASH (R190): A loom installs or declines a pushed sector. -/
def execStash (m : Msg) (s : State) : Out := s.run fun d => d.stashIn m

/-- DATA (R146): A requester receives data with its granted state. -/
def execData (m : Msg) (s : State) : Out := s.run fun d => d.dataIn m

/-- RECALL_DATA (R185): Home receives recalled data and continues the transaction. -/
def execRecallData (m : Msg) (s : State) : Out := s.run fun d => d.recallDataIn m

/-- RECALL_ACK (R192): Home receives a data-less answer to a Recall. -/
def execRecallAck (m : Msg) (s : State) : Out := s.run fun d => d.recallAckIn m

/-- INV_ACK (R181): Home counts an invalidation acknowledgement. -/
def execInvAck (m : Msg) (s : State) : Out := s.run fun d => d.invAckIn m

/-- COMP (R95): A requester receives a completion of a write or ownership grant. -/
def execComp (m : Msg) (s : State) : Out := s.run fun d => d.compIn m

/-- COMP_ACK (R175): Home receives the requester's receipt and frees the line. -/
def execCompAck (m : Msg) (s : State) : Out := s.run fun d => d.compAckIn m

/-- RETRY (R176): A requester receives a refusal with NO_TRACKER or LINE_BUSY. -/
def execRetry (m : Msg) (s : State) : Out := s.run fun d => d.retryIn m

/-- CREDIT (R176): A requester receives a credit and reissues on a reserved tracker. -/
def execCredit (m : Msg) (s : State) : Out := s.run fun d => d.creditIn m

/-- STASH_ACK (R190): Home receives the stash result and frees the line. -/
def execStashAck (m : Msg) (s : State) : Out := s.run fun d => d.stashAckIn m

/-- LINE_BUSY_REISSUE (R176): After 64 weave clocks a LINE_BUSY request is reissued, AGED after 64 retries. -/
def execLineBusyReissue (a : Agent) (line : BitVec 40) (s : State) : Out := s.run fun d => d.lineBusyReissue a line

/-- HOME_TIMEOUT_EXPIRY (R191): A Recall or Invalidate timer expires; sectors are poisoned and the holder removed. -/
def execHomeTimeoutExpiry (line : BitVec 40) (id : BitVec 13) (s : State) : Out :=
  s.run fun d => d.snoopExpiry line.toNat id.toNat

/-- CATALOGUE_SWEEP_COMPLETE (R193): Every home finishes sweeping an ABSENT head from its catalogue. -/
def execCatalogueSweepComplete (h : HeadId) (s : State) : Out := s.run fun d => d.sweepDone h

end Sys2Proof.Machine
end

