-- ==== Sys2Proof/Machine/Dispatch.lean ====
section
/-! DEFINITION. One arm per command, each a direct call of its meaning. -/

namespace Sys2Proof.Machine

/-- The effect of a command on everything but the queue. -/
def exec (i : Instr) (s : State) : Host.Outcome State Fault Refusal :=
  match i with
  | .registerWrite h x => Sys2Proof.Machine.execRegisterWrite h x s
  | .add n a => Sys2Proof.Machine.execAdd n a s
  | .sub n a => Sys2Proof.Machine.execSub n a s
  | .and n a => Sys2Proof.Machine.execAnd n a s
  | .or n a => Sys2Proof.Machine.execOr n a s
  | .xor n a => Sys2Proof.Machine.execXor n a s
  | .sll n a => Sys2Proof.Machine.execSll n a s
  | .srl n a => Sys2Proof.Machine.execSrl n a s
  | .sra n a => Sys2Proof.Machine.execSra n a s
  | .slt n a => Sys2Proof.Machine.execSlt n a s
  | .sltu n a => Sys2Proof.Machine.execSltu n a s
  | .min n a => Sys2Proof.Machine.execMin n a s
  | .max n a => Sys2Proof.Machine.execMax n a s
  | .minu n a => Sys2Proof.Machine.execMinu n a s
  | .maxu n a => Sys2Proof.Machine.execMaxu n a s
  | .mul n a => Sys2Proof.Machine.execMul n a s
  | .mulh n a => Sys2Proof.Machine.execMulh n a s
  | .mulhu n a => Sys2Proof.Machine.execMulhu n a s
  | .div n a => Sys2Proof.Machine.execDiv n a s
  | .divu n a => Sys2Proof.Machine.execDivu n a s
  | .rem n a => Sys2Proof.Machine.execRem n a s
  | .remu n a => Sys2Proof.Machine.execRemu n a s
  | .addi n a => Sys2Proof.Machine.execAddi n a s
  | .andi n a => Sys2Proof.Machine.execAndi n a s
  | .ori n a => Sys2Proof.Machine.execOri n a s
  | .xori n a => Sys2Proof.Machine.execXori n a s
  | .slli n a => Sys2Proof.Machine.execSlli n a s
  | .srli n a => Sys2Proof.Machine.execSrli n a s
  | .srai n a => Sys2Proof.Machine.execSrai n a s
  | .slti n a => Sys2Proof.Machine.execSlti n a s
  | .sltiu n a => Sys2Proof.Machine.execSltiu n a s
  | .movw n a => Sys2Proof.Machine.execMovw n a s
  | .lb n a => Sys2Proof.Machine.execLb n a s
  | .lh n a => Sys2Proof.Machine.execLh n a s
  | .lw n a => Sys2Proof.Machine.execLw n a s
  | .ld n a => Sys2Proof.Machine.execLd n a s
  | .lbu n a => Sys2Proof.Machine.execLbu n a s
  | .lhu n a => Sys2Proof.Machine.execLhu n a s
  | .lwu n a => Sys2Proof.Machine.execLwu n a s
  | .sb n a => Sys2Proof.Machine.execSb n a s
  | .sh n a => Sys2Proof.Machine.execSh n a s
  | .sw n a => Sys2Proof.Machine.execSw n a s
  | .sd n a => Sys2Proof.Machine.execSd n a s
  | .atomicSwap n a => Sys2Proof.Machine.execAtomicSwap n a s
  | .atomicAdd n a => Sys2Proof.Machine.execAtomicAdd n a s
  | .atomicAnd n a => Sys2Proof.Machine.execAtomicAnd n a s
  | .atomicOr n a => Sys2Proof.Machine.execAtomicOr n a s
  | .atomicXor n a => Sys2Proof.Machine.execAtomicXor n a s
  | .atomicMin n a => Sys2Proof.Machine.execAtomicMin n a s
  | .atomicMax n a => Sys2Proof.Machine.execAtomicMax n a s
  | .atomicMinu n a => Sys2Proof.Machine.execAtomicMinu n a s
  | .atomicMaxu n a => Sys2Proof.Machine.execAtomicMaxu n a s
  | .atomicCas n a => Sys2Proof.Machine.execAtomicCas n a s
  | .branchEq n a => Sys2Proof.Machine.execBranchEq n a s
  | .branchNe n a => Sys2Proof.Machine.execBranchNe n a s
  | .branchLt n a => Sys2Proof.Machine.execBranchLt n a s
  | .branchGe n a => Sys2Proof.Machine.execBranchGe n a s
  | .branchLtu n a => Sys2Proof.Machine.execBranchLtu n a s
  | .branchGeu n a => Sys2Proof.Machine.execBranchGeu n a s
  | .jal n a => Sys2Proof.Machine.execJal n a s
  | .jalr n a => Sys2Proof.Machine.execJalr n a s
  | .prefetchR n a => Sys2Proof.Machine.execPrefetchR n a s
  | .prefetchW n a => Sys2Proof.Machine.execPrefetchW n a s
  | .zeroLine n a => Sys2Proof.Machine.execZeroLine n a s
  | .cleanLine n a => Sys2Proof.Machine.execCleanLine n a s
  | .lockPreload n a => Sys2Proof.Machine.execLockPreload n a s
  | .unlock n a => Sys2Proof.Machine.execUnlock n a s
  | .srr n a => Sys2Proof.Machine.execSrr n a s
  | .srw n a => Sys2Proof.Machine.execSrw n a s
  | .wayPowerChange n a => Sys2Proof.Machine.execWayPowerChange n a s
  | .cleanAll n a => Sys2Proof.Machine.execCleanAll n a s
  | .flushAll n a => Sys2Proof.Machine.execFlushAll n a s
  | .unlockAll n a => Sys2Proof.Machine.execUnlockAll n a s
  | .sld n a => Sys2Proof.Machine.execSld n a s
  | .sst n a => Sys2Proof.Machine.execSst n a s
  | .weave n a => Sys2Proof.Machine.execWeave n a s
  | .accLoad n a => Sys2Proof.Machine.execAccLoad n a s
  | .accStore n a => Sys2Proof.Machine.execAccStore n a s
  | .accZero n a => Sys2Proof.Machine.execAccZero n a s
  | .arrayOpStart n => Sys2Proof.Machine.execArrayOpStart n s
  | .arrayOpComplete n => Sys2Proof.Machine.execArrayOpComplete n s
  | .fetch n a => Sys2Proof.Machine.execFetch n a s
  | .put n a => Sys2Proof.Machine.execPut n a s
  | .send n a => Sys2Proof.Machine.execSend n a s
  | .tallyPoll n a => Sys2Proof.Machine.execTallyPoll n a s
  | .tallyClear n a => Sys2Proof.Machine.execTallyClear n a s
  | .transferStart n => Sys2Proof.Machine.execTransferStart n s
  | .transferRequestIssue n => Sys2Proof.Machine.execTransferRequestIssue n s
  | .nop n a => Sys2Proof.Machine.execNop n a s
  | .fenceSl n a => Sys2Proof.Machine.execFenceSl n a s
  | .fenceAll n a => Sys2Proof.Machine.execFenceAll n a s
  | .fenceIo n a => Sys2Proof.Machine.execFenceIo n a s
  | .fenceGlobal n a => Sys2Proof.Machine.execFenceGlobal n a s
  | .fenceComplete n => Sys2Proof.Machine.execFenceComplete n s
  | .brokenPathWaitExpiry n => Sys2Proof.Machine.execBrokenPathWaitExpiry n s
  | .tallyWait n a => Sys2Proof.Machine.execTallyWait n a s
  | .inboxWait n a => Sys2Proof.Machine.execInboxWait n a s
  | .barrier n a => Sys2Proof.Machine.execBarrier n a s
  | .halt n a => Sys2Proof.Machine.execHalt n a s
  | .loomProgramEnd n => Sys2Proof.Machine.execLoomProgramEnd n s
  | .launchLoomsStart q => Sys2Proof.Machine.execLaunchLoomsStart q s
  | .reedEnqueue n w => Sys2Proof.Machine.execReedEnqueue n w s
  | .vadd n => Sys2Proof.Machine.execVadd n s
  | .vsub n => Sys2Proof.Machine.execVsub n s
  | .vmul n => Sys2Proof.Machine.execVmul n s
  | .vfma n => Sys2Proof.Machine.execVfma n s
  | .vfms n => Sys2Proof.Machine.execVfms n s
  | .vfnma n => Sys2Proof.Machine.execVfnma n s
  | .vdiv n => Sys2Proof.Machine.execVdiv n s
  | .vsqrt n => Sys2Proof.Machine.execVsqrt n s
  | .vmin n => Sys2Proof.Machine.execVmin n s
  | .vmax n => Sys2Proof.Machine.execVmax n s
  | .vminu n => Sys2Proof.Machine.execVminu n s
  | .vmaxu n => Sys2Proof.Machine.execVmaxu n s
  | .vabs n => Sys2Proof.Machine.execVabs n s
  | .vneg n => Sys2Proof.Machine.execVneg n s
  | .vcopysign n => Sys2Proof.Machine.execVcopysign n s
  | .vand n => Sys2Proof.Machine.execVand n s
  | .vor n => Sys2Proof.Machine.execVor n s
  | .vxor n => Sys2Proof.Machine.execVxor n s
  | .vshl n => Sys2Proof.Machine.execVshl n s
  | .vshr n => Sys2Proof.Machine.execVshr n s
  | .vsra n => Sys2Proof.Machine.execVsra n s
  | .vcmpeq n => Sys2Proof.Machine.execVcmpeq n s
  | .vcmplt n => Sys2Proof.Machine.execVcmplt n s
  | .vcmple n => Sys2Proof.Machine.execVcmple n s
  | .vcmpun n => Sys2Proof.Machine.execVcmpun n s
  | .vcmpltu n => Sys2Proof.Machine.execVcmpltu n s
  | .vredsum n => Sys2Proof.Machine.execVredsum n s
  | .vredmax n => Sys2Proof.Machine.execVredmax n s
  | .vredmin n => Sys2Proof.Machine.execVredmin n s
  | .vredamax n => Sys2Proof.Machine.execVredamax n s
  | .vexp2 n => Sys2Proof.Machine.execVexp2 n s
  | .vexp n => Sys2Proof.Machine.execVexp n s
  | .vlog2 n => Sys2Proof.Machine.execVlog2 n s
  | .vlog n => Sys2Proof.Machine.execVlog n s
  | .vrsqrt n => Sys2Proof.Machine.execVrsqrt n s
  | .vrcp n => Sys2Proof.Machine.execVrcp n s
  | .vld n => Sys2Proof.Machine.execVld n s
  | .vst n => Sys2Proof.Machine.execVst n s
  | .vbcast n => Sys2Proof.Machine.execVbcast n s
  | .vext n => Sys2Proof.Machine.execVext n s
  | .vmov n => Sys2Proof.Machine.execVmov n s
  | .vperm n => Sys2Proof.Machine.execVperm n s
  | .vcvt n => Sys2Proof.Machine.execVcvt n s
  | .vcvti n => Sys2Proof.Machine.execVcvti n s
  | .vdqld n => Sys2Proof.Machine.execVdqld n s
  | .vqst n => Sys2Proof.Machine.execVqst n s
  | .drain n => Sys2Proof.Machine.execDrain n s
  | .storeBufferEntryLeave n => Sys2Proof.Machine.execStoreBufferEntryLeave n s
  | .readShared r => Sys2Proof.Machine.execReadShared r s
  | .readOwn r => Sys2Proof.Machine.execReadOwn r s
  | .upgrade r => Sys2Proof.Machine.execUpgrade r s
  | .ownNoData r => Sys2Proof.Machine.execOwnNoData r s
  | .writeBack r => Sys2Proof.Machine.execWriteBack r s
  | .writeClean r => Sys2Proof.Machine.execWriteClean r s
  | .cleanEvict r => Sys2Proof.Machine.execCleanEvict r s
  | .readOnce r => Sys2Proof.Machine.execReadOnce r s
  | .write r => Sys2Proof.Machine.execWrite r s
  | .atomic r => Sys2Proof.Machine.execAtomic r s
  | .reduceWrite r => Sys2Proof.Machine.execReduceWrite r s
  | .recallMsg m => Sys2Proof.Machine.execRecallMsg m s
  | .invalidate m => Sys2Proof.Machine.execInvalidate m s
  | .stash m => Sys2Proof.Machine.execStash m s
  | .data m => Sys2Proof.Machine.execData m s
  | .recallData m => Sys2Proof.Machine.execRecallData m s
  | .recallAck m => Sys2Proof.Machine.execRecallAck m s
  | .invAck m => Sys2Proof.Machine.execInvAck m s
  | .comp m => Sys2Proof.Machine.execComp m s
  | .compAck m => Sys2Proof.Machine.execCompAck m s
  | .retry m => Sys2Proof.Machine.execRetry m s
  | .credit m => Sys2Proof.Machine.execCredit m s
  | .stashAck m => Sys2Proof.Machine.execStashAck m s
  | .lineBusyReissue a line => Sys2Proof.Machine.execLineBusyReissue a line s
  | .homeTimeoutExpiry line id => Sys2Proof.Machine.execHomeTimeoutExpiry line id s
  | .catalogueSweepComplete h => Sys2Proof.Machine.execCatalogueSweepComplete h s
  | .parityRetry x ok => Sys2Proof.Machine.execParityRetry x ok s
  | .refreshRateChange depot k temp => Sys2Proof.Machine.execRefreshRateChange depot k temp s
  | .patrolRead depot a => Sys2Proof.Machine.execPatrolRead depot a s
  | .meminjArm h v => Sys2Proof.Machine.execMeminjArm h v s
  | .tierCounterHalving => Sys2Proof.Machine.execTierCounterHalving s
  | .rotationRoundEnd k => Sys2Proof.Machine.execRotationRoundEnd k s
  | .rotationSwitch k => Sys2Proof.Machine.execRotationSwitch k s
  | .retirementSwitch m => Sys2Proof.Machine.execRetirementSwitch m s
  | .runStart r => Sys2Proof.Machine.execRunStart r s
  | .listEnd r => Sys2Proof.Machine.execListEnd r s
  | .zero r => Sys2Proof.Machine.execZero r s
  | .snapshot r => Sys2Proof.Machine.execSnapshot r s
  | .scale r => Sys2Proof.Machine.execScale r s
  | .axpy r => Sys2Proof.Machine.execAxpy r s
  | .norm2 r => Sys2Proof.Machine.execNorm2 r s
  | .clipApply r => Sys2Proof.Machine.execClipApply r s
  | .sgdMomentum r => Sys2Proof.Machine.execSgdMomentum r s
  | .lion r => Sys2Proof.Machine.execLion r s
  | .adam r => Sys2Proof.Machine.execAdam r s
  | .requant r => Sys2Proof.Machine.execRequant r s
  | .runEnd r => Sys2Proof.Machine.execRunEnd r s
  | .runAbortStop r => Sys2Proof.Machine.execRunAbortStop r s
  | .pageWalk e => Sys2Proof.Machine.execPageWalk e s
  | .faultResume h v => Sys2Proof.Machine.execFaultResume h v s
  | .translationFaultTimeout e => Sys2Proof.Machine.execTranslationFaultTimeout e s
  | .invalidationStart h v => Sys2Proof.Machine.execInvalidationStart h v s
  | .invalidationComplete w => Sys2Proof.Machine.execInvalidationComplete w s
  | .transRootWrite h v => Sys2Proof.Machine.execTransRootWrite h v s
  | .fqBaseWrite h v => Sys2Proof.Machine.execFqBaseWrite h v s
  | .fqConsWrite h v => Sys2Proof.Machine.execFqConsWrite h v s
  | .atsTranslationCompletion h iova ok target size mayWrite => Sys2Proof.Machine.execAtsTranslationCompletion h iova ok target size mayWrite s
  | .atsInvalidationRequest h iova size itag => Sys2Proof.Machine.execAtsInvalidationRequest h iova size itag s
  | .doorbell h q v => Sys2Proof.Machine.execDoorbell h q v s
  | .queueSchedule x => Sys2Proof.Machine.execQueueSchedule x s
  | .fetchSlot q => Sys2Proof.Machine.execFetchSlot q s
  | .slotRefetch q => Sys2Proof.Machine.execSlotRefetch q s
  | .courierNop q => Sys2Proof.Machine.execCourierNop q s
  | .copy q => Sys2Proof.Machine.execCopy q s
  | .writeInline q => Sys2Proof.Machine.execWriteInline q s
  | .fill q => Sys2Proof.Machine.execFill q s
  | .flagWrite q => Sys2Proof.Machine.execFlagWrite q s
  | .reduceForward q => Sys2Proof.Machine.execReduceForward q s
  | .launch q => Sys2Proof.Machine.execLaunch q s
  | .runRegion q => Sys2Proof.Machine.execRunRegion q s
  | .descriptorComplete q => Sys2Proof.Machine.execDescriptorComplete q s
  | .completionWaitExpiry q => Sys2Proof.Machine.execCompletionWaitExpiry q s
  | .queueEnable h q v => Sys2Proof.Machine.execQueueEnable h q v s
  | .queueDisable h q v => Sys2Proof.Machine.execQueueDisable h q v s
  | .cqHeadWrite h q v => Sys2Proof.Machine.execCqHeadWrite h q v s
  | .headResetClear h q => Sys2Proof.Machine.execHeadResetClear h q s
  | .windowBaseWrite h v => Sys2Proof.Machine.execWindowBaseWrite h v s
  | .bar2Read h tag off len => Sys2Proof.Machine.execBar2Read h tag off len s
  | .bar2Write h tag poison off len data => Sys2Proof.Machine.execBar2Write h tag poison off len data s
  | .configRead h o => Sys2Proof.Machine.execConfigRead h o s
  | .configWrite h o be v => Sys2Proof.Machine.execConfigWrite h o be v s
  | .expansionRomRead h o len => Sys2Proof.Machine.execExpansionRomRead h o len s
  | .memRd h tag hpa snp => Sys2Proof.Machine.execMemRd h tag hpa snp s
  | .memWr h tag hpa mask data poison => Sys2Proof.Machine.execMemWr h tag hpa mask data poison s
  | .memClnEvct h tag hpa => Sys2Proof.Machine.execMemClnEvct h tag hpa s
  | .biRsp h line sect shared => Sys2Proof.Machine.execBiRsp h line sect shared s
  | .go h tag => Sys2Proof.Machine.execGo h tag s
  | .rdCurrData h tag data poison => Sys2Proof.Machine.execRdCurrData h tag data poison s
  | .busMasterEnableClear h => Sys2Proof.Machine.execBusMasterEnableClear h s
  | .busMasterEnableSet h => Sys2Proof.Machine.execBusMasterEnableSet h s
  | .bmeTimeout h => Sys2Proof.Machine.execBmeTimeout h s
  | .interruptUnmask h v => Sys2Proof.Machine.execInterruptUnmask h v s
  | .intxPendingClear h mask => Sys2Proof.Machine.execIntxPendingClear h mask s
  | .flr h => Sys2Proof.Machine.execFlr h s
  | .flrComplete h => Sys2Proof.Machine.execFlrComplete h s
  | .perstN k => Sys2Proof.Machine.execPerstN k s
  | .hotReset h => Sys2Proof.Machine.execHotReset h s
  | .linkDown h => Sys2Proof.Machine.execLinkDown h s
  | .headLinkUp h cxl width speed => Sys2Proof.Machine.execHeadLinkUp h cxl width speed s
  | .freeze h => Sys2Proof.Machine.execFreeze h s
  | .release h => Sys2Proof.Machine.execRelease h s
  | .flitReceive q raw crc bulk ctl => Sys2Proof.Machine.execFlitReceive q raw crc bulk ctl s
  | .replayTimerExpiry q => Sys2Proof.Machine.execReplayTimerExpiry q s
  | .laneBad q lane => Sys2Proof.Machine.execLaneBad q lane s
  | .widthChangeComplete q => Sys2Proof.Machine.execWidthChangeComplete q s
  | .creditTimeout q => Sys2Proof.Machine.execCreditTimeout q s
  | .txnTimeout q => Sys2Proof.Machine.execTxnTimeout q s
  | .linkTrainingComplete q t => Sys2Proof.Machine.execLinkTrainingComplete q t s
  | .trainingRetry q => Sys2Proof.Machine.execTrainingRetry q s
  | .autoRetrain q => Sys2Proof.Machine.execAutoRetrain q s
  | .rd q m => Sys2Proof.Machine.execRd q m s
  | .atom q m => Sys2Proof.Machine.execAtom q m s
  | .wr q m => Sys2Proof.Machine.execWr q m s
  | .wrm q m => Sys2Proof.Machine.execWrm q m s
  | .cmp q m => Sys2Proof.Machine.execCmp q m s
  | .rdata q m => Sys2Proof.Machine.execRdata q m s
  | .atomdata q m => Sys2Proof.Machine.execAtomdata q m s
  | .jgLimit q m => Sys2Proof.Machine.execJgLimit q m s
  | .jgCommit q m => Sys2Proof.Machine.execJgCommit q m s
  | .jgAck q m => Sys2Proof.Machine.execJgAck q m s
  | .jgSwitch => Sys2Proof.Machine.execJgSwitch s
  | .jgRepeatTimer => Sys2Proof.Machine.execJgRepeatTimer s
  | .jgLockLoss => Sys2Proof.Machine.execJgLockLoss s
  | .mailboxDoorbell box op data => Sys2Proof.Machine.execMailboxDoorbell box op data s
  | .identify => Sys2Proof.Machine.execIdentify s
  | .backgroundOperationStatus => Sys2Proof.Machine.execBackgroundOperationStatus s
  | .getResponseMessageLimit => Sys2Proof.Machine.execGetResponseMessageLimit s
  | .setResponseMessageLimit => Sys2Proof.Machine.execSetResponseMessageLimit s
  | .requestAbortBackgroundOperation => Sys2Proof.Machine.execRequestAbortBackgroundOperation s
  | .getEventRecords => Sys2Proof.Machine.execGetEventRecords s
  | .clearEventRecords => Sys2Proof.Machine.execClearEventRecords s
  | .getEventInterruptPolicy => Sys2Proof.Machine.execGetEventInterruptPolicy s
  | .setEventInterruptPolicy => Sys2Proof.Machine.execSetEventInterruptPolicy s
  | .getFwInfo => Sys2Proof.Machine.execGetFwInfo s
  | .transferFw => Sys2Proof.Machine.execTransferFw s
  | .activateFw verified selfCheck version => Sys2Proof.Machine.execActivateFw verified selfCheck version s
  | .getTimestamp => Sys2Proof.Machine.execGetTimestamp s
  | .setTimestamp => Sys2Proof.Machine.execSetTimestamp s
  | .getSupportedLogs => Sys2Proof.Machine.execGetSupportedLogs s
  | .getLog => Sys2Proof.Machine.execGetLog s
  | .identifyMemoryDevice => Sys2Proof.Machine.execIdentifyMemoryDevice s
  | .getHealthInfo => Sys2Proof.Machine.execGetHealthInfo s
  | .getAlertConfiguration => Sys2Proof.Machine.execGetAlertConfiguration s
  | .setAlertConfiguration => Sys2Proof.Machine.execSetAlertConfiguration s
  | .getDcConfiguration => Sys2Proof.Machine.execGetDcConfiguration s
  | .getDcExtentList => Sys2Proof.Machine.execGetDcExtentList s
  | .addDcResponse => Sys2Proof.Machine.execAddDcResponse s
  | .releaseDc => Sys2Proof.Machine.execReleaseDc s
  | .getMultiHeadedInfo => Sys2Proof.Machine.execGetMultiHeadedInfo s
  | .getHeadInfo => Sys2Proof.Machine.execGetHeadInfo s
  | .getDcdInfo => Sys2Proof.Machine.execGetDcdInfo s
  | .getHostDcRegionConfiguration => Sys2Proof.Machine.execGetHostDcRegionConfiguration s
  | .setDcRegionConfiguration => Sys2Proof.Machine.execSetDcRegionConfiguration s
  | .getDcRegionExtentLists => Sys2Proof.Machine.execGetDcRegionExtentLists s
  | .initiateDcAdd => Sys2Proof.Machine.execInitiateDcAdd s
  | .initiateDcRelease => Sys2Proof.Machine.execInitiateDcRelease s
  | .wingCreate => Sys2Proof.Machine.execWingCreate s
  | .wingGrantLooms => Sys2Proof.Machine.execWingGrantLooms s
  | .wingGrantExtents => Sys2Proof.Machine.execWingGrantExtents s
  | .extentZeroFillComplete w => Sys2Proof.Machine.execExtentZeroFillComplete w s
  | .wingGrantRegionRange => Sys2Proof.Machine.execWingGrantRegionRange s
  | .wingGrantAtriumWays => Sys2Proof.Machine.execWingGrantAtriumWays s
  | .wingGrantWindowBits => Sys2Proof.Machine.execWingGrantWindowBits s
  | .loomReturn => Sys2Proof.Machine.execLoomReturn s
  | .wingRelease => Sys2Proof.Machine.execWingRelease s
  | .wingReleaseComplete w => Sys2Proof.Machine.execWingReleaseComplete w s
  | .wingPreserve => Sys2Proof.Machine.execWingPreserve s
  | .wingResume => Sys2Proof.Machine.execWingResume s
  | .wingQuery => Sys2Proof.Machine.execWingQuery s
  | .stateDescriptor => Sys2Proof.Machine.execStateDescriptor s
  | .headBind => Sys2Proof.Machine.execHeadBind s
  | .queueBind => Sys2Proof.Machine.execQueueBind s
  | .keyLoad => Sys2Proof.Machine.execKeyLoad s
  | .windowSet => Sys2Proof.Machine.execWindowSet s
  | .loomFence => Sys2Proof.Machine.execLoomFence s
  | .loomAdmit => Sys2Proof.Machine.execLoomAdmit s
  | .stripeLimit => Sys2Proof.Machine.execStripeLimit s
  | .locationRead => Sys2Proof.Machine.execLocationRead s
  | .tierStats => Sys2Proof.Machine.execTierStats s
  | .rotate => Sys2Proof.Machine.execRotate s
  | .rotateAbort => Sys2Proof.Machine.execRotateAbort s
  | .atriumPin => Sys2Proof.Machine.execAtriumPin s
  | .atriumUnpin => Sys2Proof.Machine.execAtriumUnpin s
  | .stackEvacuate => Sys2Proof.Machine.execStackEvacuate s
  | .channelEvacuate => Sys2Proof.Machine.execChannelEvacuate s
  | .channelOffline => Sys2Proof.Machine.execChannelOffline s
  | .channelRetrain popOk t => Sys2Proof.Machine.execChannelRetrain popOk t s
  | .retireFrame => Sys2Proof.Machine.execRetireFrame s
  | .retireBank => Sys2Proof.Machine.execRetireBank s
  | .margin res => Sys2Proof.Machine.execMargin res s
  | .regionEnable => Sys2Proof.Machine.execRegionEnable s
  | .regionDisable => Sys2Proof.Machine.execRegionDisable s
  | .regionRun => Sys2Proof.Machine.execRegionRun s
  | .regionReopen => Sys2Proof.Machine.execRegionReopen s
  | .regionRerun => Sys2Proof.Machine.execRegionRerun s
  | .regionAbort => Sys2Proof.Machine.execRegionAbort s
  | .portConfig => Sys2Proof.Machine.execPortConfig s
  | .portMap => Sys2Proof.Machine.execPortMap s
  | .ikqRetrain pass => Sys2Proof.Machine.execIkqRetrain pass s
  | .ikqPortDisable => Sys2Proof.Machine.execIkqPortDisable s
  | .vfRecalibrate raises => Sys2Proof.Machine.execVfRecalibrate raises s
  | .health => Sys2Proof.Machine.execHealth s
  | .ucodeReload => Sys2Proof.Machine.execUcodeReload s
  | .ucodeLoad ok => Sys2Proof.Machine.execUcodeLoad ok s
  | .warmReset => Sys2Proof.Machine.execWarmReset s
  | .provenanceRead => Sys2Proof.Machine.execProvenanceRead s
  | .registrarStartUp x => Sys2Proof.Machine.execRegistrarStartUp x s
  | .heartbeat => Sys2Proof.Machine.execHeartbeat s
  | .heartbeatLost => Sys2Proof.Machine.execHeartbeatLost s
  | .arbiterPeriod x => Sys2Proof.Machine.execArbiterPeriod x s
  | .slowLoop x => Sys2Proof.Machine.execSlowLoop x s
  | .calibration est meas => Sys2Proof.Machine.execCalibration est meas s
  | .railSettled die => Sys2Proof.Machine.execRailSettled die s
  | .sensorSample raw => Sys2Proof.Machine.execSensorSample raw s
  | .thermalTrip => Sys2Proof.Machine.execThermalTrip s
  | .throttleIn on => Sys2Proof.Machine.execThrottleIn on s
  | .rrlAlert => Sys2Proof.Machine.execRrlAlert s
  | .selvCapWrite h v => Sys2Proof.Machine.execSelvCapWrite h v s
  | .tileWake t => Sys2Proof.Machine.execTileWake t s
  | .tileWakeComplete t => Sys2Proof.Machine.execTileWakeComplete t s
  | .tileGate t => Sys2Proof.Machine.execTileGate t s
  | .tilePllOff t => Sys2Proof.Machine.execTilePllOff t s
  | .ledgerEvent x => Sys2Proof.Machine.execLedgerEvent s x
  | .railFault n => Sys2Proof.Machine.execRailFault n s
  | .force h n v => Sys2Proof.Machine.execForce h n v s
  | .openClear h n v => Sys2Proof.Machine.execOpenClear h n v s
  | .escalatedClear h n v => Sys2Proof.Machine.execEscalatedClear h n v s
  | .firstValidClear h => Sys2Proof.Machine.execFirstValidClear h s
  | .overflowClear h => Sys2Proof.Machine.execOverflowClear h s
  | .ledgerRelease h seq => Sys2Proof.Machine.execLedgerRelease h seq s
  | .aliveToggle => Sys2Proof.Machine.execAliveToggle s
  | .faultNHoldExpiry => Sys2Proof.Machine.execFaultNHoldExpiry s
  | .faultNibbleFrame => Sys2Proof.Machine.execFaultNibbleFrame s
  | .mirrorStale x => Sys2Proof.Machine.execMirrorStale x s
  | .periodicCommit => Sys2Proof.Machine.execPeriodicCommit s
  | .responderStatusRead input => Sys2Proof.Machine.execResponderStatusRead input s
  | .responderOverflowRead input => Sys2Proof.Machine.execResponderOverflowRead input s
  | .responderRecordRead input => Sys2Proof.Machine.execResponderRecordRead input s
  | .responderSourceRead input => Sys2Proof.Machine.execResponderSourceRead input s
  | .pwrOkRise => Sys2Proof.Machine.execPwrOkRise s
  | .rstNAssert => Sys2Proof.Machine.execRstNAssert s
  | .rstNRise => Sys2Proof.Machine.execRstNRise s
  | .strapLatch straps => Sys2Proof.Machine.execStrapLatch straps s
  | .pwrfailNFall => Sys2Proof.Machine.execPwrfailNFall s
  | .pwrfailNRise => Sys2Proof.Machine.execPwrfailNRise s
  | .aonClkLoss => Sys2Proof.Machine.execAonClkLoss s
  | .aonPowerLoss => Sys2Proof.Machine.execAonPowerLoss s
  | .refclkLoss x => Sys2Proof.Machine.execRefclkLoss x s
  | .lockLimitSend => Sys2Proof.Machine.execLockLimitSend s
  | .lockLimitFrame f stop => Sys2Proof.Machine.execLockLimitFrame f stop s
  | .lockCommitFrame f stop => Sys2Proof.Machine.execLockCommitFrame f stop s
  | .lockRingTimeout => Sys2Proof.Machine.execLockRingTimeout s
  | .perstNRise k => Sys2Proof.Machine.execPerstNRise k s
  | .completionTimeout h iova => Sys2Proof.Machine.execCompletionTimeout h iova s
  | .laneLockLoss q => Sys2Proof.Machine.execLaneLockLoss q s
  | .aonClkReturn => Sys2Proof.Machine.execAonClkReturn s
  | .hostSnoop h => Sys2Proof.Machine.execHostSnoop h s

end Sys2Proof.Machine
end

