-- ==== Sys2Proof/Safety.lean ====
section
/-! DEFINITION. What a safe run is, in the terms the statements use: steps that end in a next state, and states whose
status registers say what the device holds. -/

namespace Sys2Proof.Machine

/-- A step that answers a next state. -/
def Goes (s : State) : Prop := ∃ t, step s = .next t

/-- Fields that only show the rest of the state. -/
def shownFields : List Nat :=
  [Fld.QUEUE_STATUS_ACTIVE.id, Fld.QUEUE_STATUS_RUNNING.id, Fld.QUEUE_STATUS_FAULT_STALL.id, Fld.QUEUE_STATUS_BME_PAUSED.id,
   Fld.CONS_BUSY_BUSY.id, Fld.CONS_STATE_RUNNING.id, Fld.CONS_STATE_WAITING.id, Fld.LEDGER_STATUS_OPEN_COUNT.id,
   Fld.LEDGER_STATUS_COMMIT_READY.id]

/-- The next state is the device `d`, with the fields that show its state brought up to date. -/
def State.showing (s : State) (d : Dev) : Out := .next { s with dev := d.show }

/-- The next state is the device `d` after what has become due by it, with the fields that show its state up to date. -/
def State.settling (s : State) (d : Dev) : Out := .next { s with dev := d.pumps.show }

/-- The treadle of loom n issues the instruction of k bytes at its pc: the device answers, the loom is RUNNING, waits for nothing and is
not asked to stop, and the instruction's lines are in its instruction cache (R84, R117, R154). -/
def State.Issues (s : State) (n : LoomId) (k : Nat) : Prop :=
  s.dev.live = true ∧ s.dev.ready n = true ∧ (s.dev.loom n).fetched k = true

/-- The words at the pc of loom n spell instruction i (R86, R87). -/
def State.Spells (s : State) (n : LoomId) (i : Instr) : Prop := treadleInstr n (s.dev.loom n).code = some i.spelled

/-- Loom n becomes `l` and its pc moves past an instruction of k bytes. -/
def Dev.retires (d : Dev) (n : LoomId) (k : Nat) (l : Loom) : Dev :=
  d.setLoom n { l with pc := (d.loom n).pc + BitVec.ofNat 56 k }

/-- An access of loom n's treadle translates in its TLB to the target x and is allowed (R281, Table 11-3). -/
def Dev.Reaches (d : Dev) (n : LoomId) (va : W64) (k : AccKind) (t : Tlb) (x : Nat) : Prop :=
  d.translate (.treadle n) (d.wingOf n) va k = (.ok t x, d)

/-- The data cache of a loom holds a line under a key (set × 8 + way). -/
def Loom.Holds (l : Loom) (line : BitVec 40) (key : Nat) (c : CLine) : Prop :=
  l.findLine line = some (key, c) ∧ Fmap.get { line := 0 } l.cache key = c

/-- What a row of the reed answers: the head of its queue leaves, vd takes its value and the flags rise. -/
def Dev.reedTakes (d : Dev) (n : LoomId) (rest : List ReedOp) (v : Nat) (x : BitVec 512) (f : FFlags) : Dev :=
  (d.setLoom n ({ d.loom n with reedQ := rest }.setVreg v x)).reedFlags n f

/-- The home of a line can take a request now with a general tracker: the page is not HELD, the line is open, a tracker is
free, and the request holds no credit and is not AGED (R175 to R177). -/
def Dev.Room (d : Dev) (r : Req) : Prop :=
  d.pageHeld r.line.toNat = false ∧ d.lineTaken r.line.toNat = false ∧ r.aged = false ∧ r.credit = false ∧
  d.trackers (d.home (256 * r.line.toNat)) false < 960

/-- A request for populated memory reaches its home, which can take it (R170, R172, R175). -/
def Dev.Accepts (d : Dev) (r : Req) : Prop :=
  d.range (256 * r.line.toNat) = .memory ∧ d.reqArrives r = true ∧ d.Room r

/-- The device in which a home has taken a request and opened its transaction (R175). -/
def Dev.opened (d : Dev) (r : Req) (reserved : Bool) : Dev :=
  (d.takeReq r).setTxn r.line.toNat { req := r, phase := .snoop, todo := r.sects, reserved := reserved }

/-- What a home does when it has handled a request or an answer for a line: it serves what waits there, and snoops to ABSENT
heads end (R175, R176, R193). -/
def Dev.serves (d : Dev) (line : Nat) : Dev := (d.releaseLine line).settleAbsent

/-- Region r runs in a slot and is in entry e, whose operation is `op`; the run is not told to stop (R255, R258). -/
def State.InEntry (s : State) (r : BitVec 12) (op slot : Nat) (x : Run) (e : Entry) : Prop :=
  s.dev.live = true ∧ s.dev.runOf r.toNat = some (slot, x) ∧ x.entries[x.idx]? = some e ∧ x.ended = false ∧ x.stop = none ∧
  e.op = op

/-- A chunk of m elements of an entry can be run now: the lines it touches are open and no host holds a copy in the way (R175,
R242). -/
def Dev.chunkReady (d : Dev) (slot : Nat) (x : Run) (e : Entry) (m : Nat) : Bool :=
  d.spansReady (runWork slot) (x.reads e m) (x.writes e m (d.entryAddr x.region x.idx))

/-- A chunk of m elements of an entry can run now and is not the entry's last (R258). -/
def Dev.MidChunk (d : Dev) (slot : Nat) (x : Run) (e : Entry) (m total : Nat) : Prop :=
  m = min 1024 (total - x.pos) ∧ x.pos + m < total ∧ d.chunkReady slot x e m = true

/-- Operand k of one element of a chunk: its value as FP32 with the STATUS bits it raises, and whether it is poisoned. -/
def colAt (col : List (Cv × Bool) × Dev) (i : Nat) : Cv × Bool := col.1.getD i ((0, 0), false)

/-- Head h may write instance i of a register of block b now: it is there for its host, its BARs answer, no freeze hides the block
and the head reaches it (R8, R327, R339). -/
def Dev.Writes (d : Dev) (h : HeadId) (b : Block) (i : Nat) : Prop :=
  d.served h = true ∧ d.barsOn h = true ∧ (d.frozen h = false ∨ b.inFreeze = true) ∧ d.reach h b i = true

/-- Descriptor x of operation `op` is in progress at queue q: it runs, is not stalled or told to stop, its FENCE is met and the
completion ring is not full (R299, R304, R316). -/
def State.Runs (s : State) (q op : Nat) (x : Desc) : Prop :=
  s.dev.live = true ∧ (s.dev.queue q).cur = some x ∧ x.op = op ∧ x.stalled = false ∧ x.phase = .run ∧ x.abort = false ∧
  (x.fence = true → (s.dev.queue q).fenced x = true) ∧ s.dev.fld Fld.QUEUE_STATUS_CQ_FULL q = 0

/-- A courier performs descriptor x of operation `op` at queue q: it has been checked, part of its extent is still to be issued,
and its courier is one of its direction (R298, R304, R305). -/
def State.Performs (s : State) (q op : Nat) (x : Desc) : Prop :=
  s.Runs q op x ∧ x.begun = true ∧ (1 ≤ op ∧ op ≤ 5 → x.pos < x.len) ∧
  (x.pos ≠ 0 ∨ s.dev.descOutbound q x = some (outbound x.courier))

/-- A descriptor address plus an offset resolves to a target in this package's memory, without a translation pending. -/
def Dev.Lands (d : Dev) (q : Nat) (x : Desc) (a : Nat) (write : Bool) (t : Nat) (red : Bool) : Prop :=
  d.resolve12 q x.courier a x.pos write = (.ok .device t red false, d)

/-- The vendor command `c` of opcode `op` is the registrar's front command and passes every check: its length, its context, its
unused bytes, no unreleased FATAL, and room for a background command (R394 to R399). -/
def State.Serves (s : State) (c : MbCmd) (op len : Nat) (fields : List (Nat × Nat)) (right : Right) : Prop :=
  s.dev.live = true ∧ s.dev.mbFront op = some c ∧ c.data.length = len ∧ s.dev.reg.safe = false ∧ s.dev.allowed c right = true ∧
  c.clean fields = true ∧ s.dev.fatal = false ∧ s.dev.bgFull c = false

/-- The registrar ends command c with a RESULT and an output, in the device e. -/
def State.ends (s : State) (c : MbCmd) (r : Nat) (out : List Byte) (e : Dev) : Out := s.settling (e.mbReply c (retOf r) r out)

/-- The device e in which command c has started in the background on an object. -/
def Dev.begun (e : Dev) (c : MbCmd) (obj : Nat) : Dev :=
  ({ e with reg := { e.reg with bg := e.reg.bg ++ [⟨c.place, c.op, obj⟩] } } : Dev).mbReply c retBg rOk []

/-- Commands of pins, the selvage and the ledger, which do not need the fast logic (R20, R434). -/
def alwaysOn : Instr → Bool
  | .perstN _ | .jgSwitch | .jgLockLoss | .lockLimitSend | .lockLimitFrame _ _ | .lockCommitFrame _ _ | .lockRingTimeout => true
  | .heartbeat | .heartbeatLost | .arbiterPeriod _ | .slowLoop _ | .calibration _ _ | .railSettled _ | .sensorSample _ => true
  | .thermalTrip | .throttleIn _ | .rrlAlert | .tileWake _ | .tileWakeComplete _ | .tileGate _ | .tilePllOff _ => true
  | .ledgerEvent _ | .railFault _ | .aliveToggle | .faultNHoldExpiry | .faultNibbleFrame | .mirrorStale _ | .periodicCommit => true
  | .responderStatusRead _ | .responderOverflowRead _ | .responderRecordRead _ | .responderSourceRead _ => true
  | .pwrOkRise | .rstNAssert | .rstNRise | .strapLatch _ | .pwrfailNFall | .pwrfailNRise | .aonClkLoss | .aonPowerLoss => true
  | .refclkLoss _ | .perstNRise _ | .aonClkReturn => true
  | _ => false

/-- Open records of the ledger's ring. -/
def Dev.openRecords (d : Dev) : Nat := (d.ledger.ring.filter (fun r => r.2.isOpen)).length

/-- Some open record has a class at or above LEDGER_CTRL.PIN_CLASS (R451). -/
def Dev.pinFault (d : Dev) : Bool :=
  d.ledger.ring.any (fun r => r.2.isOpen && d.fld Fld.LEDGER_CTRL_PIN_CLASS 0 ≤ r.2.cls)

/-- CONS_STATE and CONS_BUSY say which regions run and wait and which engines work; LEDGER_STATUS.OPEN_COUNT counts the
open records; in the run phase FAULT_N says whether one reaches PIN_CLASS. -/
def Dev.Shown (d : Dev) : Prop :=
  d.fld Fld.CONS_STATE_RUNNING 0 = d.runs.length % 2 ^ 8 ∧
  d.fld Fld.CONS_STATE_WAITING 0 = d.runQ.length % 2 ^ 13 ∧
  d.fld Fld.CONS_BUSY_BUSY 0 = d.busyEngines % 2 ^ 64 ∧
  d.fld Fld.LEDGER_STATUS_OPEN_COUNT 0 = d.openRecords % 2 ^ 11 ∧
  (d.pins.phase = .run → d.pins.fault = d.pinFault)

end Sys2Proof.Machine
end

