-- ==== Sys2Proof/Certificates/Slice0/Obligations.lean ====
section
/-! DEFINITION. The statements for the provers.  A command's statement says which next state it answers: `s.showing d` is the
state with the device `d`, `s.settling d` the same after what becomes due by `d`; `d` is the old device with the updates that
the rules give, so everything that it does not name is unchanged. -/

open Sys2Proof Sys2Proof.Machine

/-! ### The machine as a whole -/

/-- A step takes the command at the front of the queue and runs it with the queue's rest. -/
def Obligations.StepRunsFrontCommand : Prop :=
  ∀ (s : State) (c : Instr) (rest : List Instr), step { s with pending := c :: rest } = exec c { s with pending := rest }

/-- On an empty queue the block idles for a microsecond (the model's choice, notes/assumptions/3.md): with always-on power and
clock the AON tick counts one (R21), and the queue stays empty. -/
def Obligations.EmptyQueueTicks : Prop :=
  ∀ s : State, s.pending = [] → ∃ t, step s = .next t ∧ t.pending = [] ∧ t.dev.looms = s.dev.looms ∧
    t.dev.tiers = s.dev.tiers ∧ t.dev.weave = s.dev.weave ∧
    t.dev.tick = s.dev.tick + (if s.dev.pins.aonPower && s.dev.pins.aonClk then 1 else 0)

/-- Every command answers a next state and leaves the queue alone. -/
def Obligations.EveryCommandGoes : Prop :=
  ∀ (c : Instr) (s : State), ∃ t, exec c s = .next t ∧ t.pending = s.pending

/-- The status display changes only the fields that show the state, and FAULT_N. -/
def Obligations.DisplayChangesStatusOnly : Prop :=
  ∀ d : Dev, (∃ r f, d.show = { d with regs := r, pins := { d.pins with fault := f } }) ∧
    ∀ f n, f.id ∉ shownFields → d.show.fld f n = d.fld f n

/-- Every step keeps CONS_STATE, CONS_BUSY, OPEN_COUNT and FAULT_N equal to what they show. -/
def Obligations.StepKeepsShown : Prop :=
  ∀ s t : State, s.dev.Shown → step s = .next t → t.dev.Shown

/-- The state after reset shows what it holds. -/
def Obligations.ResetShown : Prop := State.reset.dev.Shown

/-! ### Treadle instructions -/

/-- Class 0x0 (Table 4-4): the result goes to rd, the pc moves 4 bytes, and nothing else changes.  A write to t0 is discarded
(`Loom.setReg`).
Class 0x1: the 14-bit immediate is sign-extended. -/
def Obligations.OperationResults : Prop :=
  (∀ (s : State) (n : LoomId) (a : RArgs), s.Issues n 4 → a.rsvd = 0 →
    let l := s.dev.loom n
    let x := l.reg a.rs1
    let y := l.reg a.rs2
    let res (v : W64) : Out := s.showing (s.dev.retires n 4 (l.setReg a.rd v))
    ∀ p ∈ ([(.add n a, res (x + y)), (.sub n a, res (x - y)), (.and n a, res (x &&& y)), (.or n a, res (x ||| y)),
        (.xor n a, res (x ^^^ y)), (.sll n a, res (x <<< (y.toNat % 64))), (.srl n a, res (x >>> (y.toNat % 64))),
        (.sra n a, res (x.sshiftRight (y.toNat % 64))), (.slt n a, res (if x.toInt < y.toInt then 1 else 0)),
        (.sltu n a, res (if x.toNat < y.toNat then 1 else 0)), (.min n a, res (BitVec.ofInt 64 (min x.toInt y.toInt))),
        (.max n a, res (BitVec.ofInt 64 (max x.toInt y.toInt))), (.minu n a, res (BitVec.ofNat 64 (min x.toNat y.toNat))),
        (.maxu n a, res (BitVec.ofNat 64 (max x.toNat y.toNat))), (.mul n a, res (BitVec.ofInt 64 (x.toInt * y.toInt))),
        (.mulh n a, res (BitVec.ofInt 64 (x.toInt * y.toInt / 2 ^ 64))),
        (.mulhu n a, res (BitVec.ofNat 64 (x.toNat * y.toNat / 2 ^ 64))),
        (.div n a, res (if y = 0 then BitVec.allOnes 64 else x.sdiv y)),
        (.divu n a, res (if y = 0 then BitVec.allOnes 64 else x / y)), (.rem n a, res (if y = 0 then x else x.srem y)),
        (.remu n a, res (if y = 0 then x else x % y))] : List (Instr × Out)), s.Spells n p.1 → exec p.1 s = p.2) ∧
  (∀ (s : State) (n : LoomId) (a : IArgs), s.Issues n 4 →
    let l := s.dev.loom n
    let x := l.reg a.rs1
    let y : W64 := BitVec.ofInt 64 a.imm.toInt
    let res (v : W64) : Out := s.showing (s.dev.retires n 4 (l.setReg a.rd v))
    ∀ p ∈ ([(.addi n a, res (x + y)), (.andi n a, res (x &&& y)), (.ori n a, res (x ||| y)), (.xori n a, res (x ^^^ y)),
        (.slli n a, res (x <<< (y.toNat % 64))), (.srli n a, res (x >>> (y.toNat % 64))),
        (.srai n a, res (x.sshiftRight (y.toNat % 64))), (.slti n a, res (if x.toInt < y.toInt then 1 else 0)),
        (.sltiu n a, res (if x.toNat < y.toNat then 1 else 0))] : List (Instr × Out)), s.Spells n p.1 → exec p.1 s = p.2)

/-- MOVW replaces a halfword of rd, or the whole of it; NOP only moves the pc; JAL and JALR jump and link; a conditional branch
goes to pc + 4 × imm15 exactly when its condition holds (Table 4-4).
An instruction with a reserved bit set stops its treadle: ERROR_CODE is ILLEGAL_INSTRUCTION, TREADLE_PC is its address, and
it changes no treadle register (R87, R117). -/
def Obligations.MoveAndControlFlow : Prop :=
  (∀ (s : State) (n : LoomId), s.Issues n 4 →
    let l := s.dev.loom n
    (∀ a : MovwArgs, a.rsvd = 0 →
      let k := 16 * a.hw.toNat
      let x : W64 := a.imm.setWidth 64 <<< k
      s.Spells n (.movw n a) → exec (.movw n a) s = s.showing (s.dev.retires n 4 (l.setReg a.rd
        (if a.keep then (l.reg a.rd &&& ~~~((0xFFFF : W64) <<< k)) ||| x else x)))) ∧
    (s.Spells n (.nop n {}) → exec (.nop n {}) s = s.showing (s.dev.retires n 4 l)) ∧
    (∀ a : JalArgs, let target := l.pc + (a.imm.signExtend 56 <<< 2)
      target.toNat % 4 = 0 → s.Spells n (.jal n a) →
      exec (.jal n a) s = s.showing (s.dev.setLoom n { l.setReg a.rd ((l.pc + 4).setWidth 64) with pc := target })) ∧
    (∀ a : JalrArgs, let target := (l.reg a.rs1 + a.imm.signExtend 64).setWidth 56
      a.rsvd = 0 → target.toNat % 4 = 0 → s.Spells n (.jalr n a) →
      exec (.jalr n a) s = s.showing (s.dev.setLoom n { l.setReg a.rd ((l.pc + 4).setWidth 64) with pc := target })) ∧
    (∀ a : BrArgs,
      let target := l.pc + (a.imm.signExtend 56 <<< 2)
      let x := l.reg a.rs1
      let y := l.reg a.rs2
      let goes (c : Prop) [Decidable c] : Out := s.showing (s.dev.setLoom n { l with pc := if c then target else l.pc + 4 })
      target.toNat % 4 = 0 →
      ∀ p ∈ ([(.branchEq n a, goes (x = y)), (.branchNe n a, goes (x ≠ y)), (.branchLt n a, goes (x.toInt < y.toInt)),
          (.branchGe n a, goes (y.toInt ≤ x.toInt)), (.branchLtu n a, goes (x.toNat < y.toNat)),
          (.branchGeu n a, goes (y.toNat ≤ x.toNat))] : List (Instr × Out)), s.Spells n p.1 → exec p.1 s = p.2)) ∧
  (∀ (s : State) (n : LoomId) (a : RArgs), s.Issues n 4 → s.Spells n (.add n a) → a.rsvd ≠ 0 →
    (s.dev.loom n).group = none →
    ∃ t, exec (.add n a) s = .next t ∧ (t.dev.loom n).ending = .stopped ∧ (t.dev.loom n).t = (s.dev.loom n).t ∧
      (t.dev.loom n).pc = (s.dev.loom n).pc ∧ t.dev.fld Fld.TREADLE_STATUS_ERROR_CODE n.toNat = 1 ∧
      t.dev.fld Fld.TREADLE_PC_PC n.toNat = (s.dev.loom n).pc.toNat)

/-- Scratch accesses (class 0xB): SLD reads and SST writes 1, 2, 4 or 8 bytes at an aligned scratch address (R88, R89), once no
in-line reed instruction that accesses scratch waits (R122).
SRR reads a system register; SRW applies its access codes, clears INBOX bits, and never stores 0 in CACHE_LFSR (R85, R149,
Table 4-2), while the reed has no in-line instruction (R122). -/
def Obligations.ScratchAndSystemRegisters : Prop :=
  (∀ (s : State) (n : LoomId) (a : ScrArgs) (x : Nat), s.Issues n 4 →
    let l := s.dev.loom n
    let k := 2 ^ a.size.toNat
    (x : Int) = ((l.reg a.rs1).toNat % 2 ^ 20 : Nat) + a.imm.toInt → x % k = 0 → x + k ≤ 0xC0000 → l.reedScratch = false →
    (s.Spells n (.sld n a) → exec (.sld n a) s = s.showing (s.dev.retires n 4 (l.setReg a.r
      (let v := l.scratch.readNat x k
       if a.sext && v.testBit (8 * k - 1) then BitVec.ofInt 64 ((v : Int) - 2 ^ (8 * k)) else BitVec.ofNat 64 v)))) ∧
    (a.sext = false → s.Spells n (.sst n a) →
      exec (.sst n a) s = s.showing (s.dev.retires n 4 { l with scratch := l.scratch.writeNat x k (l.reg a.r).toNat }))) ∧
  (∀ (s : State) (n : LoomId) (a : SrArgs), s.Issues n 4 → a.rsvd = 0 → (s.dev.loom n).reedQ = [] →
    let d := s.dev
    let l := d.loom n
    let v := l.reg a.r
    let c (x : Card) : W64 := BitVec.ofNat 64 (d.card x n.toNat)
    (∀ p ∈ ([(0x000, n.setWidth 64), (0x001, BitVec.ofNat 64 (d.wingOf n % 2 ^ 8)), (0x002, l.rank.setWidth 64),
        (0x003, l.size.setWidth 64), (0x004, BitVec.ofNat 64 d.tick), (0x010, l.busyMask), (0x011, c Crd.TALLY_FAULT),
        (0x012, c Crd.TALLY_FIRST), (0x013, l.inbox), (0x020, c Crd.ARRAY_FLAGS), (0x021, c Crd.TREADLE_STATUS),
        (0x040, c Crd.REED_CTRL), (0x041, c Crd.REED_FLAGS), (0x042, c Crd.REED_SEED), (0x080, c Crd.CACHE_CTRL),
        (0x081, c Crd.CACHE_STATUS), (0x082, c Crd.CACHE_LFSR), (0x083, c Crd.CACHE_OP)] : List (Nat × W64)),
      a.num.toNat = p.1 → s.Spells n (.srr n a) → exec (.srr n a) s = s.showing (d.retires n 4 (l.setReg a.r p.2))) ∧
    (∀ p ∈ ([(0x011, Crd.TALLY_FAULT), (0x012, Crd.TALLY_FIRST), (0x020, Crd.ARRAY_FLAGS), (0x021, Crd.TREADLE_STATUS),
        (0x040, Crd.REED_CTRL), (0x041, Crd.REED_FLAGS), (0x042, Crd.REED_SEED), (0x081, Crd.CACHE_STATUS)] : List (Nat × Card)),
      a.num.toNat = p.1 → s.Spells n (.srw n a) → exec (.srw n a) s = s.settling ((d.writeCard p.2 n.toNat v.toNat).retires n 4 l)) ∧
    (a.num = 0x013 → s.Spells n (.srw n a) → exec (.srw n a) s = s.settling (d.retires n 4 { l with inbox := l.inbox &&& ~~~v })) ∧
    (a.num = 0x082 → s.Spells n (.srw n a) → exec (.srw n a) s = s.settling
      ((d.setFld Fld.CACHE_LFSR_STATE n.toNat (if v.toNat % 2 ^ 16 = 0 then 0xACE1 else v.toNat)).retires n 4 l)) ∧
    (∀ k ∈ ([0x000, 0x001, 0x002, 0x003, 0x004, 0x010] : List Nat),
      a.num.toNat = k → s.Spells n (.srw n a) → exec (.srw n a) s = s.settling (d.retires n 4 l)))

/-- Writes of CACHE_CTRL and CACHE_OP (R151, R168): ways that hold nothing change at once; CLEAN_ALL sends a WriteClean and
FLUSH_ALL a WriteBack of a dirty line, and the treadle waits for their acknowledgement and
for those of the eviction buffer, where every entry has been sent; UNLOCK_ALL clears every lock. -/
def Obligations.WholeCacheOperations : Prop :=
  ∀ (s : State) (n : LoomId) (a : SrArgs), s.Issues n 4 → a.rsvd = 0 →
    let d := s.dev
    let l := d.loom n
    let v := (l.reg a.r).toNat
    let tag := d.weave.nextTag
    let busy := d.newTag.2.setFld Fld.CACHE_STATUS_WAY_BUSY n.toNat 1
    let req (k : ReqKind) (c : CLine) : Req :=
      { kind := k, src := .cache n, tag := tag, line := c.line, sects := c.dirty, data := c.data,
        mask := (sectList c.dirty).foldl (fun (m : BitVec 256) k => m ||| fullMask k) 0, wing := BitVec.ofNat 4 (d.wingOf n) }
    (a.num = 0x080 → v % 2 = 1 → v / 2 ^ 8 % 2 ^ 8 ≠ 0 → v / 2 ^ 8 % 2 ^ 8 ≠ d.fld Fld.CACHE_CTRL_WAY_ON n.toNat →
      l.cache = [] → l.cleanTags = [] →
      s.Spells n (.wayPowerChange n a) → exec (.wayPowerChange n a) s = s.settling
        ((((((d.setFld Fld.CACHE_CTRL_STREAM_DETECT n.toNat 1).setFld Fld.CACHE_CTRL_WAY_ON n.toNat (v / 2 ^ 8 % 2 ^ 8)).setFld
          Fld.CACHE_STATUS_WAY_BUSY n.toNat 1).setFld Fld.CACHE_STATUS_LOCKED n.toNat 0).setFld
          Fld.CACHE_STATUS_WAY_BUSY n.toNat 0).retires n 4 l)) ∧
    let waits := l.cleanTags ++ (l.evict.map (fun e => e.tag)).filter (fun t => !l.cleanTags.contains t)
    (a.num = 0x083 → ∀ key c, l.cache = [(key, c)] → c.dirty ≠ 0 → c.wait = 0 → l.evict.all (fun e => e.sent) = true →
      (v % 4 = 1 → s.Spells n (.cleanAll n a) → exec (.cleanAll n a) s = s.settling
        ((busy.setLoom n { l with stall := .cacheOp 1, cache := [(key, { c with clean := c.dirty })],
                                  cleanTags := waits ++ [tag] }).sendReq (req .writeClean c))) ∧
      (v % 4 = 2 → s.Spells n (.flushAll n a) → exec (.flushAll n a) s = s.settling
        (((busy.setFld Fld.CACHE_STATUS_LOCKED n.toNat 0).setLoom n
          { l with stall := .cacheOp 2, cache := [], cleanTags := waits ++ [tag],
                   evict := l.evict ++ [{ l := { c with lock := false }, sent := true, tag := tag }] }).sendReq (req .writeBack c))) ∧
      (v % 4 = 3 → s.Spells n (.unlockAll n a) → exec (.unlockAll n a) s = s.settling
        ((d.setFld Fld.CACHE_STATUS_LOCKED n.toNat 0).retires n 4 { l with cache := [(key, { c with lock := false })] })))

/-- A load whose line the data cache holds whole reads it and goes on (R145, R146); it ends the streaming state (R152). -/
def Obligations.LoadHits : Prop :=
  ∀ (s : State) (n : LoomId) (a : LoadArgs) (bytes : Nat) (t : Tlb) (x key : Nat) (c : CLine), s.Issues n 4 →
    let l := s.dev.loom n
    let va := l.reg a.rs1 + a.imm.signExtend 64
    bytes ∈ [1, 2, 4, 8] → va.toNat % bytes = 0 → s.dev.Reaches n va .load t x → destOf t x = .mem →
    pteAttr t.leaf ≠ attrDeviceEa → pteAttr t.leaf ≠ attrDeviceNe → l.stb = [] →
    l.Holds (BitVec.ofNat 40 (x / 256)) key c → c.invalid = 0 →
    let streaming := s.dev.fld Fld.CACHE_STATUS_STREAMING n.toNat ≠ 0
    let b (k : Nat) : BitVec k := c.data.extractLsb' (8 * (x % 256)) k
    let res (v : W64) : Out := s.settling
      (if streaming then (s.dev.setFld Fld.CACHE_STATUS_STREAMING n.toNat 0).retires n 4 ({ l with streamCount := 0 }.setReg a.rd v)
        else s.dev.retires n 4 (l.setReg a.rd v))
    (bytes = 1 → ∀ p ∈ ([(.lb n a, res ((b 8).signExtend 64)), (.lbu n a, res ((b 8).setWidth 64))
      ] : List (Instr × Out)), s.Spells n p.1 → exec p.1 s = p.2) ∧
    (bytes = 2 → ∀ p ∈ ([(.lh n a, res ((b 16).signExtend 64)), (.lhu n a, res ((b 16).setWidth 64))
      ] : List (Instr × Out)), s.Spells n p.1 → exec p.1 s = p.2) ∧
    (bytes = 4 → ∀ p ∈ ([(.lw n a, res ((b 32).signExtend 64)), (.lwu n a, res ((b 32).setWidth 64))
      ] : List (Instr × Out)), s.Spells n p.1 → exec p.1 s = p.2) ∧
    (bytes = 8 → s.Spells n (.ld n a) → exec (.ld n a) s = res (b 64))

/-- A store enters the empty store buffer with its line, its byte mask and its bytes (R157); memory is unchanged until the entry
leaves. -/
def Obligations.StoresEnterBuffer : Prop :=
  ∀ (s : State) (n : LoomId) (a : StoreArgs) (bytes : Nat) (t : Tlb) (x : Nat), s.Issues n 4 →
    let l := s.dev.loom n
    let va := l.reg a.rs1 + a.imm.signExtend 64
    bytes ∈ [1, 2, 4, 8] → va.toNat % bytes = 0 → s.dev.Reaches n va .store t x → destOf t x = .mem →
    pteAttr t.leaf ≤ attrStream → l.stb = [] →
    let ent : StEnt :=
      { id := s.dev.opSeq, dest := .mem, attr := BitVec.ofNat 3 (pteAttr t.leaf), line := BitVec.ofNat 56 (x / 256), va := va,
        mask := (BitVec.allOnes 256 >>> (256 - bytes)) <<< (x % 256),
        data := BitVec.ofNat 2048 ((l.reg a.rs2).toNat % 2 ^ (8 * bytes)) <<< (8 * (x % 256)), tlb := some t }
    let res : Out := s.settling (s.dev.newOp.2.retires n 4 { l with stb := [ent] })
    (bytes = 1 → s.Spells n (.sb n a) → exec (.sb n a) s = res) ∧ (bytes = 2 → s.Spells n (.sh n a) → exec (.sh n a) s = res) ∧
    (bytes = 4 → s.Spells n (.sw n a) → exec (.sw n a) s = res) ∧ (bytes = 8 → s.Spells n (.sd n a) → exec (.sd n a) s = res)

/-- An atomic on memory waits for the store buffer to empty, then sends its operation to the line's home and holds the treadle
until the old value comes (R161). -/
def Obligations.AtomicsGoHome : Prop :=
  ∀ (s : State) (n : LoomId) (a : AtomArgs) (t : Tlb) (x : Nat), s.Issues n 4 →
    let d := s.dev
    let l := d.loom n
    let va := l.reg a.rs1
    a.rsvd = 0 → va.toNat % (if a.wide then 8 else 4) = 0 → l.stb = [] → d.Reaches n va .atomic t x → destOf t x = .mem →
    let tag := d.weave.nextTag
    let sent (op : AtomOp) : Dev := d.newTag.2.sendReq
      { kind := .atomic op, src := .treadle n, tag := tag, line := BitVec.ofNat 40 (x / 256),
        sects := (1 : BitVec 4) <<< (x / 64 % 4), off := BitVec.ofNat 8 (x % 256), wide := a.wide, opnd := l.reg a.rs2,
        cmp := l.reg a.rd, wing := BitVec.ofNat 4 (d.wingOf n) }
    let res (op : AtomOp) : Out :=
      s.settling (((sent op).setLoom n { l with stall := .atomic a.rd a.wide tag }).countLoom n t va)
    ∀ p ∈ ([(.atomicSwap n a, res .swap), (.atomicAdd n a, res .add), (.atomicAnd n a, res .and), (.atomicOr n a, res .or),
        (.atomicXor n a, res .xor), (.atomicMin n a, res .min), (.atomicMax n a, res .max), (.atomicMinu n a, res .minu),
        (.atomicMaxu n a, res .maxu), (.atomicCas n a, res .cas)] : List (Instr × Out)), s.Spells n p.1 → exec p.1 s = p.2

/-- Cache operations on memory (Table 6-1): the prefetches request the missing sectors and go on; ZERO.LINE and CLEAN.LINE enter
the store buffer; LOCK.PRELOAD of a whole line in ways 0 to 3 locks it; UNLOCK clears the lock. -/
def Obligations.CacheLineOperations : Prop :=
  ∀ (s : State) (n : LoomId) (a : CacheArgs) (t : Tlb) (x : Nat), s.Issues n 4 →
    let d := s.dev
    let l := d.loom n
    let va := l.reg a.rs1 + a.imm.signExtend 64
    let ln := BitVec.ofNat 40 (x / 256)
    destOf t x = .mem →
    (d.Reaches n va .hint t x → pteAttr t.leaf = attrNormal → l.findLine ln = none → l.findEvict ln = none → ∀ key e,
      d.allocWay n ln (fun _ => true) = (.way key, e) → Fmap.get { line := 0 } (e.loom n).cache key = { line := ln } →
      ∀ p ∈ ([(.prefetchR n a, s.settling (((e.cacheReq n .readShared key 15).countLoom n t va).nextPc n 4)),
          (.prefetchW n a, s.settling (((e.cacheReq n .readOwn key 15).countLoom n t va).nextPc n 4))
        ] : List (Instr × Out)), s.Spells n p.1 → exec p.1 s = p.2) ∧
    (d.Reaches n va .store t x → l.stb = [] →
      let ent : StEnt :=
        { id := d.opSeq, dest := .mem, attr := BitVec.ofNat 3 (pteAttr t.leaf), line := BitVec.ofNat 56 (x / 256), va := va,
          mask := 0, data := 0, tlb := some t }
      let zeros : StEnt := { ent with mask := BitVec.allOnes 256, zero := true }
      let cleans : StEnt := { ent with clean := true }
      ∀ p ∈ ([(.zeroLine n a, s.settling (d.newOp.2.retires n 4 { l with stb := [zeros] })),
          (.cleanLine n a, s.settling (d.newOp.2.retires n 4 { l with stb := [cleans] }))
        ] : List (Instr × Out)), s.Spells n p.1 → exec p.1 s = p.2) ∧
    (d.Reaches n va .load t x → pteAttr t.leaf = attrNormal → (List.range 4).any (fun w => d.fldBit Fld.CACHE_CTRL_WAY_ON n.toNat w
        && !(Fmap.get { line := 0 } l.cache (8 * cacheSet ln + w)).lock) = true →
      ∀ key c, l.Holds ln key c → key % 8 < 4 → c.invalid = 0 →
      s.Spells n (.lockPreload n a) → exec (.lockPreload n a) s = s.settling (((d.putLine n key { c with lock := true }).showLocked n).nextPc n 4)) ∧
    (d.Reaches n va .hint t x →
      s.Spells n (.unlock n a) → exec (.unlock n a) s = s.settling (((d.setLoom n { l with
        cache := Fmap.mapAll (fun _ c => if c.line = ln then { c with lock := false } else c) l.cache }).showLocked n).nextPc n 4))

/-- Fences and waits (R111, R113, R164): each fence holds the treadle; a wait whose tallies are idle or whose INBOX bit is set
goes on at once; BARRIER starts its fence; HALT ends the program with its exit code.
A fence whose conditions hold ends, and reports a loss it covers (R165, R166); what waits on a path that broke 2 ms ago
leaves; a program that has ended leaves RUNNING once nothing of it is under way (R163); the store buffer's oldest entry becomes
visible when it writes into a sector in M or E (R147, R157). -/
def Obligations.FencesAndWaits : Prop :=
  (∀ (s : State) (n : LoomId), s.Issues n 4 →
    let d := s.dev
    let l := d.loom n
    let holds (k : FenceKind) : Out := s.settling (d.setLoom n { l with stall := .fence k (l.cover k) })
    (∀ p ∈ ([(.fenceSl n {}, holds .sl), (.fenceAll n {}, holds .all), (.fenceIo n {}, holds .io),
        (.fenceGlobal n {}, holds .global)] : List (Instr × Out)), s.Spells n p.1 → exec p.1 s = p.2) ∧
    (∀ rd rs1, l.busyMask &&& l.reg rs1 = 0 → s.Spells n (.tallyWait n { rd := rd, rs1 := rs1 }) → exec (.tallyWait n { rd := rd, rs1 := rs1 }) s = s.settling
      (d.retires n 4 (l.setReg rd (l.reg rs1 &&& BitVec.ofNat 64 (d.fld Fld.TALLY_FAULT_FAULT n.toNat))))) ∧
    (∀ rd rs1, l.inbox &&& l.reg rs1 ≠ 0 → s.Spells n (.inboxWait n { rd := rd, rs1 := rs1 }) → exec (.inboxWait n { rd := rd, rs1 := rs1 }) s = s.settling
      (d.retires n 4 (l.setReg rd (l.inbox &&& l.reg rs1)))) ∧
    (∀ rd, l.group ≠ none → s.Spells n (.barrier n { rd := rd }) → exec (.barrier n { rd := rd }) s = s.settling (d.setLoom n { l with stall := .barrierFence rd [] })) ∧
    (∀ imm, l.busyMask = 0 → s.Spells n (.halt n { imm := imm }) → exec (.halt n { imm := imm }) s = s.settling
      ((d.setLoom n { l with ending := .halt }).setFld Fld.TREADLE_STATUS_EXIT_CODE n.toNat (imm.toNat % 256)))) ∧
  (∀ (s : State) (n : LoomId), s.dev.live = true →
    let d := s.dev
    let l := d.loom n
    (∀ k cover, l.stall = .fence k cover → l.fenceMet cover = true → l.lost = false → l.lostHost = false → l.lostPeer = false →
      l.lateHost = false → l.latePeer = false →
      exec (.fenceComplete n) s = s.settling (d.retires n 4 { l with stall := .run })) ∧
    (∀ k cover, l.stall = .fence k cover → l.fenceMet cover = true → l.lost = true →
      exec (.fenceComplete n) s = s.settling
        ((((d.setFld Fld.TREADLE_STATUS_FENCE_FAULT n.toNat 1).report (tileSrc n 1) (mkDetail l.pc.toNat n.toNat 1) (d.wingOf n)).retires n 4
          { l with stall := .run, lost := false, lostHost := l.lateHost || (!(k = .io || k = .global) && l.lostHost),
                   lostPeer := l.latePeer || (!(k = .global) && l.lostPeer), lateHost := false, latePeer := false }))) ∧
    (∀ e rest k, l.stall = .run → l.stb = e :: rest → e.lostAt = some k → k + 2000 ≤ d.tick → rest.all (fun x => x.lostAt = none) = true →
      l.early = [] →
      exec (.brokenPathWaitExpiry n) s = s.settling (d.setLoom n { l with stb := rest, lost := true })) ∧
    (d.loomState n = stRunning → l.ending ≠ .none → l.request = .none → l.stb = [] → l.reedQ = [] → l.busyMask = 0 →
      (l.ending ≠ .paused → l.group = none) →
      exec (.loomProgramEnd n) s = s.settling
        (((d.setLoom n { l with ending := .none, request := .none, stall := .run }).setFld Fld.TREADLE_STATUS_TALLY_FAULT_PENDING n.toNat
          (if d.fld Fld.TALLY_FAULT_FAULT n.toNat ≠ 0 then 1 else 0)).setLoomState n l.ending.state)) ∧
    (∀ e rest k key c, d.fld Fld.CACHE_STATUS_STREAMING n.toNat = 0 → l.stb = e :: rest → e.stalled = false → e.sent = false → e.lostAt = none → e.dest = .mem → e.clean = false →
      e.attr.toNat < attrDeviceEa → l.Holds (e.line.setWidth 40) key c →
      (List.range 4).filter (fun k => maskSector e.mask k ≠ 0) = [k] → c.st k = .m ∨ c.st k = .e →
      let v := mergeSector (Line.sector c.data k) (Line.sector e.data k) (maskSector e.mask k)
      let c1 : CLine := { c.setSt k .m with clean := clrBit4 c.clean k, data := Line.setSector c.data k v }
      exec (.storeBufferEntryLeave n) s = s.settling (d.setLoom n { l with stb := rest, cache := Fmap.put l.cache key c1 })))

/-- The array (R93, R98, R103, R104): WEAVE and the accumulator moves enter the queue with their tally; the oldest operation
starts once its dependency is met and no earlier drain of its accumulator waits; its completion frees the tally. -/
def Obligations.ArrayOperations : Prop :=
  ∀ (s : State) (n : LoomId),
    let d := s.dev
    let l := d.loom n
    let queued (op : BitVec 2) (a : ArrArgs) : Out :=
      let o : ArrOp := { id := d.opSeq, op := op, a := a, dep := .met, ab := l.reg a.rAB, s := l.reg a.rS }
      s.settling (d.newOp.2.retires n 8 ({ l with arrayQ := l.arrayQ ++ [o] }.holdTally a.tally d.opSeq))
    (s.Issues n 8 → ∀ a : ArrArgs, a.afterV = false → Fmap.find l.tally a.tally.toNat = none → l.arrayQ.length < 8 →
      (weaveCheck a (l.reg a.rAB) (l.reg a.rS) = none → s.Spells n (.weave n a) → exec (.weave n a) s = queued 0 a) ∧
      (a.accForm = true → lo20 (l.reg a.rAB) % 64 = 0 → lo20 (l.reg a.rAB) + 256 ≤ 0xC0000 →
        ∀ p ∈ ([(.accLoad n a, queued 1 a), (.accStore n a, queued 2 a)] : List (Instr × Out)), s.Spells n p.1 → exec p.1 s = p.2) ∧
      (a.accForm = true → a.rAB = 0 → s.Spells n (.accZero n a) → exec (.accZero n a) s = queued 3 a)) ∧
    (s.dev.live = true → ∀ o rest, l.arrayRun = none → l.arrayQ = o :: rest → o.dep = .met → l.drainAhead o = false →
      let l1 := { l with arrayQ := rest, arrayRun := some o }
      (o.op = 0 → exec (.arrayOpStart n) s = s.settling
        ((d.setLoom n { l1 with acc := (l1.weaveRun o).1 }).arrayFlags n (l1.weaveRun o).2)) ∧
      (o.op = 1 → exec (.arrayOpStart n) s = s.settling (d.setLoom n { l1 with
        acc := (List.range 64).foldl (fun (m : Fmap W32) c => Fmap.put m (64 * o.a.acc.toNat + c)
          (BitVec.ofNat 32 (l.scratch.readNat (lo20 o.ab + 4 * c) 4))) l.acc })) ∧
      (o.op = 3 → exec (.arrayOpStart n) s = s.settling (d.setLoom n { l1 with
        acc := l.acc.filter (fun c => !(64 * o.a.acc.toNat ≤ c.1 && c.1 < 64 * o.a.acc.toNat + 64)) }))) ∧
    (s.dev.live = true → ∀ o, l.arrayRun = some o → l.stall = .run → Fmap.find l.tally o.a.tally.toNat = some o.id →
      exec (.arrayOpComplete n) s = s.settling (d.setLoom n
        { l with arrayRun := none, tally := Fmap.del l.tally o.a.tally.toNat,
                 arrayQ := l.arrayQ.map (fun x => { x with dep := x.dep.done o.id true }),
                 xferQ := l.xferQ.map (fun x => { x with dep := x.dep.done o.id true }),
                 drainQ := l.drainQ.map (fun x => { x with dep := x.dep.done o.id true }) }))

/-- Transfers (R93, R107 to R110): FETCH, PUT and SEND enter the queue with their tally; TALLY.POLL returns the busy tallies and
TALLY.CLEAR clears faults; the oldest transfer that may start does; a SEND's next request is a Write of its scratch bytes to
the destination's scratch; a FETCH's is a ReadOnce of its line. -/
def Obligations.Transfers : Prop :=
  ∀ (s : State) (n : LoomId),
    let d := s.dev
    let l := d.loom n
    let tag := d.weave.nextTag
    let queued (op : BitVec 3) (a : XferArgs) : Out :=
      s.settling (d.newOp.2.retires n 8 ({ l with xferQ := l.xferQ ++ [l.xferOf d.opSeq op .met a] }.holdTally a.tally d.opSeq))
    let goes (op : BitVec 3) (a : XferArgs) : Prop := (l.xferOf 0 op .met a).check = none ∧ a.rsvd = 0 ∧ a.afterV = false ∧
      Fmap.find l.tally a.tally.toNat = none ∧ l.xferQ.length + l.xferRun.length < 32
    (s.Issues n 8 → ∀ a : XferArgs,
      (goes 0 a → a.notify = false → s.Spells n (.fetch n a) → exec (.fetch n a) s = queued 0 a) ∧
      (goes 1 a → a.notify = false → s.Spells n (.put n a) → exec (.put n a) s = queued 1 a) ∧ (goes 2 a → s.Spells n (.send n a) → exec (.send n a) s = queued 2 a)) ∧
    (s.Issues n 8 → ∀ rMem rScr : Reg,
      let a : XferArgs := { rMem := rMem, rScr := rScr }
      let m := (l.reg rScr).toNat
      let first := d.fld Fld.TALLY_FIRST_TALLY n.toNat
      let cleared := d.clrFld Fld.TALLY_FAULT_FAULT n.toNat m
      (s.Spells n (.tallyPoll n a) → exec (.tallyPoll n a) s = s.showing (d.retires n 8 (l.setReg rMem l.busyMask))) ∧
      (s.Spells n (.tallyClear n a) → exec (.tallyClear n a) s = s.showing ((if m.testBit first && d.fldBit Fld.TALLY_FAULT_FAULT n.toNat first
        then cleared.setFld Fld.TALLY_FIRST_VALID n.toNat 0 else cleared).retires n 8 l))) ∧
    (s.dev.live = true → ∀ x rest, l.xferQ = x :: rest → x.dep = .met → x.op ≠ 2 →
      exec (.transferStart n) s = s.settling (d.setLoom n { l with xferQ := rest, xferRun := l.xferRun ++ [x] })) ∧
    (s.dev.live = true → ∀ x, l.xferRun = [x] → x.pos = 0 → 0 < x.rows → 0 < x.len → x.stalled = false → x.outs = [] →
      (x.op = 2 →
        let a := scratchBase + x.dest.toNat * MiB + x.addr.toNat
        let k := min x.len (256 - a % 256)
        let o : XOut := { tag := tag, scr := x.scr, dpa := a, len := k, read := false }
        exec (.transferRequestIssue n) s = s.settling ((d.newTag.2.sendReq
          { kind := .write, src := .xfer n, tag := tag, line := BitVec.ofNat 40 (a / 256), sects := runSects (a % 256) k,
            data := BitVec.ofNat 2048 (l.scratch.readNat x.scr k * 2 ^ (8 * (a % 256))), mask := runMask (a % 256) k,
            wing := BitVec.ofNat 4 (d.wingOf n) }).setLoom n { l with xferRun := [{ x with pos := k, outs := [o] }] })) ∧
      (x.op = 0 → ∀ t a, d.translate (.xfer n x.id) (d.wingOf n) x.addr .load = (.ok t a, d) → destOf t a = .mem →
        let k := min x.len (256 - a % 256)
        let o : XOut := { tag := tag, scr := x.scr, dpa := a, len := k, read := true }
        exec (.transferRequestIssue n) s = s.settling (((d.newTag.2.countLoom n t x.addr).sendReq
          { kind := .readOnce, src := .xfer n, tag := tag, line := BitVec.ofNat 40 (a / 256), sects := runSects (a % 256) k,
            wing := BitVec.ofNat 4 (d.wingOf n) }).setLoom n { l with xferRun := [{ x with pos := k, outs := [o] }] })))

/-! ### The reed -/

/-- REED_ENQUEUE (R121, R139): a word that passes its checks enters the queue with the registers and the control it names, the
generator moves past the outputs it reserves, and the treadle goes on; a VCMP or VEXT holds it (R122); a DRAIN takes its
tally (R123). -/
def Obligations.ReedQueueing : Prop :=
  ∀ (s : State) (n : LoomId) (w : W64), s.Issues n 8 →
    let d := s.dev
    let l := d.loom n
    let seed := BitVec.ofNat 64 (d.fld Fld.REED_SEED_STATE n.toNat)
    let o : ReedOp := { id := d.opSeq, word := w, ta := l.reg (rwRA w), tm := l.reg (rwRm w),
                        ctrl := BitVec.ofNat 32 (d.card Crd.REED_CTRL n.toNat), seed := seed }
    let drawn := d.newOp.2.setFld Fld.REED_SEED_STATE n.toNat (srAdvance seed (reedDraws w)).toNat
    s.Spells n (.reedEnqueue n w) → reedCheck w (l.reg (rwRA w)) = none → l.reedQ.length + l.drainQ.length < 16 →
    (rwOp w ≠ 0x3C → reedToTreadle (rwOp w) = false →
      exec (.reedEnqueue n w) s = s.showing (drawn.retires n 8 { l with reedQ := l.reedQ ++ [o] })) ∧
    (reedToTreadle (rwOp w) = true →
      exec (.reedEnqueue n w) s = s.showing (drawn.setLoom n { l with reedQ := l.reedQ ++ [o], stall := .reed })) ∧
    (rwOp w = 0x3C → rwAfterV w = false → Fmap.find l.tally (rwTally w).toNat = none →
      exec (.reedEnqueue n w) s = s.showing (drawn.retires n 8 ({ l with drainQ := l.drainQ ++ [o] }.holdTally (rwTally w) d.opSeq)))

/-- Elementwise rows on INT32 lanes (Table 5-3): each enabled lane of vd gets the wrapping result, a disabled lane keeps its
value (R120), and no flag rises. -/
def Obligations.ReedIntegerLanes : Prop :=
  ∀ (s : State) (n : LoomId) (o : ReedOp) (rest : List ReedOp), s.dev.live = true → (s.dev.loom n).reedQ = o :: rest →
    rwLt o.word = 3 →
    let l := s.dev.loom n
    let w := o.word
    let lane (r k : Nat) : W32 := BitVec.ofNat 32 (laneOf (l.vreg r) 32 k)
    let res (f : W32 → W32 → W32) : Out := s.showing (s.dev.reedTakes n rest (rwVd w) (packLanes 32 ((List.range 16).map (fun k =>
      if o.enabled k then (f (lane (rwVa w) k) (lane (rwVb w) k)).toNat else laneOf (l.vreg (rwVd w)) 32 k))) {})
    let sh (b : W32) : Nat := b.toNat % 32
    (rwOp w = 0x00 → exec (.vadd n) s = res (· + ·)) ∧ (rwOp w = 0x01 → exec (.vsub n) s = res (· - ·)) ∧
    (rwOp w = 0x02 → exec (.vmul n) s = res (· * ·)) ∧
    (rwOp w = 0x08 → exec (.vmin n) s = res (fun a b => if a.toInt < b.toInt then a else b)) ∧
    (rwOp w = 0x09 → exec (.vmax n) s = res (fun a b => if a.toInt < b.toInt then b else a)) ∧
    (rwOp w = 0x0A → exec (.vminu n) s = res (fun a b => if a.toNat < b.toNat then a else b)) ∧
    (rwOp w = 0x0B → exec (.vmaxu n) s = res (fun a b => if a.toNat < b.toNat then b else a)) ∧
    (rwOp w = 0x0C → exec (.vabs n) s = res (fun a _ => if a.toInt < 0 then -a else a)) ∧
    (rwOp w = 0x0D → exec (.vneg n) s = res (fun a _ => -a)) ∧
    (rwOp w = 0x10 → exec (.vand n) s = res (· &&& ·)) ∧ (rwOp w = 0x11 → exec (.vor n) s = res (· ||| ·)) ∧
    (rwOp w = 0x12 → exec (.vxor n) s = res (· ^^^ ·)) ∧ (rwOp w = 0x13 → exec (.vshl n) s = res (fun a b => a <<< sh b)) ∧
    (rwOp w = 0x14 → exec (.vshr n) s = res (fun a b => a >>> sh b)) ∧
    (rwOp w = 0x15 → exec (.vsra n) s = res (fun a b => a.sshiftRight (sh b)))

/-- Elementwise rows on float lanes (Table 5-3, R127 to R133): each enabled lane is the row's operation of the lanes, the others
keep their value, and the flags of the enabled lanes rise. -/
def Obligations.ReedFloatLanes : Prop :=
  ∀ (s : State) (n : LoomId) (o : ReedOp) (rest : List ReedOp), s.dev.live = true → (s.dev.loom n).reedQ = o :: rest →
    rwLt o.word ≠ 3 →
    let l := s.dev.loom n
    let w := o.word
    let lw := ltWidth (rwLt w)
    let L := ltLayout (rwLt w)
    let c := RCtl.ofBits o.ctrl
    let cs (k : Nat) : Nat × Nat × Nat := (laneOf (l.vreg (rwVa w)) lw k, laneOf (l.vreg (rwVb w)) lw k, laneOf (l.vreg (rwVc w)) lw k)
    let fs (k : Nat) : (FV × FFlags) × (FV × FFlags) × (FV × FFlags) :=
      (rdLane L c (cs k).1, rdLane L c (cs k).2.1, rdLane L c (cs k).2.2)
    let res (g : Nat → Nat × FFlags) : Out :=
      let r := (List.range (ltLanes (rwLt w))).map (fun k =>
        if o.enabled k then g k else (laneOf (l.vreg (rwVd w)) lw k, ({} : FFlags)))
      s.showing (s.dev.reedTakes n rest (rwVd w) (packLanes lw (r.map (·.1))) (orAll r))
    let un (g : Nat → FV → Nat × FFlags) : Out := res (fun k => ((g (cs k).1 (fs k).1.1).1, (g (cs k).1 (fs k).1.1).2.or (fs k).1.2))
    let bin (g : Nat → Nat → FV → FV → Nat × FFlags) : Out := res (fun k =>
      let y := g (cs k).1 (cs k).2.1 (fs k).1.1 (fs k).2.1.1
      (y.1, y.2.or ((fs k).1.2.or (fs k).2.1.2)))
    let ter (negA negC : Bool) : Out := res (fun k =>
      let y := fFma L c negA negC (fs k).1.1 (fs k).2.1.1 (fs k).2.2.1
      (y.1, y.2.or ((fs k).1.2.or ((fs k).2.1.2.or (fs k).2.2.2))))
    let sign := 2 ^ (L.e + L.m)
    (rwOp w = 0x00 → exec (.vadd n) s = bin (fun _ _ a b => fAdd L c a b [a, b])) ∧
    (rwOp w = 0x01 → exec (.vsub n) s = bin (fun _ _ a b => fAdd L c a b.neg [a, b])) ∧
    (rwOp w = 0x02 → exec (.vmul n) s = bin (fun _ _ a b => fMul L c a b)) ∧
    (rwOp w = 0x03 → exec (.vfma n) s = ter false false) ∧ (rwOp w = 0x04 → exec (.vfms n) s = ter false true) ∧
    (rwOp w = 0x05 → exec (.vfnma n) s = ter true false) ∧
    (rwOp w = 0x06 → exec (.vdiv n) s = bin (fun ca cb a b => fDiv L c ca cb a b)) ∧
    (rwOp w = 0x07 → exec (.vsqrt n) s = un (fun ca a => fSqrt L c ca a)) ∧
    (rwOp w = 0x08 → exec (.vmin n) s = bin (fun ca cb a b => fMinMax L c false ca cb a b)) ∧
    (rwOp w = 0x09 → exec (.vmax n) s = bin (fun ca cb a b => fMinMax L c true ca cb a b)) ∧
    (rwOp w = 0x0C → exec (.vabs n) s = res (fun k => ((cs k).1 % sign, {}))) ∧
    (rwOp w = 0x0D → exec (.vneg n) s = res (fun k => ((cs k).1 ^^^ sign, {}))) ∧
    (rwOp w = 0x0E → exec (.vcopysign n) s = res (fun k => ((cs k).1 % sign + (cs k).2.1 / sign % 2 * sign, {}))) ∧
    (rwOp w = 0x28 → exec (.vexp2 n) s = un (fun ca a => fExp c 0x28 true ca a)) ∧
    (rwOp w = 0x29 → exec (.vexp n) s = un (fun ca a => fExp c 0x29 false ca a)) ∧
    (rwOp w = 0x2A → exec (.vlog2 n) s = un (fun ca a => fLog c 0x2A true ca a)) ∧
    (rwOp w = 0x2B → exec (.vlog n) s = un (fun ca a => fLog c 0x2B false ca a)) ∧
    (rwOp w = 0x2C → exec (.vrsqrt n) s = un (fun ca a => fRsqrt c 0x2C ca a)) ∧
    (rwOp w = 0x2D → exec (.vrcp n) s = un (fun ca a => fRcp c 0x2D ca a))

/-- In-line rows that are no elementwise arithmetic (Table 5-3).
Compares: bit k of t[rA] is 1 exactly where lane k is enabled and the row's relation holds, and the treadle that waited for the
value goes on past the instruction.
Reductions: 32-bit lane 0 of vd takes the value of the row's tree over the enabled lanes (`reduceLanes`) and all other lanes
become zero.
VLD reads 64 bytes of scratch into vd and VST writes va there.
VBCAST, VMOV and VPERM give each enabled lane t[rA]'s low bits, the lane of va, or the lane of va that vb names; the other lanes
keep their value.  VEXT writes lane vb of va to t[rA] and the treadle goes on. -/
def Obligations.ReedComparesReducesMoves : Prop :=
  ∀ (s : State) (n : LoomId) (o : ReedOp) (rest : List ReedOp), s.dev.live = true → (s.dev.loom n).reedQ = o :: rest →
    let d := s.dev
    let l := d.loom n
    let w := o.word
    let lw := ltWidth (rwLt w)
    let cnt := ltLanes (rwLt w)
    let lane (r k : Nat) : Nat := laneOf (l.vreg r) lw k
    let x := (o.ta.extractLsb' 0 20).toNat
    let go (f : FFlags) (v : W64) : Out :=
      s.showing (((d.setLoom n { l with reedQ := rest }).reedFlags n f).retires n 8
        ({ l with reedQ := rest, stall := .run }.setReg (rwRA w) v))
    let bits (g : Nat → Bool) : W64 := BitVec.ofNat 64 (ofLanes 1 ((List.range cnt).map (fun k => if o.enabled k && g k then 1 else 0)))
    let int (g : W32 → W32 → Bool) : Out :=
      go {} (bits (fun k => g (BitVec.ofNat 32 (lane (rwVa w) k)) (BitVec.ofNat 32 (lane (rwVb w) k))))
    let one (op k : Nat) : Bool × FFlags := laneCmp op (rwLt w) (RCtl.ofBits o.ctrl) (lane (rwVa w) k) (lane (rwVb w) k)
    let flt (op : Nat) : Out := go
      ((List.range cnt).foldl (fun (g : FFlags) k => g.or (if o.enabled k then (one op k).2 else {})) {}) (bits (fun k => (one op k).1))
    let red (op : Nat) : Out :=
      let r := reduceLanes op (rwLt w) (RCtl.ofBits o.ctrl) ((List.range cnt).map (fun k => (o.enabled k, lane (rwVa w) k)))
      s.showing (d.reedTakes n rest (rwVd w) (BitVec.ofNat 512 (r.1 % 2 ^ 32)) r.2)
    let moves (g : Nat → Nat) : Out := s.showing (d.reedTakes n rest (rwVd w) (packLanes lw ((List.range cnt).map (fun k =>
      if o.enabled k then g k else lane (rwVd w) k))) {})
    (l.stall = .reed →
      (rwOp w = 0x18 → exec (.vcmpeq n) s = if rwLt w = 3 then int (fun a b => a = b) else flt 0x18) ∧
      (rwOp w = 0x19 → exec (.vcmplt n) s = if rwLt w = 3 then int (fun a b => a.toInt < b.toInt) else flt 0x19) ∧
      (rwOp w = 0x1A → exec (.vcmple n) s = if rwLt w = 3 then int (fun a b => a.toInt ≤ b.toInt) else flt 0x1A) ∧
      (rwOp w = 0x1B → rwLt w ≠ 3 → exec (.vcmpun n) s = flt 0x1B) ∧
      (rwOp w = 0x1C → rwLt w = 3 → exec (.vcmpltu n) s = int (fun a b => a.toNat < b.toNat)) ∧
      (rwOp w = 0x33 → exec (.vext n) s = go {} (BitVec.ofNat 64 (lane (rwVa w) (rwVb w))))) ∧
    (rwOp w = 0x20 → exec (.vredsum n) s = red 0x20) ∧ (rwOp w = 0x21 → exec (.vredmax n) s = red 0x21) ∧
    (rwOp w = 0x22 → exec (.vredmin n) s = red 0x22) ∧ (rwOp w = 0x23 → exec (.vredamax n) s = red 0x23) ∧
    (rwOp w = 0x30 → exec (.vld n) s = s.showing (d.reedTakes n rest (rwVd w) (BitVec.ofNat 512 (l.scratch.readNat x 64)) {})) ∧
    (rwOp w = 0x31 → exec (.vst n) s = s.showing (d.setLoom n
      { l with reedQ := rest, scratch := l.scratch.writeNat x 64 (l.vreg (rwVa w)).toNat })) ∧
    (rwOp w = 0x32 → exec (.vbcast n) s = moves (fun _ => o.ta.toNat % 2 ^ lw)) ∧
    (rwOp w = 0x34 → exec (.vmov n) s = moves (fun k => lane (rwVa w) k)) ∧
    (rwOp w = 0x35 → exec (.vperm n) s = moves (fun k => lane (rwVa w) (lane (rwVb w) k % cnt)))

/-- VCVT and VCVTI convert lanes to another type, VDQLD decodes a block of scratch and VQST encodes one to scratch (R134 to R136);
DRAIN converts its tile row by row into scratch and completes its tally (R140 to R142). -/
def Obligations.ReedConversions : Prop :=
  ∀ (s : State) (n : LoomId) (o : ReedOp) (rest : List ReedOp), s.dev.live = true →
    let d := s.dev
    let l := d.loom n
    let w := o.word
    let res (r : ReedOut) : Out := s.showing (r.store.foldl (fun (d : Dev) p => d.scratchWrite n.toNat p.1 p.2.1 p.2.2)
      ((d.setLoom n (r.regs.foldl (fun (l : Loom) p => l.setVreg p.1 p.2) { l with reedQ := rest })).reedFlags n r.flags))
    (l.reedQ = o :: rest →
      (rwOp w = 0x38 → exec (.vcvt n) s = res (reedConvert l o false)) ∧
      (rwOp w = 0x39 → exec (.vcvti n) s = res (reedConvert l o true)) ∧
      (rwOp w = 0x3A → exec (.vdqld n) s = res (reedDqld l o)) ∧ (rwOp w = 0x3B → exec (.vqst n) s = res (reedQst l o))) ∧
    (l.drainQ = o :: rest → o.dep = .met → drainBlocked l o = false →
      let e := (o.ta.extractLsb' 0 20).toNat
      let pitch := (o.ta.extractLsb' 20 12).toNat * 8
      fmtScaled (rwFmt w) = false →
      exec (.drain n) s = s.settling (((List.range 8).foldl (fun (d : Dev) i =>
        (d.scratchWrite n.toNat (e + i * pitch) (drainRow (rwFmt w)) (drainRowBits l o i).1).reedFlags n (drainRowBits l o i).2.2)
        (d.setLoom n { l with drainQ := rest })).tallyDone n (rwTally w) o.id none))

/-! ### The weave -/

/-- Requests of a loom's cache for one sector of a line without a catalogue entry (Table 7-8, R175): the line takes an entry that
records the loom as owner and stays busy until CompAck, and the home goes on to what waits; ReadShared is granted E and ReadOwn and an Upgrade of a loom that holds
nothing M, with the sector's data; OwnNoData is answered with Comp. -/
def Obligations.TrackedRequests : Prop :=
  ∀ (s : State) (r : Req) (n : LoomId) (k : Nat), s.dev.live = true → s.dev.Accepts r → r.src = .cache n → k < 4 →
    r.sects = (1 : BitVec 4) <<< k →
    let d := s.dev
    let line := r.line.toNat
    let d1 := (d.opened r false).openEnt line
    let d2 := (d1.readLine line r.sects).2.2
    let e : CatEnt := (d1.ent line).setSec k ⟨.excl, n.toNat⟩
    let wait (x : Dev) : Out := s.settling ((x.setTxn line { req := r, phase := .ack, todo := 0 }).serves line)
    let m : Msg := { kind := .data, agent := r.src, tag := r.tag, line := r.line, sects := r.sects,
                     data := Line.setSector 0 k (Line.sector (d1.readLine line r.sects).1 k) }
    Fmap.find d.weave.cat line = none → (d.setEnts line).length < d.asm.catWays →
    ((d1.readLine line r.sects).2.1 = 0 →
      (r.kind = .readShared → exec (.readShared r) s = wait ((d2.setEnt line e).sendMsg { m with excl := r.sects })) ∧
      (r.kind = .readOwn → exec (.readOwn r) s = wait ((d2.setEnt line e).sendMsg { m with own := r.sects })) ∧
      (r.kind = .upgrade → exec (.upgrade r) s = wait ((d2.setEnt line e).sendMsg { m with own := r.sects }))) ∧
    (r.kind = .ownNoData → exec (.ownNoData r) s = wait ((d1.setEnt line e).sendMsg
      { kind := .comp, agent := r.src, tag := r.tag, line := r.line, sects := r.sects, own := r.sects }))

/-- Requests of cacheless agents for one sector that no cache holds (Table 7-8, R186, R187): ReadOnce is answered with the data and
leaves no record; Write stores the bytes of its mask and is answered with Comp; an atomic writes its result and answers the old
value; a ReduceWrite to a reduction alias adds into the memory under it (R243). -/
def Obligations.CachelessRequests : Prop :=
  ∀ (s : State) (r : Req) (n : LoomId) (k : Nat), s.dev.live = true → r.src = .treadle n → k < 4 →
    r.sects = (1 : BitVec 4) <<< k →
    let d := s.dev
    let line := r.line.toNat
    let d1 := d.opened r false
    let d2 := (d1.readLine line r.sects).2.2
    let v := Line.sector (d1.readLine line r.sects).1 k
    let none_ : CatEnt := ({} : CatEnt).setSec k {}
    let data : Msg := { kind := .data, agent := r.src, tag := r.tag, line := r.line, sects := r.sects }
    let comp : Msg := { kind := .comp, agent := r.src, tag := r.tag, line := r.line, sects := r.sects }
    (d.Accepts r → Fmap.find d.weave.cat line = none →
      ((d1.readLine line r.sects).2.1 = 0 →
        (r.kind = .readOnce → exec (.readOnce r) s = s.settling
          ((((d2.setEnt line {}).sendMsg { data with data := Line.setSector 0 k v }).endTxn line).serves line)) ∧
        (∀ op, r.kind = .atomic op → exec (.atomic r) s = s.settling
          (((((d2.setEnt line none_).writeLine line (fullMask k) (Line.setSector 0 k (atomSector r op v).1) 0 false).sendMsg
            { data with data := (atomSector r op v).2.setWidth 2048 }).endTxn line).serves line))) ∧
      (r.kind = .write → r.place = 0 →
        let m := maskSector r.mask k
        let x := d1.setEnt line none_
        let y := if m = 0 then x
          else x.writeLine line (m.setWidth 256 <<< (64 * k)) (Line.setSector 0 k (Line.sector r.data k)) (r.poison &&& r.sects) false
        exec (.write r) s = s.settling (((y.sendMsg comp).endTxn line).serves line))) ∧
    (∀ u, d.range (256 * line) = .redAlias u → d.reqArrives r = true →
      (d.takeReq r).Room { r with kind := .reduceWrite, line := BitVec.ofNat 40 (u / 256) } →
      let x : Req := { r with kind := .reduceWrite, line := BitVec.ofNat 40 (u / 256) }
      let ln := x.line.toNat
      let d1 := (d.takeReq r).setTxn ln { req := x, phase := .snoop, todo := x.sects, reserved := false }
      let y := d1.readLine ln r.sects
      let z := (y.2.2.setEnt ln none_).reduceSector (256 * ln + 64 * k) (Line.sector y.1 k) false (maskSector r.mask k) (Line.sector r.data k)
      let stored := if z.1 = Line.sector y.1 k then z.2 else z.2.writeLine ln (fullMask k) (Line.setSector 0 k z.1) 0 false
      Fmap.find d.weave.cat ln = none → y.2.1 = 0 → r.poison = 0 → r.kind = .reduceWrite →
      exec (.reduceWrite r) s = s.settling (((stored.sendMsg { comp with line := x.line }).endTxn ln).serves ln))

/-- What the owner of a sector sends home (Table 7-8, R148): a WriteBack stores its data and frees the sector, a WriteClean stores
it and keeps the owner, and a CleanEvict frees a sector held in E. -/
def Obligations.OwnerWrites : Prop :=
  ∀ (s : State) (r : Req) (n : LoomId) (k : Nat), s.dev.live = true → s.dev.Accepts r → r.src = .cache n → k < 4 →
    r.sects = (1 : BitVec 4) <<< k → r ∈ s.dev.weave.reqs →
    let d := s.dev
    let line := r.line.toNat
    let e := d.ent line
    let comp : Msg := { kind := .comp, agent := r.src, tag := r.tag, line := r.line, sects := r.sects }
    let stored (x : Dev) : Dev :=
      x.writeLine line (fullMask k) (Line.setSector 0 k (Line.sector r.data k)) (r.poison &&& r.sects) false
    let ends (x : Dev) : Out := s.settling ((x.endTxn line).serves line)
    e.sec k = ⟨.excl, n.toNat⟩ →
    (r.kind = .writeBack → exec (.writeBack r) s = ends ((stored ((d.opened r true).setEnt line (e.setSec k {}))).sendMsg comp)) ∧
    (r.kind = .writeClean → exec (.writeClean r) s = ends ((stored (d.opened r false)).sendMsg comp)) ∧
    (r.kind = .cleanEvict → exec (.cleanEvict r) s = ends ((d.opened r false).setEnt line (e.setSec k {})))

/-- Snoops at a loom (R184, Table 7-9, R190): a Recall of a sector in M returns its data and leaves O, M or I as it asks; an
Invalidate drops the sector and is acknowledged; a Stash installs its sector in E when the loom's tile runs, its wing fits and a
way is to be had.
Answers at a loom's cache (R146, R148, R175): the last sector of a read takes its granted state and data and CompAck goes out;
the Comp of a WriteBack removes the line from the eviction buffer. -/
def Obligations.MessagesAtLoom : Prop :=
  (∀ (s : State) (m : Msg) (n : LoomId) (k : Nat), s.dev.live = true → s.dev.arrives m = true → m.agent = .cache n → k < 4 →
    m.sects = (1 : BitVec 4) <<< k →
    let d := s.dev.takeMsg m
    let l := d.loom n
    let back : Msg := { kind := .recallData, agent := m.agent, tag := m.tag, line := m.line, sects := m.sects, excl := m.sects }
    (∀ key c, l.Holds m.line key c → c.st k = .m →
      let out : Msg := { back with data := Line.setSector 0 k (Line.sector c.data k) }
      (m.kind = .recallKeep → exec (.recallMsg m) s = s.settling
        (((d.putLine n key (c.setSt k .o)).sendMsg { out with own := m.sects }).trimEvict n)) ∧
      (m.kind = .recallCopy → exec (.recallMsg m) s = s.settling ((d.sendMsg { out with own := m.sects }).trimEvict n)) ∧
      (m.kind = .recallInv → exec (.recallMsg m) s = s.settling (((d.putLine n key (c.setSt k .i)).sendMsg out).trimEvict n))) ∧
    (m.kind = .invalidate → m.ok = false → exec (.invalidate m) s = s.settling (((d.setLoom n (l.dropSector m.line k)).sendMsg
      { kind := .invAck, agent := m.agent, tag := m.tag, line := m.line, sects := m.sects }).trimEvict n)) ∧
    (m.kind = .stash → d.tileState (loomTile n.toNat) = tsRun → d.wingOf n = m.wing.toNat → l.findEvict m.line = none →
      ∀ key e, d.stashWay n m.line = some (key, e) →
      let c := Fmap.get { line := 0 } (e.loom n).cache key
      let c1 : CLine := { c.setSt k .e with data := Line.setSector c.data k (Line.sector m.data k) }
      exec (.stash m) s = s.settling ((e.putLine n key c1).sendMsg
        { kind := .stashAck, agent := m.agent, tag := m.tag, line := m.line, sects := m.sects, ok := true }))) ∧
  (∀ (s : State) (m : Msg) (n : LoomId) (k : Nat), s.dev.live = true → s.dev.arrives m = true → m.agent = .cache n → k < 4 →
    m.sects = (1 : BitVec 4) <<< k →
    let d := s.dev.takeMsg m
    let l := d.loom n
    l.stall = .run →
    (m.kind = .data → m.poison = 0 → l.pend = [(m.tag, m.line, m.sects)] → ∀ key c, l.Holds m.line key c →
      s.dev.fldBit Fld.CACHE_CTRL_WAY_ON n.toNat (key % 8) = true →
      let st : Moesi := if m.own.getLsbD k then .m else if m.excl.getLsbD k then .e else .s
      let c1 : CLine := { c.setSt k st with data := Line.setSector c.data k (Line.sector m.data k), wait := c.wait &&& ~~~m.sects }
      exec (.data m) s = s.settling ((d.setLoom n { l with cache := Fmap.put l.cache key c1, pend := [] }).sendMsg
        { kind := .compAck, agent := m.agent, tag := m.tag, line := m.line, sects := m.sects })) ∧
    (m.kind = .comp → l.pend = [] → ∀ e, l.evict = [e] → e.sent = true → e.tag = m.tag → l.cleanTags = [] → l.findLine m.line = none →
      exec (.comp m) s = s.settling (d.setLoom n { l with evict := [], cleanTags := [] })))

/-- Answers at a home (R175 to R177, R183, R190 to R192): data and acknowledgements close the snoop they answer; CompAck ends the
transaction; a StashAck records the loom that installed, or none; a silent holder's sector is marked, its wing told and the timeout
counted; a refusal arrives; a refused request is sent again with its retry count raised, with a Credit on a reserved tracker. -/
def Obligations.AnswersAtHome : Prop :=
  ∀ (s : State) (m : Msg) (n : LoomId), s.dev.live = true → m.agent = .cache n →
    let d := s.dev.takeMsg m
    let line := m.line.toNat
    (s.dev.arrives m = true → ∀ t x y, d.weave.txns = [(line, t)] → t.waits = [x, y] → x ≠ y → x.tgt = .agent n.toNat → x.line = m.line → x.sects = m.sects →
      x.count = 1 → y.matches n.toNat line = false →
      let acked : Txn := { t with waits := [y], kept := t.kept ||| m.own }
      (m.kind = .recallData → x.kind ≠ .invalidate → exec (.recallData m) s = s.settling (d.setTxn line { t with
        waits := [y], got := t.got ||| m.sects, dirty := t.dirty ||| m.excl, kept := t.kept ||| m.own,
        data := (sectList m.sects).foldl (fun l k => Line.setSector l k (Line.sector m.data k)) t.data }).settleAbsent) ∧
      (m.kind = .recallAck → x.kind ≠ .invalidate → exec (.recallAck m) s = s.settling (d.setTxn line acked).settleAbsent) ∧
      (m.kind = .invAck → x.kind = .invalidate → exec (.invAck m) s = s.settling (d.setTxn line acked).settleAbsent) ∧
      (∀ k, x.sects = (1 : BitVec 4) <<< k → k < 4 → (d.ent line).sec k = ⟨.excl, n.toNat⟩ → x.deadline ≤ s.dev.tick →
        s.dev.weave.txns = [(line, t)] →
        exec (.homeTimeoutExpiry m.line (n.setWidth 13)) s = s.settling
          (((((s.dev.setTxn line { t with waits := [y], dead := t.dead ||| x.sects }).setEnt line ((s.dev.ent line).dropSharer n.toNat)).satAdd
            Fld.CAT_STATS_RECALL_TIMEOUTS (s.dev.home (256 * line)) 1).report (homeSrc (s.dev.home (256 * line)) 1)
            (mkDetail (256 * line) n.toNat 0) (s.dev.extentWing (256 * line))).settleAbsent))) ∧
    (s.dev.arrives m = true → ∀ t, d.txn line = some t →
      (m.kind = .compAck → t.phase = .ack → t.req.src = m.agent →
        exec (.compAck m) s = s.settling ((d.endTxn line).serves line)) ∧
      (m.kind = .stashAck → t.phase = .stash →
        (m.ok = false → exec (.stashAck m) s = s.settling (((d.setEnt line (d.ent line)).endTxn line).serves line)) ∧
        (m.ok = true → ∀ k, m.sects = (1 : BitVec 4) <<< k → k < 4 →
          exec (.stashAck m) s = s.settling (((d.setEnt line ((d.ent line).giveExcl k n.toNat)).endTxn line).serves line)))) ∧
    (s.dev.arrives m = true → m.kind = .retryBusy ∨ m.kind = .retryNoTracker → exec (.retry m) s = s.settling d) ∧
    (∀ r, s.dev.weave.refused = [(r, true)] → r.src = m.agent → s.dev.home (256 * r.line.toNat) = line → m.kind = .credit →
      s.dev.arrives m = true → d.retryComing r = false →
      let again : Req := { r with retries := r.retries + 1, aged := 64 ≤ r.retries + 1, credit := true }
      let e := ({ d with weave := { d.weave with refused := [] } } : Dev).sendReq again
      exec (.credit m) s = s.settling (if e.reqArrives again then e.homeReq again else e)) ∧
    (∀ r, s.dev.weave.refused = [(r, false)] → s.dev.retryComing r = false →
      let again : Req := { r with retries := r.retries + 1, aged := 64 ≤ r.retries + 1, credit := false }
      let e := ({ s.dev with weave := { s.dev.weave with refused := [] } } : Dev).sendReq again
      exec (.lineBusyReissue r.src r.line) s = s.settling (if e.reqArrives again then e.homeReq again else e))

/-! ### The tiers -/

/-- Writes of a home keep the memory of both tiers in its canonical form, and where the line's wing does not allocate in the
atrium a write of one whole sector leaves every byte outside it as it was (R4, R212, R226).
A sector that a home writes to a channel that works and has no known bad pin reads back as written, without poison (R213,
R226, R229). -/
def Obligations.HomeWritesReadBack : Prop :=
  (∀ (d : Dev) (line : Nat) (data : Line) (poison : BitVec 4) (hint : Bool), d.tiers.mem.wf = true →
    (∀ mask, (d.writeLine line mask data poison hint).tiers.mem.wf = true) ∧
    (∀ sects, (d.readLine line sects).2.2.tiers.mem.wf = true) ∧ (∀ sects, (d.poisonLine line sects).tiers.mem.wf = true) ∧
    (∀ k, k < 4 → d.atriumFind (256 * line) = none → d.fld Fld.ATRIUM_WING_ALLOC (d.extentWing (256 * line)) = 0 →
      ∀ a, a < 256 * line + 64 * k ∨ 256 * line + 64 * k + 64 ≤ a →
        (d.writeLine line (fullMask k) data poison hint).tiers.mem.read a = d.tiers.mem.read a)) ∧
  (∀ (d : Dev) (line k : Nat) (data : Line), k < 4 → d.atriumFind (256 * line) = none → d.tiers.mem.wf = true →
    d.fld Fld.ATRIUM_WING_ALLOC (d.extentWing (256 * line)) = 0 → d.fld Fld.MEMINJ_FLIP_ARMED 0 = 0 →
    d.chanFaulted (d.physOf (256 * line + 64 * k)).chanNo = false → d.pinsOf (d.physOf (256 * line + 64 * k)) = [] →
    let y := (d.writeLine line (fullMask k) data 0 false).readLine line ((1 : BitVec 4) <<< k)
    Line.sector y.1 k = Line.sector data k ∧ y.2.1 = 0)

/-- What the tiers do by themselves (R215, R229, R230, R232, R233, R240): a retry is reported as PARITY_RETRY, at its line when it
names one of the channel, and the third that fails makes the channel FAULTED and loses a write; a stack's refresh rate follows
its temperature; a patrol read of a line that it can read is a read of the line, one of a spare frame reads nothing, and both
move the patrol on; the heat counters halve at the end of their period; a write of MEMINJ_FLIP with ARM arms the injection.
Moves of pages and frames (R194, R216, R217, R238): a round with fewer than 4,096 marked lines in every part makes the page
HELD and the register SWITCHING, another one copies the marked lines again, the eighth ends with NO_CONVERGE; the switch copies
the marked lines, makes the destination the page's slot, frees the source and lets the held requests go on; a retirement that no
rotation, release or transaction delays takes its spare frame and records it. -/
def Obligations.TiersByThemselves : Prop :=
  (∀ s : State, s.dev.live = true →
    let d := s.dev
    (∀ (x : RetryIn) (n : Nat), d.chanFaulted x.chan.toNat = false → Fmap.get 0 d.tiers.retries x.chan.toNat = n →
      let a := (x.at_.map BitVec.toNat).filter (fun a => d.populated a && (d.physOf a).chanNo = x.chan.toNat)
      let p := (a.map d.physOf).getD (chanPhys x.chan.toNat)
      let d1 := d.report (memSrc p .parityRetry) (d.memDetail .parityRetry a p false 0 63 63) ((a.map d.extentWing).getD noWing)
      let lost := match a with
        | some a => if x.write then d1.loseWrite a else d1
        | none => d1
      let d2 := ({ lost with tiers := { lost.tiers with retries := Fmap.del lost.tiers.retries x.chan.toNat } } : Dev).setFault x.chan.toNat true
      (exec (.parityRetry x true) s = s.settling
        { d1 with tiers := { d1.tiers with retries := Fmap.del d1.tiers.retries x.chan.toNat } }) ∧
      (n < 2 → exec (.parityRetry x false) s = s.settling
        { d1 with tiers := { d1.tiers with retries := Fmap.put d1.tiers.retries x.chan.toNat (n + 1) } }) ∧
      (n = 2 → d.tiers.rots = [] → exec (.parityRetry x false) s = s.settling
        (d2.report (memSrc (chanPhys x.chan.toNat) .channelFault)
          (d2.memDetail .channelFault none (chanPhys x.chan.toNat) false 0 63 63) noWing))) ∧
    (∀ (k : BitVec 5) (t : Nat), k.toNat < 16 →
      let x := d.fld Fld.REFRESH_STATE_DSP 0
      let put (v : Nat) : Out := s.settling (d.setFld Fld.REFRESH_STATE_DSP 0 (x - x / 4 ^ k.toNat % 4 * 4 ^ k.toNat + v * 4 ^ k.toNat))
      (190 < t → exec (.refreshRateChange false k t) s = put 2) ∧ (t ≤ 164 → exec (.refreshRateChange false k t) s = put 0) ∧
      (170 < t → t ≤ 184 → exec (.refreshRateChange false k t) s = put 1)) ∧
    (∀ (k : BitVec 5) (t : Nat), k.toNat < 24 → exec (.refreshRateChange true k t) s = s.settling
      (if 170 < t then d.orFld Fld.REFRESH_STATE_DEP 0 (2 ^ k.toNat) else d.clrFld Fld.REFRESH_STATE_DEP 0 (2 ^ k.toNat))) ∧
    (let n := Fmap.get 0 d.tiers.patrolPos 0 + 1
      let on (e : Dev) : Out := s.settling (({ e with tiers := { e.tiers with patrolPos := Fmap.put e.tiers.patrolPos 0 n } } : Dev).setFld
        Fld.PATROL_STATUS_DSP_PCT 0 (100 * n / d.tierUnits false))
      d.fld Fld.PATROL_CTRL_DSP_EN 0 = 1 → n < d.tierUnits false →
      exec (.patrolRead false .spare) s = on d ∧
      (∀ a : BitVec 48, d.lineOpen (a.toNat / 256) = true → d.populated a.toNat = true → (d.physOf a.toNat).depot = false →
        d.chanFaulted (d.physOf a.toNat).chanNo = false →
        exec (.patrolRead false (.page a)) s = on (d.dramRead (a.toNat / 64 * 64) true).2.2)) ∧
    (d.tiers.lastHalf + d.fld Fld.TIER_INTERVAL_PERIOD 0 * 1000 ≤ d.tick → exec .tierCounterHalving s = s.settling
      { d with tiers := { d.tiers with heat := d.tiers.heat.map (fun c => (c.1, c.2 / 2)), lastHalf := d.tick } }) ∧
    (∀ v : W64, v.getLsbD 63 = true → v.getLsbD 59 = false → d.served 0 = true → d.barsOn 0 = true → d.frozen 0 = false →
      d.fld Fld.MEMINJ_FLIP_ARMED 0 = 0 → d.stackState (v.toNat / 2 ^ 50 % 16) = 1 →
      d.chanFaulted (32 * (v.toNat / 2 ^ 50 % 16) + v.toNat / 2 ^ 54 % 32) = false →
      exec (.meminjArm 0 v) s = s.settling
        (((d.dropHalf 0 Crd.MEMINJ_FLIP 0).writeCard Crd.MEMINJ_FLIP 0 v.toNat).setFld Fld.MEMINJ_FLIP_ARMED 0 1))) ∧
  (∀ s : State, s.dev.live = true → s.dev.tiers.errs = [] → s.dev.fld Fld.CONS_STATE_DRAINING 0 = 0 →
    let d := s.dev
    (∀ (k : BitVec 4) r, Fmap.find d.tiers.rots k.toNat = some r → d.rotStatus k.toNat = rsCopying →
      let n := d.fld Fld.ROT_STATE_ROUNDS k.toNat + 1
      let d1 := (if n = 1 then d.copyStore r.page r.dst (fun _ => true) else d).setFld Fld.ROT_STATE_ROUNDS k.toNat n
      let few (m : Nat) : Prop := (r.marked.filter (fun l => d.home (r.page * 2 ^ 26 + 256 * l) = m)).length < 4096
      ((∀ m, m < 4 → few m) → exec (.rotationRoundEnd k) s = s.settling
        ((d1.setRotStatus k.toNat rsSwitching).setLoc r.page ⟨.held, r.src⟩)) ∧
      ((∃ m, m < 4 ∧ ¬ few m) → n < 8 → exec (.rotationRoundEnd k) s = s.settling
        ((d1.copyStore r.page r.dst r.marked.contains).setRots (Fmap.put d1.tiers.rots k.toNat { r with marked := [] }))) ∧
      ((∃ m, m < 4 ∧ ¬ few m) → 8 ≤ n → d.tiers.evac = [] →
        exec (.rotationRoundEnd k) s = s.settling (((((d1.setRots (Fmap.del d1.tiers.rots k.toNat)).setLoc r.page ⟨.resident, r.src⟩).setFree
          (d1.tiers.free ++ [r.dst])).setRotStatus k.toNat rsNoConverge).report (homeSrc (d1.home (r.page * 2 ^ 26)) 6)
            (mkDetail (r.page * 2 ^ 26) k.toNat rsNoConverge) (d1.extentWing (r.page * 2 ^ 26))))) ∧
    (∀ (k : BitVec 4) r, Fmap.find d.tiers.rots k.toNat = some r → d.rotStatus k.toNat = rsSwitching →
      d.weave.txns.any (fun t => t.1 / 2 ^ 18 = r.page) = false → d.noFault = true →
      let d1 := (d.copyStore r.page r.dst r.marked.contains).swapErrs r.page r.src r.dst
      let d2 := (d1.setRots (Fmap.del d1.tiers.rots k.toNat)).setLoc r.page ⟨.resident, r.dst⟩
      exec (.rotationSwitch k) s = s.settling
        ((((d2.setFree (d2.tiers.free ++ [r.src])).setRotStatus k.toNat rsDone).releaseHeld r.page).evacPump)) ∧
    (∀ (m : BitVec 2) f sp box, d.tiers.retiring = [⟨m.toNat, [f], sp, box, false⟩] → d.rotUses f = false → d.releaseUses f = false →
      d.weave.txns = [] → d.chanFaulted (if f.depot then 512 + f.chan else f.chan) = false → d.fld Fld.MEMINJ_FLIP_ARMED 0 = 0 →
      d.reg.bg = [] → ∀ i, d.repairSlot = some i →
      let bs : List Nat := [2, if f.depot then 1 else 0, if f.depot then 0 else f.chan / 32, if f.depot then f.chan else f.chan % 32, f.rank,
        f.bank, f.row % 256, f.row / 256 % 256, f.row / 65536 % 256, 0, sp % 256, sp / 256]
      let d1 := (d.repairAdd bs).2
      exec (.retirementSwitch m) s = s.settling
        { d1 with tiers := { d1.tiers with retiring := [], retired := d1.tiers.retired ++ [(f, sp)] } }))

/-! ### Runs of the conservators -/

/-- A run (R242, R255, R258, Tables 10-4 and 10-5), when the lines it touches are to be had (`spansReady`): the region triggered first
takes a free slot, its list is read, x0 to x3 are zero and
its first entry starts; END ends the list; RUN_END sets the counts to 0, opens the region, advances the epoch word and sends the
interrupt; an entry that fails a check of R262 makes its region FAULTED; a run told to stop makes its region FAULTED with the code, an entry's number, a NOTE and the interrupt. -/
def Obligations.RunControl : Prop :=
  ∀ (s : State) (r : BitVec 12), s.dev.live = true →
    let d := s.dev
    let n := d.desc r.toNat 240 4 + 1
    let lo := d.regListAddr r.toNat
    (∀ slot rest, d.runQ = r.toNat :: rest → (List.range 16).find? (fun k => (Fmap.find d.runs k).isNone) = some slot →
      Fmap.find d.rerun r.toNat = none → d.fld Fld.CONS_STATE_DRAINING 0 = 0 → d.spansReady (runWork slot) [(lo, 128 * n)] [] = true →
      let d0 := d.endAsks (runWork slot)
      let d1 : Dev := { (d0.setRgState r.toNat rgRunning).setFld Fld.REGION_STATUS_FAULT r.toNat 0 with
                        runQ := rest, rerun := Fmap.del d.rerun r.toNat }
      let rd := d1.spanRead lo (128 * n)
      let x : Run := { region := r.toNat, entries := (List.range n).map (fun i => BitVec.ofNat 1024 (rd.1 / 2 ^ (1024 * i))) }
      let e0 : Entry := BitVec.ofNat 1024 rd.1
      let y := rd.2.2.setFld Fld.REGION_STATUS_ENTRY r.toNat 0
      (rd.2.1 = [] → y.entryOk (y.regionWing r.toNat) e0 = true → exec (.runStart r) s = s.settling
        (y.setRun slot (Run.entryStart
          { x with s0 := e0.fld 96 0 32, s1 := e0.fld 100 0 32, seed := BitVec.ofNat 64 (e0.fld 96 0 64) } e0))) ∧
      (rd.2.1 = [] → y.entryOk (y.regionWing r.toNat) e0 = false →
        y.spansReady (runWork slot) [] [(y.entryAddr r.toNat 0, 128)] = true →
        exec (.runStart r) s = s.settling
          ((y.spanWrite (y.entryAddr r.toNat 0 + 112) 4 0 [] 0 (y.regionWing r.toNat)).stopRun slot x 2)) ∧
      (rd.2.1 ≠ [] → exec (.runStart r) s = s.settling (rd.2.2.stopRun slot x 3))) ∧
    (∀ slot x e, s.InEntry r 0 slot x e → e.store = false → e.halt = false →
      d.spansReady (runWork slot) [] [(d.entryAddr x.region x.idx, 128)] = true →
      let d0 := d.endAsks (runWork slot)
      exec (.listEnd r) s = s.settling
        ((d0.spanWrite (d.entryAddr x.region x.idx + 112) 4 (x.bits ||| stDone) [] 0 (d.regionWing x.region)).setRun slot
          { x with ended := true })) ∧
    (∀ slot x, d.runOf r.toNat = some (slot, x) → x.ended = true → x.stop = none →
      d.spansReady (runWork slot) [] [(d.regEpochAddr r.toNat, 8)] = true →
      let d0 := d.endAsks (runWork slot)
      let a := d.regEpochAddr r.toNat
      let d1 := (({ d0 with runs := Fmap.del d.runs slot } : Dev).clearCounts r.toNat).setRgState r.toNat rgOpen
      let rd := d1.spanRead a 8
      exec (.runEnd r) s = s.settling
        ((rd.2.2.spanWrite a 8 ((rd.1 + 1) % 2 ^ 64) [] 0 (rd.2.2.regionWing r.toNat)).regionIrq r.toNat)) ∧
    (∀ slot x c, d.runOf r.toNat = some (slot, x) → x.region = r.toNat → x.ended = false → x.stop = some c → c < 16 →
      d.spansReady (runWork slot) [] [(d.entryAddr r.toNat x.idx, 128)] = true →
      (x.entries[x.idx]?).all (fun e => decide (e.op < 9)) = true →
      let d1 := (d.endAsks (runWork slot)).spanWrite (d.entryAddr r.toNat x.idx + 112) 4 x.bits [] 0 (d.regionWing r.toNat)
      let d2 : Dev := { d1 with runs := Fmap.del d1.runs slot, rerun := Fmap.put d1.rerun r.toNat (x.idx, x.xs) }
      let d3 := ((d2.setRgState r.toNat rgFaulted).setFld Fld.REGION_STATUS_FAULT r.toNat c).setFld Fld.REGION_STATUS_ENTRY r.toNat x.idx
      exec (.runAbortStop r) s = s.settling
        ((d3.report (d3.runSrc r.toNat slot) (mkDetail (d3.entryAddr r.toNat x.idx) r.toNat c) (d3.regionWing r.toNat)).regionIrq r.toNat))

/-- Chunks of the byte routines and of the sums (R242, R263, R265, R266), when the lines they touch are to be had: ZERO writes zeros, SNAPSHOT copies with poison kept, NORM2 adds
the squares of 1,024 elements in 64 lanes and a tree to a run scalar, CLIP_APPLY computes its factor and ADAM its S0 and S1 when the
entry starts, CLIP_APPLY scales by that factor, REQUANT quantizes block by block. -/
def Obligations.RoutineChunks : Prop :=
  ∀ (s : State) (r : BitVec 12) (slot m : Nat) (x : Run) (e : Entry),
    let d := s.dev.endAsks (runWork slot)
    let w := d.regionWing x.region
    let next : Run := { x with pos := x.pos + m }
    let lane (vs : List (Cv × Bool)) (l : Nat) : Cv := (List.range 16).foldl (fun (a : Cv) j =>
      match vs[l + 64 * j]? with
      | some v => let b : Cv := if v.2 then (canonNaN .fp32, 0) else v.1; cFma b b a
      | none => a) (0, 0)
    (m = min 65536 (e.n - x.pos) → x.pos + m < e.n → s.dev.chunkReady slot x e m = true →
      (s.InEntry r 1 slot x e → exec (.zero r) s = s.settling
        ((d.spanWrite (e.addr 0 + x.pos) m 0 [] e.place w).setRun slot next)) ∧
      (s.InEntry r 2 slot x e →
        let v := d.spanRead (e.addr 0 + x.pos) m
        let bad := v.2.1.map (fun u => u - e.addr 0 / 64 + e.addr 1 / 64)
        exec (.snapshot r) s = s.settling
          ((v.2.2.spanWrite (e.addr 1 + x.pos) m v.1 bad e.place (v.2.2.regionWing x.region)).setRun slot
            { next with bits := x.bits ||| (if v.2.1.isEmpty then 0 else stPoison) }))) ∧
    (s.dev.MidChunk slot x e m e.n →
      let c := d.chunkIn x e 0 m
      let lost := c.1.any (·.2)
      (s.InEntry r 5 slot x e →
        let part := (Dev.runNorm.tree 6 ((List.range 64).map (lane c.1))).getD 0 (0, 0)
        let old := x.xs.getD e.xdst 0
        let sum := cAdd (old, if cNaN old then stNanIn else 0) part
        exec (.norm2 r) s = s.settling (c.2.setRun slot
          { next with xs := x.xs.set e.xdst sum.1,
                      bits := x.bits ||| sum.2 ||| (if lost then stPoison else 0) })) ∧
      (s.InEntry r 6 slot x e →
        let f := x.xs.getD e.xdst 0
        let out := c.2.chunkOut x e 0 ((List.range m).map (fun i => (cMul (f, 0) (colAt c i).1, (colAt c i).2)))
        let nan := (List.range m).foldl (fun (v : Nat) i => if (colAt c i).2 then v else v ||| (colAt c i).1.2) 0
        exec (.clipApply r) s = s.settling (out.2.setRun slot { next with bits := x.bits ||| nan ||| out.1 }))) ∧
    (e.op = 6 → (x.entryStart e).xs = x.xs.set e.xdst (cMin1 (cDiv (e.p 0) (cAdd (cSqrt (x.gs e)) (e.p 1)))).1) ∧
    (e.op = 9 → (x.entryStart e).s0 = (cMul (x.s0, 0) (e.p 1)).1 ∧ (x.entryStart e).s1 = (cMul (x.s1, 0) (e.p 2)).1) ∧
    (s.InEntry r 10 slot x e →
      let L := fmtBlock (e.fmt 1)
      let bs := (List.range (m / L)).map (fun i => ((x.pos / L + i) / (e.k / L), (x.pos / L + i) % (e.k / L)))
      let out := bs.foldl (fun (a : Run × Dev) p => Dev.requantBlock e p.1 p.2 a) (x, d)
      let rd : List Span := bs.map (fun p => (e.addr 0 + p.1 * e.pitch 0 + p.2 * L * fBytes (e.fmt 0), L * fBytes (e.fmt 0)))
      let wr : List Span := bs.flatMap (fun p => [(e.addr 1 + p.1 * e.pitch 1 + p.2 * L * fmtBits (e.fmt 1) / 8, L * fmtBits (e.fmt 1) / 8),
        (e.addr 2 + p.1 * e.pitch 2 + p.2, 1)])
      m = min 1024 (e.rows * e.k - x.pos) → out.1.pos + m < e.rows * e.k →
      s.dev.spansReady (runWork slot) rd ((d.entryAddr x.region x.idx, 128) :: wr) = true →
      exec (.requant r) s = s.settling (out.2.setRun slot { out.1 with pos := out.1.pos + m }))

/-- Chunks of the element routines (R265): what SCALE, AXPY, SGD_MOMENTUM, LION and ADAM write for each index of a chunk; a lost
input element makes its outputs poison, and STATUS takes the bits of the outputs and NAN_IN of the inputs that are there (R269). -/
def Obligations.RoutineElements : Prop :=
  ∀ (s : State) (r : BitVec 12) (slot m : Nat) (x : Run) (e : Entry), s.dev.MidChunk slot x e m e.n →
    let c0 := (s.dev.endAsks (runWork slot)).chunkIn x e 0 m
    let c1 := c0.2.chunkIn x e 1 m
    let c2 := c1.2.chunkIn x e 2 m
    let gs := x.gs e
    let a (i : Nat) := (colAt c0 i).1
    let b (i : Nat) := (colAt c1 i).1
    let c (i : Nat) := (colAt c2 i).1
    let lost2 (i : Nat) : Bool := (colAt c0 i).2 || (colAt c1 i).2
    let lost3 (i : Nat) : Bool := (colAt c0 i).2 || (colAt c1 i).2 || (colAt c2 i).2
    let vals (y : Run) (d : Dev) (k : Nat) (f : Nat → Cv) (lost : Nat → Bool) : Nat × Dev :=
      d.chunkOut y e k ((List.range m).map (fun i => (f i, lost i)))
    let nan (cols : List (List (Cv × Bool) × Dev)) : Nat := (List.range m).foldl (fun (v : Nat) i =>
      cols.foldl (fun (v : Nat) c => if (colAt c i).2 then v else v ||| (colAt c i).1.2) v) 0
    let goes (y : Run) (d : Dev) (bits : Nat) : Out := s.settling (d.setRun slot { y with pos := y.pos + m, bits := bits })
    (s.InEntry r 3 slot x e →
      let o := vals x c0.2 1 (fun i => cMul (cMul (e.p 0) gs) (a i)) (fun i => (colAt c0 i).2)
      exec (.scale r) s = goes x o.2 (x.bits ||| nan [c0] ||| o.1)) ∧
    (s.InEntry r 4 slot x e →
      let o := vals x c1.2 1 (fun i => cFma (cMul (e.p 0) gs) (a i) (b i)) lost2
      exec (.axpy r) s = goes x o.2 (x.bits ||| nan [c0, c1] ||| o.1)) ∧
    (s.InEntry r 7 slot x e →
      let g (i : Nat) := cFma (e.p 4) (a i) (cMul (c i) gs)
      let mm (i : Nat) := cFma (e.p 1) (b i) (g i)
      let st (i : Nat) := if e.fld 1 1 1 = 1 then cFma (e.p 1) (mm i) (g i) else mm i
      let o := vals x c2.2 0 (fun i => cFma (cNeg (e.p 0)) (st i) (a i)) lost3
      let q := vals x o.2 1 mm lost3
      exec (.sgdMomentum r) s = goes x q.2 (x.bits ||| nan [c0, c1, c2] ||| o.1 ||| q.1)) ∧
    (s.InEntry r 8 slot x e →
      let g (i : Nat) := cMul (c i) gs
      let cc (i : Nat) := cFma (e.p 1) (b i) (cMul (cSub cOne (e.p 1)) (g i))
      let o := vals x c2.2 0 (fun i => cFma (a i) (cSub cOne (cMul (e.p 0) (e.p 4))) (cNeg (cMul (e.p 0) (cSign (cc i))))) lost3
      let q := vals x o.2 1 (fun i => cFma (e.p 2) (b i) (cMul (cSub cOne (e.p 2)) (g i))) lost3
      exec (.lion r) s = goes x q.2 (x.bits ||| nan [c0, c1, c2] ||| o.1 ||| q.1)) ∧
    (s.InEntry r 9 slot x e →
      let c3 := c2.2.chunkIn x e 3 m
      let lost (i : Nat) : Bool := lost3 i || (colAt c3 i).2
      let f1 := cDiv (e.p 0) (cSub cOne (x.s0, 0))
      let f2 := cDiv cOne (cSub cOne (x.s1, 0))
      let g (i : Nat) := cMul (colAt c3 i).1 gs
      let mm (i : Nat) := cFma (e.p 1) (b i) (cMul (cSub cOne (e.p 1)) (g i))
      let v (i : Nat) := cFma (e.p 2) (c i) (cMul (cSub cOne (e.p 2)) (cMul (g i) (g i)))
      let den (i : Nat) := cAdd (cSqrt (cMul (v i) f2)) (e.p 3)
      let o := vals x c3.2 0 (fun i => cFma (a i) (cSub cOne (cMul (e.p 0) (e.p 4))) (cNeg (cMul f1 (cDiv (mm i) (den i))))) lost
      let p := vals x o.2 1 mm lost
      let q := vals x p.2 2 v lost
      exec (.adam r) s = goes x q.2 (x.bits ||| nan [c0, c1, c2, c3] ||| o.1 ||| p.1 ||| q.1))

/-! ### Translation -/

/-- Writes of the translation block (R288, R290, R291, R294, R295): TRANS_ROOT takes its fields, and a lower half that the head
held for it is gone; FQ_BASE also sets both indices of the
queue to 0; FQ_CONS is reduced modulo the ring; INV_CTRL.GO removes the range's translations and waits for the accesses in progress,
is rejected while one runs, and ends at once for an empty range; the completion clears BUSY and counts DONE_SEQ. -/
def Obligations.TranslationWrites : Prop :=
  ∀ (s : State) (h : HeadId), s.dev.live = true →
    let d := s.dev
    let w := d.headWing h
    (d.Writes h .trans w →
      (∀ v : W64, exec (.transRootWrite h v) s = s.settling ((d.dropHalf h Crd.TRANS_ROOT w).writeCard Crd.TRANS_ROOT w v.toNat)) ∧
      (∀ v : W64, d.trans.recs = [] →
        let d1 := (d.dropHalf h Crd.FQ_BASE w).writeCard Crd.FQ_BASE w v.toNat
        exec (.fqBaseWrite h v) s = s.settling (((d1.setFld Fld.FQ_BASE_SIZE w (min 6 (d1.fld Fld.FQ_BASE_SIZE w))).setFld
          Fld.FQ_PROD_PROD w 0).setFld Fld.FQ_CONS_CONS w 0)) ∧
      (∀ v : W32, d.trans.recs = [] →
        exec (.fqConsWrite h v) s = s.settling (d.setFld Fld.FQ_CONS_CONS w (v.toNat % 2 ^ 12 % d.fqSize w))) ∧
      (∀ v : W32, v.getLsbD 31 = true → v.getLsbD 29 = false →
        let lo := d.fld Fld.INV_BASE_VA w * (64 * MiB)
        let pages := d.fld Fld.INV_SIZE_PAGES w
        let hi := min (lo + pages * (64 * MiB)) (2 ^ 56)
        let d1 := (d.dropTrans w lo hi).setFld Fld.INV_CTRL_BUSY w 1
        let x : Inval := { wing := BitVec.ofNat 4 w, tags := d.wingTags w, stores := d.wingStores w lo hi }
        (d.fld Fld.INV_CTRL_BUSY w = 1 → exec (.invalidationStart h v) s = s.settling (d.setFld Fld.INV_CTRL_REJECTED w 1)) ∧
        (d.fld Fld.INV_CTRL_BUSY w ≠ 1 → pages = 0 → exec (.invalidationStart h v) s = s.settling (d.invalDone w)) ∧
        (d.fld Fld.INV_CTRL_BUSY w ≠ 1 → pages ≠ 0 → exec (.invalidationStart h v) s = s.settling
          { d1 with trans := { d1.trans with inval := d1.trans.inval ++ [x] } }))) ∧
    (∀ (w : WingId) x, d.trans.inval = [x] → x.wing = w → d.invAcked x = true →
      let d1 : Dev := { d with trans := { d.trans with inval := [] } }
      exec (.invalidationComplete w) s = s.settling ((d1.setFld Fld.INV_CTRL_BUSY w.toNat 0).setFld Fld.INV_CTRL_DONE_SEQ w.toNat
        (d.fld Fld.INV_CTRL_DONE_SEQ w.toNat + 1)))

/-- A page walk (R275 to R278, R280, R281, R286): three entries are read through their homes and the valid pointers enter the page-walk
cache; the walker is free again; a leaf enters the caches of the engine that waits, which goes on; an entry that is not valid stalls the engine on a record
that is written to the fault queue. -/
def Obligations.PageWalks : Prop :=
  (∀ (d d2 d1 d0 : Dev) (wk : Work) (die w va : Nat) (e2 e1 e0 : W64),
    let root := d.fld Fld.TRANS_ROOT_ROOT w * 2 ^ 15
    let k2 := va / 2 ^ 44 % 4096
    let k1 := 2 ^ 24 + va / 2 ^ 32 % 2 ^ 24
    let a2 := root + 8 * k2
    let a1 := pteAddr e2 + 8 * (va / 2 ^ 32 % 4096)
    let a0 := pteAddr e1 + 8 * (va / 2 ^ 26 % 64)
    let reads (y : Dev) (a : Nat) : Prop := y.canRead wk (a / 256) (setBit4 0 (a / 64 % 4)) = true
    d.fld Fld.TRANS_ROOT_ENABLE w = 1 → d.inWing w root 32768 = true → d.pwcFind die w k2 = none → reads d a2 →
    d.read8 a2 = (some e2, d2) → d2.checkPointer w 2 a2 e2 = none →
    (d2.pwcAdd die w k2 e2).pwcFind die w k1 = none → reads (d2.pwcAdd die w k2 e2) a1 →
    (d2.pwcAdd die w k2 e2).read8 a1 = (some e1, d1) → (pteValid e1 && pteLeaf e1) = false → d1.checkPointer w 1 a1 e1 = none →
    reads (d1.pwcAdd die w k1 e1) a0 → (d1.pwcAdd die w k1 e1).read8 a0 = (some e0, d0) →
    (pteValid e0 = false → d.walk wk die w va = (.fault ⟨.notPresent, 0, a0⟩, d0)) ∧
    (pteValid e0 = true → pteLeaf e0 = false → d.walk wk die w va = (.fault ⟨.malformed, 0, a0⟩, d0)) ∧
    (pteValid e0 = true → pteLeaf e0 = true → checkLeaf 0 false a0 e0 = none → d.walk wk die w va = (.leaf false e0, d0))) ∧
  (∀ (s : State) (x : Walk) (d1 : Dev), s.dev.live = true → s.dev.trans.walks = [x] → x.on.isSome = true →
    d1.trans.walks = [x] → s.dev.engineDie x.engine = d1.engineDie x.engine →
    let w := x.wing.toNat
    let walked := s.dev.walk (s.dev.walkWork x) (s.dev.engineDie x.engine) w x.va.toNat
    let d2 : Dev := { d1.endAsks (d1.walkWork x) with trans := { d1.trans with walks := [] } }
    (∀ big l, walked = (.leaf big l, d1) → exec (.pageWalk x.engine) s = s.settling
      ((d2.tlbFill x.engine ⟨x.wing, x.va.toNat / pageBytes big * pageBytes big, big, l⟩).unstall x.engine)) ∧
    (∀ f, walked = (.fault f, d1) → x.kind ≠ .hint → f.cause = .notPresent →
      let y := (d2.unstall x.engine).stallEngine x.engine
      let t := y.freshTag w
      let r : FRec := { (d2.unstall x.engine).mkRec x.engine w x.va x.kind false f with tag := t }
      let z : Dev := { y with trans := { y.trans with recs := [r], nextTag := Fmap.put y.trans.nextTag w t } }
      y.trans.recs = [] → z.fqOpen w = true → z.fqLine w = true → exec (.pageWalk x.engine) s = s.settling
        { z.fqWrite r true with trans := { (z.fqWrite r true).trans with
            recs := updateIf (fun q : FRec => q.wing = r.wing && q.tag = r.tag) (fun q => { q with written := true })
              (z.fqWrite r true).trans.recs } }))

/-- What ends a stalled access (R282, R283, R286, R287, R336): RETRY lets the engines of a record go on and DENY stops a treadle with
ACCESS_DENIED; an engine whose timer ran out leaves its record, and a treadle stops with TRANSLATION_TIMEOUT; an ATS completion
fills the ATC with no more than the leaf's page, a refusal faults with HOST_FAULT, a missing one also logs a Completion Timeout,
one that answers no request logs an Unexpected Completion; an ATS invalidation drops the
matching entries and is answered. -/
def Obligations.StalledAccesses : Prop :=
  ∀ (s : State) (h : HeadId) (n : LoomId) (w : WingId), s.dev.live = true →
    let d := s.dev
    let idle : Dev := { d with trans := { d.trans with recs := [] } }
    let go (x : Dev) : Dev := if (d.loom n).stall = .walk then x.setLoom n { d.loom n with stall := .run } else x
    (∀ r : FRec, ∀ at_, d.trans.recs = [r] → r.wing = w → r.written = true → r.engines = [(.treadle n, at_)] → d.trans.unrecorded = [] →
      d.headWing h = w.toNat → d.Writes h .trans w.toNat → r.tag < 2 ^ 16 →
      (∀ v : W32, v.getLsbD 31 = true → v.toNat % 2 ^ 16 = r.tag →
        (v.getLsbD 28 = false → exec (.faultResume h v) s = s.settling (go idle)) ∧
        (v.getLsbD 28 = true → exec (.faultResume h v) s = s.settling ((go idle).stop n .accessDenied))) ∧
      (at_ ≤ d.tick → d.trans.walks = [] → d.trans.ats = [] →
        exec (.translationFaultTimeout (.treadle n)) s = s.settling ((go idle).stop n .translationTimeout))) ∧
    (∀ q : AtsReq, d.trans.ats = [q] → q.head = h → q.sent = true →
      let d0 : Dev := { d with trans := { d.trans with ats := [] } }
      let d1 := d0.unstall q.engine
      (∀ (iova target : BitVec 64) (size : Nat) (may : Bool), iova.toNat / 4096 * 4096 = q.iova → (may = true ∨ q.write = false) →
        let all := max 4096 size
        let sz := if q.page = 0 then all else min all q.page
        let a : Atc := ⟨h, q.iova / sz * sz, sz, target.toNat / all * all + q.iova / sz * sz % all, may⟩
        exec (.atsTranslationCompletion h iova true target size may) s = s.settling { d1 with trans := { d1.trans with
          atc := setAdd (sameAtcSet a) d1.trans.atc a } }) ∧
      (∀ iova : BitVec 64, iova.toNat / 4096 * 4096 = q.iova →
        let k : AccKind := if q.write then .store else .load
        let f : TrFault := ⟨.hostFault, 7, h.toNat * 2 ^ 60 + q.iova + q.va.toNat % 4096⟩
        let r := d1.mkRec q.engine q.wing.toNat q.va k (decide (q.page = pageBytes true)) f
        (∀ (target : BitVec 64) size may, exec (.atsTranslationCompletion h iova false target size may) s =
          s.settling ((d1.stallEngine q.engine).joinRec r)) ∧
        exec (.completionTimeout h iova) s = s.settling (((d1.stallEngine q.engine).joinRec r).aer h .completionTimeout))) ∧
    (∀ (iova target : BitVec 64) (ok : Bool) (size : Nat) (may : Bool), d.trans.ats = [] → d.served h = true →
      exec (.atsTranslationCompletion h iova ok target size may) s = s.settling (d.aer h .unexpected true)) ∧
    (∀ (iova : BitVec 64) (size : Nat) (itag : BitVec 5), (d.head h).up = true → (d.head h).cxl = true → (d.head h).atsInv = [] →
      (d.head h).outs = [] → (d.head h).waiting = [] →
      let d1 : Dev := { d with trans := { d.trans with atc := d.trans.atc.filter (fun a =>
        !(a.head = h && decide (a.iova < iova.toNat + size) && decide (iova.toNat < a.iova + a.size))) } }
      exec (.atsInvalidationRequest h iova size itag) s = s.settling (((d1.setHead h (d1.head h)).send (.atsInvDone h itag.toNat))))

/-! ### Couriers and BAR 2 -/

/-- Writes of a queue's registers and of WINDOW_BASE (R300, R313 to R316): a doorbell in the ring sets SQ_TAIL and wakes a fetch that
waits for it, one beyond the ring only sets BAD_DOORBELL; an enable of a disabled queue checks the bases and resets the indices, or
sets CONFIG_ERR; a disable of a queue with no descriptor in progress clears ENABLE; CQ_HEAD is reduced modulo the ring and clears
CQ_FULL; clearing HEAD_RESET lets fetches resume; WINDOW_BASE takes a window's base and shows in ERR whether it lies in a range.
BAR 2 (R313), with no request under way: an access in the enabled window to the wing's memory becomes a ReadOnce or a Write of its
bytes up to the end of the line; the disabled window reads zero and ignores writes; an access inside one line outside the wing reads
zero, is not written and raises a NOTE; a poisoned write is an error of the head. -/
def Obligations.QueueRegistersAndWindow : Prop :=
  (∀ (s : State) (h : HeadId) (q9 : BitVec 9), s.dev.live = true →
    let d := s.dev
    let q := q9.toNat
    let z := d.queue q
    (d.Writes h .doorbell q →
      (∀ v : BitVec 12, (d.sqSize q ≤ v.toNat → exec (.doorbell h q9 v) s = s.settling (d.setFld Fld.QUEUE_STATUS_BAD_DOORBELL q 1)) ∧
        (v.toNat < d.sqSize q → z.fetch ≠ .doorbell → exec (.doorbell h q9 v) s = s.settling (d.setFld Fld.SQ_TAIL_TAIL q v.toNat)) ∧
        (v.toNat < d.sqSize q → z.fetch = .doorbell → exec (.doorbell h q9 v) s = s.settling
          ((d.setFld Fld.SQ_TAIL_TAIL q v.toNat).setQueue q { z with fetch := .idle }))) ∧
      (∀ v : BitVec 12, exec (.cqHeadWrite h q9 v) s = s.settling
        ((d.setFld Fld.CQ_HEAD_HEAD q (v.toNat % d.cqSize q)).setFld Fld.QUEUE_STATUS_CQ_FULL q 0)) ∧
      exec (.headResetClear h q9) s = s.settling (d.setFld Fld.QUEUE_STATUS_HEAD_RESET q 0) ∧
      (∀ v : W32,
        let d0 := if d.fld Fld.QUEUE_CTRL_ENABLE q = 0 then d.setFld Fld.QUEUE_CTRL_DSIZE q (v.toNat / 2 ^ 30 % 2) else d
        let d1 := ((d0.setFld Fld.QUEUE_CTRL_PRIO q (min (v.toNat / 2 ^ 28 % 4) (d0.fld Fld.WING_RES_PRIO_MAX (d0.qWing q)))).setFld
          Fld.QUEUE_CTRL_ERR_IRQ q (v.toNat / 2 ^ 27 % 2)).setFld Fld.QUEUE_CTRL_VECTOR q (v.toNat / 2 ^ 8 % 2 ^ 8)
        let base (k a hd : Field) (n : Nat) (ring : Bool) : Prop :=
          d1.baseOk q (d1.fld k q) (d1.fld hd q) (d1.fld a q / n) ring = true
        let ok : Prop := d1.fld Fld.QUEUE_BIND_VALID q = 1 ∧ base Fld.SQ_BASE_KIND Fld.SQ_BASE_ADDR Fld.SQ_BASE_HEAD 1 true ∧
          base Fld.CQ_BASE_KIND Fld.CQ_BASE_ADDR Fld.CQ_BASE_HEAD 1 true ∧
          base Fld.CPL_FLAG_KIND Fld.CPL_FLAG_ADDR Fld.CPL_FLAG_HEAD 512 false
        (v.getLsbD 31 = true → d.fld Fld.QUEUE_CTRL_ENABLE q = 0 → ok → exec (.queueEnable h q9 v) s = s.settling
          ((((((((((d1.setFld Fld.SQ_HEAD_HEAD q 0).setFld Fld.SQ_TAIL_TAIL q 0).setFld Fld.CQ_HEAD_HEAD q 0).setFld
            Fld.CQ_TAIL_TAIL q 0).setFld Fld.COMPLETED_COUNT q 0).setFld Fld.CQ_TAIL_PHASE q 1).setFld
            Fld.QUEUE_STATUS_EXPECT_PHASE q 1).setFld Fld.QUEUE_STATUS_CQ_FULL q 0).setFld Fld.QUEUE_CTRL_ENABLE q 1).setQueue q
            { z with fetch := .idle, courier := none })) ∧
        (v.getLsbD 31 = true → d.fld Fld.QUEUE_CTRL_ENABLE q = 0 → ¬ ok →
          exec (.queueEnable h q9 v) s = s.settling (d1.setFld Fld.QUEUE_STATUS_CONFIG_ERR q 1)) ∧
        (v.getLsbD 31 = false → d.fld Fld.QUEUE_CTRL_ENABLE q = 1 → z.cur = none → z.courier = none →
          exec (.queueDisable h q9 v) s = s.settling ((d1.setQueue q { z with fetch := .idle }).setFld Fld.QUEUE_CTRL_ENABLE q 0)))) ∧
    (d.Writes h .headCtl h.toNat → ∀ v : W64,
      let e := d.dropHalf h Crd.WINDOW_BASE h.toNat
      let b := v.toNat / 2 ^ 26 % 2 ^ 22
      exec (.windowBaseWrite h v) s = s.settling ((e.setFld Fld.WINDOW_BASE_BASE h.toNat b).setFld Fld.WINDOW_BASE_ERR h.toNat
        (if e.windowOff b then 1 else 0)))) ∧
  (∀ (s : State) (h : HeadId) (tag : Nat) (off : BitVec 29) (len data : Nat), s.dev.live = true → s.dev.served h = true →
    s.dev.barsOn h = true →
    let d := s.dev
    let x := d.head h
    let a := d.fld Fld.WINDOW_BASE_BASE h.toNat * 64 * MiB + off.toNat
    let o := a % 256
    let k := min len (256 - o)
    let d1 := d.setHead h x
    let r (write : Bool) : BarReq := { htag := tag, write := write, dpa := a, len := len, data := if write then data else 0, off := false }
    exec (.bar2Write h tag true off len data) s = s.settling (d.aer h .poisonedTlp) ∧
    (d.frozen h = false → x.bar2Q = [] → x.mem.any (·.bar2) = false →
      (d.windowOff (d.fld Fld.WINDOW_BASE_BASE h.toNat) = true →
        exec (.bar2Read h tag off len) s = s.settling (d1.send (.bar2Data h tag 0 false)) ∧
        exec (.bar2Write h tag false off len data) s = s.settling d1) ∧
      (d.windowOff (d.fld Fld.WINDOW_BASE_BASE h.toNat) = false → 1 ≤ len → d.wingMay (d.headWing h) a = false → o + len ≤ 256 →
        exec (.bar2Read h tag off len) s = s.settling ((d1.refused h a).send (.bar2Data h tag 0 false)) ∧
        exec (.bar2Write h tag false off len data) s = s.settling (d1.refused h a)) ∧
      (d.windowOff (d.fld Fld.WINDOW_BASE_BASE h.toNat) = false → 1 ≤ len → d.wingMay (d.headWing h) a = true →
        exec (.bar2Read h tag off len) s = s.settling ((d.setHead h { x with bar2Q := [r false] }).headReq h tag true o k
          { kind := .readOnce, src := .head h, tag := 0, line := BitVec.ofNat 40 (a / 256), sects := runSects o k }) ∧
        exec (.bar2Write h tag false off len data) s = s.settling ((d.setHead h { x with bar2Q := [r true] }).headReq h tag true o k
          { kind := .write, src := .head h, tag := 0, line := BitVec.ofNat 40 (a / 256), sects := runSects o k,
            data := BitVec.ofNat 2048 (data % 2 ^ (8 * k) * 2 ^ (8 * o)), mask := runMask o k }))))

/-- Fetches of a slot (R298, R301): of two waiting queues, an X-die gives its free courier, an inbound one if it has one, to the one of
the higher level, or of one level to the one served longer ago; the courier reads the slot of a ring in device memory by a ReadOnce of 64
bytes, or two; when its last bytes are there, a slot whose phase and check pass is accepted by a courier of its direction and
advances SQ_HEAD, and one that fails, or whose bytes are poisoned, is read again after 1 to 128 µs, and after eight re-fetches
waits for a doorbell with DOORBELL_EARLY. -/
def Obligations.SlotFetches : Prop :=
  (∀ (s : State) (x : XDie) (c : BitVec 6), s.dev.live = true →
    let d := s.dev
    (d.freeCourier x.toNat false = some c ∨ (d.freeCourier x.toNat false = none ∧ d.freeCourier x.toNat true = some c)) →
    ∀ a b, (List.range 512).filter (d.qWaits x) = [a, b] →
      let gets (q : Nat) : Out := s.settling (d.newOp.2.setQueue q { d.queue q with courier := some c, served := d.opSeq + 1 })
      (d.fld Fld.QUEUE_CTRL_PRIO a < d.fld Fld.QUEUE_CTRL_PRIO b → exec (.queueSchedule x) s = gets b) ∧
      (d.fld Fld.QUEUE_CTRL_PRIO b < d.fld Fld.QUEUE_CTRL_PRIO a → exec (.queueSchedule x) s = gets a) ∧
      (d.fld Fld.QUEUE_CTRL_PRIO a = d.fld Fld.QUEUE_CTRL_PRIO b → (d.queue b).served < (d.queue a).served →
        exec (.queueSchedule x) s = gets b) ∧
      (d.fld Fld.QUEUE_CTRL_PRIO a = d.fld Fld.QUEUE_CTRL_PRIO b → (d.queue a).served ≤ (d.queue b).served →
        exec (.queueSchedule x) s = gets a)) ∧
  (∀ (s : State) (q9 : BitVec 9) (c : BitVec 6) (d0 : Dev) (n : Nat) (cmd : Instr), s.dev.live = true →
    let d := s.dev
    let q := q9.toNat
    let base := d0.fld Fld.SQ_BASE_ADDR q * 4096 + d0.fld Fld.SQ_HEAD_HEAD q * d0.slotBytes q
    let t := d0.weave.nextTag
    let sent (e : Dev) (k : Nat) : Dev := e.newTag.2.sendReq
      { kind := .readOnce, src := .courier c, tag := e.weave.nextTag, line := BitVec.ofNat 40 ((base + k) / 256),
        sects := setBit4 0 ((base + k) / 64 % 4), wing := BitVec.ofNat 4 (d0.qWing q) }
    (d.queue q).cur = none → d.qReady q = true →
    ((cmd = .fetchSlot q9 ∧ n = 0 ∧ d0 = d ∧ (d.queue q).courier = some c ∧ (d.queue q).fetch = .idle) ∨
      (cmd = .slotRefetch q9 ∧ (∃ t, t ≤ d.tick ∧ (d.queue q).fetch = .backoff n t) ∧
        ((d0 = d ∧ (d.queue q).courier = some c) ∨
          ((d.queue q).courier = none ∧ d.nextQueue (BitVec.ofNat 2 (d.qXdie q)) = some q ∧ d.anyCourier (d.qXdie q) = some c ∧
            d0 = d.giveCourier q c)))) →
    d0.fld Fld.SQ_BASE_KIND q = 0 → d0.wingMay (d0.qWing q) base = true → d0.range base = .memory →
    (d0.fld Fld.QUEUE_CTRL_DSIZE q ≠ 1 → exec cmd s = s.settling
      ((sent d0 0).setQueue q { d0.queue q with fetch := .read n [(t, 0)] 0 })) ∧
    (d0.fld Fld.QUEUE_CTRL_DSIZE q = 1 → exec cmd s = s.settling
      ((sent (sent d0 0) 64).setQueue q { d0.queue q with fetch := .read n [(t, 0), (t + 1, 64)] 0 }))) ∧
  (∀ (s : State) (m : Msg) (q n k got : Nat) (c : BitVec 6), s.dev.live = true → m.kind = .data → s.dev.arrives m = true →
    m.agent = .courier c →
    let d := s.dev.takeMsg m
    let z := d.queue q
    (∀ p ∈ d.queues, (∀ o ∈ p.2.outs, o.tag ≠ m.tag) ∧
      ∀ y ∈ p.2.rest, y.phase ≠ .record (some m.tag) ∧ y.phase ≠ .flag (some m.tag)) →
    d.queues.find? (fun p => match p.2.fetch with | .read _ ts _ => ts.any (fun t => t.1 = m.tag) | _ => false) = some (q, z) →
    z.fetch = .read n [(m.tag, k)] got →
    let sec := (List.range 4).foldl (fun (v : Nat) k => v ||| (Line.sector m.data k).toNat) 0
    let bytes : List Byte := (List.range (d.slotBytes q)).map (fun i => BitVec.ofNat 8 ((got + sec * 2 ^ (8 * k)) / 256 ^ i))
    let passes := slotPasses bytes (d.fld Fld.QUEUE_STATUS_EXPECT_PHASE q = 1)
    (m.poison ≠ 0 ∨ passes = false → n < 8 → exec (.data m) s = s.settling
      (d.setQueue q { z with courier := none, fetch := .backoff (n + 1) (d.tick + 2 ^ n) })) ∧
    (m.poison ≠ 0 ∨ passes = false → 8 ≤ n → exec (.data m) s = s.settling
      ((d.setQueue q { z with courier := none, fetch := .doorbell }).setFld Fld.QUEUE_STATUS_DOORBELL_EARLY q 1)) ∧
    (m.poison = 0 → passes = true →
      let head := d.fld Fld.SQ_HEAD_HEAD q
      let y : Desc := { id := d.opSeq, slot := head, bytes := bytes, courier := 0 }
      let d2 := d.setQueue q { z with courier := none, fetch := .idle }
      ∀ c2 out, d.descOutbound q y = some out → d2.freeCourier (d.qXdie q) out = some c2 → (head + 1) % d.sqSize q ≠ 0 →
        exec (.data m) s = s.settling ((d2.newOp.2.setFld Fld.SQ_HEAD_HEAD q ((head + 1) % d.sqSize q)).setQueue q
          { z with courier := none, fetch := .idle, cur := some { y with courier := c2 } })))

/-- Descriptors that move data in this package (R296, R304, R305, Table 12-3): a descriptor that breaks a rule of Table 12-3 ends
INVALID when it begins, NOP is issued at once, COPY and REDUCE_FORWARD read the next chunk of their source, WRITE_INLINE, FILL and
FLAG_WRITE write the rest of their bytes to one line of their destination and are issued; a courier has at most 128 reads and 128
writes outstanding. -/
def Obligations.DataDescriptors : Prop :=
  ∀ (s : State) (q9 : BitVec 9) (x : Desc),
    let d := s.dev
    let q := q9.toNat
    let z := d.queue q
    let wing : WingId := BitVec.ofNat 4 (d.qWing q)
    (∀ o ∈ z.outs, o.own = x.id → o.read = false ∧ o.clear = false) →
    (∀ p ∈ [(Instr.courierNop q9, 0), (.copy q9, 1), (.writeInline q9, 2), (.fill q9, 3), (.flagWrite q9, 4), (.reduceForward q9, 5),
        (.launch q9, 6), (.runRegion q9, 7)],
      s.Runs q p.2 x → x.begun = false → (d.descOk (d.qWing q) x && d.placesOk q x) = false → exec p.1 s = s.settling
        (d.setQueue q { z with cur := none, rest := z.rest ++ [{ (x.endWith 1) with stopAt := some 0, begun := true }] })) ∧
    (s.Runs q 0 x → x.begun = false → d.descOk (d.qWing q) x = true → (x.pos ≠ 0 ∨ outbound x.courier = false) →
      exec (.courierNop q9) s = s.settling
        (d.setQueue q { z with cur := none, rest := z.rest ++ [{ x with begun := true, phase := .issued }] })) ∧
    (∀ src dst al red, d.courierCount x.courier true < 128 → d.Lands q x (x.num 8 8) false src al →
      d.Lands q x (x.num 16 8) true dst red →
      let n := min (min (x.len - x.pos) (if x.op = 5 then 64 else x.len)) (min (256 - src % 256) (256 - dst % 256))
      let e := (d.countCourier q (x.num 8 8) x.pos).countCourier q (x.num 16 8) x.pos
      let o : COut := { tag := e.weave.nextTag, own := x.id, off := x.pos, len := n, read := true, path := .device, src := src, dst := dst,
                        clear := decide (x.op = 5) && (x.num 28 1).testBit 0, reduce := red, place := BitVec.ofNat 14 x.place,
                        courier := x.courier }
      let r : Req := { kind := .readOnce, src := .courier x.courier, tag := e.weave.nextTag, line := BitVec.ofNat 40 (src / 256),
                       sects := runSects (src % 256) n, wing := wing }
      let reads : Out := s.settling ((e.newTag.2.sendReq r).setQueue q
        { z with outs := z.outs ++ [o], cur := some { x with pos := x.pos + n } })
      (s.Performs q 1 x → exec (.copy q9) s = reads) ∧
      (s.Performs q 5 x → red = true → d.populated src = true → exec (.reduceForward q9) s = reads)) ∧
    (∀ t red, d.courierCount x.courier false < 128 → d.Lands q x (x.num 8 8) true t red →
      let n := x.len - x.pos
      let e := d.countCourier q (x.num 8 8) x.pos
      let o : COut := { tag := e.weave.nextTag, own := x.id, off := x.pos, len := n, read := false, path := .device, dst := t, reduce := red,
                        place := BitVec.ofNat 14 x.place, courier := x.courier }
      let k : ReqKind := if red then .reduceWrite else .write
      let r (v : Line) : Req := { kind := k, src := .courier x.courier, tag := e.weave.nextTag, line := BitVec.ofNat 40 (t / 256),
                                  sects := runSects (t % 256) n, data := v, mask := runMask (t % 256) n, wing := wing,
                                  place := BitVec.ofNat 14 x.place }
      let writes (v : Line) : Out := s.settling ((e.newTag.2.sendReq (r v)).setQueue q
        { z with outs := z.outs ++ [o], cur := none, rest := z.rest ++ [{ x with pos := x.pos + n, phase := .issued }] })
      n ≤ 256 - t % 256 →
      (s.Performs q 2 x → exec (.writeInline q9) s = writes (placeLine (x.num (24 + x.pos) n) (t % 256))) ∧
      (s.Performs q 3 x → exec (.fill q9) s = writes (BitVec.ofNat 2048 ((List.range n).foldl (fun (v : Nat) i =>
        v + (x.num 16 8 / 256 ^ ((x.num 8 8 + x.pos + i) % 8) % 256) * 2 ^ (8 * (t % 256 + i))) 0))) ∧
      (s.Performs q 4 x → exec (.flagWrite q9) s = writes (placeLine (x.num 16 8) (t % 256))))

/-- Launches and region triggers, once the writes of earlier descriptors are final (R112, R114, R254, R306, R307, Table 4-11): LAUNCH
reads its bitmap by parts, starts the looms of its set when none is busy, waits while one is, and is refused with its reason;
LAUNCH_LOOMS_START starts a waiting launch whose looms are free; RUN_REGION makes an OPEN region of its wing WAITING and is refused
for any other. A loom that a launch enters on an awake tile is RUNNING at the entry, holds its arguments in t1 to t4 and zero in
t0 and t5 upward, has no tallies and an empty inbox, and keeps its SCRATCH; other looms keep everything. -/
def Obligations.LaunchesAndTriggers : Prop :=
  (∀ (s : State) (q9 : BitVec 9) (x : Desc),
    let d := s.dev
    let q := q9.toNat
    let z := d.queue q
    let g : Option Nat := if (x.num 28 1).testBit 7 then some (x.num 28 1 % 64) else none
    let set : List LoomId := if x.num 32 8 = 0 then (List.range (x.num 26 2)).map (fun i => BitVec.ofNat 12 (x.num 24 2 + i))
      else ((List.range 4096).filter (fun i => x.bits.testBit i)).map (BitVec.ofNat 12)
    let x1 : Desc := { x with looms := set }
    let d1 := d.setQueue q { z with cur := some x1 }
    let refused (y : Desc) (r : Nat) : CQueue :=
      { z with cur := none, rest := z.rest ++ [{ (y.endWith 8) with result := r }] }
    (∀ o ∈ z.outs, o.own = x.id → o.read = false) → z.fenced x = true →
    (s.Performs q 6 x → (x.num 32 8 = 0 ∨ 512 ≤ x.pos) → set ≠ [] →
      (∀ r, d1.launchRefused (d.qWing q) set g = some r → exec (.launch q9) s = s.settling (d.setQueue q (refused x1 r))) ∧
      (d1.launchRefused (d.qWing q) set g = none → set.any d1.launchBusy = true → exec (.launch q9) s = s.settling
        (d.setQueue q { z with cur := some { x1 with phase := .launchWait } })) ∧
      (d1.launchRefused (d.qWing q) set g = none → set.any d1.launchBusy = false →
        exec (.launch q9) s = s.settling (d1.launchStart q x1))) ∧
    (s.Performs q 6 x → x.num 32 8 ≠ 0 → x.pos < 512 →
      let a := x.num 32 8 + x.pos
      let n := min (512 - x.pos) (256 - a % 256)
      let o : COut := { tag := d.weave.nextTag, own := x.id, off := x.pos, len := n, read := true, path := .device, src := a,
                        courier := x.courier }
      d.wingMay (d.qWing q) a = true → d.range a = .memory → exec (.launch q9) s = s.settling
        ((d.newTag.2.sendReq { kind := .readOnce, src := .courier x.courier, tag := d.weave.nextTag, line := BitVec.ofNat 40 (a / 256),
                               sects := runSects (a % 256) n, wing := BitVec.ofNat 4 (d.qWing q) }).setQueue q
          { z with outs := z.outs ++ [o], cur := some { x with pos := x.pos + n } })) ∧
    (s.Performs q 7 x →
      let r := x.num 8 2
      (d.regionWing r ≠ d.qWing q → exec (.runRegion q9) s = s.settling (d.setQueue q (refused x 5))) ∧
      (d.regionWing r = d.qWing q → d.rgState r ≠ rgOpen → exec (.runRegion q9) s = s.settling (d.setQueue q (refused x 4))) ∧
      (d.regionWing r = d.qWing q → d.rgState r = rgOpen → exec (.runRegion q9) s = s.settling
        ((d.triggerRegion r).setQueue q { z with cur := none, rest := z.rest ++ [{ x with phase := .issued }] })))) ∧
  (∀ (s : State) (q9 : BitVec 9) (x : Desc), s.dev.live = true → (s.dev.queue q9.toNat).cur = some x → x.phase = .launchWait →
    s.dev.launchRefused (s.dev.qWing q9.toNat) x.looms (if (x.num 28 1).testBit 7 then some (x.num 28 1 % 64) else none) = none →
    x.looms.any s.dev.launchBusy = false → exec (.launchLoomsStart q9) s = s.settling (s.dev.launchStart q9.toNat x)) ∧
  (∀ (d : Dev) (entry arg size rank : Nat) (g : Option Nat) (n m : LoomId), d.fld Fld.TILE_STATE_STATE (loomTile n.toNat) = 3 →
    let e := d.enterLoom entry arg size g rank n
    let l := e.loom n
    e.loomState n = stRunning ∧ l.pc = BitVec.ofNat 56 entry ∧ l.reg 1 = BitVec.ofNat 64 arg ∧ l.reg 2 = BitVec.ofNat 64 rank ∧
    l.reg 3 = BitVec.ofNat 64 size ∧ l.reg 4 = n.setWidth 64 ∧ (∀ r : Reg, r = 0 ∨ 4 < r.toNat → l.reg r = 0) ∧ l.tally = [] ∧
    l.inbox = 0 ∧ l.stall = .run ∧ l.scratch = (d.loom n).scratch ∧ (m ≠ n → e.loom m = d.loom m))

/-- Completion (R308, R309, R311, R316): a descriptor without record and flag is counted and leaves; a record is written at CQ_TAIL
in device memory by its courier once the writes to that memory are final, and CQ_TAIL and COMPLETED go on; a full ring stops the queue
with CQ_FULL; after its record, a descriptor without a flag raises its interrupt and leaves; a wait for writes that a path broken for 2 ms
has lost ends INDETERMINATE. -/
def Obligations.Completions : Prop :=
  ∀ (s : State) (q9 : BitVec 9), s.dev.live = true →
    let d := s.dev
    let q := q9.toNat
    let z := d.queue q
    let cnt := (d.fld Fld.COMPLETED_COUNT q + 1) % 2 ^ 64
    z.cur = none →
    (∀ x more, z.rest = x :: more → x.phase = .issued →
      (x.status = 0 → x.irq = false → x.flag = false → x.crec = false → z.final x none = true →
        exec (.descriptorComplete q9) s = s.settling ((d.setFld Fld.COMPLETED_COUNT q cnt).setQueue q { z with rest := more })) ∧
      (x.crec = true ∨ x.status ≠ 0 → z.final x (some (d.recPath q)) = true → d.cqRoom q = false →
        exec (.descriptorComplete q9) s = s.settling (d.setFld Fld.QUEUE_STATUS_CQ_FULL q 1)) ∧
      (x.crec = true ∨ x.status ≠ 0 → z.final x (some .device) = true → d.cqRoom q = true → d.recPath q = .device →
        x.dropped = false →
        let tail := d.fld Fld.CQ_TAIL_TAIL q
        let a := d.fld Fld.CQ_BASE_ADDR q * 4096 + 16 * tail
        let v := x.num 4 4 + x.slot % 2 ^ 12 * 2 ^ 32 + x.status * 2 ^ 48 + d.fld Fld.CQ_TAIL_PHASE q * 2 ^ 63 +
          z.resultOf { x with count := cnt } % 2 ^ 64 * 2 ^ 64
        d.wingMay (d.qWing q) a = true → (tail + 1) % d.cqSize q ≠ 0 →
        let d1 := d.newTag.2.sendReq
          { kind := .write, src := .courier x.courier, tag := d.weave.nextTag, line := BitVec.ofNat 40 (a / 256),
            sects := runSects (a % 256) 16, data := placeLine v (a % 256), mask := runMask (a % 256) 16,
            wing := BitVec.ofNat 4 (d.qWing q) }
        let d2 := (d1.setFld Fld.CQ_TAIL_TAIL q ((tail + 1) % d.cqSize q)).setFld Fld.COMPLETED_COUNT q cnt
        exec (.descriptorComplete q9) s = s.settling (d2.setQueue q
          { z with rest := { x with count := cnt, phase := .record (some d.weave.nextTag) } :: more }))) ∧
    (∀ x more, z.rest = x :: more → x.phase = .record none → x.flag = false →
      let d1 := (if x.status ≠ 0 then d.setFld Fld.QUEUE_STATUS_ERROR q 1 else d).setQueue q { z with rest := more }
      exec (.descriptorComplete q9) s = s.settling
        (if x.irq = true ∨ (x.status ≠ 0 ∧ d.fld Fld.QUEUE_CTRL_ERR_IRQ q = 1) then
          d1.interrupt (d.qHead q) (d.fld Fld.QUEUE_CTRL_VECTOR q) else d1)) ∧
    (let old (o : COut) : Bool := match o.lostAt with | some t => t + 2000 ≤ d.tick | none => false
     let lost : CQueue := { z with outs := z.outs.filter old }
     let waits (x : Desc) : Bool := !lost.final x
       (if x.crec ∨ x.status ≠ 0 then some (d.recPath q) else if x.flag then some (d.flagPath q) else none)
     exec (.completionWaitExpiry q9) s = s.settling (d.setQueue q
       { z with outs := z.outs.filter (fun o => !old o),
                rest := z.rest.map (fun x => if x.phase = .issued ∧ (x.status = 0 ∨ x.status = 4) ∧ waits x = true
                  then { x with status := 6 } else x) }))
/-! ### The host port -/

/-- CXL.mem and CXL.cache at a head (R192, R303, R321 to R323, R339, R342): a request that decodes goes to its home, a refused read
returns poison and a refused write its Cmp with a NOTE; a frozen head does the same; a write of the recorded owner answers an open
snoop, any other goes to the home as a WriteBack; back-invalidate responses become RecallAck; host data and GO end the oldest request
when they answer it; a host snoop is answered RspIHitI; poisoned data is an event of the head's RAS capability first. -/
def Obligations.HostMemoryRequests : Prop :=
  ∀ (s : State) (h : HeadId) (tag : Nat) (hpa mask : BitVec 64) (data : Sector) (poison : Bool), s.dev.live = true →
    s.dev.memHead h = true →
    let d := s.dev
    let x := d.head h
    let goes (off len : Nat) (r : Req) : Out := s.settling (d.headReq h tag false off len r)
    let w := if poison then d.rasEvent h false 5 else d
    (w.frozen h = true ∨ w.hdmDpa h hpa.toNat = none →
      exec (.memWr h tag hpa mask data poison) s = s.settling ((w.refused h hpa.toNat).send (.memCmp h tag))) ∧
    (w.frozen h = false → ∀ a, w.hdmDpa h hpa.toNat = some a →
      let k := a / 64 % 4
      let m : BitVec 256 := mask.setWidth 256 <<< (64 * k)
      let p : BitVec 4 := if poison then setBit4 0 k else 0
      let mine : Prop := ((w.ent (a / 256)).sec k).st = .excl ∧ ((w.ent (a / 256)).sec k).owner = 4096 + h.toNat
      (mine → w.snoopOpen h (a / 256) k = true → exec (.memWr h tag hpa mask data poison) s = s.settling
        ((w.sendMsg { kind := .recallData, agent := .head h, tag := 0, line := BitVec.ofNat 40 (a / 256), sects := setBit4 0 k,
                      data := Line.setSector 0 k data, excl := setBit4 0 k, poison := p, mask := m }).send (.memCmp h tag))) ∧
      (¬ mine ∨ w.snoopOpen h (a / 256) k = false → exec (.memWr h tag hpa mask data poison) s = s.settling
        (w.headReq h tag false (64 * k) 64
          { kind := .writeBack, src := .head h, tag := 0, line := BitVec.ofNat 40 (a / 256), sects := setBit4 0 k,
            data := Line.setSector 0 k data, mask := m, poison := p }))) ∧
    (d.frozen h = true →
      (∀ k, exec (.memRd h tag hpa k) s = s.settling (d.send (.memData h tag 0 true))) ∧
      exec (.memClnEvct h tag hpa) s = s.settling (d.send (.memCmp h tag))) ∧
    (d.frozen h = false → d.hdmDpa h hpa.toNat = none →
      exec (.memRd h tag hpa .noOp) s = s.settling ((d.refused h hpa.toNat).send (.memData h tag 0 true)) ∧
      (d.weave.sweeping.getLsbD h.toNat = false → ∀ k,
        exec (.memRd h tag hpa k) s = s.settling ((d.refused h hpa.toNat).send (.memData h tag 0 true))) ∧
      exec (.memClnEvct h tag hpa) s = s.settling ((d.refused h hpa.toNat).send (.memCmp h tag))) ∧
    (d.frozen h = false → ∀ a, d.hdmDpa h hpa.toNat = some a →
      let k := a / 64 % 4
      let line := BitVec.ofNat 40 (a / 256)
      let rd (kind : ReqKind) : Req := { kind := kind, src := .head h, tag := 0, line := line, sects := setBit4 0 k }
      exec (.memRd h tag hpa .noOp) s = goes (a % 256 / 64 * 64) 64 (rd .readOnce) ∧
      (d.weave.sweeping.getLsbD h.toNat = false →
        exec (.memRd h tag hpa .data) s = goes (a % 256 / 64 * 64) 64 (rd .readShared) ∧
        exec (.memRd h tag hpa .inv) s = goes (a % 256 / 64 * 64) 64 (rd .readOwn)) ∧
      (d.weave.sweeping.getLsbD h.toNat = true → exec (.memRd h tag hpa .inv) s = s.settling
        (d.setHead h { x with memWait := x.memWait ++ [⟨tag, hpa.toNat, .inv⟩] })) ∧
      exec (.memClnEvct h tag hpa) s = s.settling ((d.sendReq { rd .cleanEvict with wing := BitVec.ofNat 4 (d.headWing h) }).send
        (.memCmp h tag))) ∧
    (∀ (line : BitVec 40) (k : BitVec 2) (shared : Bool), exec (.biRsp h line k shared) s = s.settling (d.sendMsg
      { kind := .recallAck, agent := .head h, tag := 0, line := line, sects := setBit4 0 k.toNat,
        own := if shared then setBit4 0 k.toNat else 0 })) ∧
    exec (.hostSnoop h) s = s.settling (d.send (.snpRsp h)) ∧
    (∀ r more, x.outs = r :: more → r.tag = tag →
      let ends (y : Dev) : Dev := (y.setHead h { y.head h with outs := eraseOne r (y.head h).outs }).showNp h
      let k := r.addr / 64 % 4
      (r.op ≠ .rdCurr → exec (.go h tag) s = s.settling ((ends d).answerAgent r.src tag {})) ∧
      (r.op = .rdCurr → exec (.rdCurrData h tag data poison) s = s.settling ((ends (if poison then d.rasEvent h false 4 else d)).answerAgent r.src tag
        { data := Line.setSector 0 k (if poison then 0 else data), poison := if poison then setBit4 0 k else 0 })))

/-- Configuration requests, the expansion ROM, Bus Master Enable and interrupts of a head (R324, R328 to R331): reads return the
dword or Request Retry Status; a write of the command register or a base address register takes effect; a ROM read returns its
bytes; clearing Bus Master Enable quiesces the head and breaks the path after 10 ms, setting it sends what waited; an unmasked
vector is sent once; clearing the last INTx bit of an asserted INTA deasserts it. -/
def Obligations.HeadRegisters : Prop :=
  ∀ (s : State) (h : HeadId), s.dev.live = true → s.dev.served h = true →
    let d := s.dev
    let x := d.head h
    (∀ o : BitVec 12,
      (x.rrs = true → exec (.configRead h o) s = s.settling (d.send (.cfgRetry h))) ∧
      (x.rrs = false → exec (.configRead h o) s = s.settling (d.send (.cfgData h (d.cfgDword h (o.toNat / 4 * 4))))) ∧
      (∀ be v, x.rrs = true → exec (.configWrite h o be v) s = s.settling (d.send (.cfgRetry h)))) ∧
    (x.rrs = false → ∀ v : W32,
      exec (.configWrite h 0x18 15 v) s = s.settling (d.setHead h { x with bars := Fmap.put x.bars 2 (v.toNat / (512 * MiB) * (512 * MiB)) }) ∧
      exec (.configWrite h 0x108 15 v) s = s.settling (d.setHead h { x with uncMask := v &&& 0x10577010 }) ∧
      exec (.configWrite h 0x104 15 v) s = s.settling (d.setHead h { x with uncStatus := x.uncStatus &&& ~~~v })) ∧
    (∀ (o : BitVec 20) (len : Nat),
      (d.barsOn h = true → exec (.expansionRomRead h o len) s = s.settling
        (d.send (.romData h ((List.range len).map (fun i => d.romByte h (o.toNat + i)))))) ∧
      (d.barsOn h = false → exec (.expansionRomRead h o len) s = s.settling ((d.aer h .unsupported true).send (.unsupported h)))) ∧
    (x.bme = true → exec (.busMasterEnableClear h) s = s.settling
      ((d.setHead h { x with bme := false, bmeOff := some d.tick }).setFld Fld.HEAD_STATUS_MASTER_QUIESCED h.toNat 1)) ∧
    (x.bme = false →
      let d1 := d.setHead h { x with bme := true, bmeOff := none, bmeBroken := false, outs := x.outs ++ x.waiting, waiting := [] }
      let d2 := ((x.waiting.foldl (fun d r => d.send (.cacheReq h r)) d1).atsResume h).setFld Fld.HEAD_STATUS_MASTER_QUIESCED h.toNat 0
      exec (.busMasterEnableSet h) s = s.settling (((d2.healPath h).showNp h).flushIrqs h)) ∧
    (∀ t, x.bmeOff = some t → t + 10000 ≤ d.tick →
      exec (.bmeTimeout h) s = s.settling ((d.setHead h { x with bmeOff := none, bmeBroken := true }).breakPath h)) ∧
    (∀ v : BitVec 8, x.msixEn = true → exec (.interruptUnmask h v) s = s.settling
      ((d.setHead h { x with msix := Fmap.put x.msix v.toNat (x.msixEntry v.toNat &&& ~~~((1 : BitVec 128) <<< 96)) }).flushIrqs h)) ∧
    (∀ v : BitVec 8, x.msixEn = false → exec (.interruptUnmask h v) s = s.settling
      ((d.setHead h { x with msiMask := x.msiMask &&& ~~~((1 : BitVec 32) <<< (v.toNat % 32)) }).flushIrqs h)) ∧
    (d.Writes h .headCtl h.toNat → x.inta = true → ∀ m : W64,
      let d1 := (d.dropHalf h Crd.HEAD_INT_PENDING h.toNat).clrFld Fld.HEAD_INT_PENDING_PEND h.toNat m.toNat
      (d1.fld Fld.HEAD_INT_PENDING_PEND h.toNat = 0 → exec (.intxPendingClear h m) s = s.settling
        ((d1.setHead h { d1.head h with inta := false }).send (.deassertInta h))) ∧
      (d1.fld Fld.HEAD_INT_PENDING_PEND h.toNat ≠ 0 → x.intxOff = false → d.fld Fld.HEAD_STATUS_FLR_ACTIVE h.toNat = 0 →
        exec (.intxPendingClear h m) s = s.settling d1))

/-- Head events (R193, R332 to R335, R338 to R340, Table 13-7): PERST_N, a hot reset and a link loss break the path, reset the
function's fields, mark the head ABSENT and preserve its wing; an FLR does so without the catalogue, after its queues have stopped; a
freeze keeps the fields; a release and a link that comes up at a width and speed of the head undo the marks; a sweep of one line in
which the head held one sector poisons it and reports at every home. -/
def Obligations.HeadEvents : Prop :=
  (∀ (d : Dev) (h : HeadId), (d.head h).outs = [] → (d.head h).waiting = [] → (∀ q ∈ d.trans.ats, q.head ≠ h) →
    (∀ c ∈ d.looms, c.2.stb = []) → d.breakPath h =
      ((d.setHead h { d.head h with brokenAt := d.tick }).setFld Fld.HEAD_STATUS_PATH_BROKEN h.toNat 1).setFld
        Fld.HEAD_STATUS_NP_OUTSTANDING h.toNat 0) ∧
  (∀ (s : State) (h : HeadId), s.dev.live = true →
    let d := s.dev
    let x := d.head h
    let fields (l : List Card) (y : Dev) : Dev := l.foldl (fun (z : Dev) c => z.resetCard c (· = h.toNat)) y
    let gone (y : Dev) : Dev :=
      let y := y.breakPath h
      let z := (y.head h).resetFn
      let y := fields (headCards ++ flrCards) (y.setHead h { z with
        up := false, cxl := false, mem := (z.mem.filter (·.bar2)).map (fun m => { m with gone := true }), memWait := [],
        flrAt := none, rrs := !y.reg.running, hdm := [], bar2Q := z.bar2Q.filter (·.write) })
      let y := (y.setFld Fld.HEAD_STATUS_FLR_ACTIVE h.toNat 0).setFld Fld.HEAD_STATUS_MASTER_QUIESCED h.toNat 0
      let y := (y.homeQueues h).foldl Dev.queueHeadReset ((y.headGone h).mbDiscard h)
      y.preserveWing (y.headWing h)
    (x.up = true → exec (.hotReset h) s = s.settling (gone d) ∧
      exec (.linkDown h) s = s.settling (gone (d.report (headSrc h 3) (mkDetail 0 h.toNat 0) (d.headWing h)))) ∧
    (∀ k : BitVec 3, d.pins.rstN = true → d.pins.perstN.getLsbD k.toNat = true → d.pinHeads k.toNat = [h] →
      let y := gone { d with pins := { d.pins with perstN := d.pins.perstN &&& ~~~((1 : BitVec 8) <<< k.toNat) } }
      exec (.perstN k) s = s.showing (y.setHead h (y.head h).resetErr)) ∧
    (d.served h = true → d.fld Fld.HEAD_STATUS_FLR_ACTIVE h.toNat ≠ 1 →
      let f := ((d.homeQueues h).foldl Dev.queueFlr ((d.setFld Fld.HEAD_STATUS_FLR_ACTIVE h.toNat 1).mbDiscard h)).breakPath h
      let f : Dev := { f with trans := { f.trans with atc := f.trans.atc.filter (fun a => a.head ≠ h) } }
      let f := fields flrCards (f.setHead h { (f.head h).resetFn with rrs := true, flrAt := some f.tick, inta := (f.head h).inta })
      let f := f.setFld Fld.HEAD_STATUS_MASTER_QUIESCED h.toNat 0
      exec (.flr h) s = s.settling ((f.driveInta h).preserveWing (f.headWing h))) ∧
    (d.fld Fld.HEAD_STATUS_FLR_ACTIVE h.toNat = 1 → exec (.flrComplete h) s = s.settling
      ((((d.setFld Fld.HEAD_STATUS_FLR_ACTIVE h.toNat 0).setHead h { x with rrs := !d.reg.running, flrAt := none }).healPath h).driveInta h)) ∧
    (d.personality h ≠ 0 → x.up = false → d.pins.perstN.getLsbD (h.toNat / 2) = true → d.frozen h = false →
      ∀ (cxl : Bool) (width : BitVec 6) (speed : BitVec 4), width.toNat ∈ [1, 2, 4, 8, 16] →
        (width.toNat ≤ 8 ∨ d.bifur.getLsbD (h.toNat / 2) = false) → speed.toNat ∈ [4, 5, 6] → exec (.headLinkUp h cxl width speed) s = s.settling
        (((d.setHead h { x with up := true, cxl := cxl, width := width.toNat, speed := speed.toNat }).headPresent h).healPath h)) ∧
    (d.Writes h .headCtl h.toNat → d.frozen h = false → exec (.freeze h) s = s.settling
      (let f := (d.setFld Fld.HEAD_STATUS_FROZEN h.toNat 1).setFld Fld.HEAD_STATUS_FREEZE_CAUSE h.toNat 3
       ((f.breakPath h).headGone h).preserveWing (f.headWing h))) ∧
    (d.Writes h .headCtl h.toNat → d.frozen h = true → d.fld Fld.HEAD_STATUS_FREEZE_CAUSE h.toNat ≠ 1 → exec (.release h) s = s.settling
      (let f := (d.setFld Fld.HEAD_STATUS_FROZEN h.toNat 0).setFld Fld.HEAD_STATUS_FREEZE_CAUSE h.toNat 0
       ((f.homeQueues h).foldl Dev.queueHeadReset ((f.headPresent h).healPath h)).flushIrqs h)) ∧
    (d.weave.sweeping.getLsbD h.toNat = true → x.memWait = [] → ∀ line e k, d.weave.cat = [(line, e)] →
      (List.range 4).filter (fun j => (e.sec j).st = .excl && (e.sec j).owner = 4096 + h.toNat) = [k] →
      let d1 := d.poisonLine line (setBit4 0 k)
      let d2 := d1.setEnt line (((d1.ent line).dropSharer (4096 + h.toNat)).drop k)
      let d3 := (List.range 4).foldl (fun (y : Dev) m => y.report (homeSrc m 2)
        ((if d.home (256 * line) = m then 1 else 0) % 2 ^ 48 * 2 ^ 80 + h.toNat * 2 ^ 64) noWing) d2
      let d4 : Dev := { d3 with weave := { d3.weave with sweeping := d3.weave.sweeping &&& ~~~((1 : BitVec 16) <<< h.toNat) } }
      let d5 := (d4.setFld Fld.HEAD_STATUS_SWEEP_PENDING h.toNat 0).headPresent h
      exec (.catalogueSweepComplete h) s = s.settling (d5.setHead h { d5.head h with memWait := [] })))

/-! ### Ikiquel links and the job group -/

/-- Flits of a port (R348, R351 to R353, R356, R362, R364): a flit whose CRC fails is counted, reported and answered by NAK; the next
payload flit in order is delivered and acknowledged; the replay timer sends again; a bad lane starts a width change or, with too
few lanes, breaks the link; the change ends with a resend; a break empties the port and ends its requests.
Training (R346, R363, R365): a port whose partner matches comes up in the next epoch with its buffers empty and full credits; a
wrong partner makes it MISWIRED and a failure DOWN, both reported; a failed port tries again after 1 s, a broken one after 1 ms
while AUTO_RETRAIN is set.
The epoch of R363: the first value above the larger of the two, modulo 256, that equals neither. -/
def Obligations.LinkFlitsAndTraining : Prop :=
  (∀ (s : State) (q : PortId), s.dev.live = true →
    let d := s.dev
    let p := d.port q
    let k := q.toNat
    let brk : Dev :=
      let y := d.setPort q { p with outs := [], queue := [], replay := [], rx := [], starved := [], resends := 0,
                                    brokenAt := some d.tick, failedAt := none }
      let y := ((y.setFld Fld.IKQ_PORT_STATE k psDown).setFld Fld.IKQ_PORT_LANES_UP k 0).satAdd Fld.IKQ_ERR_BREAKS k 1
      ((p.outs ++ p.queue).filter (fun i => i.own.isSome)).foldl (fun (y : Dev) i =>
        let y := y.report (portSrc k 3) (mkDetail i.m.off.toNat i.m.src.toNat 0) i.m.wing.toNat
        match i.own with
        | some (a, tag) => y.answerAgent a tag { lost := true, poison := 15 }
        | none => y) ((y.report (portSrc k 2) (mkDetail 0 k 0) noWing).discardStores
          (fun x => x = .peer (BitVec.ofNat 3 (d.fld Fld.IKQ_PORT_PEER k))))
    (d.portUp q = true →
      exec (.laneLockLoss q) s = s.settling brk ∧
      ((∃ i ∈ p.outs, i.since ≤ d.tick) → exec (.txnTimeout q) s = s.settling brk) ∧
      ((∃ c ∈ p.starved, c.2 ≤ d.tick) → d.portState q = psUp → exec (.creditTimeout q) s = s.settling brk) ∧
      (∀ raw crc bulk ctl,
        let f (lo n : Nat) : Nat := ((raw : BitVec 1984).extractLsb' lo n).toNat
        (flitCrc raw ≠ crc → exec (.flitReceive q raw crc bulk ctl) s = s.settling
          (((d.satAdd Fld.IKQ_ERR_CRC_ERRORS k 1).report (portSrc k 0) (mkDetail 0 k 0) noWing).sendNak q)) ∧
        (flitCrc raw = crc → f 38 2 = 0 → f 33 3 = 7 → f 21 3 = 7 → f 36 2 = 0 → f 52 12 = p.nextRx.toNat → p.rx = [] →
          let slots := (List.range 15).map (fun i => raw.extractLsb' (64 + 128 * i) 128)
          exec (.flitReceive q raw crc bulk ctl) s = s.settling
            ((((d.setPort q { p with nextRx := p.nextRx + 1, rx := slots, rxBulk := bulk }).cutSlots q bulk 40).sendIdle q).pump q)) ∧
        (flitCrc raw = crc → f 38 2 = 0 → f 33 3 = 7 → f 21 3 = 7 → f 36 2 = 1 →
          exec (.flitReceive q raw crc bulk ctl) s = s.settling (d.pump q)))) ∧
    (∀ f more, p.replay = f :: more → d.portState q = psUp → f.due < d.tick → p.resends < 7 →
      let due := d.tick + d.fld Fld.IKQ_TIMERS_REPLAY_TIMER 0
      let y := d.setPort q { p with resends := p.resends + 1, lastResend := some (f.seq, due) }
      exec (.replayTimerExpiry q) s = s.settling
        (((y.satAdd Fld.IKQ_ERR_REPLAYS k 1).report (portSrc k 0) (mkDetail 0 k 1) noWing).sendAgain q f.seq)) ∧
    (∀ lane : BitVec 3, d.portState q = psUp → (d.fld Fld.IKQ_PORT_LANES_UP k).testBit lane.toNat = true →
      let y := (d.clrFld Fld.IKQ_PORT_LANES_UP k (2 ^ lane.toNat)).orFld Fld.IKQ_PORT_LANES_BAD k (2 ^ lane.toNat)
      max 1 (d.fld Fld.IKQ_CTRL_MIN_LANES 0) ≤ ((List.range 8).filter (fun i => (y.fld Fld.IKQ_PORT_LANES_UP k).testBit i)).length →
      let z := (y.send (.width q lane)).setPort q { p with widthAt := d.tick }
      exec (.laneBad q lane) s = s.settling (((z.setFld Fld.IKQ_PORT_STATE k psWidth).satAdd Fld.IKQ_ERR_WIDTH_CHANGES k 1).report
        (portSrc k 1) (mkDetail 0 k 0) noWing)) ∧
    (∀ f more, d.portState q = psWidth → p.replay = f :: more →
      let y := d.setPort q { p with starved := Fmap.mapAll (fun _ t => t + (d.tick - p.widthAt)) p.starved }
      exec (.widthChangeComplete q) s = s.settling (((y.setFld Fld.IKQ_PORT_STATE k psUp).sendAgain q f.seq).pump q))) ∧
  ((∀ (s : State) (q : PortId), s.dev.live = true →
    let d := s.dev
    let p := d.port q
    let k := q.toNat
    let begun := (d.setFld Fld.IKQ_PORT_STATE k psTraining).setPort q { p with brokenAt := none, failedAt := none }
    let wrong := d.report (portSrc k 1) (mkDetail 0 k 1) noWing
    (∀ t : TrainMsg, d.portState q = psTraining →
      let up := (List.range 8).foldl (fun (v : Nat) i =>
        if t.lanes.testBit i && !(d.fld Fld.IKQ_PORT_LANES_BAD k).testBit i then v + 2 ^ i else v) 0
      let enough : Prop := max 1 (d.fld Fld.IKQ_CTRL_MIN_LANES 0) ≤ ((List.range 8).filter (fun i => up.testBit i)).length
      (t.ok = true → enough → t.self = d.fld Fld.IKQ_PORT_PEER k → t.expects = d.fld Fld.IKQ_CTRL_SELF 0 →
        exec (.linkTrainingComplete q t) s = s.settling
          ((((d.setPort q { inq := p.inq, serve := p.serve }).setFld Fld.IKQ_PORT_EPOCH k
            (nextEpoch (d.fld Fld.IKQ_PORT_EPOCH k) (t.epoch % 256))).setFld Fld.IKQ_PORT_STATE k psUp).setFld Fld.IKQ_PORT_LANES_UP k up)) ∧
      (t.ok = true → enough → (t.self ≠ d.fld Fld.IKQ_PORT_PEER k ∨ t.expects ≠ d.fld Fld.IKQ_CTRL_SELF 0) →
        exec (.linkTrainingComplete q t) s = s.settling (wrong.setFld Fld.IKQ_PORT_STATE k psMiswired)) ∧
      ((t.ok = false ∨ ¬ enough) → exec (.linkTrainingComplete q t) s = s.settling
        ((wrong.setFld Fld.IKQ_PORT_STATE k psDown).setPort q { p with failedAt := some d.tick, brokenAt := none }))) ∧
    (∀ t, p.failedAt = some t → d.portState q = psDown → t + 1000000 ≤ d.tick → exec (.trainingRetry q) s = s.settling begun) ∧
    (∀ t, p.brokenAt = some t → d.portState q = psDown → d.fld Fld.IKQ_CTRL_AUTO_RETRAIN 0 = 1 → t + 1000 ≤ d.tick →
      exec (.autoRetrain q) s = s.settling begun)) ∧
  (∀ a b : Nat, a < 256 → b < 256 → nextEpoch a b < 256 ∧ nextEpoch a b ≠ a ∧ nextEpoch a b ≠ b ∧
    (nextEpoch a b = (max a b + 1) % 256 ∨ nextEpoch a b = (max a b + 2) % 256)))

/-- Messages of a peer (R360, R363, R366, R367): a request that its window entry allows goes to the home of its target for the owner's
wing; a refused one is answered DENIED with a NOTE; a response of the current epoch ends its request, one of another epoch is
discarded; every message's slots are given back.
The job group (R369, R370, R426, R469): the lead takes limits and acknowledgements, a member schedules a newer commit; at its
time the package runs at the point; each side repeats its message every 1 ms; a member without commits for 10 ms leaves lock; on
the lock ring the lead sends its limit, a member lowers and forwards it, a commit is forwarded with 36 µs less, and a limit that
does not return breaks the ring. -/
def Obligations.PeerAndJobGroupMessages : Prop :=
  (∀ (s : State) (q : PortId) (m : PMsg), s.dev.live = true → m ∈ (s.dev.port q).inq →
    let d := s.dev
    let p := d.port q
    let d1 := (d.setPort q { p with inq := eraseOne m p.inq }).oweSlots q m.vc.toNat m.slotCount
    let denied : Out := s.settling (((d1.report (portSrc q.toNat 3) (mkDetail m.off.toNat m.src.toNat 2) noWing).denyPeer q m).pump q)
    let serve (a : Nat) (al : Bool) (owner : Nat) (f : Req → Req) : Out :=
      let y := d1.newTag.2
      let y := y.setPort q { y.port q with serve := (y.port q).serve ++ [(d1.weave.nextTag, m)] }
      let r : Req := { kind := .readOnce, src := .port q, tag := d1.weave.nextTag,
                       line := BitVec.ofNat 40 ((if al then aliasBase + a else a) / 256), sects := runSects (a % 256) m.len.toNat,
                       wing := BitVec.ofNat 4 owner }
      s.settling ((y.sendReq (f r)).pump q)
    (m.opc = opcRd →
      (d1.peerTarget q m .read = none → exec (.rd q m) s = denied) ∧
      (∀ a al w, d1.peerTarget q m .read = some (a, al, w) → exec (.rd q m) s = serve a al w id)) ∧
    (m.opc = opcAtom →
      (d1.peerTarget q m .atomic = none → exec (.atom q m) s = denied) ∧
      (∀ a al w, d1.peerTarget q m .atomic = some (a, al, w) → exec (.atom q m) s = serve a al w (fun r =>
        { r with kind := .atomic (atomOpOf m.attr), sects := (1 : BitVec 4) <<< (a / 64 % 4), off := BitVec.ofNat 8 (a % 256),
                 wide := m.wide, opnd := m.data.extractLsb' 0 64, cmp := m.data.extractLsb' 64 64 }))) ∧
    (d.inOrder q m = true →
      (m.opc = opcWr → ∀ a al w, d1.peerTarget q m .write = some (a, al, w) → exec (.wr q m) s = serve a al w (fun r =>
        { r with kind := .write, data := m.data <<< (8 * (a % 256)), mask := runMask (a % 256) m.len.toNat, poison := m.attr })) ∧
      (m.opc = opcWrm → ∀ a al w, d1.peerTarget q m .write = some (a, al, w) → exec (.wrm q m) s = serve a al w (fun r =>
        { r with kind := .write, data := (m.data &&& BitVec.ofNat 2048 (2 ^ 512 - 1)) <<< (8 * (a % 256)),
                 mask := (m.mask.setWidth 256) <<< (a % 256), poison := m.attr })) ∧
      (m.opc = opcWr → d1.peerTarget q m .write = none → exec (.wr q m) s = denied) ∧
      (m.opc = opcWrm → d1.peerTarget q m .write = none → exec (.wrm q m) s = denied)) ∧
    (∀ c, (m.opc = opcCmp ∧ c = Instr.cmp q m) ∨ (m.opc = opcRdata ∧ c = .rdata q m) ∨ (m.opc = opcAtomdata ∧ c = .atomdata q m) →
      m.epoch.toNat ≠ d1.fld Fld.IKQ_PORT_EPOCH q.toNat → exec c s = s.settling (d1.pump q)) ∧
    (m.epoch.toNat = d1.fld Fld.IKQ_PORT_EPOCH q.toNat → ∀ i a tag, p.outs = [i] → i.m.tag = m.tag → i.own = some (a, tag) →
      let d2 := d1.setPort q { d1.port q with outs := [] }
      (m.opc = opcCmp → i.m.opc = opcWr ∨ i.m.opc = opcWrm →
        exec (.cmp q m) s = s.settling ((d2.answerAgent a tag { denied := m.status = 1 }).pump q)) ∧
      (m.opc = opcRdata → i.m.opc = opcRd → exec (.rdata q m) s = s.settling ((d2.answerAgent a tag
        { data := m.data <<< (8 * (i.m.off.toNat % 256)), poison := m.attr, denied := m.status = 1 }).pump q)) ∧
      (m.opc = opcAtomdata → i.m.opc = opcAtom → exec (.atomdata q m) s = s.settling ((d2.answerAgent a tag
        { data := m.data &&& BitVec.ofNat 2048 (2 ^ 64 - 1), poison := m.attr, denied := m.status = 1 }).pump q)))) ∧
  (∀ s : State,
    let d := s.dev
    let lead : Prop := d.jgRole = roleLead
    let member : Prop := d.jgRole = roleMember
    (∀ q m, s.dev.live = true → m ∈ (d.port q).inq → m.opc = opcJg →
      let d1 := (d.setPort q { d.port q with inq := eraseOne m (d.port q).inq }).oweSlots q m.vc.toNat m.slotCount
      let peer := d1.fld Fld.IKQ_PORT_PEER q.toNat
      (m.attr = 0 → lead → exec (.jgLimit q m) s = s.settling
        ((({ d1 with jg := { d1.jg with limits := Fmap.put d1.jg.limits peer m.jgPoint } } : Dev).jgCommit).pump q)) ∧
      (m.attr = 1 → member → d.jg.due = none → m.jgN ≠ d.jg.n → (m.jgN - d.jg.n).toNat < 2 ^ 15 →
        exec (.jgCommit q m) s = s.settling (({ d1 with jg := { d1.jg with
          lastCommit := d.tick, inLock := true, due := some (m.jgN, m.jgPoint, d.tick + m.jgDelay) } } : Dev).pump q)) ∧
      (m.attr = 2 → lead → exec (.jgAck q m) s = s.settling
        (({ d1 with jg := { d1.jg with acks := Fmap.put d1.jg.acks peer m.jgN } } : Dev).pump q))) ∧
    (∀ n p t, d.jg.due = some (n, p, t) → t ≤ d.tick → d.selvOn = true → lead →
      let y := (({ d with jg := { d.jg with n := n, point := p, due := none } } : Dev).setFld Fld.SELV_STATUS_JG_POINT 0
        p.toNat).setFld Fld.SELV_STATUS_JG_N 0 n.toNat
      exec .jgSwitch s = s.showing (y.runTiles.foldl (fun (y : Dev) t => y.setPoint t (y.targetPoint t)) y).showReasons) ∧
    (s.dev.live = true → d.selvOn = true → d.jg.lastRepeat + 1000 ≤ d.tick →
      let y : Dev := { d with jg := { d.jg with lastRepeat := d.tick } }
      (member → exec .jgRepeatTimer s = s.settling y.jgNotify) ∧
      (lead → d.jg.due = none → d.jg.n ≠ 0 → exec .jgRepeatTimer s = s.settling (y.jgTell 0))) ∧
    (d.selvOn = true → member → d.jg.inLock = true → d.jg.lastCommit + 10000 ≤ d.tick → exec .jgLockLoss s = s.showing
      (({ d with jg := { d.jg with inLock := false } } : Dev).setFld Fld.SELV_STATUS_JG_STATE 0 jsFree)) ∧
    (d.onRing = true →
      (lead → d.jg.ringSent + 1000 ≤ d.tick → d.jg.ringAt = none → exec .lockLimitSend s = s.showing
        (({ d with jg := { d.jg with ringAt := some d.tick, ringSent := d.tick } } : Dev).send
          (.lockFrame ((lockFrame 0 (BitVec.ofNat 4 d.jgLimit) 0 0).setWidth 64)))) ∧
      (∀ f : W32, lockOk f = true → f.extractLsb' 0 2 = 0 →
        let p : BitVec 4 := f.extractLsb' 2 4
        (member → exec (.lockLimitFrame f true) s = s.showing
          (d.send (.lockFrame ((lockFrame 0 (BitVec.ofNat 4 (min p.toNat d.jgLimit)) 0 0).setWidth 64)))) ∧
        (lead → exec (.lockLimitFrame f true) s = s.showing
          ({ d with jg := { d.jg with ringAt := none, ringBroken := false, ringLimit := some p } } : Dev).jgCommit)) ∧
      (∀ f : W32, lockOk f = true → f.extractLsb' 0 2 = 1 → member → d.jg.due = none →
        let p : BitVec 4 := f.extractLsb' 2 4
        let n : BitVec 16 := f.extractLsb' 6 16
        let delay := (f.extractLsb' 22 9).toNat
        n ≠ d.jg.n → (n - d.jg.n).toNat < 2 ^ 15 → exec (.lockCommitFrame f true) s = s.showing
          (({ d with jg := { d.jg with lastCommit := d.tick, inLock := true, due := some (n, p, d.tick + delay) } } : Dev).send
            (.lockFrame ((lockFrame 1 p n (delay - 36)).setWidth 64))))) ∧
    (∀ t, d.jg.ringAt = some t → t + 1000 ≤ d.tick → exec .lockRingTimeout s = s.showing
      { d with jg := { d.jg with ringBroken := true, ringAt := none, ringLimit := none } }))

/-! ### Register writes -/

/-- REGISTER_WRITE of a head that is there for its host (R5, R7, R8, R327). BAR 0: while the BARs do not answer, a write where no
register lies is an Unsupported Request; one that the BARs answer and that reaches no register does nothing; a poisoned one is a Poisoned
TLP; a 64-bit write of a 64-bit register acts at once and discards the half that the head held; a lower half is held; an upper half
acts with the held half, or with the half that a read returns; a 32-bit register takes 32-bit writes only. What acting is for some
registers: SELV_CAP takes its fields within their bounds, LEDGER_OVERFLOW clears by its bit 63, the bases of an enabled queue and
SELV_STATUS keep their values. The data dword of an MSI-X entry takes its value; a RAS status bit is cleared by a 1; an uncommitted
decoder takes its registers. Reads, which have no row (Dev.bar0Read, notes/assumptions/13.md): a frozen head reads ones outside the blocks of
R339, a tenant head reads zero in the operator's blocks, and h0 reads a 32-bit register's value. -/
def Obligations.RegisterWrites : Prop :=
  ∀ (s : State) (h : HeadId), s.dev.live = true → s.dev.served h = true →
    let d := s.dev
    let x := d.head h
    let w (off : Nat) (wide : Bool) (v : W64) : Out := exec (.registerWrite h (.bar0 off wide v false)) s
    let key (r : RegAt) : Nat := r.card.key r.inst
    (∀ off wide v, d.barsOn h = false → d.regAt h off = none → w off wide v = s.settling (d.aer h .unsupported)) ∧
    (∀ off wide v, d.barsOn h = true → d.regAt h off = none → w off wide v = s.settling d) ∧
    (∀ off wide v, d.barsOn h = true → exec (.registerWrite h (.bar0 off wide v true)) s = s.settling (d.aer h .poisonedTlp)) ∧
    (∀ off v r, d.regAt h off = some r → d.Writes h r.card.reach r.inst → r.card.width = 64 →
      (r.part = 0 →
        w off true v = s.settling ((d.dropHalf h r.card r.inst).regSet h r.card r.inst v.toNat) ∧
        w off false v = s.settling (d.setHead h { x with halves := Fmap.put x.halves (key r) (v.toNat % 2 ^ 32) })) ∧
      (r.part = 4 →
        (∀ low, Fmap.find x.halves (key r) = some low → w off false v = s.settling
          ((d.setHead h { x with halves := Fmap.del x.halves (key r) }).regSet h r.card r.inst (low + v.toNat % 2 ^ 32 * 2 ^ 32))) ∧
        (Fmap.find x.halves (key r) = none → w off false v = s.settling
          (d.regSet h r.card r.inst (d.readCard h r.card r.inst % 2 ^ 32 + v.toNat % 2 ^ 32 * 2 ^ 32))))) ∧
    (∀ off v r, d.regAt h off = some r → d.Writes h r.card.reach r.inst → r.card.width = 32 → r.part = 0 →
      w off true v = s.settling d ∧ w off false v = s.settling (d.regSet h r.card r.inst (v.toNat % 2 ^ 32))) ∧
    (∀ v,
      let a := (d.setFld Fld.SELV_CAP_WINDOW 0 (v / 2 ^ 16 % 2 ^ 5)).setFld Fld.SELV_CAP_CAP 0 (v % 2 ^ 12)
      let b := a.setFld Fld.SELV_CAP_CAP 0 (clamp 1500 3600 (a.fld Fld.SELV_CAP_CAP 0))
      d.regSet h Crd.SELV_CAP 0 v = (b.setFld Fld.SELV_CAP_WINDOW 0 (clamp 1 30 (b.fld Fld.SELV_CAP_WINDOW 0))).capState) ∧
    (∀ v, d.regSet h Crd.LEDGER_OVERFLOW 0 v = if v.testBit 63 then
      ((d.setFld Fld.LEDGER_OVERFLOW_OVERFLOW 0 0).setFld Fld.LEDGER_OVERFLOW_SOURCES 0 0).setFld Fld.LEDGER_OVERFLOW_EVENTS 0 0 else d) ∧
    (∀ n v, d.fld Fld.QUEUE_CTRL_ENABLE n = 1 →
      d.regSet h Crd.SQ_BASE n v = d ∧ d.regSet h Crd.CQ_BASE n v = d ∧ d.regSet h Crd.CPL_FLAG n v = d) ∧
    (∀ n v, d.regSet h Crd.SELV_STATUS n v = d) ∧
    (d.barsOn h = true → ∀ (e : Nat) (v : W32), e < 256 →
      let y := (x.msixEntry e &&& ~~~((BitVec.allOnes 32).setWidth 128 <<< 64)) ||| (v.setWidth 128 <<< 64)
      exec (.registerWrite h (.bar4 (16 * e + 8) v)) s = s.settling ((d.setHead h { x with msix := Fmap.put x.msix e y }).flushIrqs h)) ∧
    (d.barsOn h = true → d.frozen h = false → ∀ v : W32,
      exec (.registerWrite h (.ras .cor v)) s = s.settling (d.setHead h { x with rasCor := x.rasCor &&& ~~~v }) ∧
      exec (.registerWrite h (.ras .unc v)) s = s.settling (d.setHead h { x with rasUnc := x.rasUnc &&& ~~~v })) ∧
    (d.barsOn h = true → d.frozen h = false → ∀ (n : BitVec 2) (y : Hdm), (Fmap.get {} x.hdm n.toNat).committed = false → y.committed = false →
      y.locked = false → exec (.registerWrite h (.hdm n y)) s = s.settling (d.setHead h { x with hdm := Fmap.put x.hdm n.toNat y })) ∧
    (d.barsOn h = true → ∀ (off : Nat) (wide : Bool), 0x20000 ≤ off → off % (if wide then 8 else 4) = 0 →
      (d.frozen h = true → (blockAt off).all (fun b => !b.1.inFreeze) = true →
        d.bar0Read h off wide = some (2 ^ (if wide then 64 else 32) - 1)) ∧
      (d.frozen h = false → h ≠ 0 → ∀ b p o v, blockAt off = some (b, p, o) → b = .tiers ∨ b = .ikq ∨ b = .wingCtl →
        d.bar0Read h off wide = some v → v = 0) ∧
      (d.frozen h = false → h = 0 → wide = false → off < 0x58000 → Fmap.find d.ledger.mirrors 0 = none → ∀ r, d.regAt h off = some r →
        r.part = 0 → r.card.width = 32 → d.reads h r.card r.inst = true →
        d.bar0Read h off wide = some (d.card r.card r.inst % 2 ^ 32)))
/-! ### Mailboxes -/

/-- MAILBOX_DOORBELL and the checks every vendor command passes (R393 to R399): a mailbox holds one command, a command waits in
doorbell order, an unknown opcode is Unsupported; then a wrong length is Invalid Payload Length, a context without the right is
DENIED, a byte outside the payload's fields is INVALID, and an unreleased FATAL makes a command that starts work BUSY. -/
def Obligations.MailboxChecks : Prop :=
  ∀ s : State, s.dev.live = true →
    let d := s.dev
    (∀ (box : BitVec 6) (op : BitVec 16) (data : List Byte),
      let c : MbCmd := ⟨box.toNat, op.toNat, data⟩
      (d.boxServed box.toNat = false ∨ d.reg.cmdQ.any (fun x => x.box = box.toNat) = true →
        exec (.mailboxDoorbell box op data) s = s.settling d) ∧
      (d.boxServed box.toNat = true → d.reg.running = true → d.reg.cmdQ = [] → op.toNat ∉ mbOpcodes →
        exec (.mailboxDoorbell box op data) s = s.settling (d.send (.mbox box.toNat op.toNat 3 0 []))) ∧
      (d.boxServed box.toNat = true → d.reg.cmdQ.any (fun x => x.box = box.toNat) = false → op.toNat ∈ mbOpcodes →
        exec (.mailboxDoorbell box op data) s = s.settling { d with reg := { d.reg with cmdQ := d.reg.cmdQ ++ [c] } })) ∧
    (∀ (pop : Bool) (t : TrainRes) (res : List (Byte × Byte)) (pass : BitVec 8) (rs : List (Nat × Nat × Int)),
      let opOnly : List (Instr × Nat × Nat) :=
        [(.wingCreate, 0xC000, 2), (.loomReturn, 0xC002, 6), (.wingRelease, 0xC003, 1), (.wingPreserve, 0xC004, 1), (.wingQuery, 0xC006, 1),
         (.headBind, 0xC008, 40), (.queueBind, 0xC009, 8), (.loomFence, 0xC00C, 6), (.loomAdmit, 0xC00D, 6), (.stripeLimit, 0xC010, 1),
         (.locationRead, 0xC011, 6), (.tierStats, 0xC012, 10), (.rotate, 0xC013, 5), (.rotateAbort, 0xC014, 1),
         (.stackEvacuate, 0xC017, 1), (.channelEvacuate, 0xC018, 1), (.channelOffline, 0xC019, 1), (.channelRetrain pop t, 0xC01A, 3)] ++
        [(.retireFrame, 0xC020, 12), (.retireBank, 0xC021, 5), (.margin res, 0xC022, 7), (.portConfig, 0xC040, 2), (.portMap, 0xC041, 18),
         (.ikqRetrain pass, 0xC042, 1), (.ikqPortDisable, 0xC043, 2), (.vfRecalibrate rs, 0xC050, 9), (.ucodeReload, 0xC052, 1),
         (.warmReset, 0xC053, 0)]
      let inWing : List (Instr × Nat × Nat) :=
        [(.wingResume, 0xC005, 1), (.stateDescriptor, 0xC007, 1), (.atriumPin, 0xC015, 24), (.atriumUnpin, 0xC016, 24)]
      let onRegion : List (Instr × Nat × Nat) :=
        [(.regionEnable, 0xC030, 72), (.regionDisable, 0xC031, 2), (.regionRun, 0xC032, 2), (.regionReopen, 0xC033, 2),
         (.regionRerun, 0xC034, 3), (.regionAbort, 0xC035, 2)]
      let inSafe : List (Instr × Nat × Nat) := [(.health, 0xC051, 0), (.provenanceRead, 0xC054, 4)]
      (∀ p ∈ opOnly ++ inWing ++ onRegion ++ inSafe, d.mbFront p.2.1 = none → exec p.1 s = s.settling d) ∧
      (∀ p ∈ opOnly ++ inWing ++ onRegion ++ inSafe, ∀ c, d.mbFront p.2.1 = some c → c.data.length ≠ p.2.2 →
        exec p.1 s = s.settling (d.mbReply c 0x16 1 [])) ∧
      (d.reg.safe = false → ∀ c w, d.ctx c = some (.wing w) →
        (∀ p ∈ opOnly ++ inSafe, d.mbFront p.2.1 = some c → c.data.length = p.2.2 → exec p.1 s = s.settling (d.mbReply c 2 2 [])) ∧
        (∀ p ∈ inWing, d.mbFront p.2.1 = some c → c.data.length = p.2.2 → c.num 0 1 ≠ w → exec p.1 s = s.settling (d.mbReply c 2 2 [])) ∧
        (∀ p ∈ onRegion, d.mbFront p.2.1 = some c → c.data.length = p.2.2 → d.regionWing (c.num 0 2) ≠ w →
          exec p.1 s = s.settling (d.mbReply c 2 2 [])) ∧
        (d.mbFront 0xC00A = some c → c.data.length = 72 → exec .keyLoad s = s.settling (d.mbReply c 2 2 []))) ∧
      (d.reg.safe = false → ∀ c, d.ctx c = some .operator →
        (d.mbFront 0xC000 = some c → c.data.length = 2 → d.fatal = true → exec .wingCreate s = s.settling (d.mbReply c 6 3 [])) ∧
        (d.mbFront 0xC015 = some c → c.data.length = 24 → c.clean [(0, 2), (8, 16)] = false →
          exec .atriumPin s = s.settling (d.mbReply c 2 1 [])) ∧
        (d.mbFront 0xC032 = some c → c.data.length = 2 → d.fatal = true → exec .regionRun s = s.settling (d.mbReply c 6 3 [])) ∧
        (d.mbFront 0xC003 = some c → c.data.length = 1 → c.clean [(0, 1)] = true → d.reg.bg.any (fun b => b.box = c.place) = true →
          exec .wingRelease s = s.settling (d.mbReply c 6 3 []))) ∧
      (d.reg.safe = true → ∀ p ∈ opOnly ++ inWing ++ onRegion, ∀ c, d.mbFront p.2.1 = some c → c.data.length = p.2.2 →
        exec p.1 s = s.settling (d.mbReply c 6 3 [])))

/-- The standard commands (Table 16-4, R398, R402): each answers its values and has its effect; Dynamic Capacity is for Type 3 heads;
firmware commands are the operator's. -/
def Obligations.StandardCommands : Prop :=
  ∀ (s : State) (c : MbCmd) (rest : List MbCmd), s.dev.live = true → s.dev.reg.running = true → s.dev.reg.safe = false →
    s.dev.reg.cmdQ = c :: rest → c.box < 64 →
    let d := s.dev
    let h := c.head
    let x := d.head h
    let ans (ret : Nat) (vals : List Nat) (e : Dev) : Out := s.settling (e.mbReplyCxl c ret vals)
    let reg (r : Registrar) : Dev := { d with reg := r }
    let wing := (d.wing (d.mbWing c)).extents
    (∀ ret vals, d.mbReplyCxl c ret vals = (reg { d.reg with cmdQ := rest }).send (.cxl c.box c.op ret vals)) ∧
    (d.ctx c = some .secured → c.op = 0x0300 → exec .getTimestamp s = ans 2 [] d) ∧
    (∀ t, d.ctx c = some t → t ≠ .secured →
      (c.op = 0x0001 → exec .identify s = ans 0 [d.serial, 12] d) ∧
      (c.op = 0x0002 → ∀ b, d.reg.bg.find? (fun b => b.box = c.place) = some b →
        exec .backgroundOperationStatus s = ans 0 [1, b.op] d) ∧
      (c.op = 0x0003 → exec .getResponseMessageLimit s = ans 0 [Fmap.get 12 d.reg.respLimit c.place] d) ∧
      (c.op = 0x0004 → c.data.length = 1 → 8 ≤ c.num 0 1 → c.num 0 1 ≤ 12 → exec .setResponseMessageLimit s =
        ans 0 [c.num 0 1] (reg { d.reg with respLimit := Fmap.put d.reg.respLimit c.place (c.num 0 1) })) ∧
      (c.op = 0x0005 → d.reg.bg.find? (fun b => b.box = c.place && (b.op = 0xC017 || b.op = 0xC018)) = none → ∀ r,
        Fmap.find d.reg.lastJob c.place = some (1, r) →
        (d.rgState r = rgRunning → exec .requestAbortBackgroundOperation s = ans 0 [] (d.abortRegion r 4)) ∧
        (d.rgState r = rgOpen → exec .requestAbortBackgroundOperation s = ans 2 [] d)) ∧
      (c.op = 0x0100 → c.data.length = 1 → c.num 0 1 ≤ 3 → exec .getEventRecords s = ans 0 ((d.eventsOf c).flatMap (fun r =>
        [if 0x190 ≤ r.source && r.source < 0x2D0 then 1 else 2, r.seq, r.source, d.stampAt r.last])) d) ∧
      (c.op = 0x0101 → c.data.length = 6 → c.num 2 1 = 0 → c.num 0 1 ≤ 3 → c.num 1 1 = 1 →
        let ev := Fmap.put d.reg.evCleared h.toNat (Fmap.get [] d.reg.evCleared h.toNat ++ (d.eventsOf c).map (·.seq))
        exec .clearEventRecords s = ans 0 [] (reg { d.reg with evCleared := ev })) ∧
      (c.op = 0x0102 → exec .getEventInterruptPolicy s = ans 0 [Fmap.get 0 d.reg.evPolicy h.toNat] d) ∧
      (c.op = 0x0103 → c.data.length = 4 → exec .setEventInterruptPolicy s =
        ans 0 [] (reg { d.reg with evPolicy := Fmap.put d.reg.evPolicy h.toNat (c.num 0 5) })) ∧
      (c.op = 0x0300 → exec .getTimestamp s = ans 0 [d.stampAt d.tick] d) ∧
      (c.op = 0x0301 → c.data.length = 8 → exec .setTimestamp s = ans 0 [] (reg { d.reg with stamp := some (c.num 0 8, d.tick) })) ∧
      (c.op = 0x0400 → exec .getSupportedLogs s = ans 0 [1] d) ∧
      (c.op = 0x0401 → exec .getLog s = ans 0 mbOpcodes d) ∧
      (c.op = 0x4000 → exec .identifyMemoryDevice s = ans 0 [wing.foldl (fun (v : Nat) e => v + e.2 / 2 ^ 28) 0] d) ∧
      (c.op = 0x4200 → exec .getHealthInfo s = ans 0 [d.fld Fld.SELV_TEMP_JUNCTION_MAX 0] d) ∧
      (c.op = 0x4201 → exec .getAlertConfiguration s = ans 0 [Fmap.get 0 d.reg.alert h.toNat] d) ∧
      (c.op = 0x4202 → c.data.length ≤ 16 → exec .setAlertConfiguration s =
        ans 0 [] (reg { d.reg with alert := Fmap.put d.reg.alert h.toNat (c.num 0 16) })) ∧
      (d.personality h ≠ 3 → c.op = 0x4800 → exec .getDcConfiguration s = ans 3 [] d) ∧
      (d.personality h = 3 →
        (c.op = 0x4800 → exec .getDcConfiguration s =
          ans 0 (2 ^ 28 :: (List.range 8).flatMap (fun i => regionVals (Fmap.get {} x.dcRegions i))) d) ∧
        (c.op = 0x4801 → exec .getDcExtentList s = ans 0 ((x.dc.filter (fun e => e.st ≠ .offered)).flatMap extentVals) d) ∧
        (∀ e, c.extentsOk = true → c.extents = [(e.base, e.len)] → x.dc = [e] →
          (c.op = 0x4802 → e.st = .offered → exec .addDcResponse s = ans 0 [] (d.setHead h { x with dc := [{ e with st := .accepted }] })) ∧
          (c.op = 0x4803 → e.st = .accepted → exec .releaseDc s = ans 0 [] (d.setHead h { x with dc := [] })))) ∧
      (t ≠ .operator → (c.op = 0x0200 → exec .getFwInfo s = ans 2 [] d) ∧ (c.op = 0x0201 → exec .transferFw s = ans 2 [] d) ∧
        (c.op = 0x0202 → ∀ v k n, exec (.activateFw v k n) s = ans 2 [] d))) ∧
    (d.ctx c = some .operator →
      let slot := c.num 1 1
      let n := c.data.length - 128
      (c.op = 0x0200 → exec .getFwInfo s = ans 0
        [3, d.reg.slot, d.reg.nextSlot.getD 0, Fmap.get 0 d.reg.fwVer 1, Fmap.get 0 d.reg.fwVer 2, Fmap.get 0 d.reg.fwVer 3] d) ∧
      (c.op = 0x0201 → 128 ≤ c.data.length → d.reg.fwXfer = none → 1 ≤ slot → slot ≤ 3 → slot ≠ d.reg.slot →
        (c.num 0 1 = 0 →
          let vers := Fmap.put d.reg.fwVer slot (Config.free d.free % 2 ^ 64)
          let e := reg { d.reg with fwLen := Fmap.put d.reg.fwLen slot n, fwXfer := none, fwVer := vers }
          exec .transferFw s = ans 0 [] { e with free := d.free + 1 }) ∧
        (c.num 0 1 = 1 → c.num 4 4 = 0 → exec .transferFw s =
          ans 0 [] (reg { d.reg with fwLen := Fmap.put d.reg.fwLen slot n, fwXfer := some (slot, n) })) ∧
        (c.num 0 1 = 2 → exec .transferFw s = ans 9 [] d)) ∧
      (c.op = 0x0202 → c.data.length = 2 → slot = 1 ∨ slot = 2 → ∀ (ok good : Bool) (v : Nat),
        (c.num 0 1 = 1 → exec (.activateFw ok good v) s =
          ans 0 [] (reg { d.reg with nextSlot := some slot, bootGen := d.reg.bootGen + 1, bootOver := slot })) ∧
        (c.num 0 1 = 0 → slot ≠ d.reg.slot →
          (d.reg.bg ≠ [] → exec (.activateFw ok good v) s = ans 6 [] d) ∧
          (d.reg.bg = [] → (∀ w, w < 16 → d.wgState w ≠ wgReleasing) →
            exec (.activateFw ok good v) s = if !ok then ans 0xA [] d else if !good then ans 0xC [] d else
              ans 0 [] (reg { d.reg with slot := slot, fwVer := Fmap.put d.reg.fwVer slot v, bootGen := d.reg.bootGen + 1,
                                         bootOver := slot }))))) ∧
    (c.place = 32 →
      let g := BitVec.ofNat 4 (c.num 0 1)
      let y := d.head g
      let a := c.num 8 8
      let m := c.num 16 8
      let types := (List.range 16).filter (fun k => d.personality (BitVec.ofNat 4 k) = 3)
      (c.op = 0x5500 → exec .getMultiHeadedInfo s = ans 0 (((List.range 16).filter d.headExists).length :: types) d) ∧
      (c.op = 0x5501 → d.headExists (c.num 0 1) = true → exec .getHeadInfo s = ans 0 [if y.up then 1 else 0, y.width, y.speed] d) ∧
      (c.op = 0x5600 → exec .getDcdInfo s = ans 0 [8, 2 ^ 28] d) ∧
      (d.personality g = 3 →
        (c.op = 0x5601 → exec .getHostDcRegionConfiguration s =
          ans 0 ((List.range 8).flatMap (fun i => regionVals (Fmap.get {} y.dcRegions i))) d) ∧
        (c.op = 0x5603 → exec .getDcRegionExtentLists s = ans 0 (y.dc.flatMap extentVals) d) ∧
        (c.data.length = 24 → c.num 0 1 < 16 → c.num 1 1 < 8 → a % 2 ^ 28 = 0 → m % 2 ^ 28 = 0 → m ≠ 0 → d.ownsRange (d.headWing g) a m = true →
          (c.op = 0x5602 → y.dc = [] → exec .setDcRegionConfiguration s = ans 0 []
            (d.setHead g { y with dcRegions := Fmap.put y.dcRegions (c.num 1 1) ⟨a, m, c.num 2 1 % 2 = 1⟩ })) ∧
          (c.op = 0x5604 → d.fatal = false → y.dc = [] → Fmap.get {} y.dcRegions (c.num 1 1) = ⟨a, m, false⟩ → exec .initiateDcAdd s =
            ans 0 [] ((d.setHead g { y with dc := [⟨c.num 1 1, a, m, .offered⟩] }).send (.dcEvent g true a m))) ∧
          (c.op = 0x5605 → y.dc = [⟨c.num 1 1, a, m, .accepted⟩] → exec .initiateDcRelease s =
            ans 0 [] ((d.setHead g { y with dc := [⟨c.num 1 1, a, m, .releasing⟩] }).send (.dcEvent g false a m))))))

/-! ### Wings -/

/-- Commands that give a wing its resources, each answered by the conditions named here. Under each command's own checks a wing that does
not exist or is RELEASING refuses it (R374, R382). WING_CREATE makes a FREE wing ACTIVE with its policy, and with a key of its own when
it is asked (R374, R379). Looms are granted when all are free and IDLE or STOPPED; an extent of a tier starts its zero-fill when it is
aligned, overlaps no other, and the wing has a key (R375, R380); region ranges (R248), atrium ways (R372) and window bits are added when
no other wing holds them; KEY_LOAD needs a wing with no extent (R380). QUEUE_BIND binds unbound queues of the wing's own head and frees
disabled idle ones (R297); HEAD_BIND binds an unbound head with its decoders' bases and unbinds any but h0 (R320); WINDOW_SET writes
the entries of a table when no request uses the old ones (R368). The oldest zero-fill of a wing ends when nothing is open on its range
and no head holds a line of it: the extent is the wing's (R375); it then reads as zeros where the catalogue is empty, no channel is
FAULTED and no injection is armed. -/
def Obligations.WingGrants : Prop :=
  ∀ (s : State) (c : MbCmd),
    let d := s.dev
    let w := c.num 0 1
    let no (r : Nat) : Out := s.ends c r [] d
    let ok (e : Dev) : Out := s.ends c 0 [] e
    let grant (kind len : Nat) (fields : List (Nat × Nat)) : Prop := s.Serves c 0xC001 len ((0, 2) :: fields) .op ∧ c.num 1 1 = kind
    let binds : Prop := s.Serves c 0xC009 8 [(0, 3), (4, 4)] .op ∧ c.num 6 2 ≠ 0 ∧ c.num 4 2 + c.num 6 2 ≤ 512
    let qs := (List.range (c.num 6 2)).map (· + c.num 4 2)
    (s.Serves c 0xC000 2 [(0, 2)] .op → c.num 1 1 < 4 →
      (w = 0 ∨ w ≥ 16 → exec .wingCreate s = no 1) ∧
      (1 ≤ w → w < 16 → d.wgState w ≠ wgFree → exec .wingCreate s = no 3) ∧
      (1 ≤ w → w < 16 → d.wgState w = wgFree →
        let e := (d.setFld Fld.WING_STATE_STATE w wgActive).setFld Fld.WING_STATE_POLICY w (c.num 1 1 % 2)
        let k := BitVec.ofNat 512 (Config.free d.free)
        let f : Dev := { e with free := d.free + 1, reg := { d.reg with keys := Fmap.put d.reg.keys w k } }
        (c.num 1 1 < 2 → exec .wingCreate s = ok e) ∧
        (2 ≤ c.num 1 1 → exec .wingCreate s = ok ((f.setFld Fld.WING_STATE_KEY_LOADED w 1).setFld Fld.WING_KEY_KEY_ID w 0)))) ∧
    (∀ r, d.wingUsable w = some r →
      (grant 0 528 [(16, 512)] → exec .wingGrantLooms s = no r) ∧ (grant 1 16 [(4, 12)] → exec .wingGrantExtents s = no r) ∧
      (grant 2 8 [(4, 4)] → exec .wingGrantRegionRange s = no r) ∧ (grant 3 7 [(4, 3)] → exec .wingGrantAtriumWays s = no r) ∧
      (grant 4 5 [(4, 1)] → exec .wingGrantWindowBits s = no r) ∧
      (s.Serves c 0xC00A 72 [(0, 1), (4, 68)] .sec → exec .keyLoad s = no r) ∧ (binds → w ≠ 0xFF → exec .queueBind s = no r)) ∧
    (d.wingUsable w = none →
      (∀ ns : List LoomId, ((List.range 4096).filter (fun n => ((c.data[16 + n / 8]?).getD 0).toNat.testBit (n % 8))).map (BitVec.ofNat 12) = ns →
        grant 0 528 [(16, 512)] →
        (ns.any (fun n => d.wingOf n ≠ noWing) = true → exec .wingGrantLooms s = no 4) ∧
        (ns.all (fun n => d.wingOf n = noWing) = true → ns.any (fun n => d.loomState n ≠ stIdle && d.loomState n ≠ stStopped) = true →
          exec .wingGrantLooms s = no 3) ∧
        (ns.all (fun n => d.wingOf n = noWing && (d.loomState n = stIdle || d.loomState n = stStopped)) = true → exec .wingGrantLooms s = ok
          (({ d with loomWing := ns.foldl (fun (m : Fmap Nat) (n : LoomId) => Fmap.put m n.toNat w) d.loomWing } : Dev).showWing w))) ∧
      (grant 1 16 [(4, 12)] →
        let base := c.num 8 8
        let n := c.num 4 4 * 2 ^ 28
        let inTier : Prop := base + n ≤ d.dspSize ∨ (depotBase ≤ base ∧ base + n ≤ depotBase + d.depSize)
        (base % 2 ^ 28 ≠ 0 ∨ n = 0 ∨ ¬inTier → exec .wingGrantExtents s = no 1) ∧
        (base % 2 ^ 28 = 0 → n ≠ 0 → inTier →
          (d.taken.any (fun e => overlap base n e.1 e.2) = true → exec .wingGrantExtents s = no 4) ∧
          (d.taken.any (fun e => overlap base n e.1 e.2) = false → d.fld Fld.WING_STATE_KEY_LOADED w = 0 →
            exec .wingGrantExtents s = no 1) ∧
          (d.taken.any (fun e => overlap base n e.1 e.2) = false → d.fld Fld.WING_STATE_KEY_LOADED w = 1 →
            let held := (d.wing w).extents.length + (d.reg.fills.filter (fun f => f.wing.toNat = w)).length
            (64 ≤ held → exec .wingGrantExtents s = no 5) ∧
            (held < 64 → exec .wingGrantExtents s = s.settling
              ((({ d with reg := { d.reg with fills := d.reg.fills ++ [⟨BitVec.ofNat 4 w, base, n, c.place⟩] } } : Dev).setFld
                Fld.WING_STATE_SCRUB_PCT w 0).begun c base))))) ∧
      (grant 2 8 [(4, 4)] →
        let first := c.num 4 2
        let count := c.num 6 2
        let base (v : Nat) := d.fld Fld.WING_RES_REGION_BASE v
        let have_ (v : Nat) := d.fld Fld.WING_RES_REGION_COUNT v
        let others : Prop := ∃ v, v < 16 ∧ v ≠ w ∧ overlap first count (base v) (have_ v) = true
        (first + count > 4096 → exec .wingGrantRegionRange s = no 1) ∧
        (first + count ≤ 4096 → (∃ i, i < have_ w ∧ d.rgState (base w + i) ≠ rgDisabled) → exec .wingGrantRegionRange s = no 3) ∧
        (first + count ≤ 4096 → (∀ i, i < have_ w → d.rgState (base w + i) = rgDisabled) →
          (others → exec .wingGrantRegionRange s = no 4) ∧
          (¬others → exec .wingGrantRegionRange s = ok
            ((d.setFld Fld.WING_RES_REGION_BASE w (if count = 0 then 0 else first)).setFld Fld.WING_RES_REGION_COUNT w count)))) ∧
      (grant 3 7 [(4, 3)] →
        let all := (List.range 16).foldl (fun v u => v ||| d.fld Fld.ATRIUM_WING_WAYS u) 0
        (c.num 6 1 > 2 → exec .wingGrantAtriumWays s = no 1) ∧
        (c.num 6 1 ≤ 2 → all &&& c.num 4 2 ≠ 0 → exec .wingGrantAtriumWays s = no 4) ∧
        (c.num 6 1 ≤ 2 → all &&& c.num 4 2 = 0 → d.asm.atriumBits = 0 ∨ all ||| c.num 4 2 = 0xFFFF → exec .wingGrantAtriumWays s = no 5) ∧
        (c.num 6 1 ≤ 2 → all &&& c.num 4 2 = 0 → d.asm.atriumBits ≠ 0 → all ||| c.num 4 2 ≠ 0xFFFF → exec .wingGrantAtriumWays s = ok
          (((d.setFld Fld.ATRIUM_WING_WAYS w (d.fld Fld.ATRIUM_WING_WAYS w ||| c.num 4 2)).setFld Fld.ATRIUM_WING_ALLOC w (c.num 6 1)).showWing
            w))) ∧
      (grant 4 5 [(4, 1)] →
        (d.fld Fld.WING_STATE_WINDOWS w &&& c.num 4 1 ≠ 0 → exec .wingGrantWindowBits s = no 4) ∧
        (d.fld Fld.WING_STATE_WINDOWS w &&& c.num 4 1 = 0 →
          exec .wingGrantWindowBits s = ok (d.setFld Fld.WING_STATE_WINDOWS w (d.fld Fld.WING_STATE_WINDOWS w ||| c.num 4 1)))) ∧
      (s.Serves c 0xC00A 72 [(0, 1), (4, 68)] .sec →
        let busy : Bool := !(d.wing w).extents.isEmpty || d.reg.fills.any (fun f => f.wing.toNat = w)
        (busy = true → exec .keyLoad s = no 3) ∧
        (busy = false →
          let e : Dev := { d with reg := { d.reg with keys := Fmap.put d.reg.keys w (BitVec.ofNat 512 (c.num 8 64)) } }
          exec .keyLoad s = ok ((e.setFld Fld.WING_STATE_KEY_LOADED w 1).setFld Fld.WING_KEY_KEY_ID w (c.num 4 4)))) ∧
      (binds → c.num 1 1 < 16 → c.num 2 1 ≤ 3 →
        let h := c.num 1 1
        (d.headWing (BitVec.ofNat 4 h) ≠ w → exec .queueBind s = no 2) ∧
        (d.headWing (BitVec.ofNat 4 h) = w → qs.any (fun q => d.fld Fld.QUEUE_BIND_VALID q = 1) = true → exec .queueBind s = no 4) ∧
        (d.headWing (BitVec.ofNat 4 h) = w → qs.all (fun q => d.fld Fld.QUEUE_BIND_VALID q = 0) = true →
          let e := qs.foldl (fun (e : Dev) q => (((e.setFld Fld.QUEUE_BIND_VALID q 1).setFld Fld.QUEUE_BIND_WING q w).setFld
            Fld.QUEUE_BIND_HEAD q h).setFld Fld.QUEUE_BIND_XDIE q (h / 4)) d
          exec .queueBind s = ok ((e.setFld Fld.WING_RES_PRIO_MAX w (c.num 2 1)).showWing w)))) ∧
    (binds → w = 0xFF →
      (c.num 1 1 ≠ 0 ∨ c.num 2 1 ≠ 0 → exec .queueBind s = no 1) ∧
      (c.num 1 1 = 0 → c.num 2 1 = 0 →
        (qs.any (fun q => d.fld Fld.QUEUE_CTRL_ENABLE q = 1) = true → exec .queueBind s = no 3) ∧
        (qs.all (fun q => d.fld Fld.QUEUE_CTRL_ENABLE q = 0 && (d.queue q).cur.isNone && (d.queue q).rest.isEmpty) = true →
          let ws := (qs.filter (fun q => d.fld Fld.QUEUE_BIND_VALID q = 1)).map (fun q => d.fld Fld.QUEUE_BIND_WING q)
          exec .queueBind s = ok (ws.foldl Dev.showWing (qs.foldl Dev.unbindQueue d))))) ∧
    (s.Serves c 0xC008 40 [(0, 3), (8, 32)] .op →
      let h := c.num 0 1
      let v := c.num 1 1
      let p := c.num 2 1
      let hdm := (List.range 4).map (fun n => c.num (8 + 8 * n) 8)
      let base (x : Nat) : Nat := x &&& 0x0000FFFFF0000000
      (h = 0 ∨ h ≥ 16 ∨ p = 1 ∨ p > 3 → exec .headBind s = no 1) ∧
      (1 ≤ h → h < 16 → p = 0 →
        (d.headExists h = false → exec .headBind s = no 6) ∧
        (d.headExists h = true → exec .headBind s = ok (d.unbindHead (BitVec.ofNat 4 h)))) ∧
      (1 ≤ h → h < 16 → p = 2 ∨ p = 3 →
        (d.headExists h = false → exec .headBind s = no 6) ∧
        (d.headExists h = true → v = 0 → exec .headBind s = no 1) ∧
        (d.headExists h = true → v ≠ 0 → ∀ r, d.wingUsable v = some r → exec .headBind s = no r) ∧
        (d.headExists h = true → v ≠ 0 → d.wingUsable v = none →
          (d.personality (BitVec.ofNat 4 h) ≠ 0 → d.headWing (BitVec.ofNat 4 h) ≠ v → exec .headBind s = no 4) ∧
          (d.personality (BitVec.ofNat 4 h) = 0 → hdm.any (fun x => x ≠ base x + x % 2) = true → exec .headBind s = no 1) ∧
          (d.personality (BitVec.ofNat 4 h) = 0 →
            hdm.all (fun x => x = base x + x % 2 && (x % 2 = 0 || (base x < aliasBase && d.extentWing (base x) = v))) = true →
            let e := (d.setFld Fld.HEAD_STATUS_PERSONALITY h p).setFld Fld.HEAD_STATUS_WING h v
            let e := ((List.range 4).zip hdm).foldl (fun (e : Dev) (x : Nat × Nat) =>
              (e.setFld Fld.HDM_DPA_BASE (4 * h + x.1) (x.2 / 2 ^ 28 % 2 ^ 20)).setFld Fld.HDM_DPA_VALID (4 * h + x.1) (x.2 % 2)) e
            let e := e.setHead (BitVec.ofNat 4 h) { e.head (BitVec.ofNat 4 h) with rrs := !e.layoutDone }
            exec .headBind s = ok ((e.setFld Fld.HEAD_STATUS_PRESERVED h (if e.wgState v = wgPreserved then 1 else 0)).showWing v))))) ∧
    (∀ n, 1 ≤ n → n ≤ 256 → s.Serves c 0xC00B (8 + 8 * n) [(0, 1), (2, 6), (8, 8 * n)] .op → c.num 2 2 = n →
      let first := c.num 4 4
      let es := (List.range n).map (fun i => BitVec.ofNat 64 (c.num (8 + 8 * i) 8))
      let ws := ((List.range n).zip es).foldl
        (fun (m : Fmap (BitVec 64)) (x : Nat × BitVec 64) => Fmap.put m (32768 * w + first + x.1) x.2) d.reg.windows
      (d.windowBusy w first n = true → exec .windowSet s = s.settling d) ∧
      (d.windowBusy w first n = false → w ≥ 8 ∨ first + n > 32768 ∨ es.any windowReserved = true → exec .windowSet s = no 1) ∧
      (d.windowBusy w first n = false → w < 8 → first + n ≤ 32768 → es.any windowReserved = false → exec .windowSet s = ok
        { d with reg := { d.reg with windows := ws } })) ∧
    (∀ (k : WingId) (f : Fill), d.live = true → d.reg.fills.find? (fun f => f.wing = k) = some f →
      (d.rangeOpen f.base f.len = false → exec (.extentZeroFillComplete k) s = s.settling d) ∧
      (d.rangeOpen f.base f.len = true → d.rangeHeld f.base f.len ≠ [] →
        exec (.extentZeroFillComplete k) s = s.settling (d.rangeAsk k.toNat f.base f.len)) ∧
      (d.rangeOpen f.base f.len = true → d.rangeHeld f.base f.len = [] →
        let z := (d.endAsks (.scrub k)).zeroRange f.base f.len
        let z : Dev := { z with reg := { z.reg with fills := eraseOne f z.reg.fills } }
        exec (.extentZeroFillComplete k) s = s.settling
          ((((z.setExtents k.toNat ((z.wing k.toNat).extents ++ [(f.base, f.len)])).showWing k.toNat).setFld Fld.WING_STATE_SCRUB_PCT k.toNat
            100).bgEnd 0xC001 f.base 0 [])) ∧
      (d.fld Fld.MEMINJ_FLIP_ARMED 0 = 0 → (∀ i, i < 9 → d.fld Fld.CHAN_FAULT_FAULTED i = 0) → d.weave.cat = [] → ∀ a,
        (d.zeroRange f.base f.len).tiers.mem.read a = if f.base ≤ a ∧ a < f.base + f.len then 0 else d.tiers.mem.read a))

/-- Commands on a wing and its looms. Preserve pauses the looms of a wing whose policy says so, resume continues them (R381); LOOM_FENCE
and LOOM_ADMIT act on the wing's own looms (R118); LOOM_RETURN first fences, then scrubs and frees a quiet loom whose tile runs (R376);
a release with no zero-fill stops the wing's heads, queues, runs, rotations and looms (R382) and, once nothing of it is under way and no
head holds a line of its memory, clears what Table 15-4 names and reports 0x376 (R383, R384); the queries answer the wing's looms and
extents and its descriptor (R399, R400). -/
def Obligations.WingLifecycle : Prop :=
  ∀ (s : State) (c : MbCmd),
    let d := s.dev
    let w := c.num 0 1
    let n := BitVec.ofNat 12 (c.num 4 2)
    let no (r : Nat) : Out := s.ends c r [] d
    let ok (e : Dev) : Out := s.ends c 0 [] e
    (d.wingUsable w = none →
      (s.Serves c 0xC004 1 [(0, 1)] .op →
        (d.wgState w ≠ wgActive → exec .wingPreserve s = ok d) ∧
        (d.wgState w = wgActive → d.fld Fld.WING_STATE_POLICY w = 0 → exec .wingPreserve s = ok (d.setWgState w wgPreserved)) ∧
        (d.wgState w = wgActive → (d.setWgState w wgPreserved).fld Fld.WING_STATE_POLICY w = 1 → exec .wingPreserve s = ok
          (((d.setWgState w wgPreserved).wingLooms w).foldl (fun e n => e.askStop n .paused) (d.setWgState w wgPreserved)))) ∧
      (s.Serves c 0xC005 1 [(0, 1)] .wing →
        (d.wgState w = wgActive → exec .wingResume s = ok d) ∧
        (d.wgState w ≠ wgActive → exec .wingResume s = ok ((d.wingLooms w).foldl Dev.unpause (d.setWgState w wgActive)))) ∧
      (c.num 4 2 < 4096 → d.wingOf n ≠ w →
        (s.Serves c 0xC00C 6 [(0, 1), (4, 2)] .op → exec .loomFence s = no 2) ∧
        (s.Serves c 0xC00D 6 [(0, 1), (4, 2)] .op → exec .loomAdmit s = no 2) ∧
        (s.Serves c 0xC002 6 [(0, 1), (4, 2)] .op → exec .loomReturn s = no 2)) ∧
      (c.num 4 2 < 4096 → d.wingOf n = w →
        (s.Serves c 0xC00C 6 [(0, 1), (4, 2)] .op →
          (d.loomState n = stFenced → exec .loomFence s = no 3) ∧
          (d.loomState n ≠ stFenced → d.loomState n ≠ stScrubbing → exec .loomFence s = s.settling (d.begun c (c.num 4 2)))) ∧
        (s.Serves c 0xC00D 6 [(0, 1), (4, 2)] .op →
          (d.loomState n ≠ stFenced → exec .loomAdmit s = no 3) ∧
          (d.loomState n = stFenced → exec .loomAdmit s = ok (d.setLoomState n stIdle))) ∧
        (s.Serves c 0xC002 6 [(0, 1), (4, 2)] .op →
          (d.loomState n = stRunning → exec .loomReturn s = s.settling (d.askStop n .fenced)) ∧
          (d.loomState n = stFenced → d.loomQuiet n = true →
            let e := (d.setLoomState n stScrubbing).wakeTile (loomTile (c.num 4 2))
            e.fld Fld.TILE_STATE_STATE (loomTile (c.num 4 2)) = 3 → exec .loomReturn s = ok ((e.scrubLoom n).showWing w)))) ∧
      (s.Serves c 0xC003 1 [(0, 1)] .op →
        let a := ((d.setWgState w wgReleasing).wingHeads w).filter (· ≠ 0)
        let e := a.foldl Dev.unbindHead (d.setWgState w wgReleasing)
        let e := (e.wingQueues w).foldl Dev.queueDrop e
        let e := (e.wingRegions w).foldl (fun (e : Dev) r => e.abortRegion r 16) e
        let e := e.rotAbortAll (fun p => e.extentWing (p * 2 ^ 26) = w)
        e.reg.fills.filter (fun f => f.wing.toNat = w) = [] →
        let e := ((e.wingLooms w).foldl Dev.fenceLoom e).setFld Fld.WING_STATE_SCRUB_PCT w 0
        exec .wingRelease s = s.settling (({ e with reg := { e.reg with rel := Fmap.put e.reg.rel w { box := c.place } } } : Dev).begun c w))) ∧
    (∀ k : WingId, d.live = true → d.releaseReady k.toNat = false → exec (.wingReleaseComplete k) s = s.settling d) ∧
    (∀ k : WingId, d.live = true → d.releaseReady k.toNat = true →
      (∃ x, x ∈ (d.wing k.toNat).extents ∧ d.rangeHeld x.1 x.2 ≠ []) → exec (.wingReleaseComplete k) s = s.settling
        ((d.wing k.toNat).extents.foldl (fun (e : Dev) x => e.rangeAsk k.toNat x.1 x.2) d)) ∧
    (∀ k : WingId, d.live = true → d.releaseReady k.toNat = true → (∀ x, x ∈ (d.wing k.toNat).extents → d.rangeHeld x.1 x.2 = []) →
      let v := k.toNat
      let e := d.endAsks (.scrub k)
      let looms := e.wingLooms v
      let e := looms.foldl Dev.scrubLoom (looms.foldl Dev.loomFlush e)
      let e : Dev := { e with reg := { e.reg with
        windows := e.reg.windows.filter (fun c => !((c.2.extractLsb' 22 4).toNat = v && c.2.getLsbD 0)) } }
      let e := ((e.wing v).extents.foldl (fun (e : Dev) x => e.zeroRange x.1 x.2) (e.atriumDrop v)).scrubTrans v
      let e := (e.wingRegions v).foldl (fun (e : Dev) r => (e.regionClose r).resetCard Crd.REGION_STATUS (· = r)) e
      let e := (e.wingQueues v).foldl Dev.unbindQueue e
      let e := (allCards.filter (fun c => c.block = .trans)).foldl (fun (e : Dev) c => e.resetCard c (· = v)) e
      let e := (e.resetCard Crd.ATRIUM_WING (· = v)).resetCard Crd.HDM_DPA (fun i => v = 0 && i / 4 = 0)
      let e := ((e.resetCard Crd.WING_STATE (· = v)).resetCard Crd.WING_RES (· = v)).resetCard Crd.WING_KEY (· = v)
      let e : Dev := { e with groups := e.groups.filter (fun c => c.1 / 64 ≠ v), wings := Fmap.del e.wings v,
                              reg := { e.reg with keys := Fmap.del e.reg.keys v, rel := Fmap.del e.reg.rel v } }
      let e := if v = 0 then (e.setWgState 0 wgActive).showWing 0 else e
      exec (.wingReleaseComplete k) s = s.settling ((e.report 0x376 (mkDetail 0 v 0) noWing).bgEnd 0xC003 v 0 [])) ∧
    (w < 16 →
      (d.wgState w = wgFree → s.Serves c 0xC006 1 [(0, 1)] .op → exec .wingQuery s = no 6) ∧
      (d.wgState w ≠ wgFree →
        (s.Serves c 0xC006 1 [(0, 1)] .op → exec .wingQuery s = s.ends c 0
          (le 512 ((d.wingLooms w).foldl (fun v n => v + 2 ^ n.toNat) 0) ++ le 8 (d.wing w).extents.length ++
            (d.wing w).extents.flatMap (fun e => le 8 e.1 ++ le 4 (e.2 / 2 ^ 28) ++ le 4 0)) d) ∧
        (s.Serves c 0xC007 1 [(0, 1)] .wing → exec .stateDescriptor s = s.ends c 0 (d.stateDescriptor w) d ∧
          (d.stateDescriptor w).take 8 = le 8 (d.card Crd.WING_STATE w) ∧ (d.stateDescriptor w).length = 2144)))

/-! ### Tiers, integrity, reduction, service -/

/-- Commands on tiers and their integrity (R198, R206, R207, R215 to R219, R232 to R241): pages rotate, stacks and channels evacuate,
atrium ranges are pinned, frames retire; each refuses what its rule refuses, with nothing changed. -/
def Obligations.TierCommands : Prop :=
  ∀ (s : State) (c : MbCmd),
    let d := s.dev
    let a := c.num 0 1
    let no (r : Nat) : Out := s.ends c r [] d
    let starts (obj : Nat) (e : Dev) : Out := s.settling (e.begun c obj)
    let done (obj : Nat) (out : List Byte) (e : Dev) : Out := s.settling ((e.begun c obj).bgEnd c.op obj 0 out)
    (s.Serves c 0xC010 1 [(0, 1)] .op →
      (a > 16 → exec .stripeLimit s = no 1) ∧
      (a ≤ 16 → (d.limitMoves a).any (fun p => d.extentWing (p * 2 ^ 26) ≠ noWing) = true → exec .stripeLimit s = no 4) ∧
      (a ≤ 16 → d.limitMoves a = [] →
        let pages := List.range (d.dspSize / 2 ^ 26)
        let e := ((pages.filter (fun p => (d.locOf p).at_ ≠ (d.setFld Fld.DSP_LAYOUT_LIMIT 0 a).initialSlot p)).foldl (fun (e : Dev) p =>
          e.setLoc p (d.locOf p)) d).setFld Fld.DSP_LAYOUT_LIMIT 0 a
        let used := (pages ++ (List.range (d.depSize / 2 ^ 26)).map (· + depotBase / 2 ^ 26)).map (fun p => (e.locOf p).at_) ++
          d.tiers.rots.map (fun r => r.2.dst) ++ d.tiers.lostSlots
        exec .stripeLimit s = done a [] (e.setFree (e.dspPool used ++ d.tiers.free.filter (fun x => x.k = 2 && !used.contains x))))) ∧
    (s.Serves c 0xC011 6 [(0, 6)] .op → 1 ≤ c.num 4 2 → c.num 4 2 ≤ 256 → c.num 0 4 < 2 ^ 22 → exec .locationRead s =
      s.ends c 0 ((List.range (c.num 4 2)).flatMap (fun i => le 8 (d.locEntry (c.num 0 4 + i)))) d) ∧
    (s.Serves c 0xC012 10 [(0, 1), (4, 6)] .op → a = 0 → c.num 1 1 = 0 → 1 ≤ c.num 8 2 → c.num 8 2 ≤ 512 → c.num 4 4 < 2 ^ 22 →
      exec .tierStats s = s.ends c 0 ((List.range (c.num 8 2)).flatMap (fun i => le 4 (d.pageHeat (c.num 4 4 + i)))) d) ∧
    (s.Serves c 0xC013 5 [(0, 5)] .op →
      let p := c.num 0 4
      let k := c.num 4 1
      ((d.locOf p).st = .unpopulated → exec .rotate s = no 6) ∧
      ((d.locOf p).st ≠ .unpopulated → k > 2 → exec .rotate s = no 1) ∧
      ((d.locOf p).st = .rotating → k = 2 → d.placeOk p ⟨2, 0⟩ = true → exec .rotate s = no 3) ∧
      ((d.locOf p).st = .resident → k = 2 → d.placeOk p ⟨2, 0⟩ = true → ∀ i x, d.rotReg = some i → d.freeSlot p 2 = some x →
        let l := d.locOf p
        let e := (d.setFree (eraseOne x d.tiers.free)).setLoc p ⟨.rotating, l.at_⟩
        let e := e.setRots (Fmap.put e.tiers.rots i { page := p, src := l.at_, dst := x })
        let e := ((e.setRotStatus i rsCopying).setFld Fld.ROT_STATE_ROUNDS i 0).setFld Fld.ROT_STATE_DEST_KIND i x.k
        exec .rotate s = s.ends c 0 (le 1 i) ((e.setFld Fld.ROT_STATE_PAGE i p).noteJob c 0 i))) ∧
    (s.Serves c 0xC014 1 [(0, 1)] .op →
      (a ≥ 16 → exec .rotateAbort s = no 1) ∧
      (a < 16 → d.rotStatus a = rsSwitching → exec .rotateAbort s = no 3) ∧
      (a < 16 → d.rotStatus a = rsCopying → d.tiers.evac = [] → ∀ r, Fmap.find d.tiers.rots a = some r →
        let e := (d.setRots (Fmap.del d.tiers.rots a)).setLoc r.page ⟨.resident, r.src⟩
        exec .rotateAbort s = s.ends c 0 [] ((e.setFree (e.tiers.free ++ [r.dst])).setRotStatus a rsAborted))) ∧
    (d.wingUsable a = none → c.num 1 1 ≤ 1 →
      let x := c.num 8 8
      let n := c.num 16 8
      (s.Serves c 0xC015 24 [(0, 2), (8, 16)] .wing →
        (d.asm.atriumBits = 0 → exec .atriumPin s = no 5) ∧
        (d.asm.atriumBits ≠ 0 → x % 256 ≠ 0 → exec .atriumPin s = no 1) ∧
        (d.asm.atriumBits ≠ 0 → x % 256 = 0 → n = 256 → d.ownsRange a x n = false → exec .atriumPin s = no 2) ∧
        (d.asm.atriumBits ≠ 0 → x % 256 = 0 → n = 256 → d.ownsRange a x n = true → d.pinFits a x n = true → d.rangeOpen x n = true →
          c.num 1 1 = 1 → ∀ k l, d.atriumFind x = some (k, l) →
          let e : Dev := { d with tiers := { d.tiers with pins := d.tiers.pins ++ [(BitVec.ofNat 4 a, x, n)] } }
          exec .atriumPin s = done x []
            (e.atriumPut k { l with valid := 15, dirty := 15, poison := 0, data := 0, pinned := true, nru := true }))) ∧
      (s.Serves c 0xC016 24 [(0, 1), (8, 16)] .wing → d.asm.atriumBits ≠ 0 → x % 256 = 0 → n = 256 → d.ownsRange a x n = true →
        d.rangeOpen x n = true → ∀ k l, d.atriumFind x = some (k, l) → l.pinned = true →
        let e : Dev := { d with tiers := { d.tiers with pins := d.tiers.pins.filter (fun p => p ≠ (BitVec.ofNat 4 a, x, n)) } }
        exec .atriumUnpin s = done x [] ((e.atriumClean l).atriumPut k { l with pinned := false, dirty := 0 }))) ∧
    (s.Serves c 0xC017 1 [(0, 1)] .op →
      (a ≥ 16 → exec .stackEvacuate s = no 1) ∧
      (a < 16 → d.asm.hasStack a = false → exec .stackEvacuate s = no 6) ∧
      (a < 16 → d.asm.hasStack a = true → d.stackState a = 3 → exec .stackEvacuate s = no 3) ∧
      (a < 16 → d.asm.hasStack a = true → d.stackState a = 1 → d.tiers.evac = [] → ∀ e, d.evacuate a c.place = (0, e) →
        e.tiers.evac = [(a, c.place)] → exec .stackEvacuate s = starts a e)) ∧
    (s.Serves c 0xC018 1 [(0, 1)] .op →
      (a ≥ 24 → exec .channelEvacuate s = no 1) ∧
      (a < 24 → d.chanState a = 0 → exec .channelEvacuate s = no 6) ∧
      (a < 24 → d.chanState a = 2 → exec .channelEvacuate s = no 3) ∧
      (a < 24 → d.chanState a = 1 → d.tiers.evac = [] → ∀ e, d.evacuate (16 + a) c.place = (0, e) →
        e.tiers.evac = [(16 + a, c.place)] → exec .channelEvacuate s = starts a e)) ∧
    (s.Serves c 0xC019 1 [(0, 1)] .op → a < 24 →
      (d.chanState a = 2 → exec .channelOffline s = s.ends c 0 [] (d.setChanState a 3)) ∧
      (d.chanState a = 1 → exec .channelOffline s = no 3)) ∧
    (s.Serves c 0xC01A 3 [(0, 3)] .op → ∀ (t : TrainRes),
      (a > 1 → exec (.channelRetrain true t) s = no 1) ∧
      (a = 0 → c.num 1 1 < 16 → c.num 2 1 < 32 → d.asm.hasStack (c.num 1 1) = true → d.stackState (c.num 1 1) = 1 → d.repairSlot ≠ none →
        exec (.channelRetrain true t) s = done 0 [] (d.laneRepair (32 * c.num 1 1 + c.num 2 1) t)) ∧
      (a = 1 → c.num 1 1 = 0 → c.num 2 1 < 24 → d.chanState (c.num 2 1) ≠ 0 → exec (.channelRetrain false t) s = no 1) ∧
      (a = 1 → c.num 1 1 = 0 → c.num 2 1 < 24 → d.chanState (c.num 2 1) = 1 →
        exec (.channelRetrain true t) s = done 1 [] (d.clrFld Fld.CHAN_FAULT_FAULTED 8 (2 ^ c.num 2 1)))) ∧
    (c.frameRange = true → ∀ f, c.frame (c.num 8 4) = f → d.frameOk f = true → d.tiers.retired = [] → d.tiers.retiring = [] →
      d.repairSlot ≠ none →
      let retiring (e : Dev) (fs : List Frame) (bank : Bool) : Dev := { e with tiers := { e.tiers with
        retiring := [⟨f.home, fs, d.spareTotal f - d.spareFree f, c.place, bank⟩] } }
      (s.Serves c 0xC020 12 [(0, 5), (8, 4)] .op →
        (d.spareFree f = 0 → exec .retireFrame s = no 5) ∧
        (1 ≤ d.spareFree f → exec .retireFrame s = starts f.home (retiring (d.setSpareFree f (d.spareFree f - 1)) [f] false))) ∧
      (s.Serves c 0xC021 5 [(0, 5)] .op → f.row = 0 → (d.bankFrames f).length ≤ d.spareFree f → exec .retireBank s = starts f.home
        (retiring (d.setSpareFree f (d.spareFree f - (d.bankFrames f).length)) (d.bankFrames f) true))) ∧
    (s.Serves c 0xC022 7 [(0, 7)] .op → ∀ res : List (Byte × Byte),
      let out := le 2 res.length ++ res.flatMap (fun p => [p.1, p.2])
      let k := 32 * c.num 1 1 + c.num 2 1
      (c.frameRange = false → exec (.margin res) s = no 1) ∧
      (c.frameRange = true → a = 0 → c.num 4 1 ≤ 4 → c.num 3 1 = 0 → c.num 5 1 = 0 → c.num 6 1 = 0xFF → d.asm.hasStack (c.num 1 1) = true →
        (d.stackState (c.num 1 1) ≠ 0 → d.stackState (c.num 1 1) ≠ 2 → d.chanFaulted k = false → exec (.margin res) s = done k out d) ∧
        (d.stackState (c.num 1 1) = 2 → exec (.margin res) s = no 3)))

/-- Region commands (R249, R264, Table 10-11), boot-flash records, tile calibration, health, microcode, warm reset, the provenance
ROM (R363, R401 to R408), the registrar's start-up and its heartbeat (R389 to R392, R441). -/
def Obligations.RegionAndServiceCommands : Prop :=
  ∀ (s : State) (c : MbCmd),
    let d := s.dev
    let r := c.num 0 2
    let no (k : Nat) : Out := s.ends c k [] d
    let ok (e : Dev) : Out := s.ends c 0 [] e
    let done (obj : Nat) (out : List Byte) (e : Dev) : Out := s.settling ((e.begun c obj).bgEnd c.op obj 0 out)
    let in2 (op : Nat) : Prop := s.Serves c op 2 [(0, 2)] .region
    (r < 4096 → d.regionWing r < 16 →
      (s.Serves c 0xC030 72 [(0, 2), (8, 64)] .region →
        let v := BitVec.ofNat 512 (c.num 8 64)
        (∀ e, d.enableRefused (d.regionWing r) r v = some e → exec .regionEnable s = no e) ∧
        (d.enableRefused (d.regionWing r) r v = none → d.epochReady r v = true →
          let e := d.endAsks (.region (BitVec.ofNat 12 r))
          let e := ({ e with regions := Fmap.put e.regions r v } : Dev).clearCounts r
          let e := e.spanWrite (descField v 128 48) 8 (descField v 256 64) [] 0 (e.regionWing r)
          exec .regionEnable s = ok ((e.setRgState r rgOpen).setFld Fld.REGION_STATUS_FAULT r 0))) ∧
      (d.rgState r = rgDisabled → (in2 0xC031 → exec .regionDisable s = no 3) ∧ (in2 0xC032 → exec .regionRun s = no 3) ∧
        (in2 0xC033 → exec .regionReopen s = no 3) ∧ (in2 0xC035 → exec .regionAbort s = no 3)) ∧
      (d.rgState r = rgOpen →
        (in2 0xC031 → exec .regionDisable s = ok (((({ d with regions := Fmap.del d.regions r, rerun := Fmap.del d.rerun r } : Dev).clearCounts
          r).setRgState r rgDisabled).setFld Fld.REGION_STATUS_FAULT r 0)) ∧
        (in2 0xC032 → exec .regionRun s = ok (({ d.setRgState r rgWaiting with runQ := d.runQ ++ [r] } : Dev).noteJob c 1 r))) ∧
      (d.rgState r = rgFaulted →
        (in2 0xC033 → exec .regionReopen s = ok (((({ d with rerun := Fmap.del d.rerun r } : Dev).clearCounts r).setRgState r
          rgOpen).setFld Fld.REGION_STATUS_FAULT r 0)) ∧
        (s.Serves c 0xC034 3 [(0, 3)] .region →
          (d.desc r 240 4 < c.num 2 1 → exec .regionRerun s = no 1) ∧
          (c.num 2 1 ≤ d.desc r 240 4 →
            let e : Dev := { d with rerun := Fmap.put d.rerun r (c.num 2 1, (Fmap.get (0, [0, 0, 0, 0]) d.rerun r).2) }
            exec .regionRerun s = ok ((({ e.setRgState r rgWaiting with runQ := d.runQ ++ [r] } : Dev).setFld
              Fld.REGION_STATUS_FAULT r 0).noteJob c 1 r)))) ∧
      (d.rgState r = rgWaiting → in2 0xC035 → Fmap.find d.rerun r = none →
        let e := ((({ d with runQ := d.runQ.filter (· ≠ r) } : Dev).setRgState r rgFaulted).setFld Fld.REGION_STATUS_FAULT r 4).setFld
          Fld.REGION_STATUS_ENTRY r 0
        exec .regionAbort s = ok ((e.report (e.runSrc r 0) (mkDetail (e.entryAddr r 0) r 4) (e.regionWing r)).regionIrq r))) ∧
    (s.Serves c 0xC040 2 [(0, 2)] .op →
      (2 ^ (2 * d.asm.xdies) ≤ r → exec .portConfig s = no 1) ∧
      (r < 2 ^ (2 * d.asm.xdies) → exec .portConfig s = ok { d with bifurRec := BitVec.ofNat 8 r })) ∧
    (s.Serves c 0xC041 18 [(0, 18)] .op → c.num 0 1 ≤ 7 → c.num 1 1 = 0 → ∀ ps, (List.range 16).map (fun q => c.num (2 + q) 1) = ps →
      (ps.all (fun p => p ≤ 7 || p = 0xFF) = true → exec .portMap s = ok { d with reg := { d.reg with portMap := c.num 0 1 :: ps } }) ∧
      (ps.any (fun p => p = 8) = true → exec .portMap s = no 1)) ∧
    (s.Serves c 0xC050 9 [(0, 9)] .op → c.num 8 1 = 0 → c.num 0 8 = 1 → ∀ v : Int,
      let e (x : Dev) : Dev := (List.range 4).foldl Dev.railAsk x
      ((tileLooms 0).all (fun n => d.loomState n = stIdle) = true → d.vfOffset 0 15 < v → v < 128 →
        exec (.vfRecalibrate [(0, 15, v)]) s = done 1 (le 8 1 ++ le 8 0) (e { d with selv := { d.selv with vf := Fmap.put d.selv.vf 15 v } })) ∧
      ((tileLooms 0).all (fun n => d.loomState n = stIdle) = false →
        exec (.vfRecalibrate [(0, 15, v)]) s = done 1 (le 8 0 ++ le 8 1) (e d))) ∧
    (d.live = true → d.mbFront 0xC051 = some c → c.data = [] → d.ctx c = some .operator → exec .health s = s.ends c 0 d.health d ∧ d.health.length = 48) ∧
    (s.Serves c 0xC054 4 [(0, 4)] .op →
      let n := c.num 2 2
      (r + n > 2 ^ 16 → exec .provenanceRead s = no 1) ∧
      (1 ≤ n → n ≤ 4096 → r + n ≤ 2 ^ 16 → exec .provenanceRead s = s.ends c 0 ((List.range n).map (fun i =>
        if 0x4000 ≤ r + i ∧ r + i < 0x4100 then 0 else BitVec.ofNat 8 (d.provByte (r + i)))) d)) ∧
    (s.Serves c 0xC052 1 [(0, 1)] .op → c.num 0 1 < 16 → d.reg.ucode = [] → ∀ m ms,
      (List.range 4).filter (fun m => (c.num 0 1).testBit m) = m :: ms → exec .ucodeReload s = s.settling
        ((({ d with reg := { d.reg with ucode := m :: ms, ucodeBox := c.place } } : Dev).orFld Fld.CONS_STATE_DRAINING 0 (2 ^ m)).begun c 0)) ∧
    (∀ m, d.live = true → d.reg.running = true → d.reg.ucode = [m] → d.enginesIdle m = true →
      let e := d.clrFld Fld.CONS_STATE_DRAINING 0 (2 ^ m)
      exec (.ucodeLoad true) s = s.settling
        (({ e with reg := { d.reg with ucode := [], ucodeVer := Fmap.get 0 d.reg.fwVer 3 } } : Dev).bgEnd 0xC052 0 0 []) ∧
      exec (.ucodeLoad false) s = s.settling (({ e with reg := { d.reg with ucode := [] } } : Dev).bgEnd 0xC052 0 7 [])) ∧
    (s.Serves c 0xC053 0 [] .op → exec .warmReset s = s.settling ((d.mbReply c 0 0 []).warmReset)) ∧
    (∀ x : StartIn, d.live = true → d.reg.running = false →
      (d.reg.warm = true → exec (.registrarStartUp x) s = s.settling (d.startImage x)) ∧
      (d.reg.warm = false → d.reg.bootOver = 0 → d.strap 2 = false →
        (x.okA = true → exec (.registrarStartUp x) s = s.settling (({ d with reg := { d.reg with slot := 1 } } : Dev).startImage x)) ∧
        (x.okA = false → x.okB = false → exec (.registrarStartUp x) s = s.settling
          ((d.report 0x370 (mkDetail 0 1 0) noWing).report 0x370 (mkDetail 0 2 0) noWing)))) ∧
    (d.reg.running = true → 16 ≤ d.ledger.erased → exec .heartbeat s = s.showing { d with reg := { d.reg with beat := d.tick, lost := 0 } }) ∧
    (d.reg.running = false → exec .heartbeat s = s.showing d) ∧
    (d.ledgerOn = true → d.reg.beat + (d.reg.lost + 1) * 1000000 ≤ d.tick → exec .heartbeatLost s = s.showing
      (({ d with reg := { d.reg with lost := d.reg.lost + 1 } } : Dev).report 0x372 (mkDetail 0 0 0) noWing))

/-! ### Power, ledger, pins -/

/-- What the selvage's commands do while it runs and has not tripped. ARBITER_PERIOD: the average moves by (P − A) × 2 µs / W with
P = E while not diverging (R418), and the grants of each rail stay within RAIL_IMAX and RISE (R417). SLOW_LOOP: every RUN tile shows
its phase, and a tile of an unlocked package rises by at most one point (R423). CALIBRATION, within 15 % of CAP: CAL takes the eighth
root of M/E within its bounds (R424). RAIL_SETTLED: the monitor shows the voltage asked for (R414). SENSOR_SAMPLE: each tile shows its
reading, a tile above THROTTLE + 5 °C has limit 0, one above THROTTLE loses a point once 100 µs have passed, and one from THROTTLE
− 3 °C up to THROTTLE keeps its limit while no other junction sensor is hot (R432). RRL_ALERT is a report of source 0x362.
THERMAL_TRIP stops the tiles and the fast logic (R434). THROTTLE_IN sets the external limit in the run phase only, SELV_CAP_WRITE
clamps both fields (R420), and the four tile commands wake, gate and stop a tile (R410). -/
def Obligations.PowerLoops : Prop :=
  (∀ x e : Nat, e ≠ 0 → root8 x e ^ 8 * e ≤ x ∧ (root8 x e < 8191 → x < (root8 x e + 1) ^ 8 * e)) ∧
  (∀ s : State, s.dev.selvOn = true → s.dev.selv.tripped = false →
    let d := s.dev
    let thr := d.fld Fld.SELV_THERMAL_THROTTLE 0
    (∀ x : ArbIn, ∃ e, exec (.arbiterPeriod x) s = s.showing e ∧ e.selv.meas = x.meas ∧
      e.selv.est = x.act * d.fld Fld.SELV_STATUS_CAL 0 / 4096 ∧ e.looms = d.looms ∧ e.tiers = d.tiers ∧
      (d.fld Fld.SELV_STATUS_DIVERGING 0 = 0 → e.selv.avg = ((d.selv.avg : Int) +
        (((e.selv.est : Int) * 10 ^ 6 - d.selv.avg) * 2) / ((d.fld Fld.SELV_CAP_WINDOW 0 : Int) * 10 ^ 6)).toNat) ∧
      ∀ die, die < 4 →
        Fmap.get 0 e.selv.railTotal die ≤ 4 * d.fld Fld.SELV_LIMITS_RAIL_IMAX 0 ∧
        Fmap.get 0 e.selv.railTotal die ≤ Fmap.get 0 d.selv.railTotal die + 4 * d.fld Fld.SELV_LIMITS_RISE 0) ∧
    (∀ x : SlowIn, ∃ e, exec (.slowLoop x) s = s.showing e ∧ e.looms = d.looms ∧ ∀ t, t ∈ d.runTiles →
      e.fld Fld.TILE_STATE_PHASE t = (x.act.getD t {}).phase ∧ (d.locked = false → e.point t ≤ d.point t + 1)) ∧
    (∀ x : SlowIn, d.runTiles = [] → exec (.slowLoop x) s = s.showing
      (({ d with selv := { d.selv with pointHit := false,
                                       power := (List.range 64).foldl (fun (m : Fmap Nat) t => Fmap.put m t (x.limit t)) [] } } : Dev).showReasons.jgNotify)) ∧
    (∀ est meas : Nat, est ≠ 0 → est ≤ meas → (meas - est) * 100 ≤ 15 * (d.fld Fld.SELV_CAP_CAP 0 * 1000) →
      d.fld Fld.SELV_STATUS_DIVERGING 0 = 0 →
      let c := clamp 3072 5447 (root8 (d.fld Fld.SELV_STATUS_CAL 0 ^ 8 * meas) est)
      let e := ((d.setFld Fld.SELV_STATUS_CAL 0 c).setFld Fld.SELV_POWER_EST 0 (min 0xFFFF (est / 1000))).setFld Fld.SELV_POWER_MEAS 0
        (min 0xFFFF (meas / 1000))
      let okAt := match d.selv.okSince with | some t => t | none => d.tick
      exec (.calibration est meas) s = s.showing
        (({ e with selv := { d.selv with divSince := none, okSince := some okAt } } : Dev).showReasons)) ∧
    (∀ raw : List Int, ∃ e, exec (.sensorSample raw) s = s.showing e ∧ e.looms = d.looms ∧
      let r := d.readSensors raw
      ∀ t, t < 64 →
        let v := r.tempOf t
        let lim := d.fld Fld.TILE_STATE_HEAT_LIMIT t
        let now := e.fld Fld.TILE_STATE_HEAT_LIMIT t
        e.fld Fld.TILE_STATE_TEMP t = min 255 v.toNat ∧
        (2 * (thr : Int) + 10 < v → now = 0) ∧
        (2 * (thr : Int) < v → v ≤ 2 * (thr : Int) + 10 → (∀ since, Fmap.find d.selv.heatAt t = some since → since + 100 ≤ d.tick) →
          now = (if d.tileState t = tsRun then min lim (d.point t) else lim) - 1) ∧
        (2 * (thr : Int) - 6 ≤ v → v ≤ 2 * (thr : Int) →
          (∀ i, i ∈ r.sensors → 64 ≤ i → i < 104 → r.tempOf i ≤ 2 * (thr : Int)) → now = lim)) ∧
    (∀ die : BitVec 2, d.selv.pend = [] →
      let rail := Fmap.put d.selv.rail die.toNat (Fmap.get 750 d.selv.want die.toNat)
      exec (.railSettled die) s = s.showing { d with selv := { d.selv with rail := rail } }) ∧
    exec .rrlAlert s = s.showing (d.report 0x362 (mkDetail 0 0 0) noWing) ∧
    (let e : Dev := { d with selv := { d.selv with tripped := true }, pins := { d.pins with thermtrip := true },
                             reg := { d.reg with running := false } }
     exec .thermalTrip s = s.showing ((((List.range 64).foldl (fun (e : Dev) t => e.setFld Fld.TILE_STATE_STATE t tsTripped) e).report 0x363
       (mkDetail 0 0 0) noWing).showReasons)) ∧
    (∀ on : Bool, d.pins.phase = .run →
      let e : Dev := { d with pins := { d.pins with throttleIn := on } }
      exec (.throttleIn on) s = s.showing (if on then (e.dropPoints (fun t => e.extLimit < e.point t)).jgNotify.showReasons else e.jgNotify.showReasons)) ∧
    (∀ on : Bool, d.pins.phase = .fault → exec (.throttleIn on) s = s.showing d) ∧
    (∀ (h : HeadId) (v : W32), d.live = true → d.Writes h .selvage 0 →
      exec (.selvCapWrite h v) s = s.settling (((d.setFld Fld.SELV_CAP_CAP 0 (clamp 1500 3600 (v.toNat % 2 ^ 12))).setFld
        Fld.SELV_CAP_WINDOW 0 (clamp 1 30 (v.toNat / 2 ^ 16 % 2 ^ 5))).capState)) ∧
    (∀ b : BitVec 6,
      let t := b.toNat
      let waking (us : Nat) : Dev := { (d.setFld Fld.TILE_STATE_STATE t 2).setFld Fld.TILE_STATE_PHASE t 3 with tileAt := Fmap.put d.tileAt t (d.tick + us) }
      (d.tileState t = tsPllOff → exec (.tileWake b) s = s.showing ((waking 40).railAsk (t / 16))) ∧
      (d.tileState t = tsGated → exec (.tileWake b) s = s.showing ((waking 2).railAsk (t / 16))) ∧
      (d.tileState t = tsGated → ∀ delay, d.fld Fld.TILE_CTRL_PLLOFF_DELAY 0 = delay → delay ≠ 0xFFFF →
        Fmap.get 0 d.tileAt t + delay ≤ d.tick → exec (.tilePllOff b) s = s.showing (d.setFld Fld.TILE_STATE_STATE t tsPllOff)) ∧
      (d.tileState t = tsWaking → Fmap.get 0 d.tileAt t ≤ d.tick → (Fmap.find d.selv.grants t).isSome = true →
        (∀ n, d.loomState n ≠ stWaking) →
        let e := d.setFld Fld.TILE_STATE_STATE t tsRun
        let p := e.startPoint t
        let now := ((List.range (p + 1)).reverse.find? (fun n => e.vReq t n ≤ 10 * (e.railMv (t / 16) : Int))).getD 0
        let e := (e.setFld Fld.TILE_STATE_POINT t now).setPoint t p
        exec (.tileWakeComplete b) s = s.showing { e with tileIdle := Fmap.del e.tileIdle t }) ∧
      (d.tileState t = tsRun → ((tileLooms t).any d.keepsTile) = false → (tileLooms t).all d.loomQuiet = true →
        ∀ since, Fmap.find d.tileIdle t = some since → since + 10 ≤ d.tick →
        let e := (tileLooms t).foldl (fun (e : Dev) n => e.setLoom n { e.loom n with tlb := [] }) ((tileLooms t).foldl Dev.loomFlush d)
        let v := { e.selv with pend := Fmap.del e.selv.pend t, grants := Fmap.del e.selv.grants t,
                               powerOk := e.selv.powerOk.filter (fun c => c.1 / 16 ≠ t) }
        let e : Dev := { e.setFld Fld.TILE_STATE_STATE t tsGated with tileAt := Fmap.put e.tileAt t e.tick, selv := v }
        exec (.tileGate b) s = s.showing (e.railAsk (t / 16)))))

/-- The ledger's commands while it runs. LEDGER_EVENT takes the reports in order: a named hardware error is one of its own unit's source
(Table 18-1), a report of a source whose rail is bad is discarded (R439), and the first event of a source below its N, neither open
nor escalated, opens a record with the next SEQ, counts and latches (R442), a FATAL one also containing the device (R449, spelled out
here). RAIL_FAULT of a pair not yet bad marks it and reports 0x380. Writes of FORCE, OPEN, ESCALATED, VALID and
OVERFLOW act as R443; LEDGER_RELEASE takes effect only with the latched SEQ and no later FATAL less than 100 µs old (R450); ALIVE and
FAULT_N follow R451, the nibble frame R470. A mirror marks itself stale and reports (R444); a commit keeps the changed records, when
they are at most 256, and without erased sectors reports 0x383 (R453); the responder answers its four reads (R448). -/
def Obligations.LedgerCommands : Prop :=
  ∀ s : State, s.dev.ledgerOn = true →
    let d := s.dev
    (∀ x : HwErr, exec (.ledgerEvent (some x)) s = exec (.ledgerEvent none) { s with dev := d.hwError x }) ∧
    (∀ die k : BitVec 2, d.hwError (.weave die k) = d.report (0x100 + 4 * die.toNat + k.toNat) (mkDetail 0 die.toNat 0) noWing) ∧
    (d.reports = [] → exec (.ledgerEvent none) s = s.showing d) ∧
    (∀ r rest, d.reports = r :: rest → d.fld Fld.LEDGER_SRC_RAIL_BAD r.src = 1 →
      exec (.ledgerEvent none) s = s.showing { d with reports := rest }) ∧
    (∀ r rest, d.reports = r :: rest → d.fld Fld.LEDGER_SRC_RAIL_BAD r.src = 0 → d.fld Fld.LEDGER_SRC_WCOUNT r.src = 0 →
      d.fld Fld.LEDGER_SRC_OPEN r.src = 0 → d.fld Fld.LEDGER_SRC_ESCALATED r.src = 0 → 2 ≤ d.fld Fld.LEDGER_SRC_N r.src →
      let n := r.src
      let cls := d.fld Fld.LEDGER_SRC_BASE n
      let e : Dev := { d with reports := rest, ledger := { d.ledger with wstart := Fmap.put d.ledger.wstart n d.tick } }
      let e := (e.setFld Fld.LEDGER_SRC_WCOUNT n 1).satAdd Fld.LEDGER_CNT_TOTAL n 1
      let seq := d.fld Fld.LEDGER_STATUS_NEXT_SEQ 0
      let rec_ : LRec := { seq := seq, source := n, cls := cls, forced := false, rail := false, wing := r.wing, first := d.tick,
                           last := d.tick, detail := r.detail }
      let slot := e.ledger.slotFor
      let f := (e.setLedger (({ e.ledger with ring := Fmap.put e.ledger.ring slot rec_, next := (slot + 1) % 4096 } : Ledger).touch
        slot)).setFld Fld.LEDGER_STATUS_NEXT_SEQ 0 (seq + 1)
      let g := ((f.setFld Fld.LEDGER_SRC_OPEN n 1).setFld Fld.LEDGER_SRC_SLOT n slot).latch n cls seq true
      (cls < clsFatal → exec (.ledgerEvent none) s = s.showing (g.ledgerNotify rec_ true false)) ∧
      (cls = clsFatal →
        let k := g.ledgerNotify rec_ true true
        exec (.ledgerEvent none) s = s.showing ((k.setLedger { k.ledger with lastFatal := some (d.tick, seq) }).contain n seq false))) ∧
    (∀ n seq, d.fatal = false → d.pins.phase = .run →
      let c := faultClass n
      let e := ((((((d.setFld Fld.LEDGER_FATAL_VALID 0 1).setFld Fld.LEDGER_FATAL_TRIP 0 (if n = 0x363 then 1 else 0)).setFld
        Fld.LEDGER_FATAL_RELEASED 0 0).setFld Fld.LEDGER_FATAL_FORCED 0 0).setFld Fld.LEDGER_FATAL_FAULT_CLASS 0 c).setFld
        Fld.LEDGER_FATAL_SOURCE 0 n)
      let e := ((e.setFld Fld.LEDGER_FATAL_SEQ 0 seq).setFld Fld.LEDGER_STATUS_FATAL 0 1).setFld Fld.LEDGER_STATUS_FAULT_PHASE 0 1
      let p : Pins := { d.pins with phase := .fault, alive := false, fault := true, faultAt := d.tick, nibble := c, frameAt := none,
                                    throttleIn := false, throttled := false, hot := false, limited := false }
      d.contain n seq false = ({ e with pins := p } : Dev).containAll) ∧
    (∀ n : BitVec 10, d.fld Fld.LEDGER_SRC_RAIL_BAD n.toNat = 1 → exec (.railFault n) s = s.showing d) ∧
    (∀ n : BitVec 10, d.fld Fld.LEDGER_SRC_RAIL_BAD n.toNat = 0 → n ≠ 0x380 →
      let e := (d.setFld Fld.LEDGER_SRC_RAIL_BAD n.toNat 1).event n.toNat (mkDetail 0 n.toNat 0) noWing false true
      e.fld Fld.LEDGER_SRC_RAIL_BAD 0x380 = 0 →
      exec (.railFault n) s = s.showing (e.event 0x380 (mkDetail 0 n.toNat 0) noWing false false)) ∧
    (∀ h : HeadId, d.live = true → d.Writes h .ledger 0 →
      (∀ (n : BitVec 10) (v : W64), d.Writes h .ledger n.toNat → n ≠ 0x363 →
        let f (lo k : Nat) : Nat := (v.extractLsb' lo k).toNat
        let e := (((d.dropHalf h Crd.LEDGER_SRC n.toNat).setFld Fld.LEDGER_SRC_BASE n.toNat (f 58 2)).setFld Fld.LEDGER_SRC_ESC n.toNat (f 56 2)).setFld Fld.LEDGER_SRC_N n.toNat
          (max 1 (f 45 11))
        let e := e.setFld Fld.LEDGER_SRC_W n.toNat (max 1 (f 29 16))
        (v.getLsbD 63 = true → v.getLsbD 62 = false → v.getLsbD 61 = false →
          exec (.force h n v) s = s.settling (e.event n.toNat (mkDetail 0 0 0) noWing true false)) ∧
        (v.getLsbD 63 = false → v.getLsbD 62 = true → v.getLsbD 61 = false →
          exec (.openClear h n v) s = s.settling (e.closeRecord n.toNat)) ∧
        (v.getLsbD 63 = false → v.getLsbD 62 = false → v.getLsbD 61 = true → exec (.escalatedClear h n v) s = s.settling
          ((e.setFld Fld.LEDGER_SRC_ESCALATED n.toNat 0).setFld Fld.LEDGER_SRC_WCOUNT n.toNat 0))) ∧
      exec (.firstValidClear h) s = s.settling ((d.dropHalf h Crd.LEDGER_FIRST 0).setFld Fld.LEDGER_FIRST_VALID 0 0) ∧
      exec (.overflowClear h) s = s.settling ((((d.dropHalf h Crd.LEDGER_OVERFLOW 0).setFld Fld.LEDGER_OVERFLOW_OVERFLOW 0 0).setFld Fld.LEDGER_OVERFLOW_SOURCES 0 0).setFld
        Fld.LEDGER_OVERFLOW_EVENTS 0 0) ∧
      (∀ q : W32, d.fatal = true → d.fld Fld.LEDGER_FATAL_TRIP 0 = 0 →
        (∀ t k, d.ledger.lastFatal = some (t, k) → k ≠ d.fld Fld.LEDGER_FATAL_SEQ 0 → d.tick < t + 100 →
          exec (.ledgerRelease h q) s = s.settling d) ∧
        (d.fld Fld.LEDGER_FATAL_SEQ 0 ≠ q.toNat → exec (.ledgerRelease h q) s = s.settling d) ∧
        (d.fld Fld.LEDGER_FATAL_SEQ 0 = q.toNat → d.newFatal = false →
          let e := (d.setFld Fld.LEDGER_FATAL_RELEASED 0 1).setFld Fld.LEDGER_STATUS_FATAL 0 0
          let e := allHeads.foldl (fun (e : Dev) h => if e.fld Fld.HEAD_STATUS_FREEZE_CAUSE h.toNat = 1 then e.unfreeze h else e) e
          exec (.ledgerRelease h q) s = s.settling ((List.range 4096).foldl (fun (e : Dev) n =>
            if e.loomState (BitVec.ofNat 12 n) = stPaused ∨ e.loomState (BitVec.ofNat 12 n) = stRunning then e.unpause (BitVec.ofNat 12 n)
            else e) e)))) ∧
    (d.pins.phase = .run → d.pins.aliveAt + 500 ≤ d.tick →
      exec .aliveToggle s = s.showing { d with pins := { d.pins with alive := !d.pins.alive, aliveAt := d.tick } }) ∧
    (d.pins.phase = .fault →
      exec .aliveToggle s = s.showing d ∧
      (d.pins.faultAt + 10000 ≤ d.tick → exec .faultNHoldExpiry s = s.showing
        { d with pins := { d.pins with fault := decide (d.fld Fld.LEDGER_CTRL_FAULT_HOLD 0 = 1) } }) ∧
      (∀ t, d.pins.frameAt = some t → t + 100000 ≤ d.tick → exec .faultNibbleFrame s = s.showing
        (({ d with pins := { d.pins with frameAt := some d.tick } } : Dev).send (.nibble (BitVec.ofNat 4 d.pins.nibble))))) ∧
    (∀ x : XDie, x.toNat < d.asm.xdies → d.ledger.stale.getLsbD x.toNat = false →
      let m : Mirror := { regs := d.regs.filter (fun c => ledgerIds.contains c.1), ring := d.ledger.ring }
      let old := d.ledger.stale ||| (1 : BitVec 4) <<< x.toNat
      let l := { d.ledger with stale := old, mirrors := Fmap.put d.ledger.mirrors x.toNat m }
      exec (.mirrorStale x) s = s.showing ((d.setLedger l).report (0x350 + 4 * x.toNat + 3) (mkDetail 0 x.toNat 0) noWing)) ∧
    (d.pins.pwrfailN = true → d.ledger.lastCommit + 10000000 ≤ d.tick →
      (2 ≤ d.ledger.erased → exec .periodicCommit s = s.showing (d.commit false)) ∧
      (d.ledger.erased ≤ 1 → exec .periodicCommit s = s.showing
        (({ d with ledger := { d.ledger with lastCommit := d.tick } } : Dev).report 0x383 (mkDetail 0 0 0) noWing))) ∧
    (∀ p : Bool, d.ledger.changed.length ≤ 256 →
      (d.commit p).ledger.erased = d.ledger.erased - 1 ∧ (d.commit p).ledger.changed = [] ∧
      ∃ c, (d.commit p).ledger.commits = d.ledger.commits ++ [c] ∧ c.boot = d.ledger.boot ∧ c.powerFail = p ∧ c.tick = d.tick ∧
        c.dropped = 0 ∧ c.recs = d.ledger.changed.filterMap (fun k => Fmap.find d.ledger.ring k)) ∧
    (∀ b : Byte, exec (.responderStatusRead [b]) s = s.showing (d.send .nack) ∧ exec (.responderOverflowRead [b]) s = s.showing (d.send .nack)) ∧
    exec (.responderStatusRead []) s = s.showing (d.send (.smbus
      (le 8 (d.card Crd.LEDGER_STATUS 0) ++ le 8 (d.card Crd.LEDGER_FIRST 0) ++ le 8 (d.card Crd.LEDGER_FATAL 0)))) ∧
    exec (.responderOverflowRead []) s = s.showing (d.send (.smbus (le 8 (d.card Crd.LEDGER_OVERFLOW 0) ++ le 8 (d.card Crd.LEDGER_PREV 0)))) ∧
    (∀ a b : Byte, bytesNat [a, b] < 1024 → exec (.responderSourceRead [a, b]) s = s.showing (d.send (.smbus
      (le 8 (d.card Crd.LEDGER_SRC (bytesNat [a, b])) ++ le 8 (d.card Crd.LEDGER_CNT (bytesNat [a, b])))))) ∧
    (∀ a b e f : Byte, ∀ c, d.ledger.ring.find? (fun c => c.2.seq = bytesNat [a, b, e, f]) = some c →
      exec (.responderRecordRead [a, b, e, f]) s = s.showing (d.send (.smbus c.2.bytes)))

/-- Pins and resets (R463, R465, R471, R473 to R475): a COLD event clears every state of Table 19-10's column and keeps the tick and
boot flash; loss of always-on power clears the tick too; straps latch 1 ms after RST_N rises; a power-fail commits once; a lost
reference clock takes an X-die's links down. -/
def Obligations.PinsAndResets : Prop :=
  (∀ d : Dev, d.coldReset.looms = [] ∧ d.coldReset.wings = [] ∧ d.coldReset.queues = [] ∧ d.coldReset.heads = [] ∧
    d.coldReset.tiers.mem = [] ∧ d.coldReset.reg.keys = [] ∧ d.coldReset.weave.cat = [] ∧ d.coldReset.ledger.ring = [] ∧
    d.coldReset.reg.running = false ∧ d.coldReset.selv.tripped = false ∧ d.coldReset.pins.phase = .strap ∧
    d.coldReset.tick = d.tick ∧ d.coldReset.ledger.commits = d.ledger.commits ∧ d.coldReset.prov = d.prov ∧
    d.coldReset.fld Fld.SELV_ENERGY_ENERGY 0 = d.fld Fld.SELV_ENERGY_ENERGY 0) ∧
  (∀ s : State,
    let d := s.dev
    let p := d.pins
    (p.aonClk = true → p.aonPower = true → p.clkAt + 1000 ≤ d.tick →
      let e := ({ d with pins := { p with pwrOk := true, rstAt := d.tick } } : Dev).coldReset
      exec .pwrOkRise s = s.showing { e with selv := { nj := d.selv.nj } }) ∧
    (p.aonClk = false → exec .pwrOkRise s = s.showing d) ∧
    (p.rstN = true → p.aonPower = true → exec .rstNAssert s = s.showing ({ d with pins := { p with rstN := false } } : Dev).coldReset) ∧
    (p.rstN = false → exec .rstNAssert s = s.showing d) ∧
    (p.rstN = false → exec .rstNRise s = s.showing { d with pins := { p with rstN := true, rstAt := d.tick } }) ∧
    (∀ v : BitVec 8, p.aonPower = true → p.aonClk = true → p.pwrOk = true → p.rstN = true → p.phase = .strap →
      (d.tick < p.rstAt + 1000 → exec (.strapLatch v) s = s.showing d) ∧
      (p.rstAt + 1000 ≤ d.tick →
        let role := (v.extractLsb' 4 2).toNat
        let e : Dev := { d with pins := { p with straps := v, phase := .run, alive := true, aliveAt := d.tick },
                                reg := { d.reg with beat := d.tick, lost := 0 }, jg := { d.jg with lastCommit := d.tick },
                                ledger := { d.ledger with boot := d.ledger.boot + 1, lastCommit := d.tick } }
        exec (.strapLatch v) s = s.showing ((e.setFld Fld.IKQ_CTRL_JG_ROLE 0 role).setFld Fld.SELV_STATUS_JG_STATE 0
          (if role = 1 then 1 else if role = 2 then 3 else 0)))) ∧
    (p.rstN = true → p.pwrfailN = true → p.aonPower = true →
      let e : Dev := { d with pins := { p with pwrfailN := false } }
      (d.ledger.erased = 0 → exec .pwrfailNFall s = s.showing (e.report 0x383 (mkDetail 0 0 0) noWing)) ∧
      (d.ledger.erased ≠ 0 → exec .pwrfailNFall s = s.showing (e.commit true))) ∧
    (p.rstN = false → exec .pwrfailNFall s = s.showing d) ∧
    exec .pwrfailNRise s = s.showing { d with pins := { p with pwrfailN := true } } ∧
    (p.aonClk = true → p.aonPower = true → exec .aonClkLoss s = s.showing ({ d with pins := { p with aonClk := false } } : Dev).coldReset) ∧
    (p.aonClk = false → exec .aonClkReturn s = s.showing { d with pins := { p with aonClk := true, clkAt := d.tick, rstAt := d.tick } }) ∧
    (p.aonPower = true → ∃ e, exec .aonPowerLoss s = s.showing e ∧ e.tick = 0 ∧ e.looms = [] ∧ e.pins.aonPower = false ∧
      e.pins.pwrOk = false ∧ e.ledger.commits = d.ledger.commits ∧ e.fld Fld.SELV_ENERGY_ENERGY 0 = 0) ∧
    (∀ x : XDie, exec (.refclkLoss x) s = s.showing ((allPorts.filter (fun q => q.toNat / 4 = x.toNat)).foldl Dev.portBreak
      ((allHeads.filter (fun h => h.toNat / 4 = x.toNat)).foldl Dev.linkDown d))) ∧
    (∀ k : BitVec 3, p.rstN = true → exec (.perstNRise k) s = s.showing
      { d with pins := { p with perstN := p.perstN ||| (1 : BitVec 8) <<< k.toNat } }) ∧
    (∀ k : BitVec 3, p.rstN = false → exec (.perstNRise k) s = s.showing d))

/-- While the fast logic does not run, its commands change nothing (R434, R463, R465). -/
def Obligations.FastLogicAsleep : Prop :=
  ∀ (c : Instr) (s : State), s.dev.live = false → alwaysOn c = false → exec c s = .next s

/-! ### Rules of the spec, each whole -/

/-- R36: the codes of SF8 (format 8) and SF4 (format 1). -/
def Obligations.SingleNaNFormats : Prop :=
  (∀ c, c < 256 → c ≠ 0x80 → ∃ s m e, decodeElem 8 c = .fin s m e) ∧ (∃ k, decodeElem 8 0x80 = .nan false k) ∧
  decodeElem 8 0x7F = .fin false 15 5 ∧ decodeElem 8 0xFF = .fin true 15 5 ∧ 15 * 2 ^ 5 = 480 ∧
  (∀ c s e, c < 256 → decodeElem 8 c = .fin s 0 e → s = false ∧ c = 0) ∧ (∃ e, decodeElem 8 0 = .fin false 0 e) ∧
  (∀ c, c < 16 → c ≠ 8 → ∃ s m e, decodeElem 1 c = .fin s m e) ∧ (∃ k, decodeElem 1 8 = .nan false k) ∧
  (∀ c s e, c < 16 → decodeElem 1 c = .fin s 0 e → s = false ∧ c = 0) ∧ (∃ e, decodeElem 1 0 = .fin false 0 e)

/-- R127: the lanes of VCMPEQ, VCMPLT, VCMPLE and VCMPUN on FP32, BF16 and FP16 codes, under any REED_CTRL. -/
def Obligations.FloatComparesQuiet : Prop :=
  ∀ (lt : Nat) (c : RCtl) (a b : Nat), lt < 3 → a < 2 ^ ltWidth lt → b < 2 ^ ltWidth lt →
    let L := ltLayout lt
    let nan (x : Nat) : Prop := x / 2 ^ L.m % 2 ^ L.e = 2 ^ L.e - 1 ∧ x % 2 ^ L.m ≠ 0
    let snan (x : Nat) : Prop := nan x ∧ x / 2 ^ (L.m - 1) % 2 = 0
    let zero (x : Nat) : Prop := x = 0 ∨ x = 2 ^ (ltWidth lt - 1)
    let cmp (op : Nat) : Bool × FFlags := laneCmp op lt c a b
    (nan a ∨ nan b → (cmp 0x18).1 = false ∧ (cmp 0x19).1 = false ∧ (cmp 0x1A).1 = false ∧ (cmp 0x1B).1 = true) ∧
    (∀ op ∈ [0x18, 0x19, 0x1A, 0x1B], (cmp op).2.invalid = true ↔ snan a ∨ snan b) ∧
    (zero a → zero b → (cmp 0x18).1 = true ∧ (cmp 0x19).1 = false ∧ (cmp 0x1A).1 = true ∧ (cmp 0x1B).1 = false)

/-- R12: the display stacks of each assembly, and their M-dies. -/
def Obligations.StacksPresent : Prop :=
  (∀ s, s < 16 → Assembly.d16x4.hasStack s = true) ∧
  (∀ a ∈ [Assembly.d12x4, .d12x2], ∀ s, s < 16 → (a.hasStack s = false ↔ s % 4 = 3)) ∧
  (∀ a ∈ [Assembly.d8x2, .d8x1], ∀ s, s < 16 → (a.hasStack s = false ↔ s % 4 = 2 ∨ s % 4 = 3)) ∧
  (∀ (a : Assembly) (m : Nat), m < 4 → ((List.range 16).filter (fun s => s / 4 = m && a.hasStack s)).length = a.stacks / 4) ∧
  (∀ s k rank bank row, s < 16 → k < 32 → (Frame.mk false (32 * s + k) rank bank row).home = s / 4)

/-- R380: the key command, extent grants without a key, release and resets. -/
def Obligations.KeySlots : Prop :=
  (∀ (s : State) (c : MbCmd),
    let d := s.dev
    let w := c.num 0 1
    d.wingUsable w = none →
    (s.Serves c 0xC00A 72 [(0, 1), (4, 68)] .sec →
      ((d.wing w).extents ≠ [] → exec .keyLoad s = s.ends c 3 [] d) ∧
      ((d.wing w).extents = [] → d.reg.fills = [] →
        let e : Dev := { d with reg := { d.reg with keys := Fmap.put d.reg.keys w (BitVec.ofNat 512 (c.num 8 64)) } }
        exec .keyLoad s = s.ends c 0 [] ((e.setFld Fld.WING_STATE_KEY_LOADED w 1).setFld Fld.WING_KEY_KEY_ID w (c.num 4 4)))) ∧
    (s.Serves c 0xC001 16 [(0, 2), (4, 12)] .op → c.num 1 1 = 1 → d.fld Fld.WING_STATE_KEY_LOADED w = 0 →
      d.taken.any (fun e => overlap (c.num 8 8) (c.num 4 4 * 2 ^ 28) e.1 e.2) = false → exec .wingGrantExtents s = s.ends c 1 [] d)) ∧
  (∀ (s : State) (k : WingId), s.dev.live = true → s.dev.releaseReady k.toNat = true →
    (∀ x, x ∈ (s.dev.wing k.toNat).extents → s.dev.rangeHeld x.1 x.2 = []) → ∃ e, exec (.wingReleaseComplete k) s = s.settling e ∧ Fmap.find e.reg.keys k.toNat = none) ∧
  (∀ d : Dev, d.coldReset.reg.keys = [] ∧ d.warmReset.reg.keys = []) ∧ State.reset.dev.reg.keys = []
end

