-- ==== Sys2Proof/Laws/Fmap.lean ====
section
/-! SUPPORT. Laws of the sparse tables: a read after a write, and the canonical form of memory. -/

namespace Sys2Proof

variable {α : Type}

theorem Fmap.get_put (z : α) (m : Fmap α) (i j : Nat) (v : α) :
    Fmap.get z (Fmap.put m i v) j = if j = i then v else Fmap.get z m j := by
  induction m with
  | nil => simp [Fmap.put, Fmap.get]
  | cons c m ih =>
    obtain ⟨k, w⟩ := c
    simp only [Fmap.put]
    split
    · simp [Fmap.get]
    · split
      · subst_vars; simp [Fmap.get]; split <;> rfl
      · by_cases h : j = k
        · subst h; simp [Fmap.get]; intro h; omega
        · simp [Fmap.get, h, ih]

@[simp] theorem Fmap.get_put_same (z : α) (m : Fmap α) (i : Nat) (v : α) : Fmap.get z (Fmap.put m i v) i = v := by
  simp [Fmap.get_put]

theorem Fmap.get_put_ne (z : α) (m : Fmap α) {i j : Nat} (v : α) (h : j ≠ i) :
    Fmap.get z (Fmap.put m i v) j = Fmap.get z m j := by simp [Fmap.get_put, h]

@[simp] theorem Fmap.put_put (m : Fmap α) (i : Nat) (v w : α) : Fmap.put (Fmap.put m i v) i w = Fmap.put m i w := by
  induction m with
  | nil => simp [Fmap.put]
  | cons c m ih =>
    obtain ⟨k, u⟩ := c
    simp only [Fmap.put]
    split
    · simp [Fmap.put]
    · split
      · simp [Fmap.put]
      · rename_i h1 h2; simp [Fmap.put, h1, h2, ih]

@[simp] theorem Fmap.get_nil (z : α) (i : Nat) : Fmap.get z ([] : Fmap α) i = z := rfl
@[simp] theorem Fmap.find_nil (i : Nat) : Fmap.find ([] : Fmap α) i = none := rfl

theorem Fmap.find_put (m : Fmap α) (i j : Nat) (v : α) :
    Fmap.find (Fmap.put m i v) j = if j = i then some v else Fmap.find m j := by
  induction m with
  | nil => simp [Fmap.put, Fmap.find]
  | cons c m ih =>
    obtain ⟨k, w⟩ := c
    simp only [Fmap.put]
    split
    · simp [Fmap.find]
    · split
      · subst_vars; simp [Fmap.find]; split <;> rfl
      · by_cases h : j = k
        · subst h; simp [Fmap.find]; intro h; omega
        · simp [Fmap.find, h, ih]

theorem Fmap.get_del (z : α) (m : Fmap α) (i j : Nat) :
    Fmap.get z (Fmap.del m i) j = if j = i then z else Fmap.get z m j := by
  induction m with
  | nil => simp [Fmap.del, Fmap.get]
  | cons c m ih =>
    obtain ⟨k, w⟩ := c
    simp only [Fmap.del] at ih ⊢
    by_cases hk : k = i
    · subst hk; simp [Fmap.get, ih]; split <;> rfl
    · by_cases h : j = k
      · subst h; simp [hk, Fmap.get]
      · simp [hk, Fmap.get, h, ih]

/-! ### Memory -/

/-- Every address of a list lies above a bound. -/
def Memory.above (b : Nat) (m : Memory) : Prop := ∀ c ∈ m, b < c.1

theorem Memory.wf_cons (a : Nat) (v : Byte) (m : Memory) :
    Memory.wf ((a, v) :: m) = true ↔ v ≠ Memory.blank ∧ Memory.above a m ∧ m.wf = true := by
  induction m generalizing a v with
  | nil => simp [Memory.wf, Memory.above]
  | cons c m ih =>
    obtain ⟨b, w⟩ := c
    constructor
    · intro h
      simp only [Memory.wf, Bool.and_eq_true, decide_eq_true_eq, bne_iff_ne] at h
      have hb := (ih b w).1 h.2
      refine ⟨h.1.2, ?_, h.2⟩
      intro x hx
      rcases List.mem_cons.1 hx with rfl | hx
      · exact h.1.1
      · exact Nat.lt_trans h.1.1 (hb.2.1 x hx)
    · rintro ⟨h1, h2, h3⟩
      simp only [Memory.wf, Bool.and_eq_true, decide_eq_true_eq, bne_iff_ne]
      exact ⟨⟨h2 _ (List.mem_cons_self ..), h1⟩, h3⟩

theorem Memory.wf_filter (p : Nat × Byte → Bool) (m : Memory) (h : m.wf = true) : Memory.wf (m.filter p) = true := by
  induction m with
  | nil => simpa using h
  | cons c m ih =>
    obtain ⟨a, v⟩ := c
    obtain ⟨h1, h2, h3⟩ := (Memory.wf_cons a v m).1 h
    by_cases hp : p (a, v)
    · simp only [List.filter, hp]
      exact (Memory.wf_cons ..).2 ⟨h1, fun x hx => h2 x (List.mem_of_mem_filter hx), ih h3⟩
    · simp only [List.filter, hp]; exact ih h3

theorem Memory.above_put {b i : Nat} {v : Byte} {m : Memory} (h : Memory.above b m) (hi : b < i) :
    Memory.above b (Fmap.put m i v) := by
  induction m with
  | nil => simp [Fmap.put, Memory.above, hi]
  | cons c m ih =>
    obtain ⟨k, w⟩ := c
    simp only [Fmap.put]
    have hk := h (k, w) (List.mem_cons_self ..)
    have hm : Memory.above b m := fun x hx => h x (List.mem_cons_of_mem _ hx)
    split
    · intro x hx; rcases List.mem_cons.1 hx with rfl | hx
      · exact hi
      · exact h x hx
    · split
      · intro x hx; rcases List.mem_cons.1 hx with rfl | hx
        · exact hi
        · exact hm x hx
      · intro x hx; rcases List.mem_cons.1 hx with rfl | hx
        · exact hk
        · exact ih hm x hx

theorem Memory.wf_put (m : Memory) (i : Nat) (v : Byte) (hv : v ≠ Memory.blank) (h : m.wf = true) :
    Memory.wf (Fmap.put m i v) = true := by
  induction m with
  | nil => simpa [Fmap.put, Memory.wf] using hv
  | cons c m ih =>
    obtain ⟨k, w⟩ := c
    obtain ⟨h1, h2, h3⟩ := (Memory.wf_cons k w m).1 h
    simp only [Fmap.put]
    split
    · rename_i hik
      refine (Memory.wf_cons ..).2 ⟨hv, ?_, h⟩
      intro x hx; rcases List.mem_cons.1 hx with rfl | hx
      · exact hik
      · exact Nat.lt_trans hik (h2 x hx)
    · split
      · subst_vars; exact (Memory.wf_cons ..).2 ⟨hv, h2, h3⟩
      · exact (Memory.wf_cons ..).2 ⟨h1, Memory.above_put h2 (by omega), ih h3⟩

/-- A byte write keeps the canonical form. -/
theorem Memory.wf_write (m : Memory) (a : Nat) (v : Byte) (h : m.wf = true) : (m.write a v).wf = true := by
  unfold Memory.write
  split
  · exact Memory.wf_filter _ m h
  · rename_i hv; exact Memory.wf_put _ a v hv (Memory.wf_filter _ m h)

theorem Memory.wf_clear (m : Memory) (a n : Nat) (h : m.wf = true) : (m.clear a n).wf = true := Memory.wf_filter _ m h

theorem Memory.wf_writeNat (n : Nat) : ∀ (m : Memory) (a x : Nat), m.wf = true → (m.writeNat a n x).wf = true := by
  induction n with
  | zero => intro m a x h; exact h
  | succ n ih => intro m a x h; exact ih _ _ _ (Memory.wf_write m a _ h)

theorem Memory.wf_writeList (bs : List Byte) : ∀ (m : Memory) (a : Nat), m.wf = true → (m.writeList a bs).wf = true := by
  induction bs with
  | nil => intro m a h; exact h
  | cons b bs ih => intro m a h; exact ih _ _ (Memory.wf_write m a b h)

/-- A byte reads as it was last written, and a write leaves every other byte alone. -/
theorem Memory.read_write (m : Memory) (a b : Nat) (v : Byte) : (m.write a v).read b = if b = a then v else m.read b := by
  unfold Memory.write Memory.read
  have h := Fmap.get_del Memory.blank m a b
  unfold Fmap.del at h
  split
  · rename_i hv; subst hv; rw [h]
  · rw [Fmap.get_put, h]; split <;> simp_all

theorem Memory.read_writeNat_ne (n : Nat) : ∀ (m : Memory) (a x b : Nat), b < a ∨ a + n ≤ b →
    (m.writeNat a n x).read b = m.read b := by
  induction n with
  | zero => intros; rfl
  | succ n ih =>
    intro m a x b h
    rw [Memory.writeNat, ih _ _ _ _ (by omega), Memory.read_write, if_neg (by omega)]

theorem Memory.readNat_congr (n : Nat) : ∀ (m k : Memory) (a : Nat), (∀ b, a ≤ b → b < a + n → m.read b = k.read b) →
    m.readNat a n = k.readNat a n := by
  induction n with
  | zero => intros; rfl
  | succ n ih =>
    intro m k a h
    rw [Memory.readNat, Memory.readNat, h a (by omega) (by omega), ih m k (a + 1) (fun b h1 h2 => h b (by omega) (by omega))]

/-- n bytes read as the number last written there, cut to n bytes. -/
theorem Memory.readNat_writeNat (n : Nat) : ∀ (m : Memory) (a x : Nat), (m.writeNat a n x).readNat a n = x % 256 ^ n := by
  induction n with
  | zero => intro m a x; simp [Memory.readNat, Nat.mod_one]
  | succ n ih =>
    intro m a x
    rw [Memory.readNat, Memory.writeNat, Memory.read_writeNat_ne _ _ _ _ _ (by omega), Memory.read_write, if_pos rfl, ih]
    have := Nat.mod_mul (x := x) (a := 256) (b := 256 ^ n)
    rw [Nat.pow_succ, Nat.mul_comm (256 ^ n), this]
    simp

end Sys2Proof
end

