-- ==== Sys2Proof/Laws/State.lean ====
section
/-! SUPPORT. Laws of the named operations over the device: what each update reads as, field by field, and what it leaves
alone. -/

namespace Sys2Proof.Machine

/-! ### Registers -/

theorem Dev.fld_setFld (d : Dev) (f g : Field) (n m v : Nat) :
    (d.setFld f n v).fld g m = if g.id = f.id ∧ m = n then v % 2 ^ f.width else d.fld g m := by
  unfold Dev.fld Dev.setFld
  simp only [Fmap.get_put]
  by_cases h : g.id = f.id
  · by_cases k : m = n <;> simp [h, k, Fmap.get_put]
  · simp [h]

theorem Dev.fld_setFld_same (d : Dev) (f : Field) (n v : Nat) : (d.setFld f n v).fld f n = v % 2 ^ f.width := by
  simp [Dev.fld_setFld]

theorem Dev.fld_setFld_ne (d : Dev) (f g : Field) (n m v : Nat) (h : g.id ≠ f.id) : (d.setFld f n v).fld g m = d.fld g m := by
  simp [Dev.fld_setFld, h]

theorem Dev.fld_setFld_inst (d : Dev) (f g : Field) (n m v : Nat) (h : m ≠ n) : (d.setFld f n v).fld g m = d.fld g m := by
  simp [Dev.fld_setFld, h]

/-- Fields depend on the registers alone. -/
theorem Dev.fld_congr {d e : Dev} (h : d.regs = e.regs) (f : Field) (n : Nat) : d.fld f n = e.fld f n := by
  unfold Dev.fld; rw [h]

/-! ### Looms, heads, ports, queues -/

@[simp] theorem Dev.setLoom_loom_same (d : Dev) (n : LoomId) (l : Loom) : (d.setLoom n l).loom n = l := by
  simp [Dev.setLoom, Dev.loom]

theorem Dev.setLoom_loom_ne (d : Dev) (n m : LoomId) (l : Loom) (h : m ≠ n) : (d.setLoom n l).loom m = d.loom m := by
  have : m.toNat ≠ n.toNat := fun e => h (BitVec.eq_of_toNat_eq e)
  simp [Dev.setLoom, Dev.loom, Fmap.get_put, this]

@[simp] theorem Dev.setLoom_setLoom (d : Dev) (n : LoomId) (l k : Loom) : (d.setLoom n l).setLoom n k = d.setLoom n k := by
  simp [Dev.setLoom]

@[simp] theorem Dev.setHead_head_same (d : Dev) (h : HeadId) (x : Head) : (d.setHead h x).head h = x := by
  simp [Dev.setHead, Dev.head]

@[simp] theorem Dev.setHead_setHead (d : Dev) (h : HeadId) (x y : Head) : (d.setHead h x).setHead h y = d.setHead h y := by
  simp [Dev.setHead]

@[simp] theorem Dev.setPort_port_same (d : Dev) (q : PortId) (p : Port) : (d.setPort q p).port q = p := by
  simp [Dev.setPort, Dev.port]

@[simp] theorem Dev.setPort_setPort (d : Dev) (q : PortId) (p r : Port) : (d.setPort q p).setPort q r = d.setPort q r := by
  simp [Dev.setPort]

@[simp] theorem Dev.setQueue_queue_same (d : Dev) (q : Nat) (x : CQueue) : (d.setQueue q x).queue q = x := by
  simp [Dev.setQueue, Dev.queue]

@[simp] theorem Dev.setQueue_setQueue (d : Dev) (q : Nat) (x y : CQueue) : (d.setQueue q x).setQueue q y = d.setQueue q y := by
  simp [Dev.setQueue]

/-- A read of a treadle register after a write; t0 stays zero (R83, R84). -/
theorem Loom.reg_setReg (l : Loom) (r s : Reg) (v : W64) :
    (l.setReg r v).reg s = if s = r ∧ r ≠ 0 then v else l.reg s := by
  unfold Loom.setReg
  by_cases hr : r = 0
  · rw [if_pos hr, if_neg (fun h => h.2 hr)]
  · rw [if_neg hr]
    by_cases h : s = r
    · rw [if_pos ⟨h, hr⟩, h]
      show (if r = 0 then (0 : W64) else Fmap.get 0 (Fmap.put l.t r.toNat v) r.toNat) = v
      rw [if_neg hr]; exact Fmap.get_put_same ..
    · rw [if_neg (fun x => h x.1)]
      show (if s = 0 then (0 : W64) else Fmap.get 0 (Fmap.put l.t r.toNat v) s.toNat) = _
      rw [Fmap.get_put_ne _ _ _ (fun e => h (BitVec.eq_of_toNat_eq e))]; rfl

@[simp] theorem Loom.setReg_pc (l : Loom) (r : Reg) (v : W64) : (l.setReg r v).pc = l.pc := by unfold Loom.setReg; split <;> rfl
@[simp] theorem Loom.setReg_v (l : Loom) (r : Reg) (v : W64) : (l.setReg r v).v = l.v := by unfold Loom.setReg; split <;> rfl
@[simp] theorem Loom.setReg_acc (l : Loom) (r : Reg) (v : W64) : (l.setReg r v).acc = l.acc := by unfold Loom.setReg; split <;> rfl
@[simp] theorem Loom.setReg_tally (l : Loom) (r : Reg) (v : W64) : (l.setReg r v).tally = l.tally := by unfold Loom.setReg; split <;> rfl
@[simp] theorem Loom.setReg_inbox (l : Loom) (r : Reg) (v : W64) : (l.setReg r v).inbox = l.inbox := by unfold Loom.setReg; split <;> rfl
@[simp] theorem Loom.setReg_rank (l : Loom) (r : Reg) (v : W64) : (l.setReg r v).rank = l.rank := by unfold Loom.setReg; split <;> rfl
@[simp] theorem Loom.setReg_size (l : Loom) (r : Reg) (v : W64) : (l.setReg r v).size = l.size := by unfold Loom.setReg; split <;> rfl
@[simp] theorem Loom.setReg_scratch (l : Loom) (r : Reg) (v : W64) : (l.setReg r v).scratch = l.scratch := by unfold Loom.setReg; split <;> rfl
@[simp] theorem Loom.setReg_arrayQ (l : Loom) (r : Reg) (v : W64) : (l.setReg r v).arrayQ = l.arrayQ := by unfold Loom.setReg; split <;> rfl
@[simp] theorem Loom.setReg_arrayRun (l : Loom) (r : Reg) (v : W64) : (l.setReg r v).arrayRun = l.arrayRun := by unfold Loom.setReg; split <;> rfl
@[simp] theorem Loom.setReg_xferQ (l : Loom) (r : Reg) (v : W64) : (l.setReg r v).xferQ = l.xferQ := by unfold Loom.setReg; split <;> rfl
@[simp] theorem Loom.setReg_xferRun (l : Loom) (r : Reg) (v : W64) : (l.setReg r v).xferRun = l.xferRun := by unfold Loom.setReg; split <;> rfl
@[simp] theorem Loom.setReg_reedQ (l : Loom) (r : Reg) (v : W64) : (l.setReg r v).reedQ = l.reedQ := by unfold Loom.setReg; split <;> rfl
@[simp] theorem Loom.setReg_drainQ (l : Loom) (r : Reg) (v : W64) : (l.setReg r v).drainQ = l.drainQ := by unfold Loom.setReg; split <;> rfl
@[simp] theorem Loom.setReg_stall (l : Loom) (r : Reg) (v : W64) : (l.setReg r v).stall = l.stall := by unfold Loom.setReg; split <;> rfl
@[simp] theorem Loom.setReg_ending (l : Loom) (r : Reg) (v : W64) : (l.setReg r v).ending = l.ending := by unfold Loom.setReg; split <;> rfl
@[simp] theorem Loom.setReg_request (l : Loom) (r : Reg) (v : W64) : (l.setReg r v).request = l.request := by unfold Loom.setReg; split <;> rfl
@[simp] theorem Loom.setReg_group (l : Loom) (r : Reg) (v : W64) : (l.setReg r v).group = l.group := by unfold Loom.setReg; split <;> rfl
@[simp] theorem Loom.setReg_cache (l : Loom) (r : Reg) (v : W64) : (l.setReg r v).cache = l.cache := by unfold Loom.setReg; split <;> rfl
@[simp] theorem Loom.setReg_evict (l : Loom) (r : Reg) (v : W64) : (l.setReg r v).evict = l.evict := by unfold Loom.setReg; split <;> rfl
@[simp] theorem Loom.setReg_stb (l : Loom) (r : Reg) (v : W64) : (l.setReg r v).stb = l.stb := by unfold Loom.setReg; split <;> rfl
@[simp] theorem Loom.setReg_icache (l : Loom) (r : Reg) (v : W64) : (l.setReg r v).icache = l.icache := by unfold Loom.setReg; split <;> rfl
@[simp] theorem Loom.setReg_tlb (l : Loom) (r : Reg) (v : W64) : (l.setReg r v).tlb = l.tlb := by unfold Loom.setReg; split <;> rfl
@[simp] theorem Loom.setReg_pend (l : Loom) (r : Reg) (v : W64) : (l.setReg r v).pend = l.pend := by unfold Loom.setReg; split <;> rfl
@[simp] theorem Loom.setReg_cleanTags (l : Loom) (r : Reg) (v : W64) : (l.setReg r v).cleanTags = l.cleanTags := by unfold Loom.setReg; split <;> rfl
@[simp] theorem Loom.setReg_early (l : Loom) (r : Reg) (v : W64) : (l.setReg r v).early = l.early := by unfold Loom.setReg; split <;> rfl
@[simp] theorem Loom.setReg_lost (l : Loom) (r : Reg) (v : W64) : (l.setReg r v).lost = l.lost := by unfold Loom.setReg; split <;> rfl
@[simp] theorem Loom.setReg_streamCount (l : Loom) (r : Reg) (v : W64) : (l.setReg r v).streamCount = l.streamCount := by unfold Loom.setReg; split <;> rfl
@[simp] theorem Loom.setReg_streamLast (l : Loom) (r : Reg) (v : W64) : (l.setReg r v).streamLast = l.streamLast := by unfold Loom.setReg; split <;> rfl
@[simp] theorem Loom.setReg_lostHost (l : Loom) (r : Reg) (v : W64) : (l.setReg r v).lostHost = l.lostHost := by unfold Loom.setReg; split <;> rfl
@[simp] theorem Loom.setReg_lostPeer (l : Loom) (r : Reg) (v : W64) : (l.setReg r v).lostPeer = l.lostPeer := by unfold Loom.setReg; split <;> rfl
@[simp] theorem Loom.setReg_lateHost (l : Loom) (r : Reg) (v : W64) : (l.setReg r v).lateHost = l.lateHost := by unfold Loom.setReg; split <;> rfl
@[simp] theorem Loom.setReg_latePeer (l : Loom) (r : Reg) (v : W64) : (l.setReg r v).latePeer = l.latePeer := by unfold Loom.setReg; split <;> rfl
@[simp] theorem Loom.setReg_launched (l : Loom) (r : Reg) (v : W64) : (l.setReg r v).launched = l.launched := by unfold Loom.setReg; split <;> rfl

/-! ### What each update leaves alone -/

@[simp] theorem Dev.setLoom_asm (d : Dev) (n : LoomId) (l : Loom) : (d.setLoom n l).asm = d.asm := rfl
@[simp] theorem Dev.setLoom_tick (d : Dev) (n : LoomId) (l : Loom) : (d.setLoom n l).tick = d.tick := rfl
@[simp] theorem Dev.setLoom_regs (d : Dev) (n : LoomId) (l : Loom) : (d.setLoom n l).regs = d.regs := rfl
@[simp] theorem Dev.setLoom_loomWing (d : Dev) (n : LoomId) (l : Loom) : (d.setLoom n l).loomWing = d.loomWing := rfl
@[simp] theorem Dev.setLoom_groups (d : Dev) (n : LoomId) (l : Loom) : (d.setLoom n l).groups = d.groups := rfl
@[simp] theorem Dev.setLoom_wings (d : Dev) (n : LoomId) (l : Loom) : (d.setLoom n l).wings = d.wings := rfl
@[simp] theorem Dev.setLoom_weave (d : Dev) (n : LoomId) (l : Loom) : (d.setLoom n l).weave = d.weave := rfl
@[simp] theorem Dev.setLoom_tiers (d : Dev) (n : LoomId) (l : Loom) : (d.setLoom n l).tiers = d.tiers := rfl
@[simp] theorem Dev.setLoom_trans (d : Dev) (n : LoomId) (l : Loom) : (d.setLoom n l).trans = d.trans := rfl
@[simp] theorem Dev.setLoom_regions (d : Dev) (n : LoomId) (l : Loom) : (d.setLoom n l).regions = d.regions := rfl
@[simp] theorem Dev.setLoom_regCount (d : Dev) (n : LoomId) (l : Loom) : (d.setLoom n l).regCount = d.regCount := rfl
@[simp] theorem Dev.setLoom_runQ (d : Dev) (n : LoomId) (l : Loom) : (d.setLoom n l).runQ = d.runQ := rfl
@[simp] theorem Dev.setLoom_runs (d : Dev) (n : LoomId) (l : Loom) : (d.setLoom n l).runs = d.runs := rfl
@[simp] theorem Dev.setLoom_rerun (d : Dev) (n : LoomId) (l : Loom) : (d.setLoom n l).rerun = d.rerun := rfl
@[simp] theorem Dev.setLoom_heads (d : Dev) (n : LoomId) (l : Loom) : (d.setLoom n l).heads = d.heads := rfl
@[simp] theorem Dev.setLoom_ports (d : Dev) (n : LoomId) (l : Loom) : (d.setLoom n l).ports = d.ports := rfl
@[simp] theorem Dev.setLoom_jg (d : Dev) (n : LoomId) (l : Loom) : (d.setLoom n l).jg = d.jg := rfl
@[simp] theorem Dev.setLoom_queues (d : Dev) (n : LoomId) (l : Loom) : (d.setLoom n l).queues = d.queues := rfl
@[simp] theorem Dev.setLoom_tileAt (d : Dev) (n : LoomId) (l : Loom) : (d.setLoom n l).tileAt = d.tileAt := rfl
@[simp] theorem Dev.setLoom_tileIdle (d : Dev) (n : LoomId) (l : Loom) : (d.setLoom n l).tileIdle = d.tileIdle := rfl
@[simp] theorem Dev.setLoom_tx (d : Dev) (n : LoomId) (l : Loom) : (d.setLoom n l).tx = d.tx := rfl
@[simp] theorem Dev.setLoom_bifur (d : Dev) (n : LoomId) (l : Loom) : (d.setLoom n l).bifur = d.bifur := rfl
@[simp] theorem Dev.setLoom_bifurRec (d : Dev) (n : LoomId) (l : Loom) : (d.setLoom n l).bifurRec = d.bifurRec := rfl
@[simp] theorem Dev.setLoom_reg (d : Dev) (n : LoomId) (l : Loom) : (d.setLoom n l).reg = d.reg := rfl
@[simp] theorem Dev.setLoom_selv (d : Dev) (n : LoomId) (l : Loom) : (d.setLoom n l).selv = d.selv := rfl
@[simp] theorem Dev.setLoom_ledger (d : Dev) (n : LoomId) (l : Loom) : (d.setLoom n l).ledger = d.ledger := rfl
@[simp] theorem Dev.setLoom_pins (d : Dev) (n : LoomId) (l : Loom) : (d.setLoom n l).pins = d.pins := rfl
@[simp] theorem Dev.setLoom_prov (d : Dev) (n : LoomId) (l : Loom) : (d.setLoom n l).prov = d.prov := rfl
@[simp] theorem Dev.setLoom_reports (d : Dev) (n : LoomId) (l : Loom) : (d.setLoom n l).reports = d.reports := rfl
@[simp] theorem Dev.setLoom_opSeq (d : Dev) (n : LoomId) (l : Loom) : (d.setLoom n l).opSeq = d.opSeq := rfl
@[simp] theorem Dev.setLoom_free (d : Dev) (n : LoomId) (l : Loom) : (d.setLoom n l).free = d.free := rfl

@[simp] theorem Dev.setFld_asm (d : Dev) (f : Field) (n v : Nat) : (d.setFld f n v).asm = d.asm := rfl
@[simp] theorem Dev.setFld_tick (d : Dev) (f : Field) (n v : Nat) : (d.setFld f n v).tick = d.tick := rfl
@[simp] theorem Dev.setFld_looms (d : Dev) (f : Field) (n v : Nat) : (d.setFld f n v).looms = d.looms := rfl
@[simp] theorem Dev.setFld_loomWing (d : Dev) (f : Field) (n v : Nat) : (d.setFld f n v).loomWing = d.loomWing := rfl
@[simp] theorem Dev.setFld_groups (d : Dev) (f : Field) (n v : Nat) : (d.setFld f n v).groups = d.groups := rfl
@[simp] theorem Dev.setFld_wings (d : Dev) (f : Field) (n v : Nat) : (d.setFld f n v).wings = d.wings := rfl
@[simp] theorem Dev.setFld_weave (d : Dev) (f : Field) (n v : Nat) : (d.setFld f n v).weave = d.weave := rfl
@[simp] theorem Dev.setFld_tiers (d : Dev) (f : Field) (n v : Nat) : (d.setFld f n v).tiers = d.tiers := rfl
@[simp] theorem Dev.setFld_trans (d : Dev) (f : Field) (n v : Nat) : (d.setFld f n v).trans = d.trans := rfl
@[simp] theorem Dev.setFld_regions (d : Dev) (f : Field) (n v : Nat) : (d.setFld f n v).regions = d.regions := rfl
@[simp] theorem Dev.setFld_regCount (d : Dev) (f : Field) (n v : Nat) : (d.setFld f n v).regCount = d.regCount := rfl
@[simp] theorem Dev.setFld_runQ (d : Dev) (f : Field) (n v : Nat) : (d.setFld f n v).runQ = d.runQ := rfl
@[simp] theorem Dev.setFld_runs (d : Dev) (f : Field) (n v : Nat) : (d.setFld f n v).runs = d.runs := rfl
@[simp] theorem Dev.setFld_rerun (d : Dev) (f : Field) (n v : Nat) : (d.setFld f n v).rerun = d.rerun := rfl
@[simp] theorem Dev.setFld_heads (d : Dev) (f : Field) (n v : Nat) : (d.setFld f n v).heads = d.heads := rfl
@[simp] theorem Dev.setFld_ports (d : Dev) (f : Field) (n v : Nat) : (d.setFld f n v).ports = d.ports := rfl
@[simp] theorem Dev.setFld_jg (d : Dev) (f : Field) (n v : Nat) : (d.setFld f n v).jg = d.jg := rfl
@[simp] theorem Dev.setFld_queues (d : Dev) (f : Field) (n v : Nat) : (d.setFld f n v).queues = d.queues := rfl
@[simp] theorem Dev.setFld_tileAt (d : Dev) (f : Field) (n v : Nat) : (d.setFld f n v).tileAt = d.tileAt := rfl
@[simp] theorem Dev.setFld_tileIdle (d : Dev) (f : Field) (n v : Nat) : (d.setFld f n v).tileIdle = d.tileIdle := rfl
@[simp] theorem Dev.setFld_tx (d : Dev) (f : Field) (n v : Nat) : (d.setFld f n v).tx = d.tx := rfl
@[simp] theorem Dev.setFld_bifur (d : Dev) (f : Field) (n v : Nat) : (d.setFld f n v).bifur = d.bifur := rfl
@[simp] theorem Dev.setFld_bifurRec (d : Dev) (f : Field) (n v : Nat) : (d.setFld f n v).bifurRec = d.bifurRec := rfl
@[simp] theorem Dev.setFld_reg (d : Dev) (f : Field) (n v : Nat) : (d.setFld f n v).reg = d.reg := rfl
@[simp] theorem Dev.setFld_selv (d : Dev) (f : Field) (n v : Nat) : (d.setFld f n v).selv = d.selv := rfl
@[simp] theorem Dev.setFld_ledger (d : Dev) (f : Field) (n v : Nat) : (d.setFld f n v).ledger = d.ledger := rfl
@[simp] theorem Dev.setFld_pins (d : Dev) (f : Field) (n v : Nat) : (d.setFld f n v).pins = d.pins := rfl
@[simp] theorem Dev.setFld_prov (d : Dev) (f : Field) (n v : Nat) : (d.setFld f n v).prov = d.prov := rfl
@[simp] theorem Dev.setFld_reports (d : Dev) (f : Field) (n v : Nat) : (d.setFld f n v).reports = d.reports := rfl
@[simp] theorem Dev.setFld_opSeq (d : Dev) (f : Field) (n v : Nat) : (d.setFld f n v).opSeq = d.opSeq := rfl
@[simp] theorem Dev.setFld_free (d : Dev) (f : Field) (n v : Nat) : (d.setFld f n v).free = d.free := rfl

@[simp] theorem Dev.setHead_asm (d : Dev) (h : HeadId) (x : Head) : (d.setHead h x).asm = d.asm := rfl
@[simp] theorem Dev.setHead_tick (d : Dev) (h : HeadId) (x : Head) : (d.setHead h x).tick = d.tick := rfl
@[simp] theorem Dev.setHead_regs (d : Dev) (h : HeadId) (x : Head) : (d.setHead h x).regs = d.regs := rfl
@[simp] theorem Dev.setHead_looms (d : Dev) (h : HeadId) (x : Head) : (d.setHead h x).looms = d.looms := rfl
@[simp] theorem Dev.setHead_loomWing (d : Dev) (h : HeadId) (x : Head) : (d.setHead h x).loomWing = d.loomWing := rfl
@[simp] theorem Dev.setHead_groups (d : Dev) (h : HeadId) (x : Head) : (d.setHead h x).groups = d.groups := rfl
@[simp] theorem Dev.setHead_wings (d : Dev) (h : HeadId) (x : Head) : (d.setHead h x).wings = d.wings := rfl
@[simp] theorem Dev.setHead_weave (d : Dev) (h : HeadId) (x : Head) : (d.setHead h x).weave = d.weave := rfl
@[simp] theorem Dev.setHead_tiers (d : Dev) (h : HeadId) (x : Head) : (d.setHead h x).tiers = d.tiers := rfl
@[simp] theorem Dev.setHead_trans (d : Dev) (h : HeadId) (x : Head) : (d.setHead h x).trans = d.trans := rfl
@[simp] theorem Dev.setHead_regions (d : Dev) (h : HeadId) (x : Head) : (d.setHead h x).regions = d.regions := rfl
@[simp] theorem Dev.setHead_regCount (d : Dev) (h : HeadId) (x : Head) : (d.setHead h x).regCount = d.regCount := rfl
@[simp] theorem Dev.setHead_runQ (d : Dev) (h : HeadId) (x : Head) : (d.setHead h x).runQ = d.runQ := rfl
@[simp] theorem Dev.setHead_runs (d : Dev) (h : HeadId) (x : Head) : (d.setHead h x).runs = d.runs := rfl
@[simp] theorem Dev.setHead_rerun (d : Dev) (h : HeadId) (x : Head) : (d.setHead h x).rerun = d.rerun := rfl
@[simp] theorem Dev.setHead_ports (d : Dev) (h : HeadId) (x : Head) : (d.setHead h x).ports = d.ports := rfl
@[simp] theorem Dev.setHead_jg (d : Dev) (h : HeadId) (x : Head) : (d.setHead h x).jg = d.jg := rfl
@[simp] theorem Dev.setHead_queues (d : Dev) (h : HeadId) (x : Head) : (d.setHead h x).queues = d.queues := rfl
@[simp] theorem Dev.setHead_tileAt (d : Dev) (h : HeadId) (x : Head) : (d.setHead h x).tileAt = d.tileAt := rfl
@[simp] theorem Dev.setHead_tileIdle (d : Dev) (h : HeadId) (x : Head) : (d.setHead h x).tileIdle = d.tileIdle := rfl
@[simp] theorem Dev.setHead_tx (d : Dev) (h : HeadId) (x : Head) : (d.setHead h x).tx = d.tx := rfl
@[simp] theorem Dev.setHead_bifur (d : Dev) (h : HeadId) (x : Head) : (d.setHead h x).bifur = d.bifur := rfl
@[simp] theorem Dev.setHead_bifurRec (d : Dev) (h : HeadId) (x : Head) : (d.setHead h x).bifurRec = d.bifurRec := rfl
@[simp] theorem Dev.setHead_reg (d : Dev) (h : HeadId) (x : Head) : (d.setHead h x).reg = d.reg := rfl
@[simp] theorem Dev.setHead_selv (d : Dev) (h : HeadId) (x : Head) : (d.setHead h x).selv = d.selv := rfl
@[simp] theorem Dev.setHead_ledger (d : Dev) (h : HeadId) (x : Head) : (d.setHead h x).ledger = d.ledger := rfl
@[simp] theorem Dev.setHead_pins (d : Dev) (h : HeadId) (x : Head) : (d.setHead h x).pins = d.pins := rfl
@[simp] theorem Dev.setHead_prov (d : Dev) (h : HeadId) (x : Head) : (d.setHead h x).prov = d.prov := rfl
@[simp] theorem Dev.setHead_reports (d : Dev) (h : HeadId) (x : Head) : (d.setHead h x).reports = d.reports := rfl
@[simp] theorem Dev.setHead_opSeq (d : Dev) (h : HeadId) (x : Head) : (d.setHead h x).opSeq = d.opSeq := rfl
@[simp] theorem Dev.setHead_free (d : Dev) (h : HeadId) (x : Head) : (d.setHead h x).free = d.free := rfl

@[simp] theorem Dev.setPort_asm (d : Dev) (q : PortId) (p : Port) : (d.setPort q p).asm = d.asm := rfl
@[simp] theorem Dev.setPort_tick (d : Dev) (q : PortId) (p : Port) : (d.setPort q p).tick = d.tick := rfl
@[simp] theorem Dev.setPort_regs (d : Dev) (q : PortId) (p : Port) : (d.setPort q p).regs = d.regs := rfl
@[simp] theorem Dev.setPort_looms (d : Dev) (q : PortId) (p : Port) : (d.setPort q p).looms = d.looms := rfl
@[simp] theorem Dev.setPort_loomWing (d : Dev) (q : PortId) (p : Port) : (d.setPort q p).loomWing = d.loomWing := rfl
@[simp] theorem Dev.setPort_groups (d : Dev) (q : PortId) (p : Port) : (d.setPort q p).groups = d.groups := rfl
@[simp] theorem Dev.setPort_wings (d : Dev) (q : PortId) (p : Port) : (d.setPort q p).wings = d.wings := rfl
@[simp] theorem Dev.setPort_weave (d : Dev) (q : PortId) (p : Port) : (d.setPort q p).weave = d.weave := rfl
@[simp] theorem Dev.setPort_tiers (d : Dev) (q : PortId) (p : Port) : (d.setPort q p).tiers = d.tiers := rfl
@[simp] theorem Dev.setPort_trans (d : Dev) (q : PortId) (p : Port) : (d.setPort q p).trans = d.trans := rfl
@[simp] theorem Dev.setPort_regions (d : Dev) (q : PortId) (p : Port) : (d.setPort q p).regions = d.regions := rfl
@[simp] theorem Dev.setPort_regCount (d : Dev) (q : PortId) (p : Port) : (d.setPort q p).regCount = d.regCount := rfl
@[simp] theorem Dev.setPort_runQ (d : Dev) (q : PortId) (p : Port) : (d.setPort q p).runQ = d.runQ := rfl
@[simp] theorem Dev.setPort_runs (d : Dev) (q : PortId) (p : Port) : (d.setPort q p).runs = d.runs := rfl
@[simp] theorem Dev.setPort_rerun (d : Dev) (q : PortId) (p : Port) : (d.setPort q p).rerun = d.rerun := rfl
@[simp] theorem Dev.setPort_heads (d : Dev) (q : PortId) (p : Port) : (d.setPort q p).heads = d.heads := rfl
@[simp] theorem Dev.setPort_jg (d : Dev) (q : PortId) (p : Port) : (d.setPort q p).jg = d.jg := rfl
@[simp] theorem Dev.setPort_queues (d : Dev) (q : PortId) (p : Port) : (d.setPort q p).queues = d.queues := rfl
@[simp] theorem Dev.setPort_tileAt (d : Dev) (q : PortId) (p : Port) : (d.setPort q p).tileAt = d.tileAt := rfl
@[simp] theorem Dev.setPort_tileIdle (d : Dev) (q : PortId) (p : Port) : (d.setPort q p).tileIdle = d.tileIdle := rfl
@[simp] theorem Dev.setPort_tx (d : Dev) (q : PortId) (p : Port) : (d.setPort q p).tx = d.tx := rfl
@[simp] theorem Dev.setPort_bifur (d : Dev) (q : PortId) (p : Port) : (d.setPort q p).bifur = d.bifur := rfl
@[simp] theorem Dev.setPort_bifurRec (d : Dev) (q : PortId) (p : Port) : (d.setPort q p).bifurRec = d.bifurRec := rfl
@[simp] theorem Dev.setPort_reg (d : Dev) (q : PortId) (p : Port) : (d.setPort q p).reg = d.reg := rfl
@[simp] theorem Dev.setPort_selv (d : Dev) (q : PortId) (p : Port) : (d.setPort q p).selv = d.selv := rfl
@[simp] theorem Dev.setPort_ledger (d : Dev) (q : PortId) (p : Port) : (d.setPort q p).ledger = d.ledger := rfl
@[simp] theorem Dev.setPort_pins (d : Dev) (q : PortId) (p : Port) : (d.setPort q p).pins = d.pins := rfl
@[simp] theorem Dev.setPort_prov (d : Dev) (q : PortId) (p : Port) : (d.setPort q p).prov = d.prov := rfl
@[simp] theorem Dev.setPort_reports (d : Dev) (q : PortId) (p : Port) : (d.setPort q p).reports = d.reports := rfl
@[simp] theorem Dev.setPort_opSeq (d : Dev) (q : PortId) (p : Port) : (d.setPort q p).opSeq = d.opSeq := rfl
@[simp] theorem Dev.setPort_free (d : Dev) (q : PortId) (p : Port) : (d.setPort q p).free = d.free := rfl

@[simp] theorem Dev.setQueue_asm (d : Dev) (q : Nat) (x : CQueue) : (d.setQueue q x).asm = d.asm := rfl
@[simp] theorem Dev.setQueue_tick (d : Dev) (q : Nat) (x : CQueue) : (d.setQueue q x).tick = d.tick := rfl
@[simp] theorem Dev.setQueue_regs (d : Dev) (q : Nat) (x : CQueue) : (d.setQueue q x).regs = d.regs := rfl
@[simp] theorem Dev.setQueue_looms (d : Dev) (q : Nat) (x : CQueue) : (d.setQueue q x).looms = d.looms := rfl
@[simp] theorem Dev.setQueue_loomWing (d : Dev) (q : Nat) (x : CQueue) : (d.setQueue q x).loomWing = d.loomWing := rfl
@[simp] theorem Dev.setQueue_groups (d : Dev) (q : Nat) (x : CQueue) : (d.setQueue q x).groups = d.groups := rfl
@[simp] theorem Dev.setQueue_wings (d : Dev) (q : Nat) (x : CQueue) : (d.setQueue q x).wings = d.wings := rfl
@[simp] theorem Dev.setQueue_weave (d : Dev) (q : Nat) (x : CQueue) : (d.setQueue q x).weave = d.weave := rfl
@[simp] theorem Dev.setQueue_tiers (d : Dev) (q : Nat) (x : CQueue) : (d.setQueue q x).tiers = d.tiers := rfl
@[simp] theorem Dev.setQueue_trans (d : Dev) (q : Nat) (x : CQueue) : (d.setQueue q x).trans = d.trans := rfl
@[simp] theorem Dev.setQueue_regions (d : Dev) (q : Nat) (x : CQueue) : (d.setQueue q x).regions = d.regions := rfl
@[simp] theorem Dev.setQueue_regCount (d : Dev) (q : Nat) (x : CQueue) : (d.setQueue q x).regCount = d.regCount := rfl
@[simp] theorem Dev.setQueue_runQ (d : Dev) (q : Nat) (x : CQueue) : (d.setQueue q x).runQ = d.runQ := rfl
@[simp] theorem Dev.setQueue_runs (d : Dev) (q : Nat) (x : CQueue) : (d.setQueue q x).runs = d.runs := rfl
@[simp] theorem Dev.setQueue_rerun (d : Dev) (q : Nat) (x : CQueue) : (d.setQueue q x).rerun = d.rerun := rfl
@[simp] theorem Dev.setQueue_heads (d : Dev) (q : Nat) (x : CQueue) : (d.setQueue q x).heads = d.heads := rfl
@[simp] theorem Dev.setQueue_ports (d : Dev) (q : Nat) (x : CQueue) : (d.setQueue q x).ports = d.ports := rfl
@[simp] theorem Dev.setQueue_jg (d : Dev) (q : Nat) (x : CQueue) : (d.setQueue q x).jg = d.jg := rfl
@[simp] theorem Dev.setQueue_tileAt (d : Dev) (q : Nat) (x : CQueue) : (d.setQueue q x).tileAt = d.tileAt := rfl
@[simp] theorem Dev.setQueue_tileIdle (d : Dev) (q : Nat) (x : CQueue) : (d.setQueue q x).tileIdle = d.tileIdle := rfl
@[simp] theorem Dev.setQueue_tx (d : Dev) (q : Nat) (x : CQueue) : (d.setQueue q x).tx = d.tx := rfl
@[simp] theorem Dev.setQueue_bifur (d : Dev) (q : Nat) (x : CQueue) : (d.setQueue q x).bifur = d.bifur := rfl
@[simp] theorem Dev.setQueue_bifurRec (d : Dev) (q : Nat) (x : CQueue) : (d.setQueue q x).bifurRec = d.bifurRec := rfl
@[simp] theorem Dev.setQueue_reg (d : Dev) (q : Nat) (x : CQueue) : (d.setQueue q x).reg = d.reg := rfl
@[simp] theorem Dev.setQueue_selv (d : Dev) (q : Nat) (x : CQueue) : (d.setQueue q x).selv = d.selv := rfl
@[simp] theorem Dev.setQueue_ledger (d : Dev) (q : Nat) (x : CQueue) : (d.setQueue q x).ledger = d.ledger := rfl
@[simp] theorem Dev.setQueue_pins (d : Dev) (q : Nat) (x : CQueue) : (d.setQueue q x).pins = d.pins := rfl
@[simp] theorem Dev.setQueue_prov (d : Dev) (q : Nat) (x : CQueue) : (d.setQueue q x).prov = d.prov := rfl
@[simp] theorem Dev.setQueue_reports (d : Dev) (q : Nat) (x : CQueue) : (d.setQueue q x).reports = d.reports := rfl
@[simp] theorem Dev.setQueue_opSeq (d : Dev) (q : Nat) (x : CQueue) : (d.setQueue q x).opSeq = d.opSeq := rfl
@[simp] theorem Dev.setQueue_free (d : Dev) (q : Nat) (x : CQueue) : (d.setQueue q x).free = d.free := rfl

@[simp] theorem Dev.setGroup_asm (d : Dev) (k : Nat) (g : BGroup) : (d.setGroup k g).asm = d.asm := rfl
@[simp] theorem Dev.setGroup_tick (d : Dev) (k : Nat) (g : BGroup) : (d.setGroup k g).tick = d.tick := rfl
@[simp] theorem Dev.setGroup_regs (d : Dev) (k : Nat) (g : BGroup) : (d.setGroup k g).regs = d.regs := rfl
@[simp] theorem Dev.setGroup_looms (d : Dev) (k : Nat) (g : BGroup) : (d.setGroup k g).looms = d.looms := rfl
@[simp] theorem Dev.setGroup_loomWing (d : Dev) (k : Nat) (g : BGroup) : (d.setGroup k g).loomWing = d.loomWing := rfl
@[simp] theorem Dev.setGroup_wings (d : Dev) (k : Nat) (g : BGroup) : (d.setGroup k g).wings = d.wings := rfl
@[simp] theorem Dev.setGroup_weave (d : Dev) (k : Nat) (g : BGroup) : (d.setGroup k g).weave = d.weave := rfl
@[simp] theorem Dev.setGroup_tiers (d : Dev) (k : Nat) (g : BGroup) : (d.setGroup k g).tiers = d.tiers := rfl
@[simp] theorem Dev.setGroup_trans (d : Dev) (k : Nat) (g : BGroup) : (d.setGroup k g).trans = d.trans := rfl
@[simp] theorem Dev.setGroup_regions (d : Dev) (k : Nat) (g : BGroup) : (d.setGroup k g).regions = d.regions := rfl
@[simp] theorem Dev.setGroup_regCount (d : Dev) (k : Nat) (g : BGroup) : (d.setGroup k g).regCount = d.regCount := rfl
@[simp] theorem Dev.setGroup_runQ (d : Dev) (k : Nat) (g : BGroup) : (d.setGroup k g).runQ = d.runQ := rfl
@[simp] theorem Dev.setGroup_runs (d : Dev) (k : Nat) (g : BGroup) : (d.setGroup k g).runs = d.runs := rfl
@[simp] theorem Dev.setGroup_rerun (d : Dev) (k : Nat) (g : BGroup) : (d.setGroup k g).rerun = d.rerun := rfl
@[simp] theorem Dev.setGroup_heads (d : Dev) (k : Nat) (g : BGroup) : (d.setGroup k g).heads = d.heads := rfl
@[simp] theorem Dev.setGroup_ports (d : Dev) (k : Nat) (g : BGroup) : (d.setGroup k g).ports = d.ports := rfl
@[simp] theorem Dev.setGroup_jg (d : Dev) (k : Nat) (g : BGroup) : (d.setGroup k g).jg = d.jg := rfl
@[simp] theorem Dev.setGroup_queues (d : Dev) (k : Nat) (g : BGroup) : (d.setGroup k g).queues = d.queues := rfl
@[simp] theorem Dev.setGroup_tileAt (d : Dev) (k : Nat) (g : BGroup) : (d.setGroup k g).tileAt = d.tileAt := rfl
@[simp] theorem Dev.setGroup_tileIdle (d : Dev) (k : Nat) (g : BGroup) : (d.setGroup k g).tileIdle = d.tileIdle := rfl
@[simp] theorem Dev.setGroup_tx (d : Dev) (k : Nat) (g : BGroup) : (d.setGroup k g).tx = d.tx := rfl
@[simp] theorem Dev.setGroup_bifur (d : Dev) (k : Nat) (g : BGroup) : (d.setGroup k g).bifur = d.bifur := rfl
@[simp] theorem Dev.setGroup_bifurRec (d : Dev) (k : Nat) (g : BGroup) : (d.setGroup k g).bifurRec = d.bifurRec := rfl
@[simp] theorem Dev.setGroup_reg (d : Dev) (k : Nat) (g : BGroup) : (d.setGroup k g).reg = d.reg := rfl
@[simp] theorem Dev.setGroup_selv (d : Dev) (k : Nat) (g : BGroup) : (d.setGroup k g).selv = d.selv := rfl
@[simp] theorem Dev.setGroup_ledger (d : Dev) (k : Nat) (g : BGroup) : (d.setGroup k g).ledger = d.ledger := rfl
@[simp] theorem Dev.setGroup_pins (d : Dev) (k : Nat) (g : BGroup) : (d.setGroup k g).pins = d.pins := rfl
@[simp] theorem Dev.setGroup_prov (d : Dev) (k : Nat) (g : BGroup) : (d.setGroup k g).prov = d.prov := rfl
@[simp] theorem Dev.setGroup_reports (d : Dev) (k : Nat) (g : BGroup) : (d.setGroup k g).reports = d.reports := rfl
@[simp] theorem Dev.setGroup_opSeq (d : Dev) (k : Nat) (g : BGroup) : (d.setGroup k g).opSeq = d.opSeq := rfl
@[simp] theorem Dev.setGroup_free (d : Dev) (k : Nat) (g : BGroup) : (d.setGroup k g).free = d.free := rfl

@[simp] theorem Dev.sendReq_asm (d : Dev) (r : Req) : (d.sendReq r).asm = d.asm := rfl
@[simp] theorem Dev.sendReq_tick (d : Dev) (r : Req) : (d.sendReq r).tick = d.tick := rfl
@[simp] theorem Dev.sendReq_regs (d : Dev) (r : Req) : (d.sendReq r).regs = d.regs := rfl
@[simp] theorem Dev.sendReq_looms (d : Dev) (r : Req) : (d.sendReq r).looms = d.looms := rfl
@[simp] theorem Dev.sendReq_loomWing (d : Dev) (r : Req) : (d.sendReq r).loomWing = d.loomWing := rfl
@[simp] theorem Dev.sendReq_groups (d : Dev) (r : Req) : (d.sendReq r).groups = d.groups := rfl
@[simp] theorem Dev.sendReq_wings (d : Dev) (r : Req) : (d.sendReq r).wings = d.wings := rfl
@[simp] theorem Dev.sendReq_tiers (d : Dev) (r : Req) : (d.sendReq r).tiers = d.tiers := rfl
@[simp] theorem Dev.sendReq_trans (d : Dev) (r : Req) : (d.sendReq r).trans = d.trans := rfl
@[simp] theorem Dev.sendReq_regions (d : Dev) (r : Req) : (d.sendReq r).regions = d.regions := rfl
@[simp] theorem Dev.sendReq_regCount (d : Dev) (r : Req) : (d.sendReq r).regCount = d.regCount := rfl
@[simp] theorem Dev.sendReq_runQ (d : Dev) (r : Req) : (d.sendReq r).runQ = d.runQ := rfl
@[simp] theorem Dev.sendReq_runs (d : Dev) (r : Req) : (d.sendReq r).runs = d.runs := rfl
@[simp] theorem Dev.sendReq_rerun (d : Dev) (r : Req) : (d.sendReq r).rerun = d.rerun := rfl
@[simp] theorem Dev.sendReq_heads (d : Dev) (r : Req) : (d.sendReq r).heads = d.heads := rfl
@[simp] theorem Dev.sendReq_ports (d : Dev) (r : Req) : (d.sendReq r).ports = d.ports := rfl
@[simp] theorem Dev.sendReq_jg (d : Dev) (r : Req) : (d.sendReq r).jg = d.jg := rfl
@[simp] theorem Dev.sendReq_queues (d : Dev) (r : Req) : (d.sendReq r).queues = d.queues := rfl
@[simp] theorem Dev.sendReq_tileAt (d : Dev) (r : Req) : (d.sendReq r).tileAt = d.tileAt := rfl
@[simp] theorem Dev.sendReq_tileIdle (d : Dev) (r : Req) : (d.sendReq r).tileIdle = d.tileIdle := rfl
@[simp] theorem Dev.sendReq_tx (d : Dev) (r : Req) : (d.sendReq r).tx = d.tx := rfl
@[simp] theorem Dev.sendReq_bifur (d : Dev) (r : Req) : (d.sendReq r).bifur = d.bifur := rfl
@[simp] theorem Dev.sendReq_bifurRec (d : Dev) (r : Req) : (d.sendReq r).bifurRec = d.bifurRec := rfl
@[simp] theorem Dev.sendReq_reg (d : Dev) (r : Req) : (d.sendReq r).reg = d.reg := rfl
@[simp] theorem Dev.sendReq_selv (d : Dev) (r : Req) : (d.sendReq r).selv = d.selv := rfl
@[simp] theorem Dev.sendReq_ledger (d : Dev) (r : Req) : (d.sendReq r).ledger = d.ledger := rfl
@[simp] theorem Dev.sendReq_pins (d : Dev) (r : Req) : (d.sendReq r).pins = d.pins := rfl
@[simp] theorem Dev.sendReq_prov (d : Dev) (r : Req) : (d.sendReq r).prov = d.prov := rfl
@[simp] theorem Dev.sendReq_reports (d : Dev) (r : Req) : (d.sendReq r).reports = d.reports := rfl
@[simp] theorem Dev.sendReq_opSeq (d : Dev) (r : Req) : (d.sendReq r).opSeq = d.opSeq := rfl
@[simp] theorem Dev.sendReq_free (d : Dev) (r : Req) : (d.sendReq r).free = d.free := rfl

@[simp] theorem Dev.sendMsg_asm (d : Dev) (m : Msg) : (d.sendMsg m).asm = d.asm := rfl
@[simp] theorem Dev.sendMsg_tick (d : Dev) (m : Msg) : (d.sendMsg m).tick = d.tick := rfl
@[simp] theorem Dev.sendMsg_regs (d : Dev) (m : Msg) : (d.sendMsg m).regs = d.regs := rfl
@[simp] theorem Dev.sendMsg_looms (d : Dev) (m : Msg) : (d.sendMsg m).looms = d.looms := rfl
@[simp] theorem Dev.sendMsg_loomWing (d : Dev) (m : Msg) : (d.sendMsg m).loomWing = d.loomWing := rfl
@[simp] theorem Dev.sendMsg_groups (d : Dev) (m : Msg) : (d.sendMsg m).groups = d.groups := rfl
@[simp] theorem Dev.sendMsg_wings (d : Dev) (m : Msg) : (d.sendMsg m).wings = d.wings := rfl
@[simp] theorem Dev.sendMsg_tiers (d : Dev) (m : Msg) : (d.sendMsg m).tiers = d.tiers := rfl
@[simp] theorem Dev.sendMsg_trans (d : Dev) (m : Msg) : (d.sendMsg m).trans = d.trans := rfl
@[simp] theorem Dev.sendMsg_regions (d : Dev) (m : Msg) : (d.sendMsg m).regions = d.regions := rfl
@[simp] theorem Dev.sendMsg_regCount (d : Dev) (m : Msg) : (d.sendMsg m).regCount = d.regCount := rfl
@[simp] theorem Dev.sendMsg_runQ (d : Dev) (m : Msg) : (d.sendMsg m).runQ = d.runQ := rfl
@[simp] theorem Dev.sendMsg_runs (d : Dev) (m : Msg) : (d.sendMsg m).runs = d.runs := rfl
@[simp] theorem Dev.sendMsg_rerun (d : Dev) (m : Msg) : (d.sendMsg m).rerun = d.rerun := rfl
@[simp] theorem Dev.sendMsg_heads (d : Dev) (m : Msg) : (d.sendMsg m).heads = d.heads := rfl
@[simp] theorem Dev.sendMsg_ports (d : Dev) (m : Msg) : (d.sendMsg m).ports = d.ports := rfl
@[simp] theorem Dev.sendMsg_jg (d : Dev) (m : Msg) : (d.sendMsg m).jg = d.jg := rfl
@[simp] theorem Dev.sendMsg_queues (d : Dev) (m : Msg) : (d.sendMsg m).queues = d.queues := rfl
@[simp] theorem Dev.sendMsg_tileAt (d : Dev) (m : Msg) : (d.sendMsg m).tileAt = d.tileAt := rfl
@[simp] theorem Dev.sendMsg_tileIdle (d : Dev) (m : Msg) : (d.sendMsg m).tileIdle = d.tileIdle := rfl
@[simp] theorem Dev.sendMsg_tx (d : Dev) (m : Msg) : (d.sendMsg m).tx = d.tx := rfl
@[simp] theorem Dev.sendMsg_bifur (d : Dev) (m : Msg) : (d.sendMsg m).bifur = d.bifur := rfl
@[simp] theorem Dev.sendMsg_bifurRec (d : Dev) (m : Msg) : (d.sendMsg m).bifurRec = d.bifurRec := rfl
@[simp] theorem Dev.sendMsg_reg (d : Dev) (m : Msg) : (d.sendMsg m).reg = d.reg := rfl
@[simp] theorem Dev.sendMsg_selv (d : Dev) (m : Msg) : (d.sendMsg m).selv = d.selv := rfl
@[simp] theorem Dev.sendMsg_ledger (d : Dev) (m : Msg) : (d.sendMsg m).ledger = d.ledger := rfl
@[simp] theorem Dev.sendMsg_pins (d : Dev) (m : Msg) : (d.sendMsg m).pins = d.pins := rfl
@[simp] theorem Dev.sendMsg_prov (d : Dev) (m : Msg) : (d.sendMsg m).prov = d.prov := rfl
@[simp] theorem Dev.sendMsg_reports (d : Dev) (m : Msg) : (d.sendMsg m).reports = d.reports := rfl
@[simp] theorem Dev.sendMsg_opSeq (d : Dev) (m : Msg) : (d.sendMsg m).opSeq = d.opSeq := rfl
@[simp] theorem Dev.sendMsg_free (d : Dev) (m : Msg) : (d.sendMsg m).free = d.free := rfl

@[simp] theorem Dev.report_asm (d : Dev) (src detail wing : Nat) : (d.report src detail wing).asm = d.asm := rfl
@[simp] theorem Dev.report_tick (d : Dev) (src detail wing : Nat) : (d.report src detail wing).tick = d.tick := rfl
@[simp] theorem Dev.report_regs (d : Dev) (src detail wing : Nat) : (d.report src detail wing).regs = d.regs := rfl
@[simp] theorem Dev.report_looms (d : Dev) (src detail wing : Nat) : (d.report src detail wing).looms = d.looms := rfl
@[simp] theorem Dev.report_loomWing (d : Dev) (src detail wing : Nat) : (d.report src detail wing).loomWing = d.loomWing := rfl
@[simp] theorem Dev.report_groups (d : Dev) (src detail wing : Nat) : (d.report src detail wing).groups = d.groups := rfl
@[simp] theorem Dev.report_wings (d : Dev) (src detail wing : Nat) : (d.report src detail wing).wings = d.wings := rfl
@[simp] theorem Dev.report_weave (d : Dev) (src detail wing : Nat) : (d.report src detail wing).weave = d.weave := rfl
@[simp] theorem Dev.report_tiers (d : Dev) (src detail wing : Nat) : (d.report src detail wing).tiers = d.tiers := rfl
@[simp] theorem Dev.report_trans (d : Dev) (src detail wing : Nat) : (d.report src detail wing).trans = d.trans := rfl
@[simp] theorem Dev.report_regions (d : Dev) (src detail wing : Nat) : (d.report src detail wing).regions = d.regions := rfl
@[simp] theorem Dev.report_regCount (d : Dev) (src detail wing : Nat) : (d.report src detail wing).regCount = d.regCount := rfl
@[simp] theorem Dev.report_runQ (d : Dev) (src detail wing : Nat) : (d.report src detail wing).runQ = d.runQ := rfl
@[simp] theorem Dev.report_runs (d : Dev) (src detail wing : Nat) : (d.report src detail wing).runs = d.runs := rfl
@[simp] theorem Dev.report_rerun (d : Dev) (src detail wing : Nat) : (d.report src detail wing).rerun = d.rerun := rfl
@[simp] theorem Dev.report_heads (d : Dev) (src detail wing : Nat) : (d.report src detail wing).heads = d.heads := rfl
@[simp] theorem Dev.report_ports (d : Dev) (src detail wing : Nat) : (d.report src detail wing).ports = d.ports := rfl
@[simp] theorem Dev.report_jg (d : Dev) (src detail wing : Nat) : (d.report src detail wing).jg = d.jg := rfl
@[simp] theorem Dev.report_queues (d : Dev) (src detail wing : Nat) : (d.report src detail wing).queues = d.queues := rfl
@[simp] theorem Dev.report_tileAt (d : Dev) (src detail wing : Nat) : (d.report src detail wing).tileAt = d.tileAt := rfl
@[simp] theorem Dev.report_tileIdle (d : Dev) (src detail wing : Nat) : (d.report src detail wing).tileIdle = d.tileIdle := rfl
@[simp] theorem Dev.report_tx (d : Dev) (src detail wing : Nat) : (d.report src detail wing).tx = d.tx := rfl
@[simp] theorem Dev.report_bifur (d : Dev) (src detail wing : Nat) : (d.report src detail wing).bifur = d.bifur := rfl
@[simp] theorem Dev.report_bifurRec (d : Dev) (src detail wing : Nat) : (d.report src detail wing).bifurRec = d.bifurRec := rfl
@[simp] theorem Dev.report_reg (d : Dev) (src detail wing : Nat) : (d.report src detail wing).reg = d.reg := rfl
@[simp] theorem Dev.report_selv (d : Dev) (src detail wing : Nat) : (d.report src detail wing).selv = d.selv := rfl
@[simp] theorem Dev.report_ledger (d : Dev) (src detail wing : Nat) : (d.report src detail wing).ledger = d.ledger := rfl
@[simp] theorem Dev.report_pins (d : Dev) (src detail wing : Nat) : (d.report src detail wing).pins = d.pins := rfl
@[simp] theorem Dev.report_prov (d : Dev) (src detail wing : Nat) : (d.report src detail wing).prov = d.prov := rfl
@[simp] theorem Dev.report_opSeq (d : Dev) (src detail wing : Nat) : (d.report src detail wing).opSeq = d.opSeq := rfl
@[simp] theorem Dev.report_free (d : Dev) (src detail wing : Nat) : (d.report src detail wing).free = d.free := rfl

@[simp] theorem Dev.fld_setLoom (d : Dev) (n : LoomId) (l : Loom) (y : Field) (i : Nat) : (d.setLoom n l).fld y i = d.fld y i := rfl
@[simp] theorem Dev.head_setLoom (d : Dev) (n : LoomId) (l : Loom) (i : HeadId) : (d.setLoom n l).head i = d.head i := rfl
@[simp] theorem Dev.port_setLoom (d : Dev) (n : LoomId) (l : Loom) (i : PortId) : (d.setLoom n l).port i = d.port i := rfl
@[simp] theorem Dev.queue_setLoom (d : Dev) (n : LoomId) (l : Loom) (i : Nat) : (d.setLoom n l).queue i = d.queue i := rfl
@[simp] theorem Dev.loom_setFld (d : Dev) (f : Field) (n v : Nat) (i : LoomId) : (d.setFld f n v).loom i = d.loom i := rfl
@[simp] theorem Dev.head_setFld (d : Dev) (f : Field) (n v : Nat) (i : HeadId) : (d.setFld f n v).head i = d.head i := rfl
@[simp] theorem Dev.port_setFld (d : Dev) (f : Field) (n v : Nat) (i : PortId) : (d.setFld f n v).port i = d.port i := rfl
@[simp] theorem Dev.queue_setFld (d : Dev) (f : Field) (n v : Nat) (i : Nat) : (d.setFld f n v).queue i = d.queue i := rfl
@[simp] theorem Dev.fld_setHead (d : Dev) (h : HeadId) (x : Head) (y : Field) (i : Nat) : (d.setHead h x).fld y i = d.fld y i := rfl
@[simp] theorem Dev.loom_setHead (d : Dev) (h : HeadId) (x : Head) (i : LoomId) : (d.setHead h x).loom i = d.loom i := rfl
@[simp] theorem Dev.port_setHead (d : Dev) (h : HeadId) (x : Head) (i : PortId) : (d.setHead h x).port i = d.port i := rfl
@[simp] theorem Dev.queue_setHead (d : Dev) (h : HeadId) (x : Head) (i : Nat) : (d.setHead h x).queue i = d.queue i := rfl
@[simp] theorem Dev.fld_setPort (d : Dev) (q : PortId) (p : Port) (y : Field) (i : Nat) : (d.setPort q p).fld y i = d.fld y i := rfl
@[simp] theorem Dev.loom_setPort (d : Dev) (q : PortId) (p : Port) (i : LoomId) : (d.setPort q p).loom i = d.loom i := rfl
@[simp] theorem Dev.head_setPort (d : Dev) (q : PortId) (p : Port) (i : HeadId) : (d.setPort q p).head i = d.head i := rfl
@[simp] theorem Dev.queue_setPort (d : Dev) (q : PortId) (p : Port) (i : Nat) : (d.setPort q p).queue i = d.queue i := rfl
@[simp] theorem Dev.fld_setQueue (d : Dev) (q : Nat) (x : CQueue) (y : Field) (i : Nat) : (d.setQueue q x).fld y i = d.fld y i := rfl
@[simp] theorem Dev.loom_setQueue (d : Dev) (q : Nat) (x : CQueue) (i : LoomId) : (d.setQueue q x).loom i = d.loom i := rfl
@[simp] theorem Dev.head_setQueue (d : Dev) (q : Nat) (x : CQueue) (i : HeadId) : (d.setQueue q x).head i = d.head i := rfl
@[simp] theorem Dev.port_setQueue (d : Dev) (q : Nat) (x : CQueue) (i : PortId) : (d.setQueue q x).port i = d.port i := rfl
@[simp] theorem Dev.fld_setGroup (d : Dev) (k : Nat) (g : BGroup) (y : Field) (i : Nat) : (d.setGroup k g).fld y i = d.fld y i := rfl
@[simp] theorem Dev.loom_setGroup (d : Dev) (k : Nat) (g : BGroup) (i : LoomId) : (d.setGroup k g).loom i = d.loom i := rfl
@[simp] theorem Dev.head_setGroup (d : Dev) (k : Nat) (g : BGroup) (i : HeadId) : (d.setGroup k g).head i = d.head i := rfl
@[simp] theorem Dev.port_setGroup (d : Dev) (k : Nat) (g : BGroup) (i : PortId) : (d.setGroup k g).port i = d.port i := rfl
@[simp] theorem Dev.queue_setGroup (d : Dev) (k : Nat) (g : BGroup) (i : Nat) : (d.setGroup k g).queue i = d.queue i := rfl
@[simp] theorem Dev.fld_sendReq (d : Dev) (r : Req) (y : Field) (i : Nat) : (d.sendReq r).fld y i = d.fld y i := rfl
@[simp] theorem Dev.loom_sendReq (d : Dev) (r : Req) (i : LoomId) : (d.sendReq r).loom i = d.loom i := rfl
@[simp] theorem Dev.head_sendReq (d : Dev) (r : Req) (i : HeadId) : (d.sendReq r).head i = d.head i := rfl
@[simp] theorem Dev.port_sendReq (d : Dev) (r : Req) (i : PortId) : (d.sendReq r).port i = d.port i := rfl
@[simp] theorem Dev.queue_sendReq (d : Dev) (r : Req) (i : Nat) : (d.sendReq r).queue i = d.queue i := rfl
@[simp] theorem Dev.fld_sendMsg (d : Dev) (m : Msg) (y : Field) (i : Nat) : (d.sendMsg m).fld y i = d.fld y i := rfl
@[simp] theorem Dev.loom_sendMsg (d : Dev) (m : Msg) (i : LoomId) : (d.sendMsg m).loom i = d.loom i := rfl
@[simp] theorem Dev.head_sendMsg (d : Dev) (m : Msg) (i : HeadId) : (d.sendMsg m).head i = d.head i := rfl
@[simp] theorem Dev.port_sendMsg (d : Dev) (m : Msg) (i : PortId) : (d.sendMsg m).port i = d.port i := rfl
@[simp] theorem Dev.queue_sendMsg (d : Dev) (m : Msg) (i : Nat) : (d.sendMsg m).queue i = d.queue i := rfl
@[simp] theorem Dev.fld_report (d : Dev) (src detail wing : Nat) (y : Field) (i : Nat) : (d.report src detail wing).fld y i = d.fld y i := rfl
@[simp] theorem Dev.loom_report (d : Dev) (src detail wing : Nat) (i : LoomId) : (d.report src detail wing).loom i = d.loom i := rfl
@[simp] theorem Dev.head_report (d : Dev) (src detail wing : Nat) (i : HeadId) : (d.report src detail wing).head i = d.head i := rfl
@[simp] theorem Dev.port_report (d : Dev) (src detail wing : Nat) (i : PortId) : (d.report src detail wing).port i = d.port i := rfl
@[simp] theorem Dev.queue_report (d : Dev) (src detail wing : Nat) (i : Nat) : (d.report src detail wing).queue i = d.queue i := rfl

end Sys2Proof.Machine
end

