-- ==== Sys2Proof/Laws/Show.lean ====
section
/-! SUPPORT. What surrounds every command: the status display changes only the fields that show the state, and an instruction
runs once its lines are in the instruction cache. -/

namespace Sys2Proof.Machine

/-- A property that every step of a fold keeps holds at its end. -/
theorem foldl_keeps {α β : Type} {f : β → α → β} (P : β → Prop) (h : ∀ b a, P b → P (f b a)) :
    ∀ (l : List α) (b : β), P b → P (l.foldl f b)
  | [], _, hb => hb
  | a :: l, b, hb => foldl_keeps P h l (f b a) (h b a hb)

/-- The same device but for registers and pins. -/
def SameBut (d e : Dev) : Prop := ∃ r p, e = { d with regs := r, pins := p }

theorem SameBut.refl (d : Dev) : SameBut d d := ⟨d.regs, d.pins, rfl⟩
theorem SameBut.setFld {d e : Dev} (h : SameBut d e) (f : Field) (n v : Nat) : SameBut d (e.setFld f n v) := by
  obtain ⟨r, p, rfl⟩ := h; exact ⟨_, _, rfl⟩

theorem Dev.show_sameBut (d : Dev) : SameBut d d.show := by
  unfold Dev.show
  have h : SameBut d (d.boundQueues.foldl Dev.showQueue d) :=
    foldl_keeps (SameBut d) (fun b a hb => by unfold Dev.showQueue; exact (((hb.setFld ..).setFld ..).setFld ..).setFld ..) _ d (SameBut.refl d)
  generalize d.boundQueues.foldl Dev.showQueue d = e at h
  have h2 : SameBut d (e.showCons.showLedger) := by
    unfold Dev.showLedger Dev.showCons
    exact ((((h.setFld ..).setFld ..).setFld ..).setFld ..).setFld ..
  generalize e.showCons.showLedger = e2 at h2
  unfold Dev.showFault
  split
  · exact h2
  · obtain ⟨r, p, h2⟩ := h2; subst h2; exact ⟨_, _, rfl⟩

@[simp] theorem Dev.show_asm (d : Dev) : d.show.asm = d.asm := by
  obtain ⟨r, p, h⟩ := d.show_sameBut; rw [h]
@[simp] theorem Dev.show_tick (d : Dev) : d.show.tick = d.tick := by
  obtain ⟨r, p, h⟩ := d.show_sameBut; rw [h]
@[simp] theorem Dev.show_looms (d : Dev) : d.show.looms = d.looms := by
  obtain ⟨r, p, h⟩ := d.show_sameBut; rw [h]
@[simp] theorem Dev.show_loomWing (d : Dev) : d.show.loomWing = d.loomWing := by
  obtain ⟨r, p, h⟩ := d.show_sameBut; rw [h]
@[simp] theorem Dev.show_groups (d : Dev) : d.show.groups = d.groups := by
  obtain ⟨r, p, h⟩ := d.show_sameBut; rw [h]
@[simp] theorem Dev.show_wings (d : Dev) : d.show.wings = d.wings := by
  obtain ⟨r, p, h⟩ := d.show_sameBut; rw [h]
@[simp] theorem Dev.show_weave (d : Dev) : d.show.weave = d.weave := by
  obtain ⟨r, p, h⟩ := d.show_sameBut; rw [h]
@[simp] theorem Dev.show_tiers (d : Dev) : d.show.tiers = d.tiers := by
  obtain ⟨r, p, h⟩ := d.show_sameBut; rw [h]
@[simp] theorem Dev.show_trans (d : Dev) : d.show.trans = d.trans := by
  obtain ⟨r, p, h⟩ := d.show_sameBut; rw [h]
@[simp] theorem Dev.show_regions (d : Dev) : d.show.regions = d.regions := by
  obtain ⟨r, p, h⟩ := d.show_sameBut; rw [h]
@[simp] theorem Dev.show_regCount (d : Dev) : d.show.regCount = d.regCount := by
  obtain ⟨r, p, h⟩ := d.show_sameBut; rw [h]
@[simp] theorem Dev.show_runQ (d : Dev) : d.show.runQ = d.runQ := by
  obtain ⟨r, p, h⟩ := d.show_sameBut; rw [h]
@[simp] theorem Dev.show_runs (d : Dev) : d.show.runs = d.runs := by
  obtain ⟨r, p, h⟩ := d.show_sameBut; rw [h]
@[simp] theorem Dev.show_rerun (d : Dev) : d.show.rerun = d.rerun := by
  obtain ⟨r, p, h⟩ := d.show_sameBut; rw [h]
@[simp] theorem Dev.show_heads (d : Dev) : d.show.heads = d.heads := by
  obtain ⟨r, p, h⟩ := d.show_sameBut; rw [h]
@[simp] theorem Dev.show_ports (d : Dev) : d.show.ports = d.ports := by
  obtain ⟨r, p, h⟩ := d.show_sameBut; rw [h]
@[simp] theorem Dev.show_jg (d : Dev) : d.show.jg = d.jg := by
  obtain ⟨r, p, h⟩ := d.show_sameBut; rw [h]
@[simp] theorem Dev.show_queues (d : Dev) : d.show.queues = d.queues := by
  obtain ⟨r, p, h⟩ := d.show_sameBut; rw [h]
@[simp] theorem Dev.show_tileAt (d : Dev) : d.show.tileAt = d.tileAt := by
  obtain ⟨r, p, h⟩ := d.show_sameBut; rw [h]
@[simp] theorem Dev.show_tileIdle (d : Dev) : d.show.tileIdle = d.tileIdle := by
  obtain ⟨r, p, h⟩ := d.show_sameBut; rw [h]
@[simp] theorem Dev.show_tx (d : Dev) : d.show.tx = d.tx := by
  obtain ⟨r, p, h⟩ := d.show_sameBut; rw [h]
@[simp] theorem Dev.show_bifur (d : Dev) : d.show.bifur = d.bifur := by
  obtain ⟨r, p, h⟩ := d.show_sameBut; rw [h]
@[simp] theorem Dev.show_bifurRec (d : Dev) : d.show.bifurRec = d.bifurRec := by
  obtain ⟨r, p, h⟩ := d.show_sameBut; rw [h]
@[simp] theorem Dev.show_reg (d : Dev) : d.show.reg = d.reg := by
  obtain ⟨r, p, h⟩ := d.show_sameBut; rw [h]
@[simp] theorem Dev.show_selv (d : Dev) : d.show.selv = d.selv := by
  obtain ⟨r, p, h⟩ := d.show_sameBut; rw [h]
@[simp] theorem Dev.show_ledger (d : Dev) : d.show.ledger = d.ledger := by
  obtain ⟨r, p, h⟩ := d.show_sameBut; rw [h]
@[simp] theorem Dev.show_prov (d : Dev) : d.show.prov = d.prov := by
  obtain ⟨r, p, h⟩ := d.show_sameBut; rw [h]
@[simp] theorem Dev.show_reports (d : Dev) : d.show.reports = d.reports := by
  obtain ⟨r, p, h⟩ := d.show_sameBut; rw [h]
@[simp] theorem Dev.show_opSeq (d : Dev) : d.show.opSeq = d.opSeq := by
  obtain ⟨r, p, h⟩ := d.show_sameBut; rw [h]
@[simp] theorem Dev.show_free (d : Dev) : d.show.free = d.free := by
  obtain ⟨r, p, h⟩ := d.show_sameBut; rw [h]

@[simp] theorem Dev.show_loom (d : Dev) (n : LoomId) : d.show.loom n = d.loom n := by unfold Dev.loom; rw [Dev.show_looms]
@[simp] theorem Dev.show_head (d : Dev) (n : HeadId) : d.show.head n = d.head n := by unfold Dev.head; rw [Dev.show_heads]
@[simp] theorem Dev.show_port (d : Dev) (n : PortId) : d.show.port n = d.port n := by unfold Dev.port; rw [Dev.show_ports]
@[simp] theorem Dev.show_queue (d : Dev) (n : Nat) : d.show.queue n = d.queue n := by unfold Dev.queue; rw [Dev.show_queues]

theorem Dev.showQueue_fld (d : Dev) (q : Nat) (f : Field) (n : Nat) (h : f.id ∉ shownFields) : (d.showQueue q).fld f n = d.fld f n := by
  simp only [shownFields, List.mem_cons, not_or] at h
  unfold Dev.showQueue
  simp only [Dev.fld_setFld_ne _ _ f _ _ _ h.1, Dev.fld_setFld_ne _ _ f _ _ _ h.2.1, Dev.fld_setFld_ne _ _ f _ _ _ h.2.2.1,
    Dev.fld_setFld_ne _ _ f _ _ _ h.2.2.2.1]

theorem Dev.showFault_fld (d : Dev) (f : Field) (n : Nat) : d.showFault.fld f n = d.fld f n := by
  unfold Dev.showFault; split <;> rfl

/-- A field that does not show the rest of the state keeps its value. -/
theorem Dev.show_fld (d : Dev) (f : Field) (n : Nat) (h : f.id ∉ shownFields) : d.show.fld f n = d.fld f n := by
  unfold Dev.show
  rw [Dev.showFault_fld]
  have hq : (d.boundQueues.foldl Dev.showQueue d).fld f n = d.fld f n :=
    foldl_keeps (fun e : Dev => e.fld f n = d.fld f n) (fun b a hb => (b.showQueue_fld a f n h).trans hb) _ d rfl
  simp only [shownFields, List.mem_cons, not_or] at h
  unfold Dev.showLedger Dev.showCons
  simp only [Dev.fld_setFld_ne _ _ f _ _ _ h.2.2.2.2.1, Dev.fld_setFld_ne _ _ f _ _ _ h.2.2.2.2.2.1,
    Dev.fld_setFld_ne _ _ f _ _ _ h.2.2.2.2.2.2.1, Dev.fld_setFld_ne _ _ f _ _ _ h.2.2.2.2.2.2.2.1,
    Dev.fld_setFld_ne _ _ f _ _ _ h.2.2.2.2.2.2.2.2.1]
  exact hq

/-! ### Instructions -/

theorem Loom.fetched_none {l : Loom} {k : Nat} (h : l.fetched k = true) :
    (l.fetchLines k).find? (fun x => !l.cached x) = none := by
  rw [List.find?_eq_none]
  intro x hx
  have := List.all_eq_true.1 h x hx
  simpa using this

/-- An instruction whose lines are cached and that the words at the pc spell runs its meaning. -/
theorem Dev.instr_run {d : Dev} {i : Instr} {n : LoomId} {k : Nat} (f : Dev → Dev) (hr : d.ready n = true)
    (hf : (d.loom n).fetched k = true) (hs : treadleInstr n (d.loom n).code = some i.spelled) : d.instr i n k f = f d := by
  unfold Dev.instr
  rw [hr, Loom.fetched_none hf, hs]
  simp

/-- Words that spell no instruction stop the treadle (R87). -/
theorem Dev.instr_illegal {d : Dev} {i : Instr} {n : LoomId} {k : Nat} (f : Dev → Dev) (hr : d.ready n = true)
    (hf : (d.loom n).fetched k = true) (hs : treadleInstr n (d.loom n).code = none) :
    d.instr i n k f = d.stop n .illegalInstruction := by
  unfold Dev.instr
  rw [hr, Loom.fetched_none hf, hs]
  rfl

theorem State.pure_issue {s : State} {i : Instr} {n : LoomId} {k : Nat} (f : Dev → Dev) (h : s.Issues n k) (hs : s.Spells n i) :
    s.pure (fun d => d.instr i n k f) = s.showing (f s.dev) := by
  simp [State.pure, State.next, State.showing, h.1, Dev.instr_run f h.2.1 h.2.2 hs]

theorem State.run_issue {s : State} {i : Instr} {n : LoomId} {k : Nat} (f : Dev → Dev) (h : s.Issues n k) (hs : s.Spells n i) :
    s.run (fun d => d.instr i n k f) = s.settling (f s.dev) := by
  simp [State.run, State.next, State.settling, h.1, Dev.instr_run f h.2.1 h.2.2 hs]

theorem State.pure_live {s : State} (f : Dev → Dev) (h : s.dev.live = true) : s.pure f = s.showing (f s.dev) := by
  simp [State.pure, State.next, State.showing, h]

theorem State.run_live {s : State} (f : Dev → Dev) (h : s.dev.live = true) : s.run f = s.settling (f s.dev) := by
  simp [State.run, State.next, State.settling, h]

theorem State.aon_showing (s : State) (f : Dev → Dev) : s.aon f = s.showing (f s.dev) := rfl

theorem Dev.issue_ready {d : Dev} {n : LoomId} (f : Dev → Dev) (h : d.ready n = true) : d.issue n f = f d := by
  simp [Dev.issue, h]

/-- One treadle register and the pc. -/
theorem Dev.setReg_nextPc (d : Dev) (n : LoomId) (r : Reg) (v : W64) (k : Nat) :
    (d.setReg n r v).nextPc n k = d.retires n k ((d.loom n).setReg r v) := by
  simp [Dev.setReg, Dev.nextPc, Dev.setPc, Dev.retires]

theorem Dev.nextPc_retires (d : Dev) (n : LoomId) (k : Nat) : d.nextPc n k = d.retires n k (d.loom n) := rfl

end Sys2Proof.Machine
end

