-- ==== Sys2Proof/Laws/Weave.lean ====
section
/-! SUPPORT. Laws of the updates of the weave and of runs: what each leaves alone, what a transaction and a catalogue entry read
as after one, and when a home takes a request and a work gets its spans. -/

namespace Sys2Proof.Machine

/-! ### What each update leaves alone -/

@[simp] theorem Dev.setTxn_asm (d : Dev) (line : Nat) (t : Txn) : (d.setTxn line t).asm = d.asm := rfl
@[simp] theorem Dev.setTxn_tick (d : Dev) (line : Nat) (t : Txn) : (d.setTxn line t).tick = d.tick := rfl
@[simp] theorem Dev.setTxn_regs (d : Dev) (line : Nat) (t : Txn) : (d.setTxn line t).regs = d.regs := rfl
@[simp] theorem Dev.setTxn_looms (d : Dev) (line : Nat) (t : Txn) : (d.setTxn line t).looms = d.looms := rfl
@[simp] theorem Dev.setTxn_loomWing (d : Dev) (line : Nat) (t : Txn) : (d.setTxn line t).loomWing = d.loomWing := rfl
@[simp] theorem Dev.setTxn_groups (d : Dev) (line : Nat) (t : Txn) : (d.setTxn line t).groups = d.groups := rfl
@[simp] theorem Dev.setTxn_wings (d : Dev) (line : Nat) (t : Txn) : (d.setTxn line t).wings = d.wings := rfl
@[simp] theorem Dev.setTxn_tiers (d : Dev) (line : Nat) (t : Txn) : (d.setTxn line t).tiers = d.tiers := rfl
@[simp] theorem Dev.setTxn_trans (d : Dev) (line : Nat) (t : Txn) : (d.setTxn line t).trans = d.trans := rfl
@[simp] theorem Dev.setTxn_regions (d : Dev) (line : Nat) (t : Txn) : (d.setTxn line t).regions = d.regions := rfl
@[simp] theorem Dev.setTxn_regCount (d : Dev) (line : Nat) (t : Txn) : (d.setTxn line t).regCount = d.regCount := rfl
@[simp] theorem Dev.setTxn_runQ (d : Dev) (line : Nat) (t : Txn) : (d.setTxn line t).runQ = d.runQ := rfl
@[simp] theorem Dev.setTxn_runs (d : Dev) (line : Nat) (t : Txn) : (d.setTxn line t).runs = d.runs := rfl
@[simp] theorem Dev.setTxn_rerun (d : Dev) (line : Nat) (t : Txn) : (d.setTxn line t).rerun = d.rerun := rfl
@[simp] theorem Dev.setTxn_heads (d : Dev) (line : Nat) (t : Txn) : (d.setTxn line t).heads = d.heads := rfl
@[simp] theorem Dev.setTxn_ports (d : Dev) (line : Nat) (t : Txn) : (d.setTxn line t).ports = d.ports := rfl
@[simp] theorem Dev.setTxn_jg (d : Dev) (line : Nat) (t : Txn) : (d.setTxn line t).jg = d.jg := rfl
@[simp] theorem Dev.setTxn_queues (d : Dev) (line : Nat) (t : Txn) : (d.setTxn line t).queues = d.queues := rfl
@[simp] theorem Dev.setTxn_tileAt (d : Dev) (line : Nat) (t : Txn) : (d.setTxn line t).tileAt = d.tileAt := rfl
@[simp] theorem Dev.setTxn_tileIdle (d : Dev) (line : Nat) (t : Txn) : (d.setTxn line t).tileIdle = d.tileIdle := rfl
@[simp] theorem Dev.setTxn_tx (d : Dev) (line : Nat) (t : Txn) : (d.setTxn line t).tx = d.tx := rfl
@[simp] theorem Dev.setTxn_bifur (d : Dev) (line : Nat) (t : Txn) : (d.setTxn line t).bifur = d.bifur := rfl
@[simp] theorem Dev.setTxn_bifurRec (d : Dev) (line : Nat) (t : Txn) : (d.setTxn line t).bifurRec = d.bifurRec := rfl
@[simp] theorem Dev.setTxn_reg (d : Dev) (line : Nat) (t : Txn) : (d.setTxn line t).reg = d.reg := rfl
@[simp] theorem Dev.setTxn_selv (d : Dev) (line : Nat) (t : Txn) : (d.setTxn line t).selv = d.selv := rfl
@[simp] theorem Dev.setTxn_ledger (d : Dev) (line : Nat) (t : Txn) : (d.setTxn line t).ledger = d.ledger := rfl
@[simp] theorem Dev.setTxn_pins (d : Dev) (line : Nat) (t : Txn) : (d.setTxn line t).pins = d.pins := rfl
@[simp] theorem Dev.setTxn_prov (d : Dev) (line : Nat) (t : Txn) : (d.setTxn line t).prov = d.prov := rfl
@[simp] theorem Dev.setTxn_reports (d : Dev) (line : Nat) (t : Txn) : (d.setTxn line t).reports = d.reports := rfl
@[simp] theorem Dev.setTxn_opSeq (d : Dev) (line : Nat) (t : Txn) : (d.setTxn line t).opSeq = d.opSeq := rfl
@[simp] theorem Dev.setTxn_free (d : Dev) (line : Nat) (t : Txn) : (d.setTxn line t).free = d.free := rfl

@[simp] theorem Dev.setEnt_asm (d : Dev) (line : Nat) (e : CatEnt) : (d.setEnt line e).asm = d.asm := rfl
@[simp] theorem Dev.setEnt_tick (d : Dev) (line : Nat) (e : CatEnt) : (d.setEnt line e).tick = d.tick := rfl
@[simp] theorem Dev.setEnt_regs (d : Dev) (line : Nat) (e : CatEnt) : (d.setEnt line e).regs = d.regs := rfl
@[simp] theorem Dev.setEnt_looms (d : Dev) (line : Nat) (e : CatEnt) : (d.setEnt line e).looms = d.looms := rfl
@[simp] theorem Dev.setEnt_loomWing (d : Dev) (line : Nat) (e : CatEnt) : (d.setEnt line e).loomWing = d.loomWing := rfl
@[simp] theorem Dev.setEnt_groups (d : Dev) (line : Nat) (e : CatEnt) : (d.setEnt line e).groups = d.groups := rfl
@[simp] theorem Dev.setEnt_wings (d : Dev) (line : Nat) (e : CatEnt) : (d.setEnt line e).wings = d.wings := rfl
@[simp] theorem Dev.setEnt_tiers (d : Dev) (line : Nat) (e : CatEnt) : (d.setEnt line e).tiers = d.tiers := rfl
@[simp] theorem Dev.setEnt_trans (d : Dev) (line : Nat) (e : CatEnt) : (d.setEnt line e).trans = d.trans := rfl
@[simp] theorem Dev.setEnt_regions (d : Dev) (line : Nat) (e : CatEnt) : (d.setEnt line e).regions = d.regions := rfl
@[simp] theorem Dev.setEnt_regCount (d : Dev) (line : Nat) (e : CatEnt) : (d.setEnt line e).regCount = d.regCount := rfl
@[simp] theorem Dev.setEnt_runQ (d : Dev) (line : Nat) (e : CatEnt) : (d.setEnt line e).runQ = d.runQ := rfl
@[simp] theorem Dev.setEnt_runs (d : Dev) (line : Nat) (e : CatEnt) : (d.setEnt line e).runs = d.runs := rfl
@[simp] theorem Dev.setEnt_rerun (d : Dev) (line : Nat) (e : CatEnt) : (d.setEnt line e).rerun = d.rerun := rfl
@[simp] theorem Dev.setEnt_heads (d : Dev) (line : Nat) (e : CatEnt) : (d.setEnt line e).heads = d.heads := rfl
@[simp] theorem Dev.setEnt_ports (d : Dev) (line : Nat) (e : CatEnt) : (d.setEnt line e).ports = d.ports := rfl
@[simp] theorem Dev.setEnt_jg (d : Dev) (line : Nat) (e : CatEnt) : (d.setEnt line e).jg = d.jg := rfl
@[simp] theorem Dev.setEnt_queues (d : Dev) (line : Nat) (e : CatEnt) : (d.setEnt line e).queues = d.queues := rfl
@[simp] theorem Dev.setEnt_tileAt (d : Dev) (line : Nat) (e : CatEnt) : (d.setEnt line e).tileAt = d.tileAt := rfl
@[simp] theorem Dev.setEnt_tileIdle (d : Dev) (line : Nat) (e : CatEnt) : (d.setEnt line e).tileIdle = d.tileIdle := rfl
@[simp] theorem Dev.setEnt_tx (d : Dev) (line : Nat) (e : CatEnt) : (d.setEnt line e).tx = d.tx := rfl
@[simp] theorem Dev.setEnt_bifur (d : Dev) (line : Nat) (e : CatEnt) : (d.setEnt line e).bifur = d.bifur := rfl
@[simp] theorem Dev.setEnt_bifurRec (d : Dev) (line : Nat) (e : CatEnt) : (d.setEnt line e).bifurRec = d.bifurRec := rfl
@[simp] theorem Dev.setEnt_reg (d : Dev) (line : Nat) (e : CatEnt) : (d.setEnt line e).reg = d.reg := rfl
@[simp] theorem Dev.setEnt_selv (d : Dev) (line : Nat) (e : CatEnt) : (d.setEnt line e).selv = d.selv := rfl
@[simp] theorem Dev.setEnt_ledger (d : Dev) (line : Nat) (e : CatEnt) : (d.setEnt line e).ledger = d.ledger := rfl
@[simp] theorem Dev.setEnt_pins (d : Dev) (line : Nat) (e : CatEnt) : (d.setEnt line e).pins = d.pins := rfl
@[simp] theorem Dev.setEnt_prov (d : Dev) (line : Nat) (e : CatEnt) : (d.setEnt line e).prov = d.prov := rfl
@[simp] theorem Dev.setEnt_reports (d : Dev) (line : Nat) (e : CatEnt) : (d.setEnt line e).reports = d.reports := rfl
@[simp] theorem Dev.setEnt_opSeq (d : Dev) (line : Nat) (e : CatEnt) : (d.setEnt line e).opSeq = d.opSeq := rfl
@[simp] theorem Dev.setEnt_free (d : Dev) (line : Nat) (e : CatEnt) : (d.setEnt line e).free = d.free := rfl

@[simp] theorem Dev.takeReq_asm (d : Dev) (r : Req) : (d.takeReq r).asm = d.asm := rfl
@[simp] theorem Dev.takeReq_tick (d : Dev) (r : Req) : (d.takeReq r).tick = d.tick := rfl
@[simp] theorem Dev.takeReq_regs (d : Dev) (r : Req) : (d.takeReq r).regs = d.regs := rfl
@[simp] theorem Dev.takeReq_looms (d : Dev) (r : Req) : (d.takeReq r).looms = d.looms := rfl
@[simp] theorem Dev.takeReq_loomWing (d : Dev) (r : Req) : (d.takeReq r).loomWing = d.loomWing := rfl
@[simp] theorem Dev.takeReq_groups (d : Dev) (r : Req) : (d.takeReq r).groups = d.groups := rfl
@[simp] theorem Dev.takeReq_wings (d : Dev) (r : Req) : (d.takeReq r).wings = d.wings := rfl
@[simp] theorem Dev.takeReq_tiers (d : Dev) (r : Req) : (d.takeReq r).tiers = d.tiers := rfl
@[simp] theorem Dev.takeReq_trans (d : Dev) (r : Req) : (d.takeReq r).trans = d.trans := rfl
@[simp] theorem Dev.takeReq_regions (d : Dev) (r : Req) : (d.takeReq r).regions = d.regions := rfl
@[simp] theorem Dev.takeReq_regCount (d : Dev) (r : Req) : (d.takeReq r).regCount = d.regCount := rfl
@[simp] theorem Dev.takeReq_runQ (d : Dev) (r : Req) : (d.takeReq r).runQ = d.runQ := rfl
@[simp] theorem Dev.takeReq_runs (d : Dev) (r : Req) : (d.takeReq r).runs = d.runs := rfl
@[simp] theorem Dev.takeReq_rerun (d : Dev) (r : Req) : (d.takeReq r).rerun = d.rerun := rfl
@[simp] theorem Dev.takeReq_heads (d : Dev) (r : Req) : (d.takeReq r).heads = d.heads := rfl
@[simp] theorem Dev.takeReq_ports (d : Dev) (r : Req) : (d.takeReq r).ports = d.ports := rfl
@[simp] theorem Dev.takeReq_jg (d : Dev) (r : Req) : (d.takeReq r).jg = d.jg := rfl
@[simp] theorem Dev.takeReq_queues (d : Dev) (r : Req) : (d.takeReq r).queues = d.queues := rfl
@[simp] theorem Dev.takeReq_tileAt (d : Dev) (r : Req) : (d.takeReq r).tileAt = d.tileAt := rfl
@[simp] theorem Dev.takeReq_tileIdle (d : Dev) (r : Req) : (d.takeReq r).tileIdle = d.tileIdle := rfl
@[simp] theorem Dev.takeReq_tx (d : Dev) (r : Req) : (d.takeReq r).tx = d.tx := rfl
@[simp] theorem Dev.takeReq_bifur (d : Dev) (r : Req) : (d.takeReq r).bifur = d.bifur := rfl
@[simp] theorem Dev.takeReq_bifurRec (d : Dev) (r : Req) : (d.takeReq r).bifurRec = d.bifurRec := rfl
@[simp] theorem Dev.takeReq_reg (d : Dev) (r : Req) : (d.takeReq r).reg = d.reg := rfl
@[simp] theorem Dev.takeReq_selv (d : Dev) (r : Req) : (d.takeReq r).selv = d.selv := rfl
@[simp] theorem Dev.takeReq_ledger (d : Dev) (r : Req) : (d.takeReq r).ledger = d.ledger := rfl
@[simp] theorem Dev.takeReq_pins (d : Dev) (r : Req) : (d.takeReq r).pins = d.pins := rfl
@[simp] theorem Dev.takeReq_prov (d : Dev) (r : Req) : (d.takeReq r).prov = d.prov := rfl
@[simp] theorem Dev.takeReq_reports (d : Dev) (r : Req) : (d.takeReq r).reports = d.reports := rfl
@[simp] theorem Dev.takeReq_opSeq (d : Dev) (r : Req) : (d.takeReq r).opSeq = d.opSeq := rfl
@[simp] theorem Dev.takeReq_free (d : Dev) (r : Req) : (d.takeReq r).free = d.free := rfl

@[simp] theorem Dev.takeMsg_asm (d : Dev) (m : Msg) : (d.takeMsg m).asm = d.asm := rfl
@[simp] theorem Dev.takeMsg_tick (d : Dev) (m : Msg) : (d.takeMsg m).tick = d.tick := rfl
@[simp] theorem Dev.takeMsg_regs (d : Dev) (m : Msg) : (d.takeMsg m).regs = d.regs := rfl
@[simp] theorem Dev.takeMsg_looms (d : Dev) (m : Msg) : (d.takeMsg m).looms = d.looms := rfl
@[simp] theorem Dev.takeMsg_loomWing (d : Dev) (m : Msg) : (d.takeMsg m).loomWing = d.loomWing := rfl
@[simp] theorem Dev.takeMsg_groups (d : Dev) (m : Msg) : (d.takeMsg m).groups = d.groups := rfl
@[simp] theorem Dev.takeMsg_wings (d : Dev) (m : Msg) : (d.takeMsg m).wings = d.wings := rfl
@[simp] theorem Dev.takeMsg_tiers (d : Dev) (m : Msg) : (d.takeMsg m).tiers = d.tiers := rfl
@[simp] theorem Dev.takeMsg_trans (d : Dev) (m : Msg) : (d.takeMsg m).trans = d.trans := rfl
@[simp] theorem Dev.takeMsg_regions (d : Dev) (m : Msg) : (d.takeMsg m).regions = d.regions := rfl
@[simp] theorem Dev.takeMsg_regCount (d : Dev) (m : Msg) : (d.takeMsg m).regCount = d.regCount := rfl
@[simp] theorem Dev.takeMsg_runQ (d : Dev) (m : Msg) : (d.takeMsg m).runQ = d.runQ := rfl
@[simp] theorem Dev.takeMsg_runs (d : Dev) (m : Msg) : (d.takeMsg m).runs = d.runs := rfl
@[simp] theorem Dev.takeMsg_rerun (d : Dev) (m : Msg) : (d.takeMsg m).rerun = d.rerun := rfl
@[simp] theorem Dev.takeMsg_heads (d : Dev) (m : Msg) : (d.takeMsg m).heads = d.heads := rfl
@[simp] theorem Dev.takeMsg_ports (d : Dev) (m : Msg) : (d.takeMsg m).ports = d.ports := rfl
@[simp] theorem Dev.takeMsg_jg (d : Dev) (m : Msg) : (d.takeMsg m).jg = d.jg := rfl
@[simp] theorem Dev.takeMsg_queues (d : Dev) (m : Msg) : (d.takeMsg m).queues = d.queues := rfl
@[simp] theorem Dev.takeMsg_tileAt (d : Dev) (m : Msg) : (d.takeMsg m).tileAt = d.tileAt := rfl
@[simp] theorem Dev.takeMsg_tileIdle (d : Dev) (m : Msg) : (d.takeMsg m).tileIdle = d.tileIdle := rfl
@[simp] theorem Dev.takeMsg_tx (d : Dev) (m : Msg) : (d.takeMsg m).tx = d.tx := rfl
@[simp] theorem Dev.takeMsg_bifur (d : Dev) (m : Msg) : (d.takeMsg m).bifur = d.bifur := rfl
@[simp] theorem Dev.takeMsg_bifurRec (d : Dev) (m : Msg) : (d.takeMsg m).bifurRec = d.bifurRec := rfl
@[simp] theorem Dev.takeMsg_reg (d : Dev) (m : Msg) : (d.takeMsg m).reg = d.reg := rfl
@[simp] theorem Dev.takeMsg_selv (d : Dev) (m : Msg) : (d.takeMsg m).selv = d.selv := rfl
@[simp] theorem Dev.takeMsg_ledger (d : Dev) (m : Msg) : (d.takeMsg m).ledger = d.ledger := rfl
@[simp] theorem Dev.takeMsg_pins (d : Dev) (m : Msg) : (d.takeMsg m).pins = d.pins := rfl
@[simp] theorem Dev.takeMsg_prov (d : Dev) (m : Msg) : (d.takeMsg m).prov = d.prov := rfl
@[simp] theorem Dev.takeMsg_reports (d : Dev) (m : Msg) : (d.takeMsg m).reports = d.reports := rfl
@[simp] theorem Dev.takeMsg_opSeq (d : Dev) (m : Msg) : (d.takeMsg m).opSeq = d.opSeq := rfl
@[simp] theorem Dev.takeMsg_free (d : Dev) (m : Msg) : (d.takeMsg m).free = d.free := rfl

@[simp] theorem Dev.endAsks_asm (d : Dev) (w : Work) : (d.endAsks w).asm = d.asm := rfl
@[simp] theorem Dev.endAsks_tick (d : Dev) (w : Work) : (d.endAsks w).tick = d.tick := rfl
@[simp] theorem Dev.endAsks_regs (d : Dev) (w : Work) : (d.endAsks w).regs = d.regs := rfl
@[simp] theorem Dev.endAsks_looms (d : Dev) (w : Work) : (d.endAsks w).looms = d.looms := rfl
@[simp] theorem Dev.endAsks_loomWing (d : Dev) (w : Work) : (d.endAsks w).loomWing = d.loomWing := rfl
@[simp] theorem Dev.endAsks_groups (d : Dev) (w : Work) : (d.endAsks w).groups = d.groups := rfl
@[simp] theorem Dev.endAsks_wings (d : Dev) (w : Work) : (d.endAsks w).wings = d.wings := rfl
@[simp] theorem Dev.endAsks_tiers (d : Dev) (w : Work) : (d.endAsks w).tiers = d.tiers := rfl
@[simp] theorem Dev.endAsks_trans (d : Dev) (w : Work) : (d.endAsks w).trans = d.trans := rfl
@[simp] theorem Dev.endAsks_regions (d : Dev) (w : Work) : (d.endAsks w).regions = d.regions := rfl
@[simp] theorem Dev.endAsks_regCount (d : Dev) (w : Work) : (d.endAsks w).regCount = d.regCount := rfl
@[simp] theorem Dev.endAsks_runQ (d : Dev) (w : Work) : (d.endAsks w).runQ = d.runQ := rfl
@[simp] theorem Dev.endAsks_runs (d : Dev) (w : Work) : (d.endAsks w).runs = d.runs := rfl
@[simp] theorem Dev.endAsks_rerun (d : Dev) (w : Work) : (d.endAsks w).rerun = d.rerun := rfl
@[simp] theorem Dev.endAsks_heads (d : Dev) (w : Work) : (d.endAsks w).heads = d.heads := rfl
@[simp] theorem Dev.endAsks_ports (d : Dev) (w : Work) : (d.endAsks w).ports = d.ports := rfl
@[simp] theorem Dev.endAsks_jg (d : Dev) (w : Work) : (d.endAsks w).jg = d.jg := rfl
@[simp] theorem Dev.endAsks_queues (d : Dev) (w : Work) : (d.endAsks w).queues = d.queues := rfl
@[simp] theorem Dev.endAsks_tileAt (d : Dev) (w : Work) : (d.endAsks w).tileAt = d.tileAt := rfl
@[simp] theorem Dev.endAsks_tileIdle (d : Dev) (w : Work) : (d.endAsks w).tileIdle = d.tileIdle := rfl
@[simp] theorem Dev.endAsks_tx (d : Dev) (w : Work) : (d.endAsks w).tx = d.tx := rfl
@[simp] theorem Dev.endAsks_bifur (d : Dev) (w : Work) : (d.endAsks w).bifur = d.bifur := rfl
@[simp] theorem Dev.endAsks_bifurRec (d : Dev) (w : Work) : (d.endAsks w).bifurRec = d.bifurRec := rfl
@[simp] theorem Dev.endAsks_reg (d : Dev) (w : Work) : (d.endAsks w).reg = d.reg := rfl
@[simp] theorem Dev.endAsks_selv (d : Dev) (w : Work) : (d.endAsks w).selv = d.selv := rfl
@[simp] theorem Dev.endAsks_ledger (d : Dev) (w : Work) : (d.endAsks w).ledger = d.ledger := rfl
@[simp] theorem Dev.endAsks_pins (d : Dev) (w : Work) : (d.endAsks w).pins = d.pins := rfl
@[simp] theorem Dev.endAsks_prov (d : Dev) (w : Work) : (d.endAsks w).prov = d.prov := rfl
@[simp] theorem Dev.endAsks_reports (d : Dev) (w : Work) : (d.endAsks w).reports = d.reports := rfl
@[simp] theorem Dev.endAsks_opSeq (d : Dev) (w : Work) : (d.endAsks w).opSeq = d.opSeq := rfl
@[simp] theorem Dev.endAsks_free (d : Dev) (w : Work) : (d.endAsks w).free = d.free := rfl

@[simp] theorem Dev.setRun_asm (d : Dev) (slot : Nat) (x : Run) : (d.setRun slot x).asm = d.asm := rfl
@[simp] theorem Dev.setRun_tick (d : Dev) (slot : Nat) (x : Run) : (d.setRun slot x).tick = d.tick := rfl
@[simp] theorem Dev.setRun_regs (d : Dev) (slot : Nat) (x : Run) : (d.setRun slot x).regs = d.regs := rfl
@[simp] theorem Dev.setRun_looms (d : Dev) (slot : Nat) (x : Run) : (d.setRun slot x).looms = d.looms := rfl
@[simp] theorem Dev.setRun_loomWing (d : Dev) (slot : Nat) (x : Run) : (d.setRun slot x).loomWing = d.loomWing := rfl
@[simp] theorem Dev.setRun_groups (d : Dev) (slot : Nat) (x : Run) : (d.setRun slot x).groups = d.groups := rfl
@[simp] theorem Dev.setRun_wings (d : Dev) (slot : Nat) (x : Run) : (d.setRun slot x).wings = d.wings := rfl
@[simp] theorem Dev.setRun_weave (d : Dev) (slot : Nat) (x : Run) : (d.setRun slot x).weave = d.weave := rfl
@[simp] theorem Dev.setRun_tiers (d : Dev) (slot : Nat) (x : Run) : (d.setRun slot x).tiers = d.tiers := rfl
@[simp] theorem Dev.setRun_trans (d : Dev) (slot : Nat) (x : Run) : (d.setRun slot x).trans = d.trans := rfl
@[simp] theorem Dev.setRun_regions (d : Dev) (slot : Nat) (x : Run) : (d.setRun slot x).regions = d.regions := rfl
@[simp] theorem Dev.setRun_regCount (d : Dev) (slot : Nat) (x : Run) : (d.setRun slot x).regCount = d.regCount := rfl
@[simp] theorem Dev.setRun_runQ (d : Dev) (slot : Nat) (x : Run) : (d.setRun slot x).runQ = d.runQ := rfl
@[simp] theorem Dev.setRun_rerun (d : Dev) (slot : Nat) (x : Run) : (d.setRun slot x).rerun = d.rerun := rfl
@[simp] theorem Dev.setRun_heads (d : Dev) (slot : Nat) (x : Run) : (d.setRun slot x).heads = d.heads := rfl
@[simp] theorem Dev.setRun_ports (d : Dev) (slot : Nat) (x : Run) : (d.setRun slot x).ports = d.ports := rfl
@[simp] theorem Dev.setRun_jg (d : Dev) (slot : Nat) (x : Run) : (d.setRun slot x).jg = d.jg := rfl
@[simp] theorem Dev.setRun_queues (d : Dev) (slot : Nat) (x : Run) : (d.setRun slot x).queues = d.queues := rfl
@[simp] theorem Dev.setRun_tileAt (d : Dev) (slot : Nat) (x : Run) : (d.setRun slot x).tileAt = d.tileAt := rfl
@[simp] theorem Dev.setRun_tileIdle (d : Dev) (slot : Nat) (x : Run) : (d.setRun slot x).tileIdle = d.tileIdle := rfl
@[simp] theorem Dev.setRun_tx (d : Dev) (slot : Nat) (x : Run) : (d.setRun slot x).tx = d.tx := rfl
@[simp] theorem Dev.setRun_bifur (d : Dev) (slot : Nat) (x : Run) : (d.setRun slot x).bifur = d.bifur := rfl
@[simp] theorem Dev.setRun_bifurRec (d : Dev) (slot : Nat) (x : Run) : (d.setRun slot x).bifurRec = d.bifurRec := rfl
@[simp] theorem Dev.setRun_reg (d : Dev) (slot : Nat) (x : Run) : (d.setRun slot x).reg = d.reg := rfl
@[simp] theorem Dev.setRun_selv (d : Dev) (slot : Nat) (x : Run) : (d.setRun slot x).selv = d.selv := rfl
@[simp] theorem Dev.setRun_ledger (d : Dev) (slot : Nat) (x : Run) : (d.setRun slot x).ledger = d.ledger := rfl
@[simp] theorem Dev.setRun_pins (d : Dev) (slot : Nat) (x : Run) : (d.setRun slot x).pins = d.pins := rfl
@[simp] theorem Dev.setRun_prov (d : Dev) (slot : Nat) (x : Run) : (d.setRun slot x).prov = d.prov := rfl
@[simp] theorem Dev.setRun_reports (d : Dev) (slot : Nat) (x : Run) : (d.setRun slot x).reports = d.reports := rfl
@[simp] theorem Dev.setRun_opSeq (d : Dev) (slot : Nat) (x : Run) : (d.setRun slot x).opSeq = d.opSeq := rfl
@[simp] theorem Dev.setRun_free (d : Dev) (slot : Nat) (x : Run) : (d.setRun slot x).free = d.free := rfl

/-! ### Transactions and catalogue entries -/

theorem Dev.txn_setTxn (d : Dev) (a b : Nat) (t : Txn) : (d.setTxn a t).txn b = if b = a then some t else d.txn b := by
  by_cases h : b = a
  · subst h; simp [Dev.txn, Dev.setTxn, Fmap.find_put]
  · simp [Dev.txn, Dev.setTxn, h, Fmap.find_put]

@[simp] theorem Dev.txn_setTxn_same (d : Dev) (a : Nat) (t : Txn) : (d.setTxn a t).txn a = some t := by simp [Dev.txn_setTxn]

/-- A message that has arrived is no longer under way; nothing else of the weave changes. -/
theorem Dev.takeMsg_weave (d : Dev) (m : Msg) : (d.takeMsg m).weave = { d.weave with msgs := eraseOne m d.weave.msgs } := rfl
theorem Dev.takeReq_weave (d : Dev) (r : Req) : (d.takeReq r).weave = { d.weave with reqs := eraseOne r d.weave.reqs } := rfl

/-! ### Works and their spans -/

/-- A work whose spans are to be had does its step. -/
theorem Dev.withSpans_ready {d : Dev} {w : Work} {rd wr : List Span} (f : Dev → Dev) (h : d.spansReady w rd wr = true) :
    d.withSpans w rd wr f = f (d.endAsks w) := by simp [Dev.withSpans, h]

/-- One whose spans are not to be had only asks for them. -/
theorem Dev.withSpans_asks {d : Dev} {w : Work} {rd wr : List Span} (f : Dev → Dev) (h : d.spansReady w rd wr = false) :
    d.withSpans w rd wr f = d.spansAsk w rd wr := by simp [Dev.withSpans, h]

theorem Dev.onChunk_ready {d : Dev} {slot : Nat} {x : Run} {e : Entry} {m : Nat} (f : Dev → Dev) (h : d.chunkReady slot x e m = true) :
    d.onChunk slot x e m f = f (d.endAsks (runWork slot)) := Dev.withSpans_ready f h

/-! ### Requests at a home -/

/-- Only a host's MemWr is taken for another kind (R192). -/
theorem Dev.recast_cache (d : Dev) {r : Req} {n : LoomId} (h : r.src = .cache n) : d.recast r = r := by
  unfold Dev.recast; rw [h]; split <;> simp_all

theorem Dev.recast_kind (d : Dev) {r : Req} (h : r.kind ≠ .writeBack) : d.recast r = r := by
  unfold Dev.recast; split <;> simp_all

/-- A home that can take a request opens its transaction and then serves what waits (R175). -/
theorem Dev.homeMem_room {d : Dev} {r : Req} (h : d.Room r) (hr : d.recast r = r) (hw : r.kind ≠ .writeBack) :
    d.homeMem r = (d.startTxn r false).releaseLine r.line.toNat := by
  obtain ⟨h1, h2, h3, h4, h5⟩ := h
  simp [Dev.homeMem, hr, h1, h2, h3, h4, h5, hw]

/-- A WriteBack is taken with a reserved tracker. -/
theorem Dev.homeMem_writeBack {d : Dev} {r : Req} (h : d.Room r) (hr : d.recast r = r) (hw : r.kind = .writeBack) :
    d.homeMem r = (d.startTxn r true).releaseLine r.line.toNat := by
  obtain ⟨h1, h2, h3, h4, h5⟩ := h
  simp [Dev.homeMem, hr, h1, h2, h4, hw]

end Sys2Proof.Machine
end

