-- ==== Sys2Proof/WellFormed.lean ====
section
/-! DEFINITION. Commands whose operands fit their row: a message of the row's kind, a register write that is naturally
aligned (R7), units and lengths that exist.  A command that breaks one of these checks names nothing that can happen. -/

namespace Sys2Proof

open Machine

/-- A BAR 0 access is aligned to its width and lies in the BAR (R7). -/
def bar0Fits (off : Nat) (wide : Bool) : Bool := off % (if wide then 8 else 4) = 0 && off < 0x2000000

/-- A destination of a register write exists. -/
def Machine.RegDest.fits : RegDest → Bool
  | .bar0 off wide _ _ => bar0Fits off wide
  | .bar4 off _ => off % 4 = 0 && off < 0x10000
  | .hdm _ x => x.iw ≤ 4 && x.ig ≤ 6
  | .ras _ _ => true

/-- A BAR 2 request has 1 to 4,096 bytes and crosses no 4 KiB boundary (PCI Express 6.0). -/
def bar2Fits (off : BitVec 29) (len : Nat) : Bool := 1 ≤ len && off.toNat % 4096 + len ≤ 4096

/-- A class 0xD word (Table 4-3). -/
def reedWord (w : W64) : Bool := w.extractLsb' 28 4 = 0xD

/-- The checks of the messages, by row. -/
def Instr.fitsMsg : Instr → Bool
  | .readShared r => r.kind = .readShared
  | .readOwn r => r.kind = .readOwn
  | .upgrade r => r.kind = .upgrade
  | .ownNoData r => r.kind = .ownNoData
  | .writeBack r => r.kind = .writeBack
  | .writeClean r => r.kind = .writeClean
  | .cleanEvict r => r.kind = .cleanEvict
  | .readOnce r => r.kind = .readOnce
  | .write r => r.kind = .write
  | .atomic r => (match r.kind with | .atomic _ => true | _ => false)
  | .reduceWrite r => r.kind = .reduceWrite
  | .recallMsg m => m.kind = .recallKeep || m.kind = .recallCopy || m.kind = .recallInv
  | .invalidate m => m.kind = .invalidate
  | .stash m => m.kind = .stash
  | .data m => m.kind = .data
  | .recallData m => m.kind = .recallData
  | .recallAck m => m.kind = .recallAck
  | .invAck m => m.kind = .invAck
  | .comp m => m.kind = .comp
  | .compAck m => m.kind = .compAck
  | .retry m => m.kind = .retryNoTracker || m.kind = .retryBusy
  | .credit m => m.kind = .credit
  | .stashAck m => m.kind = .stashAck
  | .rd _ m => m.opc = opcRd
  | .atom _ m => m.opc = opcAtom
  | .wr _ m => m.opc = opcWr
  | .wrm _ m => m.opc = opcWrm
  | .cmp _ m => m.opc = opcCmp
  | .rdata _ m => m.opc = opcRdata
  | .atomdata _ m => m.opc = opcAtomdata
  | .jgLimit _ m => m.opc = opcJg
  | .jgCommit _ m => m.opc = opcJg
  | .jgAck _ m => m.opc = opcJg
  | _ => true

/-- The checks of the other operands, by row. -/
def Instr.fitsRange : Instr → Bool
  | .registerWrite _ x => x.fits
  | .reedEnqueue _ w => reedWord w
  | .wayPowerChange _ a => a.num = 0x080
  | .cleanAll _ a => a.num = 0x083
  | .flushAll _ a => a.num = 0x083
  | .unlockAll _ a => a.num = 0x083
  | .homeTimeoutExpiry _ id => id.toNat < 4096 + 16
  | .ledgerEvent x => (match x with
      | some (.weave _ k) => k.toNat < 3
      | some (.aer _ e) => e.ofLink
      | _ => true)
  | .parityRetry x _ => x.chan.toNat < 512 + 24
  | .refreshRateChange depot i _ => i.toNat < (if depot then 24 else 16)
  | .meminjArm _ v => v.getLsbD 63
  | .faultResume _ v => v.getLsbD 31
  | .invalidationStart _ v => v.getLsbD 31
  | .atsTranslationCompletion _ _ _ _ size _ => 4096 ≤ size
  | .queueEnable _ _ v => v.getLsbD 31
  | .queueDisable _ _ v => !v.getLsbD 31
  | .bar2Read _ _ off len => bar2Fits off len
  | .bar2Write _ _ _ off len _ => bar2Fits off len
  | .configRead _ o => o.toNat % 4 = 0
  | .configWrite _ o _ _ => o.toNat % 4 = 0
  | .mailboxDoorbell box _ bytes => box.toNat ≤ 33 && bytes.length ≤ 4096
  | .margin res => res.length ≤ 256
  | .vfRecalibrate raises => raises.all (fun r => r.1 < 64 && r.2.1 < 16)
  | .slowLoop x => x.act.all (fun a => a.busy ≤ a.clocks && a.wait ≤ a.clocks) && x.power.all (· ≤ 15)
  | .force _ _ v => v.getLsbD 63
  | .openClear _ _ v => v.getLsbD 62
  | .escalatedClear _ _ v => v.getLsbD 61
  | .responderStatusRead input => input.length ≤ 32
  | .responderOverflowRead input => input.length ≤ 32
  | .responderRecordRead input => input.length ≤ 32
  | .responderSourceRead input => input.length ≤ 32
  | _ => true

/-- A well-formed command. -/
def Instr.wf (i : Instr) : Bool := i.fitsMsg && i.fitsRange

end Sys2Proof
end

