-- ==== Sys2Proof/Tests/Slice0.lean ====
section
/-! SUPPORT. Tests of the model: ill-formed commands are refused, examples of spec/, single steps, and for every statement states
and operands that meet its hypotheses (theorems `w_<statement>_<n>`). -/

namespace Sys2Proof.Tests

set_option Elab.async false

open Sys2Proof Sys2Proof.Machine

/-! ### Small states -/

/-- A device in the run phase with its registrar running, 20 s after power-up. -/
def up : Dev :=
  { State.reset.dev with
    tick := 20000000
    pins := { rstN := true, phase := .run, perstN := 255 }
    reg := { running := true } }

def st (d : Dev) : State := ⟨d, []⟩

/-- Loom 5 of wing 0 runs at address 0x1000, where its instruction cache holds line 32; `code` puts the words of `i` there. -/
def code (i : Instr) (l : Loom) : Loom := { l with icache := [(32, i.word.setWidth 1024)] }
def loom0 : Loom := { pc := 0x1000, icache := [(32, 0)] }
def withLoom (l : Loom) (d : Dev) : Dev := { (d.setLoom 5 l).setLoomState 5 stRunning with loomWing := [(5, 0)] }
def runs (l : Loom) : State := st (withLoom l up)
def spell (i : Instr) (s : State) : State := st (s.dev.setLoom 5 (code i (s.dev.loom 5)))

/-! ### Treadle instructions -/

def n5 : LoomId := 5
def l1 : Loom := { loom0 with t := [(3, 7), (4, -5)] }
def a1 : RArgs := { rd := 2, rs1 := 3, rs2 := 4 }
def aRsvd : RArgs := { a1 with rsvd := 1 }
def aMov : MovwArgs := { rd := 3, hw := 1, keep := true, imm := 0xBEEF }
def aJal : JalArgs := { rd := 1, imm := -7 }
def aJalr : JalrArgs := { rd := 3, rs1 := 3, imm := 1 }
def aBr : BrArgs := { rs1 := 3, rs2 := 4, imm := -3 }
def sAlu : State := runs l1
def aScr : ScrArgs := { r := 3, rs1 := 3, size := 2, imm := 1, sext := true }
def aScr8 : ScrArgs := { r := 4, rs1 := 3, size := 3, imm := 0, sext := false }
def lScr : Loom := { loom0 with t := [(3, 0xBFFF8)], scratch := [(0xBFFFF, 0xFE)] }
def sScr : State := runs { l1 with scratch := [(8, 1), (11, 0xFE)] }
def sScr8 : State := runs lScr
def sSr : State := runs { l1 with inbox := 6, rank := 9 , t := [(3, 2)]}
def aSr (num : BitVec 12) : SrArgs := { r := 3, num := num }
def aImm : IArgs := { rd := 3, rs1 := 3, imm := -9 }

theorem w_OperationResults :
    (spell (Instr.add n5 a1) sAlu).Issues n5 4 ∧ a1.rsvd = 0 ∧ (spell (Instr.add n5 a1) sAlu).Spells n5 (Instr.add n5 a1) ∧
    (spell (Instr.addi n5 aImm) sAlu).Issues n5 4 ∧ (spell (Instr.addi n5 aImm) sAlu).Spells n5 (Instr.addi n5 aImm) := by
  unfold State.Issues State.Spells; decide +kernel

theorem w_MoveAndControlFlow :
    (spell (Instr.movw n5 aMov) sAlu).Issues n5 4 ∧ aMov.rsvd = 0 ∧ (spell (Instr.movw n5 aMov) sAlu).Spells n5 (Instr.movw n5 aMov) ∧
    (spell (Instr.nop n5 { : SysArgs }) sAlu).Issues n5 4 ∧
    (spell (Instr.nop n5 { : SysArgs }) sAlu).Spells n5 (Instr.nop n5 { : SysArgs }) ∧ (spell (Instr.jal n5 aJal) sAlu).Issues n5 4 ∧
    (((spell (Instr.jal n5 aJal) sAlu).dev.loom n5).pc + BitVec.signExtend 56 aJal.imm <<< 2).toNat % 4 = 0 ∧
    (spell (Instr.jal n5 aJal) sAlu).Spells n5 (Instr.jal n5 aJal) ∧ (spell (Instr.jalr n5 aJalr) sAlu).Issues n5 4 ∧ aJalr.rsvd = 0 ∧
    (BitVec.setWidth 56 (((spell (Instr.jalr n5 aJalr) sAlu).dev.loom n5).reg aJalr.rs1 + BitVec.signExtend 64 aJalr.imm)).toNat % 4 = 0 ∧
    (spell (Instr.jalr n5 aJalr) sAlu).Spells n5 (Instr.jalr n5 aJalr) ∧ (spell (Instr.branchEq n5 aBr) sAlu).Issues n5 4 ∧
    (((spell (Instr.branchEq n5 aBr) sAlu).dev.loom n5).pc + BitVec.signExtend 56 aBr.imm <<< 2).toNat % 4 = 0 ∧
    (spell (Instr.branchEq n5 aBr) sAlu).Spells n5 (Instr.branchEq n5 aBr) ∧ (spell (Instr.add n5 aRsvd) sAlu).Issues n5 4 ∧
    (spell (Instr.add n5 aRsvd) sAlu).Spells n5 (Instr.add n5 aRsvd) ∧ aRsvd.rsvd ≠ 0 ∧
    ((spell (Instr.add n5 aRsvd) sAlu).dev.loom n5).group = none := by
  unfold State.Issues State.Spells; decide +kernel

theorem w_ScratchAndSystemRegisters_1 :
    (spell (Instr.sld n5 aScr) sScr).Issues n5 4 ∧
    (8 : Int) = ((BitVec.toNat (((spell (Instr.sld n5 aScr) sScr).dev.loom n5).reg aScr.rs1) % 2 ^ 20 : Nat) : Int) + aScr.imm.toInt ∧
    8 % 2 ^ aScr.size.toNat = 0 ∧ 8 + 2 ^ aScr.size.toNat ≤ 786432 ∧
    ((spell (Instr.sld n5 aScr) sScr).dev.loom n5).reedScratch = false ∧
    (spell (Instr.sld n5 aScr) sScr).Spells n5 (Instr.sld n5 aScr) ∧ (spell (Instr.sst n5 aScr8) sScr8).Issues n5 4 ∧
    (786424 : Int) = ((BitVec.toNat (((spell (Instr.sst n5 aScr8) sScr8).dev.loom n5).reg aScr8.rs1) % 2 ^ 20 : Nat) : Int) + aScr8.imm.toInt ∧
    786424 % 2 ^ aScr8.size.toNat = 0 ∧ 786424 + 2 ^ aScr8.size.toNat ≤ 786432 ∧
    ((spell (Instr.sst n5 aScr8) sScr8).dev.loom n5).reedScratch = false ∧ aScr8.sext = false ∧
    (spell (Instr.sst n5 aScr8) sScr8).Spells n5 (Instr.sst n5 aScr8) ∧ (spell (Instr.srr n5 (aSr 19)) sSr).Issues n5 4 ∧
    (aSr 19).rsvd = 0 ∧ ((spell (Instr.srr n5 (aSr 19)) sSr).dev.loom n5).reedQ = [] ∧ (aSr 19).num.toNat = 19 ∧
    (spell (Instr.srr n5 (aSr 19)) sSr).Spells n5 (Instr.srr n5 (aSr 19)) ∧ (spell (Instr.srw n5 (aSr 65)) sSr).Issues n5 4 ∧
    (aSr 65).rsvd = 0 ∧ ((spell (Instr.srw n5 (aSr 65)) sSr).dev.loom n5).reedQ = [] ∧ (aSr 65).num.toNat = 65 ∧
    (spell (Instr.srw n5 (aSr 65)) sSr).Spells n5 (Instr.srw n5 (aSr 65)) ∧ (spell (Instr.srw n5 (aSr 19)) sSr).Issues n5 4 ∧
    ((spell (Instr.srw n5 (aSr 19)) sSr).dev.loom n5).reedQ = [] ∧ (aSr 19).num = 19 ∧
    (spell (Instr.srw n5 (aSr 19)) sSr).Spells n5 (Instr.srw n5 (aSr 19)) := by
  unfold State.Issues State.Spells; decide +kernel

theorem w_ScratchAndSystemRegisters_2 :
    (spell (Instr.srw n5 (aSr 130)) sSr).Issues n5 4 ∧ (aSr 130).rsvd = 0 ∧
    ((spell (Instr.srw n5 (aSr 130)) sSr).dev.loom n5).reedQ = [] ∧ (aSr 130).num = 130 ∧
    (spell (Instr.srw n5 (aSr 130)) sSr).Spells n5 (Instr.srw n5 (aSr 130)) ∧ (spell (Instr.srw n5 (aSr 16)) sSr).Issues n5 4 ∧
    (aSr 16).rsvd = 0 ∧ ((spell (Instr.srw n5 (aSr 16)) sSr).dev.loom n5).reedQ = [] ∧ (aSr 16).num.toNat = 16 ∧
    (spell (Instr.srw n5 (aSr 16)) sSr).Spells n5 (Instr.srw n5 (aSr 16)) := by
  unfold State.Issues State.Spells; decide +kernel

/-! ### Memory accesses and waits -/

/-- A page of 64 MiB at virtual 0x400_0000, writable and executable, at DPA 0x800_0000 of wing 0. -/
def page1 : Tlb := { wing := 0, va := 0x4000000, big := false, leaf := 0x800000F }
def mapped (d : Dev) : Dev := { d with wings := [(0, { extents := [(0, 0x10000000)] })] }
def lMem : Loom := { loom0 with tlb := [page1], t := [(3, 0x40000F8), (4, 0x8877665544332211), (5, 0x4000004)] }
def line0 : CLine := { line := 0x80000, s0 := .e, s3 := .m, data := BitVec.ofNat 2048 (0x8182838485868788 * 2 ^ 1984) }
def full0 : CLine := { line := 0x80000, s0 := .m, s1 := .s, s2 := .o, s3 := .e, data := 0xFF }
def sMem : State := st (withLoom lMem (mapped up))
/-- The same line with every sector valid. -/
def lineH : CLine := { line0 with s1 := .s, s2 := .s }
def sHit : State := st (withLoom { lMem with cache := [(2, lineH)], streamCount := 3 } (mapped up))
def sWay : State := runs { loom0 with t := [(3, 0x0F01)] }
def sDirty (v : W64) : State := runs { loom0 with t := [(3, v)], cache := [(2, full0)] }
def sFull : State := st (withLoom { lMem with cache := [(2, full0)] } (mapped up))
def aLd (imm : BitVec 15) : LoadArgs := { rd := 3, rs1 := 3, imm := imm }
def aSt (imm : BitVec 16) : StoreArgs := { rs2 := 4, rs1 := 3, imm := imm }
def aAt (wide : Bool) (r : Reg) : AtomArgs := { rd := 4, rs1 := r, rs2 := 4, wide := wide }
def aCa : CacheArgs := { rs1 := 3, imm := -0xF8 }
def aWay : SrArgs := { r := 3, num := 0x080 }
def aOp : SrArgs := { r := 3, num := 0x083 }
def xL : Nat := 0x80000F8
def xF : Nat := 0x80000FF
/-- Loom 5 after LOOM's way 0 of set 0 was chosen for the line of xL. -/
def dWay (s : State) : Dev := (s.dev.allocWay 5 (BitVec.ofNat 40 (0x8000000 / 256)) (fun _ => true)).2
/-- A member of barrier group 2 with an operation of tally 9 and INBOX bit 6. -/
def sGrp : State := runs { loom0 with group := some 2, inbox := 64, t := [(3, 64), (4, 1)] }
def sFence (l : Loom) : State := runs { loom0 with stall := .fence .all [], lost := l.lost, lostHost := l.lostHost, early := l.early }
def stE : StEnt := { id := 1, dest := .mem, attr := 0, line := 0x80000, va := 0x4000000, mask := 0xFF00, data := 0x112233445566778800000000000000000 }
def stLost : StEnt := { stE with lostAt := some (up.tick - 2000), dest := .peer 1 }
def sLost : State := runs { loom0 with stb := [stLost, stE], tlb := [page1] }
def sEnd : State := st ((withLoom { loom0 with ending := .stopped } up).setFld Fld.TALLY_FAULT_FAULT 5 1)
def sLeave : State := runs { loom0 with stb := [stE], cache := [(2, full0)] }

theorem w_WholeCacheOperations :
    (spell (Instr.wayPowerChange n5 aWay) sWay).Issues n5 4 ∧ aWay.rsvd = 0 ∧ aWay.num = 128 ∧
    BitVec.toNat (((spell (Instr.wayPowerChange n5 aWay) sWay).dev.loom n5).reg aWay.r) % 2 = 1 ∧
    BitVec.toNat (((spell (Instr.wayPowerChange n5 aWay) sWay).dev.loom n5).reg aWay.r) / 2 ^ 8 % 2 ^ 8 ≠ 0 ∧
    BitVec.toNat (((spell (Instr.wayPowerChange n5 aWay) sWay).dev.loom n5).reg aWay.r) / 2 ^ 8 % 2 ^ 8 ≠ (spell (Instr.wayPowerChange n5 aWay) sWay).dev.fld Fld.CACHE_CTRL_WAY_ON 5 ∧
    ((spell (Instr.wayPowerChange n5 aWay) sWay).dev.loom n5).cache = [] ∧
    ((spell (Instr.wayPowerChange n5 aWay) sWay).dev.loom n5).cleanTags = [] ∧
    (spell (Instr.wayPowerChange n5 aWay) sWay).Spells n5 (Instr.wayPowerChange n5 aWay) ∧
    (spell (Instr.cleanAll n5 aOp) (sDirty 1)).Issues n5 4 ∧ aOp.rsvd = 0 ∧ aOp.num = 131 ∧
    ((spell (Instr.cleanAll n5 aOp) (sDirty 1)).dev.loom n5).cache = [(2, full0)] ∧ full0.dirty ≠ 0 ∧ full0.wait = 0 ∧
    (((spell (Instr.cleanAll n5 aOp) (sDirty 1)).dev.loom n5).evict.all fun e ↦ e.sent) = true ∧
    BitVec.toNat (((spell (Instr.cleanAll n5 aOp) (sDirty 1)).dev.loom n5).reg aOp.r) % 4 = 1 ∧
    (spell (Instr.cleanAll n5 aOp) (sDirty 1)).Spells n5 (Instr.cleanAll n5 aOp) ∧
    (spell (Instr.flushAll n5 aOp) (sDirty 2)).Issues n5 4 ∧
    ((spell (Instr.flushAll n5 aOp) (sDirty 2)).dev.loom n5).cache = [(2, full0)] ∧
    (((spell (Instr.flushAll n5 aOp) (sDirty 2)).dev.loom n5).evict.all fun e ↦ e.sent) = true ∧
    BitVec.toNat (((spell (Instr.flushAll n5 aOp) (sDirty 2)).dev.loom n5).reg aOp.r) % 4 = 2 ∧
    (spell (Instr.flushAll n5 aOp) (sDirty 2)).Spells n5 (Instr.flushAll n5 aOp) ∧
    (spell (Instr.unlockAll n5 aOp) (sDirty 3)).Issues n5 4 ∧
    ((spell (Instr.unlockAll n5 aOp) (sDirty 3)).dev.loom n5).cache = [(2, full0)] ∧
    (((spell (Instr.unlockAll n5 aOp) (sDirty 3)).dev.loom n5).evict.all fun e ↦ e.sent) = true ∧
    BitVec.toNat (((spell (Instr.unlockAll n5 aOp) (sDirty 3)).dev.loom n5).reg aOp.r) % 4 = 3 ∧
    (spell (Instr.unlockAll n5 aOp) (sDirty 3)).Spells n5 (Instr.unlockAll n5 aOp) := by
  unfold State.Issues State.Spells; decide +kernel

theorem w_LoadHits_1 :
    (spell (Instr.lb n5 (aLd 7)) sHit).Issues n5 4 ∧
    BitVec.toNat (((spell (Instr.lb n5 (aLd 7)) sHit).dev.loom n5).reg (aLd 7).rs1 + BitVec.signExtend 64 (aLd 7).imm) % 1 = 0 ∧
    (spell (Instr.lb n5 (aLd 7)) sHit).dev.Reaches n5 (((spell (Instr.lb n5 (aLd 7)) sHit).dev.loom n5).reg (aLd 7).rs1 + BitVec.signExtend 64 (aLd 7).imm) AccKind.load page1 xF ∧
    destOf page1 xF = Dest.mem ∧ pteAttr page1.leaf ≠ attrDeviceEa ∧ pteAttr page1.leaf ≠ attrDeviceNe ∧
    ((spell (Instr.lb n5 (aLd 7)) sHit).dev.loom n5).stb = [] ∧
    ((spell (Instr.lb n5 (aLd 7)) sHit).dev.loom n5).Holds (BitVec.ofNat 40 (xF / 256)) 2 lineH ∧ lineH.invalid = 0 ∧
    (spell (Instr.lb n5 (aLd 7)) sHit).Spells n5 (Instr.lb n5 (aLd 7)) ∧ (spell (Instr.lh n5 (aLd 0)) sHit).Issues n5 4 ∧
    BitVec.toNat (((spell (Instr.lh n5 (aLd 0)) sHit).dev.loom n5).reg (aLd 0).rs1 + BitVec.signExtend 64 (aLd 0).imm) % 2 = 0 ∧
    (spell (Instr.lh n5 (aLd 0)) sHit).dev.Reaches n5 (((spell (Instr.lh n5 (aLd 0)) sHit).dev.loom n5).reg (aLd 0).rs1 + BitVec.signExtend 64 (aLd 0).imm) AccKind.load page1 xL ∧
    destOf page1 xL = Dest.mem ∧ ((spell (Instr.lh n5 (aLd 0)) sHit).dev.loom n5).stb = [] ∧
    ((spell (Instr.lh n5 (aLd 0)) sHit).dev.loom n5).Holds (BitVec.ofNat 40 (xL / 256)) 2 lineH ∧
    (spell (Instr.lh n5 (aLd 0)) sHit).Spells n5 (Instr.lh n5 (aLd 0)) := by
  unfold State.Issues Dev.Reaches Loom.Holds State.Spells; decide +kernel

theorem w_LoadHits_2 :
    (spell (Instr.lw n5 (aLd 0)) sHit).Issues n5 4 ∧
    BitVec.toNat (((spell (Instr.lw n5 (aLd 0)) sHit).dev.loom n5).reg (aLd 0).rs1 + BitVec.signExtend 64 (aLd 0).imm) % 4 = 0 ∧
    (spell (Instr.lw n5 (aLd 0)) sHit).dev.Reaches n5 (((spell (Instr.lw n5 (aLd 0)) sHit).dev.loom n5).reg (aLd 0).rs1 + BitVec.signExtend 64 (aLd 0).imm) AccKind.load page1 xL ∧
    destOf page1 xL = Dest.mem ∧ pteAttr page1.leaf ≠ attrDeviceEa ∧ pteAttr page1.leaf ≠ attrDeviceNe ∧
    ((spell (Instr.lw n5 (aLd 0)) sHit).dev.loom n5).stb = [] ∧
    ((spell (Instr.lw n5 (aLd 0)) sHit).dev.loom n5).Holds (BitVec.ofNat 40 (xL / 256)) 2 lineH ∧ lineH.invalid = 0 ∧
    (spell (Instr.lw n5 (aLd 0)) sHit).Spells n5 (Instr.lw n5 (aLd 0)) ∧ (spell (Instr.ld n5 (aLd 0)) sHit).Issues n5 4 ∧
    BitVec.toNat (((spell (Instr.ld n5 (aLd 0)) sHit).dev.loom n5).reg (aLd 0).rs1 + BitVec.signExtend 64 (aLd 0).imm) % 8 = 0 ∧
    (spell (Instr.ld n5 (aLd 0)) sHit).dev.Reaches n5 (((spell (Instr.ld n5 (aLd 0)) sHit).dev.loom n5).reg (aLd 0).rs1 + BitVec.signExtend 64 (aLd 0).imm) AccKind.load page1 xL ∧
    ((spell (Instr.ld n5 (aLd 0)) sHit).dev.loom n5).stb = [] ∧
    ((spell (Instr.ld n5 (aLd 0)) sHit).dev.loom n5).Holds (BitVec.ofNat 40 (xL / 256)) 2 lineH ∧
    (spell (Instr.ld n5 (aLd 0)) sHit).Spells n5 (Instr.ld n5 (aLd 0)) := by
  unfold State.Issues Dev.Reaches Loom.Holds State.Spells; decide +kernel

theorem w_StoresEnterBuffer_1 :
    (spell (Instr.sb n5 (aSt 7)) sMem).Issues n5 4 ∧
    BitVec.toNat (((spell (Instr.sb n5 (aSt 7)) sMem).dev.loom n5).reg (aSt 7).rs1 + BitVec.signExtend 64 (aSt 7).imm) % 1 = 0 ∧
    (spell (Instr.sb n5 (aSt 7)) sMem).dev.Reaches n5 (((spell (Instr.sb n5 (aSt 7)) sMem).dev.loom n5).reg (aSt 7).rs1 + BitVec.signExtend 64 (aSt 7).imm) AccKind.store page1 xF ∧
    destOf page1 xF = Dest.mem ∧ pteAttr page1.leaf ≤ attrStream ∧ ((spell (Instr.sb n5 (aSt 7)) sMem).dev.loom n5).stb = [] ∧
    (spell (Instr.sb n5 (aSt 7)) sMem).Spells n5 (Instr.sb n5 (aSt 7)) ∧ (spell (Instr.sh n5 (aSt 0)) sMem).Issues n5 4 ∧
    BitVec.toNat (((spell (Instr.sh n5 (aSt 0)) sMem).dev.loom n5).reg (aSt 0).rs1 + BitVec.signExtend 64 (aSt 0).imm) % 2 = 0 ∧
    (spell (Instr.sh n5 (aSt 0)) sMem).dev.Reaches n5 (((spell (Instr.sh n5 (aSt 0)) sMem).dev.loom n5).reg (aSt 0).rs1 + BitVec.signExtend 64 (aSt 0).imm) AccKind.store page1 xL ∧
    destOf page1 xL = Dest.mem ∧ ((spell (Instr.sh n5 (aSt 0)) sMem).dev.loom n5).stb = [] ∧
    (spell (Instr.sh n5 (aSt 0)) sMem).Spells n5 (Instr.sh n5 (aSt 0)) ∧ (spell (Instr.sw n5 (aSt 0)) sMem).Issues n5 4 ∧
    BitVec.toNat (((spell (Instr.sw n5 (aSt 0)) sMem).dev.loom n5).reg (aSt 0).rs1 + BitVec.signExtend 64 (aSt 0).imm) % 4 = 0 ∧
    (spell (Instr.sw n5 (aSt 0)) sMem).dev.Reaches n5 (((spell (Instr.sw n5 (aSt 0)) sMem).dev.loom n5).reg (aSt 0).rs1 + BitVec.signExtend 64 (aSt 0).imm) AccKind.store page1 xL ∧
    ((spell (Instr.sw n5 (aSt 0)) sMem).dev.loom n5).stb = [] ∧ (spell (Instr.sw n5 (aSt 0)) sMem).Spells n5 (Instr.sw n5 (aSt 0)) := by
  unfold State.Issues Dev.Reaches State.Spells; decide +kernel

theorem w_StoresEnterBuffer_2 :
    (spell (Instr.sd n5 (aSt 0)) sMem).Issues n5 4 ∧
    BitVec.toNat (((spell (Instr.sd n5 (aSt 0)) sMem).dev.loom n5).reg (aSt 0).rs1 + BitVec.signExtend 64 (aSt 0).imm) % 8 = 0 ∧
    (spell (Instr.sd n5 (aSt 0)) sMem).dev.Reaches n5 (((spell (Instr.sd n5 (aSt 0)) sMem).dev.loom n5).reg (aSt 0).rs1 + BitVec.signExtend 64 (aSt 0).imm) AccKind.store page1 xL ∧
    destOf page1 xL = Dest.mem ∧ pteAttr page1.leaf ≤ attrStream ∧ ((spell (Instr.sd n5 (aSt 0)) sMem).dev.loom n5).stb = [] ∧
    (spell (Instr.sd n5 (aSt 0)) sMem).Spells n5 (Instr.sd n5 (aSt 0)) := by
  unfold State.Issues Dev.Reaches State.Spells; decide +kernel

theorem w_AtomicsGoHome :
    (spell (Instr.atomicSwap n5 (aAt true 3)) sMem).Issues n5 4 ∧ (aAt true 3).rsvd = 0 ∧
    (BitVec.toNat (((spell (Instr.atomicSwap n5 (aAt true 3)) sMem).dev.loom n5).reg (aAt true 3).rs1) % if (aAt true 3).wide = true then 8 else 4) = 0 ∧
    ((spell (Instr.atomicSwap n5 (aAt true 3)) sMem).dev.loom n5).stb = [] ∧
    (spell (Instr.atomicSwap n5 (aAt true 3)) sMem).dev.Reaches n5 (((spell (Instr.atomicSwap n5 (aAt true 3)) sMem).dev.loom n5).reg (aAt true 3).rs1) AccKind.atomic page1 xL ∧
    destOf page1 xL = Dest.mem ∧ (spell (Instr.atomicSwap n5 (aAt true 3)) sMem).Spells n5 (Instr.atomicSwap n5 (aAt true 3)) ∧
    (spell (Instr.atomicSwap n5 (aAt false 5)) sMem).Issues n5 4 ∧ (aAt false 5).rsvd = 0 ∧
    (BitVec.toNat (((spell (Instr.atomicSwap n5 (aAt false 5)) sMem).dev.loom n5).reg (aAt false 5).rs1) % if (aAt false 5).wide = true then 8 else 4) = 0 ∧
    ((spell (Instr.atomicSwap n5 (aAt false 5)) sMem).dev.loom n5).stb = [] ∧
    (spell (Instr.atomicSwap n5 (aAt false 5)) sMem).dev.Reaches n5 (((spell (Instr.atomicSwap n5 (aAt false 5)) sMem).dev.loom n5).reg (aAt false 5).rs1) AccKind.atomic page1 134217732 ∧
    destOf page1 134217732 = Dest.mem ∧
    (spell (Instr.atomicSwap n5 (aAt false 5)) sMem).Spells n5 (Instr.atomicSwap n5 (aAt false 5)) := by
  unfold State.Issues Dev.Reaches State.Spells; decide +kernel

theorem w_CacheLineOperations_1 :
    (spell (Instr.prefetchR n5 aCa) sMem).Issues n5 4 ∧ destOf page1 134217728 = Dest.mem ∧
    (spell (Instr.prefetchR n5 aCa) sMem).dev.Reaches n5 (((spell (Instr.prefetchR n5 aCa) sMem).dev.loom n5).reg aCa.rs1 + BitVec.signExtend 64 aCa.imm) AccKind.hint page1 134217728 ∧
    pteAttr page1.leaf = attrNormal ∧
    ((spell (Instr.prefetchR n5 aCa) sMem).dev.loom n5).findLine (BitVec.ofNat 40 (134217728 / 256)) = none ∧
    ((spell (Instr.prefetchR n5 aCa) sMem).dev.loom n5).findEvict (BitVec.ofNat 40 (134217728 / 256)) = none ∧
    ((spell (Instr.prefetchR n5 aCa) sMem).dev.allocWay n5 (BitVec.ofNat 40 (134217728 / 256)) fun _ ↦ true) = (Alloc.way 0, dWay (spell (Instr.prefetchR n5 aCa) sMem)) ∧
    Fmap.get { line := 0 : CLine } ((dWay (spell (Instr.prefetchR n5 aCa) sMem)).loom n5).cache 0 = { line := BitVec.ofNat 40 (134217728 / 256) : CLine } ∧
    (spell (Instr.prefetchR n5 aCa) sMem).Spells n5 (Instr.prefetchR n5 aCa) ∧ (spell (Instr.zeroLine n5 aCa) sMem).Issues n5 4 ∧
    (spell (Instr.zeroLine n5 aCa) sMem).dev.Reaches n5 (((spell (Instr.zeroLine n5 aCa) sMem).dev.loom n5).reg aCa.rs1 + BitVec.signExtend 64 aCa.imm) AccKind.store page1 134217728 ∧
    ((spell (Instr.zeroLine n5 aCa) sMem).dev.loom n5).stb = [] ∧
    (spell (Instr.zeroLine n5 aCa) sMem).Spells n5 (Instr.zeroLine n5 aCa) := by
  unfold State.Issues Dev.Reaches State.Spells; decide +kernel

theorem w_CacheLineOperations_2 :
    (spell (Instr.lockPreload n5 aCa) sFull).Issues n5 4 ∧ destOf page1 134217728 = Dest.mem ∧
    (spell (Instr.lockPreload n5 aCa) sFull).dev.Reaches n5 (((spell (Instr.lockPreload n5 aCa) sFull).dev.loom n5).reg aCa.rs1 + BitVec.signExtend 64 aCa.imm) AccKind.load page1 134217728 ∧
    pteAttr page1.leaf = attrNormal ∧
    ((List.range 4).any fun w ↦ (spell (Instr.lockPreload n5 aCa) sFull).dev.fldBit Fld.CACHE_CTRL_WAY_ON 5 w && !(Fmap.get { line := 0 : CLine } ((spell (Instr.lockPreload n5 aCa) sFull).dev.loom n5).cache (8 * cacheSet (BitVec.ofNat 40 (134217728 / 256)) + w)).lock) = true ∧
    ((spell (Instr.lockPreload n5 aCa) sFull).dev.loom n5).Holds (BitVec.ofNat 40 (134217728 / 256)) 2 full0 ∧ full0.invalid = 0 ∧
    (spell (Instr.lockPreload n5 aCa) sFull).Spells n5 (Instr.lockPreload n5 aCa) ∧ (spell (Instr.unlock n5 aCa) sFull).Issues n5 4 ∧
    (spell (Instr.unlock n5 aCa) sFull).dev.Reaches n5 (((spell (Instr.unlock n5 aCa) sFull).dev.loom n5).reg aCa.rs1 + BitVec.signExtend 64 aCa.imm) AccKind.hint page1 134217728 ∧
    (spell (Instr.unlock n5 aCa) sFull).Spells n5 (Instr.unlock n5 aCa) := by
  unfold State.Issues Dev.Reaches Loom.Holds State.Spells; decide +kernel

theorem w_FencesAndWaits_1 :
    (spell (Instr.fenceSl n5 { : SysArgs }) sGrp).Issues n5 4 ∧
    (spell (Instr.fenceSl n5 { : SysArgs }) sGrp).Spells n5 (Instr.fenceSl n5 { : SysArgs }) ∧
    (spell (Instr.tallyWait n5 { rd := 3, rs1 := 4 : SysArgs }) sGrp).Issues n5 4 ∧
    ((spell (Instr.tallyWait n5 { rd := 3, rs1 := 4 : SysArgs }) sGrp).dev.loom n5).busyMask &&& ((spell (Instr.tallyWait n5 { rd := 3, rs1 := 4 : SysArgs }) sGrp).dev.loom n5).reg 4 = 0 ∧
    (spell (Instr.tallyWait n5 { rd := 3, rs1 := 4 : SysArgs }) sGrp).Spells n5 (Instr.tallyWait n5 { rd := 3, rs1 := 4 : SysArgs }) ∧
    (spell (Instr.inboxWait n5 { rd := 3, rs1 := 3 : SysArgs }) sGrp).Issues n5 4 ∧
    ((spell (Instr.inboxWait n5 { rd := 3, rs1 := 3 : SysArgs }) sGrp).dev.loom n5).inbox &&& ((spell (Instr.inboxWait n5 { rd := 3, rs1 := 3 : SysArgs }) sGrp).dev.loom n5).reg 3 ≠ 0 ∧
    (spell (Instr.inboxWait n5 { rd := 3, rs1 := 3 : SysArgs }) sGrp).Spells n5 (Instr.inboxWait n5 { rd := 3, rs1 := 3 : SysArgs }) ∧
    (spell (Instr.barrier n5 { rd := 3 : SysArgs }) sGrp).Issues n5 4 ∧
    ((spell (Instr.barrier n5 { rd := 3 : SysArgs }) sGrp).dev.loom n5).group ≠ none ∧
    (spell (Instr.barrier n5 { rd := 3 : SysArgs }) sGrp).Spells n5 (Instr.barrier n5 { rd := 3 : SysArgs }) ∧
    (spell (Instr.halt n5 { imm := 16383 : SysArgs }) sGrp).Issues n5 4 ∧
    ((spell (Instr.halt n5 { imm := 16383 : SysArgs }) sGrp).dev.loom n5).busyMask = 0 ∧
    (spell (Instr.halt n5 { imm := 16383 : SysArgs }) sGrp).Spells n5 (Instr.halt n5 { imm := 16383 : SysArgs }) ∧
    (sFence loom0).dev.live = true ∧ ((sFence loom0).dev.loom n5).stall = Stall.fence FenceKind.all [] ∧
    ((sFence loom0).dev.loom n5).fenceMet [] = true ∧ ((sFence loom0).dev.loom n5).lost = false ∧
    ((sFence loom0).dev.loom n5).lostHost = false ∧ ((sFence loom0).dev.loom n5).lostPeer = false ∧
    ((sFence loom0).dev.loom n5).lateHost = false ∧ ((sFence loom0).dev.loom n5).latePeer = false ∧
    (sFence { loom0 with lost := true, lostHost := true }).dev.live = true ∧
    ((sFence { loom0 with lost := true, lostHost := true }).dev.loom n5).stall = Stall.fence FenceKind.all [] ∧
    ((sFence { loom0 with lost := true, lostHost := true }).dev.loom n5).fenceMet [] = true ∧
    ((sFence { loom0 with lost := true, lostHost := true }).dev.loom n5).lost = true := by
  unfold State.Issues State.Spells; decide +kernel

theorem w_FencesAndWaits_2 :
    sLost.dev.live = true ∧ (sLost.dev.loom n5).stall = Stall.run ∧ (sLost.dev.loom n5).stb = [stLost, stE] ∧
    stLost.lostAt = some (up.tick - 2000) ∧ up.tick - 2000 + 2000 ≤ sLost.dev.tick ∧
    ([stE].all fun x ↦ decide (x.lostAt = none)) = true ∧ (sLost.dev.loom n5).early = [] ∧ sEnd.dev.live = true ∧
    sEnd.dev.loomState n5 = stRunning ∧ (sEnd.dev.loom n5).ending ≠ Ending.none ∧ (sEnd.dev.loom n5).request = Ending.none ∧
    (sEnd.dev.loom n5).stb = [] ∧ (sEnd.dev.loom n5).reedQ = [] ∧ (sEnd.dev.loom n5).busyMask = 0 ∧
    ((sEnd.dev.loom n5).ending ≠ Ending.paused → (sEnd.dev.loom n5).group = none) ∧ sLeave.dev.live = true ∧
    sLeave.dev.fld Fld.CACHE_STATUS_STREAMING 5 = 0 ∧ (sLeave.dev.loom n5).stb = [stE] ∧ stE.stalled = false ∧ stE.sent = false ∧
    stE.lostAt = none ∧ stE.dest = Dest.mem ∧ stE.clean = false ∧ stE.attr.toNat < attrDeviceEa ∧
    (sLeave.dev.loom n5).Holds (BitVec.setWidth 40 stE.line) 2 full0 ∧
    List.filter (fun k ↦ decide (maskSector stE.mask k ≠ 0)) (List.range 4) = [0] ∧ (full0.st 0 = Moesi.m ∨ full0.st 0 = Moesi.e) := by
  unfold Loom.Holds; decide +kernel

/-! ### Arrays and transfers -/

/-- A WEAVE over the formats' smallest tile: INT8 rows of one block at scratch 0x40 and 0x240. -/
def aArr : ArrArgs := { fmt := 9, acc := 2, tally := 7, rAB := 3, rS := 0, pitchA := 1, pitchB := 1 }
def aAcc : ArrArgs := { acc := 3, tally := 63, rAB := 3 }
def aAcc0 : ArrArgs := { aAcc with rAB := 0 }
def sArr (r : W64) : State := runs { loom0 with t := [(3, r)] }
def opW : ArrOp := { id := 4, op := 0, a := aArr, dep := .met, ab := 0x24000000040, s := 0 }
def opL : ArrOp := { opW with op := 1, a := aAcc, ab := 0x40 }
def opZ : ArrOp := { opL with op := 3, a := aAcc0 }
def sOps (o : ArrOp) : State := runs { loom0 with arrayQ := [o, opZ], acc := [(128, 5), (192, 9), (255, 1)],
                                                  scratch := [(0x40, 1), (0x41, 2), (0x240, 0xFF), (0x100, 3)] }
def sRan : State := runs { loom0 with arrayRun := some opW, tally := [(7, 4), (9, 8)], arrayQ := [{ opZ with dep := .on 4 }] }
def aXf : XferArgs := { tally := 5, rMem := 3, rScr := 4, rStr := 6, rows := 1, len := 3 }
/-- 32 bytes a row, two rows: memory 0x400_00F0, scratch 0x80, pitch 64, stride 512. -/
def sXf : State := st (withLoom { loom0 with tlb := [page1], t := [(3, 0x40000F0), (4, 0x4000000080), (6, 512)] } (mapped up))
def sSend : State := runs { loom0 with t := [(3, 0x10000020006), (4, 0x4000000080), (6, 512)] }
def xF0 : Xfer := { id := 8, op := 0, tally := 5, dep := .met, addr := 0x40000F0, dest := 0, notify := false, index := 0,
                    scr := 0x80, pitch := 64, stride := 512, rows := 2, len := 32 }
def xS0 : Xfer := { xF0 with op := 2, addr := 0x1F0, dest := 6 }
def sXq : State := runs { loom0 with xferQ := [xF0, xS0] }
def sXr (x : Xfer) : State := st (withLoom { loom0 with tlb := [page1], xferRun := [x], scratch := [(0x80, 7), (0x8F, 9)] } (mapped up))

theorem w_ArrayOperations_1 :
    (spell (Instr.weave n5 aArr) (sArr 2473901162560)).Issues n5 8 ∧ aArr.afterV = false ∧
    ((spell (Instr.weave n5 aArr) (sArr 2473901162560)).dev.loom n5).tally.find (BitVec.toNat aArr.tally) = none ∧
    ((spell (Instr.weave n5 aArr) (sArr 2473901162560)).dev.loom n5).arrayQ.length < 8 ∧
    weaveCheck aArr (((spell (Instr.weave n5 aArr) (sArr 2473901162560)).dev.loom n5).reg aArr.rAB) (((spell (Instr.weave n5 aArr) (sArr 2473901162560)).dev.loom n5).reg aArr.rS) = none ∧
    (spell (Instr.weave n5 aArr) (sArr 2473901162560)).Spells n5 (Instr.weave n5 aArr) ∧
    (spell (Instr.accLoad n5 aAcc) (sArr 786176)).Issues n5 8 ∧ aAcc.afterV = false ∧
    ((spell (Instr.accLoad n5 aAcc) (sArr 786176)).dev.loom n5).tally.find (BitVec.toNat aAcc.tally) = none ∧
    ((spell (Instr.accLoad n5 aAcc) (sArr 786176)).dev.loom n5).arrayQ.length < 8 ∧ aAcc.accForm = true ∧
    lo20 (((spell (Instr.accLoad n5 aAcc) (sArr 786176)).dev.loom n5).reg aAcc.rAB) % 64 = 0 ∧
    lo20 (((spell (Instr.accLoad n5 aAcc) (sArr 786176)).dev.loom n5).reg aAcc.rAB) + 256 ≤ 786432 ∧
    (spell (Instr.accLoad n5 aAcc) (sArr 786176)).Spells n5 (Instr.accLoad n5 aAcc) ∧
    (spell (Instr.accZero n5 aAcc0) (sArr 0)).Issues n5 8 ∧ aAcc0.afterV = false ∧
    ((spell (Instr.accZero n5 aAcc0) (sArr 0)).dev.loom n5).tally.find (BitVec.toNat aAcc0.tally) = none ∧
    ((spell (Instr.accZero n5 aAcc0) (sArr 0)).dev.loom n5).arrayQ.length < 8 ∧ aAcc0.accForm = true ∧ aAcc0.rAB = 0 ∧
    (spell (Instr.accZero n5 aAcc0) (sArr 0)).Spells n5 (Instr.accZero n5 aAcc0) ∧ (sOps opW).dev.live = true ∧
    ((sOps opW).dev.loom n5).arrayRun = none ∧ ((sOps opW).dev.loom n5).arrayQ = [opW, opZ] ∧ opW.dep = Dep.met ∧
    ((sOps opW).dev.loom n5).drainAhead opW = false ∧ opW.op = 0 := by
  unfold State.Issues State.Spells; decide +kernel

theorem w_ArrayOperations_2 :
    (sOps opL).dev.live = true ∧ ((sOps opL).dev.loom n5).arrayRun = none ∧ ((sOps opL).dev.loom n5).arrayQ = [opL, opZ] ∧
    opL.dep = Dep.met ∧ ((sOps opL).dev.loom n5).drainAhead opL = false ∧ opL.op = 1 ∧ (sOps opZ).dev.live = true ∧
    ((sOps opZ).dev.loom n5).arrayRun = none ∧ ((sOps opZ).dev.loom n5).arrayQ = [opZ, opZ] ∧ opZ.dep = Dep.met ∧
    ((sOps opZ).dev.loom n5).drainAhead opZ = false ∧ opZ.op = 3 ∧ sRan.dev.live = true ∧ (sRan.dev.loom n5).arrayRun = some opW ∧
    (sRan.dev.loom n5).stall = Stall.run ∧ (sRan.dev.loom n5).tally.find (BitVec.toNat opW.a.tally) = some opW.id := by
  decide +kernel

theorem w_Transfers_1 :
    (spell (Instr.fetch n5 aXf) sXf).Issues n5 8 ∧
    ((fun op a ↦ (((spell (Instr.fetch n5 aXf) sXf).dev.loom n5).xferOf 0 op Dep.met a).check = none ∧ a.rsvd = 0 ∧ a.afterV = false ∧ ((spell (Instr.fetch n5 aXf) sXf).dev.loom n5).tally.find (BitVec.toNat a.tally) = none ∧ ((spell (Instr.fetch n5 aXf) sXf).dev.loom n5).xferQ.length + ((spell (Instr.fetch n5 aXf) sXf).dev.loom n5).xferRun.length < 32) 0 aXf) ∧
    aXf.notify = false ∧ (spell (Instr.fetch n5 aXf) sXf).Spells n5 (Instr.fetch n5 aXf) ∧
    (spell (Instr.put n5 aXf) sXf).Issues n5 8 ∧
    ((fun op a ↦ (((spell (Instr.put n5 aXf) sXf).dev.loom n5).xferOf 0 op Dep.met a).check = none ∧ a.rsvd = 0 ∧ a.afterV = false ∧ ((spell (Instr.put n5 aXf) sXf).dev.loom n5).tally.find (BitVec.toNat a.tally) = none ∧ ((spell (Instr.put n5 aXf) sXf).dev.loom n5).xferQ.length + ((spell (Instr.put n5 aXf) sXf).dev.loom n5).xferRun.length < 32) 1 aXf) ∧
    (spell (Instr.put n5 aXf) sXf).Spells n5 (Instr.put n5 aXf) ∧
    (spell (Instr.send n5 { aXf with notify := true }) sSend).Issues n5 8 ∧
    ((fun op a ↦ (((spell (Instr.send n5 { aXf with notify := true }) sSend).dev.loom n5).xferOf 0 op Dep.met a).check = none ∧ a.rsvd = 0 ∧ a.afterV = false ∧ ((spell (Instr.send n5 { aXf with notify := true }) sSend).dev.loom n5).tally.find (BitVec.toNat a.tally) = none ∧ ((spell (Instr.send n5 { aXf with notify := true }) sSend).dev.loom n5).xferQ.length + ((spell (Instr.send n5 { aXf with notify := true }) sSend).dev.loom n5).xferRun.length < 32) 2 { aXf with notify := true }) ∧
    (spell (Instr.send n5 { aXf with notify := true }) sSend).Spells n5 (Instr.send n5 { aXf with notify := true }) ∧
    (spell (Instr.tallyPoll n5 { rMem := 3, rScr := 4 : XferArgs }) sXf).Issues n5 8 ∧
    (spell (Instr.tallyPoll n5 { rMem := 3, rScr := 4 : XferArgs }) sXf).Spells n5 (Instr.tallyPoll n5 { rMem := 3, rScr := 4 : XferArgs }) ∧
    (spell (Instr.tallyClear n5 { rMem := 3, rScr := 4 : XferArgs }) sXf).Issues n5 8 ∧
    (spell (Instr.tallyClear n5 { rMem := 3, rScr := 4 : XferArgs }) sXf).Spells n5 (Instr.tallyClear n5 { rMem := 3, rScr := 4 : XferArgs }) ∧
    sXq.dev.live = true ∧ (sXq.dev.loom n5).xferQ = [xF0, xS0] ∧ xF0.dep = Dep.met ∧ xF0.op ≠ 2 ∧ (sXr xS0).dev.live = true ∧
    ((sXr xS0).dev.loom n5).xferRun = [xS0] ∧ xS0.pos = 0 ∧ 0 < xS0.rows ∧ 0 < xS0.len ∧ xS0.stalled = false ∧ xS0.outs = [] ∧
    xS0.op = 2 := by
  unfold State.Issues State.Spells; decide +kernel

theorem w_Transfers_2 :
    (sXr xF0).dev.live = true ∧ ((sXr xF0).dev.loom n5).xferRun = [xF0] ∧ xF0.pos = 0 ∧ 0 < xF0.rows ∧ 0 < xF0.len ∧
    xF0.stalled = false ∧ xF0.outs = [] ∧ xF0.op = 0 ∧
    (sXr xF0).dev.translate (Engine.xfer n5 xF0.id) ((sXr xF0).dev.wingOf n5) xF0.addr AccKind.load = (TrRes.ok page1 134217968, (sXr xF0).dev) ∧
    destOf page1 134217968 = Dest.mem := by
  decide +kernel

/-! ### The reed -/

/-- A class 0xD word. -/
def rw (op vd va vb vc : Nat) (rA rm fmt rnd lt : Nat) (tally : Nat := 0) : W64 :=
  BitVec.ofNat 64 (0xD * 2 ^ 28 + op * 2 ^ 21 + vd * 2 ^ 16 + va * 2 ^ 11 + vb * 2 ^ 6 + vc * 2 + rA * 2 ^ 59 + rm * 2 ^ 54
    + fmt * 2 ^ 50 + rnd * 2 ^ 47 + lt * 2 ^ 45 + tally * 2 ^ 39)
def rop (w : W64) (ta : W64 := 0) (tm : W64 := 0) : ReedOp := { id := 3, word := w, ta := ta, tm := tm, ctrl := 0, seed := 1 }
/-- v1 and v2 hold lanes of large, negative and special values; v3 is vd. -/
def lV : Loom := { loom0 with v := [(1, 0x7FC00001800000003F80000080000001FFFFFFFF00000002), (2, 0x7F8000003F800000400000007FFFFFFF0000000100000021), (3, 0x55)],
                              acc := [(0, 0x3F800000), (1, 0x40490FDB)], scratch := [(0x80, 0x42), (0xBF, 1)] }
def sV (o : ReedOp) : State := runs { lV with reedQ := [o] }
def sVw (o : ReedOp) : State := runs { lV with reedQ := [o], stall := .reed }
def sDr (o : ReedOp) : State := runs { lV with drainQ := [o], tally := [(4, 3)] }
def sEnq : State := runs { loom0 with t := [(3, 0x80)] }
def sEnqD : State := runs { loom0 with t := [(3, 0x2000080)] }
def oI (op : Nat) : ReedOp := rop (rw op 3 1 2 0 0 7 0 0 3) 0 0x7FFF
def oF (op : Nat) (lt : Nat := 0) : ReedOp := rop (rw op 3 1 2 3 0 7 0 0 lt) 0 0x7FFF
def oC (op lt : Nat) : ReedOp := rop (rw op 0 1 2 0 9 7 0 0 lt) 0 0x7FFF
def oM (op : Nat) : ReedOp := rop (rw op 3 1 2 0 9 0 0 0 0) 0x80 0

theorem w_ReedQueueing :
    (spell (Instr.reedEnqueue n5 (rw 49 0 1 0 0 3 0 0 0 0)) sEnq).Issues n5 8 ∧
    (spell (Instr.reedEnqueue n5 (rw 49 0 1 0 0 3 0 0 0 0)) sEnq).Spells n5 (Instr.reedEnqueue n5 (rw 49 0 1 0 0 3 0 0 0 0)) ∧
    reedCheck (rw 49 0 1 0 0 3 0 0 0 0) (((spell (Instr.reedEnqueue n5 (rw 49 0 1 0 0 3 0 0 0 0)) sEnq).dev.loom n5).reg (rwRA (rw 49 0 1 0 0 3 0 0 0 0))) = none ∧
    ((spell (Instr.reedEnqueue n5 (rw 49 0 1 0 0 3 0 0 0 0)) sEnq).dev.loom n5).reedQ.length + ((spell (Instr.reedEnqueue n5 (rw 49 0 1 0 0 3 0 0 0 0)) sEnq).dev.loom n5).drainQ.length < 16 ∧
    rwOp (rw 49 0 1 0 0 3 0 0 0 0) ≠ 60 ∧ reedToTreadle (rwOp (rw 49 0 1 0 0 3 0 0 0 0)) = false ∧
    (spell (Instr.reedEnqueue n5 (rw 24 0 1 2 0 3 7 0 0 3)) sEnq).Issues n5 8 ∧
    (spell (Instr.reedEnqueue n5 (rw 24 0 1 2 0 3 7 0 0 3)) sEnq).Spells n5 (Instr.reedEnqueue n5 (rw 24 0 1 2 0 3 7 0 0 3)) ∧
    reedCheck (rw 24 0 1 2 0 3 7 0 0 3) (((spell (Instr.reedEnqueue n5 (rw 24 0 1 2 0 3 7 0 0 3)) sEnq).dev.loom n5).reg (rwRA (rw 24 0 1 2 0 3 7 0 0 3))) = none ∧
    ((spell (Instr.reedEnqueue n5 (rw 24 0 1 2 0 3 7 0 0 3)) sEnq).dev.loom n5).reedQ.length + ((spell (Instr.reedEnqueue n5 (rw 24 0 1 2 0 3 7 0 0 3)) sEnq).dev.loom n5).drainQ.length < 16 ∧
    reedToTreadle (rwOp (rw 24 0 1 2 0 3 7 0 0 3)) = true ∧
    (spell (Instr.reedEnqueue n5 (rw 60 0 0 0 0 3 0 13 0 0 63)) sEnqD).Issues n5 8 ∧
    (spell (Instr.reedEnqueue n5 (rw 60 0 0 0 0 3 0 13 0 0 63)) sEnqD).Spells n5 (Instr.reedEnqueue n5 (rw 60 0 0 0 0 3 0 13 0 0 63)) ∧
    reedCheck (rw 60 0 0 0 0 3 0 13 0 0 63) (((spell (Instr.reedEnqueue n5 (rw 60 0 0 0 0 3 0 13 0 0 63)) sEnqD).dev.loom n5).reg (rwRA (rw 60 0 0 0 0 3 0 13 0 0 63))) = none ∧
    ((spell (Instr.reedEnqueue n5 (rw 60 0 0 0 0 3 0 13 0 0 63)) sEnqD).dev.loom n5).reedQ.length + ((spell (Instr.reedEnqueue n5 (rw 60 0 0 0 0 3 0 13 0 0 63)) sEnqD).dev.loom n5).drainQ.length < 16 ∧
    rwOp (rw 60 0 0 0 0 3 0 13 0 0 63) = 60 ∧ rwAfterV (rw 60 0 0 0 0 3 0 13 0 0 63) = false ∧
    ((spell (Instr.reedEnqueue n5 (rw 60 0 0 0 0 3 0 13 0 0 63)) sEnqD).dev.loom n5).tally.find (BitVec.toNat (rwTally (rw 60 0 0 0 0 3 0 13 0 0 63))) = none := by
  unfold State.Issues State.Spells; decide +kernel

theorem w_ReedIntegerLanes_1 :
    (sV (oI 0)).dev.live = true ∧ ((sV (oI 0)).dev.loom n5).reedQ = [oI 0] ∧ rwLt (oI 0).word = 3 ∧ rwOp (oI 0).word = 0 ∧
    (sV (oI 1)).dev.live = true ∧ ((sV (oI 1)).dev.loom n5).reedQ = [oI 1] ∧ rwLt (oI 1).word = 3 ∧ rwOp (oI 1).word = 1 ∧
    (sV (oI 2)).dev.live = true ∧ ((sV (oI 2)).dev.loom n5).reedQ = [oI 2] ∧ rwLt (oI 2).word = 3 ∧ rwOp (oI 2).word = 2 ∧
    (sV (oI 8)).dev.live = true ∧ ((sV (oI 8)).dev.loom n5).reedQ = [oI 8] ∧ rwLt (oI 8).word = 3 ∧ rwOp (oI 8).word = 8 ∧
    (sV (oI 9)).dev.live = true ∧ ((sV (oI 9)).dev.loom n5).reedQ = [oI 9] ∧ rwLt (oI 9).word = 3 ∧ rwOp (oI 9).word = 9 ∧
    (sV (oI 10)).dev.live = true ∧ ((sV (oI 10)).dev.loom n5).reedQ = [oI 10] ∧ rwLt (oI 10).word = 3 ∧ rwOp (oI 10).word = 10 ∧
    (sV (oI 11)).dev.live = true ∧ ((sV (oI 11)).dev.loom n5).reedQ = [oI 11] ∧ rwLt (oI 11).word = 3 ∧ rwOp (oI 11).word = 11 := by
  decide +kernel

theorem w_ReedIntegerLanes_2 :
    (sV (oI 12)).dev.live = true ∧ ((sV (oI 12)).dev.loom n5).reedQ = [oI 12] ∧ rwLt (oI 12).word = 3 ∧ rwOp (oI 12).word = 12 ∧
    (sV (oI 13)).dev.live = true ∧ ((sV (oI 13)).dev.loom n5).reedQ = [oI 13] ∧ rwLt (oI 13).word = 3 ∧ rwOp (oI 13).word = 13 ∧
    (sV (oI 16)).dev.live = true ∧ ((sV (oI 16)).dev.loom n5).reedQ = [oI 16] ∧ rwLt (oI 16).word = 3 ∧ rwOp (oI 16).word = 16 ∧
    (sV (oI 17)).dev.live = true ∧ ((sV (oI 17)).dev.loom n5).reedQ = [oI 17] ∧ rwLt (oI 17).word = 3 ∧ rwOp (oI 17).word = 17 ∧
    (sV (oI 18)).dev.live = true ∧ ((sV (oI 18)).dev.loom n5).reedQ = [oI 18] ∧ rwLt (oI 18).word = 3 ∧ rwOp (oI 18).word = 18 ∧
    (sV (oI 19)).dev.live = true ∧ ((sV (oI 19)).dev.loom n5).reedQ = [oI 19] ∧ rwLt (oI 19).word = 3 ∧ rwOp (oI 19).word = 19 ∧
    (sV (oI 20)).dev.live = true ∧ ((sV (oI 20)).dev.loom n5).reedQ = [oI 20] ∧ rwLt (oI 20).word = 3 ∧ rwOp (oI 20).word = 20 := by
  decide +kernel

theorem w_ReedIntegerLanes_3 :
    (sV (oI 21)).dev.live = true ∧ ((sV (oI 21)).dev.loom n5).reedQ = [oI 21] ∧ rwLt (oI 21).word = 3 ∧ rwOp (oI 21).word = 21 := by
  decide +kernel

theorem w_ReedFloatLanes_1 :
    (sV (oF 0)).dev.live = true ∧ ((sV (oF 0)).dev.loom n5).reedQ = [oF 0] ∧ rwLt (oF 0).word ≠ 3 ∧ rwOp (oF 0).word = 0 ∧
    (sV (oF 1 1)).dev.live = true ∧ ((sV (oF 1 1)).dev.loom n5).reedQ = [oF 1 1] ∧ rwLt (oF 1 1).word ≠ 3 ∧ rwOp (oF 1 1).word = 1 ∧
    (sV (oF 2 2)).dev.live = true ∧ ((sV (oF 2 2)).dev.loom n5).reedQ = [oF 2 2] ∧ rwLt (oF 2 2).word ≠ 3 ∧ rwOp (oF 2 2).word = 2 ∧
    (sV (oF 3)).dev.live = true ∧ ((sV (oF 3)).dev.loom n5).reedQ = [oF 3] ∧ rwLt (oF 3).word ≠ 3 ∧ rwOp (oF 3).word = 3 ∧
    (sV (oF 4 1)).dev.live = true ∧ ((sV (oF 4 1)).dev.loom n5).reedQ = [oF 4 1] ∧ rwLt (oF 4 1).word ≠ 3 ∧ rwOp (oF 4 1).word = 4 ∧
    (sV (oF 5 2)).dev.live = true ∧ ((sV (oF 5 2)).dev.loom n5).reedQ = [oF 5 2] ∧ rwLt (oF 5 2).word ≠ 3 ∧ rwOp (oF 5 2).word = 5 ∧
    (sV (oF 6)).dev.live = true ∧ ((sV (oF 6)).dev.loom n5).reedQ = [oF 6] ∧ rwLt (oF 6).word ≠ 3 ∧ rwOp (oF 6).word = 6 := by
  decide +kernel

theorem w_ReedFloatLanes_2 :
    (sV (oF 7 1)).dev.live = true ∧ ((sV (oF 7 1)).dev.loom n5).reedQ = [oF 7 1] ∧ rwLt (oF 7 1).word ≠ 3 ∧ rwOp (oF 7 1).word = 7 ∧
    (sV (oF 8 2)).dev.live = true ∧ ((sV (oF 8 2)).dev.loom n5).reedQ = [oF 8 2] ∧ rwLt (oF 8 2).word ≠ 3 ∧ rwOp (oF 8 2).word = 8 ∧
    (sV (oF 9)).dev.live = true ∧ ((sV (oF 9)).dev.loom n5).reedQ = [oF 9] ∧ rwLt (oF 9).word ≠ 3 ∧ rwOp (oF 9).word = 9 ∧
    (sV (oF 12 1)).dev.live = true ∧ ((sV (oF 12 1)).dev.loom n5).reedQ = [oF 12 1] ∧ rwLt (oF 12 1).word ≠ 3 ∧
    rwOp (oF 12 1).word = 12 ∧ (sV (oF 13 2)).dev.live = true ∧ ((sV (oF 13 2)).dev.loom n5).reedQ = [oF 13 2] ∧
    rwLt (oF 13 2).word ≠ 3 ∧ rwOp (oF 13 2).word = 13 ∧ (sV (oF 14)).dev.live = true ∧ ((sV (oF 14)).dev.loom n5).reedQ = [oF 14] ∧
    rwLt (oF 14).word ≠ 3 ∧ rwOp (oF 14).word = 14 ∧ (sV (oF 40)).dev.live = true ∧ ((sV (oF 40)).dev.loom n5).reedQ = [oF 40] ∧
    rwLt (oF 40).word ≠ 3 ∧ rwOp (oF 40).word = 40 := by
  decide +kernel

theorem w_ReedFloatLanes_3 :
    (sV (oF 41)).dev.live = true ∧ ((sV (oF 41)).dev.loom n5).reedQ = [oF 41] ∧ rwLt (oF 41).word ≠ 3 ∧ rwOp (oF 41).word = 41 ∧
    (sV (oF 42)).dev.live = true ∧ ((sV (oF 42)).dev.loom n5).reedQ = [oF 42] ∧ rwLt (oF 42).word ≠ 3 ∧ rwOp (oF 42).word = 42 ∧
    (sV (oF 43)).dev.live = true ∧ ((sV (oF 43)).dev.loom n5).reedQ = [oF 43] ∧ rwLt (oF 43).word ≠ 3 ∧ rwOp (oF 43).word = 43 ∧
    (sV (oF 44)).dev.live = true ∧ ((sV (oF 44)).dev.loom n5).reedQ = [oF 44] ∧ rwLt (oF 44).word ≠ 3 ∧ rwOp (oF 44).word = 44 ∧
    (sV (oF 45)).dev.live = true ∧ ((sV (oF 45)).dev.loom n5).reedQ = [oF 45] ∧ rwLt (oF 45).word ≠ 3 ∧ rwOp (oF 45).word = 45 := by
  decide +kernel

theorem w_ReedComparesReducesMoves_1 :
    (sVw (oC 24 3)).dev.live = true ∧ ((sVw (oC 24 3)).dev.loom n5).reedQ = [oC 24 3] ∧
    ((sVw (oC 24 3)).dev.loom n5).stall = Stall.reed ∧ rwOp (oC 24 3).word = 24 ∧ (sVw (oC 25 3)).dev.live = true ∧
    ((sVw (oC 25 3)).dev.loom n5).reedQ = [oC 25 3] ∧ ((sVw (oC 25 3)).dev.loom n5).stall = Stall.reed ∧ rwOp (oC 25 3).word = 25 ∧
    (sVw (oC 26 3)).dev.live = true ∧ ((sVw (oC 26 3)).dev.loom n5).reedQ = [oC 26 3] ∧
    ((sVw (oC 26 3)).dev.loom n5).stall = Stall.reed ∧ rwOp (oC 26 3).word = 26 ∧ (sVw (oC 27 0)).dev.live = true ∧
    ((sVw (oC 27 0)).dev.loom n5).reedQ = [oC 27 0] ∧ ((sVw (oC 27 0)).dev.loom n5).stall = Stall.reed ∧ rwOp (oC 27 0).word = 27 ∧
    rwLt (oC 27 0).word ≠ 3 ∧ (sVw (oC 28 3)).dev.live = true ∧ ((sVw (oC 28 3)).dev.loom n5).reedQ = [oC 28 3] ∧
    ((sVw (oC 28 3)).dev.loom n5).stall = Stall.reed ∧ rwOp (oC 28 3).word = 28 ∧ rwLt (oC 28 3).word = 3 ∧
    (sVw (oM 51)).dev.live = true ∧ ((sVw (oM 51)).dev.loom n5).reedQ = [oM 51] ∧ ((sVw (oM 51)).dev.loom n5).stall = Stall.reed ∧
    rwOp (oM 51).word = 51 ∧ (sV (oF 32)).dev.live = true ∧ ((sV (oF 32)).dev.loom n5).reedQ = [oF 32] ∧ rwOp (oF 32).word = 32 := by
  decide +kernel

theorem w_ReedComparesReducesMoves_2 :
    (sV (oF 33 1)).dev.live = true ∧ ((sV (oF 33 1)).dev.loom n5).reedQ = [oF 33 1] ∧ rwOp (oF 33 1).word = 33 ∧
    (sV (oF 34 2)).dev.live = true ∧ ((sV (oF 34 2)).dev.loom n5).reedQ = [oF 34 2] ∧ rwOp (oF 34 2).word = 34 ∧
    (sV (oF 35)).dev.live = true ∧ ((sV (oF 35)).dev.loom n5).reedQ = [oF 35] ∧ rwOp (oF 35).word = 35 ∧
    (sV (oM 48)).dev.live = true ∧ ((sV (oM 48)).dev.loom n5).reedQ = [oM 48] ∧ rwOp (oM 48).word = 48 ∧
    (sV (oM 49)).dev.live = true ∧ ((sV (oM 49)).dev.loom n5).reedQ = [oM 49] ∧ rwOp (oM 49).word = 49 ∧
    (sV (oM 50)).dev.live = true ∧ ((sV (oM 50)).dev.loom n5).reedQ = [oM 50] ∧ rwOp (oM 50).word = 50 ∧
    (sV (oM 52)).dev.live = true ∧ ((sV (oM 52)).dev.loom n5).reedQ = [oM 52] ∧ rwOp (oM 52).word = 52 ∧
    (sV (oM 53)).dev.live = true ∧ ((sV (oM 53)).dev.loom n5).reedQ = [oM 53] ∧ rwOp (oM 53).word = 53 := by
  decide +kernel

theorem w_ReedConversions :
    (sV (rop (rw 56 3 1 0 0 0 0 7 4 0))).dev.live = true ∧
    ((sV (rop (rw 56 3 1 0 0 0 0 7 4 0))).dev.loom n5).reedQ = [rop (rw 56 3 1 0 0 0 0 7 4 0)] ∧
    rwOp (rop (rw 56 3 1 0 0 0 0 7 4 0)).word = 56 ∧ (sV (rop (rw 57 3 1 0 0 0 0 7 0 0))).dev.live = true ∧
    ((sV (rop (rw 57 3 1 0 0 0 0 7 0 0))).dev.loom n5).reedQ = [rop (rw 57 3 1 0 0 0 0 7 0 0)] ∧
    rwOp (rop (rw 57 3 1 0 0 0 0 7 0 0)).word = 57 ∧ (sV (rop (rw 58 3 1 0 0 9 0 0 0 0) 128)).dev.live = true ∧
    ((sV (rop (rw 58 3 1 0 0 9 0 0 0 0) 128)).dev.loom n5).reedQ = [rop (rw 58 3 1 0 0 9 0 0 0 0) 128] ∧
    rwOp (rop (rw 58 3 1 0 0 9 0 0 0 0) 128).word = 58 ∧ (sV (rop (rw 59 0 1 0 0 9 0 0 0 0) 128)).dev.live = true ∧
    ((sV (rop (rw 59 0 1 0 0 9 0 0 0 0) 128)).dev.loom n5).reedQ = [rop (rw 59 0 1 0 0 9 0 0 0 0) 128] ∧
    rwOp (rop (rw 59 0 1 0 0 9 0 0 0 0) 128).word = 59 ∧ (sDr (rop (rw 60 0 0 0 0 9 0 13 0 0 4) 33554560)).dev.live = true ∧
    ((sDr (rop (rw 60 0 0 0 0 9 0 13 0 0 4) 33554560)).dev.loom n5).drainQ = [rop (rw 60 0 0 0 0 9 0 13 0 0 4) 33554560] ∧
    (rop (rw 60 0 0 0 0 9 0 13 0 0 4) 33554560).dep = Dep.met ∧
    drainBlocked ((sDr (rop (rw 60 0 0 0 0 9 0 13 0 0 4) 33554560)).dev.loom n5) (rop (rw 60 0 0 0 0 9 0 13 0 0 4) 33554560) = false ∧
    fmtScaled (rwFmt (rop (rw 60 0 0 0 0 9 0 13 0 0 4) 33554560).word) = false := by
  decide +kernel

/-! ### The weave -/

/-- 4 GiB of display memory, all striped, and 3 GiB of depot; the page of `page1` is wing 0's. -/
def memDev : Dev :=
  ((((mapped up).setFld Fld.DSP_LAYOUT_SIZE 0 16).setFld Fld.DSP_LAYOUT_LIMIT 0 1).setFld Fld.DEP_LAYOUT_SIZE 0 12).setFld
    Fld.DEP_LAYOUT_CHANNEL_CAP 0 1
def wv (w : Weave) : State := st { memDev with weave := w, loomWing := [(5, 0), (6, 0)] }
def memT : Tiers := { mem := [(0x80000C0, 0x11), (0x80000FF, 0x22)] }
def rq (k : ReqKind) : Req := { kind := k, src := .cache 5, tag := 40, line := 0x80000, sects := 8 }
def rt (k : ReqKind) : Req := { rq k with src := .treadle 5 }
def sRq (r : Req) : State := st { memDev with weave := { reqs := [r] }, tiers := memT }
def rtA : Req := { rt (.atomic .cas) with off := 0xC0, wide := true, opnd := 0x99, cmp := 0x11 }
def rtW : Req := { rt .write with data := BitVec.ofNat 2048 (0xABCD * 2 ^ 1536), mask := BitVec.ofNat 256 (3 * 2 ^ 192) }
def rtR : Req := { rt .reduceWrite with line := 0x1000080000, data := BitVec.ofNat 2048 (0x3F800000 * 2 ^ 1536), mask := BitVec.ofNat 256 (15 * 2 ^ 192), place := 0 }
def ent5 : CatEnt := ({} : CatEnt).setSec 3 ⟨.excl, 5⟩
def sOw (r : Req) : State := st { memDev with weave := { reqs := [r], cat := [(0x80000, ent5)] }, tiers := memT }
def rqW (k : ReqKind) : Req := { rq k with data := BitVec.ofNat 2048 (0x77 * 2 ^ 1536) }
def ms (k : MsgKind) : Msg := { kind := k, agent := .cache 5, tag := 40, line := 0x80000, sects := 8 }
def msD : Msg := { ms .data with excl := 8, data := BitVec.ofNat 2048 (0x77 * 2 ^ 1536) }
def sMs (m : Msg) (l : Loom) : State := st { withLoom l memDev with weave := { msgs := [m] } }
def lRec : Loom := { loom0 with cache := [(2, line0)] }
def lPend : Loom := { loom0 with cache := [(2, { line := 0x80000, wait := 8, s0 := .s })], pend := [(40, 0x80000, 8)] }
def evL : EvLine := { l := line0, sent := true, tag := 40 }
def msStash : Msg := { ms .stash with wing := 0, data := BitVec.ofNat 2048 (0x77 * 2 ^ 1536) }
def sStash : State := st { withLoom loom0 (memDev.setFld Fld.TILE_STATE_STATE 0 3) with weave := { msgs := [msStash] } }
def dStash : Dev := (((sStash.dev.takeMsg msStash).stashWay 5 0x80000).getD (0, up)).2
def sn (a : Nat) : Snoop := { tgt := .agent a, kind := .recallKeep, line := 0x80000, sects := 8, deadline := 20000000 }
def snI (a : Nat) : Snoop := { sn a with kind := .invalidate }
def tx0 : Txn := { req := { rq .readShared with src := .cache 6 }, phase := .snoop, waits := [sn 5, sn 7], todo := 8 }
def txI : Txn := { tx0 with waits := [snI 5, snI 7] }
def sTx (m : Msg) (t : Txn) : State := st { memDev with weave := { msgs := [m], txns := [(0x80000, t)], cat := [(0x80000, ent5)] }, tiers := memT }
def txA : Txn := { req := rq .readOwn, phase := .ack, todo := 0 }
def txS : Txn := { req := { rtW with place := 5 }, phase := .stash, todo := 0 }
def msCr : Msg := { kind := .credit, agent := .cache 5, tag := 0, line := BitVec.ofNat 40 (memDev.home 0x8000000), sects := 0 }
def sCr : State := st { memDev with weave := { msgs := [msCr], refused := [(rq .readShared, true)] }, tiers := memT }
def sBusy : State := st { memDev with weave := { refused := [({ rq .readOwn with retries := 63 }, false)] }, tiers := memT }
/-- Region 3: one INT32 element at 0x80000C0, two arrivals expected. -/
def reg3 : BitVec 512 := BitVec.ofNat 512 (0x80000C0 + 3 * 2 ^ 48 + 2 ^ 64 + 2 * 2 ^ 112)
def sRed : State :=
  st { memDev.setRgState 3 rgOpen with weave := { reqs := [rtR] }, tiers := memT, regions := [(3, reg3)] }
def msSa : Msg := { ms .stashAck with ok := true }

theorem w_TrackedRequests_1 :
    (sRq (rq ReqKind.readShared)).dev.live = true ∧ (sRq (rq ReqKind.readShared)).dev.Accepts (rq ReqKind.readShared) ∧
    (rq ReqKind.readShared).src = Agent.cache n5 ∧ (rq ReqKind.readShared).sects = 1 <<< 3 ∧
    (sRq (rq ReqKind.readShared)).dev.weave.cat.find (rq ReqKind.readShared).line.toNat = none ∧
    ((sRq (rq ReqKind.readShared)).dev.setEnts (rq ReqKind.readShared).line.toNat).length < (sRq (rq ReqKind.readShared)).dev.asm.catWays ∧
    ((((sRq (rq ReqKind.readShared)).dev.opened (rq ReqKind.readShared) false).openEnt (rq ReqKind.readShared).line.toNat).readLine (rq ReqKind.readShared).line.toNat (rq ReqKind.readShared).sects).2.1 = 0 ∧
    (rq ReqKind.readShared).kind = ReqKind.readShared ∧ (sRq (rq ReqKind.readOwn)).dev.live = true ∧
    (sRq (rq ReqKind.readOwn)).dev.Accepts (rq ReqKind.readOwn) ∧ (rq ReqKind.readOwn).src = Agent.cache n5 ∧
    (rq ReqKind.readOwn).sects = 1 <<< 3 ∧ (sRq (rq ReqKind.readOwn)).dev.weave.cat.find (rq ReqKind.readOwn).line.toNat = none ∧
    ((sRq (rq ReqKind.readOwn)).dev.setEnts (rq ReqKind.readOwn).line.toNat).length < (sRq (rq ReqKind.readOwn)).dev.asm.catWays ∧
    ((((sRq (rq ReqKind.readOwn)).dev.opened (rq ReqKind.readOwn) false).openEnt (rq ReqKind.readOwn).line.toNat).readLine (rq ReqKind.readOwn).line.toNat (rq ReqKind.readOwn).sects).2.1 = 0 ∧
    (rq ReqKind.readOwn).kind = ReqKind.readOwn ∧ (sRq (rq ReqKind.upgrade)).dev.live = true ∧
    (sRq (rq ReqKind.upgrade)).dev.Accepts (rq ReqKind.upgrade) ∧ (rq ReqKind.upgrade).src = Agent.cache n5 ∧
    (rq ReqKind.upgrade).sects = 1 <<< 3 ∧ (sRq (rq ReqKind.upgrade)).dev.weave.cat.find (rq ReqKind.upgrade).line.toNat = none ∧
    ((sRq (rq ReqKind.upgrade)).dev.setEnts (rq ReqKind.upgrade).line.toNat).length < (sRq (rq ReqKind.upgrade)).dev.asm.catWays ∧
    ((((sRq (rq ReqKind.upgrade)).dev.opened (rq ReqKind.upgrade) false).openEnt (rq ReqKind.upgrade).line.toNat).readLine (rq ReqKind.upgrade).line.toNat (rq ReqKind.upgrade).sects).2.1 = 0 ∧
    (rq ReqKind.upgrade).kind = ReqKind.upgrade := by
  unfold Dev.Accepts Dev.Room; decide +kernel

theorem w_TrackedRequests_2 :
    (sRq (rq ReqKind.ownNoData)).dev.live = true ∧ (sRq (rq ReqKind.ownNoData)).dev.Accepts (rq ReqKind.ownNoData) ∧
    (rq ReqKind.ownNoData).src = Agent.cache n5 ∧ (rq ReqKind.ownNoData).sects = 1 <<< 3 ∧
    (sRq (rq ReqKind.ownNoData)).dev.weave.cat.find (rq ReqKind.ownNoData).line.toNat = none ∧
    ((sRq (rq ReqKind.ownNoData)).dev.setEnts (rq ReqKind.ownNoData).line.toNat).length < (sRq (rq ReqKind.ownNoData)).dev.asm.catWays ∧
    (rq ReqKind.ownNoData).kind = ReqKind.ownNoData := by
  unfold Dev.Accepts Dev.Room; decide +kernel

theorem w_CachelessRequests_1 :
    (sRq (rt ReqKind.readOnce)).dev.live = true ∧ (rt ReqKind.readOnce).src = Agent.treadle n5 ∧
    (rt ReqKind.readOnce).sects = 1 <<< 3 ∧ (sRq (rt ReqKind.readOnce)).dev.Accepts (rt ReqKind.readOnce) ∧
    (sRq (rt ReqKind.readOnce)).dev.weave.cat.find (rt ReqKind.readOnce).line.toNat = none ∧
    (((sRq (rt ReqKind.readOnce)).dev.opened (rt ReqKind.readOnce) false).readLine (rt ReqKind.readOnce).line.toNat (rt ReqKind.readOnce).sects).2.1 = 0 ∧
    (rt ReqKind.readOnce).kind = ReqKind.readOnce ∧ (sRq rtA).dev.live = true ∧ rtA.src = Agent.treadle n5 ∧ rtA.sects = 1 <<< 3 ∧
    (sRq rtA).dev.Accepts rtA ∧ (sRq rtA).dev.weave.cat.find rtA.line.toNat = none ∧
    (((sRq rtA).dev.opened rtA false).readLine rtA.line.toNat rtA.sects).2.1 = 0 ∧ rtA.kind = ReqKind.atomic AtomOp.cas ∧
    (sRq rtW).dev.live = true ∧ rtW.src = Agent.treadle n5 ∧ rtW.sects = 1 <<< 3 ∧ (sRq rtW).dev.Accepts rtW ∧
    (sRq rtW).dev.weave.cat.find rtW.line.toNat = none ∧ rtW.kind = ReqKind.write ∧ rtW.place = 0 := by
  unfold Dev.Accepts Dev.Room; decide +kernel

theorem w_CachelessRequests_2 :
    sRed.dev.live = true ∧ rtR.src = Agent.treadle n5 ∧ rtR.sects = 1 <<< 3 ∧
    sRed.dev.range (256 * rtR.line.toNat) = Range.redAlias 134217728 ∧ sRed.dev.reqArrives rtR = true ∧
    (sRed.dev.takeReq rtR).Room { rtR with kind := ReqKind.reduceWrite, line := BitVec.ofNat 40 (134217728 / 256) } ∧
    sRed.dev.weave.cat.find { rtR with kind := ReqKind.reduceWrite, line := BitVec.ofNat 40 (134217728 / 256) }.line.toNat = none ∧
    (((sRed.dev.takeReq rtR).setTxn { rtR with kind := ReqKind.reduceWrite, line := BitVec.ofNat 40 (134217728 / 256) }.line.toNat { req := { rtR with kind := ReqKind.reduceWrite, line := BitVec.ofNat 40 (134217728 / 256) }, phase := TxPhase.snoop, todo := { rtR with kind := ReqKind.reduceWrite, line := BitVec.ofNat 40 (134217728 / 256) }.sects : Txn }).readLine { rtR with kind := ReqKind.reduceWrite, line := BitVec.ofNat 40 (134217728 / 256) }.line.toNat rtR.sects).2.1 = 0 ∧
    rtR.poison = 0 ∧ rtR.kind = ReqKind.reduceWrite := by
  unfold Dev.Room; decide +kernel

theorem w_OwnerWrites :
    (sOw (rqW ReqKind.writeBack)).dev.live = true ∧ (sOw (rqW ReqKind.writeBack)).dev.Accepts (rqW ReqKind.writeBack) ∧
    (rqW ReqKind.writeBack).src = Agent.cache n5 ∧ (rqW ReqKind.writeBack).sects = 1 <<< 3 ∧
    rqW ReqKind.writeBack ∈ (sOw (rqW ReqKind.writeBack)).dev.weave.reqs ∧
    ((sOw (rqW ReqKind.writeBack)).dev.ent (rqW ReqKind.writeBack).line.toNat).sec 3 = { st := DirSt.excl, owner := 5 : DirSec } ∧
    (rqW ReqKind.writeBack).kind = ReqKind.writeBack ∧ (sOw (rqW ReqKind.writeClean)).dev.live = true ∧
    (sOw (rqW ReqKind.writeClean)).dev.Accepts (rqW ReqKind.writeClean) ∧ (rqW ReqKind.writeClean).src = Agent.cache n5 ∧
    (rqW ReqKind.writeClean).sects = 1 <<< 3 ∧ rqW ReqKind.writeClean ∈ (sOw (rqW ReqKind.writeClean)).dev.weave.reqs ∧
    ((sOw (rqW ReqKind.writeClean)).dev.ent (rqW ReqKind.writeClean).line.toNat).sec 3 = { st := DirSt.excl, owner := 5 : DirSec } ∧
    (rqW ReqKind.writeClean).kind = ReqKind.writeClean ∧ (sOw (rqW ReqKind.cleanEvict)).dev.live = true ∧
    (sOw (rqW ReqKind.cleanEvict)).dev.Accepts (rqW ReqKind.cleanEvict) ∧ (rqW ReqKind.cleanEvict).src = Agent.cache n5 ∧
    (rqW ReqKind.cleanEvict).sects = 1 <<< 3 ∧ rqW ReqKind.cleanEvict ∈ (sOw (rqW ReqKind.cleanEvict)).dev.weave.reqs ∧
    ((sOw (rqW ReqKind.cleanEvict)).dev.ent (rqW ReqKind.cleanEvict).line.toNat).sec 3 = { st := DirSt.excl, owner := 5 : DirSec } ∧
    (rqW ReqKind.cleanEvict).kind = ReqKind.cleanEvict := by
  unfold Dev.Accepts Dev.Room; decide +kernel

theorem w_MessagesAtLoom_1 :
    (sMs (ms MsgKind.recallKeep) lRec).dev.live = true ∧
    (sMs (ms MsgKind.recallKeep) lRec).dev.arrives (ms MsgKind.recallKeep) = true ∧ (ms MsgKind.recallKeep).agent = Agent.cache n5 ∧
    (ms MsgKind.recallKeep).sects = 1 <<< 3 ∧
    (((sMs (ms MsgKind.recallKeep) lRec).dev.takeMsg (ms MsgKind.recallKeep)).loom n5).Holds (ms MsgKind.recallKeep).line 2 line0 ∧
    line0.st 3 = Moesi.m ∧ (ms MsgKind.recallKeep).kind = MsgKind.recallKeep ∧ (sMs (ms MsgKind.recallCopy) lRec).dev.live = true ∧
    (sMs (ms MsgKind.recallCopy) lRec).dev.arrives (ms MsgKind.recallCopy) = true ∧ (ms MsgKind.recallCopy).agent = Agent.cache n5 ∧
    (ms MsgKind.recallCopy).sects = 1 <<< 3 ∧
    (((sMs (ms MsgKind.recallCopy) lRec).dev.takeMsg (ms MsgKind.recallCopy)).loom n5).Holds (ms MsgKind.recallCopy).line 2 line0 ∧
    (ms MsgKind.recallCopy).kind = MsgKind.recallCopy ∧ (sMs (ms MsgKind.recallInv) lRec).dev.live = true ∧
    (sMs (ms MsgKind.recallInv) lRec).dev.arrives (ms MsgKind.recallInv) = true ∧ (ms MsgKind.recallInv).agent = Agent.cache n5 ∧
    (ms MsgKind.recallInv).sects = 1 <<< 3 ∧
    (((sMs (ms MsgKind.recallInv) lRec).dev.takeMsg (ms MsgKind.recallInv)).loom n5).Holds (ms MsgKind.recallInv).line 2 line0 ∧
    (ms MsgKind.recallInv).kind = MsgKind.recallInv ∧ (sMs (ms MsgKind.invalidate) lRec).dev.live = true ∧
    (sMs (ms MsgKind.invalidate) lRec).dev.arrives (ms MsgKind.invalidate) = true ∧ (ms MsgKind.invalidate).agent = Agent.cache n5 ∧
    (ms MsgKind.invalidate).sects = 1 <<< 3 ∧ (ms MsgKind.invalidate).kind = MsgKind.invalidate ∧ (ms MsgKind.invalidate).ok = false := by
  unfold Loom.Holds; decide +kernel

theorem w_MessagesAtLoom_2 :
    sStash.dev.live = true ∧ sStash.dev.arrives msStash = true ∧ msStash.agent = Agent.cache n5 ∧ msStash.sects = 1 <<< 3 ∧
    msStash.kind = MsgKind.stash ∧ (sStash.dev.takeMsg msStash).tileState (loomTile 5) = tsRun ∧
    (sStash.dev.takeMsg msStash).wingOf n5 = BitVec.toNat msStash.wing ∧
    ((sStash.dev.takeMsg msStash).loom n5).findEvict msStash.line = none ∧
    (sStash.dev.takeMsg msStash).stashWay n5 msStash.line = some (0, dStash) ∧ (sMs msD lPend).dev.live = true ∧
    (sMs msD lPend).dev.arrives msD = true ∧ msD.agent = Agent.cache n5 ∧ msD.sects = 1 <<< 3 ∧
    (((sMs msD lPend).dev.takeMsg msD).loom n5).stall = Stall.run ∧ msD.kind = MsgKind.data ∧ msD.poison = 0 ∧
    (((sMs msD lPend).dev.takeMsg msD).loom n5).pend = [(msD.tag, msD.line, msD.sects)] ∧
    (((sMs msD lPend).dev.takeMsg msD).loom n5).Holds msD.line 2 { line := 524288, s0 := Moesi.s, wait := 8 : CLine } ∧
    (sMs msD lPend).dev.fldBit Fld.CACHE_CTRL_WAY_ON 5 (2 % 8) = true := by
  unfold Loom.Holds; decide +kernel

theorem w_MessagesAtLoom_3 :
    (sMs (ms MsgKind.comp) { loom0 with evict := [evL] }).dev.live = true ∧
    (sMs (ms MsgKind.comp) { loom0 with evict := [evL] }).dev.arrives (ms MsgKind.comp) = true ∧
    (ms MsgKind.comp).agent = Agent.cache n5 ∧ (ms MsgKind.comp).sects = 1 <<< 3 ∧
    (((sMs (ms MsgKind.comp) { loom0 with evict := [evL] }).dev.takeMsg (ms MsgKind.comp)).loom n5).stall = Stall.run ∧
    (ms MsgKind.comp).kind = MsgKind.comp ∧
    (((sMs (ms MsgKind.comp) { loom0 with evict := [evL] }).dev.takeMsg (ms MsgKind.comp)).loom n5).pend = [] ∧
    (((sMs (ms MsgKind.comp) { loom0 with evict := [evL] }).dev.takeMsg (ms MsgKind.comp)).loom n5).evict = [evL] ∧ evL.sent = true ∧
    evL.tag = (ms MsgKind.comp).tag ∧
    (((sMs (ms MsgKind.comp) { loom0 with evict := [evL] }).dev.takeMsg (ms MsgKind.comp)).loom n5).cleanTags = [] ∧
    (((sMs (ms MsgKind.comp) { loom0 with evict := [evL] }).dev.takeMsg (ms MsgKind.comp)).loom n5).findLine (ms MsgKind.comp).line = none := by
  decide +kernel

theorem w_AnswersAtHome_1 :
    (sTx { ms MsgKind.recallData with data := 5, excl := 8, own := 8 } tx0).dev.live = true ∧
    { ms MsgKind.recallData with data := 5, excl := 8, own := 8 }.agent = Agent.cache n5 ∧
    (sTx { ms MsgKind.recallData with data := 5, excl := 8, own := 8 } tx0).dev.arrives { ms MsgKind.recallData with data := 5, excl := 8, own := 8 } = true ∧
    ((sTx { ms MsgKind.recallData with data := 5, excl := 8, own := 8 } tx0).dev.takeMsg { ms MsgKind.recallData with data := 5, excl := 8, own := 8 }).weave.txns = [({ ms MsgKind.recallData with data := 5, excl := 8, own := 8 }.line.toNat, tx0)] ∧
    tx0.waits = [sn 5, sn 7] ∧ sn 5 ≠ sn 7 ∧ (sn 5).tgt = SnpTo.agent 5 ∧
    (sn 5).line = { ms MsgKind.recallData with data := 5, excl := 8, own := 8 }.line ∧
    (sn 5).sects = { ms MsgKind.recallData with data := 5, excl := 8, own := 8 }.sects ∧ (sn 5).count = 1 ∧
    (sn 7).matches 5 { ms MsgKind.recallData with data := 5, excl := 8, own := 8 }.line.toNat = false ∧
    { ms MsgKind.recallData with data := 5, excl := 8, own := 8 }.kind = MsgKind.recallData ∧ (sn 5).kind ≠ MsgKind.invalidate ∧
    (sTx (ms MsgKind.recallAck) tx0).dev.live = true ∧ (ms MsgKind.recallAck).agent = Agent.cache n5 ∧
    (sTx (ms MsgKind.recallAck) tx0).dev.arrives (ms MsgKind.recallAck) = true ∧
    ((sTx (ms MsgKind.recallAck) tx0).dev.takeMsg (ms MsgKind.recallAck)).weave.txns = [((ms MsgKind.recallAck).line.toNat, tx0)] ∧
    (sn 5).line = (ms MsgKind.recallAck).line ∧ (sn 5).sects = (ms MsgKind.recallAck).sects ∧
    (sn 7).matches 5 (ms MsgKind.recallAck).line.toNat = false ∧ (ms MsgKind.recallAck).kind = MsgKind.recallAck := by
  decide +kernel

theorem w_AnswersAtHome_2 :
    (sTx (ms MsgKind.invAck) txI).dev.live = true ∧ (ms MsgKind.invAck).agent = Agent.cache n5 ∧
    (sTx (ms MsgKind.invAck) txI).dev.arrives (ms MsgKind.invAck) = true ∧
    ((sTx (ms MsgKind.invAck) txI).dev.takeMsg (ms MsgKind.invAck)).weave.txns = [((ms MsgKind.invAck).line.toNat, txI)] ∧
    txI.waits = [snI 5, snI 7] ∧ snI 5 ≠ snI 7 ∧ (snI 5).tgt = SnpTo.agent 5 ∧ (snI 5).line = (ms MsgKind.invAck).line ∧
    (snI 5).sects = (ms MsgKind.invAck).sects ∧ (snI 5).count = 1 ∧ (snI 7).matches 5 (ms MsgKind.invAck).line.toNat = false ∧
    (ms MsgKind.invAck).kind = MsgKind.invAck ∧ (snI 5).kind = MsgKind.invalidate ∧ (sTx (ms MsgKind.invAck) tx0).dev.live = true ∧
    (sTx (ms MsgKind.invAck) tx0).dev.arrives (ms MsgKind.invAck) = true ∧
    ((sTx (ms MsgKind.invAck) tx0).dev.takeMsg (ms MsgKind.invAck)).weave.txns = [((ms MsgKind.invAck).line.toNat, tx0)] ∧
    tx0.waits = [sn 5, sn 7] ∧ sn 5 ≠ sn 7 ∧ (sn 5).tgt = SnpTo.agent 5 ∧ (sn 5).line = (ms MsgKind.invAck).line ∧
    (sn 5).sects = (ms MsgKind.invAck).sects ∧ (sn 5).count = 1 ∧ (sn 7).matches 5 (ms MsgKind.invAck).line.toNat = false ∧
    (sn 5).sects = 1 <<< 3 ∧
    (((sTx (ms MsgKind.invAck) tx0).dev.takeMsg (ms MsgKind.invAck)).ent (ms MsgKind.invAck).line.toNat).sec 3 = { st := DirSt.excl, owner := 5 : DirSec } ∧
    (sn 5).deadline ≤ (sTx (ms MsgKind.invAck) tx0).dev.tick ∧
    (sTx (ms MsgKind.invAck) tx0).dev.weave.txns = [((ms MsgKind.invAck).line.toNat, tx0)] := by
  decide +kernel

theorem w_AnswersAtHome_3 :
    (sTx (ms MsgKind.compAck) txA).dev.live = true ∧ (ms MsgKind.compAck).agent = Agent.cache n5 ∧
    (sTx (ms MsgKind.compAck) txA).dev.arrives (ms MsgKind.compAck) = true ∧
    ((sTx (ms MsgKind.compAck) txA).dev.takeMsg (ms MsgKind.compAck)).txn (ms MsgKind.compAck).line.toNat = some txA ∧
    (ms MsgKind.compAck).kind = MsgKind.compAck ∧ txA.phase = TxPhase.ack ∧ txA.req.src = (ms MsgKind.compAck).agent ∧
    (sTx (ms MsgKind.stashAck) txS).dev.live = true ∧ (ms MsgKind.stashAck).agent = Agent.cache n5 ∧
    (sTx (ms MsgKind.stashAck) txS).dev.arrives (ms MsgKind.stashAck) = true ∧
    ((sTx (ms MsgKind.stashAck) txS).dev.takeMsg (ms MsgKind.stashAck)).txn (ms MsgKind.stashAck).line.toNat = some txS ∧
    (ms MsgKind.stashAck).kind = MsgKind.stashAck ∧ txS.phase = TxPhase.stash ∧ (ms MsgKind.stashAck).ok = false ∧
    (sTx msSa txS).dev.live = true ∧ msSa.agent = Agent.cache n5 ∧ (sTx msSa txS).dev.arrives msSa = true ∧
    ((sTx msSa txS).dev.takeMsg msSa).txn msSa.line.toNat = some txS ∧ msSa.kind = MsgKind.stashAck ∧ msSa.ok = true ∧
    msSa.sects = 1 <<< 3 ∧ (sTx (ms MsgKind.retryBusy) txA).dev.live = true ∧ (ms MsgKind.retryBusy).agent = Agent.cache n5 ∧
    (sTx (ms MsgKind.retryBusy) txA).dev.arrives (ms MsgKind.retryBusy) = true ∧
    ((ms MsgKind.retryBusy).kind = MsgKind.retryBusy ∨ (ms MsgKind.retryBusy).kind = MsgKind.retryNoTracker) := by
  decide +kernel

theorem w_AnswersAtHome_4 :
    sCr.dev.live = true ∧ msCr.agent = Agent.cache n5 ∧ sCr.dev.weave.refused = [(rq ReqKind.readShared, true)] ∧
    (rq ReqKind.readShared).src = msCr.agent ∧ sCr.dev.home (256 * (rq ReqKind.readShared).line.toNat) = msCr.line.toNat ∧
    msCr.kind = MsgKind.credit ∧ sCr.dev.arrives msCr = true ∧ (sCr.dev.takeMsg msCr).retryComing (rq ReqKind.readShared) = false ∧
    sBusy.dev.live = true ∧ (ms MsgKind.comp).agent = Agent.cache n5 ∧
    sBusy.dev.weave.refused = [({ rq ReqKind.readOwn with retries := 63 }, false)] ∧
    sBusy.dev.retryComing { rq ReqKind.readOwn with retries := 63 } = false := by
  decide +kernel

/-! ### The tiers -/

def chan3 : BitVec 10 := 3
def depot2 : BitVec 10 := 514
def sTier : State := st memDev
def sRetry (n : Nat) : State := st { memDev with tiers := { memT with retries := [(514, n)] } }
def sPatrol : State := st ({ memDev with tiers := { memT with patrolPos := [(0, 7)] } }.setFld Fld.PATROL_CTRL_DSP_EN 0 1)
def sHalf : State := st ({ memDev with tiers := { memT with heat := [(2, 9), (3, 1)], lastHalf := 19000000 } }.setFld Fld.TIER_INTERVAL_PERIOD 0 1000)
/-- Host 0 writes through its BAR 0. -/
def hostDev : Dev := { memDev.setFld Fld.HEAD_STATUS_PERSONALITY 0 2 with heads := [(0, { up := true, mse := true, bme := true })] }
def sArm : State := st (hostDev.setFld Fld.DSP_STACK_STATE_STATE 0 1)
def rot1 : Rot := { page := 2, src := ⟨0, 2⟩, dst := ⟨1, 9⟩, marked := [4, 5] }
def rotMany : Rot := { rot1 with marked := List.replicate 4096 0 }
def rotDev (r : Rot) (st : Nat) : Dev := ({ memDev with tiers := { memT with rots := [(1, r)] } }.setRotStatus 1 st)
def sRot (r : Rot) : State := st (rotDev r rsCopying)
def sRot7 (r : Rot) : State := st ((rotDev r rsCopying).setFld Fld.ROT_STATE_ROUNDS 1 7)
def sSwitch : State := st (rotDev rot1 rsSwitching)
def frame1 : Frame := { depot := false, chan := 33, rank := 0, bank := 5, row := 0x123 }
def ret1 : Retire := ⟨2, [frame1], 1, 0, false⟩
def sRet : State := st { memDev with tiers := { memT with retiring := [ret1] } }
/-- A retried write of the first line of a depot page. -/
def rtyW : RetryIn := { chan := depot2, at_ := some 0x10000002000, write := true }

theorem w_HomeWritesReadBack :
    memDev.tiers.mem.wf = true ∧ memDev.atriumFind (256 * 524288) = none ∧
    memDev.fld Fld.ATRIUM_WING_ALLOC (memDev.extentWing (256 * 524288)) = 0 ∧
    (134217984 < 256 * 524288 + 64 * 3 ∨ 256 * 524288 + 64 * 3 + 64 ≤ 134217984) ∧ memDev.fld Fld.MEMINJ_FLIP_ARMED 0 = 0 ∧
    memDev.chanFaulted (memDev.physOf (256 * 524288 + 64 * 3)).chanNo = false ∧
    memDev.pinsOf (memDev.physOf (256 * 524288 + 64 * 3)) = [] := by
  decide +kernel

theorem w_TiersByThemselves_1 :
    (sRetry 1).dev.live = true ∧ (sRetry 1).dev.chanFaulted rtyW.chan.toNat = false ∧
    Fmap.get 0 (sRetry 1).dev.tiers.retries rtyW.chan.toNat = 1 ∧ (sRetry 2).dev.live = true ∧
    (sRetry 2).dev.chanFaulted rtyW.chan.toNat = false ∧ Fmap.get 0 (sRetry 2).dev.tiers.retries rtyW.chan.toNat = 2 ∧
    (sRetry 2).dev.tiers.rots = [] ∧ sTier.dev.live = true ∧ sPatrol.dev.live = true ∧ sPatrol.dev.fld Fld.PATROL_CTRL_DSP_EN 0 = 1 ∧
    Fmap.get 0 sPatrol.dev.tiers.patrolPos 0 + 1 < sPatrol.dev.tierUnits false ∧ sPatrol.dev.lineOpen (134217728 / 256) = true ∧
    sPatrol.dev.populated 134217728 = true ∧ (sPatrol.dev.physOf 134217728).depot = false ∧
    sPatrol.dev.chanFaulted (sPatrol.dev.physOf 134217728).chanNo = false ∧ sHalf.dev.live = true ∧
    sHalf.dev.tiers.lastHalf + sHalf.dev.fld Fld.TIER_INTERVAL_PERIOD 0 * 1000 ≤ sHalf.dev.tick ∧ sArm.dev.live = true ∧
    BitVec.getLsbD (9241386435364257792 : BitVec 64) 63 = true ∧ BitVec.getLsbD (9241386435364257792 : BitVec 64) 59 = false ∧
    sArm.dev.served 0 = true ∧ sArm.dev.barsOn 0 = true ∧ sArm.dev.frozen 0 = false ∧ sArm.dev.fld Fld.MEMINJ_FLIP_ARMED 0 = 0 ∧
    sArm.dev.stackState (9241386435364257792 / 2 ^ 50 % 16) = 1 ∧
    sArm.dev.chanFaulted (32 * (9241386435364257792 / 2 ^ 50 % 16) + 9241386435364257792 / 2 ^ 54 % 32) = false := by
  decide +kernel

theorem w_TiersByThemselves_2 :
    (sRot rot1).dev.live = true ∧ (sRot rot1).dev.tiers.errs = [] ∧ (sRot rot1).dev.fld Fld.CONS_STATE_DRAINING 0 = 0 ∧
    (sRot rot1).dev.tiers.rots.find 1 = some rot1 ∧ (sRot rot1).dev.rotStatus 1 = rsCopying ∧
    (∀ m < 4, (fun m ↦ (List.filter (fun l ↦ decide ((sRot rot1).dev.home (rot1.page * 2 ^ 26 + 256 * l) = m)) rot1.marked).length < 4096) m) ∧
    (sRot rotMany).dev.live = true ∧ (sRot rotMany).dev.tiers.errs = [] ∧ (sRot rotMany).dev.fld Fld.CONS_STATE_DRAINING 0 = 0 ∧
    (sRot rotMany).dev.rotStatus 1 = rsCopying ∧ (sRot rotMany).dev.fld Fld.ROT_STATE_ROUNDS 1 + 1 < 8 ∧
    (sRot7 rotMany).dev.live = true ∧ (sRot7 rotMany).dev.tiers.errs = [] ∧ (sRot7 rotMany).dev.fld Fld.CONS_STATE_DRAINING 0 = 0 ∧
    (sRot7 rotMany).dev.rotStatus 1 = rsCopying ∧ 8 ≤ (sRot7 rotMany).dev.fld Fld.ROT_STATE_ROUNDS 1 + 1 ∧
    (sRot7 rotMany).dev.tiers.evac = [] ∧ sSwitch.dev.live = true ∧ sSwitch.dev.tiers.errs = [] ∧
    sSwitch.dev.fld Fld.CONS_STATE_DRAINING 0 = 0 ∧ sSwitch.dev.tiers.rots.find 1 = some rot1 ∧
    sSwitch.dev.rotStatus 1 = rsSwitching ∧ (List.any sSwitch.dev.weave.txns fun t ↦ decide (t.1 / 2 ^ 18 = rot1.page)) = false ∧
    sSwitch.dev.noFault = true := by
  decide +kernel

theorem w_TiersByThemselves_3 :
    sRet.dev.live = true ∧ sRet.dev.tiers.errs = [] ∧ sRet.dev.fld Fld.CONS_STATE_DRAINING 0 = 0 ∧
    sRet.dev.tiers.retiring = [{ home := 2, frames := [frame1], spare := 1, box := 0 : Retire }] ∧ sRet.dev.rotUses frame1 = false ∧
    sRet.dev.releaseUses frame1 = false ∧ sRet.dev.weave.txns = [] ∧
    sRet.dev.chanFaulted (if frame1.depot = true then 512 + frame1.chan else frame1.chan) = false ∧
    sRet.dev.fld Fld.MEMINJ_FLIP_ARMED 0 = 0 ∧ sRet.dev.reg.bg = [] ∧ sRet.dev.repairSlot = some 0 := by
  decide +kernel

theorem w_TiersByThemselves_rotation :
    (rotMany.marked.filter (fun l => decide ((sRot rotMany).dev.home (rotMany.page * 2 ^ 26 + 256 * l) =
      (sRot rotMany).dev.home (rotMany.page * 2 ^ 26)))).length = 4096 ∧
    (rotMany.marked.filter (fun l => decide ((sRot7 rotMany).dev.home (rotMany.page * 2 ^ 26 + 256 * l) =
      (sRot7 rotMany).dev.home (rotMany.page * 2 ^ 26)))).length = 4096 ∧
    (sRot rotMany).dev.home (rotMany.page * 2 ^ 26) < 4 ∧ (sRot7 rotMany).dev.home (rotMany.page * 2 ^ 26) < 4 ∧
    (sRot rotMany).dev.tiers.rots.find 1 = some rotMany ∧ (sRot7 rotMany).dev.tiers.rots.find 1 = some rotMany := by
  refine ⟨?_, ?_, by decide +kernel, by decide +kernel, rfl, rfl⟩ <;> simp [rotMany, -List.reduceReplicate]

/-! ### Runs of the conservators -/

/-- Region 3 of wing 0: list of two entries at 0x8002000, epoch word at 0x8003000. -/
def reg3r : BitVec 512 := BitVec.ofNat 512 (0x80000C0 + 3 * 2 ^ 48 + 2 ^ 64 + 2 * 2 ^ 112 + 0x8003000 * 2 ^ 128 + 0x8002000 * 2 ^ 192 + 2 ^ 240)
def runDev : Dev := { memDev.setFld Fld.WING_RES_REGION_COUNT 0 8 with regions := [(3, reg3r)] }
/-- A routine entry: operation, elements, operands at 0x8010000, 0x8020000, 0x8030000 and 0x8040000 in FP32. -/
def ent (op n : Nat) (more : Nat := 0) : Entry :=
  let o (k : Nat) : Nat := (0x8010000 * (k + 1) - 0x8000000 * k + 14 * 2 ^ 48) * 2 ^ (64 + 64 * k)
  BitVec.ofNat 1024 (op + n * 2 ^ 32 + o 0 + o 1 + o 2 + o 3 + more)
def eZero : Entry := BitVec.ofNat 1024 (1 + 64 * 2 ^ 32 + 0x8010000 * 2 ^ 64)
def eEnd : Entry := 0
def sRun0 : State := st ({ runDev.setRgState 3 rgWaiting with runQ := [3, 9], tiers := { mem := [(0x8002000, 1), (0x8002004, 64), (0x800200A, 1), (0x800200B, 8)] } })
def sRun0x : State := st ({ runDev.setRgState 3 rgWaiting with runQ := [3], tiers := { mem := [(0x8002000, 200)] } })
def sRun0p : State := st ({ runDev.setRgState 3 rgWaiting with runQ := [3], tiers := { poison := [0x200081] } })
def run3 (e : Entry) (pos : Nat) : Run := { region := 3, entries := [e, eEnd], pos := pos, xs := [0, 0x40000000, 0, 0], s0 := 0x3F000000, s1 := 0x3F000000 }
def sRun (x : Run) : State := st { runDev with runs := [(2, x)], tiers := { mem := [(0x8010003, 0x40), (0x8020003, 0x3F), (0x8020002, 0x80)], poison := [0x200480] } }
def sRunSt (x : Run) : State := st { (runDev.setRgState 3 rgRunning) with runs := [(2, x)] }
def xEnd : Run := { run3 eEnd 0 with entries := [eEnd], bits := 4 }
def xEnded : Run := { xEnd with ended := true }
def xStop : Run := { run3 (ent 3 9) 0 with stop := some 4 }
def eReq : Entry := BitVec.ofNat 1024 (10 + 0x8010000 * 2 ^ 64 + 14 * 2 ^ 112 + 0x8020000 * 2 ^ 128 + 4 * 2 ^ 176 + 0x8030000 * 2 ^ 192
  + 2 * 2 ^ 320 + 1024 * 2 ^ 352 + 4096 * 2 ^ 384 + 1024 * 2 ^ 416 + 64 * 2 ^ 448)
def eB (op : Nat) : Entry := BitVec.ofNat 1024 (op + 65600 * 2 ^ 32 + 0x8010000 * 2 ^ 64 + (if op = 2 then 0x8030000 else 0) * 2 ^ 128)
def eN (op : Nat) (more : Nat := 0) : Entry := ent op 1040 more
def one_ (i : Nat) : Nat := 0x3F800000 * 2 ^ (512 + 32 * i)

def c08_1_a_1 := { ((sRun0.dev.endAsks (runWork 0)).setRgState 3 rgRunning).setFld Fld.REGION_STATUS_FAULT 3 0 with runQ := [9], rerun := sRun0.dev.rerun.del 3 }.spanRead (sRun0.dev.regListAddr 3) (128 * (sRun0.dev.desc 3 240 4 + 1))
def c08_2_a_1 := { ((sRun0x.dev.endAsks (runWork 0)).setRgState 3 rgRunning).setFld Fld.REGION_STATUS_FAULT 3 0 with runQ := ({} : Dev).runQ, rerun := sRun0x.dev.rerun.del 3 }.spanRead (sRun0x.dev.regListAddr 3) (128 * (sRun0x.dev.desc 3 240 4 + 1))
def c08_2_b_1 := ({ ((sRun0x.dev.endAsks (runWork 0)).setRgState 3 rgRunning).setFld Fld.REGION_STATUS_FAULT 3 0 with runQ := ({} : Dev).runQ, rerun := sRun0x.dev.rerun.del 3 }.spanRead (sRun0x.dev.regListAddr 3) (128 * (sRun0x.dev.desc 3 240 4 + 1))).2.2.setFld Fld.REGION_STATUS_ENTRY 3 0

theorem w_RunControl_1 :
    sRun0.dev.live = true ∧ sRun0.dev.runQ = [3, 9] ∧ List.find? (fun k ↦ (sRun0.dev.runs.find k).isNone) (List.range 16) = some 0 ∧
    sRun0.dev.rerun.find 3 = none ∧ sRun0.dev.fld Fld.CONS_STATE_DRAINING 0 = 0 ∧
    sRun0.dev.spansReady (runWork 0) [(sRun0.dev.regListAddr 3, 128 * (sRun0.dev.desc 3 240 4 + 1))] [] = true ∧
    ({ ((sRun0.dev.endAsks (runWork 0)).setRgState 3 rgRunning).setFld Fld.REGION_STATUS_FAULT 3 0 with runQ := [9], rerun := sRun0.dev.rerun.del 3 }.spanRead (sRun0.dev.regListAddr 3) (128 * (sRun0.dev.desc 3 240 4 + 1))).2.1 = [] ∧
    (c08_1_a_1.2.2.setFld Fld.REGION_STATUS_ENTRY 3 0).entryOk ((c08_1_a_1.2.2.setFld Fld.REGION_STATUS_ENTRY 3 0).regionWing 3) (BitVec.ofNat 1024 c08_1_a_1.1) = true ∧
    sRun0x.dev.live = true ∧ sRun0x.dev.runQ = [3] ∧ List.find? (fun k ↦ (sRun0x.dev.runs.find k).isNone) (List.range 16) = some 0 ∧
    sRun0x.dev.rerun.find 3 = none ∧ sRun0x.dev.fld Fld.CONS_STATE_DRAINING 0 = 0 ∧
    sRun0x.dev.spansReady (runWork 0) [(sRun0x.dev.regListAddr 3, 128 * (sRun0x.dev.desc 3 240 4 + 1))] [] = true ∧
    ({ ((sRun0x.dev.endAsks (runWork 0)).setRgState 3 rgRunning).setFld Fld.REGION_STATUS_FAULT 3 0 with runQ := ({} : Dev).runQ, rerun := sRun0x.dev.rerun.del 3 }.spanRead (sRun0x.dev.regListAddr 3) (128 * (sRun0x.dev.desc 3 240 4 + 1))).2.1 = [] ∧
    (c08_2_a_1.2.2.setFld Fld.REGION_STATUS_ENTRY 3 0).entryOk ((c08_2_a_1.2.2.setFld Fld.REGION_STATUS_ENTRY 3 0).regionWing 3) (BitVec.ofNat 1024 c08_2_a_1.1) = false ∧
    c08_2_b_1.spansReady (runWork 0) [] [(c08_2_b_1.entryAddr 3 0, 128)] = true ∧ sRun0p.dev.live = true ∧ sRun0p.dev.runQ = [3] ∧
    List.find? (fun k ↦ (sRun0p.dev.runs.find k).isNone) (List.range 16) = some 0 ∧ sRun0p.dev.rerun.find 3 = none ∧
    sRun0p.dev.fld Fld.CONS_STATE_DRAINING 0 = 0 ∧
    sRun0p.dev.spansReady (runWork 0) [(sRun0p.dev.regListAddr 3, 128 * (sRun0p.dev.desc 3 240 4 + 1))] [] = true ∧
    ({ ((sRun0p.dev.endAsks (runWork 0)).setRgState 3 rgRunning).setFld Fld.REGION_STATUS_FAULT 3 0 with runQ := ({} : Dev).runQ, rerun := sRun0p.dev.rerun.del 3 }.spanRead (sRun0p.dev.regListAddr 3) (128 * (sRun0p.dev.desc 3 240 4 + 1))).2.1 ≠ [] := by
  decide +kernel

theorem w_RunControl_2 :
    (sRun xEnd).dev.live = true ∧ (sRun xEnd).InEntry 3 0 2 xEnd eEnd ∧ eEnd.store = false ∧ eEnd.halt = false ∧
    (sRun xEnd).dev.spansReady (runWork 2) [] [((sRun xEnd).dev.entryAddr xEnd.region xEnd.idx, 128)] = true ∧
    (sRunSt xEnded).dev.live = true ∧ (sRunSt xEnded).dev.runOf 3 = some (2, xEnded) ∧ xEnded.ended = true ∧ xEnded.stop = none ∧
    (sRunSt xEnded).dev.spansReady (runWork 2) [] [((sRunSt xEnded).dev.regEpochAddr 3, 8)] = true ∧
    (sRunSt xStop).dev.live = true ∧ (sRunSt xStop).dev.runOf 3 = some (2, xStop) ∧ xStop.region = 3 ∧ xStop.ended = false ∧
    xStop.stop = some 4 ∧ (sRunSt xStop).dev.spansReady (runWork 2) [] [((sRunSt xStop).dev.entryAddr 3 xStop.idx, 128)] = true ∧
    Option.all (fun e ↦ decide (e.op < 9)) xStop.entries[xStop.idx]? = true := by
  unfold State.InEntry; decide +kernel

def c08_13_a_1 := List.map (fun i ↦ (((run3 eReq 0).pos / fmtBlock (eReq.fmt 1) + i) / (eReq.k / fmtBlock (eReq.fmt 1)), ((run3 eReq 0).pos / fmtBlock (eReq.fmt 1) + i) % (eReq.k / fmtBlock (eReq.fmt 1)))) (List.range (1024 / fmtBlock (eReq.fmt 1)))

theorem w_RoutineChunks_1 :
    65536 = min 65536 ((eB 1).n - (run3 (eB 1) 0).pos) ∧ (run3 (eB 1) 0).pos + 65536 < (eB 1).n ∧
    (sRun (run3 (eB 1) 0)).dev.chunkReady 2 (run3 (eB 1) 0) (eB 1) 65536 = true ∧
    (sRun (run3 (eB 1) 0)).InEntry 3 1 2 (run3 (eB 1) 0) (eB 1) ∧ 65536 = min 65536 ((eB 2).n - (run3 (eB 2) 0).pos) ∧
    (run3 (eB 2) 0).pos + 65536 < (eB 2).n ∧ (sRun (run3 (eB 2) 0)).dev.chunkReady 2 (run3 (eB 2) 0) (eB 2) 65536 = true ∧
    (sRun (run3 (eB 2) 0)).InEntry 3 2 2 (run3 (eB 2) 0) (eB 2) ∧
    (sRun (run3 (eN 5) 0)).dev.MidChunk 2 (run3 (eN 5) 0) (eN 5) 1024 (eN 5).n ∧
    (sRun (run3 (eN 5) 0)).InEntry 3 5 2 (run3 (eN 5) 0) (eN 5) ∧ (eN 6 65536).op = 6 ∧ (eN 9 (one_ 0)).op = 9 := by
  unfold State.InEntry Dev.MidChunk; decide +kernel

theorem w_RoutineChunks_2 :
    (sRun (run3 (eN 6 65536) 8)).dev.MidChunk 2 (run3 (eN 6 65536) 8) (eN 6 65536) 1024 (eN 6 65536).n ∧
    (sRun (run3 (eN 6 65536) 8)).InEntry 3 6 2 (run3 (eN 6 65536) 8) (eN 6 65536) ∧
    (sRun (run3 eReq 0)).InEntry 3 10 2 (run3 eReq 0) eReq ∧
    (sRun (run3 eReq 0)).dev.spansReady (runWork 2) (List.map (fun p ↦ (eReq.addr 0 + p.1 * eReq.pitch 0 + p.2 * fmtBlock (eReq.fmt 1) * fBytes (eReq.fmt 0), fmtBlock (eReq.fmt 1) * fBytes (eReq.fmt 0))) c08_13_a_1) ((((sRun (run3 eReq 0)).dev.endAsks (runWork 2)).entryAddr (run3 eReq 0).region (run3 eReq 0).idx, 128) :: List.flatMap (fun p ↦ [(eReq.addr 1 + p.1 * eReq.pitch 1 + p.2 * fmtBlock (eReq.fmt 1) * fmtBits (eReq.fmt 1) / 8, fmtBlock (eReq.fmt 1) * fmtBits (eReq.fmt 1) / 8), (eReq.addr 2 + p.1 * eReq.pitch 2 + p.2, 1)]) c08_13_a_1) = true := by
  unfold State.InEntry Dev.MidChunk; decide +kernel

theorem w_RoutineElements_1 :
    (sRun (run3 (eN 3 131072) 0)).dev.MidChunk 2 (run3 (eN 3 131072) 0) (eN 3 131072) 1024 (eN 3 131072).n ∧
    (sRun (run3 (eN 3 131072) 0)).InEntry 3 3 2 (run3 (eN 3 131072) 0) (eN 3 131072) ∧
    (sRun (run3 (eN 4 (131072 + one_ 0)) 0)).dev.MidChunk 2 (run3 (eN 4 (131072 + one_ 0)) 0) (eN 4 (131072 + one_ 0)) 1024 (eN 4 (131072 + one_ 0)).n ∧
    (sRun (run3 (eN 4 (131072 + one_ 0)) 0)).InEntry 3 4 2 (run3 (eN 4 (131072 + one_ 0)) 0) (eN 4 (131072 + one_ 0)) ∧
    (sRun (run3 (eN 7 (one_ 0)) 0)).dev.MidChunk 2 (run3 (eN 7 (one_ 0)) 0) (eN 7 (one_ 0)) 1024 (eN 7 (one_ 0)).n ∧
    (sRun (run3 (eN 7 (one_ 0)) 0)).InEntry 3 7 2 (run3 (eN 7 (one_ 0)) 0) (eN 7 (one_ 0)) := by
  unfold State.InEntry Dev.MidChunk; decide +kernel

theorem w_RoutineElements_2 :
    (sRun (run3 (eN 8 (one_ 0)) 0)).dev.MidChunk 2 (run3 (eN 8 (one_ 0)) 0) (eN 8 (one_ 0)) 1024 (eN 8 (one_ 0)).n ∧
    (sRun (run3 (eN 8 (one_ 0)) 0)).InEntry 3 8 2 (run3 (eN 8 (one_ 0)) 0) (eN 8 (one_ 0)) ∧
    (sRun (run3 (eN 9 (one_ 0)) 0)).dev.MidChunk 2 (run3 (eN 9 (one_ 0)) 0) (eN 9 (one_ 0)) 1024 (eN 9 (one_ 0)).n ∧
    (sRun (run3 (eN 9 (one_ 0)) 0)).InEntry 3 9 2 (run3 (eN 9 (one_ 0)) 0) (eN 9 (one_ 0)) := by
  unfold State.InEntry Dev.MidChunk; decide +kernel

theorem requant_pos (e : Entry) (bs : List (Nat × Nat)) (a : Run × Dev) :
    (bs.foldl (fun (a : Run × Dev) p => Dev.requantBlock e p.1 p.2 a) a).1.pos = a.1.pos := by
  induction bs generalizing a with
  | nil => rfl
  | cons p t ih =>
    rw [List.foldl_cons, ih]
    simp only [Dev.requantBlock]
    split <;> rfl

/-- The 32 blocks of 32 elements of the first chunk of `eReq`. -/
def bsReq : List (Nat × Nat) := (List.range 32).map (fun i => (i / (eReq.k / 32), i % (eReq.k / 32)))
theorem w_RoutineChunks_requant_cells :
    fmtBlock (eReq.fmt 1) = 32 ∧ (sRun (run3 eReq 0)).InEntry 3 10 2 (run3 eReq 0) eReq ∧ (sRun (run3 eReq 0)).dev.spansReady (runWork 2)
      (bsReq.map (fun p => (eReq.addr 0 + p.1 * eReq.pitch 0 + p.2 * 32 * fBytes (eReq.fmt 0), 32 * fBytes (eReq.fmt 0))))
      (((sRun (run3 eReq 0)).dev.entryAddr 3 0, 128) :: bsReq.flatMap (fun p =>
        [(eReq.addr 1 + p.1 * eReq.pitch 1 + p.2 * 32 * fmtBits (eReq.fmt 1) / 8, 32 * fmtBits (eReq.fmt 1) / 8),
         (eReq.addr 2 + p.1 * eReq.pitch 2 + p.2, 1)])) = true := by
  unfold State.InEntry; decide +kernel
theorem w_RoutineChunks_requant_pos :
    (bsReq.foldl (fun (a : Run × Dev) p => Dev.requantBlock eReq p.1 p.2 a) (run3 eReq 0, (sRun (run3 eReq 0)).dev)).1.pos + 1024
      < eReq.rows * eReq.k ∧ 1024 = min 1024 (eReq.rows * eReq.k - (run3 eReq 0).pos) := by
  rw [requant_pos]; decide +kernel

/-! ### Translation -/

/-- Page tables of wing 0: level 2 at 0x8100000, level 1 at 0x8108000, level 0 at 0x8110000. -/
def tables (leaf : Memory) : Memory :=
  [(0x8100000, 0x01), (0x8100001, 0x80), (0x8100002, 0x10), (0x8100003, 0x08), (0x8108000, 0x01), (0x8108002, 0x11), (0x8108003, 0x08)] ++ leaf
def walkDev (leaf : Memory) : Dev :=
  { (hostDev.setFld Fld.TRANS_ROOT_ENABLE 0 1).setFld Fld.TRANS_ROOT_ROOT 0 0x1020 with tiers := { mem := tables leaf } }
def dLeaf : Dev := walkDev [(0x8110008, 0x0F), (0x811000B, 0x08)]
def dNone : Dev := walkDev []
def dMal : Dev := walkDev [(0x8110008, 0x01)]
def w2 (d : Dev) : Dev := (d.read8 0x8100000).2
def w1 (d : Dev) : Dev := (((w2 d).pwcAdd 0 0 0 0x8108001).read8 0x8108000).2
def w0 (d : Dev) : Dev := (((w1 d).pwcAdd 0 0 0x1000000 0x8110001).read8 0x8110008).2
def walkT : Walk := ⟨.treadle 5, 0, 0x4000123, .load, some 0⟩
def sWalk (d : Dev) : State := st { withLoom { loom0 with stall := .walk } d with trans := { walks := [walkT] } }
def walked (d : Dev) : Dev := ((sWalk d).dev.walk (.walker 0) 0 0 0x4000123).2
def sHost : State := st hostDev
def dInv (pages : Nat) : State := st ((hostDev.setFld Fld.INV_BASE_VA 0 1).setFld Fld.INV_SIZE_PAGES 0 pages)
def sInvBusy : State := st (hostDev.setFld Fld.INV_CTRL_BUSY 0 1)
def sInval : State := st { hostDev with trans := { inval := [{ wing := 0 }] } }
def recT : FRec := { wing := 0, tag := 9, page := 1, va := 0x4000123, cause := 0, engines := [(.treadle 5, 20000000)], write := false,
                     exec := false, level := 0, cls := 0, engineNo := 5, addr := 0x8110008, written := true }
def sRec : State := st { withLoom { loom0 with stall := .walk } hostDev with trans := { recs := [recT] } }
def atsT : AtsReq := ⟨0, 0x7000, false, .treadle 5, 0, 0x4000123, 0x4000000, true⟩
def sAts : State := st { withLoom { loom0 with stall := .walk, tlb := [page1] } hostDev with trans := { ats := [atsT] } }
def sAtc : State := st { hostDev with heads := [(0, { up := true, mse := true, bme := true, cxl := true })],
                                      trans := { atc := [⟨0, 0x7000, 0x1000, 0x9000, true⟩, ⟨1, 0x7000, 0x1000, 0x9000, true⟩] } }
def sLate : State := st (withLoom { loom0 with stall := .walk } { hostDev with trans := { recs := [recT] } })

theorem w_TranslationWrites_1 :
    sHost.dev.live = true ∧ sHost.dev.Writes 0 Block.trans (sHost.dev.headWing 0) ∧ sHost.dev.trans.recs = [] ∧
    sInvBusy.dev.live = true ∧ sInvBusy.dev.Writes 0 Block.trans (sInvBusy.dev.headWing 0) ∧
    BitVec.getLsbD (2147483648 : BitVec 64) 31 = true ∧ BitVec.getLsbD (2147483648 : BitVec 64) 29 = false ∧
    sInvBusy.dev.fld Fld.INV_CTRL_BUSY (sInvBusy.dev.headWing 0) = 1 ∧ (dInv 0).dev.live = true ∧
    (dInv 0).dev.Writes 0 Block.trans ((dInv 0).dev.headWing 0) ∧ (dInv 0).dev.fld Fld.INV_CTRL_BUSY ((dInv 0).dev.headWing 0) ≠ 1 ∧
    (dInv 0).dev.fld Fld.INV_SIZE_PAGES ((dInv 0).dev.headWing 0) = 0 := by
  unfold Dev.Writes; decide +kernel

theorem w_TranslationWrites_2 :
    (dInv 1).dev.live = true ∧ (dInv 1).dev.Writes 0 Block.trans ((dInv 1).dev.headWing 0) ∧
    BitVec.getLsbD (2147483648 : BitVec 64) 31 = true ∧ BitVec.getLsbD (2147483648 : BitVec 64) 29 = false ∧
    (dInv 1).dev.fld Fld.INV_CTRL_BUSY ((dInv 1).dev.headWing 0) ≠ 1 ∧
    (dInv 1).dev.fld Fld.INV_SIZE_PAGES ((dInv 1).dev.headWing 0) ≠ 0 ∧ sInval.dev.live = true ∧
    sInval.dev.trans.inval = [{ wing := 0 : Inval }] ∧ { wing := 0 : Inval }.wing = 0 ∧
    sInval.dev.invAcked { wing := 0 : Inval } = true := by
  unfold Dev.Writes; decide +kernel

def c09_12_a_1 := { (walked dNone).endAsks ((walked dNone).walkWork walkT) with trans := { (walked dNone).trans with walks := ({} : Trans).walks } }.unstall walkT.engine
def c09_12_a_2 := c09_12_a_1.stallEngine walkT.engine
def c09_12_b_1 := { (walked dNone).endAsks ((walked dNone).walkWork walkT) with trans := { (walked dNone).trans with walks := ({} : Trans).walks } }.unstall walkT.engine
def c09_12_b_2 := c09_12_b_1.stallEngine walkT.engine

theorem w_PageWalks_1 :
    dNone.fld Fld.TRANS_ROOT_ENABLE 0 = 1 ∧ dNone.inWing 0 (dNone.fld Fld.TRANS_ROOT_ROOT 0 * 2 ^ 15) 32768 = true ∧
    dNone.pwcFind 0 0 (67109155 / 2 ^ 44 % 4096) = none ∧
    (fun y a ↦ y.canRead (Work.walker 0) (a / 256) (setBit4 0 (a / 64 % 4)) = true) dNone (dNone.fld Fld.TRANS_ROOT_ROOT 0 * 2 ^ 15 + 8 * (67109155 / 2 ^ 44 % 4096)) ∧
    dNone.read8 (dNone.fld Fld.TRANS_ROOT_ROOT 0 * 2 ^ 15 + 8 * (67109155 / 2 ^ 44 % 4096)) = (some 135299073, w2 dNone) ∧
    (w2 dNone).checkPointer 0 2 (dNone.fld Fld.TRANS_ROOT_ROOT 0 * 2 ^ 15 + 8 * (67109155 / 2 ^ 44 % 4096)) 135299073 = none ∧
    ((w2 dNone).pwcAdd 0 0 (67109155 / 2 ^ 44 % 4096) 135299073).pwcFind 0 0 (2 ^ 24 + 67109155 / 2 ^ 32 % 2 ^ 24) = none ∧
    (fun y a ↦ y.canRead (Work.walker 0) (a / 256) (setBit4 0 (a / 64 % 4)) = true) ((w2 dNone).pwcAdd 0 0 (67109155 / 2 ^ 44 % 4096) 135299073) (pteAddr 135299073 + 8 * (67109155 / 2 ^ 32 % 4096)) ∧
    ((w2 dNone).pwcAdd 0 0 (67109155 / 2 ^ 44 % 4096) 135299073).read8 (pteAddr 135299073 + 8 * (67109155 / 2 ^ 32 % 4096)) = (some 135331841, w1 dNone) ∧
    (pteValid 135331841 && pteLeaf 135331841) = false ∧
    (w1 dNone).checkPointer 0 1 (pteAddr 135299073 + 8 * (67109155 / 2 ^ 32 % 4096)) 135331841 = none ∧
    (fun y a ↦ y.canRead (Work.walker 0) (a / 256) (setBit4 0 (a / 64 % 4)) = true) ((w1 dNone).pwcAdd 0 0 (2 ^ 24 + 67109155 / 2 ^ 32 % 2 ^ 24) 135331841) (pteAddr 135331841 + 8 * (67109155 / 2 ^ 26 % 64)) ∧
    ((w1 dNone).pwcAdd 0 0 (2 ^ 24 + 67109155 / 2 ^ 32 % 2 ^ 24) 135331841).read8 (pteAddr 135331841 + 8 * (67109155 / 2 ^ 26 % 64)) = (some 0, w0 dNone) ∧
    pteValid 0 = false ∧ dMal.fld Fld.TRANS_ROOT_ENABLE 0 = 1 ∧ dMal.inWing 0 (dMal.fld Fld.TRANS_ROOT_ROOT 0 * 2 ^ 15) 32768 = true ∧
    dMal.pwcFind 0 0 (67109155 / 2 ^ 44 % 4096) = none ∧
    (fun y a ↦ y.canRead (Work.walker 0) (a / 256) (setBit4 0 (a / 64 % 4)) = true) dMal (dMal.fld Fld.TRANS_ROOT_ROOT 0 * 2 ^ 15 + 8 * (67109155 / 2 ^ 44 % 4096)) ∧
    dMal.read8 (dMal.fld Fld.TRANS_ROOT_ROOT 0 * 2 ^ 15 + 8 * (67109155 / 2 ^ 44 % 4096)) = (some 135299073, w2 dMal) ∧
    (w2 dMal).checkPointer 0 2 (dMal.fld Fld.TRANS_ROOT_ROOT 0 * 2 ^ 15 + 8 * (67109155 / 2 ^ 44 % 4096)) 135299073 = none ∧
    ((w2 dMal).pwcAdd 0 0 (67109155 / 2 ^ 44 % 4096) 135299073).pwcFind 0 0 (2 ^ 24 + 67109155 / 2 ^ 32 % 2 ^ 24) = none ∧
    (fun y a ↦ y.canRead (Work.walker 0) (a / 256) (setBit4 0 (a / 64 % 4)) = true) ((w2 dMal).pwcAdd 0 0 (67109155 / 2 ^ 44 % 4096) 135299073) (pteAddr 135299073 + 8 * (67109155 / 2 ^ 32 % 4096)) ∧
    ((w2 dMal).pwcAdd 0 0 (67109155 / 2 ^ 44 % 4096) 135299073).read8 (pteAddr 135299073 + 8 * (67109155 / 2 ^ 32 % 4096)) = (some 135331841, w1 dMal) ∧
    (w1 dMal).checkPointer 0 1 (pteAddr 135299073 + 8 * (67109155 / 2 ^ 32 % 4096)) 135331841 = none ∧
    (fun y a ↦ y.canRead (Work.walker 0) (a / 256) (setBit4 0 (a / 64 % 4)) = true) ((w1 dMal).pwcAdd 0 0 (2 ^ 24 + 67109155 / 2 ^ 32 % 2 ^ 24) 135331841) (pteAddr 135331841 + 8 * (67109155 / 2 ^ 26 % 64)) ∧
    ((w1 dMal).pwcAdd 0 0 (2 ^ 24 + 67109155 / 2 ^ 32 % 2 ^ 24) 135331841).read8 (pteAddr 135331841 + 8 * (67109155 / 2 ^ 26 % 64)) = (some 1, w0 dMal) ∧
    pteValid 1 = true ∧ pteLeaf 1 = false := by
  decide +kernel

theorem w_PageWalks_2 :
    dLeaf.fld Fld.TRANS_ROOT_ENABLE 0 = 1 ∧ dLeaf.inWing 0 (dLeaf.fld Fld.TRANS_ROOT_ROOT 0 * 2 ^ 15) 32768 = true ∧
    dLeaf.pwcFind 0 0 (67109155 / 2 ^ 44 % 4096) = none ∧
    (fun y a ↦ y.canRead (Work.walker 0) (a / 256) (setBit4 0 (a / 64 % 4)) = true) dLeaf (dLeaf.fld Fld.TRANS_ROOT_ROOT 0 * 2 ^ 15 + 8 * (67109155 / 2 ^ 44 % 4096)) ∧
    dLeaf.read8 (dLeaf.fld Fld.TRANS_ROOT_ROOT 0 * 2 ^ 15 + 8 * (67109155 / 2 ^ 44 % 4096)) = (some 135299073, w2 dLeaf) ∧
    (w2 dLeaf).checkPointer 0 2 (dLeaf.fld Fld.TRANS_ROOT_ROOT 0 * 2 ^ 15 + 8 * (67109155 / 2 ^ 44 % 4096)) 135299073 = none ∧
    ((w2 dLeaf).pwcAdd 0 0 (67109155 / 2 ^ 44 % 4096) 135299073).pwcFind 0 0 (2 ^ 24 + 67109155 / 2 ^ 32 % 2 ^ 24) = none ∧
    (fun y a ↦ y.canRead (Work.walker 0) (a / 256) (setBit4 0 (a / 64 % 4)) = true) ((w2 dLeaf).pwcAdd 0 0 (67109155 / 2 ^ 44 % 4096) 135299073) (pteAddr 135299073 + 8 * (67109155 / 2 ^ 32 % 4096)) ∧
    ((w2 dLeaf).pwcAdd 0 0 (67109155 / 2 ^ 44 % 4096) 135299073).read8 (pteAddr 135299073 + 8 * (67109155 / 2 ^ 32 % 4096)) = (some 135331841, w1 dLeaf) ∧
    (pteValid 135331841 && pteLeaf 135331841) = false ∧
    (w1 dLeaf).checkPointer 0 1 (pteAddr 135299073 + 8 * (67109155 / 2 ^ 32 % 4096)) 135331841 = none ∧
    (fun y a ↦ y.canRead (Work.walker 0) (a / 256) (setBit4 0 (a / 64 % 4)) = true) ((w1 dLeaf).pwcAdd 0 0 (2 ^ 24 + 67109155 / 2 ^ 32 % 2 ^ 24) 135331841) (pteAddr 135331841 + 8 * (67109155 / 2 ^ 26 % 64)) ∧
    ((w1 dLeaf).pwcAdd 0 0 (2 ^ 24 + 67109155 / 2 ^ 32 % 2 ^ 24) 135331841).read8 (pteAddr 135331841 + 8 * (67109155 / 2 ^ 26 % 64)) = (some 134217743, w0 dLeaf) ∧
    pteValid 134217743 = true ∧ pteLeaf 134217743 = true ∧
    checkLeaf 0 false (pteAddr 135331841 + 8 * (67109155 / 2 ^ 26 % 64)) 134217743 = none ∧ (sWalk dLeaf).dev.live = true ∧
    (sWalk dLeaf).dev.trans.walks = [walkT] ∧ walkT.on.isSome = true ∧ (walked dLeaf).trans.walks = [walkT] ∧
    (sWalk dLeaf).dev.engineDie walkT.engine = (walked dLeaf).engineDie walkT.engine ∧
    (sWalk dLeaf).dev.walk ((sWalk dLeaf).dev.walkWork walkT) ((sWalk dLeaf).dev.engineDie walkT.engine) (BitVec.toNat walkT.wing) (BitVec.toNat walkT.va) = (WalkRes.leaf false 134217743, walked dLeaf) := by
  decide +kernel

theorem w_PageWalks_3 :
    (sWalk dNone).dev.live = true ∧ (sWalk dNone).dev.trans.walks = [walkT] ∧ walkT.on.isSome = true ∧
    (walked dNone).trans.walks = [walkT] ∧ (sWalk dNone).dev.engineDie walkT.engine = (walked dNone).engineDie walkT.engine ∧
    (sWalk dNone).dev.walk ((sWalk dNone).dev.walkWork walkT) ((sWalk dNone).dev.engineDie walkT.engine) (BitVec.toNat walkT.wing) (BitVec.toNat walkT.va) = (WalkRes.fault { cause := Cause.notPresent, level := 0, addr := 135331848 : TrFault }, walked dNone) ∧
    walkT.kind ≠ AccKind.hint ∧ { cause := Cause.notPresent, level := 0, addr := 135331848 : TrFault }.cause = Cause.notPresent ∧
    (({ (walked dNone).endAsks ((walked dNone).walkWork walkT) with trans := { (walked dNone).trans with walks := ({} : Trans).walks } }.unstall walkT.engine).stallEngine walkT.engine).trans.recs = [] ∧
    { c09_12_a_1.stallEngine walkT.engine with trans := { c09_12_a_2.trans with recs := [{ c09_12_a_1.mkRec walkT.engine (BitVec.toNat walkT.wing) walkT.va walkT.kind false { cause := Cause.notPresent, level := 0, addr := 135331848 : TrFault } with tag := c09_12_a_2.freshTag (BitVec.toNat walkT.wing) }], nextTag := c09_12_a_2.trans.nextTag.put (BitVec.toNat walkT.wing) (c09_12_a_2.freshTag (BitVec.toNat walkT.wing)) } }.fqOpen     (BitVec.toNat walkT.wing) =   true ∧
    { c09_12_b_1.stallEngine walkT.engine with trans := { c09_12_b_2.trans with recs := [{ c09_12_b_1.mkRec walkT.engine (BitVec.toNat walkT.wing) walkT.va walkT.kind false { cause := Cause.notPresent, level := 0, addr := 135331848 : TrFault } with tag := c09_12_b_2.freshTag (BitVec.toNat walkT.wing) }], nextTag := c09_12_b_2.trans.nextTag.put (BitVec.toNat walkT.wing) (c09_12_b_2.freshTag (BitVec.toNat walkT.wing)) } }.fqLine     (BitVec.toNat walkT.wing) =   true := by
  decide +kernel

theorem w_StalledAccesses_1 :
    sRec.dev.live = true ∧ sRec.dev.trans.recs = [recT] ∧ recT.wing = 0 ∧ recT.written = true ∧
    recT.engines = [(Engine.treadle 5, 20000000)] ∧ sRec.dev.trans.unrecorded = [] ∧ sRec.dev.headWing 0 = 0 ∧
    sRec.dev.Writes 0 Block.trans 0 ∧ recT.tag < 2 ^ 16 ∧ BitVec.getLsbD (2147483657 : BitVec 64) 31 = true ∧
    2147483657 % 2 ^ 16 = recT.tag ∧ BitVec.getLsbD (2147483657 : BitVec 64) 28 = false ∧
    BitVec.getLsbD (2415919113 : BitVec 64) 31 = true ∧ 2415919113 % 2 ^ 16 = recT.tag ∧
    BitVec.getLsbD (2415919113 : BitVec 64) 28 = true := by
  unfold Dev.Writes; decide +kernel

theorem w_StalledAccesses_2 :
    sLate.dev.live = true ∧ sLate.dev.trans.recs = [recT] ∧ recT.wing = 0 ∧ recT.written = true ∧
    recT.engines = [(Engine.treadle 5, 20000000)] ∧ sLate.dev.trans.unrecorded = [] ∧ sLate.dev.headWing 0 = 0 ∧
    sLate.dev.Writes 0 Block.trans 0 ∧ recT.tag < 2 ^ 16 ∧ 20000000 ≤ sLate.dev.tick ∧ sLate.dev.trans.walks = [] ∧
    sLate.dev.trans.ats = [] ∧ sAts.dev.live = true ∧ sAts.dev.trans.ats = [atsT] ∧ atsT.head = 0 ∧ atsT.sent = true ∧
    32767 / 4096 * 4096 = atsT.iova ∧ (true = true ∨ atsT.write = false) ∧ sHost.dev.live = true ∧ sHost.dev.trans.ats = [] ∧
    sHost.dev.served 0 = true := by
  unfold Dev.Writes; decide +kernel

theorem w_StalledAccesses_3 :
    sAtc.dev.live = true ∧ (sAtc.dev.head 0).up = true ∧ (sAtc.dev.head 0).cxl = true ∧ (sAtc.dev.head 0).atsInv = [] ∧
    (sAtc.dev.head 0).outs = [] ∧ (sAtc.dev.head 0).waiting = [] := by
  decide +kernel

/-! ### Couriers and BAR 2 -/

/-- Queue 7 of wing 0 on head 0: submission ring at 0x8200000, completion ring at 0x8201000. -/
def qDev : Dev :=
  ((((((hostDev.setFld Fld.QUEUE_BIND_VALID 7 1).setFld Fld.QUEUE_CTRL_ENABLE 7 1).setFld Fld.SQ_TAIL_TAIL 7 5).setFld
    Fld.SQ_BASE_ADDR 7 0x8200).setFld Fld.CQ_BASE_ADDR 7 0x8201).setFld Fld.QUEUE_STATUS_EXPECT_PHASE 7 1).setFld Fld.CQ_TAIL_PHASE 7 1
def q7 (z : CQueue) : State := st (qDev.setQueue 7 z)
def qOff : State := st (qDev.setFld Fld.QUEUE_CTRL_ENABLE 7 0)
def qBad : State := st ((qDev.setFld Fld.QUEUE_CTRL_ENABLE 7 0).setFld Fld.CPL_FLAG_KIND 7 1)
def by_ (v : Nat) : List Byte := (List.range 64).map (fun i => BitVec.ofNat 8 (v / 256 ^ i))
def ds (v : Nat) : Desc := { id := 3, slot := 4, bytes := by_ v, courier := 0, begun := true }
def adr (a i : Nat) : Nat := a * 256 ^ i
def xNop : Desc := { ds 0x1000 with begun := false }
def xNopBad : Desc := { ds 0x100 with begun := false }
def xCopy : Desc := { ds (1 + adr 0x8010040 8 + adr 0x8020080 16 + adr 0x1000 24) with pos := 0x100 }
def xRed : Desc := ds (5 + adr 0x8010040 8 + adr 0x100008020080 16 + adr 0x100 24)
def xInl : Desc := ds (2 + adr 0x80100F8 8 + adr 8 16 + adr 0x1122334455667788 24)
def xFill : Desc := { ds (3 + adr 0x8010001 8 + adr 0x1122334455667788 16 + adr 0x40 24) with pos := 0x30 }
def xFlag : Desc := ds (4 + adr 0x80100F8 8 + adr 0x55 16)
def sQ (x : Desc) : State := q7 { cur := some x }
def sRef (n : Nat) : State := q7 { fetch := .backoff n 20000000 }
def sRefC (n : Nat) : State := q7 { fetch := .backoff n 20000000, courier := some 3 }
def dRef (n : Nat) : Dev := (sRef n).dev.giveCourier 7 0
def s128 : State := st ((qDev.setFld Fld.QUEUE_CTRL_DSIZE 7 1).setQueue 7 { courier := some 0 })
/-- The bytes of a NOP slot arrive for courier 0. -/
def msSlot (bad : BitVec 4) : Msg := { kind := .data, agent := .courier 0, tag := 40, line := 0x82000, sects := 1, data := 0x258000, poison := bad }
def sGot (m : Msg) (n : Nat) : State :=
  st { qDev.setQueue 7 { courier := some 0, fetch := .read n [(40, 0)] 0 } with weave := { msgs := [m] } }
def sTwo (pa pb sa sb : Nat) : State :=
  let q9 := (((((qDev.setFld Fld.QUEUE_BIND_VALID 9 1).setFld Fld.QUEUE_CTRL_ENABLE 9 1).setFld Fld.SQ_TAIL_TAIL 9 1).setFld
    Fld.QUEUE_CTRL_PRIO 7 pa).setFld Fld.QUEUE_CTRL_PRIO 9 pb)
  st ((q9.setQueue 7 { served := sa }).setQueue 9 { served := sb })
def winDev (b : Nat) : State := st (((memDev.setFld Fld.HEAD_STATUS_PERSONALITY 0 2).setFld Fld.WINDOW_BASE_BASE 0 b).setHead 0 { up := true, mse := true, bme := true })
/-- A LAUNCH of looms 5 and 6 in group 1, entry 0x1000. -/
def xLa : Desc := ds (6 + adr 0x4000000000001000 8 + adr 0x99 16 + adr 5 24 + adr 2 26 + adr 0x81 28)
def tilesUp (d : Dev) : Dev := { d.setFld Fld.TILE_STATE_STATE 0 3 with loomWing := [(5, 0), (6, 0)] }
def xBits : Desc := { xLa with bytes := by_ (6 + adr 0x1000 8 + adr 0x8010040 32), pos := 0x40 }
def sLa (d : Dev) : State := st (d.setQueue 7 { cur := some xLa })
def laD : Dev := tilesUp qDev
def xWait : Desc := { xLa with looms := [5, 6], phase := .launchWait }
def sLaW : State := st (laD.setQueue 7 { cur := some xWait })
def xReg : Desc := ds (7 + adr 3 8)
def regD (n st : Nat) : Dev := (qDev.setFld Fld.WING_RES_REGION_COUNT 0 n).setRgState 3 st
def sReg (n st_ : Nat) : State := st ((regD n st_).setQueue 7 { cur := some xReg })
def xDone : Desc := { ds 0 with phase := .issued }
def xRec : Desc := { ds (0x1000 + adr 0x77 4) with phase := .issued }
def sDone (x : Desc) : State := q7 { rest := [x] }
def sFullR : State := st ((qDev.setFld Fld.CQ_TAIL_TAIL 7 63).setQueue 7 { rest := [xRec] })

/-- What a QUEUE_CTRL write of all ones makes of queue 7's fields. -/
def qAll (d : Dev) : Dev :=
  let e := if d.fld Fld.QUEUE_CTRL_ENABLE 7 = 0 then d.setFld Fld.QUEUE_CTRL_DSIZE 7 1 else d
  ((e.setFld Fld.QUEUE_CTRL_PRIO 7 (min 3 (e.fld Fld.WING_RES_PRIO_MAX (e.qWing 7)))).setFld Fld.QUEUE_CTRL_ERR_IRQ 7 1).setFld
    Fld.QUEUE_CTRL_VECTOR 7 255
def qBases (e : Dev) : Bool :=
  e.baseOk 7 (e.fld Fld.SQ_BASE_KIND 7) (e.fld Fld.SQ_BASE_HEAD 7) (e.fld Fld.SQ_BASE_ADDR 7) true &&
  e.baseOk 7 (e.fld Fld.CQ_BASE_KIND 7) (e.fld Fld.CQ_BASE_HEAD 7) (e.fld Fld.CQ_BASE_ADDR 7) true &&
  e.baseOk 7 (e.fld Fld.CPL_FLAG_KIND 7) (e.fld Fld.CPL_FLAG_HEAD 7) (e.fld Fld.CPL_FLAG_ADDR 7 / 512) false

theorem w_QueueRegistersAndWindow_1 :
    (q7 { : CQueue }).dev.live = true ∧ (q7 { : CQueue }).dev.Writes 0 Block.doorbell 7 ∧ (q7 { : CQueue }).dev.sqSize 7 ≤ 64 ∧
    63 < (q7 { : CQueue }).dev.sqSize 7 ∧ ((q7 { : CQueue }).dev.queue 7).fetch ≠ QFetch.doorbell ∧
    (q7 { fetch := QFetch.doorbell : CQueue }).dev.live = true ∧
    (q7 { fetch := QFetch.doorbell : CQueue }).dev.Writes 0 Block.doorbell 7 ∧
    63 < (q7 { fetch := QFetch.doorbell : CQueue }).dev.sqSize 7 ∧
    ((q7 { fetch := QFetch.doorbell : CQueue }).dev.queue 7).fetch = QFetch.doorbell ∧ qOff.dev.live = true ∧
    qOff.dev.Writes 0 Block.doorbell 7 ∧ BitVec.getLsbD (4294967295 : BitVec 64) 31 = true ∧
    qOff.dev.fld Fld.QUEUE_CTRL_ENABLE 7 = 0 ∧ ((qAll qOff.dev).fld Fld.QUEUE_BIND_VALID 7 = 1 ∧ qBases (qAll qOff.dev) = true) := by
  unfold Dev.Writes; decide +kernel

theorem w_QueueRegistersAndWindow_2 :
    qBad.dev.live = true ∧ qBad.dev.Writes 0 Block.doorbell 7 ∧ BitVec.getLsbD (4294967295 : BitVec 64) 31 = true ∧
    qBad.dev.fld Fld.QUEUE_CTRL_ENABLE 7 = 0 ∧ (¬((qAll qBad.dev).fld Fld.QUEUE_BIND_VALID 7 = 1 ∧ qBases (qAll qBad.dev) = true)) ∧
    (q7 { : CQueue }).dev.live = true ∧ (q7 { : CQueue }).dev.Writes 0 Block.doorbell 7 ∧
    BitVec.getLsbD (0 : BitVec 64) 31 = false ∧ (q7 { : CQueue }).dev.fld Fld.QUEUE_CTRL_ENABLE 7 = 1 ∧
    ((q7 { : CQueue }).dev.queue 7).cur = none ∧ ((q7 { : CQueue }).dev.queue 7).courier = none ∧
    (q7 { : CQueue }).dev.Writes 0 Block.headCtl 0 ∧ (winDev 0).dev.live = true ∧ (winDev 0).dev.served 0 = true ∧
    (winDev 0).dev.barsOn 0 = true := by
  unfold Dev.Writes; decide +kernel

theorem w_QueueRegistersAndWindow_3 :
    (winDev 4194303).dev.live = true ∧ (winDev 4194303).dev.served 0 = true ∧ (winDev 4194303).dev.barsOn 0 = true ∧
    (winDev 4194303).dev.frozen 0 = false ∧ ((winDev 4194303).dev.head 0).bar2Q = [] ∧
    (((winDev 4194303).dev.head 0).mem.any fun x ↦ x.bar2) = false ∧
    (winDev 4194303).dev.windowOff ((winDev 4194303).dev.fld Fld.WINDOW_BASE_BASE 0) = true ∧ (winDev 4).dev.live = true ∧
    (winDev 4).dev.served 0 = true ∧ (winDev 4).dev.barsOn 0 = true ∧ (winDev 4).dev.frozen 0 = false ∧
    ((winDev 4).dev.head 0).bar2Q = [] ∧ (((winDev 4).dev.head 0).mem.any fun x ↦ x.bar2) = false ∧
    (winDev 4).dev.windowOff ((winDev 4).dev.fld Fld.WINDOW_BASE_BASE 0) = false ∧
    (winDev 4).dev.wingMay ((winDev 4).dev.headWing 0) ((winDev 4).dev.fld Fld.WINDOW_BASE_BASE 0 * 64 * MiB + 536870911) = false ∧
    ((winDev 4).dev.fld Fld.WINDOW_BASE_BASE 0 * 64 * MiB + 536870911) % 256 + 1 ≤ 256 ∧ (winDev 0).dev.live = true ∧
    (winDev 0).dev.served 0 = true ∧ (winDev 0).dev.barsOn 0 = true ∧ (winDev 0).dev.frozen 0 = false ∧
    ((winDev 0).dev.head 0).bar2Q = [] ∧ (((winDev 0).dev.head 0).mem.any fun x ↦ x.bar2) = false ∧
    (winDev 0).dev.windowOff ((winDev 0).dev.fld Fld.WINDOW_BASE_BASE 0) = false ∧
    (winDev 0).dev.wingMay ((winDev 0).dev.headWing 0) ((winDev 0).dev.fld Fld.WINDOW_BASE_BASE 0 * 64 * MiB + 134283328) = true := by
  decide +kernel

theorem w_SlotFetches_1 :
    (sTwo 1 2 0 9).dev.live = true ∧
    ((sTwo 1 2 0 9).dev.freeCourier 0 false = some 0 ∨ (sTwo 1 2 0 9).dev.freeCourier 0 false = none ∧ (sTwo 1 2 0 9).dev.freeCourier 0 true = some 0) ∧
    List.filter ((sTwo 1 2 0 9).dev.qWaits 0) (List.range 512) = [7, 9] ∧
    (sTwo 1 2 0 9).dev.fld Fld.QUEUE_CTRL_PRIO 7 < (sTwo 1 2 0 9).dev.fld Fld.QUEUE_CTRL_PRIO 9 ∧ (sTwo 2 1 9 0).dev.live = true ∧
    ((sTwo 2 1 9 0).dev.freeCourier 0 false = some 0 ∨ (sTwo 2 1 9 0).dev.freeCourier 0 false = none ∧ (sTwo 2 1 9 0).dev.freeCourier 0 true = some 0) ∧
    List.filter ((sTwo 2 1 9 0).dev.qWaits 0) (List.range 512) = [7, 9] ∧
    (sTwo 2 1 9 0).dev.fld Fld.QUEUE_CTRL_PRIO 9 < (sTwo 2 1 9 0).dev.fld Fld.QUEUE_CTRL_PRIO 7 ∧ (sTwo 2 2 9 8).dev.live = true ∧
    ((sTwo 2 2 9 8).dev.freeCourier 0 false = some 0 ∨ (sTwo 2 2 9 8).dev.freeCourier 0 false = none ∧ (sTwo 2 2 9 8).dev.freeCourier 0 true = some 0) ∧
    List.filter ((sTwo 2 2 9 8).dev.qWaits 0) (List.range 512) = [7, 9] ∧
    (sTwo 2 2 9 8).dev.fld Fld.QUEUE_CTRL_PRIO 7 = (sTwo 2 2 9 8).dev.fld Fld.QUEUE_CTRL_PRIO 9 ∧
    ((sTwo 2 2 9 8).dev.queue 9).served < ((sTwo 2 2 9 8).dev.queue 7).served ∧ (sTwo 2 2 8 9).dev.live = true ∧
    ((sTwo 2 2 8 9).dev.freeCourier 0 false = some 0 ∨ (sTwo 2 2 8 9).dev.freeCourier 0 false = none ∧ (sTwo 2 2 8 9).dev.freeCourier 0 true = some 0) ∧
    List.filter ((sTwo 2 2 8 9).dev.qWaits 0) (List.range 512) = [7, 9] ∧
    (sTwo 2 2 8 9).dev.fld Fld.QUEUE_CTRL_PRIO 7 = (sTwo 2 2 8 9).dev.fld Fld.QUEUE_CTRL_PRIO 9 ∧
    ((sTwo 2 2 8 9).dev.queue 7).served ≤ ((sTwo 2 2 8 9).dev.queue 9).served ∧ (q7 { courier := some 0 : CQueue }).dev.live = true ∧
    ((q7 { courier := some 0 : CQueue }).dev.queue 7).cur = none ∧ (q7 { courier := some 0 : CQueue }).dev.qReady 7 = true ∧
    (((q7 { courier := some 0 }).dev.queue 7).courier = some 0 ∧ ((q7 { courier := some 0 }).dev.queue 7).fetch = QFetch.idle) ∧
    (q7 { courier := some 0 : CQueue }).dev.fld Fld.SQ_BASE_KIND 7 = 0 ∧
    (q7 { courier := some 0 : CQueue }).dev.wingMay ((q7 { courier := some 0 : CQueue }).dev.qWing 7) ((q7 { courier := some 0 : CQueue }).dev.fld Fld.SQ_BASE_ADDR 7 * 4096 + (q7 { courier := some 0 : CQueue }).dev.fld Fld.SQ_HEAD_HEAD 7 * (q7 { courier := some 0 : CQueue }).dev.slotBytes 7) = true ∧
    (q7 { courier := some 0 : CQueue }).dev.range ((q7 { courier := some 0 : CQueue }).dev.fld Fld.SQ_BASE_ADDR 7 * 4096 + (q7 { courier := some 0 : CQueue }).dev.fld Fld.SQ_HEAD_HEAD 7 * (q7 { courier := some 0 : CQueue }).dev.slotBytes 7) = Range.memory ∧
    (q7 { courier := some 0 : CQueue }).dev.fld Fld.QUEUE_CTRL_DSIZE 7 ≠ 1 := by
  decide +kernel

theorem w_SlotFetches_2 :
    (sRef 7).dev.live = true ∧ ((sRef 7).dev.queue 7).cur = none ∧ (sRef 7).dev.qReady 7 = true ∧
    ((sRef 7).dev.freeCourier ((sRef 7).dev.qXdie 7) false = some 0 ∧ ((sRef 7).dev.queue 7).fetch = QFetch.backoff 7 (sRef 7).dev.tick) ∧
    (dRef 7).fld Fld.SQ_BASE_KIND 7 = 0 ∧
    (dRef 7).wingMay ((dRef 7).qWing 7) ((dRef 7).fld Fld.SQ_BASE_ADDR 7 * 4096 + (dRef 7).fld Fld.SQ_HEAD_HEAD 7 * (dRef 7).slotBytes 7) = true ∧
    (dRef 7).range ((dRef 7).fld Fld.SQ_BASE_ADDR 7 * 4096 + (dRef 7).fld Fld.SQ_HEAD_HEAD 7 * (dRef 7).slotBytes 7) = Range.memory ∧
    (dRef 7).fld Fld.QUEUE_CTRL_DSIZE 7 ≠ 1 ∧ (sRefC 7).dev.live = true ∧ ((sRefC 7).dev.queue 7).cur = none ∧
    (sRefC 7).dev.qReady 7 = true ∧
    ((sRef 8).dev.freeCourier ((sRef 8).dev.qXdie 7) false = some 0 ∧ ((sRef 8).dev.queue 7).fetch = QFetch.backoff 8 (sRef 8).dev.tick) ∧
    (sRefC 7).dev.fld Fld.SQ_BASE_KIND 7 = 0 ∧
    (sRefC 7).dev.wingMay ((sRefC 7).dev.qWing 7) ((sRefC 7).dev.fld Fld.SQ_BASE_ADDR 7 * 4096 + (sRefC 7).dev.fld Fld.SQ_HEAD_HEAD 7 * (sRefC 7).dev.slotBytes 7) = true ∧
    (sRefC 7).dev.range ((sRefC 7).dev.fld Fld.SQ_BASE_ADDR 7 * 4096 + (sRefC 7).dev.fld Fld.SQ_HEAD_HEAD 7 * (sRefC 7).dev.slotBytes 7) = Range.memory ∧
    (sRefC 7).dev.fld Fld.QUEUE_CTRL_DSIZE 7 ≠ 1 ∧ s128.dev.live = true ∧ (s128.dev.queue 7).cur = none ∧
    s128.dev.qReady 7 = true ∧
    (((q7 { courier := some 0 }).dev.queue 7).courier = some 0 ∧ ((q7 { courier := some 0 }).dev.queue 7).fetch = QFetch.idle) ∧
    s128.dev.fld Fld.SQ_BASE_KIND 7 = 0 ∧
    s128.dev.wingMay (s128.dev.qWing 7) (s128.dev.fld Fld.SQ_BASE_ADDR 7 * 4096 + s128.dev.fld Fld.SQ_HEAD_HEAD 7 * s128.dev.slotBytes 7) = true ∧
    s128.dev.range (s128.dev.fld Fld.SQ_BASE_ADDR 7 * 4096 + s128.dev.fld Fld.SQ_HEAD_HEAD 7 * s128.dev.slotBytes 7) = Range.memory ∧
    s128.dev.fld Fld.QUEUE_CTRL_DSIZE 7 = 1 := by
  decide +kernel

theorem w_SlotFetches_3 :
    (sGot (msSlot 1) 7).dev.live = true ∧ (msSlot 1).kind = MsgKind.data ∧ (sGot (msSlot 1) 7).dev.arrives (msSlot 1) = true ∧
    (msSlot 1).agent = Agent.courier 0 ∧
    (∀ p ∈ ((sGot (msSlot 1) 7).dev.takeMsg (msSlot 1)).queues, (∀ o ∈ p.2.outs, o.tag ≠ (msSlot 1).tag) ∧ ∀ y ∈ p.2.rest, y.phase ≠ DPhase.record (some (msSlot 1).tag) ∧ y.phase ≠ DPhase.flag (some (msSlot 1).tag)) ∧
    List.find?     (fun p ↦       match p.2.fetch with       | QFetch.read n ts got => ts.any fun t ↦ decide (t.1 = (msSlot 1).tag)       | x => false)     ((sGot (msSlot 1) 7).dev.takeMsg (msSlot 1)).queues =   some (7, ((sGot (msSlot 1) 7).dev.takeMsg (msSlot 1)).queue 7) ∧
    (((sGot (msSlot 1) 7).dev.takeMsg (msSlot 1)).queue 7).fetch = QFetch.read 7 [((msSlot 1).tag, 0)] 0 ∧
    ((msSlot 1).poison ≠ 0 ∨ slotPasses (List.map (fun i ↦ BitVec.ofNat 8 ((0 + List.foldl (fun v k ↦ v ||| BitVec.toNat (Line.sector (msSlot 1).data k)) 0 (List.range 4) * 2 ^ (8 * 0)) / 256 ^ i)) (List.range (((sGot (msSlot 1) 7).dev.takeMsg (msSlot 1)).slotBytes 7))) (decide (((sGot (msSlot 1) 7).dev.takeMsg (msSlot 1)).fld Fld.QUEUE_STATUS_EXPECT_PHASE 7 = 1)) = false) ∧
    (sGot (msSlot 1) 8).dev.live = true ∧ (sGot (msSlot 1) 8).dev.arrives (msSlot 1) = true ∧
    (∀ p ∈ ((sGot (msSlot 1) 8).dev.takeMsg (msSlot 1)).queues, (∀ o ∈ p.2.outs, o.tag ≠ (msSlot 1).tag) ∧ ∀ y ∈ p.2.rest, y.phase ≠ DPhase.record (some (msSlot 1).tag) ∧ y.phase ≠ DPhase.flag (some (msSlot 1).tag)) ∧
    List.find?     (fun p ↦       match p.2.fetch with       | QFetch.read n ts got => ts.any fun t ↦ decide (t.1 = (msSlot 1).tag)       | x => false)     ((sGot (msSlot 1) 8).dev.takeMsg (msSlot 1)).queues =   some (7, ((sGot (msSlot 1) 8).dev.takeMsg (msSlot 1)).queue 7) ∧
    (((sGot (msSlot 1) 8).dev.takeMsg (msSlot 1)).queue 7).fetch = QFetch.read 8 [((msSlot 1).tag, 0)] 0 ∧
    ((msSlot 1).poison ≠ 0 ∨ slotPasses (List.map (fun i ↦ BitVec.ofNat 8 ((0 + List.foldl (fun v k ↦ v ||| BitVec.toNat (Line.sector (msSlot 1).data k)) 0 (List.range 4) * 2 ^ (8 * 0)) / 256 ^ i)) (List.range (((sGot (msSlot 1) 8).dev.takeMsg (msSlot 1)).slotBytes 7))) (decide (((sGot (msSlot 1) 8).dev.takeMsg (msSlot 1)).fld Fld.QUEUE_STATUS_EXPECT_PHASE 7 = 1)) = false) ∧
    (sGot (msSlot 0) 0).dev.live = true ∧ (msSlot 0).kind = MsgKind.data ∧ (sGot (msSlot 0) 0).dev.arrives (msSlot 0) = true ∧
    (msSlot 0).agent = Agent.courier 0 ∧
    (∀ p ∈ ((sGot (msSlot 0) 0).dev.takeMsg (msSlot 0)).queues, (∀ o ∈ p.2.outs, o.tag ≠ (msSlot 0).tag) ∧ ∀ y ∈ p.2.rest, y.phase ≠ DPhase.record (some (msSlot 0).tag) ∧ y.phase ≠ DPhase.flag (some (msSlot 0).tag)) ∧
    List.find?     (fun p ↦       match p.2.fetch with       | QFetch.read n ts got => ts.any fun t ↦ decide (t.1 = (msSlot 0).tag)       | x => false)     ((sGot (msSlot 0) 0).dev.takeMsg (msSlot 0)).queues =   some (7, ((sGot (msSlot 0) 0).dev.takeMsg (msSlot 0)).queue 7) ∧
    (((sGot (msSlot 0) 0).dev.takeMsg (msSlot 0)).queue 7).fetch = QFetch.read 0 [((msSlot 0).tag, 0)] 0 ∧ (msSlot 0).poison = 0 ∧
    slotPasses (List.map (fun i ↦ BitVec.ofNat 8 ((0 + List.foldl (fun v k ↦ v ||| BitVec.toNat (Line.sector (msSlot 0).data k)) 0 (List.range 4) * 2 ^ (8 * 0)) / 256 ^ i)) (List.range (((sGot (msSlot 0) 0).dev.takeMsg (msSlot 0)).slotBytes 7))) (decide (((sGot (msSlot 0) 0).dev.takeMsg (msSlot 0)).fld Fld.QUEUE_STATUS_EXPECT_PHASE 7 = 1)) = true ∧
    ((sGot (msSlot 0) 0).dev.takeMsg (msSlot 0)).descOutbound 7 { id := ((sGot (msSlot 0) 0).dev.takeMsg (msSlot 0)).opSeq, slot := ((sGot (msSlot 0) 0).dev.takeMsg (msSlot 0)).fld Fld.SQ_HEAD_HEAD 7, bytes := List.map (fun i ↦ BitVec.ofNat 8 ((0 + List.foldl (fun v k ↦ v ||| BitVec.toNat (Line.sector (msSlot 0).data k)) 0 (List.range 4) * 2 ^ (8 * 0)) / 256 ^ i)) (List.range (((sGot (msSlot 0) 0).dev.takeMsg (msSlot 0)).slotBytes 7)), courier := 0 : Desc } = some false ∧
    (((sGot (msSlot 0) 0).dev.takeMsg (msSlot 0)).setQueue 7 { ((sGot (msSlot 0) 0).dev.takeMsg (msSlot 0)).queue 7 with courier := ({} : CQueue).courier, fetch := ({} : CQueue).fetch }).freeCourier (((sGot (msSlot 0) 0).dev.takeMsg (msSlot 0)).qXdie 7) false = some 0 ∧
    (((sGot (msSlot 0) 0).dev.takeMsg (msSlot 0)).fld Fld.SQ_HEAD_HEAD 7 + 1) % ((sGot (msSlot 0) 0).dev.takeMsg (msSlot 0)).sqSize 7 ≠ 0 := by
  decide +kernel

theorem w_DataDescriptors_1 :
    (∀ o ∈ ((sQ xNopBad).dev.queue 7).outs, o.own = xNopBad.id → o.read = false ∧ o.clear = false) ∧
    (sQ xNopBad).Runs 7 0 xNopBad ∧ xNopBad.begun = false ∧
    ((sQ xNopBad).dev.descOk ((sQ xNopBad).dev.qWing 7) xNopBad && (sQ xNopBad).dev.placesOk 7 xNopBad) = false ∧
    (∀ o ∈ ((sQ xNop).dev.queue 7).outs, o.own = xNop.id → o.read = false ∧ o.clear = false) ∧ (sQ xNop).Runs 7 0 xNop ∧
    xNop.begun = false ∧ (sQ xNop).dev.descOk ((sQ xNop).dev.qWing 7) xNop = true ∧ (xNop.pos ≠ 0 ∨ outbound xNop.courier = false) := by
  unfold State.Runs; decide +kernel

theorem w_DataDescriptors_2 :
    (∀ o ∈ ((sQ xCopy).dev.queue 7).outs, o.own = xCopy.id → o.read = false ∧ o.clear = false) ∧
    (sQ xCopy).dev.courierCount xCopy.courier true < 128 ∧ (sQ xCopy).dev.Lands 7 xCopy (xCopy.num 8 8) false 134283584 false ∧
    (sQ xCopy).dev.Lands 7 xCopy (xCopy.num 16 8) true 134349184 false ∧ (sQ xCopy).Performs 7 1 xCopy := by
  unfold State.Performs State.Runs Dev.Lands; decide +kernel

theorem w_DataDescriptors_3 :
    (∀ o ∈ ((sQ xRed).dev.queue 7).outs, o.own = xRed.id → o.read = false ∧ o.clear = false) ∧
    (sQ xRed).dev.courierCount xRed.courier true < 128 ∧ (sQ xRed).dev.Lands 7 xRed (xRed.num 8 8) false 134283328 false ∧
    (sQ xRed).dev.Lands 7 xRed (xRed.num 16 8) true 17592320393344 true ∧ (sQ xRed).Performs 7 5 xRed ∧
    (sQ xRed).dev.populated 134283328 = true := by
  unfold State.Performs State.Runs Dev.Lands; decide +kernel

theorem w_DataDescriptors_4 :
    (∀ o ∈ ((sQ xInl).dev.queue 7).outs, o.own = xInl.id → o.read = false ∧ o.clear = false) ∧
    (sQ xInl).dev.courierCount xInl.courier false < 128 ∧ (sQ xInl).dev.Lands 7 xInl (xInl.num 8 8) true 134283512 false ∧
    xInl.len - xInl.pos ≤ 256 - 134283512 % 256 ∧ (sQ xInl).Performs 7 2 xInl := by
  unfold State.Performs State.Runs Dev.Lands; decide +kernel

theorem w_DataDescriptors_5 :
    (∀ o ∈ ((sQ xFill).dev.queue 7).outs, o.own = xFill.id → o.read = false ∧ o.clear = false) ∧
    (sQ xFill).dev.courierCount xFill.courier false < 128 ∧ (sQ xFill).dev.Lands 7 xFill (xFill.num 8 8) true 134283313 false ∧
    xFill.len - xFill.pos ≤ 256 - 134283313 % 256 ∧ (sQ xFill).Performs 7 3 xFill := by
  unfold State.Performs State.Runs Dev.Lands; decide +kernel

theorem w_DataDescriptors_6 :
    (∀ o ∈ ((sQ xFlag).dev.queue 7).outs, o.own = xFlag.id → o.read = false ∧ o.clear = false) ∧
    (sQ xFlag).dev.courierCount xFlag.courier false < 128 ∧ (sQ xFlag).dev.Lands 7 xFlag (xFlag.num 8 8) true 134283512 false ∧
    xFlag.len - xFlag.pos ≤ 256 - 134283512 % 256 ∧ (sQ xFlag).Performs 7 4 xFlag := by
  unfold State.Performs State.Runs Dev.Lands; decide +kernel

def c10_32_a_1 := List.filter (fun i ↦ xLa.bits.testBit i) (List.range 4096)
def c10_33_a_1 := sLa (laD.setLoomState 6 stPaused)
def c10_33_a_2 := List.filter (fun i ↦ xLa.bits.testBit i) (List.range 4096)
def c10_33_b_1 := List.filter (fun i ↦ xLa.bits.testBit i) (List.range 4096)
def c10_34_a_1 := List.filter (fun i ↦ xLa.bits.testBit i) (List.range 4096)
def c10_34_b_1 := List.filter (fun i ↦ xLa.bits.testBit i) (List.range 4096)

theorem w_LaunchesAndTriggers_1 :
    (∀ o ∈ ((sLa qDev).dev.queue 7).outs, o.own = xLa.id → o.read = false) ∧ ((sLa qDev).dev.queue 7).fenced xLa = true ∧
    (sLa qDev).Performs 7 6 xLa ∧ (xLa.num 32 8 = 0 ∨ 512 ≤ xLa.pos) ∧
    (if xLa.num 32 8 = 0 then List.map (fun i ↦ BitVec.ofNat 12 (xLa.num 24 2 + i)) (List.range (xLa.num 26 2)) else List.map (BitVec.ofNat 12) (List.filter (fun i ↦ xLa.bits.testBit i) (List.range 4096))) ≠ [] ∧
    ((sLa qDev).dev.setQueue 7 { (sLa qDev).dev.queue 7 with cur := some { xLa with looms := if xLa.num 32 8 = 0 then List.map (fun i ↦ BitVec.ofNat 12 (xLa.num 24 2 + i)) (List.range (xLa.num 26 2)) else List.map (BitVec.ofNat 12) c10_32_a_1 } }).launchRefused ((sLa qDev).dev.qWing 7) (if xLa.num 32 8 = 0 then List.map (fun i ↦ BitVec.ofNat 12 (xLa.num 24 2 + i)) (List.range (xLa.num 26 2)) else List.map (BitVec.ofNat 12) c10_32_a_1) (if (xLa.num 28 1).testBit 7 = true then some (xLa.num 28 1 % 64) else none) = some 1 ∧
    (∀ o ∈ ((sLa (laD.setLoomState 6 stPaused)).dev.queue 7).outs, o.own = xLa.id → o.read = false) ∧
    ((sLa (laD.setLoomState 6 stPaused)).dev.queue 7).fenced xLa = true ∧ (sLa (laD.setLoomState 6 stPaused)).Performs 7 6 xLa ∧
    (c10_33_a_1.dev.setQueue 7 { c10_33_a_1.dev.queue 7 with cur := some { xLa with looms := if xLa.num 32 8 = 0 then List.map (fun i ↦ BitVec.ofNat 12 (xLa.num 24 2 + i)) (List.range (xLa.num 26 2)) else List.map (BitVec.ofNat 12) c10_33_a_2 } }).launchRefused (c10_33_a_1.dev.qWing 7) (if xLa.num 32 8 = 0 then List.map (fun i ↦ BitVec.ofNat 12 (xLa.num 24 2 + i)) (List.range (xLa.num 26 2)) else List.map (BitVec.ofNat 12) c10_33_a_2) (if (xLa.num 28 1).testBit 7 = true then some (xLa.num 28 1 % 64) else none) = none ∧
    (if xLa.num 32 8 = 0 then List.map (fun i ↦ BitVec.ofNat 12 (xLa.num 24 2 + i)) (List.range (xLa.num 26 2)) else List.map (BitVec.ofNat 12) c10_33_b_1).any ((sLa (laD.setLoomState 6 stPaused)).dev.setQueue 7 { (sLa (laD.setLoomState 6 stPaused)).dev.queue 7 with cur := some { xLa with looms := if xLa.num 32 8 = 0 then List.map (fun i ↦ BitVec.ofNat 12 (xLa.num 24 2 + i)) (List.range (xLa.num 26 2)) else List.map (BitVec.ofNat 12) c10_33_b_1 } }).launchBusy = true := by
  unfold State.Performs State.Runs; decide +kernel

theorem w_LaunchesAndTriggers_2 :
    (∀ o ∈ ((sLa laD).dev.queue 7).outs, o.own = xLa.id → o.read = false) ∧ ((sLa laD).dev.queue 7).fenced xLa = true ∧
    (sLa laD).Performs 7 6 xLa ∧ (xLa.num 32 8 = 0 ∨ 512 ≤ xLa.pos) ∧
    (if xLa.num 32 8 = 0 then List.map (fun i ↦ BitVec.ofNat 12 (xLa.num 24 2 + i)) (List.range (xLa.num 26 2)) else List.map (BitVec.ofNat 12) (List.filter (fun i ↦ xLa.bits.testBit i) (List.range 4096))) ≠ [] ∧
    ((sLa laD).dev.setQueue 7 { (sLa laD).dev.queue 7 with cur := some { xLa with looms := if xLa.num 32 8 = 0 then List.map (fun i ↦ BitVec.ofNat 12 (xLa.num 24 2 + i)) (List.range (xLa.num 26 2)) else List.map (BitVec.ofNat 12) c10_34_a_1 } }).launchRefused ((sLa laD).dev.qWing 7) (if xLa.num 32 8 = 0 then List.map (fun i ↦ BitVec.ofNat 12 (xLa.num 24 2 + i)) (List.range (xLa.num 26 2)) else List.map (BitVec.ofNat 12) c10_34_a_1) (if (xLa.num 28 1).testBit 7 = true then some (xLa.num 28 1 % 64) else none) = none ∧
    (if xLa.num 32 8 = 0 then List.map (fun i ↦ BitVec.ofNat 12 (xLa.num 24 2 + i)) (List.range (xLa.num 26 2)) else List.map (BitVec.ofNat 12) c10_34_b_1).any ((sLa laD).dev.setQueue 7 { (sLa laD).dev.queue 7 with cur := some { xLa with looms := if xLa.num 32 8 = 0 then List.map (fun i ↦ BitVec.ofNat 12 (xLa.num 24 2 + i)) (List.range (xLa.num 26 2)) else List.map (BitVec.ofNat 12) c10_34_b_1 } }).launchBusy = false ∧
    (∀ o ∈ ((sQ xBits).dev.queue 7).outs, o.own = xBits.id → o.read = false) ∧ ((sQ xBits).dev.queue 7).fenced xBits = true ∧
    (sQ xBits).Performs 7 6 xBits ∧ xBits.num 32 8 ≠ 0 ∧ xBits.pos < 512 ∧
    (sQ xBits).dev.wingMay ((sQ xBits).dev.qWing 7) (xBits.num 32 8 + xBits.pos) = true ∧
    (sQ xBits).dev.range (xBits.num 32 8 + xBits.pos) = Range.memory := by
  unfold State.Performs State.Runs; decide +kernel

theorem w_LaunchesAndTriggers_3 :
    (∀ o ∈ ((sReg 3 1).dev.queue 7).outs, o.own = xReg.id → o.read = false) ∧ ((sReg 3 1).dev.queue 7).fenced xReg = true ∧
    (sReg 3 1).Performs 7 7 xReg ∧ (sReg 3 1).dev.regionWing (xReg.num 8 2) ≠ (sReg 3 1).dev.qWing 7 ∧
    (∀ o ∈ ((sReg 4 2).dev.queue 7).outs, o.own = xReg.id → o.read = false) ∧ ((sReg 4 2).dev.queue 7).fenced xReg = true ∧
    (sReg 4 2).Performs 7 7 xReg ∧ (sReg 4 2).dev.regionWing (xReg.num 8 2) = (sReg 4 2).dev.qWing 7 ∧
    (sReg 4 2).dev.rgState (xReg.num 8 2) ≠ rgOpen := by
  unfold State.Performs State.Runs; decide +kernel

theorem w_LaunchesAndTriggers_4 :
    (∀ o ∈ ((sReg 4 1).dev.queue 7).outs, o.own = xReg.id → o.read = false) ∧ ((sReg 4 1).dev.queue 7).fenced xReg = true ∧
    (sReg 4 1).Performs 7 7 xReg ∧ (sReg 4 1).dev.regionWing (xReg.num 8 2) = (sReg 4 1).dev.qWing 7 ∧
    (sReg 4 1).dev.rgState (xReg.num 8 2) = rgOpen ∧ sLaW.dev.live = true ∧ (sLaW.dev.queue 7).cur = some xWait ∧
    xWait.phase = DPhase.launchWait ∧
    sLaW.dev.launchRefused (sLaW.dev.qWing 7) xWait.looms (if (xWait.num 28 1).testBit 7 = true then some (xWait.num 28 1 % 64) else none) = none ∧
    xWait.looms.any sLaW.dev.launchBusy = false ∧ laD.fld Fld.TILE_STATE_STATE (loomTile 6) = 3 := by
  unfold State.Performs State.Runs; decide +kernel

theorem w_Completions_1 :
    (sDone xDone).dev.live = true ∧ ((sDone xDone).dev.queue 7).cur = none ∧ ((sDone xDone).dev.queue 7).rest = [xDone] ∧
    xDone.phase = DPhase.issued ∧ xDone.status = 0 ∧ xDone.irq = false ∧ xDone.flag = false ∧ xDone.crec = false ∧
    ((sDone xDone).dev.queue 7).final xDone none = true ∧ sFullR.dev.live = true ∧ (sFullR.dev.queue 7).cur = none ∧
    (sFullR.dev.queue 7).rest = [xRec] ∧ xRec.phase = DPhase.issued ∧ (xRec.crec = true ∨ xRec.status ≠ 0) ∧
    (sFullR.dev.queue 7).final xRec (some (sFullR.dev.recPath 7)) = true ∧ sFullR.dev.cqRoom 7 = false ∧
    (sDone xRec).dev.live = true ∧ ((sDone xRec).dev.queue 7).cur = none ∧ ((sDone xRec).dev.queue 7).rest = [xRec] ∧
    ((sDone xRec).dev.queue 7).final xRec (some CPath.device) = true ∧ (sDone xRec).dev.cqRoom 7 = true ∧
    (sDone xRec).dev.recPath 7 = CPath.device ∧ xRec.dropped = false ∧
    (sDone xRec).dev.wingMay ((sDone xRec).dev.qWing 7) ((sDone xRec).dev.fld Fld.CQ_BASE_ADDR 7 * 4096 + 16 * (sDone xRec).dev.fld Fld.CQ_TAIL_TAIL 7) = true ∧
    ((sDone xRec).dev.fld Fld.CQ_TAIL_TAIL 7 + 1) % (sDone xRec).dev.cqSize 7 ≠ 0 ∧
    (sDone { xRec with phase := DPhase.record none }).dev.live = true ∧
    ((sDone { xRec with phase := DPhase.record none }).dev.queue 7).cur = none ∧
    ((sDone { xRec with phase := DPhase.record none }).dev.queue 7).rest = [{ xRec with phase := DPhase.record none }] ∧
    { xRec with phase := DPhase.record none }.phase = DPhase.record none ∧ { xRec with phase := DPhase.record none }.flag = false := by
  decide +kernel

theorem w_Completions_2 :
    (q7 { outs := [{ tag := 1, own := 3, off := 0, len := 8, read := false, path := CPath.peer 2, lostAt := some 19998000 : COut }] : CQueue }).dev.live = true ∧
    ((q7 { outs := [{ tag := 1, own := 3, off := 0, len := 8, read := false, path := CPath.peer 2, lostAt := some 19998000 : COut }] : CQueue }).dev.queue 7).cur = none := by
  decide +kernel

/-! ### The host port -/

/-- Head 0 carries CXL; its decoder 0 maps HPA 0x1000_0000 to DPA 0 of wing 0. -/
def hdm0 : Hdm := { committed := true, base := 0x10000000, size := 0x10000000 }
def cxlDev (x : Head) : Dev :=
  ((memDev.setFld Fld.HEAD_STATUS_PERSONALITY 0 2).setFld Fld.HDM_DPA_VALID 0 1).setHead 0
    { x with up := true, cxl := true, mse := true, hdm := [(0, hdm0)] }
def sCxl : State := st (cxlDev { bme := true })
def sFrz : State := st ((cxlDev { bme := true }).setFld Fld.HEAD_STATUS_FROZEN 0 1)
def sSweep : State := st { cxlDev { bme := true } with weave := { sweeping := 1 } }
def sOwn : State := st { cxlDev { bme := true } with weave := { cat := [(0x80000, ({} : CatEnt).setSec 1 ⟨.excl, 4096⟩)] } }
def snH : Snoop := { tgt := .agent 4096, kind := .recallKeep, line := 0x80000, sects := 2, deadline := 20000000 }
def txH : Txn := { req := { rq .readShared with sects := 2 }, phase := .snoop, waits := [snH], todo := 2 }
def sOwnSn : State := st { sOwn.dev with weave := { sOwn.dev.weave with txns := [(0x80000, txH)] } }
def hr (op : HostOp) : HostReq := { tag := 77, op := op, src := .treadle 5, addr := 0x9040 }
def sGo (op : HostOp) : State := st (cxlDev { bme := true, outs := [hr op] })
def sHd (x : Head) : State := st (cxlDev x)
def sInta : State := st (((cxlDev { bme := true, inta := true, rrs := false }).setFld Fld.HEAD_INT_PENDING_PEND 0 3))
def sWaiting : State := sHd { waiting := [hr .rdCurr], rrs := false }
def sOne : State := st (cxlDev { bme := true })
def sFlr : State := st ((cxlDev { bme := true }).setFld Fld.HEAD_STATUS_FLR_ACTIVE 0 1)
def sDown : State := st ((cxlDev {}).setHead 0 {})
def sSwp : State := st { cxlDev {} with weave := { absent := 1, sweeping := 1, cat := [(0x80000, ({} : CatEnt).setSec 1 ⟨.excl, 4096⟩)] } }
def hpa0 : BitVec 64 := 0x18000040

theorem w_HostMemoryRequests_1 :
    sFrz.dev.live = true ∧ sFrz.dev.memHead 0 = true ∧
    ((if true = true then sFrz.dev.rasEvent 0 false 5 else sFrz.dev).frozen 0 = true ∨ (if true = true then sFrz.dev.rasEvent 0 false 5 else sFrz.dev).hdmDpa 0 hpa0.toNat = none) ∧
    sCxl.dev.live = true ∧ sCxl.dev.memHead 0 = true ∧
    ((if false = true then sCxl.dev.rasEvent 0 false 5 else sCxl.dev).frozen 0 = true ∨ (if false = true then sCxl.dev.rasEvent 0 false 5 else sCxl.dev).hdmDpa 0 536870912 = none) ∧
    sOwnSn.dev.live = true ∧ sOwnSn.dev.memHead 0 = true ∧
    (if true = true then sOwnSn.dev.rasEvent 0 false 5 else sOwnSn.dev).frozen 0 = false ∧
    (if true = true then sOwnSn.dev.rasEvent 0 false 5 else sOwnSn.dev).hdmDpa 0 hpa0.toNat = some 134217792 ∧
    ((((if true = true then sOwnSn.dev.rasEvent 0 false 5 else sOwnSn.dev).ent (134217792 / 256)).sec (134217792 / 64 % 4)).st = DirSt.excl ∧ (((if true = true then sOwnSn.dev.rasEvent 0 false 5 else sOwnSn.dev).ent (134217792 / 256)).sec (134217792 / 64 % 4)).owner = 4096 + 0) ∧
    (if true = true then sOwnSn.dev.rasEvent 0 false 5 else sOwnSn.dev).snoopOpen 0 (134217792 / 256) (134217792 / 64 % 4) = true ∧
    sOwn.dev.live = true ∧ sOwn.dev.memHead 0 = true ∧
    (if true = true then sOwn.dev.rasEvent 0 false 5 else sOwn.dev).frozen 0 = false ∧
    (if true = true then sOwn.dev.rasEvent 0 false 5 else sOwn.dev).hdmDpa 0 hpa0.toNat = some 134217792 ∧
    (¬((((if true = true then sOwn.dev.rasEvent 0 false 5 else sOwn.dev).ent (134217792 / 256)).sec (134217792 / 64 % 4)).st = DirSt.excl ∧ (((if true = true then sOwn.dev.rasEvent 0 false 5 else sOwn.dev).ent (134217792 / 256)).sec (134217792 / 64 % 4)).owner = 4096 + 0) ∨ (if true = true then sOwn.dev.rasEvent 0 false 5 else sOwn.dev).snoopOpen 0 (134217792 / 256) (134217792 / 64 % 4) = false) ∧
    (if false = true then sCxl.dev.rasEvent 0 false 5 else sCxl.dev).frozen 0 = false ∧
    (if false = true then sCxl.dev.rasEvent 0 false 5 else sCxl.dev).hdmDpa 0 hpa0.toNat = some 134217792 ∧
    (¬((((if false = true then sCxl.dev.rasEvent 0 false 5 else sCxl.dev).ent (134217792 / 256)).sec (134217792 / 64 % 4)).st = DirSt.excl ∧ (((if false = true then sCxl.dev.rasEvent 0 false 5 else sCxl.dev).ent (134217792 / 256)).sec (134217792 / 64 % 4)).owner = 4096 + 0) ∨ (if false = true then sCxl.dev.rasEvent 0 false 5 else sCxl.dev).snoopOpen 0 (134217792 / 256) (134217792 / 64 % 4) = false) ∧
    sFrz.dev.frozen 0 = true ∧ sCxl.dev.frozen 0 = false ∧ sCxl.dev.hdmDpa 0 536870912 = none ∧
    sCxl.dev.weave.sweeping.getLsbD 0 = false ∧ sCxl.dev.hdmDpa 0 hpa0.toNat = some 134217792 ∧ sSweep.dev.live = true ∧
    sSweep.dev.memHead 0 = true ∧ sSweep.dev.frozen 0 = false ∧ sSweep.dev.hdmDpa 0 hpa0.toNat = some 134217792 ∧
    sSweep.dev.weave.sweeping.getLsbD 0 = true := by
  decide +kernel

theorem w_HostMemoryRequests_2 :
    (sGo HostOp.woWrInv).dev.live = true ∧ (sGo HostOp.woWrInv).dev.memHead 0 = true ∧
    ((sGo HostOp.woWrInv).dev.head 0).outs = [hr HostOp.woWrInv] ∧ (hr HostOp.woWrInv).tag = 77 ∧
    (hr HostOp.woWrInv).op ≠ HostOp.rdCurr ∧ (sGo HostOp.rdCurr).dev.live = true ∧ (sGo HostOp.rdCurr).dev.memHead 0 = true ∧
    ((sGo HostOp.rdCurr).dev.head 0).outs = [hr HostOp.rdCurr] ∧ (hr HostOp.rdCurr).tag = 77 ∧ (hr HostOp.rdCurr).op = HostOp.rdCurr := by
  decide +kernel

theorem w_HeadRegisters_1 :
    (sHd { : Head }).dev.live = true ∧ (sHd { : Head }).dev.served 0 = true ∧ ((sHd { : Head }).dev.head 0).rrs = true ∧
    (sHd { rrs := false : Head }).dev.live = true ∧ (sHd { rrs := false : Head }).dev.served 0 = true ∧
    ((sHd { rrs := false : Head }).dev.head 0).rrs = false ∧ (sHd { rrs := false, uncStatus := 4294967295 : Head }).dev.live = true ∧
    (sHd { rrs := false, uncStatus := 4294967295 : Head }).dev.served 0 = true ∧
    ((sHd { rrs := false, uncStatus := 4294967295 : Head }).dev.head 0).rrs = false ∧ (sHd { : Head }).dev.barsOn 0 = true ∧
    (st ((cxlDev { : Head }).setHead 0 { up := true : Head })).dev.live = true ∧
    (st ((cxlDev { : Head }).setHead 0 { up := true : Head })).dev.served 0 = true ∧
    (st ((cxlDev { : Head }).setHead 0 { up := true : Head })).dev.barsOn 0 = false ∧ (sHd { bme := true : Head }).dev.live = true ∧
    (sHd { bme := true : Head }).dev.served 0 = true ∧ ((sHd { bme := true : Head }).dev.head 0).bme = true ∧
    sWaiting.dev.live = true ∧ sWaiting.dev.served 0 = true ∧ (sWaiting.dev.head 0).bme = false ∧
    (sHd { bmeOff := some 19990000 : Head }).dev.live = true ∧ (sHd { bmeOff := some 19990000 : Head }).dev.served 0 = true ∧
    ((sHd { bmeOff := some 19990000 : Head }).dev.head 0).bmeOff = some 19990000 ∧
    19990000 + 10000 ≤ (sHd { bmeOff := some 19990000 : Head }).dev.tick ∧
    (sHd { bme := true, msixEn := true, msix := [(255, 79228162514264337593543950336)], pba := (↑(1 <<< 255) : BitVec 256) : Head }).dev.live = true ∧
    (sHd { bme := true, msixEn := true, msix := [(255, 79228162514264337593543950336)], pba := (↑(1 <<< 255) : BitVec 256) : Head }).dev.served 0 = true ∧
    ((sHd { bme := true, msixEn := true, msix := [(255, 79228162514264337593543950336)], pba := (↑(1 <<< 255) : BitVec 256) : Head }).dev.head 0).msixEn = true ∧
    (sHd { msiEn := true, msiMask := 3, msiPend := 3 : Head }).dev.live = true ∧
    (sHd { msiEn := true, msiMask := 3, msiPend := 3 : Head }).dev.served 0 = true ∧
    ((sHd { msiEn := true, msiMask := 3, msiPend := 3 : Head }).dev.head 0).msixEn = false := by
  decide +kernel

theorem w_HeadRegisters_2 :
    sInta.dev.live = true ∧ sInta.dev.served 0 = true ∧ sInta.dev.Writes 0 Block.headCtl 0 ∧ (sInta.dev.head 0).inta = true ∧
    ((sInta.dev.dropHalf 0 Crd.HEAD_INT_PENDING 0).clrFld Fld.HEAD_INT_PENDING_PEND 0 3).fld Fld.HEAD_INT_PENDING_PEND 0 = 0 ∧
    ((sInta.dev.dropHalf 0 Crd.HEAD_INT_PENDING 0).clrFld Fld.HEAD_INT_PENDING_PEND 0 2).fld Fld.HEAD_INT_PENDING_PEND 0 ≠ 0 ∧
    (sInta.dev.head 0).intxOff = false ∧ sInta.dev.fld Fld.HEAD_STATUS_FLR_ACTIVE 0 = 0 := by
  unfold Dev.Writes; decide +kernel

theorem w_HeadEvents_1 :
    ((cxlDev { : Head }).head 0).outs = [] ∧ ((cxlDev { : Head }).head 0).waiting = [] ∧
    (∀ q ∈ (cxlDev { : Head }).trans.ats, q.head ≠ 0) ∧ (∀ c ∈ (cxlDev { : Head }).looms, c.2.stb = []) ∧ sOne.dev.live = true ∧
    (sOne.dev.head 0).up = true ∧ sOne.dev.pins.rstN = true ∧ sOne.dev.pins.perstN.getLsbD 0 = true ∧ sOne.dev.pinHeads 0 = [0] ∧
    sOne.dev.served 0 = true ∧ sOne.dev.fld Fld.HEAD_STATUS_FLR_ACTIVE 0 ≠ 1 ∧ sFlr.dev.live = true ∧
    sFlr.dev.fld Fld.HEAD_STATUS_FLR_ACTIVE 0 = 1 ∧ sDown.dev.live = true ∧ sDown.dev.personality 0 ≠ 0 ∧
    (sDown.dev.head 0).up = false ∧ sDown.dev.pins.perstN.getLsbD (0 / 2) = true ∧ sDown.dev.frozen 0 = false ∧
    (16 ≤ 8 ∨ sDown.dev.bifur.getLsbD (0 / 2) = false) ∧ sOne.dev.Writes 0 Block.headCtl 0 ∧ sOne.dev.frozen 0 = false := by
  unfold Dev.Writes; decide +kernel

theorem w_HeadEvents_2 :
    sFrz.dev.live = true ∧ sFrz.dev.Writes 0 Block.headCtl 0 ∧ sFrz.dev.frozen 0 = true ∧
    sFrz.dev.fld Fld.HEAD_STATUS_FREEZE_CAUSE 0 ≠ 1 ∧ sSwp.dev.live = true ∧ sSwp.dev.weave.sweeping.getLsbD 0 = true ∧
    (sSwp.dev.head 0).memWait = [] ∧
    sSwp.dev.weave.cat = [(524288, { : CatEnt }.setSec 1 { st := DirSt.excl, owner := 4096 : DirSec })] ∧
    List.filter (fun j ↦ decide ((({ : CatEnt }.setSec 1 { st := DirSt.excl, owner := 4096 : DirSec }).sec j).st = DirSt.excl) && decide ((({ : CatEnt }.setSec 1 { st := DirSt.excl, owner := 4096 : DirSec }).sec j).owner = 4096 + 0)) (List.range 4) = [1] := by
  unfold Dev.Writes; decide +kernel

/-! ### Ikiquel links and the job group -/

/-- Port 2 is up to peer 3; its partner may reach page 2 for wing 0. -/
def linkDev (p : Port) : Dev :=
  { ((((memDev.setFld Fld.IKQ_PORT_STATE 2 psUp).setFld Fld.IKQ_PORT_PEER 2 3).setFld Fld.IKQ_PORT_LANES_UP 2 255).setFld
      Fld.IKQ_CTRL_AUTO_RETRAIN 0 1).setFld Fld.IKQ_PORT_EPOCH 2 7 with
    ports := [(2, p)], reg := { running := true, windows := [(98304, 0x2000008038001)] } }
def sLink (p : Port) : State := st (linkDev p)
def rdM : PMsg := { opc := opcRd, vc := vcReq, epoch := 7, wing := 1, len := 64, off := 0x40, tag := 5 }
def itR : PItem := { m := rdM, own := some (.treadle 5, 33), since := 20000000 }
def sDn (p : Port) : State := st ((linkDev p).setFld Fld.IKQ_PORT_STATE 2 psDown)
def sWid (p : Port) : State := st ((linkDev p).setFld Fld.IKQ_PORT_STATE 2 psWidth)
def sTrn : State := st (((linkDev {}).setFld Fld.IKQ_PORT_STATE 2 psTraining).setFld Fld.IKQ_CTRL_SELF 0 6)
def rawIdle : BitVec 1984 := flitRaw 0 0 0 1 (7, 0) (7, 0) []
def rawPay : BitVec 1984 := flitRaw 0 0 0 0 (7, 0) (7, 0) []
def fl0 : PFlit := { seq := 9, slots := [], due := 19999999 }
def trn : TrainMsg := { ok := true, self := 3, expects := 6, epoch := 8, lanes := 255 }
def mO : PMsg := { rdM with opc := opcWr, vc := vcOwr, data := 0x77 }
def mW : PMsg := { rdM with opc := opcWrm, vc := vcBwr, mask := 0xF0, data := 0x77 }
def mA : PMsg := { rdM with opc := opcAtom, attr := 1, wide := true, data := 0x5000000000000000C }
def inq (m : PMsg) : State := sLink { inq := [m] }
def rsp (o : BitVec 8) : PMsg := { rdM with opc := o, vc := vcDat, data := 0x1234 }
def sRsp (m : PMsg) (o : BitVec 8) : State := sLink { inq := [m], outs := [{ itR with m := { rdM with opc := o, len := 8 } }] }
def jgM (t : BitVec 4) (v : Nat) : PMsg := { opc := opcJg, vc := vcMgt, epoch := 7, attr := t, len := 16, data := BitVec.ofNat 2048 v }
def jgS (role : Nat) (m : PMsg) (j : JobGroup) : State := st { (linkDev { inq := [m] }).setFld Fld.IKQ_CTRL_JG_ROLE 0 role with jg := j }
def rspO (o : BitVec 8) : PMsg := { rsp o with epoch := 6 }
def itO (o : BitVec 8) : PItem := { itR with m := { rdM with opc := o, len := 8 } }
def rdX : PMsg := { rdM with wing := 2 }
def mAX : PMsg := { mA with wing := 2 }
def mOX : PMsg := { mO with wing := 2 }
def mWX : PMsg := { mW with wing := 2 }

theorem w_LinkFlitsAndTraining_1 :
    (sLink { outs := [itR] : Port }).dev.live = true ∧ (sLink { outs := [itR] : Port }).dev.portUp 2 = true ∧
    (∃ i ∈ ((sLink { outs := [itR] : Port }).dev.port 2).outs, i.since ≤ (sLink { outs := [itR] : Port }).dev.tick) ∧
    (sLink { queue := [itR], starved := [(0, 20000000)] : Port }).dev.live = true ∧
    (sLink { queue := [itR], starved := [(0, 20000000)] : Port }).dev.portUp 2 = true ∧
    (∃ c ∈ ((sLink { queue := [itR], starved := [(0, 20000000)] : Port }).dev.port 2).starved, c.2 ≤ (sLink { queue := [itR], starved := [(0, 20000000)] : Port }).dev.tick) ∧
    (sLink { queue := [itR], starved := [(0, 20000000)] : Port }).dev.portState 2 = psUp ∧ (sLink { : Port }).dev.live = true ∧
    (sLink { : Port }).dev.portUp 2 = true ∧ (fun lo n ↦ (BitVec.extractLsb' lo n rawPay).toNat) 38 2 = 0 ∧
    (fun lo n ↦ (BitVec.extractLsb' lo n rawPay).toNat) 33 3 = 7 ∧ (fun lo n ↦ (BitVec.extractLsb' lo n rawPay).toNat) 21 3 = 7 ∧
    (fun lo n ↦ (BitVec.extractLsb' lo n rawPay).toNat) 36 2 = 0 ∧
    (fun lo n ↦ (BitVec.extractLsb' lo n rawPay).toNat) 52 12 = ((sLink { : Port }).dev.port 2).nextRx.toNat ∧
    ((sLink { : Port }).dev.port 2).rx = [] ∧ (fun lo n ↦ (BitVec.extractLsb' lo n rawIdle).toNat) 38 2 = 0 ∧
    (fun lo n ↦ (BitVec.extractLsb' lo n rawIdle).toNat) 33 3 = 7 ∧ (fun lo n ↦ (BitVec.extractLsb' lo n rawIdle).toNat) 21 3 = 7 ∧
    (fun lo n ↦ (BitVec.extractLsb' lo n rawIdle).toNat) 36 2 = 1 ∧ (sLink { replay := [fl0] : Port }).dev.live = true ∧
    ((sLink { replay := [fl0] : Port }).dev.port 2).replay = [fl0] ∧ (sLink { replay := [fl0] : Port }).dev.portState 2 = psUp ∧
    fl0.due < (sLink { replay := [fl0] : Port }).dev.tick ∧ ((sLink { replay := [fl0] : Port }).dev.port 2).resends < 7 ∧
    ((sLink { replay := [fl0] : Port }).dev.fld Fld.IKQ_PORT_LANES_UP 2).testBit 7 = true ∧
    max 1 ((sLink { replay := [fl0] : Port }).dev.fld Fld.IKQ_CTRL_MIN_LANES 0) ≤ (List.filter (fun i ↦ ((((sLink { replay := [fl0] : Port }).dev.clrFld Fld.IKQ_PORT_LANES_UP 2 (2 ^ 7)).orFld Fld.IKQ_PORT_LANES_BAD 2 (2 ^ 7)).fld Fld.IKQ_PORT_LANES_UP 2).testBit i) (List.range 8)).length ∧
    (sWid { replay := [fl0], starved := [(0, 20000000)], widthAt := 19999999 : Port }).dev.live = true ∧
    (sWid { replay := [fl0], starved := [(0, 20000000)], widthAt := 19999999 : Port }).dev.portState 2 = psWidth ∧
    ((sWid { replay := [fl0], starved := [(0, 20000000)], widthAt := 19999999 : Port }).dev.port 2).replay = [fl0] := by
  decide +kernel

theorem w_LinkFlitsAndTraining_2 :
    sTrn.dev.live = true ∧ sTrn.dev.portState 2 = psTraining ∧ trn.ok = true ∧
    max 1 (sTrn.dev.fld Fld.IKQ_CTRL_MIN_LANES 0) ≤ (List.filter (fun i ↦ (List.foldl (fun v i ↦ if (trn.lanes.testBit i && !(sTrn.dev.fld Fld.IKQ_PORT_LANES_BAD 2).testBit i) = true then v + 2 ^ i else v) 0 (List.range 8)).testBit i) (List.range 8)).length ∧
    trn.self = sTrn.dev.fld Fld.IKQ_PORT_PEER 2 ∧ trn.expects = sTrn.dev.fld Fld.IKQ_CTRL_SELF 0 ∧ { trn with self := 2 }.ok = true ∧
    max 1 (sTrn.dev.fld Fld.IKQ_CTRL_MIN_LANES 0) ≤ (List.filter (fun i ↦ (List.foldl (fun v i ↦ if ({ trn with self := 2 }.lanes.testBit i && !(sTrn.dev.fld Fld.IKQ_PORT_LANES_BAD 2).testBit i) = true then v + 2 ^ i else v) 0 (List.range 8)).testBit i) (List.range 8)).length ∧
    ({ trn with self := 2 }.self ≠ sTrn.dev.fld Fld.IKQ_PORT_PEER 2 ∨ { trn with self := 2 }.expects ≠ sTrn.dev.fld Fld.IKQ_CTRL_SELF 0) ∧
    ({ trn with ok := false }.ok = false ∨ ¬max 1 (sTrn.dev.fld Fld.IKQ_CTRL_MIN_LANES 0) ≤ (List.filter (fun i ↦ (List.foldl (fun v i ↦ if ({ trn with ok := false }.lanes.testBit i && !(sTrn.dev.fld Fld.IKQ_PORT_LANES_BAD 2).testBit i) = true then v + 2 ^ i else v) 0 (List.range 8)).testBit i) (List.range 8)).length) ∧
    (sDn { failedAt := some 19000000 : Port }).dev.live = true ∧
    ((sDn { failedAt := some 19000000 : Port }).dev.port 2).failedAt = some 19000000 ∧
    (sDn { failedAt := some 19000000 : Port }).dev.portState 2 = psDown ∧
    19000000 + 1000000 ≤ (sDn { failedAt := some 19000000 : Port }).dev.tick ∧
    (sDn { brokenAt := some 19999000 : Port }).dev.live = true ∧
    ((sDn { brokenAt := some 19999000 : Port }).dev.port 2).brokenAt = some 19999000 ∧
    (sDn { brokenAt := some 19999000 : Port }).dev.portState 2 = psDown ∧
    (sDn { brokenAt := some 19999000 : Port }).dev.fld Fld.IKQ_CTRL_AUTO_RETRAIN 0 = 1 ∧
    19999000 + 1000 ≤ (sDn { brokenAt := some 19999000 : Port }).dev.tick := by
  decide +kernel

theorem w_PeerAndJobGroupMessages_1 :
    (inq rdX).dev.live = true ∧ rdX ∈ ((inq rdX).dev.port 2).inq ∧ rdX.opc = opcRd ∧
    (((inq rdX).dev.setPort 2 { (inq rdX).dev.port 2 with inq := eraseOne rdX ((inq rdX).dev.port 2).inq }).oweSlots 2 rdX.vc.toNat rdX.slotCount).peerTarget 2 rdX PeerOp.read = none ∧
    (inq rdM).dev.live = true ∧ rdM ∈ ((inq rdM).dev.port 2).inq ∧ rdM.opc = opcRd ∧
    (((inq rdM).dev.setPort 2 { (inq rdM).dev.port 2 with inq := eraseOne rdM ((inq rdM).dev.port 2).inq }).oweSlots 2 rdM.vc.toNat rdM.slotCount).peerTarget 2 rdM PeerOp.read = some (134217792, false, 0) ∧
    (inq mAX).dev.live = true ∧ mAX ∈ ((inq mAX).dev.port 2).inq ∧ mAX.opc = opcAtom ∧
    (((inq mAX).dev.setPort 2 { (inq mAX).dev.port 2 with inq := eraseOne mAX ((inq mAX).dev.port 2).inq }).oweSlots 2 mAX.vc.toNat mAX.slotCount).peerTarget 2 mAX PeerOp.atomic = none ∧
    (inq mA).dev.live = true ∧ mA ∈ ((inq mA).dev.port 2).inq ∧ mA.opc = opcAtom ∧
    (((inq mA).dev.setPort 2 { (inq mA).dev.port 2 with inq := eraseOne mA ((inq mA).dev.port 2).inq }).oweSlots 2 mA.vc.toNat mA.slotCount).peerTarget 2 mA PeerOp.atomic = some (134217792, false, 0) ∧
    (inq mO).dev.live = true ∧ mO ∈ ((inq mO).dev.port 2).inq ∧ (inq mO).dev.inOrder 2 mO = true ∧ mO.opc = opcWr ∧
    (((inq mO).dev.setPort 2 { (inq mO).dev.port 2 with inq := eraseOne mO ((inq mO).dev.port 2).inq }).oweSlots 2 mO.vc.toNat mO.slotCount).peerTarget 2 mO PeerOp.write = some (134217792, false, 0) ∧
    (inq mW).dev.live = true ∧ mW ∈ ((inq mW).dev.port 2).inq ∧ (inq mW).dev.inOrder 2 mW = true ∧ mW.opc = opcWrm ∧
    (((inq mW).dev.setPort 2 { (inq mW).dev.port 2 with inq := eraseOne mW ((inq mW).dev.port 2).inq }).oweSlots 2 mW.vc.toNat mW.slotCount).peerTarget 2 mW PeerOp.write = some (134217792, false, 0) := by
  decide +kernel

theorem w_PeerAndJobGroupMessages_2 :
    (inq mOX).dev.live = true ∧ mOX ∈ ((inq mOX).dev.port 2).inq ∧ (inq mOX).dev.inOrder 2 mOX = true ∧ mOX.opc = opcWr ∧
    (((inq mOX).dev.setPort 2 { (inq mOX).dev.port 2 with inq := eraseOne mOX ((inq mOX).dev.port 2).inq }).oweSlots 2 mOX.vc.toNat mOX.slotCount).peerTarget 2 mOX PeerOp.write = none ∧
    (inq mWX).dev.live = true ∧ mWX ∈ ((inq mWX).dev.port 2).inq ∧ (inq mWX).dev.inOrder 2 mWX = true ∧ mWX.opc = opcWrm ∧
    (((inq mWX).dev.setPort 2 { (inq mWX).dev.port 2 with inq := eraseOne mWX ((inq mWX).dev.port 2).inq }).oweSlots 2 mWX.vc.toNat mWX.slotCount).peerTarget 2 mWX PeerOp.write = none ∧
    (sRsp (rspO opcCmp) opcWr).dev.live = true ∧ rspO opcCmp ∈ ((sRsp (rspO opcCmp) opcWr).dev.port 2).inq ∧
    ((rspO opcCmp).opc = opcCmp ∧ Instr.cmp 2 (rspO opcCmp) = Instr.cmp 2 (rspO opcCmp) ∨ (rspO opcCmp).opc = opcRdata ∧ Instr.cmp 2 (rspO opcCmp) = Instr.rdata 2 (rspO opcCmp) ∨ (rspO opcCmp).opc = opcAtomdata ∧ Instr.cmp 2 (rspO opcCmp) = Instr.atomdata 2 (rspO opcCmp)) ∧
    (rspO opcCmp).epoch.toNat ≠ (((sRsp (rspO opcCmp) opcWr).dev.setPort 2 { (sRsp (rspO opcCmp) opcWr).dev.port 2 with inq := eraseOne (rspO opcCmp) ((sRsp (rspO opcCmp) opcWr).dev.port 2).inq }).oweSlots 2 (rspO opcCmp).vc.toNat (rspO opcCmp).slotCount).fld Fld.IKQ_PORT_EPOCH 2 ∧
    (sRsp (rspO opcRdata) opcWr).dev.live = true ∧ rspO opcRdata ∈ ((sRsp (rspO opcRdata) opcWr).dev.port 2).inq ∧
    ((rspO opcRdata).opc = opcCmp ∧ Instr.rdata 2 (rspO opcRdata) = Instr.cmp 2 (rspO opcRdata) ∨ (rspO opcRdata).opc = opcRdata ∧ Instr.rdata 2 (rspO opcRdata) = Instr.rdata 2 (rspO opcRdata) ∨ (rspO opcRdata).opc = opcAtomdata ∧ Instr.rdata 2 (rspO opcRdata) = Instr.atomdata 2 (rspO opcRdata)) ∧
    (rspO opcRdata).epoch.toNat ≠ (((sRsp (rspO opcRdata) opcWr).dev.setPort 2 { (sRsp (rspO opcRdata) opcWr).dev.port 2 with inq := eraseOne (rspO opcRdata) ((sRsp (rspO opcRdata) opcWr).dev.port 2).inq }).oweSlots 2 (rspO opcRdata).vc.toNat (rspO opcRdata).slotCount).fld Fld.IKQ_PORT_EPOCH 2 ∧
    (sRsp (rspO opcAtomdata) opcWr).dev.live = true ∧ rspO opcAtomdata ∈ ((sRsp (rspO opcAtomdata) opcWr).dev.port 2).inq ∧
    ((rspO opcAtomdata).opc = opcCmp ∧ Instr.atomdata 2 (rspO opcAtomdata) = Instr.cmp 2 (rspO opcAtomdata) ∨ (rspO opcAtomdata).opc = opcRdata ∧ Instr.atomdata 2 (rspO opcAtomdata) = Instr.rdata 2 (rspO opcAtomdata) ∨ (rspO opcAtomdata).opc = opcAtomdata ∧ Instr.atomdata 2 (rspO opcAtomdata) = Instr.atomdata 2 (rspO opcAtomdata)) ∧
    (rspO opcAtomdata).epoch.toNat ≠ (((sRsp (rspO opcAtomdata) opcWr).dev.setPort 2 { (sRsp (rspO opcAtomdata) opcWr).dev.port 2 with inq := eraseOne (rspO opcAtomdata) ((sRsp (rspO opcAtomdata) opcWr).dev.port 2).inq }).oweSlots 2 (rspO opcAtomdata).vc.toNat (rspO opcAtomdata).slotCount).fld Fld.IKQ_PORT_EPOCH 2 ∧
    (sRsp (rsp opcCmp) opcWr).dev.live = true ∧ rsp opcCmp ∈ ((sRsp (rsp opcCmp) opcWr).dev.port 2).inq ∧
    (rsp opcCmp).epoch.toNat = (((sRsp (rsp opcCmp) opcWr).dev.setPort 2 { (sRsp (rsp opcCmp) opcWr).dev.port 2 with inq := eraseOne (rsp opcCmp) ((sRsp (rsp opcCmp) opcWr).dev.port 2).inq }).oweSlots 2 (rsp opcCmp).vc.toNat (rsp opcCmp).slotCount).fld Fld.IKQ_PORT_EPOCH 2 ∧
    ((sRsp (rsp opcCmp) opcWr).dev.port 2).outs = [itO opcWr] ∧ (itO opcWr).m.tag = (rsp opcCmp).tag ∧
    (itO opcWr).own = some (Agent.treadle 5, 33) ∧ (rsp opcCmp).opc = opcCmp ∧
    ((itO opcWr).m.opc = opcWr ∨ (itO opcWr).m.opc = opcWrm) := by
  decide +kernel

theorem w_PeerAndJobGroupMessages_3 :
    (sRsp (rsp opcRdata) opcRd).dev.live = true ∧ rsp opcRdata ∈ ((sRsp (rsp opcRdata) opcRd).dev.port 2).inq ∧
    (rsp opcRdata).epoch.toNat = (((sRsp (rsp opcRdata) opcRd).dev.setPort 2 { (sRsp (rsp opcRdata) opcRd).dev.port 2 with inq := eraseOne (rsp opcRdata) ((sRsp (rsp opcRdata) opcRd).dev.port 2).inq }).oweSlots 2 (rsp opcRdata).vc.toNat (rsp opcRdata).slotCount).fld Fld.IKQ_PORT_EPOCH 2 ∧
    ((sRsp (rsp opcRdata) opcRd).dev.port 2).outs = [itO opcRd] ∧ (itO opcRd).m.tag = (rsp opcRdata).tag ∧
    (itO opcRd).own = some (Agent.treadle 5, 33) ∧ (rsp opcRdata).opc = opcRdata ∧ (itO opcRd).m.opc = opcRd ∧
    (sRsp (rsp opcAtomdata) opcAtom).dev.live = true ∧ rsp opcAtomdata ∈ ((sRsp (rsp opcAtomdata) opcAtom).dev.port 2).inq ∧
    (rsp opcAtomdata).epoch.toNat = (((sRsp (rsp opcAtomdata) opcAtom).dev.setPort 2 { (sRsp (rsp opcAtomdata) opcAtom).dev.port 2 with inq := eraseOne (rsp opcAtomdata) ((sRsp (rsp opcAtomdata) opcAtom).dev.port 2).inq }).oweSlots 2 (rsp opcAtomdata).vc.toNat (rsp opcAtomdata).slotCount).fld Fld.IKQ_PORT_EPOCH 2 ∧
    ((sRsp (rsp opcAtomdata) opcAtom).dev.port 2).outs = [itO opcAtom] ∧ (itO opcAtom).m.tag = (rsp opcAtomdata).tag ∧
    (itO opcAtom).own = some (Agent.treadle 5, 33) ∧ (rsp opcAtomdata).opc = opcAtomdata ∧ (itO opcAtom).m.opc = opcAtom ∧
    (jgS 1 (jgM 0 458753) { : JobGroup }).dev.live = true ∧ jgM 0 458753 ∈ ((jgS 1 (jgM 0 458753) { : JobGroup }).dev.port 2).inq ∧
    (jgM 0 458753).opc = opcJg ∧ (jgM 0 458753).attr = 0 ∧ (jgS 1 (jgM 0 458753) { : JobGroup }).dev.jgRole = roleLead ∧
    (jgS 2 (jgM 1 154619281409) { : JobGroup }).dev.live = true ∧
    jgM 1 154619281409 ∈ ((jgS 2 (jgM 1 154619281409) { : JobGroup }).dev.port 2).inq ∧ (jgM 1 154619281409).opc = opcJg ∧
    (jgM 1 154619281409).attr = 1 ∧ (jgS 2 (jgM 1 154619281409) { : JobGroup }).dev.jgRole = roleMember ∧
    (jgS 2 (jgM 1 154619281409) { : JobGroup }).dev.jg.due = none ∧
    (jgM 1 154619281409).jgN ≠ (jgS 2 (jgM 1 154619281409) { : JobGroup }).dev.jg.n ∧
    ((jgM 1 154619281409).jgN - (jgS 2 (jgM 1 154619281409) { : JobGroup }).dev.jg.n).toNat < 2 ^ 15 := by
  decide +kernel

theorem w_PeerAndJobGroupMessages_4 :
    (jgS 1 (jgM 2 1) { : JobGroup }).dev.live = true ∧ jgM 2 1 ∈ ((jgS 1 (jgM 2 1) { : JobGroup }).dev.port 2).inq ∧
    (jgM 2 1).opc = opcJg ∧ (jgM 2 1).attr = 2 ∧ (jgS 1 (jgM 2 1) { : JobGroup }).dev.jgRole = roleLead ∧
    (jgS 1 (jgM 0 0) { due := some (5, 3, 20000000) : JobGroup }).dev.jg.due = some (5, 3, 20000000) ∧
    20000000 ≤ (jgS 1 (jgM 0 0) { due := some (5, 3, 20000000) : JobGroup }).dev.tick ∧
    (jgS 1 (jgM 0 0) { due := some (5, 3, 20000000) : JobGroup }).dev.selvOn = true ∧
    (jgS 1 (jgM 0 0) { due := some (5, 3, 20000000) : JobGroup }).dev.jgRole = roleLead ∧
    (jgS 2 (jgM 0 0) { lastRepeat := 19999000 : JobGroup }).dev.live = true ∧
    (jgS 2 (jgM 0 0) { lastRepeat := 19999000 : JobGroup }).dev.selvOn = true ∧
    (jgS 2 (jgM 0 0) { lastRepeat := 19999000 : JobGroup }).dev.jg.lastRepeat + 1000 ≤ (jgS 2 (jgM 0 0) { lastRepeat := 19999000 : JobGroup }).dev.tick ∧
    (jgS 2 (jgM 0 0) { lastRepeat := 19999000 : JobGroup }).dev.jgRole = roleMember ∧
    (jgS 1 (jgM 0 0) { n := 4, lastRepeat := 19999000 : JobGroup }).dev.live = true ∧
    (jgS 1 (jgM 0 0) { n := 4, lastRepeat := 19999000 : JobGroup }).dev.selvOn = true ∧
    (jgS 1 (jgM 0 0) { n := 4, lastRepeat := 19999000 : JobGroup }).dev.jg.lastRepeat + 1000 ≤ (jgS 1 (jgM 0 0) { n := 4, lastRepeat := 19999000 : JobGroup }).dev.tick ∧
    (jgS 1 (jgM 0 0) { n := 4, lastRepeat := 19999000 : JobGroup }).dev.jgRole = roleLead ∧
    (jgS 1 (jgM 0 0) { n := 4, lastRepeat := 19999000 : JobGroup }).dev.jg.due = none ∧
    (jgS 1 (jgM 0 0) { n := 4, lastRepeat := 19999000 : JobGroup }).dev.jg.n ≠ 0 ∧
    (jgS 2 (jgM 0 0) { lastCommit := 19990000, inLock := true : JobGroup }).dev.selvOn = true ∧
    (jgS 2 (jgM 0 0) { lastCommit := 19990000, inLock := true : JobGroup }).dev.jgRole = roleMember ∧
    (jgS 2 (jgM 0 0) { lastCommit := 19990000, inLock := true : JobGroup }).dev.jg.inLock = true ∧
    (jgS 2 (jgM 0 0) { lastCommit := 19990000, inLock := true : JobGroup }).dev.jg.lastCommit + 10000 ≤ (jgS 2 (jgM 0 0) { lastCommit := 19990000, inLock := true : JobGroup }).dev.tick ∧
    (jgS 1 (jgM 0 0) { ringSent := 19999000 : JobGroup }).dev.onRing = true ∧
    (jgS 1 (jgM 0 0) { ringSent := 19999000 : JobGroup }).dev.jgRole = roleLead ∧
    (jgS 1 (jgM 0 0) { ringSent := 19999000 : JobGroup }).dev.jg.ringSent + 1000 ≤ (jgS 1 (jgM 0 0) { ringSent := 19999000 : JobGroup }).dev.tick ∧
    (jgS 1 (jgM 0 0) { ringSent := 19999000 : JobGroup }).dev.jg.ringAt = none := by
  decide +kernel

theorem w_PeerAndJobGroupMessages_5 :
    (jgS 2 (jgM 0 0) { : JobGroup }).dev.onRing = true ∧ lockOk (lockFrame 0 5 0 0) = true ∧
    BitVec.extractLsb' 0 2 (lockFrame 0 5 0 0) = 0 ∧ (jgS 2 (jgM 0 0) { : JobGroup }).dev.jgRole = roleMember ∧
    (jgS 1 (jgM 0 0) { : JobGroup }).dev.onRing = true ∧ (jgS 1 (jgM 0 0) { : JobGroup }).dev.jgRole = roleLead ∧
    lockOk (lockFrame 1 5 2 300) = true ∧ BitVec.extractLsb' 0 2 (lockFrame 1 5 2 300) = 1 ∧
    (jgS 2 (jgM 0 0) { : JobGroup }).dev.jg.due = none ∧
    BitVec.extractLsb' 6 16 (lockFrame 1 5 2 300) ≠ (jgS 2 (jgM 0 0) { : JobGroup }).dev.jg.n ∧
    (BitVec.extractLsb' 6 16 (lockFrame 1 5 2 300) - (jgS 2 (jgM 0 0) { : JobGroup }).dev.jg.n).toNat < 2 ^ 15 ∧
    (jgS 1 (jgM 0 0) { ringAt := some 19999000 : JobGroup }).dev.jg.ringAt = some 19999000 ∧
    19999000 + 1000 ≤ (jgS 1 (jgM 0 0) { ringAt := some 19999000 : JobGroup }).dev.tick := by
  decide +kernel

theorem w_LinkFlitsAndTraining_crc : flitCrc rawIdle ≠ flitCrc rawIdle + 1 ∧ flitCrc rawPay = flitCrc rawPay := by
  simp

/-! ### Register writes -/

def rRoot (part : Nat) : RegAt := ⟨Crd.TRANS_ROOT, 0, part⟩
def rCons : RegAt := ⟨Crd.FQ_CONS, 0, 0⟩
def hdmN : Hdm := { base := 0x30000000, size := 0x10000000 }
def rLc : RegAt := ⟨Crd.LEDGER_CTRL, 0, 0⟩
def sHd1 : State := st { (cxlDev {}).setFld Fld.HEAD_STATUS_PERSONALITY 1 2 with heads := [(1, { up := true, mse := true })] }

theorem w_RegisterWrites_1 :
    (st ((cxlDev { : Head }).setHead 0 { up := true : Head })).dev.live = true ∧
    (st ((cxlDev { : Head }).setHead 0 { up := true : Head })).dev.served 0 = true ∧
    (st ((cxlDev { : Head }).setHead 0 { up := true : Head })).dev.barsOn 0 = false ∧
    (st ((cxlDev { : Head }).setHead 0 { up := true : Head })).dev.regAt 0 4 = none ∧ (sHd { : Head }).dev.live = true ∧
    (sHd { : Head }).dev.served 0 = true ∧ (sHd { : Head }).dev.barsOn 0 = true ∧ (sHd { : Head }).dev.regAt 0 4 = none ∧
    (sHd { halves := [(Crd.TRANS_ROOT.key 0, 3)] : Head }).dev.live = true ∧
    (sHd { halves := [(Crd.TRANS_ROOT.key 0, 3)] : Head }).dev.served 0 = true ∧
    (sHd { halves := [(Crd.TRANS_ROOT.key 0, 3)] : Head }).dev.regAt 0 196608 = some (rRoot 0) ∧
    (sHd { halves := [(Crd.TRANS_ROOT.key 0, 3)] : Head }).dev.Writes 0 (rRoot 0).card.reach (rRoot 0).inst ∧
    (rRoot 0).card.width = 64 ∧ (rRoot 0).part = 0 ∧
    (sHd { halves := [(Crd.TRANS_ROOT.key 0, 3)] : Head }).dev.regAt 0 196612 = some (rRoot 4) ∧
    (sHd { halves := [(Crd.TRANS_ROOT.key 0, 3)] : Head }).dev.Writes 0 (rRoot 4).card.reach (rRoot 4).inst ∧
    (rRoot 4).card.width = 64 ∧ (rRoot 4).part = 4 ∧
    ((sHd { halves := [(Crd.TRANS_ROOT.key 0, 3)] : Head }).dev.head 0).halves.find ((fun r ↦ r.card.key r.inst) (rRoot 4)) = some 3 := by
  unfold Dev.Writes; decide +kernel

theorem w_RegisterWrites_2 :
    (sHd { : Head }).dev.live = true ∧ (sHd { : Head }).dev.served 0 = true ∧ (sHd { : Head }).dev.regAt 0 196612 = some (rRoot 4) ∧
    (sHd { : Head }).dev.Writes 0 (rRoot 4).card.reach (rRoot 4).inst ∧ (rRoot 4).card.width = 64 ∧ (rRoot 4).part = 4 ∧
    ((sHd { : Head }).dev.head 0).halves.find ((fun r ↦ r.card.key r.inst) (rRoot 4)) = none ∧
    (sHd { : Head }).dev.regAt 0 196636 = some rCons ∧ (sHd { : Head }).dev.Writes 0 rCons.card.reach rCons.inst ∧
    rCons.card.width = 32 ∧ rCons.part = 0 ∧ (st qDev).dev.live = true ∧ (st qDev).dev.served 0 = true ∧
    (st qDev).dev.fld Fld.QUEUE_CTRL_ENABLE 7 = 1 ∧ (sHd { msixEn := true : Head }).dev.live = true ∧
    (sHd { msixEn := true : Head }).dev.served 0 = true ∧ (sHd { msixEn := true : Head }).dev.barsOn 0 = true ∧
    (sHd { rasUnc := 7, rasCor := 7 : Head }).dev.live = true ∧ (sHd { rasUnc := 7, rasCor := 7 : Head }).dev.served 0 = true ∧
    (sHd { rasUnc := 7, rasCor := 7 : Head }).dev.barsOn 0 = true ∧ (sHd { rasUnc := 7, rasCor := 7 : Head }).dev.frozen 0 = false := by
  unfold Dev.Writes; decide +kernel

theorem w_RegisterWrites_3 :
    (sHd { : Head }).dev.live = true ∧ (sHd { : Head }).dev.served 0 = true ∧ (sHd { : Head }).dev.barsOn 0 = true ∧
    (sHd { : Head }).dev.frozen 0 = false ∧ (Fmap.get { : Hdm } ((sHd { : Head }).dev.head 0).hdm 3).committed = false ∧
    hdmN.committed = false ∧ hdmN.locked = false ∧ sFrz.dev.live = true ∧ sFrz.dev.served 0 = true ∧ sFrz.dev.barsOn 0 = true ∧
    (196608 % if true = true then 8 else 4) = 0 ∧ sFrz.dev.frozen 0 = true ∧
    Option.all (fun b ↦ !b.1.inFreeze) (blockAt 196608) = true ∧ sHd1.dev.live = true ∧ sHd1.dev.served 1 = true ∧
    sHd1.dev.barsOn 1 = true ∧ (393216 % if true = true then 8 else 4) = 0 ∧ sHd1.dev.frozen 1 = false ∧
    blockAt 393216 = some (Block.wingCtl, 0, 0) ∧
    (Block.wingCtl = Block.tiers ∨ Block.wingCtl = Block.ikq ∨ Block.wingCtl = Block.wingCtl) ∧
    sHd1.dev.bar0Read 1 393216 true = some 0 ∧ (327680 % if false = true then 8 else 4) = 0 ∧
    (sHd { : Head }).dev.ledger.mirrors.find 0 = none ∧ (sHd { : Head }).dev.regAt 0 327680 = some rLc ∧ rLc.part = 0 ∧
    rLc.card.width = 32 ∧ (sHd { : Head }).dev.reads 0 rLc.card rLc.inst = true := by
  decide +kernel

/-! ### Mailboxes -/

/-- Commands of the MCTP mailbox and of head 1, which is wing 0's; every byte of the payload is b. -/
def mc (op len : Nat) (b : Byte) : MbCmd := ⟨32, op, List.replicate len b⟩
def mw (op len : Nat) (b : Byte) : MbCmd := ⟨1, op, List.replicate len b⟩
def mbDev (r : Registrar) : Dev :=
  { (memDev.setFld Fld.HEAD_STATUS_PERSONALITY 0 2).setFld Fld.HEAD_STATUS_PERSONALITY 1 3 with
    heads := [(0, { up := true, mse := true, cxl := true }), (1, { up := true, mse := true, cxl := true })], reg := { r with running := true } }
def sMb (q : List MbCmd) : State := st (mbDev { cmdQ := q })
def sMbF (q : List MbCmd) : State := st ((mbDev { cmdQ := q }).setFld Fld.LEDGER_FATAL_VALID 0 1)
def sMbB (q : List MbCmd) : State := st (mbDev { cmdQ := q, bg := [⟨32, 0xC013, 0⟩] })
def sMbS (q : List MbCmd) : State := st (mbDev { cmdQ := q, safe := true })
def pl (op : Nat) (bs : List Byte) : MbCmd := ⟨32, op, bs⟩
def pw (op : Nat) (bs : List Byte) : MbCmd := ⟨1, op, bs⟩
def psec (op : Nat) : MbCmd := ⟨33, op, []⟩
def sStd (r : Registrar) (c : MbCmd) : State := st (mbDev { r with cmdQ := [c] })
def sJob (st_ : Nat) (c : MbCmd) : State := st ((mbDev { cmdQ := [c], lastJob := [(32, (1, 3))] }).setRgState 3 st_)
def sDc (dc : List DcExtent) (rg : DcRegion) (c : MbCmd) : State :=
  st { mbDev { cmdQ := [c] } with heads := [(0, { up := true, mse := true }), (1, { up := true, mse := true, cxl := true, dc := dc, dcRegions := [(0, rg)] })] }
/-- Add DC Response of one extent of 256 MiB at DPA 0. -/
def dcPay : List Byte := [1, 0, 0, 0, 0, 0, 0, 0] ++ List.replicate 8 0 ++ [0, 0, 0, 0x10] ++ List.replicate 12 0
def dcOne (st_ : DcSt) : DcExtent := ⟨0, 0, 2 ^ 28, st_⟩
/-- Head 1, region 0, 256 MiB at DPA 0. -/
def dcdPay : List Byte := [1, 0, 0, 0, 0, 0, 0, 0] ++ List.replicate 8 0 ++ [0, 0, 0, 0x10, 0, 0, 0, 0]
def dcRg : DcRegion := ⟨0, 2 ^ 28, false⟩

theorem w_StandardCommands_1 :
    (sStd { : Registrar } (pl 1 [])).dev.live = true ∧ (sStd { : Registrar } (pl 1 [])).dev.reg.running = true ∧
    (sStd { : Registrar } (pl 1 [])).dev.reg.safe = false ∧ (sStd { : Registrar } (pl 1 [])).dev.reg.cmdQ = [pl 1 []] ∧
    (pl 1 []).box < 64 ∧ (sStd { : Registrar } (psec 768)).dev.live = true ∧
    (sStd { : Registrar } (psec 768)).dev.reg.running = true ∧ (sStd { : Registrar } (psec 768)).dev.reg.safe = false ∧
    (sStd { : Registrar } (psec 768)).dev.reg.cmdQ = [psec 768] ∧ (psec 768).box < 64 ∧
    (sStd { : Registrar } (psec 768)).dev.ctx (psec 768) = some Ctx.secured ∧ (psec 768).op = 768 ∧
    (sStd { : Registrar } (pl 1 [])).dev.ctx (pl 1 []) = some Ctx.operator ∧ Ctx.operator ≠ Ctx.secured ∧ (pl 1 []).op = 1 ∧
    (sStd { bg := [{ box := 32, op := 49171, obj := 0 : Bg }] : Registrar } (pl 2 [])).dev.live = true ∧
    (sStd { bg := [{ box := 32, op := 49171, obj := 0 : Bg }] : Registrar } (pl 2 [])).dev.reg.running = true ∧
    (sStd { bg := [{ box := 32, op := 49171, obj := 0 : Bg }] : Registrar } (pl 2 [])).dev.reg.safe = false ∧
    (sStd { bg := [{ box := 32, op := 49171, obj := 0 : Bg }] : Registrar } (pl 2 [])).dev.reg.cmdQ = [pl 2 []] ∧ (pl 2 []).box < 64 ∧
    (sStd { bg := [{ box := 32, op := 49171, obj := 0 : Bg }] : Registrar } (pl 2 [])).dev.ctx (pl 2 []) = some Ctx.operator ∧
    (pl 2 []).op = 2 ∧
    List.find? (fun b ↦ decide (b.box = (pl 2 []).place)) (sStd { bg := [{ box := 32, op := 49171, obj := 0 : Bg }] : Registrar } (pl 2 [])).dev.reg.bg = some { box := 32, op := 49171, obj := 0 : Bg } ∧
    (sStd { : Registrar } (pl 3 [])).dev.live = true ∧ (sStd { : Registrar } (pl 3 [])).dev.reg.running = true ∧
    (sStd { : Registrar } (pl 3 [])).dev.reg.safe = false ∧ (sStd { : Registrar } (pl 3 [])).dev.reg.cmdQ = [pl 3 []] ∧
    (pl 3 []).box < 64 ∧ (sStd { : Registrar } (pl 3 [])).dev.ctx (pl 3 []) = some Ctx.operator ∧ (pl 3 []).op = 3 := by
  decide +kernel

theorem w_StandardCommands_2 :
    (sStd { : Registrar } (pl 4 [12])).dev.live = true ∧ (sStd { : Registrar } (pl 4 [12])).dev.reg.running = true ∧
    (sStd { : Registrar } (pl 4 [12])).dev.reg.safe = false ∧ (sStd { : Registrar } (pl 4 [12])).dev.reg.cmdQ = [pl 4 [12]] ∧
    (pl 4 [12]).box < 64 ∧ (sStd { : Registrar } (pl 4 [12])).dev.ctx (pl 4 [12]) = some Ctx.operator ∧ Ctx.operator ≠ Ctx.secured ∧
    (pl 4 [12]).op = 4 ∧ (pl 4 [12]).data.length = 1 ∧ 8 ≤ (pl 4 [12]).num 0 1 ∧ (pl 4 [12]).num 0 1 ≤ 12 ∧
    (sJob 3 (pl 5 [])).dev.live = true ∧ (sJob 3 (pl 5 [])).dev.reg.running = true ∧ (sJob 3 (pl 5 [])).dev.reg.safe = false ∧
    (sJob 3 (pl 5 [])).dev.reg.cmdQ = [pl 5 []] ∧ (pl 5 []).box < 64 ∧ (sJob 3 (pl 5 [])).dev.ctx (pl 5 []) = some Ctx.operator ∧
    (pl 5 []).op = 5 ∧
    List.find? (fun b ↦ decide (b.box = (pl 5 []).place) && (decide (b.op = 49175) || decide (b.op = 49176))) (sJob 3 (pl 5 [])).dev.reg.bg = none ∧
    (sJob 3 (pl 5 [])).dev.reg.lastJob.find (pl 5 []).place = some (1, 3) ∧ (sJob 3 (pl 5 [])).dev.rgState 3 = rgRunning ∧
    (sJob 1 (pl 5 [])).dev.live = true ∧ (sJob 1 (pl 5 [])).dev.reg.running = true ∧ (sJob 1 (pl 5 [])).dev.reg.safe = false ∧
    (sJob 1 (pl 5 [])).dev.reg.cmdQ = [pl 5 []] ∧ (sJob 1 (pl 5 [])).dev.ctx (pl 5 []) = some Ctx.operator ∧
    List.find? (fun b ↦ decide (b.box = (pl 5 []).place) && (decide (b.op = 49175) || decide (b.op = 49176))) (sJob 1 (pl 5 [])).dev.reg.bg = none ∧
    (sJob 1 (pl 5 [])).dev.reg.lastJob.find (pl 5 []).place = some (1, 3) ∧ (sJob 1 (pl 5 [])).dev.rgState 3 = rgOpen := by
  decide +kernel

theorem w_StandardCommands_3 :
    (sStd { : Registrar } (pl 256 [3])).dev.live = true ∧ (sStd { : Registrar } (pl 256 [3])).dev.reg.running = true ∧
    (sStd { : Registrar } (pl 256 [3])).dev.reg.safe = false ∧ (sStd { : Registrar } (pl 256 [3])).dev.reg.cmdQ = [pl 256 [3]] ∧
    (pl 256 [3]).box < 64 ∧ (sStd { : Registrar } (pl 256 [3])).dev.ctx (pl 256 [3]) = some Ctx.operator ∧
    Ctx.operator ≠ Ctx.secured ∧ (pl 256 [3]).op = 256 ∧ (pl 256 [3]).data.length = 1 ∧ (pl 256 [3]).num 0 1 ≤ 3 ∧
    (sStd { : Registrar } (pl 257 [3, 1, 0, 0, 0, 0])).dev.live = true ∧
    (sStd { : Registrar } (pl 257 [3, 1, 0, 0, 0, 0])).dev.reg.running = true ∧
    (sStd { : Registrar } (pl 257 [3, 1, 0, 0, 0, 0])).dev.reg.safe = false ∧
    (sStd { : Registrar } (pl 257 [3, 1, 0, 0, 0, 0])).dev.reg.cmdQ = [pl 257 [3, 1, 0, 0, 0, 0]] ∧
    (pl 257 [3, 1, 0, 0, 0, 0]).box < 64 ∧
    (sStd { : Registrar } (pl 257 [3, 1, 0, 0, 0, 0])).dev.ctx (pl 257 [3, 1, 0, 0, 0, 0]) = some Ctx.operator ∧
    (pl 257 [3, 1, 0, 0, 0, 0]).op = 257 ∧ (pl 257 [3, 1, 0, 0, 0, 0]).data.length = 6 ∧ (pl 257 [3, 1, 0, 0, 0, 0]).num 2 1 = 0 ∧
    (pl 257 [3, 1, 0, 0, 0, 0]).num 0 1 ≤ 3 ∧ (pl 257 [3, 1, 0, 0, 0, 0]).num 1 1 = 1 ∧
    (sStd { : Registrar } (pl 258 [])).dev.live = true ∧ (sStd { : Registrar } (pl 258 [])).dev.reg.running = true ∧
    (sStd { : Registrar } (pl 258 [])).dev.reg.safe = false ∧ (sStd { : Registrar } (pl 258 [])).dev.reg.cmdQ = [pl 258 []] ∧
    (pl 258 []).box < 64 ∧ (sStd { : Registrar } (pl 258 [])).dev.ctx (pl 258 []) = some Ctx.operator ∧ (pl 258 []).op = 258 := by
  decide +kernel

theorem w_StandardCommands_4 :
    (sStd { : Registrar } (pw 259 [1, 2, 3, 4])).dev.live = true ∧
    (sStd { : Registrar } (pw 259 [1, 2, 3, 4])).dev.reg.running = true ∧
    (sStd { : Registrar } (pw 259 [1, 2, 3, 4])).dev.reg.safe = false ∧
    (sStd { : Registrar } (pw 259 [1, 2, 3, 4])).dev.reg.cmdQ = [pw 259 [1, 2, 3, 4]] ∧ (pw 259 [1, 2, 3, 4]).box < 64 ∧
    (sStd { : Registrar } (pw 259 [1, 2, 3, 4])).dev.ctx (pw 259 [1, 2, 3, 4]) = some (Ctx.wing 0) ∧ Ctx.wing 0 ≠ Ctx.secured ∧
    (pw 259 [1, 2, 3, 4]).op = 259 ∧ (pw 259 [1, 2, 3, 4]).data.length = 4 ∧ (sStd { : Registrar } (pl 768 [])).dev.live = true ∧
    (sStd { : Registrar } (pl 768 [])).dev.reg.running = true ∧ (sStd { : Registrar } (pl 768 [])).dev.reg.safe = false ∧
    (sStd { : Registrar } (pl 768 [])).dev.reg.cmdQ = [pl 768 []] ∧ (pl 768 []).box < 64 ∧
    (sStd { : Registrar } (pl 768 [])).dev.ctx (pl 768 []) = some Ctx.operator ∧ Ctx.operator ≠ Ctx.secured ∧ (pl 768 []).op = 768 ∧
    (sStd { : Registrar } (pl 769 (List.replicate 8 9))).dev.live = true ∧
    (sStd { : Registrar } (pl 769 (List.replicate 8 9))).dev.reg.running = true ∧
    (sStd { : Registrar } (pl 769 (List.replicate 8 9))).dev.reg.safe = false ∧
    (sStd { : Registrar } (pl 769 (List.replicate 8 9))).dev.reg.cmdQ = [pl 769 (List.replicate 8 9)] ∧
    (pl 769 (List.replicate 8 9)).box < 64 ∧
    (sStd { : Registrar } (pl 769 (List.replicate 8 9))).dev.ctx (pl 769 (List.replicate 8 9)) = some Ctx.operator ∧
    (pl 769 (List.replicate 8 9)).op = 769 ∧ (pl 769 (List.replicate 8 9)).data.length = 8 := by
  decide +kernel

theorem w_StandardCommands_5 :
    (sStd { : Registrar } (pl 1024 [])).dev.live = true ∧ (sStd { : Registrar } (pl 1024 [])).dev.reg.running = true ∧
    (sStd { : Registrar } (pl 1024 [])).dev.reg.safe = false ∧ (sStd { : Registrar } (pl 1024 [])).dev.reg.cmdQ = [pl 1024 []] ∧
    (pl 1024 []).box < 64 ∧ (sStd { : Registrar } (pl 1024 [])).dev.ctx (pl 1024 []) = some Ctx.operator ∧
    Ctx.operator ≠ Ctx.secured ∧ (pl 1024 []).op = 1024 ∧ (sStd { : Registrar } (pl 1025 [])).dev.live = true ∧
    (sStd { : Registrar } (pl 1025 [])).dev.reg.running = true ∧ (sStd { : Registrar } (pl 1025 [])).dev.reg.safe = false ∧
    (sStd { : Registrar } (pl 1025 [])).dev.reg.cmdQ = [pl 1025 []] ∧ (pl 1025 []).box < 64 ∧
    (sStd { : Registrar } (pl 1025 [])).dev.ctx (pl 1025 []) = some Ctx.operator ∧ (pl 1025 []).op = 1025 ∧
    (sStd { : Registrar } (pw 16384 [])).dev.live = true ∧ (sStd { : Registrar } (pw 16384 [])).dev.reg.running = true ∧
    (sStd { : Registrar } (pw 16384 [])).dev.reg.safe = false ∧ (sStd { : Registrar } (pw 16384 [])).dev.reg.cmdQ = [pw 16384 []] ∧
    (pw 16384 []).box < 64 ∧ (sStd { : Registrar } (pw 16384 [])).dev.ctx (pw 16384 []) = some (Ctx.wing 0) ∧
    Ctx.wing 0 ≠ Ctx.secured ∧ (pw 16384 []).op = 16384 ∧ (sStd { : Registrar } (pw 16896 [])).dev.live = true ∧
    (sStd { : Registrar } (pw 16896 [])).dev.reg.running = true ∧ (sStd { : Registrar } (pw 16896 [])).dev.reg.safe = false ∧
    (sStd { : Registrar } (pw 16896 [])).dev.reg.cmdQ = [pw 16896 []] ∧ (pw 16896 []).box < 64 ∧
    (sStd { : Registrar } (pw 16896 [])).dev.ctx (pw 16896 []) = some (Ctx.wing 0) ∧ (pw 16896 []).op = 16896 := by
  decide +kernel

theorem w_StandardCommands_6 :
    (sStd { : Registrar } (pw 16897 [])).dev.live = true ∧ (sStd { : Registrar } (pw 16897 [])).dev.reg.running = true ∧
    (sStd { : Registrar } (pw 16897 [])).dev.reg.safe = false ∧ (sStd { : Registrar } (pw 16897 [])).dev.reg.cmdQ = [pw 16897 []] ∧
    (pw 16897 []).box < 64 ∧ (sStd { : Registrar } (pw 16897 [])).dev.ctx (pw 16897 []) = some (Ctx.wing 0) ∧
    Ctx.wing 0 ≠ Ctx.secured ∧ (pw 16897 []).op = 16897 ∧ (sStd { : Registrar } (pw 16898 [5])).dev.live = true ∧
    (sStd { : Registrar } (pw 16898 [5])).dev.reg.running = true ∧ (sStd { : Registrar } (pw 16898 [5])).dev.reg.safe = false ∧
    (sStd { : Registrar } (pw 16898 [5])).dev.reg.cmdQ = [pw 16898 [5]] ∧ (pw 16898 [5]).box < 64 ∧
    (sStd { : Registrar } (pw 16898 [5])).dev.ctx (pw 16898 [5]) = some (Ctx.wing 0) ∧ (pw 16898 [5]).op = 16898 ∧
    (pw 16898 [5]).data.length ≤ 16 ∧ (sStd { : Registrar } (pl 18432 [])).dev.live = true ∧
    (sStd { : Registrar } (pl 18432 [])).dev.reg.running = true ∧ (sStd { : Registrar } (pl 18432 [])).dev.reg.safe = false ∧
    (sStd { : Registrar } (pl 18432 [])).dev.reg.cmdQ = [pl 18432 []] ∧ (pl 18432 []).box < 64 ∧
    (sStd { : Registrar } (pl 18432 [])).dev.ctx (pl 18432 []) = some Ctx.operator ∧ Ctx.operator ≠ Ctx.secured ∧
    (sStd { : Registrar } (pl 18432 [])).dev.personality (pl 18432 []).head ≠ 3 ∧ (pl 18432 []).op = 18432 := by
  decide +kernel

theorem w_StandardCommands_7 :
    (sDc [] dcRg (pw 18432 [])).dev.live = true ∧ (sDc [] dcRg (pw 18432 [])).dev.reg.running = true ∧
    (sDc [] dcRg (pw 18432 [])).dev.reg.safe = false ∧ (sDc [] dcRg (pw 18432 [])).dev.reg.cmdQ = [pw 18432 []] ∧
    (pw 18432 []).box < 64 ∧ (sDc [] dcRg (pw 18432 [])).dev.ctx (pw 18432 []) = some (Ctx.wing 0) ∧ Ctx.wing 0 ≠ Ctx.secured ∧
    (sDc [] dcRg (pw 18432 [])).dev.personality (pw 18432 []).head = 3 ∧ (pw 18432 []).op = 18432 ∧
    (sDc [dcOne DcSt.accepted] dcRg (pw 18433 [])).dev.live = true ∧
    (sDc [dcOne DcSt.accepted] dcRg (pw 18433 [])).dev.reg.running = true ∧
    (sDc [dcOne DcSt.accepted] dcRg (pw 18433 [])).dev.reg.safe = false ∧
    (sDc [dcOne DcSt.accepted] dcRg (pw 18433 [])).dev.reg.cmdQ = [pw 18433 []] ∧ (pw 18433 []).box < 64 ∧
    (sDc [dcOne DcSt.accepted] dcRg (pw 18433 [])).dev.ctx (pw 18433 []) = some (Ctx.wing 0) ∧
    (sDc [dcOne DcSt.accepted] dcRg (pw 18433 [])).dev.personality (pw 18433 []).head = 3 ∧ (pw 18433 []).op = 18433 ∧
    (sDc [dcOne DcSt.offered] dcRg (pw 18434 dcPay)).dev.live = true ∧
    (sDc [dcOne DcSt.offered] dcRg (pw 18434 dcPay)).dev.reg.running = true ∧
    (sDc [dcOne DcSt.offered] dcRg (pw 18434 dcPay)).dev.reg.safe = false ∧
    (sDc [dcOne DcSt.offered] dcRg (pw 18434 dcPay)).dev.reg.cmdQ = [pw 18434 dcPay] ∧ (pw 18434 dcPay).box < 64 ∧
    (sDc [dcOne DcSt.offered] dcRg (pw 18434 dcPay)).dev.ctx (pw 18434 dcPay) = some (Ctx.wing 0) ∧
    (sDc [dcOne DcSt.offered] dcRg (pw 18434 dcPay)).dev.personality (pw 18434 dcPay).head = 3 ∧ (pw 18434 dcPay).extentsOk = true ∧
    (pw 18434 dcPay).extents = [((dcOne DcSt.offered).base, (dcOne DcSt.offered).len)] ∧
    ((sDc [dcOne DcSt.offered] dcRg (pw 18434 dcPay)).dev.head (pw 18434 dcPay).head).dc = [dcOne DcSt.offered] ∧
    (pw 18434 dcPay).op = 18434 ∧ (dcOne DcSt.offered).st = DcSt.offered := by
  decide +kernel

theorem w_StandardCommands_8 :
    (sDc [dcOne DcSt.accepted] dcRg (pw 18435 dcPay)).dev.live = true ∧
    (sDc [dcOne DcSt.accepted] dcRg (pw 18435 dcPay)).dev.reg.running = true ∧
    (sDc [dcOne DcSt.accepted] dcRg (pw 18435 dcPay)).dev.reg.safe = false ∧
    (sDc [dcOne DcSt.accepted] dcRg (pw 18435 dcPay)).dev.reg.cmdQ = [pw 18435 dcPay] ∧ (pw 18435 dcPay).box < 64 ∧
    (sDc [dcOne DcSt.accepted] dcRg (pw 18435 dcPay)).dev.ctx (pw 18435 dcPay) = some (Ctx.wing 0) ∧ Ctx.wing 0 ≠ Ctx.secured ∧
    (sDc [dcOne DcSt.accepted] dcRg (pw 18435 dcPay)).dev.personality (pw 18435 dcPay).head = 3 ∧ (pw 18435 dcPay).extentsOk = true ∧
    (pw 18435 dcPay).extents = [((dcOne DcSt.accepted).base, (dcOne DcSt.accepted).len)] ∧
    ((sDc [dcOne DcSt.accepted] dcRg (pw 18435 dcPay)).dev.head (pw 18435 dcPay).head).dc = [dcOne DcSt.accepted] ∧
    (pw 18435 dcPay).op = 18435 ∧ (dcOne DcSt.accepted).st = DcSt.accepted ∧ (sStd { : Registrar } (pw 512 [])).dev.live = true ∧
    (sStd { : Registrar } (pw 512 [])).dev.reg.running = true ∧ (sStd { : Registrar } (pw 512 [])).dev.reg.safe = false ∧
    (sStd { : Registrar } (pw 512 [])).dev.reg.cmdQ = [pw 512 []] ∧ (pw 512 []).box < 64 ∧
    (sStd { : Registrar } (pw 512 [])).dev.ctx (pw 512 []) = some (Ctx.wing 0) ∧ Ctx.wing 0 ≠ Ctx.operator ∧ (pw 512 []).op = 512 ∧
    (sStd { : Registrar } (pw 513 [])).dev.live = true ∧ (sStd { : Registrar } (pw 513 [])).dev.reg.running = true ∧
    (sStd { : Registrar } (pw 513 [])).dev.reg.safe = false ∧ (sStd { : Registrar } (pw 513 [])).dev.reg.cmdQ = [pw 513 []] ∧
    (pw 513 []).box < 64 ∧ (sStd { : Registrar } (pw 513 [])).dev.ctx (pw 513 []) = some (Ctx.wing 0) ∧ (pw 513 []).op = 513 := by
  decide +kernel

theorem w_StandardCommands_9 :
    (sStd { : Registrar } (pw 514 [])).dev.live = true ∧ (sStd { : Registrar } (pw 514 [])).dev.reg.running = true ∧
    (sStd { : Registrar } (pw 514 [])).dev.reg.safe = false ∧ (sStd { : Registrar } (pw 514 [])).dev.reg.cmdQ = [pw 514 []] ∧
    (pw 514 []).box < 64 ∧ (sStd { : Registrar } (pw 514 [])).dev.ctx (pw 514 []) = some (Ctx.wing 0) ∧ Ctx.wing 0 ≠ Ctx.secured ∧
    Ctx.wing 0 ≠ Ctx.operator ∧ (pw 514 []).op = 514 ∧ (sStd { : Registrar } (pl 512 [])).dev.live = true ∧
    (sStd { : Registrar } (pl 512 [])).dev.reg.running = true ∧ (sStd { : Registrar } (pl 512 [])).dev.reg.safe = false ∧
    (sStd { : Registrar } (pl 512 [])).dev.reg.cmdQ = [pl 512 []] ∧ (pl 512 []).box < 64 ∧
    (sStd { : Registrar } (pl 512 [])).dev.ctx (pl 512 []) = some Ctx.operator ∧ (pl 512 []).op = 512 ∧
    (sStd { : Registrar } (pl 513 (0 :: 2 :: List.replicate 200 0))).dev.live = true ∧
    (sStd { : Registrar } (pl 513 (0 :: 2 :: List.replicate 200 0))).dev.reg.running = true ∧
    (sStd { : Registrar } (pl 513 (0 :: 2 :: List.replicate 200 0))).dev.reg.safe = false ∧
    (sStd { : Registrar } (pl 513 (0 :: 2 :: List.replicate 200 0))).dev.reg.cmdQ = [pl 513 (0 :: 2 :: List.replicate 200 0)] ∧
    (pl 513 (0 :: 2 :: List.replicate 200 0)).box < 64 ∧
    (sStd { : Registrar } (pl 513 (0 :: 2 :: List.replicate 200 0))).dev.ctx (pl 513 (0 :: 2 :: List.replicate 200 0)) = some Ctx.operator ∧
    (pl 513 (0 :: 2 :: List.replicate 200 0)).op = 513 ∧ 128 ≤ (pl 513 (0 :: 2 :: List.replicate 200 0)).data.length ∧
    (sStd { : Registrar } (pl 513 (0 :: 2 :: List.replicate 200 0))).dev.reg.fwXfer = none ∧
    1 ≤ (pl 513 (0 :: 2 :: List.replicate 200 0)).num 1 1 ∧ (pl 513 (0 :: 2 :: List.replicate 200 0)).num 1 1 ≤ 3 ∧
    (pl 513 (0 :: 2 :: List.replicate 200 0)).num 1 1 ≠ (sStd { : Registrar } (pl 513 (0 :: 2 :: List.replicate 200 0))).dev.reg.slot ∧
    (pl 513 (0 :: 2 :: List.replicate 200 0)).num 0 1 = 0 := by
  decide +kernel

theorem w_StandardCommands_10 :
    (sStd { : Registrar } (pl 513 (1 :: 2 :: List.replicate 200 0))).dev.live = true ∧
    (sStd { : Registrar } (pl 513 (1 :: 2 :: List.replicate 200 0))).dev.reg.running = true ∧
    (sStd { : Registrar } (pl 513 (1 :: 2 :: List.replicate 200 0))).dev.reg.safe = false ∧
    (sStd { : Registrar } (pl 513 (1 :: 2 :: List.replicate 200 0))).dev.reg.cmdQ = [pl 513 (1 :: 2 :: List.replicate 200 0)] ∧
    (pl 513 (1 :: 2 :: List.replicate 200 0)).box < 64 ∧
    (sStd { : Registrar } (pl 513 (1 :: 2 :: List.replicate 200 0))).dev.ctx (pl 513 (1 :: 2 :: List.replicate 200 0)) = some Ctx.operator ∧
    (pl 513 (1 :: 2 :: List.replicate 200 0)).op = 513 ∧ 128 ≤ (pl 513 (1 :: 2 :: List.replicate 200 0)).data.length ∧
    (sStd { : Registrar } (pl 513 (1 :: 2 :: List.replicate 200 0))).dev.reg.fwXfer = none ∧
    1 ≤ (pl 513 (1 :: 2 :: List.replicate 200 0)).num 1 1 ∧ (pl 513 (1 :: 2 :: List.replicate 200 0)).num 1 1 ≤ 3 ∧
    (pl 513 (1 :: 2 :: List.replicate 200 0)).num 1 1 ≠ (sStd { : Registrar } (pl 513 (1 :: 2 :: List.replicate 200 0))).dev.reg.slot ∧
    (pl 513 (1 :: 2 :: List.replicate 200 0)).num 0 1 = 1 ∧ (pl 513 (1 :: 2 :: List.replicate 200 0)).num 4 4 = 0 ∧
    (sStd { : Registrar } (pl 513 (2 :: 2 :: List.replicate 200 0))).dev.live = true ∧
    (sStd { : Registrar } (pl 513 (2 :: 2 :: List.replicate 200 0))).dev.reg.running = true ∧
    (sStd { : Registrar } (pl 513 (2 :: 2 :: List.replicate 200 0))).dev.reg.safe = false ∧
    (sStd { : Registrar } (pl 513 (2 :: 2 :: List.replicate 200 0))).dev.reg.cmdQ = [pl 513 (2 :: 2 :: List.replicate 200 0)] ∧
    (pl 513 (2 :: 2 :: List.replicate 200 0)).box < 64 ∧
    (sStd { : Registrar } (pl 513 (2 :: 2 :: List.replicate 200 0))).dev.ctx (pl 513 (2 :: 2 :: List.replicate 200 0)) = some Ctx.operator ∧
    (pl 513 (2 :: 2 :: List.replicate 200 0)).op = 513 ∧ 128 ≤ (pl 513 (2 :: 2 :: List.replicate 200 0)).data.length ∧
    (sStd { : Registrar } (pl 513 (2 :: 2 :: List.replicate 200 0))).dev.reg.fwXfer = none ∧
    1 ≤ (pl 513 (2 :: 2 :: List.replicate 200 0)).num 1 1 ∧ (pl 513 (2 :: 2 :: List.replicate 200 0)).num 1 1 ≤ 3 ∧
    (pl 513 (2 :: 2 :: List.replicate 200 0)).num 1 1 ≠ (sStd { : Registrar } (pl 513 (2 :: 2 :: List.replicate 200 0))).dev.reg.slot ∧
    (pl 513 (2 :: 2 :: List.replicate 200 0)).num 0 1 = 2 := by
  decide +kernel

theorem w_StandardCommands_11 :
    (sStd { : Registrar } (pl 514 [1, 2])).dev.live = true ∧ (sStd { : Registrar } (pl 514 [1, 2])).dev.reg.running = true ∧
    (sStd { : Registrar } (pl 514 [1, 2])).dev.reg.safe = false ∧
    (sStd { : Registrar } (pl 514 [1, 2])).dev.reg.cmdQ = [pl 514 [1, 2]] ∧ (pl 514 [1, 2]).box < 64 ∧
    (sStd { : Registrar } (pl 514 [1, 2])).dev.ctx (pl 514 [1, 2]) = some Ctx.operator ∧ (pl 514 [1, 2]).op = 514 ∧
    (pl 514 [1, 2]).data.length = 2 ∧ ((pl 514 [1, 2]).num 1 1 = 1 ∨ (pl 514 [1, 2]).num 1 1 = 2) ∧ (pl 514 [1, 2]).num 0 1 = 1 ∧
    (sStd { bg := [{ box := 32, op := 49171, obj := 0 : Bg }] : Registrar } (pl 514 [0, 2])).dev.live = true ∧
    (sStd { bg := [{ box := 32, op := 49171, obj := 0 : Bg }] : Registrar } (pl 514 [0, 2])).dev.reg.running = true ∧
    (sStd { bg := [{ box := 32, op := 49171, obj := 0 : Bg }] : Registrar } (pl 514 [0, 2])).dev.reg.safe = false ∧
    (sStd { bg := [{ box := 32, op := 49171, obj := 0 : Bg }] : Registrar } (pl 514 [0, 2])).dev.reg.cmdQ = [pl 514 [0, 2]] ∧
    (pl 514 [0, 2]).box < 64 ∧
    (sStd { bg := [{ box := 32, op := 49171, obj := 0 : Bg }] : Registrar } (pl 514 [0, 2])).dev.ctx (pl 514 [0, 2]) = some Ctx.operator ∧
    (pl 514 [0, 2]).op = 514 ∧ (pl 514 [0, 2]).data.length = 2 ∧ ((pl 514 [0, 2]).num 1 1 = 1 ∨ (pl 514 [0, 2]).num 1 1 = 2) ∧
    (pl 514 [0, 2]).num 0 1 = 0 ∧
    (pl 514 [0, 2]).num 1 1 ≠ (sStd { bg := [{ box := 32, op := 49171, obj := 0 : Bg }] : Registrar } (pl 514 [0, 2])).dev.reg.slot ∧
    (sStd { bg := [{ box := 32, op := 49171, obj := 0 : Bg }] : Registrar } (pl 514 [0, 2])).dev.reg.bg ≠ [] ∧
    (sStd { : Registrar } (pl 514 [0, 2])).dev.live = true ∧ (sStd { : Registrar } (pl 514 [0, 2])).dev.reg.running = true ∧
    (sStd { : Registrar } (pl 514 [0, 2])).dev.reg.safe = false ∧
    (sStd { : Registrar } (pl 514 [0, 2])).dev.reg.cmdQ = [pl 514 [0, 2]] ∧
    (sStd { : Registrar } (pl 514 [0, 2])).dev.ctx (pl 514 [0, 2]) = some Ctx.operator ∧
    (pl 514 [0, 2]).num 1 1 ≠ (sStd { : Registrar } (pl 514 [0, 2])).dev.reg.slot ∧
    (sStd { : Registrar } (pl 514 [0, 2])).dev.reg.bg = [] ∧
    (∀ w < 16, (sStd { : Registrar } (pl 514 [0, 2])).dev.wgState w ≠ wgReleasing) := by
  decide +kernel

theorem w_StandardCommands_12 :
    (sStd { : Registrar } (pl 21760 [])).dev.live = true ∧ (sStd { : Registrar } (pl 21760 [])).dev.reg.running = true ∧
    (sStd { : Registrar } (pl 21760 [])).dev.reg.safe = false ∧ (sStd { : Registrar } (pl 21760 [])).dev.reg.cmdQ = [pl 21760 []] ∧
    (pl 21760 []).box < 64 ∧ (pl 21760 []).place = 32 ∧ (pl 21760 []).op = 21760 ∧
    (sStd { : Registrar } (pl 21761 [0])).dev.live = true ∧ (sStd { : Registrar } (pl 21761 [0])).dev.reg.running = true ∧
    (sStd { : Registrar } (pl 21761 [0])).dev.reg.safe = false ∧ (sStd { : Registrar } (pl 21761 [0])).dev.reg.cmdQ = [pl 21761 [0]] ∧
    (pl 21761 [0]).box < 64 ∧ (pl 21761 [0]).place = 32 ∧ (pl 21761 [0]).op = 21761 ∧
    (sStd { : Registrar } (pl 21761 [0])).dev.headExists ((pl 21761 [0]).num 0 1) = true ∧
    (sStd { : Registrar } (pl 22016 [])).dev.live = true ∧ (sStd { : Registrar } (pl 22016 [])).dev.reg.running = true ∧
    (sStd { : Registrar } (pl 22016 [])).dev.reg.safe = false ∧ (sStd { : Registrar } (pl 22016 [])).dev.reg.cmdQ = [pl 22016 []] ∧
    (pl 22016 []).box < 64 ∧ (pl 22016 []).place = 32 ∧ (pl 22016 []).op = 22016 ∧ (sDc [] dcRg (pl 22017 [1])).dev.live = true ∧
    (sDc [] dcRg (pl 22017 [1])).dev.reg.running = true ∧ (sDc [] dcRg (pl 22017 [1])).dev.reg.safe = false ∧
    (sDc [] dcRg (pl 22017 [1])).dev.reg.cmdQ = [pl 22017 [1]] ∧ (pl 22017 [1]).box < 64 ∧ (pl 22017 [1]).place = 32 ∧
    (sDc [] dcRg (pl 22017 [1])).dev.personality (BitVec.ofNat 4 ((pl 22017 [1]).num 0 1)) = 3 ∧ (pl 22017 [1]).op = 22017 := by
  decide +kernel

theorem w_StandardCommands_13 :
    (sDc [dcOne DcSt.offered] dcRg (pl 22019 [1])).dev.live = true ∧
    (sDc [dcOne DcSt.offered] dcRg (pl 22019 [1])).dev.reg.running = true ∧
    (sDc [dcOne DcSt.offered] dcRg (pl 22019 [1])).dev.reg.safe = false ∧
    (sDc [dcOne DcSt.offered] dcRg (pl 22019 [1])).dev.reg.cmdQ = [pl 22019 [1]] ∧ (pl 22019 [1]).box < 64 ∧
    (pl 22019 [1]).place = 32 ∧
    (sDc [dcOne DcSt.offered] dcRg (pl 22019 [1])).dev.personality (BitVec.ofNat 4 ((pl 22019 [1]).num 0 1)) = 3 ∧
    (pl 22019 [1]).op = 22019 ∧ (sDc [] dcRg (pl 22018 dcdPay)).dev.live = true ∧
    (sDc [] dcRg (pl 22018 dcdPay)).dev.reg.running = true ∧ (sDc [] dcRg (pl 22018 dcdPay)).dev.reg.safe = false ∧
    (sDc [] dcRg (pl 22018 dcdPay)).dev.reg.cmdQ = [pl 22018 dcdPay] ∧ (pl 22018 dcdPay).box < 64 ∧ (pl 22018 dcdPay).place = 32 ∧
    (sDc [] dcRg (pl 22018 dcdPay)).dev.personality (BitVec.ofNat 4 ((pl 22018 dcdPay).num 0 1)) = 3 ∧
    (pl 22018 dcdPay).data.length = 24 ∧ (pl 22018 dcdPay).num 0 1 < 16 ∧ (pl 22018 dcdPay).num 1 1 < 8 ∧
    (pl 22018 dcdPay).num 8 8 % 2 ^ 28 = 0 ∧ (pl 22018 dcdPay).num 16 8 % 2 ^ 28 = 0 ∧ (pl 22018 dcdPay).num 16 8 ≠ 0 ∧
    (sDc [] dcRg (pl 22018 dcdPay)).dev.ownsRange ((sDc [] dcRg (pl 22018 dcdPay)).dev.headWing (BitVec.ofNat 4 ((pl 22018 dcdPay).num 0 1))) ((pl 22018 dcdPay).num 8 8) ((pl 22018 dcdPay).num 16 8) = true ∧
    (pl 22018 dcdPay).op = 22018 ∧ ((sDc [] dcRg (pl 22018 dcdPay)).dev.head (BitVec.ofNat 4 ((pl 22018 dcdPay).num 0 1))).dc = [] := by
  decide +kernel

theorem w_StandardCommands_14 :
    (sDc [] dcRg (pl 22020 dcdPay)).dev.live = true ∧ (sDc [] dcRg (pl 22020 dcdPay)).dev.reg.running = true ∧
    (sDc [] dcRg (pl 22020 dcdPay)).dev.reg.safe = false ∧ (sDc [] dcRg (pl 22020 dcdPay)).dev.reg.cmdQ = [pl 22020 dcdPay] ∧
    (pl 22020 dcdPay).box < 64 ∧ (pl 22020 dcdPay).place = 32 ∧
    (sDc [] dcRg (pl 22020 dcdPay)).dev.personality (BitVec.ofNat 4 ((pl 22020 dcdPay).num 0 1)) = 3 ∧
    (pl 22020 dcdPay).data.length = 24 ∧ (pl 22020 dcdPay).num 0 1 < 16 ∧ (pl 22020 dcdPay).num 1 1 < 8 ∧
    (pl 22020 dcdPay).num 8 8 % 2 ^ 28 = 0 ∧ (pl 22020 dcdPay).num 16 8 % 2 ^ 28 = 0 ∧ (pl 22020 dcdPay).num 16 8 ≠ 0 ∧
    (sDc [] dcRg (pl 22020 dcdPay)).dev.ownsRange ((sDc [] dcRg (pl 22020 dcdPay)).dev.headWing (BitVec.ofNat 4 ((pl 22020 dcdPay).num 0 1))) ((pl 22020 dcdPay).num 8 8) ((pl 22020 dcdPay).num 16 8) = true ∧
    (pl 22020 dcdPay).op = 22020 ∧ (sDc [] dcRg (pl 22020 dcdPay)).dev.fatal = false ∧
    ((sDc [] dcRg (pl 22020 dcdPay)).dev.head (BitVec.ofNat 4 ((pl 22020 dcdPay).num 0 1))).dc = [] ∧
    Fmap.get { : DcRegion } ((sDc [] dcRg (pl 22020 dcdPay)).dev.head (BitVec.ofNat 4 ((pl 22020 dcdPay).num 0 1))).dcRegions ((pl 22020 dcdPay).num 1 1) = { base := (pl 22020 dcdPay).num 8 8, len := (pl 22020 dcdPay).num 16 8 : DcRegion } := by
  decide +kernel

theorem w_StandardCommands_15 :
    (sDc [dcOne DcSt.accepted] dcRg (pl 22021 dcdPay)).dev.live = true ∧
    (sDc [dcOne DcSt.accepted] dcRg (pl 22021 dcdPay)).dev.reg.running = true ∧
    (sDc [dcOne DcSt.accepted] dcRg (pl 22021 dcdPay)).dev.reg.safe = false ∧
    (sDc [dcOne DcSt.accepted] dcRg (pl 22021 dcdPay)).dev.reg.cmdQ = [pl 22021 dcdPay] ∧ (pl 22021 dcdPay).box < 64 ∧
    (pl 22021 dcdPay).place = 32 ∧
    (sDc [dcOne DcSt.accepted] dcRg (pl 22021 dcdPay)).dev.personality (BitVec.ofNat 4 ((pl 22021 dcdPay).num 0 1)) = 3 ∧
    (pl 22021 dcdPay).data.length = 24 ∧ (pl 22021 dcdPay).num 0 1 < 16 ∧ (pl 22021 dcdPay).num 1 1 < 8 ∧
    (pl 22021 dcdPay).num 8 8 % 2 ^ 28 = 0 ∧ (pl 22021 dcdPay).num 16 8 % 2 ^ 28 = 0 ∧ (pl 22021 dcdPay).num 16 8 ≠ 0 ∧
    (sDc [dcOne DcSt.accepted] dcRg (pl 22021 dcdPay)).dev.ownsRange ((sDc [dcOne DcSt.accepted] dcRg (pl 22021 dcdPay)).dev.headWing (BitVec.ofNat 4 ((pl 22021 dcdPay).num 0 1))) ((pl 22021 dcdPay).num 8 8) ((pl 22021 dcdPay).num 16 8) = true ∧
    (pl 22021 dcdPay).op = 22021 ∧
    ((sDc [dcOne DcSt.accepted] dcRg (pl 22021 dcdPay)).dev.head (BitVec.ofNat 4 ((pl 22021 dcdPay).num 0 1))).dc = [{ region := (pl 22021 dcdPay).num 1 1, base := (pl 22021 dcdPay).num 8 8, len := (pl 22021 dcdPay).num 16 8, st := DcSt.accepted : DcExtent }] := by
  decide +kernel

/-- Opcodes and payload lengths: the operator's, a wing's own, a region's, and those of safe mode (Table 16-5). -/
def opsOp : List (Nat × Nat) :=
  [(0xC000, 2), (0xC002, 6), (0xC003, 1), (0xC004, 1), (0xC006, 1), (0xC008, 40), (0xC009, 8), (0xC00C, 6), (0xC00D, 6), (0xC010, 1),
   (0xC011, 6), (0xC012, 10), (0xC013, 5), (0xC014, 1), (0xC017, 1), (0xC018, 1), (0xC019, 1), (0xC01A, 3)] ++
  [(0xC020, 12), (0xC021, 5), (0xC022, 7), (0xC040, 2), (0xC041, 18), (0xC042, 1), (0xC043, 2), (0xC050, 9), (0xC052, 1), (0xC053, 0)]
def opsWing : List (Nat × Nat) := [(0xC005, 1), (0xC007, 1), (0xC015, 24), (0xC016, 24)]
def opsRegion : List (Nat × Nat) := [(0xC030, 72), (0xC031, 2), (0xC032, 2), (0xC033, 2), (0xC034, 3), (0xC035, 2)]
def opsSafe : List (Nat × Nat) := [(0xC051, 0), (0xC054, 4)]

theorem w_MailboxChecks_doorbell :
    (sMb []).dev.live = true ∧ (sMb []).dev.boxServed 5 = false ∧ (sMb [⟨16, 0xC001, []⟩]).dev.reg.cmdQ.any (fun x => x.box = 16) = true ∧
    (sMb []).dev.boxServed 32 = true ∧ (sMb []).dev.reg.running = true ∧ (sMb []).dev.reg.cmdQ = [] ∧ 0xC0FF ∉ mbOpcodes ∧
    (sMb [⟨32, 0xC001, []⟩]).dev.boxServed 16 = true ∧ (sMb [⟨32, 0xC001, []⟩]).dev.reg.cmdQ.any (fun x => x.box = 16) = false ∧
    0xC000 ∈ mbOpcodes := by
  decide +kernel
theorem w_MailboxChecks_none_or_length :
    ∀ p ∈ opsOp ++ opsWing ++ opsRegion ++ opsSafe, (sMb []).dev.mbFront p.1 = none ∧
      (sMb [mc p.1 (p.2 + 1) 0]).dev.mbFront p.1 = some (mc p.1 (p.2 + 1) 0) ∧ (mc p.1 (p.2 + 1) 0).data.length ≠ p.2 := by
  decide +kernel
theorem w_MailboxChecks_denied :
    (∀ p ∈ opsOp ++ opsSafe, (sMb [mw p.1 p.2 0]).dev.reg.safe = false ∧ (sMb [mw p.1 p.2 0]).dev.ctx (mw p.1 p.2 0) = some (.wing 0) ∧
      (sMb [mw p.1 p.2 0]).dev.mbFront p.1 = some (mw p.1 p.2 0) ∧ (mw p.1 p.2 0).data.length = p.2) ∧
    (∀ p ∈ opsWing, (sMb [mw p.1 p.2 1]).dev.ctx (mw p.1 p.2 1) = some (.wing 0) ∧
      (sMb [mw p.1 p.2 1]).dev.mbFront p.1 = some (mw p.1 p.2 1) ∧ (mw p.1 p.2 1).data.length = p.2 ∧ (mw p.1 p.2 1).num 0 1 ≠ 0) ∧
    (∀ p ∈ opsRegion, (sMb [mw p.1 p.2 255]).dev.ctx (mw p.1 p.2 255) = some (.wing 0) ∧
      (sMb [mw p.1 p.2 255]).dev.mbFront p.1 = some (mw p.1 p.2 255) ∧ (mw p.1 p.2 255).data.length = p.2 ∧
      (sMb [mw p.1 p.2 255]).dev.regionWing ((mw p.1 p.2 255).num 0 2) ≠ 0) ∧
    (sMb [mw 0xC00A 72 0]).dev.mbFront 0xC00A = some (mw 0xC00A 72 0) ∧ (mw 0xC00A 72 0).data.length = 72 := by
  decide +kernel
theorem w_MailboxChecks_operator :
    (sMbF [mc 0xC000 2 0]).dev.ctx (mc 0xC000 2 0) = some .operator ∧ (sMbF [mc 0xC000 2 0]).dev.mbFront 0xC000 = some (mc 0xC000 2 0) ∧
    (sMbF [mc 0xC000 2 0]).dev.fatal = true ∧ (sMb [mc 0xC015 24 1]).dev.mbFront 0xC015 = some (mc 0xC015 24 1) ∧
    (mc 0xC015 24 1).clean [(0, 2), (8, 16)] = false ∧ (sMbF [mc 0xC032 2 0]).dev.mbFront 0xC032 = some (mc 0xC032 2 0) ∧
    (sMbF [mc 0xC032 2 0]).dev.fatal = true ∧ (sMbB [mc 0xC003 1 0]).dev.mbFront 0xC003 = some (mc 0xC003 1 0) ∧
    (mc 0xC003 1 0).clean [(0, 1)] = true ∧ (sMbB [mc 0xC003 1 0]).dev.reg.bg.any (fun b => b.box = (mc 0xC003 1 0).place) = true := by
  decide +kernel
theorem w_MailboxChecks_safe :
    ∀ p ∈ opsOp ++ opsWing ++ opsRegion, (sMbS [mc p.1 p.2 0]).dev.live = true ∧ (sMbS [mc p.1 p.2 0]).dev.reg.safe = true ∧
      (sMbS [mc p.1 p.2 0]).dev.mbFront p.1 = some (mc p.1 p.2 0) ∧ (mc p.1 p.2 0).data.length = p.2 := by
  decide +kernel

/-! ### Wings -/

/-- A payload of n bytes with the value v, little endian; at offset i a value is `adr x i`. -/
def pc (op n v : Nat) : MbCmd := ⟨32, op, (List.range n).map (fun i => BitVec.ofNat 8 (v / 256 ^ i))⟩
def psc (op n v : Nat) : MbCmd := { pc op n v with box := 33 }
/-- Wing 1 is ACTIVE with a key; wing 0 owns the looms 5 and 6 and 256 MiB. -/
def wgDev (r : Registrar) : Dev :=
  { ((mbDev r).setFld Fld.WING_STATE_STATE 1 wgActive).setFld Fld.WING_STATE_KEY_LOADED 1 1 with loomWing := [(5, 0), (6, 0)] }
def sWg (c : MbCmd) : State := st (wgDev { cmdQ := [c] })
def sWgF (c : MbCmd) (f : Field) (i v : Nat) : State := st ((wgDev { cmdQ := [c] }).setFld f i v)
def looms1 : List LoomId := [5, 7]
/-- Loom bits 5 and 7, for wing 1. -/
def gHead : List Byte := [1] ++ List.replicate 15 0 ++ [0xA0]
def gLm : MbCmd := ⟨32, 0xC001, gHead ++ List.replicate 511 0⟩
def sFreeLooms : State := let s := sWg gLm; { s with dev := { s.dev with loomWing := [] } }
def gExt (blocks base : Nat) : MbCmd := pc 0xC001 16 (0x101 + adr blocks 4 + adr base 8)
def gReg (first count : Nat) : MbCmd := pc 0xC001 8 (0x201 + adr first 4 + adr count 6)
def gWay (ways al : Nat) : MbCmd := pc 0xC001 7 (0x301 + adr ways 4 + adr al 6)
def gWin : MbCmd := pc 0xC001 5 (0x401 + adr 0x81 4)
def kLoad : MbCmd := psc 0xC00A 72 (1 + adr 0x77 4 + adr (2 ^ 511 + 9) 8)
def kLoad0 : MbCmd := psc 0xC00A 72 (0 + adr 0x77 4)
def gQ (w h q : Nat) : MbCmd := pc 0xC009 8 (w + adr h 1 + adr 3 2 + adr q 4 + adr 1 6)
def gH (h v p : Nat) : MbCmd := pc 0xC008 40 (h + adr v 1 + adr p 2)
def winSet (v : Nat) : MbCmd := pc 0xC00B 16 (7 + adr 1 2 + adr 32767 4 + adr v 8)
def fill1 : Fill := { wing := 1, base := 0x10000000, len := 0x10000000, box := 32 }
def sFill : State := st { wgDev { fills := [fill1], bg := [⟨32, 0xC001, 0x10000000⟩] } with tiers := { mem := [(0xFFFFFFF, 9), (0x10000000, 5)] } }
def wOne (op w : Nat) : MbCmd := pc op 1 w
def lm (op w n : Nat) : MbCmd := pc op 6 (w + adr n 4)
def sLm (st_ : Nat) (c : MbCmd) : State := st ((withLoom loom0 (wgDev { cmdQ := [c] })).setLoomState 5 st_)
def sLmUp (st_ : Nat) (c : MbCmd) : State := st (((withLoom loom0 (wgDev { cmdQ := [c] })).setLoomState 5 st_).setFld Fld.TILE_STATE_STATE 0 3)
def sRel : State := st { (wgDev { rel := [(1, { box := 32 })], bg := [⟨32, 0xC003, 1⟩] }).setFld Fld.WING_STATE_STATE 1 wgReleasing with
  wings := [(0, { extents := [(0, 0x10000000)] }), (1, { extents := [(0x10000000, 0x10000000)] })], tiers := { mem := [(0x10000000, 5)] } }
def sWays (ways al : Nat) : State := st { (wgDev { cmdQ := [gWay ways al] }).setFld Fld.ATRIUM_WING_WAYS 0 1 with asm := .d12x4 }
def gQs (v h p q n : Nat) : MbCmd := pc 0xC009 8 (v + adr h 1 + adr p 2 + adr q 4 + adr n 6)
def sQ511 : State := st { (((wgDev { cmdQ := [gQs 0xFF 0 0 511 1] }).setFld Fld.QUEUE_BIND_VALID 511 1).setFld Fld.QUEUE_BIND_WING 511 1) with heads := [] }
def gHx (h v p x : Nat) : MbCmd := pc 0xC008 40 (h + adr v 1 + adr p 2 + adr x 8)
def sHx (c : MbCmd) : State := st { wgDev { cmdQ := [c] } with wings := [(1, { extents := [(0x10000000, 0x10000000)] })] }
def ext64 : List (Nat × Nat) := (List.range 64).map (fun i => (2 ^ 32 + i * 2 ^ 28, 2 ^ 28))
def sKeyed (c : MbCmd) : State := st { wgDev { cmdQ := [c] } with wings := [(1, { extents := [(0x20000000, 0x10000000)] })] }
def sSt7 (c : MbCmd) : State := st { (wgDev { cmdQ := [c] }).setLoomState 7 stFenced with loomWing := [] }
def sExt64 (c : MbCmd) : State := st { wgDev { cmdQ := [c] } with wings := [(1, { extents := ext64 })] }
/-- Port 0 serves a read of the peer 7 through the window entry 32767. -/
def sWin (c : MbCmd) : State := st { (wgDev { cmdQ := [c] }).setFld Fld.IKQ_PORT_PEER 0 7 with
  ports := [(0, { serve := [(0, { opc := 1, vc := 0, epoch := 0, off := 0x1FFFC000000 })] })] }
/-- Head 1 has the line of the first byte of wing 1's 256 MiB. -/
def held1 : Fmap CatEnt := [(0x100000, { d0 := { st := .excl, owner := 4097 } })]
def sFillOn (w : Weave) : State := st { sFill.dev with weave := w }
def sRelHeld : State := st { sRel.dev with weave := { cat := held1 } }

def c15_22_a_1 := st (((wgDev { cmdQ := [gReg 4000 96] : Registrar }).setFld Fld.WING_RES_REGION_COUNT 1 1).setRgState 0 rgOpen)

theorem w_WingGrants_1 :
    (sWg (pc 49152 2 0)).Serves (pc 49152 2 0) 49152 2 [(0, 2)] Right.op ∧ (pc 49152 2 0).num 1 1 < 4 ∧
    ((pc 49152 2 0).num 0 1 = 0 ∨ (pc 49152 2 0).num 0 1 ≥ 16) ∧
    (sWg (pc 49152 2 16)).Serves (pc 49152 2 16) 49152 2 [(0, 2)] Right.op ∧ (pc 49152 2 16).num 1 1 < 4 ∧
    ((pc 49152 2 16).num 0 1 = 0 ∨ (pc 49152 2 16).num 0 1 ≥ 16) := by
  unfold State.Serves; decide +kernel

theorem w_WingGrants_2 :
    (sWg (pc 49152 2 1)).Serves (pc 49152 2 1) 49152 2 [(0, 2)] Right.op ∧ (pc 49152 2 1).num 1 1 < 4 ∧ 1 ≤ (pc 49152 2 1).num 0 1 ∧
    (pc 49152 2 1).num 0 1 < 16 ∧ (sWg (pc 49152 2 1)).dev.wgState ((pc 49152 2 1).num 0 1) ≠ wgFree ∧
    (sWg (pc 49152 2 271)).Serves (pc 49152 2 271) 49152 2 [(0, 2)] Right.op ∧ (pc 49152 2 271).num 1 1 < 4 ∧
    1 ≤ (pc 49152 2 271).num 0 1 ∧ (pc 49152 2 271).num 0 1 < 16 ∧
    (sWg (pc 49152 2 271)).dev.wgState ((pc 49152 2 271).num 0 1) = wgFree ∧ (pc 49152 2 271).num 1 1 < 2 := by
  unfold State.Serves; decide +kernel

theorem w_WingGrants_3 :
    (sWg (pc 49152 2 783)).Serves (pc 49152 2 783) 49152 2 [(0, 2)] Right.op ∧ (pc 49152 2 783).num 1 1 < 4 ∧
    1 ≤ (pc 49152 2 783).num 0 1 ∧ (pc 49152 2 783).num 0 1 < 16 ∧
    (sWg (pc 49152 2 783)).dev.wgState ((pc 49152 2 783).num 0 1) = wgFree ∧ 2 ≤ (pc 49152 2 783).num 1 1 ∧
    (sWg (pc 49153 528 9)).dev.wingUsable ((pc 49153 528 9).num 0 1) = some 6 ∧
    ((fun kind len fields ↦ (sWg (pc 49153 528 9)).Serves (pc 49153 528 9) 49153 len ((0, 2) :: fields) Right.op ∧ (pc 49153 528 9).num 1 1 = kind) 0 528 [(16, 512)]) := by
  unfold State.Serves; decide +kernel

theorem w_WingGrants_4 :
    (sWg (pc 49153 16 265)).dev.wingUsable ((pc 49153 16 265).num 0 1) = some 6 ∧
    ((fun kind len fields ↦ (sWg (pc 49153 16 265)).Serves (pc 49153 16 265) 49153 len ((0, 2) :: fields) Right.op ∧ (pc 49153 16 265).num 1 1 = kind) 1 16 [(4, 12)]) ∧
    (sWg (pc 49153 8 521)).dev.wingUsable ((pc 49153 8 521).num 0 1) = some 6 ∧
    ((fun kind len fields ↦ (sWg (pc 49153 8 521)).Serves (pc 49153 8 521) 49153 len ((0, 2) :: fields) Right.op ∧ (pc 49153 8 521).num 1 1 = kind) 2 8 [(4, 4)]) ∧
    (sWg (pc 49153 7 777)).dev.wingUsable ((pc 49153 7 777).num 0 1) = some 6 ∧
    ((fun kind len fields ↦ (sWg (pc 49153 7 777)).Serves (pc 49153 7 777) 49153 len ((0, 2) :: fields) Right.op ∧ (pc 49153 7 777).num 1 1 = kind) 3 7 [(4, 3)]) := by
  unfold State.Serves; decide +kernel

theorem w_WingGrants_5 :
    (sWg (pc 49153 5 1033)).dev.wingUsable ((pc 49153 5 1033).num 0 1) = some 6 ∧
    ((fun kind len fields ↦ (sWg (pc 49153 5 1033)).Serves (pc 49153 5 1033) 49153 len ((0, 2) :: fields) Right.op ∧ (pc 49153 5 1033).num 1 1 = kind) 4 5 [(4, 1)]) ∧
    (sWg (psc 49162 72 9)).dev.wingUsable ((psc 49162 72 9).num 0 1) = some 6 ∧
    (sWg (psc 49162 72 9)).Serves (psc 49162 72 9) 49162 72 [(0, 1), (4, 68)] Right.sec := by
  unfold State.Serves; decide +kernel

theorem w_WingGrants_6 :
    (sWg (gQs 9 0 0 511 1)).dev.wingUsable ((gQs 9 0 0 511 1).num 0 1) = some 6 ∧
    ((sWg (gQs 9 0 0 511 1)).Serves (gQs 9 0 0 511 1) 49161 8 [(0, 3), (4, 4)] Right.op ∧ (gQs 9 0 0 511 1).num 6 2 ≠ 0 ∧ (gQs 9 0 0 511 1).num 4 2 + (gQs 9 0 0 511 1).num 6 2 ≤ 512) ∧
    (gQs 9 0 0 511 1).num 0 1 ≠ 255 ∧ (sWg gLm).dev.wingUsable (gLm.num 0 1) = none ∧
    ((fun kind len fields ↦ (sWg gLm).Serves gLm 49153 len ((0, 2) :: fields) Right.op ∧ gLm.num 1 1 = kind) 0 528 [(16, 512)]) ∧
    (looms1.any fun n ↦ decide ((sWg gLm).dev.wingOf n ≠ noWing)) = true := by
  unfold State.Serves; decide +kernel

theorem w_WingGrants_7 :
    (sSt7 gLm).dev.wingUsable (gLm.num 0 1) = none ∧
    ((fun kind len fields ↦ (sSt7 gLm).Serves gLm 49153 len ((0, 2) :: fields) Right.op ∧ gLm.num 1 1 = kind) 0 528 [(16, 512)]) ∧
    (looms1.all fun n ↦ decide ((sSt7 gLm).dev.wingOf n = noWing)) = true ∧
    (looms1.any fun n ↦ decide ((sSt7 gLm).dev.loomState n ≠ stIdle) && decide ((sSt7 gLm).dev.loomState n ≠ stStopped)) = true ∧
    sFreeLooms.dev.wingUsable (gLm.num 0 1) = none ∧
    ((fun kind len fields ↦ sFreeLooms.Serves gLm 49153 len ((0, 2) :: fields) Right.op ∧ gLm.num 1 1 = kind) 0 528 [(16, 512)]) ∧
    (looms1.all fun n ↦ decide (sFreeLooms.dev.wingOf n = noWing) && (decide (sFreeLooms.dev.loomState n = stIdle) || decide (sFreeLooms.dev.loomState n = stStopped))) = true := by
  unfold State.Serves; decide +kernel

theorem w_WingGrants_8 :
    (sWg (gExt 1 4096)).dev.wingUsable ((gExt 1 4096).num 0 1) = none ∧
    ((fun kind len fields ↦ (sWg (gExt 1 4096)).Serves (gExt 1 4096) 49153 len ((0, 2) :: fields) Right.op ∧ (gExt 1 4096).num 1 1 = kind) 1 16 [(4, 12)]) ∧
    ((gExt 1 4096).num 8 8 % 2 ^ 28 ≠ 0 ∨ (gExt 1 4096).num 4 4 * 2 ^ 28 = 0 ∨ ¬((gExt 1 4096).num 8 8 + (gExt 1 4096).num 4 4 * 2 ^ 28 ≤ (sWg (gExt 1 4096)).dev.dspSize ∨ depotBase ≤ (gExt 1 4096).num 8 8 ∧ (gExt 1 4096).num 8 8 + (gExt 1 4096).num 4 4 * 2 ^ 28 ≤ depotBase + (sWg (gExt 1 4096)).dev.depSize)) ∧
    (sWg (gExt 1 0)).dev.wingUsable ((gExt 1 0).num 0 1) = none ∧
    ((fun kind len fields ↦ (sWg (gExt 1 0)).Serves (gExt 1 0) 49153 len ((0, 2) :: fields) Right.op ∧ (gExt 1 0).num 1 1 = kind) 1 16 [(4, 12)]) ∧
    (gExt 1 0).num 8 8 % 2 ^ 28 = 0 ∧ (gExt 1 0).num 4 4 * 2 ^ 28 ≠ 0 ∧
    ((gExt 1 0).num 8 8 + (gExt 1 0).num 4 4 * 2 ^ 28 ≤ (sWg (gExt 1 0)).dev.dspSize ∨ depotBase ≤ (gExt 1 0).num 8 8 ∧ (gExt 1 0).num 8 8 + (gExt 1 0).num 4 4 * 2 ^ 28 ≤ depotBase + (sWg (gExt 1 0)).dev.depSize) ∧
    ((sWg (gExt 1 0)).dev.taken.any fun e ↦ overlap ((gExt 1 0).num 8 8) ((gExt 1 0).num 4 4 * 2 ^ 28) e.1 e.2) = true := by
  unfold State.Serves; decide +kernel

theorem w_WingGrants_9 :
    (sWgF (gExt 15 268435456) Fld.WING_STATE_KEY_LOADED 1 0).dev.wingUsable ((gExt 15 268435456).num 0 1) = none ∧
    ((fun kind len fields ↦ (sWgF (gExt 15 268435456) Fld.WING_STATE_KEY_LOADED 1 0).Serves (gExt 15 268435456) 49153 len ((0, 2) :: fields) Right.op ∧ (gExt 15 268435456).num 1 1 = kind) 1 16 [(4, 12)]) ∧
    (gExt 15 268435456).num 8 8 % 2 ^ 28 = 0 ∧ (gExt 15 268435456).num 4 4 * 2 ^ 28 ≠ 0 ∧
    ((gExt 15 268435456).num 8 8 + (gExt 15 268435456).num 4 4 * 2 ^ 28 ≤ (sWgF (gExt 15 268435456) Fld.WING_STATE_KEY_LOADED 1 0).dev.dspSize ∨ depotBase ≤ (gExt 15 268435456).num 8 8 ∧ (gExt 15 268435456).num 8 8 + (gExt 15 268435456).num 4 4 * 2 ^ 28 ≤ depotBase + (sWgF (gExt 15 268435456) Fld.WING_STATE_KEY_LOADED 1 0).dev.depSize) ∧
    ((sWgF (gExt 15 268435456) Fld.WING_STATE_KEY_LOADED 1 0).dev.taken.any fun e ↦ overlap ((gExt 15 268435456).num 8 8) ((gExt 15 268435456).num 4 4 * 2 ^ 28) e.1 e.2) = false ∧
    (sWgF (gExt 15 268435456) Fld.WING_STATE_KEY_LOADED 1 0).dev.fld Fld.WING_STATE_KEY_LOADED ((gExt 15 268435456).num 0 1) = 0 ∧
    (sExt64 (gExt 15 268435456)).dev.wingUsable ((gExt 15 268435456).num 0 1) = none ∧
    ((fun kind len fields ↦ (sExt64 (gExt 15 268435456)).Serves (gExt 15 268435456) 49153 len ((0, 2) :: fields) Right.op ∧ (gExt 15 268435456).num 1 1 = kind) 1 16 [(4, 12)]) ∧
    ((gExt 15 268435456).num 8 8 + (gExt 15 268435456).num 4 4 * 2 ^ 28 ≤ (sExt64 (gExt 15 268435456)).dev.dspSize ∨ depotBase ≤ (gExt 15 268435456).num 8 8 ∧ (gExt 15 268435456).num 8 8 + (gExt 15 268435456).num 4 4 * 2 ^ 28 ≤ depotBase + (sExt64 (gExt 15 268435456)).dev.depSize) ∧
    ((sExt64 (gExt 15 268435456)).dev.taken.any fun e ↦ overlap ((gExt 15 268435456).num 8 8) ((gExt 15 268435456).num 4 4 * 2 ^ 28) e.1 e.2) = false ∧
    (sExt64 (gExt 15 268435456)).dev.fld Fld.WING_STATE_KEY_LOADED ((gExt 15 268435456).num 0 1) = 1 ∧
    64 ≤ ((sExt64 (gExt 15 268435456)).dev.wing ((gExt 15 268435456).num 0 1)).extents.length + (List.filter (fun f ↦ decide (BitVec.toNat f.wing = (gExt 15 268435456).num 0 1)) (sExt64 (gExt 15 268435456)).dev.reg.fills).length := by
  unfold State.Serves; decide +kernel

theorem w_WingGrants_10 :
    (sWg (gExt 15 268435456)).dev.wingUsable ((gExt 15 268435456).num 0 1) = none ∧
    ((fun kind len fields ↦ (sWg (gExt 15 268435456)).Serves (gExt 15 268435456) 49153 len ((0, 2) :: fields) Right.op ∧ (gExt 15 268435456).num 1 1 = kind) 1 16 [(4, 12)]) ∧
    (gExt 15 268435456).num 8 8 % 2 ^ 28 = 0 ∧ (gExt 15 268435456).num 4 4 * 2 ^ 28 ≠ 0 ∧
    ((gExt 15 268435456).num 8 8 + (gExt 15 268435456).num 4 4 * 2 ^ 28 ≤ (sWg (gExt 15 268435456)).dev.dspSize ∨ depotBase ≤ (gExt 15 268435456).num 8 8 ∧ (gExt 15 268435456).num 8 8 + (gExt 15 268435456).num 4 4 * 2 ^ 28 ≤ depotBase + (sWg (gExt 15 268435456)).dev.depSize) ∧
    ((sWg (gExt 15 268435456)).dev.taken.any fun e ↦ overlap ((gExt 15 268435456).num 8 8) ((gExt 15 268435456).num 4 4 * 2 ^ 28) e.1 e.2) = false ∧
    (sWg (gExt 15 268435456)).dev.fld Fld.WING_STATE_KEY_LOADED ((gExt 15 268435456).num 0 1) = 1 ∧
    ((sWg (gExt 15 268435456)).dev.wing ((gExt 15 268435456).num 0 1)).extents.length + (List.filter (fun f ↦ decide (BitVec.toNat f.wing = (gExt 15 268435456).num 0 1)) (sWg (gExt 15 268435456)).dev.reg.fills).length < 64 ∧
    (sWg (gReg 4000 97)).dev.wingUsable ((gReg 4000 97).num 0 1) = none ∧
    ((fun kind len fields ↦ (sWg (gReg 4000 97)).Serves (gReg 4000 97) 49153 len ((0, 2) :: fields) Right.op ∧ (gReg 4000 97).num 1 1 = kind) 2 8 [(4, 4)]) ∧
    (gReg 4000 97).num 4 2 + (gReg 4000 97).num 6 2 > 4096 := by
  unfold State.Serves; decide +kernel

theorem w_WingGrants_11 :
    (st (((wgDev { cmdQ := [gReg 4000 96] : Registrar }).setFld Fld.WING_RES_REGION_COUNT 1 1).setRgState 0 rgOpen)).dev.wingUsable ((gReg 4000 96).num 0 1) = none ∧
    ((fun kind len fields ↦ (st (((wgDev { cmdQ := [gReg 4000 96] : Registrar }).setFld Fld.WING_RES_REGION_COUNT 1 1).setRgState 0 rgOpen)).Serves (gReg 4000 96) 49153 len ((0, 2) :: fields) Right.op ∧ (gReg 4000 96).num 1 1 = kind) 2 8 [(4, 4)]) ∧
    (gReg 4000 96).num 4 2 + (gReg 4000 96).num 6 2 ≤ 4096 ∧
    (∃ i < (fun v ↦ c15_22_a_1.dev.fld Fld.WING_RES_REGION_COUNT v) ((gReg 4000 96).num 0 1), c15_22_a_1.dev.rgState ((fun v ↦ c15_22_a_1.dev.fld Fld.WING_RES_REGION_BASE v) ((gReg 4000 96).num 0 1) + i) ≠ rgDisabled) ∧
    (sWgF (gReg 4000 96) Fld.WING_RES_REGION_COUNT 2 4095).dev.wingUsable ((gReg 4000 96).num 0 1) = none ∧
    ((fun kind len fields ↦ (sWgF (gReg 4000 96) Fld.WING_RES_REGION_COUNT 2 4095).Serves (gReg 4000 96) 49153 len ((0, 2) :: fields) Right.op ∧ (gReg 4000 96).num 1 1 = kind) 2 8 [(4, 4)]) ∧
    (∀ i < (fun v ↦ (sWgF (gReg 4000 96) Fld.WING_RES_REGION_COUNT 2 4095).dev.fld Fld.WING_RES_REGION_COUNT v) ((gReg 4000 96).num 0 1), (sWgF (gReg 4000 96) Fld.WING_RES_REGION_COUNT 2 4095).dev.rgState ((fun v ↦ (sWgF (gReg 4000 96) Fld.WING_RES_REGION_COUNT 2 4095).dev.fld Fld.WING_RES_REGION_BASE v) ((gReg 4000 96).num 0 1) + i) = rgDisabled) ∧
    (∃ v < 16, v ≠ (gReg 4000 96).num 0 1 ∧ overlap ((gReg 4000 96).num 4 2) ((gReg 4000 96).num 6 2) ((fun v ↦ (sWgF (gReg 4000 96) Fld.WING_RES_REGION_COUNT 2 4095).dev.fld Fld.WING_RES_REGION_BASE v) v) ((fun v ↦ (sWgF (gReg 4000 96) Fld.WING_RES_REGION_COUNT 2 4095).dev.fld Fld.WING_RES_REGION_COUNT v) v) = true) := by
  unfold State.Serves; decide +kernel

theorem w_WingGrants_12 :
    (sWg (gReg 4000 96)).dev.wingUsable ((gReg 4000 96).num 0 1) = none ∧
    ((fun kind len fields ↦ (sWg (gReg 4000 96)).Serves (gReg 4000 96) 49153 len ((0, 2) :: fields) Right.op ∧ (gReg 4000 96).num 1 1 = kind) 2 8 [(4, 4)]) ∧
    (gReg 4000 96).num 4 2 + (gReg 4000 96).num 6 2 ≤ 4096 ∧
    (∀ i < (fun v ↦ (sWg (gReg 4000 96)).dev.fld Fld.WING_RES_REGION_COUNT v) ((gReg 4000 96).num 0 1), (sWg (gReg 4000 96)).dev.rgState ((fun v ↦ (sWg (gReg 4000 96)).dev.fld Fld.WING_RES_REGION_BASE v) ((gReg 4000 96).num 0 1) + i) = rgDisabled) ∧
    (¬∃ v < 16, v ≠ (gReg 4000 96).num 0 1 ∧ overlap ((gReg 4000 96).num 4 2) ((gReg 4000 96).num 6 2) ((fun v ↦ (sWg (gReg 4000 96)).dev.fld Fld.WING_RES_REGION_BASE v) v) ((fun v ↦ (sWg (gReg 4000 96)).dev.fld Fld.WING_RES_REGION_COUNT v) v) = true) ∧
    (sWays 2 3).dev.wingUsable ((gWay 2 3).num 0 1) = none ∧
    ((fun kind len fields ↦ (sWays 2 3).Serves (gWay 2 3) 49153 len ((0, 2) :: fields) Right.op ∧ (gWay 2 3).num 1 1 = kind) 3 7 [(4, 3)]) ∧
    (gWay 2 3).num 6 1 > 2 := by
  unfold State.Serves; decide +kernel

theorem w_WingGrants_13 :
    (sWays 3 1).dev.wingUsable ((gWay 3 1).num 0 1) = none ∧
    ((fun kind len fields ↦ (sWays 3 1).Serves (gWay 3 1) 49153 len ((0, 2) :: fields) Right.op ∧ (gWay 3 1).num 1 1 = kind) 3 7 [(4, 3)]) ∧
    (gWay 3 1).num 6 1 ≤ 2 ∧
    List.foldl (fun v u ↦ v ||| (sWays 3 1).dev.fld Fld.ATRIUM_WING_WAYS u) 0 (List.range 16) &&& (gWay 3 1).num 4 2 ≠ 0 ∧
    (sWays 65534 1).dev.wingUsable ((gWay 65534 1).num 0 1) = none ∧
    ((fun kind len fields ↦ (sWays 65534 1).Serves (gWay 65534 1) 49153 len ((0, 2) :: fields) Right.op ∧ (gWay 65534 1).num 1 1 = kind) 3 7 [(4, 3)]) ∧
    (gWay 65534 1).num 6 1 ≤ 2 ∧
    List.foldl (fun v u ↦ v ||| (sWays 65534 1).dev.fld Fld.ATRIUM_WING_WAYS u) 0 (List.range 16) &&& (gWay 65534 1).num 4 2 = 0 ∧
    ((sWays 65534 1).dev.asm.atriumBits = 0 ∨ List.foldl (fun v u ↦ v ||| (sWays 65534 1).dev.fld Fld.ATRIUM_WING_WAYS u) 0 (List.range 16) ||| (gWay 65534 1).num 4 2 = 65535) := by
  unfold State.Serves; decide +kernel

theorem w_WingGrants_14 :
    (sWays 32766 2).dev.wingUsable ((gWay 32766 2).num 0 1) = none ∧
    ((fun kind len fields ↦ (sWays 32766 2).Serves (gWay 32766 2) 49153 len ((0, 2) :: fields) Right.op ∧ (gWay 32766 2).num 1 1 = kind) 3 7 [(4, 3)]) ∧
    (gWay 32766 2).num 6 1 ≤ 2 ∧
    List.foldl (fun v u ↦ v ||| (sWays 32766 2).dev.fld Fld.ATRIUM_WING_WAYS u) 0 (List.range 16) &&& (gWay 32766 2).num 4 2 = 0 ∧
    (sWays 32766 2).dev.asm.atriumBits ≠ 0 ∧
    List.foldl (fun v u ↦ v ||| (sWays 32766 2).dev.fld Fld.ATRIUM_WING_WAYS u) 0 (List.range 16) ||| (gWay 32766 2).num 4 2 ≠ 65535 ∧
    (sWgF gWin Fld.WING_STATE_WINDOWS 1 1).dev.wingUsable (gWin.num 0 1) = none ∧
    ((fun kind len fields ↦ (sWgF gWin Fld.WING_STATE_WINDOWS 1 1).Serves gWin 49153 len ((0, 2) :: fields) Right.op ∧ gWin.num 1 1 = kind) 4 5 [(4, 1)]) ∧
    (sWgF gWin Fld.WING_STATE_WINDOWS 1 1).dev.fld Fld.WING_STATE_WINDOWS (gWin.num 0 1) &&& gWin.num 4 1 ≠ 0 := by
  unfold State.Serves; decide +kernel

theorem w_WingGrants_15 :
    (sWg gWin).dev.wingUsable (gWin.num 0 1) = none ∧
    ((fun kind len fields ↦ (sWg gWin).Serves gWin 49153 len ((0, 2) :: fields) Right.op ∧ gWin.num 1 1 = kind) 4 5 [(4, 1)]) ∧
    (sWg gWin).dev.fld Fld.WING_STATE_WINDOWS (gWin.num 0 1) &&& gWin.num 4 1 = 0 ∧
    (sKeyed (psc 49162 72 (1 + adr 119 4))).dev.wingUsable ((psc 49162 72 (1 + adr 119 4)).num 0 1) = none ∧
    (sKeyed (psc 49162 72 (1 + adr 119 4))).Serves (psc 49162 72 (1 + adr 119 4)) 49162 72 [(0, 1), (4, 68)] Right.sec ∧
    (!((sKeyed (psc 49162 72 (1 + adr 119 4))).dev.wing ((psc 49162 72 (1 + adr 119 4)).num 0 1)).extents.isEmpty || (sKeyed (psc 49162 72 (1 + adr 119 4))).dev.reg.fills.any fun f ↦ decide (BitVec.toNat f.wing = (psc 49162 72 (1 + adr 119 4)).num 0 1)) = true := by
  unfold State.Serves; decide +kernel

theorem w_WingGrants_16 :
    (sWg kLoad).dev.wingUsable (kLoad.num 0 1) = none ∧ (sWg kLoad).Serves kLoad 49162 72 [(0, 1), (4, 68)] Right.sec ∧
    (!((sWg kLoad).dev.wing (kLoad.num 0 1)).extents.isEmpty || (sWg kLoad).dev.reg.fills.any fun f ↦ decide (BitVec.toNat f.wing = kLoad.num 0 1)) = false ∧
    (sWg (gQ 1 0 511)).dev.wingUsable ((gQ 1 0 511).num 0 1) = none ∧
    ((sWg (gQ 1 0 511)).Serves (gQ 1 0 511) 49161 8 [(0, 3), (4, 4)] Right.op ∧ (gQ 1 0 511).num 6 2 ≠ 0 ∧ (gQ 1 0 511).num 4 2 + (gQ 1 0 511).num 6 2 ≤ 512) ∧
    (gQ 1 0 511).num 1 1 < 16 ∧ (gQ 1 0 511).num 2 1 ≤ 3 ∧
    (sWg (gQ 1 0 511)).dev.headWing (BitVec.ofNat 4 ((gQ 1 0 511).num 1 1)) ≠ (gQ 1 0 511).num 0 1 := by
  unfold State.Serves; decide +kernel

theorem w_WingGrants_17 :
    (sWgF (gQ 0 0 511) Fld.QUEUE_BIND_VALID 511 1).dev.wingUsable ((gQ 0 0 511).num 0 1) = none ∧
    ((sWgF (gQ 0 0 511) Fld.QUEUE_BIND_VALID 511 1).Serves (gQ 0 0 511) 49161 8 [(0, 3), (4, 4)] Right.op ∧ (gQ 0 0 511).num 6 2 ≠ 0 ∧ (gQ 0 0 511).num 4 2 + (gQ 0 0 511).num 6 2 ≤ 512) ∧
    (gQ 0 0 511).num 1 1 < 16 ∧ (gQ 0 0 511).num 2 1 ≤ 3 ∧
    (sWgF (gQ 0 0 511) Fld.QUEUE_BIND_VALID 511 1).dev.headWing (BitVec.ofNat 4 ((gQ 0 0 511).num 1 1)) = (gQ 0 0 511).num 0 1 ∧
    ((List.map (fun x ↦ x + (gQ 0 0 511).num 4 2) (List.range ((gQ 0 0 511).num 6 2))).any fun q ↦ decide ((sWgF (gQ 0 0 511) Fld.QUEUE_BIND_VALID 511 1).dev.fld Fld.QUEUE_BIND_VALID q = 1)) = true ∧
    (sWg (gQ 0 0 511)).dev.wingUsable ((gQ 0 0 511).num 0 1) = none ∧
    ((sWg (gQ 0 0 511)).Serves (gQ 0 0 511) 49161 8 [(0, 3), (4, 4)] Right.op ∧ (gQ 0 0 511).num 6 2 ≠ 0 ∧ (gQ 0 0 511).num 4 2 + (gQ 0 0 511).num 6 2 ≤ 512) ∧
    (sWg (gQ 0 0 511)).dev.headWing (BitVec.ofNat 4 ((gQ 0 0 511).num 1 1)) = (gQ 0 0 511).num 0 1 ∧
    ((List.map (fun x ↦ x + (gQ 0 0 511).num 4 2) (List.range ((gQ 0 0 511).num 6 2))).all fun q ↦ decide ((sWg (gQ 0 0 511)).dev.fld Fld.QUEUE_BIND_VALID q = 0)) = true := by
  unfold State.Serves; decide +kernel

theorem w_WingGrants_18 :
    ((sWg (gQs 255 1 0 511 1)).Serves (gQs 255 1 0 511 1) 49161 8 [(0, 3), (4, 4)] Right.op ∧ (gQs 255 1 0 511 1).num 6 2 ≠ 0 ∧ (gQs 255 1 0 511 1).num 4 2 + (gQs 255 1 0 511 1).num 6 2 ≤ 512) ∧
    (gQs 255 1 0 511 1).num 0 1 = 255 ∧ ((gQs 255 1 0 511 1).num 1 1 ≠ 0 ∨ (gQs 255 1 0 511 1).num 2 1 ≠ 0) ∧
    ((sWgF (gQs 255 0 0 511 1) Fld.QUEUE_CTRL_ENABLE 511 1).Serves (gQs 255 0 0 511 1) 49161 8 [(0, 3), (4, 4)] Right.op ∧ (gQs 255 0 0 511 1).num 6 2 ≠ 0 ∧ (gQs 255 0 0 511 1).num 4 2 + (gQs 255 0 0 511 1).num 6 2 ≤ 512) ∧
    (gQs 255 0 0 511 1).num 0 1 = 255 ∧ (gQs 255 0 0 511 1).num 1 1 = 0 ∧ (gQs 255 0 0 511 1).num 2 1 = 0 ∧
    ((List.map (fun x ↦ x + (gQs 255 0 0 511 1).num 4 2) (List.range ((gQs 255 0 0 511 1).num 6 2))).any fun q ↦ decide ((sWgF (gQs 255 0 0 511 1) Fld.QUEUE_CTRL_ENABLE 511 1).dev.fld Fld.QUEUE_CTRL_ENABLE q = 1)) = true := by
  unfold State.Serves; decide +kernel

theorem w_WingGrants_19 :
    (sQ511.Serves (gQs 255 0 0 511 1) 49161 8 [(0, 3), (4, 4)] Right.op ∧ (gQs 255 0 0 511 1).num 6 2 ≠ 0 ∧ (gQs 255 0 0 511 1).num 4 2 + (gQs 255 0 0 511 1).num 6 2 ≤ 512) ∧
    (gQs 255 0 0 511 1).num 0 1 = 255 ∧ (gQs 255 0 0 511 1).num 1 1 = 0 ∧ (gQs 255 0 0 511 1).num 2 1 = 0 ∧
    ((List.map (fun x ↦ x + (gQs 255 0 0 511 1).num 4 2) (List.range ((gQs 255 0 0 511 1).num 6 2))).all fun q ↦ decide (sQ511.dev.fld Fld.QUEUE_CTRL_ENABLE q = 0) && (sQ511.dev.queue q).cur.isNone && (sQ511.dev.queue q).rest.isEmpty) = true ∧
    (sWg (gH 0 1 2)).Serves (gH 0 1 2) 49160 40 [(0, 3), (8, 32)] Right.op ∧
    ((gH 0 1 2).num 0 1 = 0 ∨ (gH 0 1 2).num 0 1 ≥ 16 ∨ (gH 0 1 2).num 2 1 = 1 ∨ (gH 0 1 2).num 2 1 > 3) := by
  unfold State.Serves; decide +kernel

theorem w_WingGrants_20 :
    (sWg (gH 3 1 1)).Serves (gH 3 1 1) 49160 40 [(0, 3), (8, 32)] Right.op ∧
    ((gH 3 1 1).num 0 1 = 0 ∨ (gH 3 1 1).num 0 1 ≥ 16 ∨ (gH 3 1 1).num 2 1 = 1 ∨ (gH 3 1 1).num 2 1 > 3) ∧
    (sWg (gH 3 1 0)).Serves (gH 3 1 0) 49160 40 [(0, 3), (8, 32)] Right.op ∧ 1 ≤ (gH 3 1 0).num 0 1 ∧ (gH 3 1 0).num 0 1 < 16 ∧
    (gH 3 1 0).num 2 1 = 0 ∧ (sWg (gH 3 1 0)).dev.headExists ((gH 3 1 0).num 0 1) = false := by
  unfold State.Serves; decide +kernel

theorem w_WingGrants_21 :
    (sWg (gH 2 1 0)).Serves (gH 2 1 0) 49160 40 [(0, 3), (8, 32)] Right.op ∧ 1 ≤ (gH 2 1 0).num 0 1 ∧ (gH 2 1 0).num 0 1 < 16 ∧
    (gH 2 1 0).num 2 1 = 0 ∧ (sWg (gH 2 1 0)).dev.headExists ((gH 2 1 0).num 0 1) = true ∧
    (sWg (gH 3 1 2)).Serves (gH 3 1 2) 49160 40 [(0, 3), (8, 32)] Right.op ∧ 1 ≤ (gH 3 1 2).num 0 1 ∧ (gH 3 1 2).num 0 1 < 16 ∧
    ((gH 3 1 2).num 2 1 = 2 ∨ (gH 3 1 2).num 2 1 = 3) ∧ (sWg (gH 3 1 2)).dev.headExists ((gH 3 1 2).num 0 1) = false := by
  unfold State.Serves; decide +kernel

theorem w_WingGrants_22 :
    (sWg (gH 4 0 2)).Serves (gH 4 0 2) 49160 40 [(0, 3), (8, 32)] Right.op ∧ 1 ≤ (gH 4 0 2).num 0 1 ∧ (gH 4 0 2).num 0 1 < 16 ∧
    ((gH 4 0 2).num 2 1 = 2 ∨ (gH 4 0 2).num 2 1 = 3) ∧ (sWg (gH 4 0 2)).dev.headExists ((gH 4 0 2).num 0 1) = true ∧
    (gH 4 0 2).num 1 1 = 0 ∧ (sWg (gH 4 9 2)).Serves (gH 4 9 2) 49160 40 [(0, 3), (8, 32)] Right.op ∧ 1 ≤ (gH 4 9 2).num 0 1 ∧
    (gH 4 9 2).num 0 1 < 16 ∧ ((gH 4 9 2).num 2 1 = 2 ∨ (gH 4 9 2).num 2 1 = 3) ∧
    (sWg (gH 4 9 2)).dev.headExists ((gH 4 9 2).num 0 1) = true ∧ (gH 4 9 2).num 1 1 ≠ 0 ∧
    (sWg (gH 4 9 2)).dev.wingUsable ((gH 4 9 2).num 1 1) = some 6 := by
  unfold State.Serves; decide +kernel

theorem w_WingGrants_23 :
    (sWgF (gH 4 1 2) Fld.HEAD_STATUS_PERSONALITY 4 2).Serves (gH 4 1 2) 49160 40 [(0, 3), (8, 32)] Right.op ∧ 1 ≤ (gH 4 1 2).num 0 1 ∧
    (gH 4 1 2).num 0 1 < 16 ∧ ((gH 4 1 2).num 2 1 = 2 ∨ (gH 4 1 2).num 2 1 = 3) ∧
    (sWgF (gH 4 1 2) Fld.HEAD_STATUS_PERSONALITY 4 2).dev.headExists ((gH 4 1 2).num 0 1) = true ∧ (gH 4 1 2).num 1 1 ≠ 0 ∧
    (sWgF (gH 4 1 2) Fld.HEAD_STATUS_PERSONALITY 4 2).dev.wingUsable ((gH 4 1 2).num 1 1) = none ∧
    (sWgF (gH 4 1 2) Fld.HEAD_STATUS_PERSONALITY 4 2).dev.personality (BitVec.ofNat 4 ((gH 4 1 2).num 0 1)) ≠ 0 ∧
    (sWgF (gH 4 1 2) Fld.HEAD_STATUS_PERSONALITY 4 2).dev.headWing (BitVec.ofNat 4 ((gH 4 1 2).num 0 1)) ≠ (gH 4 1 2).num 1 1 := by
  unfold State.Serves; decide +kernel

theorem w_WingGrants_24 :
    (sWg (gHx 14 1 3 2)).Serves (gHx 14 1 3 2) 49160 40 [(0, 3), (8, 32)] Right.op ∧ 1 ≤ (gHx 14 1 3 2).num 0 1 ∧
    (gHx 14 1 3 2).num 0 1 < 16 ∧ ((gHx 14 1 3 2).num 2 1 = 2 ∨ (gHx 14 1 3 2).num 2 1 = 3) ∧
    (sWg (gHx 14 1 3 2)).dev.headExists ((gHx 14 1 3 2).num 0 1) = true ∧ (gHx 14 1 3 2).num 1 1 ≠ 0 ∧
    (sWg (gHx 14 1 3 2)).dev.wingUsable ((gHx 14 1 3 2).num 1 1) = none ∧
    (sWg (gHx 14 1 3 2)).dev.personality (BitVec.ofNat 4 ((gHx 14 1 3 2).num 0 1)) = 0 ∧
    ((List.map (fun n ↦ (gHx 14 1 3 2).num (8 + 8 * n) 8) (List.range 4)).any fun x ↦ decide (x ≠ (fun x ↦ x &&& 281474708275200) x + x % 2)) = true := by
  unfold State.Serves; decide +kernel

theorem w_WingGrants_25 :
    (sWg (gH 14 1 3)).Serves (gH 14 1 3) 49160 40 [(0, 3), (8, 32)] Right.op ∧ 1 ≤ (gH 14 1 3).num 0 1 ∧ (gH 14 1 3).num 0 1 < 16 ∧
    ((gH 14 1 3).num 2 1 = 2 ∨ (gH 14 1 3).num 2 1 = 3) ∧ (sWg (gH 14 1 3)).dev.headExists ((gH 14 1 3).num 0 1) = true ∧
    (gH 14 1 3).num 1 1 ≠ 0 ∧ (sWg (gH 14 1 3)).dev.wingUsable ((gH 14 1 3).num 1 1) = none ∧
    (sWg (gH 14 1 3)).dev.personality (BitVec.ofNat 4 ((gH 14 1 3).num 0 1)) = 0 ∧
    ((List.map (fun n ↦ (gH 14 1 3).num (8 + 8 * n) 8) (List.range 4)).all fun x ↦ decide (x = (fun x ↦ x &&& 281474708275200) x + x % 2) && (decide (x % 2 = 0) || decide ((fun x ↦ x &&& 281474708275200) x < aliasBase) && decide ((sWg (gH 14 1 3)).dev.extentWing ((fun x ↦ x &&& 281474708275200) x) = (gH 14 1 3).num 1 1))) = true := by
  unfold State.Serves; decide +kernel

theorem w_WingGrants_26 :
    (sHx (gHx 14 1 2 268435457)).Serves (gHx 14 1 2 268435457) 49160 40 [(0, 3), (8, 32)] Right.op ∧
    1 ≤ (gHx 14 1 2 268435457).num 0 1 ∧ (gHx 14 1 2 268435457).num 0 1 < 16 ∧
    ((gHx 14 1 2 268435457).num 2 1 = 2 ∨ (gHx 14 1 2 268435457).num 2 1 = 3) ∧
    (sHx (gHx 14 1 2 268435457)).dev.headExists ((gHx 14 1 2 268435457).num 0 1) = true ∧ (gHx 14 1 2 268435457).num 1 1 ≠ 0 ∧
    (sHx (gHx 14 1 2 268435457)).dev.wingUsable ((gHx 14 1 2 268435457).num 1 1) = none ∧
    (sHx (gHx 14 1 2 268435457)).dev.personality (BitVec.ofNat 4 ((gHx 14 1 2 268435457).num 0 1)) = 0 ∧
    ((List.map (fun n ↦ (gHx 14 1 2 268435457).num (8 + 8 * n) 8) (List.range 4)).all fun x ↦ decide (x = (fun x ↦ x &&& 281474708275200) x + x % 2) && (decide (x % 2 = 0) || decide ((fun x ↦ x &&& 281474708275200) x < aliasBase) && decide ((sHx (gHx 14 1 2 268435457)).dev.extentWing ((fun x ↦ x &&& 281474708275200) x) = (gHx 14 1 2 268435457).num 1 1))) = true ∧
    (sWin (winSet 2)).Serves (winSet 2) 49163 (8 + 8 * 1) [(0, 1), (2, 6), (8, 8 * 1)] Right.op ∧ (winSet 2).num 2 2 = 1 ∧
    (sWin (winSet 2)).dev.windowBusy ((winSet 2).num 0 1) ((winSet 2).num 4 4) 1 = true := by
  unfold State.Serves; decide +kernel

theorem w_WingGrants_27 :
    (sWg (winSet 2)).Serves (winSet 2) 49163 (8 + 8 * 1) [(0, 1), (2, 6), (8, 8 * 1)] Right.op ∧ (winSet 2).num 2 2 = 1 ∧
    (sWg (winSet 2)).dev.windowBusy ((winSet 2).num 0 1) ((winSet 2).num 4 4) 1 = false ∧
    ((winSet 2).num 0 1 ≥ 8 ∨ (winSet 2).num 4 4 + 1 > 32768 ∨ (List.map (fun i ↦ BitVec.ofNat 64 ((winSet 2).num (8 + 8 * i) 8)) (List.range 1)).any windowReserved = true) ∧
    (sWg (winSet 65537)).Serves (winSet 65537) 49163 (8 + 8 * 1) [(0, 1), (2, 6), (8, 8 * 1)] Right.op ∧ (winSet 65537).num 2 2 = 1 ∧
    (sWg (winSet 65537)).dev.windowBusy ((winSet 65537).num 0 1) ((winSet 65537).num 4 4) 1 = false ∧ (winSet 65537).num 0 1 < 8 ∧
    (winSet 65537).num 4 4 + 1 ≤ 32768 ∧
    (List.map (fun i ↦ BitVec.ofNat 64 ((winSet 65537).num (8 + 8 * i) 8)) (List.range 1)).any windowReserved = false ∧
    (sFillOn { txns := [(1048576, { req := { kind := ReqKind.readOnce, src := Agent.cache 5, tag := 0, line := 1048576, sects := 15 : Req }, phase := TxPhase.snoop, todo := 15 : Txn })] : Weave }).dev.live = true ∧
    List.find? (fun f ↦ decide (f.wing = 1)) (sFillOn { txns := [(1048576, { req := { kind := ReqKind.readOnce, src := Agent.cache 5, tag := 0, line := 1048576, sects := 15 : Req }, phase := TxPhase.snoop, todo := 15 : Txn })] : Weave }).dev.reg.fills = some fill1 ∧
    (sFillOn { txns := [(1048576, { req := { kind := ReqKind.readOnce, src := Agent.cache 5, tag := 0, line := 1048576, sects := 15 : Req }, phase := TxPhase.snoop, todo := 15 : Txn })] : Weave }).dev.rangeOpen fill1.base fill1.len = false := by
  unfold State.Serves; decide +kernel

theorem w_WingGrants_28 :
    (sFillOn { cat := held1 : Weave }).dev.live = true ∧
    List.find? (fun f ↦ decide (f.wing = 1)) (sFillOn { cat := held1 : Weave }).dev.reg.fills = some fill1 ∧
    (sFillOn { cat := held1 : Weave }).dev.rangeOpen fill1.base fill1.len = true ∧
    (sFillOn { cat := held1 : Weave }).dev.rangeHeld fill1.base fill1.len ≠ [] ∧ sFill.dev.live = true ∧
    List.find? (fun f ↦ decide (f.wing = 1)) sFill.dev.reg.fills = some fill1 ∧ sFill.dev.rangeOpen fill1.base fill1.len = true ∧
    sFill.dev.rangeHeld fill1.base fill1.len = [] ∧ sFill.dev.fld Fld.MEMINJ_FLIP_ARMED 0 = 0 ∧
    (∀ i < 9, sFill.dev.fld Fld.CHAN_FAULT_FAULTED i = 0) ∧ sFill.dev.weave.cat = [] := by
  decide +kernel

def c15_71_a_1 := List.foldl Dev.unbindHead ((sWg (wOne 49155 1)).dev.setWgState ((wOne 49155 1).num 0 1) wgReleasing) (List.filter (fun x ↦ decide (x ≠ 0)) (((sWg (wOne 49155 1)).dev.setWgState ((wOne 49155 1).num 0 1) wgReleasing).wingHeads ((wOne 49155 1).num 0 1)))
def c15_71_a_2 := List.foldl (fun e r ↦ e.abortRegion r 16) (List.foldl Dev.queueDrop c15_71_a_1 (c15_71_a_1.wingQueues ((wOne 49155 1).num 0 1))) ((List.foldl Dev.queueDrop c15_71_a_1 (c15_71_a_1.wingQueues ((wOne 49155 1).num 0 1))).wingRegions ((wOne 49155 1).num 0 1))

theorem w_WingLifecycle_1 :
    (sWgF (wOne 49156 1) Fld.WING_STATE_STATE 1 wgPreserved).dev.wingUsable ((wOne 49156 1).num 0 1) = none ∧
    (sWgF (wOne 49156 1) Fld.WING_STATE_STATE 1 wgPreserved).Serves (wOne 49156 1) 49156 1 [(0, 1)] Right.op ∧
    (sWgF (wOne 49156 1) Fld.WING_STATE_STATE 1 wgPreserved).dev.wgState ((wOne 49156 1).num 0 1) ≠ wgActive ∧
    (sWg (wOne 49156 1)).dev.wingUsable ((wOne 49156 1).num 0 1) = none ∧
    (sWg (wOne 49156 1)).Serves (wOne 49156 1) 49156 1 [(0, 1)] Right.op ∧
    (sWg (wOne 49156 1)).dev.wgState ((wOne 49156 1).num 0 1) = wgActive ∧
    (sWg (wOne 49156 1)).dev.fld Fld.WING_STATE_POLICY ((wOne 49156 1).num 0 1) = 0 := by
  unfold State.Serves; decide +kernel

theorem w_WingLifecycle_2 :
    (sWgF (wOne 49156 1) Fld.WING_STATE_POLICY 1 1).dev.wingUsable ((wOne 49156 1).num 0 1) = none ∧
    (sWgF (wOne 49156 1) Fld.WING_STATE_POLICY 1 1).Serves (wOne 49156 1) 49156 1 [(0, 1)] Right.op ∧
    (sWgF (wOne 49156 1) Fld.WING_STATE_POLICY 1 1).dev.wgState ((wOne 49156 1).num 0 1) = wgActive ∧
    ((sWgF (wOne 49156 1) Fld.WING_STATE_POLICY 1 1).dev.setWgState ((wOne 49156 1).num 0 1) wgPreserved).fld Fld.WING_STATE_POLICY ((wOne 49156 1).num 0 1) = 1 ∧
    (sWg (wOne 49157 1)).dev.wingUsable ((wOne 49157 1).num 0 1) = none ∧
    (sWg (wOne 49157 1)).Serves (wOne 49157 1) 49157 1 [(0, 1)] Right.wing ∧
    (sWg (wOne 49157 1)).dev.wgState ((wOne 49157 1).num 0 1) = wgActive := by
  unfold State.Serves; decide +kernel

theorem w_WingLifecycle_3 :
    (sWgF (wOne 49157 1) Fld.WING_STATE_STATE 1 wgPreserved).dev.wingUsable ((wOne 49157 1).num 0 1) = none ∧
    (sWgF (wOne 49157 1) Fld.WING_STATE_STATE 1 wgPreserved).Serves (wOne 49157 1) 49157 1 [(0, 1)] Right.wing ∧
    (sWgF (wOne 49157 1) Fld.WING_STATE_STATE 1 wgPreserved).dev.wgState ((wOne 49157 1).num 0 1) ≠ wgActive ∧
    (sWg (lm 49164 1 5)).dev.wingUsable ((lm 49164 1 5).num 0 1) = none ∧ (lm 49164 1 5).num 4 2 < 4096 ∧
    (sWg (lm 49164 1 5)).dev.wingOf (BitVec.ofNat 12 ((lm 49164 1 5).num 4 2)) ≠ (lm 49164 1 5).num 0 1 ∧
    (sWg (lm 49164 1 5)).Serves (lm 49164 1 5) 49164 6 [(0, 1), (4, 2)] Right.op := by
  unfold State.Serves; decide +kernel

theorem w_WingLifecycle_4 :
    (sWg (lm 49165 1 5)).dev.wingUsable ((lm 49165 1 5).num 0 1) = none ∧ (lm 49165 1 5).num 4 2 < 4096 ∧
    (sWg (lm 49165 1 5)).dev.wingOf (BitVec.ofNat 12 ((lm 49165 1 5).num 4 2)) ≠ (lm 49165 1 5).num 0 1 ∧
    (sWg (lm 49165 1 5)).Serves (lm 49165 1 5) 49165 6 [(0, 1), (4, 2)] Right.op ∧
    (sWg (lm 49154 1 5)).dev.wingUsable ((lm 49154 1 5).num 0 1) = none ∧ (lm 49154 1 5).num 4 2 < 4096 ∧
    (sWg (lm 49154 1 5)).dev.wingOf (BitVec.ofNat 12 ((lm 49154 1 5).num 4 2)) ≠ (lm 49154 1 5).num 0 1 ∧
    (sWg (lm 49154 1 5)).Serves (lm 49154 1 5) 49154 6 [(0, 1), (4, 2)] Right.op := by
  unfold State.Serves; decide +kernel

theorem w_WingLifecycle_5 :
    (sLm stFenced (lm 49164 0 5)).dev.wingUsable ((lm 49164 0 5).num 0 1) = none ∧ (lm 49164 0 5).num 4 2 < 4096 ∧
    (sLm stFenced (lm 49164 0 5)).dev.wingOf (BitVec.ofNat 12 ((lm 49164 0 5).num 4 2)) = (lm 49164 0 5).num 0 1 ∧
    (sLm stFenced (lm 49164 0 5)).Serves (lm 49164 0 5) 49164 6 [(0, 1), (4, 2)] Right.op ∧
    (sLm stFenced (lm 49164 0 5)).dev.loomState (BitVec.ofNat 12 ((lm 49164 0 5).num 4 2)) = stFenced ∧
    (sLm stRunning (lm 49164 0 5)).dev.wingUsable ((lm 49164 0 5).num 0 1) = none ∧
    (sLm stRunning (lm 49164 0 5)).dev.wingOf (BitVec.ofNat 12 ((lm 49164 0 5).num 4 2)) = (lm 49164 0 5).num 0 1 ∧
    (sLm stRunning (lm 49164 0 5)).Serves (lm 49164 0 5) 49164 6 [(0, 1), (4, 2)] Right.op ∧
    (sLm stRunning (lm 49164 0 5)).dev.loomState (BitVec.ofNat 12 ((lm 49164 0 5).num 4 2)) ≠ stFenced ∧
    (sLm stRunning (lm 49164 0 5)).dev.loomState (BitVec.ofNat 12 ((lm 49164 0 5).num 4 2)) ≠ stScrubbing := by
  unfold State.Serves; decide +kernel

theorem w_WingLifecycle_6 :
    (sLm stIdle (lm 49164 0 5)).dev.wingUsable ((lm 49164 0 5).num 0 1) = none ∧ (lm 49164 0 5).num 4 2 < 4096 ∧
    (sLm stIdle (lm 49164 0 5)).dev.wingOf (BitVec.ofNat 12 ((lm 49164 0 5).num 4 2)) = (lm 49164 0 5).num 0 1 ∧
    (sLm stIdle (lm 49164 0 5)).Serves (lm 49164 0 5) 49164 6 [(0, 1), (4, 2)] Right.op ∧
    (sLm stIdle (lm 49164 0 5)).dev.loomState (BitVec.ofNat 12 ((lm 49164 0 5).num 4 2)) ≠ stFenced ∧
    (sLm stIdle (lm 49164 0 5)).dev.loomState (BitVec.ofNat 12 ((lm 49164 0 5).num 4 2)) ≠ stScrubbing ∧
    (sLm stRunning (lm 49154 0 5)).dev.wingUsable ((lm 49154 0 5).num 0 1) = none ∧ (lm 49154 0 5).num 4 2 < 4096 ∧
    (sLm stRunning (lm 49154 0 5)).dev.wingOf (BitVec.ofNat 12 ((lm 49154 0 5).num 4 2)) = (lm 49154 0 5).num 0 1 ∧
    (sLm stRunning (lm 49154 0 5)).Serves (lm 49154 0 5) 49154 6 [(0, 1), (4, 2)] Right.op ∧
    (sLm stRunning (lm 49154 0 5)).dev.loomState (BitVec.ofNat 12 ((lm 49154 0 5).num 4 2)) = stRunning := by
  unfold State.Serves; decide +kernel

theorem w_WingLifecycle_7 :
    (sLmUp stFenced (lm 49154 0 5)).dev.wingUsable ((lm 49154 0 5).num 0 1) = none ∧ (lm 49154 0 5).num 4 2 < 4096 ∧
    (sLmUp stFenced (lm 49154 0 5)).dev.wingOf (BitVec.ofNat 12 ((lm 49154 0 5).num 4 2)) = (lm 49154 0 5).num 0 1 ∧
    (sLmUp stFenced (lm 49154 0 5)).Serves (lm 49154 0 5) 49154 6 [(0, 1), (4, 2)] Right.op ∧
    (sLmUp stFenced (lm 49154 0 5)).dev.loomState (BitVec.ofNat 12 ((lm 49154 0 5).num 4 2)) = stFenced ∧
    (sLmUp stFenced (lm 49154 0 5)).dev.loomQuiet (BitVec.ofNat 12 ((lm 49154 0 5).num 4 2)) = true ∧
    (((sLmUp stFenced (lm 49154 0 5)).dev.setLoomState (BitVec.ofNat 12 ((lm 49154 0 5).num 4 2)) stScrubbing).wakeTile (loomTile ((lm 49154 0 5).num 4 2))).fld Fld.TILE_STATE_STATE (loomTile ((lm 49154 0 5).num 4 2)) = 3 ∧
    (sWg (wOne 49155 1)).dev.wingUsable ((wOne 49155 1).num 0 1) = none ∧
    (sWg (wOne 49155 1)).Serves (wOne 49155 1) 49155 1 [(0, 1)] Right.op ∧
    List.filter (fun f ↦ decide (BitVec.toNat f.wing = (wOne 49155 1).num 0 1)) (c15_71_a_2.rotAbortAll fun p ↦ decide (c15_71_a_2.extentWing (p * 2 ^ 26) = (wOne 49155 1).num 0 1)).reg.fills = [] ∧
    sFill.dev.live = true ∧ sFill.dev.releaseReady 1 = false := by
  unfold State.Serves; decide +kernel

theorem w_WingLifecycle_8 :
    sRelHeld.dev.live = true ∧ sRelHeld.dev.releaseReady 1 = true ∧
    (∃ x ∈ (sRelHeld.dev.wing 1).extents, sRelHeld.dev.rangeHeld x.1 x.2 ≠ []) ∧ sRel.dev.live = true ∧
    sRel.dev.releaseReady 1 = true ∧ (∀ x ∈ (sRel.dev.wing 1).extents, sRel.dev.rangeHeld x.1 x.2 = []) ∧
    (wOne 49158 2).num 0 1 < 16 ∧ (sWg (wOne 49158 2)).dev.wgState ((wOne 49158 2).num 0 1) = wgFree ∧
    (sWg (wOne 49158 2)).Serves (wOne 49158 2) 49158 1 [(0, 1)] Right.op ∧ (wOne 49158 0).num 0 1 < 16 ∧
    (sWg (wOne 49158 0)).dev.wgState ((wOne 49158 0).num 0 1) ≠ wgFree ∧
    (sWg (wOne 49158 0)).Serves (wOne 49158 0) 49158 1 [(0, 1)] Right.op := by
  unfold State.Serves; decide +kernel

theorem w_WingLifecycle_9 :
    (wOne 49159 0).num 0 1 < 16 ∧ (sWg (wOne 49159 0)).dev.wgState ((wOne 49159 0).num 0 1) ≠ wgFree ∧
    (sWg (wOne 49159 0)).Serves (wOne 49159 0) 49159 1 [(0, 1)] Right.wing := by
  unfold State.Serves; decide +kernel

theorem w_WingGrants_looms : ((List.range 4096).filter (fun n => ((gLm.data[16 + n / 8]?).getD 0).toNat.testBit (n % 8))).map (BitVec.ofNat 12)
    = looms1 := by
  have z : ((List.range 4088).map (8 + ·)).filter (fun n => ((gLm.data[16 + n / 8]?).getD 0).toNat.testBit (n % 8)) = [] := by
    refine List.filter_eq_nil_iff.2 fun n hn => ?_
    obtain ⟨k, -, rfl⟩ := List.mem_map.1 hn
    have : gLm.data[16 + (8 + k) / 8]? = (List.replicate 511 (0 : Byte))[k / 8]? := by
      rw [show 16 + (8 + k) / 8 = gHead.length + k / 8 by have : gHead.length = 17 := rfl; omega]
      exact (List.getElem?_append_right (Nat.le_add_right ..)).trans (by rw [Nat.add_sub_cancel_left])
    rw [this, List.getElem?_replicate]
    split <;> simp
  rw [show 4096 = 8 + 4088 from rfl, List.range_add, List.filter_append, z]
  decide +kernel

/-! ### Tiers, integrity, reduction, service -/

/-- Every stack and channel is ONLINE, with eight free depot slots and eight striped ones. -/
def tierDev (c : MbCmd) : Dev :=
  { ((((wgDev { cmdQ := [c] }).setFld Fld.DSP_STACK_STATE_STATE 0 0x55555555).setFld Fld.DEP_CHANNEL_STATE_STATE 0 0x555555555555).setFld
      Fld.SPARE_DSP_FREE 1 16).setFld Fld.SPARE_DSP_TOTAL 1 20 with
    tiers := { memT with free := (List.range 8).flatMap (fun i => [⟨2, BitVec.ofNat 30 (100 + i)⟩, ⟨0, BitVec.ofNat 30 (200 + i)⟩]) } }
def sTr (c : MbCmd) : State := st (tierDev c)
def sTrF (c : MbCmd) (f : Field) (i v : Nat) : State := st ((tierDev c).setFld f i v)
def sTrT (c : MbCmd) (t : Tiers) : State := st { tierDev c with tiers := t }
def rotCmd (p k : Nat) : MbCmd := pc 0xC013 5 (p + adr k 4)
def slotA : Slot := ⟨2, 100⟩
def tRot : Tiers := { memT with loc := [(2, ⟨.rotating, ⟨0, 2⟩⟩)] }
def sAb (st_ : Nat) (a : Nat) : State := st ({ tierDev (wOne 0xC014 a) with tiers := { memT with rots := [(1, rot1)] } }.setRotStatus 1 st_)
def pinCmd (op x n z : Nat) : MbCmd := pc op 24 (adr z 1 + adr x 8 + adr n 16)
def aL : ALine := { line := 0x80000, valid := 8, dirty := 8, pinned := true }
def atr (c : MbCmd) : Dev := { (tierDev c).setFld Fld.ATRIUM_WING_WAYS 0 15 with asm := .d12x4 }
def sPin (c : MbCmd) : State := st ((atr c).atriumPut ((atr c).atriumKey 0x8000000 1) aL)
def kPin : Nat := (atr (pc 0 0 0)).atriumKey 0x8000000 1
def small (c : MbCmd) : State := st (((tierDev c).setFld Fld.DSP_LAYOUT_SIZE 0 1).setFld Fld.DEP_LAYOUT_SIZE 0 1)
def evS : State := small (wOne 0xC017 15)
def evE : Dev := (evS.dev.evacuate 15 32).2
def evC : State := small (wOne 0xC018 23)
def evCE : Dev := (evC.dev.evacuate 39 32).2
def trn3 (a b x : Nat) : MbCmd := pc 0xC01A 3 (a + adr b 1 + adr x 2)
def frC (op n row : Nat) : MbCmd := pc op n (adr 1 1 + adr 7 4 + (if n = 12 then adr row 8 else 0))
def frm1 : Frame := ⟨false, 32, 0, 7, 1024⟩
def mgn (st_ : Nat) : MbCmd := pc 0xC022 7 (adr st_ 1 + adr 3 2 + adr 4 4 + adr 0xFF 6)
def sRg (c : MbCmd) (s : Nat) : State :=
  st { ((wgDev { cmdQ := [c] }).setFld Fld.WING_RES_REGION_COUNT 0 8).setRgState 3 s with regions := [(3, reg3r)], runQ := if s = 2 then [3] else [], weave := {} }
def rgn (op : Nat) : MbCmd := pc op 2 3
/-- REGION_ENABLE of region 3: one INT32 element at 0x8000000, list at 0x8002000, epoch word at 0x8003000 with 9. -/
def enC (w : Nat) : MbCmd := pc 0xC030 72 (3 + adr w 8)
def enV : Nat := 0x8000000 + 3 * 2 ^ 48 + 64 * 2 ^ 64 + 2 * 2 ^ 112 + 0x8003000 * 2 ^ 128 + 0x8002000 * 2 ^ 192 + 9 * 2 ^ 256
def pMap (x : Nat) : MbCmd := pc 0xC041 18 (5 + adr x 2 + adr (256 ^ 15 - 1) 3)
def psOf (x : Nat) : List Nat := x :: List.replicate 15 255
def sSt (r : Registrar) : State := st { mbDev r with reg := r }
def sIn (a b : Bool) : StartIn := { okA := a, okB := b, pop := .dimms 1 64 false 88 1 }
def sVf : State := let s := sWg (pc 0xC050 9 1); { s with dev := { s.dev with selv := { s.dev.selv with vf := [(15, 3)] } } }

theorem w_TierCommands_1 :
    (sTr (wOne 49168 17)).Serves (wOne 49168 17) 49168 1 [(0, 1)] Right.op ∧ (wOne 49168 17).num 0 1 > 16 ∧
    (sTr (wOne 49168 0)).Serves (wOne 49168 0) 49168 1 [(0, 1)] Right.op ∧ (wOne 49168 0).num 0 1 ≤ 16 ∧
    (((sTr (wOne 49168 0)).dev.limitMoves ((wOne 49168 0).num 0 1)).any fun p ↦ decide ((sTr (wOne 49168 0)).dev.extentWing (p * 2 ^ 26) ≠ noWing)) = true := by
  unfold State.Serves; decide +kernel

theorem w_TierCommands_2 :
    (sTr (wOne 49168 16)).Serves (wOne 49168 16) 49168 1 [(0, 1)] Right.op ∧ (wOne 49168 16).num 0 1 ≤ 16 ∧
    (sTr (wOne 49168 16)).dev.limitMoves ((wOne 49168 16).num 0 1) = [] ∧
    (sTr (pc 49169 6 4299161599)).Serves (pc 49169 6 4299161599) 49169 6 [(0, 6)] Right.op ∧ 1 ≤ (pc 49169 6 4299161599).num 4 2 ∧
    (pc 49169 6 4299161599).num 4 2 ≤ 256 ∧ (pc 49169 6 4299161599).num 0 4 < 2 ^ 22 := by
  unfold State.Serves; decide +kernel

theorem w_TierCommands_3 :
    (sTr (pc 49169 6 1099511627776)).Serves (pc 49169 6 1099511627776) 49169 6 [(0, 6)] Right.op ∧
    1 ≤ (pc 49169 6 1099511627776).num 4 2 ∧ (pc 49169 6 1099511627776).num 4 2 ≤ 256 ∧ (pc 49169 6 1099511627776).num 0 4 < 2 ^ 22 ∧
    (sTr (pc 49170 10 (adr 512 8))).Serves (pc 49170 10 (adr 512 8)) 49170 10 [(0, 1), (4, 6)] Right.op ∧
    (pc 49170 10 (adr 512 8)).num 0 1 = 0 ∧ (pc 49170 10 (adr 512 8)).num 1 1 = 0 ∧ 1 ≤ (pc 49170 10 (adr 512 8)).num 8 2 ∧
    (pc 49170 10 (adr 512 8)).num 8 2 ≤ 512 ∧ (pc 49170 10 (adr 512 8)).num 4 4 < 2 ^ 22 := by
  unfold State.Serves; decide +kernel

theorem w_TierCommands_4 :
    (sTr (rotCmd 4194303 0)).Serves (rotCmd 4194303 0) 49171 5 [(0, 5)] Right.op ∧
    ((sTr (rotCmd 4194303 0)).dev.locOf ((rotCmd 4194303 0).num 0 4)).st = LocSt.unpopulated ∧
    (sTr (rotCmd 2 3)).Serves (rotCmd 2 3) 49171 5 [(0, 5)] Right.op ∧
    ((sTr (rotCmd 2 3)).dev.locOf ((rotCmd 2 3).num 0 4)).st ≠ LocSt.unpopulated ∧ (rotCmd 2 3).num 4 1 > 2 := by
  unfold State.Serves; decide +kernel

theorem w_TierCommands_5 :
    (sTrT (rotCmd 2 2) tRot).Serves (rotCmd 2 2) 49171 5 [(0, 5)] Right.op ∧
    ((sTrT (rotCmd 2 2) tRot).dev.locOf ((rotCmd 2 2).num 0 4)).st = LocSt.rotating ∧ (rotCmd 2 2).num 4 1 = 2 ∧
    (sTrT (rotCmd 2 2) tRot).dev.placeOk ((rotCmd 2 2).num 0 4) { kind := 2, slot := 0 : Slot } = true ∧
    (sTr (rotCmd 2 2)).Serves (rotCmd 2 2) 49171 5 [(0, 5)] Right.op ∧
    ((sTr (rotCmd 2 2)).dev.locOf ((rotCmd 2 2).num 0 4)).st = LocSt.resident ∧
    (sTr (rotCmd 2 2)).dev.placeOk ((rotCmd 2 2).num 0 4) { kind := 2, slot := 0 : Slot } = true ∧
    (sTr (rotCmd 2 2)).dev.rotReg = some 0 ∧ (sTr (rotCmd 2 2)).dev.freeSlot ((rotCmd 2 2).num 0 4) 2 = some slotA := by
  unfold State.Serves; decide +kernel

theorem w_TierCommands_6 :
    (sAb rsCopying 16).Serves (wOne 49172 16) 49172 1 [(0, 1)] Right.op ∧ (wOne 49172 16).num 0 1 ≥ 16 ∧
    (sAb rsSwitching 1).Serves (wOne 49172 1) 49172 1 [(0, 1)] Right.op ∧ (wOne 49172 1).num 0 1 < 16 ∧
    (sAb rsSwitching 1).dev.rotStatus ((wOne 49172 1).num 0 1) = rsSwitching := by
  unfold State.Serves; decide +kernel

theorem w_TierCommands_7 :
    (sAb rsCopying 1).Serves (wOne 49172 1) 49172 1 [(0, 1)] Right.op ∧ (wOne 49172 1).num 0 1 < 16 ∧
    (sAb rsCopying 1).dev.rotStatus ((wOne 49172 1).num 0 1) = rsCopying ∧ (sAb rsCopying 1).dev.tiers.evac = [] ∧
    (sAb rsCopying 1).dev.tiers.rots.find ((wOne 49172 1).num 0 1) = some rot1 ∧
    (sTr (pinCmd 49173 134217728 256 1)).dev.wingUsable ((pinCmd 49173 134217728 256 1).num 0 1) = none ∧
    (pinCmd 49173 134217728 256 1).num 1 1 ≤ 1 ∧
    (sTr (pinCmd 49173 134217728 256 1)).Serves (pinCmd 49173 134217728 256 1) 49173 24 [(0, 2), (8, 16)] Right.wing ∧
    (sTr (pinCmd 49173 134217728 256 1)).dev.asm.atriumBits = 0 := by
  unfold State.Serves; decide +kernel

theorem w_TierCommands_8 :
    (sPin (pinCmd 49173 134217729 256 1)).dev.wingUsable ((pinCmd 49173 134217729 256 1).num 0 1) = none ∧
    (pinCmd 49173 134217729 256 1).num 1 1 ≤ 1 ∧
    (sPin (pinCmd 49173 134217729 256 1)).Serves (pinCmd 49173 134217729 256 1) 49173 24 [(0, 2), (8, 16)] Right.wing ∧
    (sPin (pinCmd 49173 134217729 256 1)).dev.asm.atriumBits ≠ 0 ∧ (pinCmd 49173 134217729 256 1).num 8 8 % 256 ≠ 0 ∧
    (sPin (pinCmd 49173 268435456 256 1)).dev.wingUsable ((pinCmd 49173 268435456 256 1).num 0 1) = none ∧
    (pinCmd 49173 268435456 256 1).num 1 1 ≤ 1 ∧
    (sPin (pinCmd 49173 268435456 256 1)).Serves (pinCmd 49173 268435456 256 1) 49173 24 [(0, 2), (8, 16)] Right.wing ∧
    (sPin (pinCmd 49173 268435456 256 1)).dev.asm.atriumBits ≠ 0 ∧ (pinCmd 49173 268435456 256 1).num 8 8 % 256 = 0 ∧
    (pinCmd 49173 268435456 256 1).num 16 8 = 256 ∧
    (sPin (pinCmd 49173 268435456 256 1)).dev.ownsRange ((pinCmd 49173 268435456 256 1).num 0 1) ((pinCmd 49173 268435456 256 1).num 8 8) ((pinCmd 49173 268435456 256 1).num 16 8) = false := by
  unfold State.Serves; decide +kernel

theorem w_TierCommands_9 :
    (sPin (pinCmd 49173 134217728 256 1)).dev.wingUsable ((pinCmd 49173 134217728 256 1).num 0 1) = none ∧
    (pinCmd 49173 134217728 256 1).num 1 1 ≤ 1 ∧
    (sPin (pinCmd 49173 134217728 256 1)).Serves (pinCmd 49173 134217728 256 1) 49173 24 [(0, 2), (8, 16)] Right.wing ∧
    (sPin (pinCmd 49173 134217728 256 1)).dev.asm.atriumBits ≠ 0 ∧ (pinCmd 49173 134217728 256 1).num 8 8 % 256 = 0 ∧
    (pinCmd 49173 134217728 256 1).num 16 8 = 256 ∧
    (sPin (pinCmd 49173 134217728 256 1)).dev.ownsRange ((pinCmd 49173 134217728 256 1).num 0 1) ((pinCmd 49173 134217728 256 1).num 8 8) ((pinCmd 49173 134217728 256 1).num 16 8) = true ∧
    (sPin (pinCmd 49173 134217728 256 1)).dev.pinFits ((pinCmd 49173 134217728 256 1).num 0 1) ((pinCmd 49173 134217728 256 1).num 8 8) ((pinCmd 49173 134217728 256 1).num 16 8) = true ∧
    (sPin (pinCmd 49173 134217728 256 1)).dev.rangeOpen ((pinCmd 49173 134217728 256 1).num 8 8) ((pinCmd 49173 134217728 256 1).num 16 8) = true ∧
    (pinCmd 49173 134217728 256 1).num 1 1 = 1 ∧
    (sPin (pinCmd 49173 134217728 256 1)).dev.atriumFind ((pinCmd 49173 134217728 256 1).num 8 8) = some (kPin, aL) := by
  unfold State.Serves; decide +kernel

theorem w_TierCommands_10 :
    (sPin (pinCmd 49174 134217728 256 0)).dev.wingUsable ((pinCmd 49174 134217728 256 0).num 0 1) = none ∧
    (pinCmd 49174 134217728 256 0).num 1 1 ≤ 1 ∧
    (sPin (pinCmd 49174 134217728 256 0)).Serves (pinCmd 49174 134217728 256 0) 49174 24 [(0, 1), (8, 16)] Right.wing ∧
    (sPin (pinCmd 49174 134217728 256 0)).dev.asm.atriumBits ≠ 0 ∧ (pinCmd 49174 134217728 256 0).num 8 8 % 256 = 0 ∧
    (pinCmd 49174 134217728 256 0).num 16 8 = 256 ∧
    (sPin (pinCmd 49174 134217728 256 0)).dev.ownsRange ((pinCmd 49174 134217728 256 0).num 0 1) ((pinCmd 49174 134217728 256 0).num 8 8) ((pinCmd 49174 134217728 256 0).num 16 8) = true ∧
    (sPin (pinCmd 49174 134217728 256 0)).dev.rangeOpen ((pinCmd 49174 134217728 256 0).num 8 8) ((pinCmd 49174 134217728 256 0).num 16 8) = true ∧
    (sPin (pinCmd 49174 134217728 256 0)).dev.atriumFind ((pinCmd 49174 134217728 256 0).num 8 8) = some (kPin, aL) ∧
    aL.pinned = true ∧ (sTr (wOne 49175 16)).Serves (wOne 49175 16) 49175 1 [(0, 1)] Right.op ∧ (wOne 49175 16).num 0 1 ≥ 16 := by
  unfold State.Serves; decide +kernel

theorem w_TierCommands_11 :
    (st { tierDev (wOne 49175 15) with asm := Assembly.d8x1 }).Serves (wOne 49175 15) 49175 1 [(0, 1)] Right.op ∧
    (wOne 49175 15).num 0 1 < 16 ∧
    (st { tierDev (wOne 49175 15) with asm := Assembly.d8x1 }).dev.asm.hasStack ((wOne 49175 15).num 0 1) = false ∧
    (sTrF (wOne 49175 15) Fld.DSP_STACK_STATE_STATE 0 3221225472).Serves (wOne 49175 15) 49175 1 [(0, 1)] Right.op ∧
    (sTrF (wOne 49175 15) Fld.DSP_STACK_STATE_STATE 0 3221225472).dev.asm.hasStack ((wOne 49175 15).num 0 1) = true ∧
    (sTrF (wOne 49175 15) Fld.DSP_STACK_STATE_STATE 0 3221225472).dev.stackState ((wOne 49175 15).num 0 1) = 3 := by
  unfold State.Serves; decide +kernel

theorem w_TierCommands_12 :
    evS.Serves (wOne 49175 15) 49175 1 [(0, 1)] Right.op ∧ (wOne 49175 15).num 0 1 < 16 ∧
    evS.dev.asm.hasStack ((wOne 49175 15).num 0 1) = true ∧ evS.dev.stackState ((wOne 49175 15).num 0 1) = 1 ∧
    evS.dev.tiers.evac = [] ∧ evS.dev.evacuate ((wOne 49175 15).num 0 1) (wOne 49175 15).place = (0, evE) ∧
    evE.tiers.evac = [((wOne 49175 15).num 0 1, (wOne 49175 15).place)] ∧
    (sTr (wOne 49176 24)).Serves (wOne 49176 24) 49176 1 [(0, 1)] Right.op ∧ (wOne 49176 24).num 0 1 ≥ 24 := by
  unfold State.Serves; decide +kernel

theorem w_TierCommands_13 :
    (sTrF (wOne 49176 23) Fld.DEP_CHANNEL_STATE_STATE 0 1).Serves (wOne 49176 23) 49176 1 [(0, 1)] Right.op ∧
    (wOne 49176 23).num 0 1 < 24 ∧
    (sTrF (wOne 49176 23) Fld.DEP_CHANNEL_STATE_STATE 0 1).dev.chanState ((wOne 49176 23).num 0 1) = 0 ∧
    (sTrF (wOne 49176 23) Fld.DEP_CHANNEL_STATE_STATE 0 (2 * 4 ^ 23)).Serves (wOne 49176 23) 49176 1 [(0, 1)] Right.op ∧
    (sTrF (wOne 49176 23) Fld.DEP_CHANNEL_STATE_STATE 0 (2 * 4 ^ 23)).dev.chanState ((wOne 49176 23).num 0 1) = 2 := by
  unfold State.Serves; decide +kernel

theorem w_TierCommands_14 :
    evC.Serves (wOne 49176 23) 49176 1 [(0, 1)] Right.op ∧ (wOne 49176 23).num 0 1 < 24 ∧
    evC.dev.chanState ((wOne 49176 23).num 0 1) = 1 ∧ evC.dev.tiers.evac = [] ∧
    evC.dev.evacuate (16 + (wOne 49176 23).num 0 1) (wOne 49176 23).place = (0, evCE) ∧
    evCE.tiers.evac = [(16 + (wOne 49176 23).num 0 1, (wOne 49176 23).place)] ∧
    (sTrF (wOne 49177 23) Fld.DEP_CHANNEL_STATE_STATE 0 (2 * 4 ^ 23)).Serves (wOne 49177 23) 49177 1 [(0, 1)] Right.op ∧
    (wOne 49177 23).num 0 1 < 24 ∧
    (sTrF (wOne 49177 23) Fld.DEP_CHANNEL_STATE_STATE 0 (2 * 4 ^ 23)).dev.chanState ((wOne 49177 23).num 0 1) = 2 := by
  unfold State.Serves; decide +kernel

theorem w_TierCommands_15 :
    (sTr (wOne 49177 23)).Serves (wOne 49177 23) 49177 1 [(0, 1)] Right.op ∧ (wOne 49177 23).num 0 1 < 24 ∧
    (sTr (wOne 49177 23)).dev.chanState ((wOne 49177 23).num 0 1) = 1 ∧
    (sTr (trn3 2 0 0)).Serves (trn3 2 0 0) 49178 3 [(0, 3)] Right.op ∧ (trn3 2 0 0).num 0 1 > 1 := by
  unfold State.Serves; decide +kernel

theorem w_TierCommands_16 :
    (sTr (trn3 0 15 31)).Serves (trn3 0 15 31) 49178 3 [(0, 3)] Right.op ∧ (trn3 0 15 31).num 0 1 = 0 ∧ (trn3 0 15 31).num 1 1 < 16 ∧
    (trn3 0 15 31).num 2 1 < 32 ∧ (sTr (trn3 0 15 31)).dev.asm.hasStack ((trn3 0 15 31).num 1 1) = true ∧
    (sTr (trn3 0 15 31)).dev.stackState ((trn3 0 15 31).num 1 1) = 1 ∧ (sTr (trn3 0 15 31)).dev.repairSlot ≠ none ∧
    (sTr (trn3 1 0 23)).Serves (trn3 1 0 23) 49178 3 [(0, 3)] Right.op ∧ (trn3 1 0 23).num 0 1 = 1 ∧ (trn3 1 0 23).num 1 1 = 0 ∧
    (trn3 1 0 23).num 2 1 < 24 ∧ (sTr (trn3 1 0 23)).dev.chanState ((trn3 1 0 23).num 2 1) ≠ 0 ∧
    (sTr (trn3 1 0 23)).dev.chanState ((trn3 1 0 23).num 2 1) = 1 := by
  unfold State.Serves; decide +kernel

theorem w_TierCommands_17 :
    (frC 49184 12 1024).frameRange = true ∧ (frC 49184 12 1024).frame ((frC 49184 12 1024).num 8 4) = frm1 ∧
    (sTrF (frC 49184 12 1024) Fld.SPARE_DSP_FREE 1 0).dev.frameOk frm1 = true ∧
    (sTrF (frC 49184 12 1024) Fld.SPARE_DSP_FREE 1 0).dev.tiers.retired = [] ∧
    (sTrF (frC 49184 12 1024) Fld.SPARE_DSP_FREE 1 0).dev.tiers.retiring = [] ∧
    (sTrF (frC 49184 12 1024) Fld.SPARE_DSP_FREE 1 0).dev.repairSlot ≠ none ∧
    (sTrF (frC 49184 12 1024) Fld.SPARE_DSP_FREE 1 0).Serves (frC 49184 12 1024) 49184 12 [(0, 5), (8, 4)] Right.op ∧
    (sTrF (frC 49184 12 1024) Fld.SPARE_DSP_FREE 1 0).dev.spareFree frm1 = 0 ∧ (sTr (frC 49184 12 1024)).dev.frameOk frm1 = true ∧
    (sTr (frC 49184 12 1024)).dev.tiers.retired = [] ∧ (sTr (frC 49184 12 1024)).dev.tiers.retiring = [] ∧
    (sTr (frC 49184 12 1024)).dev.repairSlot ≠ none ∧
    (sTr (frC 49184 12 1024)).Serves (frC 49184 12 1024) 49184 12 [(0, 5), (8, 4)] Right.op ∧
    1 ≤ (sTr (frC 49184 12 1024)).dev.spareFree frm1 := by
  unfold State.Serves; decide +kernel

theorem w_TierCommands_18 :
    (frC 49185 5 0).frameRange = true ∧
    (frC 49185 5 0).frame ((frC 49185 5 0).num 8 4) = { depot := false, chan := 32, rank := 0, bank := 7, row := 0 : Frame } ∧
    (sTr (frC 49185 5 0)).dev.frameOk { depot := false, chan := 32, rank := 0, bank := 7, row := 0 : Frame } = true ∧
    (sTr (frC 49185 5 0)).dev.tiers.retired = [] ∧ (sTr (frC 49185 5 0)).dev.tiers.retiring = [] ∧
    (sTr (frC 49185 5 0)).dev.repairSlot ≠ none ∧ (sTr (frC 49185 5 0)).Serves (frC 49185 5 0) 49185 5 [(0, 5)] Right.op ∧
    { depot := false, chan := 32, rank := 0, bank := 7, row := 0 : Frame }.row = 0 ∧
    ((sTr (frC 49185 5 0)).dev.bankFrames { depot := false, chan := 32, rank := 0, bank := 7, row := 0 : Frame }).length ≤ (sTr (frC 49185 5 0)).dev.spareFree { depot := false, chan := 32, rank := 0, bank := 7, row := 0 : Frame } ∧
    (sTr (mgn 16)).Serves (mgn 16) 49186 7 [(0, 7)] Right.op ∧ (mgn 16).frameRange = false := by
  unfold State.Serves; decide +kernel

theorem w_TierCommands_19 :
    (sTr (mgn 15)).Serves (mgn 15) 49186 7 [(0, 7)] Right.op ∧ (mgn 15).frameRange = true ∧ (mgn 15).num 0 1 = 0 ∧
    (mgn 15).num 4 1 ≤ 4 ∧ (mgn 15).num 3 1 = 0 ∧ (mgn 15).num 5 1 = 0 ∧ (mgn 15).num 6 1 = 255 ∧
    (sTr (mgn 15)).dev.asm.hasStack ((mgn 15).num 1 1) = true ∧ (sTr (mgn 15)).dev.stackState ((mgn 15).num 1 1) ≠ 0 ∧
    (sTr (mgn 15)).dev.stackState ((mgn 15).num 1 1) ≠ 2 ∧
    (sTr (mgn 15)).dev.chanFaulted (32 * (mgn 15).num 1 1 + (mgn 15).num 2 1) = false ∧
    (sTrF (mgn 15) Fld.DSP_STACK_STATE_STATE 0 2147483648).Serves (mgn 15) 49186 7 [(0, 7)] Right.op ∧
    (sTrF (mgn 15) Fld.DSP_STACK_STATE_STATE 0 2147483648).dev.asm.hasStack ((mgn 15).num 1 1) = true ∧
    (sTrF (mgn 15) Fld.DSP_STACK_STATE_STATE 0 2147483648).dev.stackState ((mgn 15).num 1 1) = 2 := by
  unfold State.Serves; decide +kernel

theorem w_RegionAndServiceCommands_1 :
    (enC 0).num 0 2 < 4096 ∧ (sRg (enC 0) 0).dev.regionWing ((enC 0).num 0 2) < 16 ∧
    (sRg (enC 0) 0).Serves (enC 0) 49200 72 [(0, 2), (8, 64)] Right.region ∧
    (sRg (enC 0) 0).dev.enableRefused ((sRg (enC 0) 0).dev.regionWing ((enC 0).num 0 2)) ((enC 0).num 0 2) (BitVec.ofNat 512 ((enC 0).num 8 64)) = some 1 ∧
    (enC enV).num 0 2 < 4096 ∧ (sRg (enC enV) 0).dev.regionWing ((enC enV).num 0 2) < 16 ∧
    (sRg (enC enV) 0).Serves (enC enV) 49200 72 [(0, 2), (8, 64)] Right.region ∧
    (sRg (enC enV) 0).dev.enableRefused ((sRg (enC enV) 0).dev.regionWing ((enC enV).num 0 2)) ((enC enV).num 0 2) (BitVec.ofNat 512 ((enC enV).num 8 64)) = none ∧
    (sRg (enC enV) 0).dev.epochReady ((enC enV).num 0 2) (BitVec.ofNat 512 ((enC enV).num 8 64)) = true := by
  unfold State.Serves; decide +kernel

theorem w_RegionAndServiceCommands_2 :
    (rgn 49201).num 0 2 < 4096 ∧ (sRg (rgn 49201) 0).dev.regionWing ((rgn 49201).num 0 2) < 16 ∧
    (sRg (rgn 49201) 0).dev.rgState ((rgn 49201).num 0 2) = rgDisabled ∧
    (fun op ↦ (sRg (rgn 49201) 0).Serves (rgn 49201) op 2 [(0, 2)] Right.region) 49201 ∧ (rgn 49202).num 0 2 < 4096 ∧
    (sRg (rgn 49202) 0).dev.regionWing ((rgn 49202).num 0 2) < 16 ∧
    (sRg (rgn 49202) 0).dev.rgState ((rgn 49202).num 0 2) = rgDisabled ∧
    (fun op ↦ (sRg (rgn 49202) 0).Serves (rgn 49202) op 2 [(0, 2)] Right.region) 49202 := by
  unfold State.Serves; decide +kernel

theorem w_RegionAndServiceCommands_3 :
    (rgn 49203).num 0 2 < 4096 ∧ (sRg (rgn 49203) 0).dev.regionWing ((rgn 49203).num 0 2) < 16 ∧
    (sRg (rgn 49203) 0).dev.rgState ((rgn 49203).num 0 2) = rgDisabled ∧
    (fun op ↦ (sRg (rgn 49203) 0).Serves (rgn 49203) op 2 [(0, 2)] Right.region) 49203 ∧ (rgn 49205).num 0 2 < 4096 ∧
    (sRg (rgn 49205) 0).dev.regionWing ((rgn 49205).num 0 2) < 16 ∧
    (sRg (rgn 49205) 0).dev.rgState ((rgn 49205).num 0 2) = rgDisabled ∧
    (fun op ↦ (sRg (rgn 49205) 0).Serves (rgn 49205) op 2 [(0, 2)] Right.region) 49205 := by
  unfold State.Serves; decide +kernel

theorem w_RegionAndServiceCommands_4 :
    (rgn 49201).num 0 2 < 4096 ∧ (sRg (rgn 49201) 1).dev.regionWing ((rgn 49201).num 0 2) < 16 ∧
    (sRg (rgn 49201) 1).dev.rgState ((rgn 49201).num 0 2) = rgOpen ∧
    (fun op ↦ (sRg (rgn 49201) 1).Serves (rgn 49201) op 2 [(0, 2)] Right.region) 49201 ∧ (rgn 49202).num 0 2 < 4096 ∧
    (sRg (rgn 49202) 1).dev.regionWing ((rgn 49202).num 0 2) < 16 ∧ (sRg (rgn 49202) 1).dev.rgState ((rgn 49202).num 0 2) = rgOpen ∧
    (fun op ↦ (sRg (rgn 49202) 1).Serves (rgn 49202) op 2 [(0, 2)] Right.region) 49202 := by
  unfold State.Serves; decide +kernel

theorem w_RegionAndServiceCommands_5 :
    (rgn 49203).num 0 2 < 4096 ∧ (sRg (rgn 49203) 4).dev.regionWing ((rgn 49203).num 0 2) < 16 ∧
    (sRg (rgn 49203) 4).dev.rgState ((rgn 49203).num 0 2) = rgFaulted ∧
    (fun op ↦ (sRg (rgn 49203) 4).Serves (rgn 49203) op 2 [(0, 2)] Right.region) 49203 ∧ (pc 49204 3 131075).num 0 2 < 4096 ∧
    (sRg (pc 49204 3 131075) 4).dev.regionWing ((pc 49204 3 131075).num 0 2) < 16 ∧
    (sRg (pc 49204 3 131075) 4).dev.rgState ((pc 49204 3 131075).num 0 2) = rgFaulted ∧
    (sRg (pc 49204 3 131075) 4).Serves (pc 49204 3 131075) 49204 3 [(0, 3)] Right.region ∧
    (sRg (pc 49204 3 131075) 4).dev.desc ((pc 49204 3 131075).num 0 2) 240 4 < (pc 49204 3 131075).num 2 1 := by
  unfold State.Serves; decide +kernel

theorem w_RegionAndServiceCommands_6 :
    (pc 49204 3 65539).num 0 2 < 4096 ∧ (sRg (pc 49204 3 65539) 4).dev.regionWing ((pc 49204 3 65539).num 0 2) < 16 ∧
    (sRg (pc 49204 3 65539) 4).dev.rgState ((pc 49204 3 65539).num 0 2) = rgFaulted ∧
    (sRg (pc 49204 3 65539) 4).Serves (pc 49204 3 65539) 49204 3 [(0, 3)] Right.region ∧
    (pc 49204 3 65539).num 2 1 ≤ (sRg (pc 49204 3 65539) 4).dev.desc ((pc 49204 3 65539).num 0 2) 240 4 ∧ (rgn 49205).num 0 2 < 4096 ∧
    (sRg (rgn 49205) 2).dev.regionWing ((rgn 49205).num 0 2) < 16 ∧
    (sRg (rgn 49205) 2).dev.rgState ((rgn 49205).num 0 2) = rgWaiting ∧
    (fun op ↦ (sRg (rgn 49205) 2).Serves (rgn 49205) op 2 [(0, 2)] Right.region) 49205 ∧
    (sRg (rgn 49205) 2).dev.rerun.find ((rgn 49205).num 0 2) = none := by
  unfold State.Serves; decide +kernel

theorem w_RegionAndServiceCommands_7 :
    (sWg (pc 49216 2 256)).Serves (pc 49216 2 256) 49216 2 [(0, 2)] Right.op ∧
    2 ^ (2 * (sWg (pc 49216 2 256)).dev.asm.xdies) ≤ (pc 49216 2 256).num 0 2 ∧
    (sWg (pc 49216 2 255)).Serves (pc 49216 2 255) 49216 2 [(0, 2)] Right.op ∧
    (pc 49216 2 255).num 0 2 < 2 ^ (2 * (sWg (pc 49216 2 255)).dev.asm.xdies) := by
  unfold State.Serves; decide +kernel

theorem w_RegionAndServiceCommands_8 :
    (sWg (pMap 7)).Serves (pMap 7) 49217 18 [(0, 18)] Right.op ∧ (pMap 7).num 0 1 ≤ 7 ∧ (pMap 7).num 1 1 = 0 ∧
    List.map (fun q ↦ (pMap 7).num (2 + q) 1) (List.range 16) = psOf 7 ∧
    ((psOf 7).all fun p ↦ decide (p ≤ 7) || decide (p = 255)) = true ∧ (sWg (pMap 8)).Serves (pMap 8) 49217 18 [(0, 18)] Right.op ∧
    (pMap 8).num 0 1 ≤ 7 ∧ (pMap 8).num 1 1 = 0 ∧ List.map (fun q ↦ (pMap 8).num (2 + q) 1) (List.range 16) = psOf 8 ∧
    ((psOf 8).any fun p ↦ decide (p = 8)) = true := by
  unfold State.Serves; decide +kernel

theorem w_RegionAndServiceCommands_9 :
    sVf.Serves (pc 49232 9 1) 49232 9 [(0, 9)] Right.op ∧ (pc 49232 9 1).num 8 1 = 0 ∧ (pc 49232 9 1).num 0 8 = 1 ∧
    ((tileLooms 0).all fun n ↦ decide (sVf.dev.loomState n = stIdle)) = true ∧ sVf.dev.vfOffset 0 15 < 127 ∧
    (sLm stRunning (pc 49232 9 1)).Serves (pc 49232 9 1) 49232 9 [(0, 9)] Right.op ∧
    ((tileLooms 0).all fun n ↦ decide ((sLm stRunning (pc 49232 9 1)).dev.loomState n = stIdle)) = false ∧
    (sWg (pc 49233 0 0)).dev.live = true ∧ (sWg (pc 49233 0 0)).dev.mbFront 49233 = some (pc 49233 0 0) ∧ (pc 49233 0 0).data = [] ∧
    (sWg (pc 49233 0 0)).dev.ctx (pc 49233 0 0) = some Ctx.operator := by
  unfold State.Serves; decide +kernel

theorem w_RegionAndServiceCommands_10 :
    (sWg (pc 49236 4 81920)).Serves (pc 49236 4 81920) 49236 4 [(0, 4)] Right.op ∧ 1 ≤ (pc 49236 4 81920).num 2 2 ∧
    (pc 49236 4 81920).num 2 2 ≤ 4096 ∧ (pc 49236 4 81920).num 0 2 + (pc 49236 4 81920).num 2 2 ≤ 2 ^ 16 ∧
    (sWg (pc 49236 4 196607)).Serves (pc 49236 4 196607) 49236 4 [(0, 4)] Right.op ∧
    (pc 49236 4 196607).num 0 2 + (pc 49236 4 196607).num 2 2 > 2 ^ 16 := by
  unfold State.Serves; decide +kernel

theorem w_RegionAndServiceCommands_11 :
    (sWg (pc 49234 1 10)).Serves (pc 49234 1 10) 49234 1 [(0, 1)] Right.op ∧ (pc 49234 1 10).num 0 1 < 16 ∧
    (sWg (pc 49234 1 10)).dev.reg.ucode = [] ∧ List.filter (fun m ↦ ((pc 49234 1 10).num 0 1).testBit m) (List.range 4) = [1, 3] ∧
    (sSt { running := true, bg := [{ box := 32, op := 49234, obj := 0 : Bg }], ucode := [3] : Registrar }).dev.live = true ∧
    (sSt { running := true, bg := [{ box := 32, op := 49234, obj := 0 : Bg }], ucode := [3] : Registrar }).dev.reg.running = true ∧
    (sSt { running := true, bg := [{ box := 32, op := 49234, obj := 0 : Bg }], ucode := [3] : Registrar }).dev.reg.ucode = [3] ∧
    (sSt { running := true, bg := [{ box := 32, op := 49234, obj := 0 : Bg }], ucode := [3] : Registrar }).dev.enginesIdle 3 = true ∧
    (sWg (pc 49235 0 0)).Serves (pc 49235 0 0) 49235 0 [] Right.op ∧ (sSt { warm := true : Registrar }).dev.live = true ∧
    (sSt { warm := true : Registrar }).dev.reg.running = false ∧ (sSt { warm := true : Registrar }).dev.reg.warm = true := by
  unfold State.Serves; decide +kernel

theorem w_RegionAndServiceCommands_12 :
    (sSt { : Registrar }).dev.live = true ∧ (sSt { : Registrar }).dev.reg.running = false ∧
    (sSt { : Registrar }).dev.reg.warm = false ∧ (sSt { : Registrar }).dev.reg.bootOver = 0 ∧
    (sSt { : Registrar }).dev.strap 2 = false ∧ (sIn true false).okA = true ∧ (sIn false false).okA = false ∧
    (sIn false false).okB = false ∧ (st { mbDev { : Registrar } with ledger := { erased := 16 : Ledger } }).dev.reg.running = true ∧
    16 ≤ (st { mbDev { : Registrar } with ledger := { erased := 16 : Ledger } }).dev.ledger.erased ∧
    (sSt { running := true, beat := 18000000, lost := 1 : Registrar }).dev.ledgerOn = true ∧
    (sSt { running := true, beat := 18000000, lost := 1 : Registrar }).dev.reg.beat + ((sSt { running := true, beat := 18000000, lost := 1 : Registrar }).dev.reg.lost + 1) * 1000000 ≤ (sSt { running := true, beat := 18000000, lost := 1 : Registrar }).dev.tick := by
  decide +kernel

/-! ### Power, ledger, pins -/

def pw_ (x : Selv) : Dev := { memDev with selv := x }
def sPw : State := st ((memDev.setFld Fld.SELV_THERMAL_THROTTLE 0 95).setFld Fld.TILE_STATE_STATE 9 1)
def sCal : State := st (((memDev.setFld Fld.SELV_STATUS_CAL 0 4096).setFld Fld.SELV_CAP_CAP 0 1500).setFld Fld.SELV_CAP_WINDOW 0 1)
def sFault : State := st { memDev with pins := { memDev.pins with phase := .fault, faultAt := 19990000, frameAt := some 19900000, fault := true } }
def sTile (s_ : Nat) (d : Dev) : State := st (d.setFld Fld.TILE_STATE_STATE 63 s_)
def sOff : State := sTile 1 ({ memDev with tileAt := [(63, 19999999)] }.setFld Fld.TILE_CTRL_PLLOFF_DELAY 0 1)
def sWake : State := sTile 2 { memDev with tileAt := [(63, 20000000)], selv := { grants := [(63, 1)] } }
def sGate : State := sTile 3 { memDev with tileIdle := [(63, 19999990)] }
def rp (n : Nat) : Report := ⟨n, 0x77, 0⟩
def sRp (l : List Report) : State := st { memDev with reports := l }
def rpDev (cls : Nat) : Dev := ((memDev.setFld Fld.LEDGER_SRC_BASE 0x110 cls).setFld Fld.LEDGER_SRC_N 0x110 2)
def sRpC (cls : Nat) : State := st { rpDev cls with reports := [rp 0x110, rp 0x111] }
def sBad : State := st { memDev.setFld Fld.LEDGER_SRC_RAIL_BAD 0x110 1 with reports := [rp 0x110] }
def sFat (seq : Nat) : State := st (((hostDev.setFld Fld.LEDGER_FATAL_VALID 0 1).setFld Fld.LEDGER_FATAL_SEQ 0 seq).setFld Fld.HEAD_STATUS_FREEZE_CAUSE 0 0)
def sFatB : State := st { (sFat 7).dev with ledger := { lastFatal := some (19999950, 9) } }
def sCom (n : Nat) : State := st { memDev with ledger := { erased := n, lastCommit := 10000000 } }
def lrec5 : LRec := { seq := 0x01000005, source := 0x110, cls := 2, forced := false, rail := false, wing := 0, first := 1, last := 2, detail := 3 }
def sRing : State := st { memDev with ledger := { ring := [(4, lrec5)], changed := [4], erased := 3 } }
def pins0 : Pins := memDev.pins
def sPinS (p : Pins) : State := st { memDev with pins := p }
def sPf (n : Nat) : State := st { memDev with ledger := { erased := n } }
/-- Tile 63 runs, with nothing asked of its rails. -/
def sPwRun : State := st (((memDev.setFld Fld.SELV_THERMAL_THROTTLE 0 95).setFld Fld.TILE_STATE_STATE 63 3).setFld Fld.SELV_CAP_WINDOW 0 1)

theorem w_PowerLoops_1 :
    sPw.dev.selvOn = true ∧ sPw.dev.selv.tripped = false ∧ (sTile 3 memDev).dev.selvOn = true ∧
    (sTile 3 memDev).dev.selv.tripped = false ∧ sPwRun.dev.selvOn = true ∧ sPwRun.dev.selv.tripped = false ∧ sPw.dev.runTiles = [] ∧
    sCal.dev.selvOn = true ∧ sCal.dev.selv.tripped = false ∧
    (1225000 - 1000000) * 100 ≤ 15 * (sCal.dev.fld Fld.SELV_CAP_CAP 0 * 1000) ∧ sCal.dev.fld Fld.SELV_STATUS_DIVERGING 0 = 0 ∧
    sPw.dev.selv.pend = [] ∧ sPw.dev.pins.phase = Phase.run ∧ sFault.dev.selvOn = true ∧ sFault.dev.selv.tripped = false ∧
    sFault.dev.pins.phase = Phase.fault ∧ sHost.dev.selvOn = true ∧ sHost.dev.selv.tripped = false ∧ sHost.dev.live = true ∧
    sHost.dev.Writes 0 Block.selvage 0 ∧ (sTile 0 memDev).dev.selvOn = true ∧ (sTile 0 memDev).dev.selv.tripped = false ∧
    (sTile 0 memDev).dev.tileState 63 = tsPllOff ∧ (sTile 1 memDev).dev.selvOn = true ∧ (sTile 1 memDev).dev.selv.tripped = false ∧
    (sTile 1 memDev).dev.tileState 63 = tsGated := by
  unfold Dev.Writes; decide +kernel

theorem w_PowerLoops_2 :
    sOff.dev.selvOn = true ∧ sOff.dev.selv.tripped = false ∧ sOff.dev.tileState 63 = tsGated ∧
    sOff.dev.fld Fld.TILE_CTRL_PLLOFF_DELAY 0 = 1 ∧ Fmap.get 0 sOff.dev.tileAt 63 + 1 ≤ sOff.dev.tick ∧ sWake.dev.selvOn = true ∧
    sWake.dev.selv.tripped = false ∧ sWake.dev.tileState 63 = tsWaking ∧ Fmap.get 0 sWake.dev.tileAt 63 ≤ sWake.dev.tick ∧
    (sWake.dev.selv.grants.find 63).isSome = true ∧ (∀ (n : LoomId), sWake.dev.loomState n ≠ stWaking) ∧ sGate.dev.selvOn = true ∧
    sGate.dev.selv.tripped = false ∧ sGate.dev.tileState 63 = tsRun ∧ (tileLooms 63).any sGate.dev.keepsTile = false ∧
    (tileLooms 63).all sGate.dev.loomQuiet = true ∧ sGate.dev.tileIdle.find 63 = some 19999990 ∧ 19999990 + 10 ≤ sGate.dev.tick := by
  decide +kernel

theorem w_LedgerCommands_1 :
    sPw.dev.ledgerOn = true ∧ sPw.dev.reports = [] ∧ sBad.dev.ledgerOn = true ∧ sBad.dev.reports = [rp 272] ∧
    sBad.dev.fld Fld.LEDGER_SRC_RAIL_BAD (rp 272).src = 1 ∧ (sRpC 2).dev.ledgerOn = true ∧ (sRpC 2).dev.reports = [rp 272, rp 273] ∧
    (sRpC 2).dev.fld Fld.LEDGER_SRC_RAIL_BAD (rp 272).src = 0 ∧ (sRpC 2).dev.fld Fld.LEDGER_SRC_WCOUNT (rp 272).src = 0 ∧
    (sRpC 2).dev.fld Fld.LEDGER_SRC_OPEN (rp 272).src = 0 ∧ (sRpC 2).dev.fld Fld.LEDGER_SRC_ESCALATED (rp 272).src = 0 ∧
    2 ≤ (sRpC 2).dev.fld Fld.LEDGER_SRC_N (rp 272).src ∧ (sRpC 2).dev.fld Fld.LEDGER_SRC_BASE (rp 272).src < clsFatal ∧
    (sRpC 3).dev.ledgerOn = true ∧ (sRpC 3).dev.reports = [rp 272, rp 273] ∧
    (sRpC 3).dev.fld Fld.LEDGER_SRC_RAIL_BAD (rp 272).src = 0 ∧ (sRpC 3).dev.fld Fld.LEDGER_SRC_WCOUNT (rp 272).src = 0 ∧
    (sRpC 3).dev.fld Fld.LEDGER_SRC_OPEN (rp 272).src = 0 ∧ (sRpC 3).dev.fld Fld.LEDGER_SRC_ESCALATED (rp 272).src = 0 ∧
    2 ≤ (sRpC 3).dev.fld Fld.LEDGER_SRC_N (rp 272).src ∧ (sRpC 3).dev.fld Fld.LEDGER_SRC_BASE (rp 272).src = clsFatal ∧
    sPw.dev.fatal = false ∧ sPw.dev.pins.phase = Phase.run ∧ sBad.dev.fld Fld.LEDGER_SRC_RAIL_BAD 272 = 1 ∧
    sPw.dev.fld Fld.LEDGER_SRC_RAIL_BAD 897 = 0 ∧
    ((sPw.dev.setFld Fld.LEDGER_SRC_RAIL_BAD 897 1).event 897 (mkDetail 0 897 0) noWing false true).fld Fld.LEDGER_SRC_RAIL_BAD 896 = 0 := by
  decide +kernel

theorem w_LedgerCommands_2 :
    sHost.dev.ledgerOn = true ∧ sHost.dev.live = true ∧ sHost.dev.Writes 0 Block.ledger 0 ∧ sHost.dev.Writes 0 Block.ledger 272 ∧
    BitVec.getLsbD (10376293541461622783 : BitVec 64) 63 = true ∧ BitVec.getLsbD (10376293541461622783 : BitVec 64) 62 = false ∧
    BitVec.getLsbD (10376293541461622783 : BitVec 64) 61 = false ∧ BitVec.getLsbD (5764607523034234879 : BitVec 64) 63 = false ∧
    BitVec.getLsbD (5764607523034234879 : BitVec 64) 62 = true ∧ BitVec.getLsbD (5764607523034234879 : BitVec 64) 61 = false ∧
    BitVec.getLsbD (3458764513820540927 : BitVec 64) 63 = false ∧ BitVec.getLsbD (3458764513820540927 : BitVec 64) 62 = false ∧
    BitVec.getLsbD (3458764513820540927 : BitVec 64) 61 = true := by
  unfold Dev.Writes; decide +kernel

theorem w_LedgerCommands_3 :
    sFatB.dev.ledgerOn = true ∧ sFatB.dev.live = true ∧ sFatB.dev.Writes 0 Block.ledger 0 ∧ sFatB.dev.fatal = true ∧
    sFatB.dev.fld Fld.LEDGER_FATAL_TRIP 0 = 0 ∧ sFatB.dev.ledger.lastFatal = some (19999950, 9) ∧
    9 ≠ sFatB.dev.fld Fld.LEDGER_FATAL_SEQ 0 ∧ sFatB.dev.tick < 19999950 + 100 ∧ (sFat 7).dev.ledgerOn = true ∧
    (sFat 7).dev.live = true ∧ (sFat 7).dev.Writes 0 Block.ledger 0 ∧ (sFat 7).dev.fatal = true ∧
    (sFat 7).dev.fld Fld.LEDGER_FATAL_TRIP 0 = 0 ∧ (sFat 7).dev.fld Fld.LEDGER_FATAL_SEQ 0 ≠ 6 ∧
    (sFat 7).dev.fld Fld.LEDGER_FATAL_SEQ 0 = 7 ∧ (sFat 7).dev.newFatal = false ∧ sPw.dev.ledgerOn = true ∧
    sPw.dev.pins.phase = Phase.run ∧ sPw.dev.pins.aliveAt + 500 ≤ sPw.dev.tick ∧ sFault.dev.ledgerOn = true ∧
    sFault.dev.pins.phase = Phase.fault ∧ sFault.dev.pins.faultAt + 10000 ≤ sFault.dev.tick := by
  unfold Dev.Writes; decide +kernel

theorem w_LedgerCommands_4 :
    sFault.dev.ledgerOn = true ∧ sFault.dev.pins.phase = Phase.fault ∧ sFault.dev.pins.frameAt = some 19900000 ∧
    19900000 + 100000 ≤ sFault.dev.tick ∧ sPw.dev.ledgerOn = true ∧ 3 < sPw.dev.asm.xdies ∧ sPw.dev.ledger.stale.getLsbD 3 = false ∧
    (sCom 2).dev.ledgerOn = true ∧ (sCom 2).dev.pins.pwrfailN = true ∧ (sCom 2).dev.ledger.lastCommit + 10000000 ≤ (sCom 2).dev.tick ∧
    2 ≤ (sCom 2).dev.ledger.erased ∧ (sCom 1).dev.ledgerOn = true ∧ (sCom 1).dev.pins.pwrfailN = true ∧
    (sCom 1).dev.ledger.lastCommit + 10000000 ≤ (sCom 1).dev.tick ∧ (sCom 1).dev.ledger.erased ≤ 1 ∧ sRing.dev.ledgerOn = true ∧
    sRing.dev.ledger.changed.length ≤ 256 ∧ bytesNat [255, 3] < 1024 ∧
    List.find? (fun c ↦ decide (c.2.seq = bytesNat [5, 0, 0, 1])) sRing.dev.ledger.ring = some (4, lrec5) := by
  decide +kernel

theorem w_PinsAndResets :
    (sPinS { pins0 with clkAt := ({} : Pins).clkAt }).dev.pins.aonClk = true ∧
    (sPinS { pins0 with clkAt := ({} : Pins).clkAt }).dev.pins.aonPower = true ∧
    (sPinS { pins0 with clkAt := ({} : Pins).clkAt }).dev.pins.clkAt + 1000 ≤ (sPinS { pins0 with clkAt := ({} : Pins).clkAt }).dev.tick ∧
    (sPinS { pins0 with aonClk := false }).dev.pins.aonClk = false ∧ sGate.dev.pins.rstN = true ∧ sGate.dev.pins.aonPower = true ∧
    (sPinS { pins0 with rstN := ({} : Pins).rstN }).dev.pins.rstN = false ∧
    (sPinS { pins0 with rstAt := 19999001, phase := ({} : Pins).phase }).dev.pins.aonPower = true ∧
    (sPinS { pins0 with rstAt := 19999001, phase := ({} : Pins).phase }).dev.pins.aonClk = true ∧
    (sPinS { pins0 with rstAt := 19999001, phase := ({} : Pins).phase }).dev.pins.pwrOk = true ∧
    (sPinS { pins0 with rstAt := 19999001, phase := ({} : Pins).phase }).dev.pins.rstN = true ∧
    (sPinS { pins0 with rstAt := 19999001, phase := ({} : Pins).phase }).dev.pins.phase = Phase.strap ∧
    (sPinS { pins0 with rstAt := 19999001, phase := ({} : Pins).phase }).dev.tick < (sPinS { pins0 with rstAt := 19999001, phase := ({} : Pins).phase }).dev.pins.rstAt + 1000 ∧
    (sPinS { pins0 with rstAt := 19999000, phase := ({} : Pins).phase }).dev.pins.aonPower = true ∧
    (sPinS { pins0 with rstAt := 19999000, phase := ({} : Pins).phase }).dev.pins.aonClk = true ∧
    (sPinS { pins0 with rstAt := 19999000, phase := ({} : Pins).phase }).dev.pins.pwrOk = true ∧
    (sPinS { pins0 with rstAt := 19999000, phase := ({} : Pins).phase }).dev.pins.rstN = true ∧
    (sPinS { pins0 with rstAt := 19999000, phase := ({} : Pins).phase }).dev.pins.phase = Phase.strap ∧
    (sPinS { pins0 with rstAt := 19999000, phase := ({} : Pins).phase }).dev.pins.rstAt + 1000 ≤ (sPinS { pins0 with rstAt := 19999000, phase := ({} : Pins).phase }).dev.tick ∧
    (sPf 0).dev.pins.rstN = true ∧ (sPf 0).dev.pins.pwrfailN = true ∧ (sPf 0).dev.pins.aonPower = true ∧
    (sPf 0).dev.ledger.erased = 0 ∧ (sPf 3).dev.pins.rstN = true ∧ (sPf 3).dev.pins.pwrfailN = true ∧
    (sPf 3).dev.pins.aonPower = true ∧ (sPf 3).dev.ledger.erased ≠ 0 ∧ sGate.dev.pins.aonClk = true ∧
    (sPinS { pins0 with perstN := ({} : Pins).perstN }).dev.pins.rstN = true := by
  decide +kernel

theorem w_FastLogicAsleep :
    State.reset.dev.live = false ∧ alwaysOn (Instr.add 5 a1) = false := by
  decide +kernel

/-! ### Rules of the spec, each whole -/

theorem w_FloatComparesQuiet :
    2139095041 < 2 ^ ltWidth 0 ∧ 0 < 2 ^ ltWidth 0 ∧
    ((fun x ↦ x / 2 ^ (ltLayout 0).m % 2 ^ (ltLayout 0).e = 2 ^ (ltLayout 0).e - 1 ∧ x % 2 ^ (ltLayout 0).m ≠ 0) 2139095041 ∨ (fun x ↦ x / 2 ^ (ltLayout 0).m % 2 ^ (ltLayout 0).e = 2 ^ (ltLayout 0).e - 1 ∧ x % 2 ^ (ltLayout 0).m ≠ 0) 0) ∧
    2147483648 < 2 ^ ltWidth 0 ∧ ((fun x ↦ x = 0 ∨ x = 2 ^ (ltWidth 0 - 1)) 2147483648) ∧
    ((fun x ↦ x = 0 ∨ x = 2 ^ (ltWidth 0 - 1)) 0) ∧ 31745 < 2 ^ ltWidth 2 ∧ 0 < 2 ^ ltWidth 2 ∧
    ((fun x ↦ x / 2 ^ (ltLayout 2).m % 2 ^ (ltLayout 2).e = 2 ^ (ltLayout 2).e - 1 ∧ x % 2 ^ (ltLayout 2).m ≠ 0) 31745 ∨ (fun x ↦ x / 2 ^ (ltLayout 2).m % 2 ^ (ltLayout 2).e = 2 ^ (ltLayout 2).e - 1 ∧ x % 2 ^ (ltLayout 2).m ≠ 0) 0) := by
  decide +kernel

theorem w_KeySlots_1 :
    (sWg kLoad0).dev.wingUsable (kLoad0.num 0 1) = none ∧ (sWg kLoad0).Serves kLoad0 49162 72 [(0, 1), (4, 68)] Right.sec ∧
    ((sWg kLoad0).dev.wing (kLoad0.num 0 1)).extents ≠ [] ∧ (sWg kLoad).dev.wingUsable (kLoad.num 0 1) = none ∧
    (sWg kLoad).Serves kLoad 49162 72 [(0, 1), (4, 68)] Right.sec ∧ ((sWg kLoad).dev.wing (kLoad.num 0 1)).extents = [] ∧
    (sWg kLoad).dev.reg.fills = [] := by
  unfold State.Serves; decide +kernel

theorem w_KeySlots_2 :
    (sWgF (gExt 15 268435456) Fld.WING_STATE_KEY_LOADED 1 0).dev.wingUsable ((gExt 15 268435456).num 0 1) = none ∧
    (sWgF (gExt 15 268435456) Fld.WING_STATE_KEY_LOADED 1 0).Serves (gExt 15 268435456) 49153 16 [(0, 2), (4, 12)] Right.op ∧
    (gExt 15 268435456).num 1 1 = 1 ∧
    (sWgF (gExt 15 268435456) Fld.WING_STATE_KEY_LOADED 1 0).dev.fld Fld.WING_STATE_KEY_LOADED ((gExt 15 268435456).num 0 1) = 0 ∧
    ((sWgF (gExt 15 268435456) Fld.WING_STATE_KEY_LOADED 1 0).dev.taken.any fun e ↦ overlap ((gExt 15 268435456).num 8 8) ((gExt 15 268435456).num 4 4 * 2 ^ 28) e.1 e.2) = false ∧
    sRel.dev.live = true ∧ sRel.dev.releaseReady 1 = true ∧ (∀ x ∈ (sRel.dev.wing 1).extents, sRel.dev.rangeHeld x.1 x.2 = []) := by
  unfold State.Serves; decide +kernel

theorem w_SingleNaNFormats : (0xFF : Nat) < 256 ∧ (0xFF : Nat) ≠ 0x80 ∧ (0xF : Nat) < 16 ∧ (0xF : Nat) ≠ 8 ∧
    (∃ e, decodeElem 8 0 = .fin false 0 e) ∧ ∃ e, decodeElem 1 0 = .fin false 0 e := by
  refine ⟨by decide, by decide, by decide, by decide, ⟨_, rfl⟩, ⟨_, rfl⟩⟩
theorem w_StacksPresent : Assembly.d12x2 ∈ [Assembly.d12x4, .d12x2] ∧ Assembly.d8x1 ∈ [Assembly.d8x2, .d8x1] ∧ (15 : Nat) < 16 ∧
    (31 : Nat) < 32 ∧ (3 : Nat) < 4 := by decide

/-! ### The spec's worked examples -/

/-- 01_architecture.md: loom 2,353 lies in tile 38, its scratch at 0x3000_9310_0000. -/
theorem test_loom_place : loomTile (2 * 1024 + 9 * 32 + 17) = 38 ∧ loomDie 2353 = 2 ∧ scratchBase + 2353 * MiB = 0x300093100000 := by
  decide +kernel
/-- 02_number_formats.md: MXFP6-E3M2 codes of 1.0, -0.25, 28 and 0.0625. -/
theorem test_fp6_codes : (quantize 4 .rne false [decodeIeee .fp32 0x3F800000, decodeIeee .fp32 0xBE800000, decodeIeee .fp32 0x41E00000,
    decodeIeee .fp32 0x3D800000] [0, 0, 0, 0]).1 = [0x0C, 0x24, 0x1F, 0x01] := by decide +kernel
/-- 02_number_formats.md: the SF4 block with scale byte 0x7C (2^-3), element by element in FP32. -/
theorem test_sf4_block : [1, 2, 0xF, 7, 8, 0, 3, 0xC].map (fun c => (dqLane 1 (RCtl.ofBits 0) 0x7C c).1) =
    [0x3D800000, 0x3E000000, 0xBF400000, 0x3F400000, 0x7FC00000, 0, 0x3E400000, 0xBE800000] := by decide +kernel
/-- 02_number_formats.md: -1.625 is 0xBD in SF8; 0x80 is that format's one NaN and a zero of MXFP8-E4M3. -/
theorem test_sf8_code : elemCode 8 true (gridRound 8 .rne 0 true 13 (-3)).1 = 0xBD ∧ decodeElem 6 0xBD = decodeElem 8 0xBD ∧
    decodeElem 8 0x80 = .nan false 0x80 ∧ decodeElem 6 0x80 ≠ decodeElem 8 0x80 := by decide +kernel
/-- 03_array_arithmetic.md: the MXFP8-E5M2 block whose small products lie below the window. -/
theorem test_weave_window : cellBlock 7 false 0 ([(0x64, 0x64), (0x01, 0x04), (0x81, 0x04)] ++ List.replicate 29 (0, 0)) 0x7F 0x7F =
    (0x497FFFFF, { inexact := true, trunc := true }) ∧
    cellBlock 7 true 0 ([(0x64, 0x64), (0x01, 0x04), (0x81, 0x04)] ++ List.replicate 29 (0, 0)) 0x7F 0x7F = (0x49800000, {}) := by
  decide +kernel
/-- 05_reed_vector_engine.md: 7.0, -2.5, 0.3 and 1.0 quantized to SF4 under both scale rules. -/
def sf4In : List FV := ([0x40E00000, 0xC0200000, 0x3E99999A, 0x3F800000] ++ List.replicate 12 0).map (decodeIeee .fp32)
theorem test_sf4_rule0 : quantize 1 .rne false sf4In (List.replicate 16 0) =
    ([7, 0xC, 1, 2] ++ List.replicate 12 0, 0x7F, { overflow := true, inexact := true }) := by decide +kernel
theorem test_sf4_rule1 : quantize 1 .rne true sf4In (List.replicate 16 0) =
    ([6, 0xA, 0, 1] ++ List.replicate 12 0, 0x80, { underflow := true, inexact := true }) := by decide +kernel
/-- 05_reed_vector_engine.md: the two words of a DRAIN of MXFP8-E4M3 at t12 with tally 5. -/
def wDrain : W64 := 0x60180280D7800000
theorem test_drain_word :
    reedWord wDrain = true ∧ rwOp wDrain = 0x3C ∧ rwRA wDrain = 12 ∧ rwFmt wDrain = 6 ∧ rwLt wDrain = 0 ∧ rwRnd wDrain = 0 ∧
    rwTally wDrain = 5 := by decide +kernel
/-- 08_display_depot_tiers.md, R204: DPA 0x0000_4A31_2048 lies on home m0, channel 22 of stack s2, offset 0x24_6248. -/
def dStripe : Dev := { (memDev.setFld Fld.DSP_LAYOUT_SIZE 0 4071).setFld Fld.DSP_LAYOUT_LIMIT 0 12 with asm := .d16x4 }
theorem test_striped_place : dStripe.home 0x4A312048 = 0 ∧ dStripe.physOf 0x4A312048 = ⟨false, 2, 22, 0x246248⟩ := by
  decide +kernel
/-- 10_conservators.md: CLIP_APPLY of 6.25 gives 0x3ECC_CCCD; ADAM's S0 and S1 after one epoch. -/
theorem test_clip_factor : (cMin1 (cDiv 0x3F800000 (cAdd (cSqrt 0x40C80000) 0))).1 = 0x3ECCCCCD ∧
    (cMul (0x3F800000, 0) 0x3F666666).1 = 0x3F666666 ∧ (cMul (0x3F800000, 0) 0x3F7FBE77).1 = 0x3F7FBE77 := by decide +kernel
/-- 11_translation.md: bytes 8 to 15 and ADDR of the record of loom 2,353, and the page the host then maps. -/
def rEx : FRec := { (up.mkRec (.treadle 2353) 3 0x123456789ABC .load false ⟨.notPresent, 0, 0xC00100A8⟩) with tag := 0x41 }
theorem test_fault_record :
    rEx.bytes 0 true / 2 ^ 64 % 2 ^ 64 = 0x0041000000800931 ∧ rEx.bytes 0 true % 2 ^ 64 = 0x123456789ABC ∧
    rEx.bytes 0 true / 2 ^ 128 % 2 ^ 64 = 0xC00100A8 ∧ leafTarget ⟨3, 0x123454000000, false, 0x2C000107⟩ 0x123456789ABC = 0x2E789ABC := by
  decide +kernel
/-- 12_couriers_host_coupling.md: the COPY slot with CHECK 0x9B passes, with PHASE 1 only. -/
def slotEx : List Byte :=
  [0x01, 0xB8, 0x9B, 0, 7, 0, 0, 0, 0, 0, 0, 0x34, 0x12, 0, 0, 0x98, 0, 0, 0, 0x2E, 0, 0, 0, 0, 0, 0, 0x10, 0]
    ++ List.replicate 36 0
theorem test_slot_check : slotPasses slotEx true = true ∧ slotPasses slotEx false = false ∧ slotPasses (slotEx.set 2 0x9A) true = false := by decide +kernel
/-- 13_host_port.md: decoder 0 of head h9 takes host address 0x40_0001_3A40 to HD 0x9A40; its neighbours refuse it. -/
def hdmEx : Hdm := { committed := true, base := 0x4000000000, size := 64 * 2 ^ 30, iw := 1, ig := 4, pos := 1 }
theorem test_hdm : hdmEx.decode 0x4000013A40 = some 0x9A40 ∧ hdmEx.decode 0x4000012A40 = none ∧ hdmEx.decode 0x5000000000 = none := by decide +kernel
/-- 16_registrar_mailboxes.md: point 15 of tile 38's die is 4,000 MHz and 880 mV, the tile's offset there is -6. -/
def dVf : Dev := { up with prov := [(0xA3C, 0xA0), (0xA3D, 0x0F), (0xA3E, 0x70), (0xA3F, 0x03), (0xAAF, 0xFA)] }
theorem test_vf :
    dVf.provNat 0xA3C 4 = 0x03700FA0 ∧ dVf.vfOffset 38 15 = -6 := by decide +kernel

/-! ### Ill-formed commands: one for each check -/

def long : List Byte := List.replicate 33 0
def msgBad : PMsg := { rdX with opc := 0 }

theorem test_wf_refuses_requests : ∀ i ∈ ([.readShared (rq .readOwn), .readOwn (rq .readShared), .upgrade (rq .readOwn), .ownNoData (rq .readOwn),
    .writeBack (rq .writeClean), .writeClean (rq .writeBack), .cleanEvict (rq .readOwn), .readOnce (rq .write), .write (rq .readOnce),
    .atomic (rq .readOnce), .reduceWrite (rq .write)] : List Instr), i.wf = false := by decide +kernel
theorem test_wf_refuses_messages : ∀ i ∈ ([.recallMsg (ms .data), .invalidate (ms .data), .stash (ms .data), .data (ms .comp),
    .recallData (ms .recallAck), .recallAck (ms .recallData), .invAck (ms .recallAck), .comp (ms .compAck), .compAck (ms .comp),
    .retry (ms .credit), .credit (ms .retryBusy), .stashAck (ms .stash)] : List Instr), i.wf = false := by decide +kernel
theorem test_wf_refuses_port_messages : ∀ i ∈ ([.rd 0 msgBad, .atom 0 msgBad, .wr 0 msgBad, .wrm 0 msgBad, .cmp 0 msgBad, .rdata 0 msgBad,
    .atomdata 0 msgBad, .jgLimit 0 msgBad, .jgCommit 0 msgBad, .jgAck 0 msgBad] : List Instr), i.wf = false := by decide +kernel
theorem test_wf_refuses_registers : ∀ i ∈ ([.registerWrite 0 (.bar0 4 true 0), .registerWrite 0 (.bar0 0x2000000 true 0),
    .registerWrite 0 (.bar4 2 0), .registerWrite 0 (.hdm 0 { iw := 5 }), .registerWrite 0 (.hdm 0 { ig := 7 }),
    .meminjArm 0 0, .faultResume 0 0, .invalidationStart 0 0, .queueEnable 0 7 0, .queueDisable 0 7 0x80000000, .force 0 0 0,
    .openClear 0 0 0, .escalatedClear 0 0 0] : List Instr), i.wf = false := by decide +kernel
theorem test_wf_refuses_loom_commands : ∀ i ∈ ([.reedEnqueue 0 0, .wayPowerChange 0 { aWay with num := 0x83 }, .cleanAll 0 aWay, .flushAll 0 aWay,
    .unlockAll 0 aWay, .homeTimeoutExpiry 0 4112, .parityRetry { chan := 536 } true, .refreshRateChange false 16 0, .refreshRateChange true 24 0] : List Instr),
    i.wf = false := by decide +kernel
theorem test_wf_refuses_host_commands : ∀ i ∈ ([.atsTranslationCompletion 0 0 true 0 4095 true, .bar2Read 0 0 0 4097, .bar2Read 0 0 0 0,
    .bar2Write 0 0 false 4095 2 0, .configRead 0 2, .configWrite 0 1 0 0, .mailboxDoorbell 34 0 [], .margin (List.replicate 257 (0, 0)),
    .vfRecalibrate [(64, 0, 1)], .vfRecalibrate [(0, 16, 1)], .slowLoop { act := [{ busy := 1 }] }, .slowLoop { power := [16] },
    .responderStatusRead long, .responderOverflowRead long, .responderRecordRead long, .responderSourceRead long] : List Instr),
    i.wf = false := by decide +kernel
theorem test_wf_accepts : ∀ i ∈ ([.readShared (rq .readShared), .registerWrite 0 (.bar0 8 true 0), .reedEnqueue 0 wDrain, .meminjArm 0 (1 <<< 63),
    .bar2Write 0 0 false 32 32 0, .responderStatusRead [1], .add 5 a1] : List Instr), i.wf = true := by decide +kernel

/-! ### Words of treadle instructions, written out from Tables 4-3 to 4-10 -/

theorem test_words_scalar : ∀ p ∈ ([(0x0 + 3 <<< 23 + 1 <<< 18 + 2 <<< 13 + 0x01, .sub 5 { rd := 3, rs1 := 1, rs2 := 2 }),
    (0x1 <<< 28 + 31 <<< 23 + 4 <<< 18 + 0x8 <<< 14 + 0x3FFF, .sltiu 5 { rd := 31, rs1 := 4, imm := 0x3FFF }),
    (0x2 <<< 28 + 7 <<< 23 + 3 <<< 21 + 1 <<< 20 + 0xBEEF, .movw 5 { rd := 7, hw := 3, keep := true, imm := 0xBEEF }),
    (0x3 <<< 28 + 9 <<< 23 + 8 <<< 18 + 6 <<< 15 + 0x7FF8, .lwu 5 { rd := 9, rs1 := 8, imm := 0x7FF8 }),
    (0x4 <<< 28 + 9 <<< 23 + 8 <<< 18 + 2 <<< 16 + 0x8004, .sw 5 { rs2 := 9, rs1 := 8, imm := 0x8004 }),
    (0x5 <<< 28 + 1 <<< 23 + 2 <<< 18 + 3 <<< 13 + 1 <<< 12 + 9 <<< 8, .atomicCas 5 { rd := 1, rs1 := 2, rs2 := 3, wide := true }),
    (0x6 <<< 28 + 4 <<< 25 + 2 <<< 20 + 3 <<< 15 + 0x4001, .branchLtu 5 { rs1 := 2, rs2 := 3, imm := 0x4001 }),
    (0x7 <<< 28 + 1 <<< 23 + 0x400003, .jal 5 { rd := 1, imm := 0x400003 }),
    (0x8 <<< 28 + 1 <<< 23 + 2 <<< 18 + 0x2001, .jalr 5 { rd := 1, rs1 := 2, imm := 0x2001 }),
    (0x9 <<< 28 + 3 <<< 24 + 6 <<< 19 + 0x40000, .cleanLine 5 { rs1 := 6, imm := 0x40000 }),
    (0xA <<< 28 + 1 <<< 27 + 6 <<< 22 + 0x083, .srw 5 { r := 6, num := 0x083 }),
    (0xB <<< 28 + 2 <<< 25 + 1 <<< 24 + 9 <<< 19 + 4 <<< 14 + 0x10, .sld 5 { size := 2, sext := true, r := 9, rs1 := 4, imm := 0x10 })]
    : List (Nat × Instr)), treadleInstr 5 (BitVec.ofNat 64 p.1) = some p.2 := by decide +kernel
theorem test_words_units : ∀ p ∈ ([(0xC <<< 28 + 2 <<< 26 + 3 <<< 20 + 61 <<< 12 + 1 <<< 11 + 7 <<< 5 + 12 + 5 <<< 50,
      .accStore 5 { acc := 3, tally := 61, afterV := true, after := 7, rAB := 12, pitchA := 128, kb := 2 }),
    (0xC <<< 28 + 5 <<< 22 + 1 <<< 18 + 4 <<< 59 + 255 <<< 51 + 9 <<< 35, .weave 5 { acc := 0, tally := 0, fmt := 5, fresh := true, rS := 4, kb := 255, pitchB := 9 }),
    (0xD <<< 28 + 1, .reedEnqueue 5 0xD0000001),
    (0xE <<< 28 + 2 <<< 25 + 33 <<< 19 + 3 <<< 7 + 4 <<< 2 + 1 <<< 1 + 5 <<< 59 + 4095 <<< 47 + 1 <<< 35,
      .send 5 { tally := 33, rMem := 3, rScr := 4, notify := true, rStr := 5, rows := 4095, len := 1 }),
    (0xF <<< 28 + 5 <<< 24 + 3 <<< 19 + 4 <<< 14, .tallyWait 5 { rd := 3, rs1 := 4 })]
    : List (Nat × Instr)), treadleInstr 5 (BitVec.ofNat 64 p.1) = some p.2 := by decide +kernel
/-- Unassigned functs, width, op, condition and operations. -/
theorem test_words_unassigned : ∀ w ∈ ([0x0E, 0x13, 0x18, 0x1 <<< 28 + 9 <<< 14, 0x3 <<< 28 + 7 <<< 15, 0x5 <<< 28 + 10 <<< 8, 0x6 <<< 28 + 6 <<< 25,
    0x9 <<< 28 + 6 <<< 24, 0xE <<< 28 + 3 <<< 25, 0xF <<< 28 + 9 <<< 24] : List Nat), treadleInstr 5 (BitVec.ofNat 64 w) = none := by
  decide +kernel
/-- A word of loom 0 as the table's bits give it, with 32 or 64 bits. -/
theorem test_table_word : decodeTableWord 32 0x01882001 = some (.sub 0 { rd := 3, rs1 := 2, rs2 := 1 }) ∧
    decodeTableWord 64 0x01882001 = none ∧ decodeTableWord 64 0xD0000001 = some (.reedEnqueue 0 0xD0000001) := by decide +kernel

/-! ### Single steps -/

/-- An empty queue passes 1 µs; a command at the front is taken. -/
theorem w_EmptyQueueTicks : (st up).pending = [] := by decide
theorem w_StepKeepsShown : up.show.Shown ∧ ∃ t, step ⟨up.show, []⟩ = .next t := by
  refine ⟨?_, _, rfl⟩
  unfold Dev.Shown
  decide +kernel

end Sys2Proof.Tests
end

section
/-! The state after reset shows what it holds. -/

namespace Sys2Proof.Machine

/-- A field other than WING_STATE shows its reset value after reset (R9, R372). -/
theorem reset_fld (f : Field) (n : Nat) (h : f.id ≠ Fld.WING_STATE_STATE.id) : State.reset.dev.fld f n = f.resetAt n := by
  have hr : Fmap.get [] State.reset.dev.regs f.id = [] := if_neg h
  unfold Dev.fld
  rw [hr]
  rfl

/-- Settles O6: after reset nothing runs, waits or is under way, and the shuttle pins are in the strap phase (R465). -/
theorem resetShown : Obligations.ResetShown := by
  unfold Obligations.ResetShown
  refine ⟨?_, ?_, ?_, ?_, fun h => ?_⟩
  · exact reset_fld Fld.CONS_STATE_RUNNING 0 (by decide)
  · exact reset_fld Fld.CONS_STATE_WAITING 0 (by decide)
  · exact reset_fld Fld.CONS_BUSY_BUSY 0 (by decide)
  · exact reset_fld Fld.LEDGER_STATUS_OPEN_COUNT 0 (by decide)
  · cases h

end Sys2Proof.Machine
end

section
/-! SUPPORT. What the reads and writes of a home do to memory: every one keeps its canonical form, a write of one whole
sector stores exactly that sector, and a sector without errors reads as it is stored. -/

namespace Sys2Proof

/-- A byte after a range was cleared. -/
theorem Memory.read_clear (m : Memory) (a n b : Nat) :
    (m.clear a n).read b = if a ≤ b ∧ b < a + n then Memory.blank else m.read b := by
  unfold Memory.read Memory.clear
  induction m with
  | nil => simp [Fmap.get]
  | cons c m ih =>
    obtain ⟨k, v⟩ := c
    by_cases hk : a ≤ k ∧ k < a + n
    · rw [List.filter_cons_of_neg (by simpa using hk), ih]
      by_cases hb : b = k
      · simp [hb, hk]
      · simp [Fmap.get, hb]
    · rw [List.filter_cons_of_pos (by simpa [Classical.or_iff_not_imp_left] using hk)]
      by_cases hb : b = k
      · simp [Fmap.get, hb, hk]
      · simp only [Fmap.get, hb, if_false, ih]

theorem delSorted_not_contains (m : List Nat) (i : Nat) : (delSorted m i).contains i = false := by
  simp [delSorted]

end Sys2Proof

namespace Sys2Proof.Machine

/-! ### Sectors of a line -/

theorem Line.sector_setSector (l : Line) (k : Nat) (s : Sector) (hk : k < 4) : Line.sector (Line.setSector l k s) k = s := by
  unfold Line.sector Line.setSector
  ext i hi
  have hb : 512 * k + i < 2048 := by omega
  have hi' : i < 2048 := by omega
  simp only [BitVec.getElem_extractLsb', BitVec.getLsbD_or, BitVec.getLsbD_and, BitVec.getLsbD_not, BitVec.getLsbD_shiftLeft,
    BitVec.truncate_eq_setWidth, BitVec.getLsbD_setWidth, BitVec.getLsbD_allOnes, Nat.add_sub_cancel_left, hb, hi, hi']
  simp [hi]

theorem maskSector_fullMask_self : ∀ k < 4, maskSector (fullMask k) k = BitVec.allOnes 64 := by decide

theorem fullMask_sectors : ∀ k < 4, (List.range 4).filter (fun j => maskSector (fullMask k) j ≠ 0) = [k] := by decide

theorem sectList_single : ∀ k < 4, sectList ((1 : BitVec 4) <<< k) = [k] := by decide

/-- A write of a whole sector merges nothing, so its home reads nothing first (R226). -/
theorem mergeReads_fullMask {k : Nat} (hk : k < 4) (v : BitVec 4) : mergeReads (fullMask k) [k] v = false := by
  simp [mergeReads, maskSector_fullMask_self k hk]

/-! ### DRAM: what a write and a read of one unit do -/

@[simp] theorem Dev.markRot_mem (d : Dev) (a : Nat) : (d.markRot a).tiers.mem = d.tiers.mem := rfl
@[simp] theorem Dev.heatUp_mem (d : Dev) (a : Nat) : (d.heatUp a).tiers.mem = d.tiers.mem := rfl
@[simp] theorem Dev.memEvent_tiers (d : Dev) (k : MemEv) (a : Nat) (p : Bool) (c s t : Nat) :
    (d.memEvent k a p c s t).tiers = d.tiers := rfl
@[simp] theorem Dev.atriumPut_mem (d : Dev) (k : Nat) (l : ALine) : (d.atriumPut k l).tiers.mem = d.tiers.mem := rfl

/-- An injection stores errors beside the data, never in it (R240). -/
@[simp] theorem Dev.injectAt_tiers (d : Dev) (p : Phys) (a : Option Nat) : (d.injectAt p a).2.tiers = d.tiers := by
  unfold Dev.injectAt
  split
  · rfl
  · dsimp only; split <;> rfl

@[simp] theorem Dev.inject_mem (d : Dev) (a : Nat) : (d.inject a).tiers.mem = d.tiers.mem := by
  unfold Dev.inject
  split
  · rfl
  · simp

/-- While MEMINJ_FLIP is not armed a write takes no injection. -/
theorem Dev.inject_unarmed {d : Dev} (a : Nat) (h : d.fld Fld.MEMINJ_FLIP_ARMED 0 = 0) : d.inject a = d := by
  simp [Dev.inject, Dev.injHit, h]

/-- The memory after a write of one unit: what was there if its channel is FAULTED, else the unit cleared, and the data in it
unless it is written as poison. -/
theorem Dev.dramWrite_mem (d : Dev) (a : Nat) (s : Sector) (p : Bool) : (d.dramWrite a s p).tiers.mem =
    if d.chanFaulted (d.physOf a).chanNo then d.tiers.mem
    else if p then d.tiers.mem.clear a 64 else (d.tiers.mem.clear a 64).writeNat a 64 s.toNat := by
  unfold Dev.dramWrite
  split
  · rfl
  · cases p <;> simp

/-- A write of a unit leaves every byte outside it as it was. -/
theorem Dev.dramWrite_read_outside (d : Dev) (a b : Nat) (s : Sector) (p : Bool) (h : b < a ∨ a + 64 ≤ b) :
    (d.dramWrite a s p).tiers.mem.read b = d.tiers.mem.read b := by
  have hc : (d.tiers.mem.clear a 64).read b = d.tiers.mem.read b := by
    rw [Memory.read_clear, if_neg (by omega)]
  rw [Dev.dramWrite_mem]
  split
  · rfl
  · split
    · exact hc
    · rw [Memory.read_writeNat_ne _ _ _ _ _ h, hc]

/-- A unit of a working channel without stored errors, poison or bad pins reads as it is stored. -/
theorem Dev.dramRead_clean {d : Dev} {a : Nat} (patrol : Bool) (hf : d.chanFaulted (d.physOf a).chanNo = false)
    (he : Fmap.get [] d.tiers.errs (a / 64) = []) (hb : d.pinsOf (d.physOf a) = []) (hp : d.isPoison a = false) :
    d.dramRead a patrol = (d.rawUnit a, false, d) := by
  simp [Dev.dramRead, hf, he, hb, hp]

/-! ### What every read and write of a home keeps -/

/-- A property of the device that the steps of a home's reads and writes keep: a write of a unit, a memory event, a draw of a
free value, a count of heat, a change of an atrium way. -/
structure HomeKeeps (P : Dev → Prop) : Prop where
  write : ∀ {d : Dev} (a : Nat) (s : Sector) (p : Bool), P d → P (d.dramWrite a s p)
  event : ∀ {d : Dev} (k : MemEv) (a : Nat) (b : Bool) (c s t : Nat), P d → P (d.memEvent k a b c s t)
  draw : ∀ {d : Dev}, P d → P d.draw.2
  heat : ∀ {d : Dev} (a : Nat), P d → P (d.heatUp a)
  way : ∀ {d : Dev} (k : Nat) (l : ALine), P d → P (d.atriumPut k l)

/-- The last part of a result has a property. -/
def Last {α β : Type} (P : β → Prop) (x : α × β) : Prop := P x.2

theorem Last.mk {α β : Type} {P : β → Prop} {b : β} (a : α) (h : P b) : Last P (a, b) := h

section
variable {P : Dev → Prop} {d : Dev} (hP : HomeKeeps P) (h : P d)
include hP h

theorem HomeKeeps.pinErrs (p : Phys) : Last P (d.pinErrs p) := by
  unfold Dev.pinErrs
  exact foldl_keeps (Last P) (fun _ _ hx => Last.mk _ (hP.draw hx)) _ _ (Last.mk _ h)

theorem HomeKeeps.dramRead (a : Nat) (patrol : Bool) : Last (Last P) (d.dramRead a patrol) := by
  have last {e : Dev} (b : Sector) (q : Bool) (he : P e) : Last (Last P) (b, q, e) := he
  unfold Dev.dramRead
  -- The place stays a variable: a place written out makes the kernel compare its computation at every `match`.
  generalize d.physOf a = p
  revert p
  refine id fun p => ?_
  have hp := hP.pinErrs h p
  simp only
  generalize d.pinErrs p = x at hp ⊢
  obtain ⟨bad, e⟩ := x
  replace hp : P e := hp
  dsimp only
  split
  · exact last _ _ h
  · split
    · split
      · exact last _ _ (hP.event _ _ _ _ _ _ h)
      · exact last _ _ h
    · split
      · exact last _ _ (hP.event _ _ _ _ _ _ hp)
      · split
        · exact last _ _ (hP.event _ _ _ _ _ _ (hP.write _ _ _ hp))
        · split
          · exact last _ _ (hP.event _ _ _ _ _ _ (hP.write _ _ _ hp))
          · exact last _ _ (hP.event _ _ _ _ _ _ (hP.write _ _ _ hp))
          · exact last _ _ hp

theorem HomeKeeps.atriumClean (l : ALine) : P (d.atriumClean l) := by
  unfold Dev.atriumClean
  split
  · exact h
  · exact hP.heat _ (foldl_keeps P (fun _ _ he => hP.write _ _ _ he) _ _ h)

theorem HomeKeeps.atriumAlloc {e : Dev} {a k : Nat} (ha : d.atriumAlloc a = some (k, e)) : P e := by
  unfold Dev.atriumAlloc at ha
  simp only at ha
  split at ha
  · cases ha
  · split at ha
    · cases ha
    · simp only [Option.some.injEq, Prod.mk.injEq] at ha
      obtain ⟨-, rfl⟩ := ha
      apply hP.way
      have hclear (ways : List Nat) : P (ways.foldl (fun (d : Dev) k =>
          match Fmap.find d.tiers.atrium (d.atriumKey a k) with
          | some l => d.atriumPut (d.atriumKey a k) { l with nru := false }
          | none => d) d) := by
        refine foldl_keeps P (fun e _ he => ?_) _ _ h
        split
        · exact hP.way _ _ he
        · exact he
      split <;> split
      · exact hP.atriumClean h _
      · exact hP.atriumClean (hclear _) _
      · exact h
      · exact hclear _

theorem HomeKeeps.readLine (line : Nat) (sects : BitVec 4) : Last (Last P) (d.readLine line sects) := by
  unfold Dev.readLine
  extract_lets a
  split
  · extract_lets miss
    split
    rename_i l e hx
    have he : Last P (l, e) := hx ▸ foldl_keeps (Last P) (fun x s (hs : P x.2) => by
      have hr := hP.dramRead hs (a + 64 * s) false
      split
      rename_i hd
      rw [hd] at hr
      exact hr) _ _ h
    extract_lets e2
    have he2 : P e2 := by
      unfold e2
      split
      · exact he
      · exact hP.heat _ he
    exact hP.way _ _ he2
  · split
    rename_i v p e hx
    have he : Last (Last P) (v, p, e) := hx ▸ foldl_keeps (Last (Last P)) (fun x s (hs : P x.2.2) => by
      have hr := hP.dramRead hs (a + 64 * s) false
      split
      rename_i hd
      rw [hd] at hr
      exact hr) _ _ h
    have he2 : P (e.heatUp a) := hP.heat _ he
    extract_lets e2
    split
    · split
      · rename_i ha
        exact hP.way _ _ (hP.atriumAlloc he2 ha)
      · exact he2
    · exact he2

theorem HomeKeeps.writeLine (line : Nat) (mask : BitVec 256) (data : Line) (poison : BitVec 4) (hint : Bool) :
    P (d.writeLine line mask data poison hint) := by
  unfold Dev.writeLine
  extract_lets a pol sects put toDram d1
  have hput (x : ALine × Dev) (k : Nat) (hx : Last P x) : Last P (put x k) := by
    unfold put
    split
    rename_i l e
    replace hx : P e := hx
    extract_lets m
    split
    · exact Last.mk _ hx
    · have hold : Last (Last P) (if l.valid.getLsbD k then (Line.sector l.data k, l.poison.getLsbD k, e)
          else e.dramRead (a + 64 * k) false) :=
        iteInduction (motive := Last (Last P)) (fun _ => hx) (fun _ => hP.dramRead hx _ _)
      split
      rename_i old p f hf
      rw [hf] at hold
      replace hold : P f := hold
      split
      · refine Last.mk _ ?_
        split
        · exact hP.event _ _ _ _ _ _ hold
        · exact hold
      · exact Last.mk _ hold
  have hdram (e : Dev) (he : P e) : P (toDram e) := by
    refine hP.heat _ (foldl_keeps P (fun e k he => ?_) _ _ he)
    extract_lets m
    split
    · exact hP.write _ _ _ he
    · have hold := hP.dramRead he (a + 64 * k) false
      split
      rename_i old p f hf
      rw [hf] at hold
      replace hold : P f := hold
      split
      · exact hold
      · exact hP.write _ _ _ hold
  have hd1 : P d1 := by
    unfold d1
    split
    · exact hP.heat _ h
    · exact h
  split
  · rename_i k l _
    have hl := foldl_keeps (Last P) hput sects (l, d1) (Last.mk _ hd1)
    split
    rename_i hx
    rw [hx] at hl
    exact hP.way _ _ hl
  · split
    · split
      · rename_i k e ha
        have hl := foldl_keeps (Last P) hput sects ({ line := BitVec.ofNat 40 line, nru := true }, e)
          (Last.mk _ (hP.atriumAlloc hd1 ha))
        split
        rename_i hx
        rw [hx] at hl
        exact hP.way _ _ hl
      · exact hdram _ hd1
    · exact hdram _ hd1

theorem HomeKeeps.poisonLine (line : Nat) (sects : BitVec 4) : P (d.poisonLine line sects) :=
  hP.writeLine h _ _ _ _ _

end

/-- Every read and write of a home keeps the canonical form of memory (R4). -/
theorem homeKeeps_mem_wf : HomeKeeps (fun d => d.tiers.mem.wf = true) where
  write a s p h := by
    have hc := Memory.wf_clear _ a 64 h
    rw [Dev.dramWrite_mem]
    split
    · exact h
    · split
      · exact hc
      · exact Memory.wf_writeNat _ _ _ _ hc
  event k a b c s t h := by rw [Dev.memEvent_tiers]; exact h
  draw h := h
  heat a h := by rw [Dev.heatUp_mem]; exact h
  way k l h := by rw [Dev.atriumPut_mem]; exact h

/-! ### One whole sector, written and read back -/

/-- Where the line's wing does not allocate in the atrium, a write of one whole sector is a write of its unit (R212, R226). -/
theorem Dev.writeLine_sector {d : Dev} {line k : Nat} (data : Line) (poison : BitVec 4) (hint : Bool) (hk : k < 4)
    (hf : d.atriumFind (256 * line) = none) (ha : d.fld Fld.ATRIUM_WING_ALLOC (d.extentWing (256 * line)) = 0) :
    d.writeLine line (fullMask k) data poison hint =
      (d.dramWrite (256 * line + 64 * k) (Line.sector data k) (poison.getLsbD k)).heatUp (256 * line) := by
  unfold Dev.writeLine
  extract_lets a pol sects put toDram d1
  have hs : sects = [k] := fullMask_sectors k hk
  have hd1 : d1 = d := if_neg (by rw [hs, mergeReads_fullMask hk]; exact Bool.false_ne_true)
  have hdram : toDram d = (d.dramWrite (a + 64 * k) (Line.sector data k) (poison.getLsbD k)).heatUp a := by
    unfold toDram
    rw [hs, List.foldl_cons, List.foldl_nil]
    exact congrArg (fun e => Dev.heatUp e a) (if_pos (maskSector_fullMask_self k hk))
  have hpol : ¬(pol = 2 ∨ pol = 1 ∧ hint = true) := by
    have : pol = 0 := ha
    omega
  rw [hd1, hf]
  exact (if_neg hpol).trans hdram

/-- A line that the atrium does not hold and does not take in is read from its units. -/
theorem Dev.readLine_sector {d : Dev} {line k : Nat} {s : Sector} (hk : k < 4) (hf : d.atriumFind (256 * line) = none)
    (ha : d.fld Fld.ATRIUM_WING_ALLOC (d.extentWing (256 * line)) = 0)
    (hr : d.dramRead (256 * line + 64 * k) false = (s, false, d)) :
    d.readLine line ((1 : BitVec 4) <<< k) = (Line.setSector 0 k s, 0, d.heatUp (256 * line)) := by
  have hw : ¬(d.heatUp (256 * line)).fld Fld.ATRIUM_WING_ALLOC ((d.heatUp (256 * line)).extentWing (256 * line)) = 2 := by
    show ¬d.fld Fld.ATRIUM_WING_ALLOC (d.extentWing (256 * line)) = 2
    omega
  have hr' : ((0 : Line), (0 : BitVec 4), d).2.2.dramRead (256 * line + 64 * k) false = (s, false, d) := hr
  unfold Dev.readLine
  extract_lets a
  rw [hf]
  generalize hx : List.foldl _ _ _ = x
  rw [sectList_single k hk, List.foldl_cons, List.foldl_nil, hr'] at hx
  subst hx
  exact if_neg hw

/-! Where a place is, and whether it works, depends on the registers and the location table alone. -/

theorem Dev.atriumFind_tiers {d : Dev} {t : Tiers} (a : Nat) (h : t.atrium = d.tiers.atrium) :
    ({ d with tiers := t } : Dev).atriumFind a = d.atriumFind a := by
  unfold Dev.atriumFind
  rw [h]
  rfl

theorem Dev.physOf_tiers {d : Dev} {t : Tiers} (a : Nat) (h : t.loc = d.tiers.loc) :
    ({ d with tiers := t } : Dev).physOf a = d.physOf a := by
  unfold Dev.physOf Dev.locOf
  rw [h]
  rfl

/-- What a write of a unit without poison leaves behind in a working channel, while no injection is armed. -/
theorem Dev.dramWrite_heatUp {d : Dev} {a : Nat} (s : Sector) (b : Nat) (hc : d.chanFaulted (d.physOf a).chanNo = false)
    (hm : d.fld Fld.MEMINJ_FLIP_ARMED 0 = 0) : ∃ t : Tiers, (d.dramWrite a s false).heatUp b = { d with tiers := t } ∧
      t.loc = d.tiers.loc ∧ t.atrium = d.tiers.atrium ∧ t.badPins = d.tiers.badPins ∧
      t.errs = Fmap.del d.tiers.errs (a / 64) ∧ t.poison = delSorted d.tiers.poison (a / 64) ∧
      t.mem = (d.tiers.mem.clear a 64).writeNat a 64 s.toNat := by
  have hw : d.dramWrite a s false = ({ d with tiers := { d.tiers with
      errs := Fmap.del d.tiers.errs (a / 64), poison := delSorted d.tiers.poison (a / 64),
      mem := (d.tiers.mem.clear a 64).writeNat a 64 s.toNat } } : Dev).markRot a := by
    unfold Dev.dramWrite
    rw [hc]
    exact Dev.inject_unarmed a hm
  rw [hw]
  exact ⟨_, rfl, rfl, rfl, rfl, rfl, rfl, rfl⟩

/-- A sector written whole, without poison, to a working channel without known bad pins reads as written (R213, R226, R229). -/
theorem Dev.readLine_writeLine {d : Dev} {line k : Nat} (data : Line) (hk : k < 4) (hf : d.atriumFind (256 * line) = none)
    (ha : d.fld Fld.ATRIUM_WING_ALLOC (d.extentWing (256 * line)) = 0) (hm : d.fld Fld.MEMINJ_FLIP_ARMED 0 = 0)
    (hc : d.chanFaulted (d.physOf (256 * line + 64 * k)).chanNo = false) (hb : d.pinsOf (d.physOf (256 * line + 64 * k)) = []) :
    ∃ e, (d.writeLine line (fullMask k) data 0 false).readLine line ((1 : BitVec 4) <<< k) =
      (Line.setSector 0 k (Line.sector data k), 0, e) := by
  have hz : (0 : BitVec 4).getLsbD k = false := BitVec.getLsbD_zero
  rw [Dev.writeLine_sector data 0 false hk hf ha, hz]
  obtain ⟨t, ht, hloc, hatr, hpins, herrs, hpois, hmem⟩ := Dev.dramWrite_heatUp (Line.sector data k) (256 * line) hc hm
  rw [ht]
  have hp := Dev.physOf_tiers (256 * line + 64 * k) hloc
  have hraw : ({ d with tiers := t } : Dev).rawUnit (256 * line + 64 * k) = Line.sector data k := by
    have hlt : (Line.sector data k).toNat < 256 ^ 64 := Nat.lt_of_lt_of_eq (BitVec.isLt _) (Nat.pow_mul 2 8 64)
    unfold Dev.rawUnit
    rw [hmem, Memory.readNat_writeNat, Nat.mod_eq_of_lt hlt, BitVec.ofNat_toNat, BitVec.setWidth_eq]
  have hr := Dev.dramRead_clean (d := { d with tiers := t }) (a := 256 * line + 64 * k) false
    (by rw [hp]; exact hc) (by rw [herrs, Fmap.get_del, if_pos rfl])
    (by rw [hp]; unfold Dev.pinsOf at hb ⊢; rw [hpins]; exact hb)
    (by unfold Dev.isPoison; rw [hpois]; exact delSorted_not_contains _ _)
  rw [hraw] at hr
  exact ⟨_, Dev.readLine_sector hk ((Dev.atriumFind_tiers _ hatr).trans hf) ha hr⟩

/-- Settles O28: memory's canonical form is kept by every step of a home's reads and writes; a write of one whole sector past
the atrium is the write of its unit. -/
theorem homeWritesReadBack : Obligations.HomeWritesReadBack := by
  unfold Obligations.HomeWritesReadBack
  refine ⟨fun d line data poison hint h => ⟨fun mask => ?_, fun sects => ?_, fun sects => ?_, ?_⟩, ?_⟩
  · exact homeKeeps_mem_wf.writeLine h line mask data poison hint
  · exact homeKeeps_mem_wf.readLine h line sects
  · exact homeKeeps_mem_wf.poisonLine h line sects
  · intro k hk hf ha a hout
    rw [Dev.writeLine_sector data poison hint hk hf ha, Dev.heatUp_mem]
    exact Dev.dramWrite_read_outside d _ _ _ _ hout
  · intro d line k data hk hf _ ha hm hc hb y
    obtain ⟨e, he⟩ := Dev.readLine_writeLine data hk hf ha hm hc hb
    have hy : y = _ := he
    rw [hy]
    exact ⟨Line.sector_setSector 0 k _ hk, rfl⟩

end Sys2Proof.Machine
end

section
/-! SUPPORT. Register writes of a head that is there for its host: what REGISTER_WRITE does at each destination, and what a
read returns (R5, R7, R8, R327, R339). -/

namespace Sys2Proof.Machine

theorem exec_registerWrite (s : State) (h : HeadId) (x : RegDest) :
    exec (.registerWrite h x) s = s.run fun d => d.registerWrite h x := rfl

/-- REGISTER_WRITE of a device that answers. -/
theorem exec_registerWrite_live {s : State} (h : HeadId) (x : RegDest) (hl : s.dev.live = true) :
    exec (.registerWrite h x) s = s.settling (s.dev.registerWrite h x) := by
  rw [exec_registerWrite, State.run_live _ hl]

section
variable {d : Dev} {h : HeadId} (hs : d.served h = true)
include hs

/-! ### The checks of BAR 0 and of a head's own registers -/

theorem Dev.barWrite_off (b : Block) (i : Nat) (f : Dev → Dev) (hb : d.barsOn h = false) :
    d.barWrite h b i f = d.aer h .unsupported := by simp [Dev.barWrite, hs, hb]

theorem Dev.barWrite_writes {b : Block} {i : Nat} (f : Dev → Dev) (hw : d.Writes h b i) : d.barWrite h b i f = f d := by
  obtain ⟨-, hb, hf, hr⟩ := hw
  have hno : (d.frozen h && !b.inFreeze) = false := by rcases hf with hf | hf <;> simp [hf]
  simp [Dev.barWrite, hs, hb, hno, hr]

theorem Dev.ownWrite_on (f : Dev → Dev) (hb : d.barsOn h = true) : d.ownWrite h f = f d := by
  simp [Dev.ownWrite, hs, hb]

/-- A head may always write its own head control block while its BARs answer. -/
theorem Dev.writes_headCtl (hb : d.barsOn h = true) (i : Nat) : d.Writes h .headCtl i := ⟨hs, hb, .inr rfl, rfl⟩

theorem Dev.bar0Write_poisoned (off : Nat) (wide : Bool) (v : W64) (hb : d.barsOn h = true) :
    d.bar0Write h off wide v true = d.aer h .poisonedTlp := by simp [Dev.bar0Write, hs, hb]

omit hs in
theorem Dev.bar0Write_noReg {off : Nat} (wide : Bool) (v : W64) (hr : d.regAt h off = none) :
    d.bar0Write h off wide v false = d.barWrite h .headCtl h.toNat id := by simp [Dev.bar0Write, hr]

theorem Dev.bar0Write_reg {off : Nat} {r : RegAt} (wide : Bool) (v : W64) (hr : d.regAt h off = some r)
    (hw : d.Writes h r.card.reach r.inst) : d.bar0Write h off wide v false = d.regPart h r wide v := by
  have hb := Dev.barWrite_writes hs (fun d => d.regPart h r wide v) hw
  simpa [Dev.bar0Write, hr] using hb

end

/-! ### BAR 4 and the component registers -/

section
variable {d : Dev} {h : HeadId} (hs : d.served h = true) (hb : d.barsOn h = true)
include hs hb

/-- The data dword of an MSI-X entry is its third. -/
theorem Dev.bar4Write_data {e : Nat} (he : e < 256) (v : W32) : d.bar4Write h (16 * e + 8) v = (d.setHead h { d.head h with
    msix := Fmap.put (d.head h).msix e
      (((d.head h).msixEntry e &&& ~~~((BitVec.allOnes 32).setWidth 128 <<< 64)) ||| (v.setWidth 128 <<< 64)) }).flushIrqs h := by
  have hfit : ¬((16 * e + 8) % 4 ≠ 0 || 16 * e + 8 ≥ 0x1000) = true := by
    rw [Bool.or_eq_true, decide_eq_true_iff, decide_eq_true_iff]; omega
  have hk : (16 * e + 8) / 4 % 4 = 2 := by omega
  have hentry : (16 * e + 8) / 16 = e := by omega
  rw [Dev.bar4Write, Dev.ownWrite_on hs _ hb, if_neg hfit]
  simp [hk, hentry]

theorem Dev.rasWrite_cor (v : W32) (hf : d.frozen h = false) :
    d.rasWrite h .cor v = d.setHead h { d.head h with rasCor := (d.head h).rasCor &&& ~~~v } := by
  rw [Dev.rasWrite, Dev.ownWrite_on hs _ hb, hf]
  rfl

theorem Dev.rasWrite_unc (v : W32) (hf : d.frozen h = false) :
    d.rasWrite h .unc v = d.setHead h { d.head h with rasUnc := (d.head h).rasUnc &&& ~~~v } := by
  rw [Dev.rasWrite, Dev.ownWrite_on hs _ hb, hf]
  rfl

/-- An uncommitted decoder takes a value that commits and locks nothing. -/
theorem Dev.hdmWrite_uncommitted (n : BitVec 2) {y : Hdm} (hf : d.frozen h = false)
    (ho : (Fmap.get {} (d.head h).hdm n.toNat).committed = false) (hc : y.committed = false) (hl : y.locked = false) :
    d.hdmWrite h n y = d.setHead h { d.head h with hdm := Fmap.put (d.head h).hdm n.toNat y } := by
  obtain ⟨committed, locked, base, size, skip, iw, ig, pos⟩ := y
  subst hc hl
  rw [Dev.hdmWrite, Dev.ownWrite_on hs _ hb]
  simp [hf, ho]

end

/-! ### Whole registers and halves (R7) -/

section
variable (d : Dev) (h : HeadId) {r : RegAt} (v : W64)

theorem Dev.regPart_whole (hw : r.card.width = 64) (hp : r.part = 0) :
    d.regPart h r true v = (d.dropHalf h r.card r.inst).regSet h r.card r.inst v.toNat := by simp [Dev.regPart, hw, hp]

theorem Dev.regPart_low (hw : r.card.width = 64) (hp : r.part = 0) :
    d.regPart h r false v = d.holdHalf h r.card r.inst (v.toNat % 2 ^ 32) := by simp [Dev.regPart, hw, hp]

theorem Dev.regPart_high (hw : r.card.width = 64) (hp : r.part = 4) : d.regPart h r false v =
    (d.dropHalf h r.card r.inst).regSet h r.card r.inst
      ((d.half h r.card r.inst).getD (d.readCard h r.card r.inst % 2 ^ 32) + v.toNat % 2 ^ 32 * 2 ^ 32) := by
  simp [Dev.regPart, hw, hp]

/-- A 32-bit register takes 32-bit writes only. -/
theorem Dev.regPart_narrow (wide : Bool) (hw : r.card.width = 32) (hp : r.part = 0) : d.regPart h r wide v =
    if wide then d else d.regSet h r.card r.inst (v.toNat % 2 ^ 32) := by simp [Dev.regPart, hw, hp]

theorem Dev.dropHalf_held {c : Card} {i low : Nat} (hh : d.half h c i = some low) : d.dropHalf h c i =
    d.setHead h { d.head h with halves := Fmap.del (d.head h).halves (c.key i) } := by simp [Dev.dropHalf, hh]

theorem Dev.dropHalf_none {c : Card} {i : Nat} (hh : d.half h c i = none) : d.dropHalf h c i = d := by simp [Dev.dropHalf, hh]

end

/-! ### What acting is for some registers -/

/-- Both fields of SELV_CAP are RW (R5). -/
theorem Dev.writeCard_SELV_CAP (d : Dev) (n v : Nat) : d.writeCard Crd.SELV_CAP n v =
    (d.setFld Fld.SELV_CAP_WINDOW n (v / 2 ^ 16 % 2 ^ 5)).setFld Fld.SELV_CAP_CAP n (v % 2 ^ 12) := by
  rw [← Nat.shiftRight_eq_div_pow]
  rfl

/-- SELV_CAP takes its fields within their bounds. -/
theorem Dev.regSet_SELV_CAP (d : Dev) (h : HeadId) (v : Nat) :
    let a := (d.setFld Fld.SELV_CAP_WINDOW 0 (v / 2 ^ 16 % 2 ^ 5)).setFld Fld.SELV_CAP_CAP 0 (v % 2 ^ 12)
    let b := a.setFld Fld.SELV_CAP_CAP 0 (clamp 1500 3600 (a.fld Fld.SELV_CAP_CAP 0))
    d.regSet h Crd.SELV_CAP 0 v = (b.setFld Fld.SELV_CAP_WINDOW 0 (clamp 1 30 (b.fld Fld.SELV_CAP_WINDOW 0))).capState := by
  have hact : d.regSet h Crd.SELV_CAP 0 v =
    (((d.writeCard Crd.SELV_CAP 0 v).clampFld Fld.SELV_CAP_CAP 0 1500 3600).clampFld Fld.SELV_CAP_WINDOW 0 1 30).capState := rfl
  rw [hact, Dev.writeCard_SELV_CAP]
  rfl

theorem Dev.regSet_LEDGER_OVERFLOW (d : Dev) (h : HeadId) (v : Nat) : d.regSet h Crd.LEDGER_OVERFLOW 0 v = if v.testBit 63 then
      ((d.setFld Fld.LEDGER_OVERFLOW_OVERFLOW 0 0).setFld Fld.LEDGER_OVERFLOW_SOURCES 0 0).setFld Fld.LEDGER_OVERFLOW_EVENTS 0 0
      else d := rfl

/-- Every field of SELV_STATUS is RO (R5). -/
theorem Dev.regSet_SELV_STATUS (d : Dev) (h : HeadId) (n v : Nat) : d.regSet h Crd.SELV_STATUS n v = d := rfl

theorem Dev.queueBaseWrite_enabled {d : Dev} (c : Card) {q : Nat} (v : Nat) (he : d.fld Fld.QUEUE_CTRL_ENABLE q = 1) :
    d.queueBaseWrite c q v = d := if_pos he

theorem Dev.regSet_SQ_BASE (d : Dev) (h : HeadId) (n v : Nat) : d.regSet h Crd.SQ_BASE n v = d.queueBaseWrite Crd.SQ_BASE n v := rfl
theorem Dev.regSet_CQ_BASE (d : Dev) (h : HeadId) (n v : Nat) : d.regSet h Crd.CQ_BASE n v = d.queueBaseWrite Crd.CQ_BASE n v := rfl
theorem Dev.regSet_CPL_FLAG (d : Dev) (h : HeadId) (n v : Nat) : d.regSet h Crd.CPL_FLAG n v = d.queueBaseWrite Crd.CPL_FLAG n v := rfl

/-! ### Where an offset leads -/

theorem cardAt_block {b : Block} {o : Nat} {c : Card} {i k : Nat} (hc : cardAt b o = some (c, i, k)) : c.block = b := by
  obtain ⟨x, -, hx⟩ := List.exists_of_findSome?_eq_some hc
  by_cases hno : x.block ≠ b || o < x.offset
  · rw [if_pos hno] at hx; cases hx
  · rw [if_neg hno] at hx
    have hxb : x.block = b := by
      by_contra hb
      exact hno (by simp [hb])
    obtain ⟨-, heq⟩ := Option.ite_none_right_eq_some.1 hx
    cases heq
    exact hxb

theorem Dev.regAt_block {d : Dev} {h : HeadId} {off : Nat} {r : RegAt} {b : Block} {p o : Nat} (hr : d.regAt h off = some r)
    (hb : blockAt off = some (b, p, o)) : r.card.block = b := by
  unfold Dev.regAt at hr
  rw [hb] at hr
  cases hc : cardAt b o with
  | none => simp [hc] at hr
  | some x =>
    obtain ⟨c, i, k⟩ := x
    simp only [hc, Option.some.injEq] at hr
    rw [← hr]
    exact cardAt_block hc

/-- The ring window lies in the ledger's block. -/
theorem blockAt_ringWindow {off : Nat} (hlo : 0x58000 ≤ off) (hhi : off < 0x60000) :
    blockAt off = some (.ledger, 0, off % 0x10000) := by
  have h5 : off / 0x10000 = 5 := by omega
  simp [blockAt, h5, show ¬0x1000000 ≤ off by omega, show ¬0x400000 ≤ off by omega]

/-! ### Reads -/

/-- The blocks of the operator. -/
def Block.operators (b : Block) : Prop := b = .tiers ∨ b = .ikq ∨ b = .wingCtl

/-- A tenant head reaches no register of the operator's blocks (R8). -/
theorem Dev.reads_operators {d : Dev} {h : HeadId} {c : Card} (i : Nat) (hh : h ≠ 0) (hc : c.block.operators) :
    d.reads h c i = false := by
  have hown : (c = Crd.LEDGER_WINDOW || c = Crd.LEDGER_IRQ) = false := by
    rw [Bool.or_eq_false_iff, decide_eq_false_iff_not, decide_eq_false_iff_not]
    constructor <;> rintro rfl <;> rcases hc with hc | hc | hc <;> cases hc
  have hreach : c.reach = c.block := by simp [Card.reach, hown]
  unfold Dev.reads
  rw [hreach]
  split
  · exact decide_eq_false hh
  · rcases hc with hc | hc | hc <;> rw [hc] <;> exact decide_eq_false hh

theorem Dev.readCard_unreached {d : Dev} {h : HeadId} {c : Card} {i : Nat} (hr : d.reads h c i = false) :
    d.readCard h c i = 0 := by simp [Dev.readCard, hr]

/-- LEDGER_STATUS has 64 bits. -/
theorem card_ne_LEDGER_STATUS {c : Card} (hw : c.width = 32) : c ≠ Crd.LEDGER_STATUS := by
  rintro rfl; cases hw

/-- h0 reads the core's ledger where its X-die has no stale mirror (R447). -/
theorem Dev.readCard_h0 {d : Dev} {c : Card} {i : Nat} (hm : Fmap.find d.ledger.mirrors 0 = none) (hc : c ≠ Crd.LEDGER_STATUS)
    (hr : d.reads 0 c i = true) : d.readCard 0 c i = d.card c i := by
  have hv : d.mirrorView ((0 : HeadId).toNat / 4) = d := by simp [Dev.mirrorView, hm]
  have hread : (!d.reads 0 c i) = false := by rw [hr, Bool.not_true]
  unfold Dev.readCard
  dsimp only
  rw [hread, hv, if_neg Bool.false_ne_true, if_pos rfl, decide_eq_false hc, Bool.false_and, if_neg Bool.false_ne_true]

section
variable {d : Dev} {h : HeadId} {off : Nat} {wide : Bool} (hs : d.served h = true) (hb : d.barsOn h = true) (ho : 0x20000 ≤ off)
  (hal : off % (if wide then 8 else 4) = 0)
include hs hb ho hal

/-- A frozen head reads ones outside the blocks of R339. -/
theorem Dev.bar0Read_frozen (hf : d.frozen h = true) (hblk : (blockAt off).all (fun b => !b.1.inFreeze) = true) :
    d.bar0Read h off wide = some (2 ^ (if wide then 64 else 32) - 1) := by
  have hno : ¬off < 0x20000 := by omega
  have hwidth : 8 * (if wide then 8 else 4) = if wide then 64 else 32 := by cases wide <;> rfl
  unfold Dev.bar0Read
  cases hat : blockAt off with
  | none => simp [hs, hb, hal, hno, hf, hwidth]
  | some b =>
    have hfreeze : b.1.inFreeze = false := by simpa [hat] using hblk
    simp [hs, hb, hal, hno, hf, hfreeze, hwidth]

/-- A head that is not frozen reads, outside the ring window, the register at the offset, or zero where none lies. -/
theorem Dev.bar0Read_thawed (hf : d.frozen h = false) (hring : ¬(0x58000 ≤ off ∧ off < 0x60000)) :
    d.bar0Read h off wide = (d.regAt h off).elim (some 0) fun r =>
      if r.part + (if wide then 8 else 4) > r.card.width / 8 then none
      else some (d.readCard h r.card r.inst / 256 ^ r.part % 256 ^ (if wide then 8 else 4)) := by
  have hno : ¬off < 0x20000 := by omega
  have hwin : (decide (0x58000 ≤ off) && decide (off < 0x60000)) = false := by
    rw [← Bool.decide_and, decide_eq_false hring]
  unfold Dev.bar0Read
  cases hr : d.regAt h off <;> simp [hs, hb, hal, hno, hf, hwin]

/-- A tenant head reads zero in the operator's blocks (R8). -/
theorem Dev.bar0Read_operators {b : Block} {p o v : Nat} (hf : d.frozen h = false) (hh : h ≠ 0) (hat : blockAt off = some (b, p, o))
    (hop : b.operators) (hv : d.bar0Read h off wide = some v) : v = 0 := by
  have hring : ¬(0x58000 ≤ off ∧ off < 0x60000) := by
    rintro ⟨hlo, hhi⟩
    rw [blockAt_ringWindow hlo hhi] at hat
    cases hat
    rcases hop with hop | hop | hop <;> cases hop
  rw [Dev.bar0Read_thawed hs hb ho hal hf hring] at hv
  cases hr : d.regAt h off with
  | none =>
    rw [hr] at hv
    exact (Option.some.inj hv).symm
  | some r =>
    have hread := Dev.readCard_unreached (Dev.reads_operators (d := d) r.inst hh (Dev.regAt_block hr hat ▸ hop))
    rw [hr, Option.elim_some, hread, Nat.zero_div, Nat.zero_mod] at hv
    obtain ⟨-, hv⟩ := Option.ite_none_left_eq_some.1 hv
    exact (Option.some.inj hv).symm

end

/-- h0 reads a 32-bit register's value. -/
theorem Dev.bar0Read_h0 {d : Dev} {off : Nat} {r : RegAt} (hs : d.served 0 = true) (hb : d.barsOn 0 = true) (ho : 0x20000 ≤ off)
    (hal : off % 4 = 0) (hf : d.frozen 0 = false) (hhi : off < 0x58000) (hm : Fmap.find d.ledger.mirrors 0 = none)
    (hr : d.regAt 0 off = some r) (hp : r.part = 0) (hw : r.card.width = 32) (hread : d.reads 0 r.card r.inst = true) :
    d.bar0Read 0 off false = some (d.card r.card r.inst % 2 ^ 32) := by
  rw [Dev.bar0Read_thawed (wide := false) hs hb ho hal hf (by omega), hr, Option.elim_some,
    Dev.readCard_h0 hm (card_ne_LEDGER_STATUS hw) hread, hp, hw]
  simp

/-- Settles O46: each access goes through the checks of its space to the register at the offset, and each register acts as its
part of the write says. -/
theorem registerWrites : Obligations.RegisterWrites := by
  unfold Obligations.RegisterWrites
  intro s h hl hs d x w key
  have hw : ∀ off wide v, w off wide v = s.settling (d.bar0Write h off wide v false) :=
    fun off wide v => exec_registerWrite_live h (.bar0 off wide v false) hl
  refine ⟨?_, ?_, ?_, ?_, ?_, ?_, ?_, ?_, ?_, ?_, ?_, ?_, ?_⟩
  · intro off wide v hb hr
    rw [hw, Dev.bar0Write_noReg wide v hr, Dev.barWrite_off hs _ _ _ hb]
  · intro off wide v hb hr
    rw [hw, Dev.bar0Write_noReg wide v hr, Dev.barWrite_writes hs _ (Dev.writes_headCtl hs hb _), id]
  · intro off wide v hb
    exact (exec_registerWrite_live h _ hl).trans (congrArg s.settling (Dev.bar0Write_poisoned hs off wide v hb))
  · intro off v r hr hwr h64
    have hpart : ∀ wide, w off wide v = s.settling (d.regPart h r wide v) := fun wide => by
      rw [hw, Dev.bar0Write_reg hs wide v hr hwr]
    refine ⟨fun hp => ⟨?_, ?_⟩, fun hp => ⟨fun low hh => ?_, fun hh => ?_⟩⟩
    · rw [hpart, Dev.regPart_whole d h v h64 hp]
    · rw [hpart, Dev.regPart_low d h v h64 hp]
      rfl
    · have hhalf : d.half h r.card r.inst = some low := hh
      rw [hpart, Dev.regPart_high d h v h64 hp, Dev.dropHalf_held d h hhalf, hhalf, Option.getD_some]
    · have hhalf : d.half h r.card r.inst = none := hh
      rw [hpart, Dev.regPart_high d h v h64 hp, Dev.dropHalf_none d h hhalf, hhalf, Option.getD_none]
  · intro off v r hr hwr h32 hp
    have hpart : ∀ wide, w off wide v = s.settling (if wide then d else d.regSet h r.card r.inst (v.toNat % 2 ^ 32)) :=
      fun wide => by rw [hw, Dev.bar0Write_reg hs wide v hr hwr, Dev.regPart_narrow d h v wide h32 hp]
    exact ⟨hpart true, hpart false⟩
  · exact Dev.regSet_SELV_CAP d h
  · exact Dev.regSet_LEDGER_OVERFLOW d h
  · intro n v he
    have hkept (c : Card) : d.queueBaseWrite c n v = d := Dev.queueBaseWrite_enabled c v he
    exact ⟨(Dev.regSet_SQ_BASE d h n v).trans (hkept _), (Dev.regSet_CQ_BASE d h n v).trans (hkept _),
      (Dev.regSet_CPL_FLAG d h n v).trans (hkept _)⟩
  · exact Dev.regSet_SELV_STATUS d h
  · intro hb e v he y
    exact (exec_registerWrite_live h _ hl).trans (congrArg s.settling (Dev.bar4Write_data hs hb he v))
  · intro hb hf v
    exact ⟨(exec_registerWrite_live h _ hl).trans (congrArg s.settling (Dev.rasWrite_cor hs hb v hf)),
      (exec_registerWrite_live h _ hl).trans (congrArg s.settling (Dev.rasWrite_unc hs hb v hf))⟩
  · intro hb hf n y ho hc hlk
    exact (exec_registerWrite_live h _ hl).trans (congrArg s.settling (Dev.hdmWrite_uncommitted hs hb n hf ho hc hlk))
  · intro hb off wide ho hal
    refine ⟨Dev.bar0Read_frozen hs hb ho hal, fun hf hh b p o v hat hop hv => Dev.bar0Read_operators hs hb ho hal hf hh hat hop hv, ?_⟩
    rintro hf rfl rfl hhi hm r hr hp h32 hread
    exact Dev.bar0Read_h0 hs hb ho hal hf hhi hm hr hp h32 hread

end Sys2Proof.Machine
end

section
/-! SUPPORT. The idle microsecond of an empty queue (R21, R436): what the tick changes and what it leaves alone. -/

namespace Sys2Proof.Machine

/-- The selvage counts in its registers and in its own state (R436). -/
theorem Dev.selvTick_eq (d : Dev) : ∃ r v, d.selvTick = { d with regs := r, selv := v } := by
  unfold Dev.selvTick
  extract_lets _ counted
  have hcounted : ∃ r, counted = { d with regs := r } :=
    foldl_keeps (fun e : Dev => ∃ r, e = { d with regs := r })
      (fun e k he => by
        obtain ⟨r, rfl⟩ := he
        split
        · exact ⟨_, rfl⟩
        · exact ⟨r, rfl⟩) _ d ⟨d.regs, rfl⟩
  obtain ⟨r, hr⟩ := hcounted
  clear_value counted
  subst hr
  exact ⟨_, _, rfl⟩

/-- The idle times of the tiles are kept beside everything else. -/
theorem Dev.idlePump_eq (d : Dev) : ∃ m, d.idlePump = { d with tileIdle := m } := ⟨_, rfl⟩

/-- Without always-on power or clock no time passes. -/
theorem Dev.tickOn_off {d : Dev} (h : (d.pins.aonPower && d.pins.aonClk) = false) : d.tickOn = d := by
  unfold Dev.tickOn
  rw [← Bool.not_and, h]
  rfl

/-- With always-on power and clock the tick counts one; beside it only the selvage, the tiles' idle times, and the registers
and pins that show the state change. -/
theorem Dev.tickOn_on {d : Dev} (h : (d.pins.aonPower && d.pins.aonClk) = true) :
    ∃ r p v m, d.tickOn = { d with tick := d.tick + 1, regs := r, pins := p, selv := v, tileIdle := m } := by
  have hselv : ∀ e : Dev, ∃ r v, (if e.selvOn then e.selvTick else e) = { e with regs := r, selv := v } := fun e => by
    split
    · exact e.selvTick_eq
    · exact ⟨e.regs, e.selv, rfl⟩
  unfold Dev.tickOn
  rw [← Bool.not_and, h]
  obtain ⟨r, v, hs⟩ := hselv { d with tick := d.tick + 1 }
  obtain ⟨m, hm⟩ := Dev.idlePump_eq { d with tick := d.tick + 1, regs := r, selv := v }
  obtain ⟨r', p, hshow⟩ := Dev.show_sameBut { d with tick := d.tick + 1, regs := r, selv := v, tileIdle := m }
  refine ⟨r', p, v, m, ?_⟩
  simp only [Bool.not_true, Bool.false_eq_true, if_false]
  rw [hs, hm, hshow]

/-- The step of an empty queue is the tick. -/
theorem step_empty {s : State} (h : s.pending = []) : step s = .next { s with dev := s.dev.tickOn } := by
  unfold step
  rw [h]

/-- Settles O2: the empty queue's step is one tick, which counts with always-on power and clock and else changes nothing. -/
theorem emptyQueueTicks : Obligations.EmptyQueueTicks := by
  unfold Obligations.EmptyQueueTicks
  intro s hs
  refine ⟨_, step_empty hs, hs, ?_⟩
  cases haon : s.dev.pins.aonPower && s.dev.pins.aonClk with
  | false =>
    rw [Dev.tickOn_off haon]
    exact ⟨rfl, rfl, rfl, rfl⟩
  | true =>
    obtain ⟨r, p, v, m, ht⟩ := Dev.tickOn_on haon
    rw [ht]
    exact ⟨rfl, rfl, rfl, rfl⟩

end Sys2Proof.Machine
end

section
/-! SUPPORT. The stacks of each assembly and the M-dies they stand on (R12, Table 0-1). -/

namespace Sys2Proof.Machine

/-- A stack is absent when its place on its M-die lies past the stacks per M-die. -/
theorem Assembly.hasStack_eq_false_iff {a : Assembly} {s : Nat} (hs : s < 16) : a.hasStack s = false ↔ a.groups ≤ s % 4 := by
  simp [Assembly.hasStack, hs]

theorem Assembly.groups_le (a : Assembly) : a.groups ≤ 4 := by cases a <;> decide

/-- M-die m carries the stacks 4m to 4m + g - 1. -/
theorem stacksOn_length : ∀ g ≤ 4, ∀ m < 4,
    ((List.range 16).filter (fun s => s / 4 = m && (s < 16 && s % 4 < g))).length = g := by decide

/-- Settles O59: an assembly with g stacks per M-die has the stacks s with s mod 4 < g. -/
theorem stacksPresent : Obligations.StacksPresent := by
  unfold Obligations.StacksPresent
  refine ⟨fun s hs => ?_, fun a ha s hs => ?_, fun a ha s hs => ?_, fun a m hm => ?_, fun s k rank bank row _ hk => ?_⟩
  · have hg : Assembly.d16x4.groups = 4 := rfl
    rw [← Bool.not_eq_false, Assembly.hasStack_eq_false_iff hs, hg]
    omega
  · have hg : a.groups = 3 := by
      fin_cases ha <;> rfl
    rw [Assembly.hasStack_eq_false_iff hs, hg]
    omega
  · have hg : a.groups = 2 := by
      fin_cases ha <;> rfl
    rw [Assembly.hasStack_eq_false_iff hs, hg]
    omega
  · exact stacksOn_length a.groups a.groups_le m hm
  · show (32 * s + k) / 32 / 4 = s / 4
    omega

end Sys2Proof.Machine
end

section
/-! SUPPORT. The generic decode of R35, and its codes in the two formats with one NaN (R36, Table 2-3). -/

namespace Sys2Proof.Machine

/-- The generic fields always give a finite value (R35). -/
theorem decodeFin_finite (L : FLayout) (c : Nat) : ∃ s m e, decodeFin L c = .fin s m e := by
  unfold decodeFin
  dsimp only
  split
  · exact ⟨_, _, _, rfl⟩
  · exact ⟨_, _, _, rfl⟩

/-- A code decodes to a zero only with the exponent and mantissa fields both zero, in the sign of its top bit. -/
theorem decodeFin_zero {L : FLayout} {c : Nat} {s : Bool} {e : Int} (h : decodeFin L c = .fin s 0 e) :
    s = decide (c / 2 ^ (L.e + L.m) % 2 = 1) ∧ c % 2 ^ (L.e + L.m) = 0 := by
  unfold decodeFin at h
  dsimp only at h
  split at h
  next hexp =>
    obtain ⟨hs, hman, -⟩ := FV.fin.inj h
    refine ⟨hs.symm, ?_⟩
    rw [Nat.add_comm, Nat.pow_add, Nat.mod_mul, hman, hexp, Nat.mul_zero]
  next =>
    obtain ⟨-, hman, -⟩ := FV.fin.inj h
    exact absurd hman (by positivity)

/-- Where the sign bit alone is no code of a value, the one zero is code 0. -/
theorem decodeFin_zero_unsigned {L : FLayout} {c : Nat} {s : Bool} {e : Int} (hlt : c < 2 * 2 ^ (L.e + L.m))
    (hne : c ≠ 2 ^ (L.e + L.m)) (h : decodeFin L c = .fin s 0 e) : s = false ∧ c = 0 := by
  obtain ⟨hs, hfields⟩ := decodeFin_zero h
  obtain ⟨k, rfl⟩ := Nat.dvd_of_mod_eq_zero hfields
  have hk : k < 2 := Nat.lt_of_mul_lt_mul_left (a := 2 ^ (L.e + L.m)) (by omega)
  interval_cases k
  · simpa using hs
  · exact absurd (Nat.mul_one _) hne

/-- The codes of SF8: the sign bit alone is the NaN, the others decode by their fields. -/
theorem decodeElem_sf8 {c : Nat} (hc : c < 256) :
    decodeElem 8 c = if c = 0x80 then .nan false 0x80 else decodeFin (fmtLayout 8) c := by
  simp [decodeElem, Nat.mod_eq_of_lt hc]

/-- The codes of SF4: the sign bit alone is the NaN, the others decode by their fields. -/
theorem decodeElem_sf4 {c : Nat} (hc : c < 16) :
    decodeElem 1 c = if c = 8 then .nan false 8 else decodeFin (fmtLayout 1) c := by
  simp [decodeElem, Nat.mod_eq_of_lt hc]

/-- Where all codes but the sign bit alone decode by their fields, they are finite, and the one zero is code 0. -/
theorem singleNaN_codes {f nan : Nat} {L : FLayout} (hnan : nan = 2 ^ (L.e + L.m))
    (hdec : ∀ c < 2 * nan, decodeElem f c = if c = nan then .nan false nan else decodeFin L c) :
    (∀ c, c < 2 * nan → c ≠ nan → ∃ s m e, decodeElem f c = .fin s m e) ∧
    (∀ c s e, c < 2 * nan → decodeElem f c = .fin s 0 e → s = false ∧ c = 0) := by
  refine ⟨fun c hc hne => ?_, fun c s e hc h => ?_⟩
  · rw [hdec c hc, if_neg hne]
    exact decodeFin_finite L c
  · rw [hdec c hc] at h
    split at h
    next => cases h
    next hne => exact decodeFin_zero_unsigned (hnan ▸ hc) (hnan ▸ hne) h

/-- Settles O57: in SF8 and SF4 the sign bit alone is the one NaN, every other code is finite, and code 0 is the one zero. -/
theorem singleNaNFormats : Obligations.SingleNaNFormats := by
  unfold Obligations.SingleNaNFormats
  obtain ⟨hfin8, hzero8⟩ := singleNaN_codes (f := 8) (nan := 0x80) (L := fmtLayout 8) rfl fun _ => decodeElem_sf8
  obtain ⟨hfin4, hzero4⟩ := singleNaN_codes (f := 1) (nan := 8) (L := fmtLayout 1) rfl fun _ => decodeElem_sf4
  exact ⟨hfin8, ⟨_, rfl⟩, rfl, rfl, rfl, hzero8, ⟨_, rfl⟩, hfin4, ⟨_, rfl⟩, hzero4, ⟨_, rfl⟩⟩

end Sys2Proof.Machine
end

section
/-! SUPPORT. Moves, jumps, branches and the stop of a treadle (R84, R87, R88, R117, Table 4-4). -/

namespace Sys2Proof.Machine

/-! ### Instructions that issue -/

/-- An instruction without effects that become due: its meaning, when the treadle issues it and the words at the pc spell it. -/
theorem exec_pure_issue {s : State} {i : Instr} {n : LoomId} {k : Nat} {f : Dev → Dev} (hi : s.Issues n k) (hs : s.Spells n i)
    (h : exec i s = s.pure fun d => d.instr i n k f) : exec i s = s.showing (f s.dev) :=
  h.trans (State.pure_issue f hi hs)

/-- An instruction with effects that become due. -/
theorem exec_run_issue {s : State} {i : Instr} {n : LoomId} {k : Nat} {f : Dev → Dev} (hi : s.Issues n k) (hs : s.Spells n i)
    (h : exec i s = s.run fun d => d.instr i n k f) : exec i s = s.settling (f s.dev) :=
  h.trans (State.run_issue f hi hs)

/-- A treadle that issues is in a loom that is RUNNING, waits for nothing, is not ending and is not asked to stop. -/
theorem Dev.ready_iff {d : Dev} {n : LoomId} : d.ready n = true ↔
    d.loomState n = stRunning ∧ (d.loom n).stall = .run ∧ (d.loom n).ending = .none ∧ (d.loom n).request = .none := by
  simp [Dev.ready, and_assoc]

theorem State.Issues.ending {s : State} {n : LoomId} {k : Nat} (hi : s.Issues n k) : (s.dev.loom n).ending = .none := by
  obtain ⟨-, hr, -⟩ := hi
  obtain ⟨-, -, he, -⟩ := Dev.ready_iff.1 hr
  exact he

/-! ### Moves, jumps and branches -/

theorem Dev.setReg_setPc (d : Dev) (n : LoomId) (r : Reg) (v : W64) (pc : BitVec 56) :
    (d.setReg n r v).setPc n pc = d.setLoom n { (d.loom n).setReg r v with pc := pc } := by
  simp [Dev.setReg, Dev.setPc]

theorem Dev.movw_of_rsvd {d : Dev} {n : LoomId} {a : MovwArgs} (h : a.rsvd = 0) : d.movw n a = d.retires n 4 ((d.loom n).setReg a.rd
    (if a.keep then ((d.loom n).reg a.rd &&& ~~~((0xFFFF : W64) <<< (16 * a.hw.toNat))) ||| a.imm.setWidth 64 <<< (16 * a.hw.toNat)
     else a.imm.setWidth 64 <<< (16 * a.hw.toNat))) := by
  unfold Dev.movw
  rw [if_neg (not_not.2 h), Dev.setReg_nextPc]

theorem Dev.jal_aligned {d : Dev} {n : LoomId} {a : JalArgs} (h : ((d.loom n).pc + (a.imm.signExtend 56 <<< 2)).toNat % 4 = 0) :
    d.jal n a = d.setLoom n { (d.loom n).setReg a.rd (((d.loom n).pc + 4).setWidth 64) with
      pc := (d.loom n).pc + (a.imm.signExtend 56 <<< 2) } := by
  unfold Dev.jal
  rw [if_neg (not_not.2 h), Dev.setReg_setPc]

theorem Dev.jalr_aligned {d : Dev} {n : LoomId} {a : JalrArgs} (hr : a.rsvd = 0)
    (h : (((d.loom n).reg a.rs1 + a.imm.signExtend 64).setWidth 56).toNat % 4 = 0) :
    d.jalr n a = d.setLoom n { (d.loom n).setReg a.rd (((d.loom n).pc + 4).setWidth 64) with
      pc := ((d.loom n).reg a.rs1 + a.imm.signExtend 64).setWidth 56 } := by
  unfold Dev.jalr
  rw [if_neg (not_not.2 hr), if_neg (not_not.2 h), Dev.setReg_setPc]

/-- A branch to an aligned target goes there when its condition holds, else past itself. -/
theorem Dev.branch_aligned {d : Dev} {n : LoomId} {a : BrArgs} {c : Cond} (p : Prop) [Decidable p]
    (hc : cond c ((d.loom n).reg a.rs1) ((d.loom n).reg a.rs2) = decide p)
    (h : ((d.loom n).pc + (a.imm.signExtend 56 <<< 2)).toNat % 4 = 0) :
    d.branch n c a = d.setLoom n { d.loom n with
      pc := if p then (d.loom n).pc + (a.imm.signExtend 56 <<< 2) else (d.loom n).pc + 4 } := by
  unfold Dev.branch
  dsimp only
  rw [hc, if_neg (not_not.2 h)]
  by_cases hp : p
  · simp [hp, Dev.setPc]
  · simp [hp, Dev.nextPc, Dev.setPc]

/-! ### Stops (R117) -/

/-- A loom that is in no barrier group breaks none. -/
theorem Dev.breakGroup_none {d : Dev} {n : LoomId} (h : (d.loom n).group = none) : d.breakGroup n = d := by
  unfold Dev.breakGroup
  rw [h]

/-- A treadle that is not ending and is in no barrier group stops: its error code, its pc, and a ledger event. -/
theorem Dev.stop_single {d : Dev} {n : LoomId} (e : ErrCode) (he : (d.loom n).ending = .none) (hg : (d.loom n).group = none) :
    d.stop n e = (((d.setLoom n { d.loom n with ending := .stopped, stall := .run }).setFld Fld.TREADLE_STATUS_ERROR_CODE n.toNat
      e.code).setFld Fld.TREADLE_PC_PC n.toNat (d.loom n).pc.toNat).report (tileSrc n 0)
      (mkDetail (d.loom n).pc.toNat n.toNat e.code) (d.wingOf n) := by
  unfold Dev.stop
  dsimp only
  rw [if_neg (not_not.2 he), Dev.breakGroup_none (by simpa using hg)]
  rfl

/-- What a stop shows: the loom ends with its registers and pc as they were, and its error code and pc can be read. -/
theorem Dev.show_stop_single {d : Dev} {n : LoomId} {e : ErrCode} (he : (d.loom n).ending = .none) (hg : (d.loom n).group = none) :
    (d.stop n e).show.loom n = { d.loom n with ending := .stopped, stall := .run } ∧
    (d.stop n e).show.fld Fld.TREADLE_STATUS_ERROR_CODE n.toNat = e.code ∧
    (d.stop n e).show.fld Fld.TREADLE_PC_PC n.toNat = (d.loom n).pc.toNat := by
  have hcode : e.code % 2 ^ Fld.TREADLE_STATUS_ERROR_CODE.width = e.code := by cases e <;> rfl
  have hpc : (d.loom n).pc.toNat % 2 ^ Fld.TREADLE_PC_PC.width = (d.loom n).pc.toNat := Nat.mod_eq_of_lt (d.loom n).pc.isLt
  rw [Dev.stop_single e he hg, Dev.show_fld _ _ _ (by decide), Dev.show_fld _ _ _ (by decide)]
  refine ⟨by simp, ?_, ?_⟩
  · rw [Dev.fld_report, Dev.fld_setFld_ne _ _ _ _ _ _ (by decide), Dev.fld_setFld_same, hcode]
  · rw [Dev.fld_report, Dev.fld_setFld_same, hpc]

/-- Settles O8: each instruction's meaning at an aligned target, and the stop of an ADD with a reserved bit. -/
theorem moveAndControlFlow : Obligations.MoveAndControlFlow := by
  unfold Obligations.MoveAndControlFlow
  constructor
  · intro s n hi l
    refine ⟨?_, ?_, ?_, ?_, ?_⟩
    · intro a hr k x hs
      exact (exec_pure_issue (f := fun d => d.movw n a) hi hs rfl).trans (congrArg s.showing (Dev.movw_of_rsvd hr))
    · intro hs
      exact exec_pure_issue (f := fun d => d.nop n {}) hi hs rfl
    · intro a target ht hs
      exact (exec_pure_issue (f := fun d => d.jal n a) hi hs rfl).trans (congrArg s.showing (Dev.jal_aligned ht))
    · intro a target hr ht hs
      exact (exec_pure_issue (f := fun d => d.jalr n a) hi hs rfl).trans (congrArg s.showing (Dev.jalr_aligned hr ht))
    · intro a target x y goes ht
      have hbr {i : Instr} (c : Cond) (p : Prop) [Decidable p] (hc : cond c x y = decide p)
          (h : exec i s = s.pure fun d => d.instr i n 4 fun d => d.branch n c a) (hs : s.Spells n i) : exec i s = goes p :=
        (exec_pure_issue hi hs h).trans (congrArg s.showing (Dev.branch_aligned p hc ht))
      simp only [List.forall_mem_cons]
      exact ⟨hbr .eq _ rfl rfl, hbr .ne _ rfl rfl, hbr .lt _ rfl rfl, hbr .ge _ rfl rfl, hbr .ltu _ rfl rfl, hbr .geu _ rfl rfl,
        List.forall_mem_nil _⟩
  · intro s n a hi hs hr hg
    have hadd : exec (.add n a) s = s.showing (s.dev.stop n .illegalInstruction) :=
      (exec_pure_issue (f := fun d => d.aluReg n .add a) hi hs rfl).trans (congrArg s.showing (if_pos hr))
    obtain ⟨hloom, hcode, hpc⟩ := Dev.show_stop_single (e := .illegalInstruction) hi.ending hg
    exact ⟨_, hadd, (congrArg Loom.ending hloom :), (congrArg Loom.t hloom :), (congrArg Loom.pc hloom :), hcode, hpc⟩

end Sys2Proof.Machine
end

section
/-! SUPPORT. Scratch accesses and system registers (R85, R88, R89, R122, R149, Table 4-2). -/

namespace Sys2Proof.Machine

/-- A loom whose pc has not moved takes its new value, and its pc moves past an instruction of k bytes. -/
theorem Dev.setLoom_nextPc {d : Dev} {n : LoomId} {l : Loom} (k : Nat) (hpc : l.pc = (d.loom n).pc) :
    (d.setLoom n l).nextPc n k = d.retires n k l := by
  simp [Dev.nextPc, Dev.setPc, Dev.retires, hpc]

/-! ### Scratch accesses (class 0xB) -/

/-- The scratch address of an aligned access within loom scratch. -/
theorem Loom.scrAddr_ok {l : Loom} {a : ScrArgs} {x : Nat}
    (hx : (x : Int) = ((l.reg a.rs1).toNat % 2 ^ 20 : Nat) + a.imm.toInt) (hal : x % 2 ^ a.size.toNat = 0)
    (hend : x + 2 ^ a.size.toNat ≤ 0xC0000) : l.scrAddr a = .ok x := by
  have hmod : (x : Int) % 2 ^ a.size.toNat = 0 := by exact_mod_cast hal
  have hlast : (x : Int) + 2 ^ a.size.toNat ≤ scratchEnd := by exact_mod_cast hend
  have hrange : ¬((x : Int) < 0 ∨ (x : Int) + 2 ^ a.size.toNat > scratchEnd) := by omega
  unfold Loom.scrAddr
  dsimp only
  rw [← hx, if_neg (not_not.2 hmod), if_neg hrange, Int.toNat_natCast]

/-- SLD of an aligned address, once no in-line reed instruction that accesses scratch waits. -/
theorem Dev.sld_ok {d : Dev} {n : LoomId} {a : ScrArgs} {x : Nat} (hx : (d.loom n).scrAddr a = .ok x)
    (hr : (d.loom n).reedScratch = false) : d.sld n a = d.retires n 4 ((d.loom n).setReg a.r
      (if a.sext && ((d.loom n).scratch.readNat x (2 ^ a.size.toNat)).testBit (8 * 2 ^ a.size.toNat - 1)
       then BitVec.ofInt 64 (((d.loom n).scratch.readNat x (2 ^ a.size.toNat) : Int) - 2 ^ (8 * 2 ^ a.size.toNat))
       else BitVec.ofNat 64 ((d.loom n).scratch.readNat x (2 ^ a.size.toNat)))) := by
  unfold Dev.sld
  dsimp only
  rw [hx]
  dsimp only
  rw [hr, if_neg Bool.false_ne_true, Dev.setReg_nextPc]

theorem Dev.scratchWrite_loom (d : Dev) (n : LoomId) (x k v : Nat) :
    d.scratchWrite n.toNat x k v = d.setLoom n { d.loom n with scratch := (d.loom n).scratch.writeNat x k v } := by
  simp [Dev.scratchWrite]

/-- SST of an aligned address, once no in-line reed instruction that accesses scratch waits. -/
theorem Dev.sst_ok {d : Dev} {n : LoomId} {a : ScrArgs} {x : Nat} (hs : a.sext = false) (hx : (d.loom n).scrAddr a = .ok x)
    (hr : (d.loom n).reedScratch = false) : d.sst n a = d.retires n 4 { d.loom n with
      scratch := (d.loom n).scratch.writeNat x (2 ^ a.size.toNat) ((d.loom n).reg a.r).toNat } := by
  unfold Dev.sst
  dsimp only
  rw [hs, if_neg Bool.false_ne_true, hx]
  dsimp only
  rw [hr, if_neg Bool.false_ne_true, Dev.scratchWrite_loom]
  exact Dev.setLoom_nextPc 4 rfl

/-! ### System registers -/

/-- A write of a register card leaves the looms alone. -/
theorem Dev.writeCard_loom (d : Dev) (c : Card) (k v : Nat) (n : LoomId) : (d.writeCard c k v).loom n = d.loom n := by
  unfold Dev.writeCard
  refine foldl_keeps (fun e : Dev => e.loom n = d.loom n) (fun e f he => ?_) _ _ rfl
  dsimp only
  split
  · exact he
  · exact he
  · exact he

theorem Dev.reedHolds_empty {d : Dev} {n : LoomId} (num : Nat) (hq : (d.loom n).reedQ = []) : d.reedHolds n num = false := by
  simp [Dev.reedHolds, hq]

/-- SRR of a register other than CYCLE, while the reed has no in-line instruction. -/
theorem Dev.srr_read {d : Dev} {n : LoomId} {a : SrArgs} {k : Nat} {v : W64} (hr : a.rsvd = 0) (hq : (d.loom n).reedQ = [])
    (hk : a.num.toNat = k) (hcycle : (k == 0x005) = false) (hv : d.sysRead n k = some v) :
    d.srr n a = d.retires n 4 ((d.loom n).setReg a.r v) := by
  unfold Dev.srr
  dsimp only
  rw [if_neg (not_not.2 hr), hk, hv]
  dsimp only
  rw [Dev.reedHolds_empty k hq, if_neg Bool.false_ne_true, if_neg (ne_of_beq_false hcycle), Dev.setReg_nextPc]

/-- SRW of a register, while the reed has no in-line instruction. -/
theorem Dev.srw_write {d : Dev} {n : LoomId} {a : SrArgs} {k : Nat} (hr : a.rsvd = 0) (hq : (d.loom n).reedQ = [])
    (hk : a.num.toNat = k) (hv : (d.sysRead n k).isNone = false) : d.srw n a = d.sysWrite n k ((d.loom n).reg a.r) := by
  unfold Dev.srw
  dsimp only
  rw [hk, hv, Dev.reedHolds_empty k hq]
  simp [hr]

/-- Settles O9: class 0xB at its scratch address, then each register of Table 4-2 by its number. -/
theorem scratchAndSystemRegisters : Obligations.ScratchAndSystemRegisters := by
  unfold Obligations.ScratchAndSystemRegisters
  constructor
  · intro s n a x hi l k hx hal hend hr
    have haddr : l.scrAddr a = .ok x := Loom.scrAddr_ok hx hal hend
    constructor
    · intro hs
      exact (exec_pure_issue (f := fun d => d.sld n a) hi hs rfl).trans (congrArg s.showing (Dev.sld_ok haddr hr))
    · intro hsx hs
      exact (exec_pure_issue (f := fun d => d.sst n a) hi hs rfl).trans (congrArg s.showing (Dev.sst_ok hsx haddr hr))
  · intro s n a hi hr hq d l v c
    have read {k : Nat} {x : W64} (hcycle : (k == 0x005) = false) (hv : d.sysRead n k = some x) (hk : a.num.toNat = k)
        (hs : s.Spells n (.srr n a)) : exec (.srr n a) s = s.showing (d.retires n 4 (l.setReg a.r x)) :=
      (exec_pure_issue (f := fun d => d.srr n a) hi hs rfl).trans (congrArg s.showing (Dev.srr_read hr hq hk hcycle hv))
    have write {k : Nat} (e : Dev) (hv : (d.sysRead n k).isNone = false) (he : d.sysWrite n k v = e) (hk : a.num.toNat = k)
        (hs : s.Spells n (.srw n a)) : exec (.srw n a) s = s.settling e :=
      (exec_run_issue (f := fun d => d.srw n a) hi hs rfl).trans (congrArg s.settling ((Dev.srw_write hr hq hk hv).trans he))
    have writeCard {k : Nat} {x : Card} (hv : (d.sysRead n k).isNone = false)
        (he : d.sysWrite n k v = (d.writeCard x n.toNat v.toNat).nextPc n 4) :
        a.num.toNat = k → s.Spells n (.srw n a) → exec (.srw n a) s = s.settling ((d.writeCard x n.toNat v.toNat).retires n 4 l) :=
      write _ hv (he.trans (by rw [Dev.nextPc_retires, Dev.writeCard_loom]))
    refine ⟨?_, ?_, fun hnum => ?_, fun hnum => ?_, ?_⟩
    · repeat refine List.forall_mem_cons.2 ⟨read rfl rfl, ?_⟩
      exact List.forall_mem_nil _
    · repeat refine List.forall_mem_cons.2 ⟨writeCard rfl rfl, ?_⟩
      exact List.forall_mem_nil _
    · exact write (k := 0x013) _ rfl (Dev.setLoom_nextPc 4 rfl) (congrArg BitVec.toNat hnum)
    · exact write _ rfl rfl (congrArg BitVec.toNat hnum)
    · repeat refine List.forall_mem_cons.2 ⟨write _ rfl rfl, ?_⟩
      exact List.forall_mem_nil _

end Sys2Proof.Machine
end

section
/-! SUPPORT. A store that RETRY has resumed, against the statement of fences and waits (R147, R480). -/

namespace Sys2Proof.Machine

/-- The device of a next state. -/
def nextDev : Out → Dev
  | .next s => s.dev
  | _ => {}

/-- A device whose fast logic works, with the power-up values beside that. -/
def awakeDev : Dev := { pins := { rstN := true, phase := .run } }

/-- A store to a line of device memory whose fault RETRY has resumed: it is translated again before it leaves (R480). -/
def retriedStore : StEnt :=
  { id := 1, dest := .mem, attr := 0, line := 0x80000, va := 0x4000000, mask := 1, data := 0, again := true }

/-- The store's line, which the data cache holds in E. -/
def retriedLine : CLine := { line := 0x80000, s0 := .e }

/-- Loom 5 with the store at the front of its store buffer, and no translation of its page in any TLB. -/
def retriedState : State :=
  { dev := awakeDev.setLoom 5 { stb := [retriedStore], cache := [(0, retriedLine)] }, pending := [] }

/-- The store waits for its new translation. -/
theorem retriedStore_stays : ((nextDev (exec (.storeBufferEntryLeave 5) retriedState)).loom 5).stb.map (fun e => e.id) =
    [retriedStore.id] := by
  decide +kernel

/-- Refutes O15: its last clause lets every store to a sector in E become visible, but does not ask that the store is not one
that RETRY has resumed; such a store is translated again first, and stays in the buffer while its translation misses. -/
theorem not_fencesAndWaits : ¬ Obligations.FencesAndWaits := by
  unfold Obligations.FencesAndWaits
  rintro ⟨-, h⟩
  obtain ⟨-, -, -, -, hleave⟩ := h retriedState 5 (by decide +kernel)
  have hholds : (retriedState.dev.loom 5).Holds (retriedStore.line.setWidth 40) 0 retriedLine := by
    unfold Loom.Holds
    decide +kernel
  have hleft := hleave retriedStore [] 0 0 retriedLine (by decide +kernel) (by decide +kernel) rfl rfl rfl rfl rfl (by decide)
    hholds (by decide) (.inr rfl)
  have hstays := retriedStore_stays
  rw [hleft] at hstays
  exact absurd hstays (by decide +kernel)

end Sys2Proof.Machine
end

section
/-! SUPPORT. The queue of the array and its operations (R93 to R95, R98, R103, R104). -/

namespace Sys2Proof.Machine

/-! ### Issue -/

/-- An array operation without an after-dependency, whose tally is idle, takes it and enters the queue, which has room. -/
theorem Dev.issueArr_free {d : Dev} {n : LoomId} {op : BitVec 2} {a : ArrArgs} (hv : a.afterV = false)
    (ht : Fmap.find (d.loom n).tally a.tally.toNat = none) (hq : (d.loom n).arrayQ.length < 8) :
    d.issueArr n op a = d.newOp.2.retires n 8 (Loom.holdTally { d.loom n with arrayQ := (d.loom n).arrayQ ++
      [{ id := d.opSeq, op := op, a := a, dep := .met, ab := (d.loom n).reg a.rAB, s := (d.loom n).reg a.rS }] } a.tally d.opSeq) := by
  have hfull : ((Fmap.find (d.loom n).tally a.tally.toNat).isSome || decide ((d.loom n).arrayQ.length ≥ 8)) = false := by
    simp [ht, hq]
  have hdep (e : Dev) : e.depOf n a.afterV a.after = .met := by simp [Dev.depOf, hv]
  unfold Dev.issueArr
  dsimp only
  rw [hfull, if_neg Bool.false_ne_true, hdep]
  exact Dev.setLoom_nextPc 8 rfl

theorem Dev.weaveOp_ok {d : Dev} {n : LoomId} {a : ArrArgs} (h : weaveCheck a ((d.loom n).reg a.rAB) ((d.loom n).reg a.rS) = none) :
    d.weaveOp n a = d.issueArr n 0 a := by
  unfold Dev.weaveOp
  dsimp only
  rw [h]

theorem Dev.accMove_ok {d : Dev} {n : LoomId} {a : ArrArgs} (op : BitVec 2) (hf : a.accForm = true)
    (hal : lo20 ((d.loom n).reg a.rAB) % 64 = 0) (hend : lo20 ((d.loom n).reg a.rAB) + 256 ≤ scratchEnd) :
    d.accMove n op a = d.issueArr n op a := by
  unfold Dev.accMove
  dsimp only
  rw [hf, if_neg (by decide), if_neg (not_not.2 hal), if_neg (Nat.not_lt.2 hend)]

theorem Dev.accZero_ok {d : Dev} {n : LoomId} {a : ArrArgs} (hf : a.accForm = true) (hr : a.rAB = 0) :
    d.accZero n a = d.issueArr n 3 a := by
  simp [Dev.accZero, hf, hr]

/-! ### Start and completion -/

/-- The oldest operation starts once its dependency is met and no drain of its accumulator comes before it. -/
theorem Dev.arrayStart_met {d : Dev} {n : LoomId} {o : ArrOp} {rest : List ArrOp} (hrun : (d.loom n).arrayRun = none)
    (hq : (d.loom n).arrayQ = o :: rest) (hdep : o.dep = .met) (hdrain : (d.loom n).drainAhead o = false) :
    d.arrayStart n = (d.setLoom n { d.loom n with arrayQ := rest, arrayRun := some o }).arrRun n o := by
  unfold Dev.arrayStart
  dsimp only
  rw [hrun, hq]
  dsimp only
  rw [hdep]
  dsimp only
  rw [hdrain, if_neg Bool.false_ne_true]

theorem Dev.arrRun_weave {d : Dev} {n : LoomId} {o : ArrOp} (l : Loom) (hop : o.op = 0) : (d.setLoom n l).arrRun n o =
    (d.setLoom n { l with acc := (l.weaveRun o).1 }).arrayFlags n (l.weaveRun o).2 := by
  simp [Dev.arrRun, hop]

theorem Dev.arrRun_load {d : Dev} {n : LoomId} {o : ArrOp} (l : Loom) (hop : o.op = 1) : (d.setLoom n l).arrRun n o =
    d.setLoom n { l with acc := (List.range 64).foldl (fun (m : Fmap W32) c => Fmap.put m (64 * o.a.acc.toNat + c)
      (BitVec.ofNat 32 (l.scratch.readNat (lo20 o.ab + 4 * c) 4))) l.acc } := by
  simp [Dev.arrRun, hop]

theorem Dev.arrRun_zero {d : Dev} {n : LoomId} {o : ArrOp} (l : Loom) (hop : o.op = 3) : (d.setLoom n l).arrRun n o =
    d.setLoom n { l with acc := l.acc.filter fun c => !(64 * o.a.acc.toNat ≤ c.1 && c.1 < 64 * o.a.acc.toNat + 64) } := by
  simp [Dev.arrRun, hop]

/-- A treadle that waits for nothing is released from no wait on tallies. -/
theorem Dev.tallyRelease_run {d : Dev} {n : LoomId} (h : (d.loom n).stall = .run) : d.tallyRelease n = d := by
  unfold Dev.tallyRelease
  dsimp only
  rw [h]

/-- An operation that completes without a fault frees its tally and meets the dependencies on it (R93, R94). -/
theorem Dev.arrayComplete_run {d : Dev} {n : LoomId} {o : ArrOp} (hrun : (d.loom n).arrayRun = some o)
    (hst : (d.loom n).stall = .run) (ht : Fmap.find (d.loom n).tally o.a.tally.toNat = some o.id) :
    d.arrayComplete n = d.setLoom n { d.loom n with
      arrayRun := none, tally := Fmap.del (d.loom n).tally o.a.tally.toNat,
      arrayQ := (d.loom n).arrayQ.map (fun x => { x with dep := x.dep.done o.id true }),
      xferQ := (d.loom n).xferQ.map (fun x => { x with dep := x.dep.done o.id true }),
      drainQ := (d.loom n).drainQ.map (fun x => { x with dep := x.dep.done o.id true }) } := by
  unfold Dev.arrayComplete
  dsimp only
  rw [hrun]
  dsimp only
  unfold Dev.tallyDone
  dsimp only
  rw [Dev.setLoom_loom_same, Dev.setLoom_setLoom, if_pos ht]
  exact Dev.tallyRelease_run (by simpa using hst)

/-- Settles O16: the issue of each operation, then the start of the oldest by its kind, then its completion. -/
theorem arrayOperations : Obligations.ArrayOperations := by
  unfold Obligations.ArrayOperations
  intro s n d l queued
  refine ⟨fun hi a hv ht hq => ?_, fun hlive o rest hrun hq hdep hdrain => ?_, fun hlive o hrun hst ht => ?_⟩
  · have enter {i : Instr} {f : Dev → Dev} (op : BitVec 2) (hf : f d = d.issueArr n op a)
        (h : exec i s = s.run fun d => d.instr i n 8 f) (hs : s.Spells n i) : exec i s = queued op a :=
      (exec_run_issue hi hs h).trans (congrArg s.settling (hf.trans (Dev.issueArr_free hv ht hq)))
    refine ⟨fun hc => ?_, fun hf hal hend => ?_, fun hf hr => ?_⟩
    · exact enter (f := fun d => d.weaveOp n a) 0 (Dev.weaveOp_ok hc) rfl
    · refine List.forall_mem_cons.2 ⟨?_, List.forall_mem_cons.2 ⟨?_, List.forall_mem_nil _⟩⟩
      · exact enter (f := fun d => d.accMove n 1 a) 1 (Dev.accMove_ok 1 hf hal hend) rfl
      · exact enter (f := fun d => d.accMove n 2 a) 2 (Dev.accMove_ok 2 hf hal hend) rfl
    · exact enter (f := fun d => d.accZero n a) 3 (Dev.accZero_ok hf hr) rfl
  · intro l1
    have start {e : Dev} (he : (d.setLoom n l1).arrRun n o = e) : exec (.arrayOpStart n) s = s.settling e :=
      (State.run_live (fun d => d.arrayStart n) hlive).trans
        (congrArg s.settling ((Dev.arrayStart_met hrun hq hdep hdrain).trans he))
    exact ⟨fun hop => start (Dev.arrRun_weave l1 hop), fun hop => start (Dev.arrRun_load l1 hop),
      fun hop => start (Dev.arrRun_zero l1 hop)⟩
  · exact (State.run_live (fun d => d.arrayComplete n) hlive).trans (congrArg s.settling (Dev.arrayComplete_run hrun hst ht))

end Sys2Proof.Machine
end

section
/-! SUPPORT. A FETCH whose count of accesses writes a HOT record, against the statement of transfers (R109, R288, R292). -/

namespace Sys2Proof.Machine

/-- A page of 64 MiB at virtual 0x400_0000 and DPA 0x800_0000 of wing 0 whose accesses are counted (ACC). -/
def countedPage : Tlb := { wing := 0, va := 0x4000000, big := false, leaf := 0x800010F }

/-- A FETCH of the page's first 8 bytes. -/
def countedFetch : Xfer :=
  { id := 8, op := 0, tally := 5, dep := .met, addr := 0x4000000, dest := 0, notify := false, index := 0, scr := 0, pitch := 8,
    stride := 8, rows := 1, len := 8 }

/-- Loom 5 with the FETCH started; its data cache holds line 0 in E, where the fault queue of its wing has its next slot. -/
def countedLoom : Loom := { tlb := [countedPage], xferRun := [countedFetch], cache := [(0, { line := 0, s0 := .e })] }

/-- The loom in wing 0, which counts one access to the page and reports at 2^1; the catalogue lists the loom's copy. -/
def countedState : State :=
  { dev := (({ awakeDev with
      loomWing := [(5, 0)], wings := [(0, { extents := [(0, 0x10000000)] })]
      weave := { cat := [(0, { d0 := { st := .excl, owner := 5 } })] }
      trans := { counts := [(1, 1)] } } : Dev).setLoom 5 countedLoom).setFld Fld.ACC_CTRL_THRESHOLD 0 1
    pending := [] }

/-- The record's write drops the loom's copy of the slot's line. -/
theorem countedFetch_drops :
    ((nextDev (exec (.transferRequestIssue 5) countedState)).loom 5).cache.map (fun c => c.2.s0) = [.i] := by
  decide +kernel

/-- Refutes O17: its last clause gives the loom of a FETCH everything it had but the request, but the FETCH counts an access
(R292), whose HOT record may be written to a line that this loom's data cache holds; the loom then loses its copy. -/
theorem not_transfers : ¬ Obligations.Transfers := by
  unfold Obligations.Transfers
  intro h
  obtain ⟨-, -, -, hrequest⟩ := h countedState 5
  obtain ⟨-, hfetch⟩ := hrequest (by decide +kernel) countedFetch (by decide +kernel) rfl (by decide) (by decide) rfl rfl
  have hkept := hfetch rfl countedPage 0x8000000 (by decide +kernel) (by decide +kernel)
  have hdrops := countedFetch_drops
  rw [hkept] at hdrops
  exact absurd hdrops (by decide +kernel)

end Sys2Proof.Machine
end

section
/-! SUPPORT. A LAUNCH whose bitmap lies in a peer's window, against the statement of launches (R202, R306, Table 1-8). -/

namespace Sys2Proof.Machine

/-- A LAUNCH whose bitmap lies at the start of the window of peer 0. -/
def windowLaunch : Desc :=
  { id := 3, slot := 0, bytes := 6 :: List.replicate 36 0 ++ [0x20], courier := 0, begun := true }

/-- Queue 7 with the LAUNCH in progress, in a wing that may use the window.  The table of registers holds 2^18 units of 256 MiB
for DSP_LAYOUT.SIZE, a field of 13 bits, so that the display tier covers the window. -/
def windowState : State :=
  { dev := { awakeDev with
      queues := [(7, { cur := some windowLaunch })]
      regs := [(Fld.DSP_LAYOUT_SIZE.id, [(0, 2 ^ 18)]), (Fld.WING_STATE_WINDOWS.id, [(0, 1)])] }
    pending := [] }

/-- The courier reads no bitmap by a request to a home of this package. -/
theorem windowLaunch_sends_no_request : (nextDev (exec (.launch 7) windowState)).weave.reqs = [] := by
  decide +kernel

/-- Refutes O39: a bitmap in a range that reads as memory is to be read from its home, but a courier takes the path of an address
by Table 1-8 alone.  The statement is about every device, also one whose register table holds more for DSP_LAYOUT.SIZE than the field's
13 bits: there the windows read as memory, and a bitmap in them is still read from the peer. -/
theorem not_launchesAndTriggers : ¬ Obligations.LaunchesAndTriggers := by
  unfold Obligations.LaunchesAndTriggers
  rintro ⟨hsteps, -⟩
  have hperforms : windowState.Performs 7 6 windowLaunch := by
    unfold State.Performs State.Runs
    decide +kernel
  obtain ⟨-, hread, -⟩ := hsteps windowState 7 windowLaunch (by decide +kernel) (by decide +kernel)
  have hsent := hread hperforms (by decide) (by decide) (by decide +kernel) (by decide +kernel)
  have hnone := windowLaunch_sends_no_request
  rw [hsent] at hnone
  exact absurd hnone (by decide +kernel)

end Sys2Proof.Machine
end

section
/-! SUPPORT. What REED_ENQUEUE queues (R121 to R123, R139). -/

namespace Sys2Proof.Machine

/-! ### REED_ENQUEUE -/

/-- The queue entry of a word that waits for no tally: the registers, the control and the generator state at its issue (R121). -/
def Dev.reedEntry (d : Dev) (n : LoomId) (w : W64) : ReedOp :=
  { id := d.opSeq, word := w, ta := (d.loom n).reg (rwRA w), tm := (d.loom n).reg (rwRm w),
    ctrl := BitVec.ofNat 32 (d.card Crd.REED_CTRL n.toNat), seed := BitVec.ofNat 64 (d.fld Fld.REED_SEED_STATE n.toNat) }

/-- The word takes an operation number, and the generator moves past the outputs the word reserves (R139). -/
def Dev.reedDrawn (d : Dev) (n : LoomId) (w : W64) : Dev :=
  d.newOp.2.setFld Fld.REED_SEED_STATE n.toNat
    (srAdvance (BitVec.ofNat 64 (d.fld Fld.REED_SEED_STATE n.toNat)) (reedDraws w)).toNat

section
variable {d : Dev} {n : LoomId} {w : W64} (hr : d.ready n = true) (hc : reedCheck w ((d.loom n).reg (rwRA w)) = none)
  (hroom : (d.loom n).reedQ.length + (d.loom n).drainQ.length < 16)
include hr hc hroom

/-- A word of the in-line queue that writes no treadle register enters it, and the treadle goes on. -/
theorem Dev.reedEnqueue_goesOn (hop : rwOp w ≠ 0x3C) (hgo : reedToTreadle (rwOp w) = false) : d.reedEnqueue n w =
    (d.reedDrawn n w).retires n 8 { d.loom n with reedQ := (d.loom n).reedQ ++ [d.reedEntry n w] } := by
  obtain ⟨-, hst, -, -⟩ := Dev.ready_iff.1 hr
  unfold Dev.reedEnqueue
  rw [Dev.issue_ready _ hr]
  simp only [hc, hop, hgo, Nat.not_le.2 hroom, decide_false, Bool.false_and, Bool.false_eq_true, if_false]
  rw [← hst]
  exact Dev.setLoom_nextPc 8 rfl

/-- A word that writes a treadle register enters the in-line queue and holds the treadle (R122). -/
theorem Dev.reedEnqueue_holds (hop : rwOp w ≠ 0x3C) (hhold : reedToTreadle (rwOp w) = true) : d.reedEnqueue n w =
    (d.reedDrawn n w).setLoom n { d.loom n with reedQ := (d.loom n).reedQ ++ [d.reedEntry n w], stall := .reed } := by
  unfold Dev.reedEnqueue
  rw [Dev.issue_ready _ hr]
  simp only [hc, hop, hhold, Nat.not_le.2 hroom, decide_false, Bool.false_and, Bool.false_eq_true, if_false, if_true]
  rfl

/-- A drain without an after-dependency enters the drain path and takes its tally, which is idle (R123). -/
theorem Dev.reedEnqueue_drain (hop : rwOp w = 0x3C) (hv : rwAfterV w = false)
    (ht : Fmap.find (d.loom n).tally (rwTally w).toNat = none) : d.reedEnqueue n w = (d.reedDrawn n w).retires n 8
      (Loom.holdTally { d.loom n with drainQ := (d.loom n).drainQ ++ [d.reedEntry n w] } (rwTally w) d.opSeq) := by
  have hdep (e : Dev) : e.depOf n (rwAfterV w) (rwAfter w) = .met := by simp [Dev.depOf, hv]
  unfold Dev.reedEnqueue
  rw [Dev.issue_ready _ hr]
  simp only [hc, hop, ht, hdep, Nat.not_le.2 hroom, decide_true, Bool.true_and, Option.isSome_none, Bool.false_eq_true, if_false,
    if_true]
  exact Dev.setLoom_nextPc 8 rfl

end

theorem reedToTreadle_ne_drain {op : Nat} (h : reedToTreadle op = true) : op ≠ 0x3C := by
  rintro rfl
  exact absurd h (by decide)

/-- Settles O18: an in-line word by whether it writes a treadle register, and a drain. -/
theorem reedQueueing : Obligations.ReedQueueing := by
  unfold Obligations.ReedQueueing
  intro s n w hi d l seed o drawn hs hc hroom
  obtain ⟨-, hr, -⟩ := id hi
  have enqueues {e : Dev} (he : d.reedEnqueue n w = e) : exec (.reedEnqueue n w) s = s.showing e :=
    (exec_pure_issue (f := fun d => d.reedEnqueue n w) hi hs rfl).trans (congrArg s.showing he)
  refine ⟨fun hop hgo => ?_, fun hhold => ?_, fun hop hv ht => ?_⟩
  · exact enqueues (Dev.reedEnqueue_goesOn hr hc hroom hop hgo)
  · exact enqueues (Dev.reedEnqueue_holds hr hc hroom (reedToTreadle_ne_drain hhold) hhold)
  · exact enqueues (Dev.reedEnqueue_drain hr hc hroom hop hv ht)

end Sys2Proof.Machine
end

section
/-! SUPPORT. What the head of the in-line queue leaves, elementwise rows lane by lane and conversions; and what a drain does
(R120, R134 to R142, Table 5-3). -/

namespace Sys2Proof.Machine

/-! ### What the head of the queue leaves -/

/-- The device after the head of the in-line queue has left with the outcome r, which returns nothing to the treadle. -/
def Dev.reedLeaves (d : Dev) (n : LoomId) (rest : List ReedOp) (r : ReedOut) : Dev :=
  r.store.foldl (fun d p => d.scratchWrite n.toNat p.1 p.2.1 p.2.2)
    ((d.setLoom n (r.regs.foldl (fun l p => l.setVreg p.1 p.2) { d.loom n with reedQ := rest })).reedFlags n r.flags)

theorem Dev.reedExec_head {d : Dev} {n : LoomId} {o : ReedOp} {rest : List ReedOp} (hq : (d.loom n).reedQ = o :: rest)
    (ht : (reedInline (d.loom n) o).treadle = none) :
    d.reedExec n (rwOp o.word) = d.reedLeaves n rest (reedInline (d.loom n) o) := by
  unfold Dev.reedExec
  dsimp only
  rw [hq]
  dsimp only
  rw [if_neg (not_not.2 rfl), ht]
  rfl

/-- A row whose operation is at the head of the queue and returns nothing to the treadle. -/
theorem exec_reedRow {s : State} {i : Instr} {n : LoomId} {o : ReedOp} {rest : List ReedOp} {op : Nat} {r : ReedOut}
    (hl : s.dev.live = true) (hq : (s.dev.loom n).reedQ = o :: rest) (h : exec i s = s.pure fun d => d.reedExec n op)
    (hr : reedInline (s.dev.loom n) o = r) (ht : r.treadle = none) (hop : rwOp o.word = op) :
    exec i s = s.showing (s.dev.reedLeaves n rest r) := by
  subst hop hr
  rw [h, State.pure_live _ hl, Dev.reedExec_head hq ht]

/-! ### Elementwise rows -/

/-- Codes 0x00 to 0x15 and 0x28 to 0x2D: the elementwise operations (Table 5-3). -/
def elementwise (op : Nat) : Bool := op ≤ 0x15 || (0x28 ≤ op && op ≤ 0x2D)

/-- One lane of the head's elementwise operation. -/
def Loom.reedLane (l : Loom) (o : ReedOp) (k : Nat) : Nat × FFlags :=
  laneOp (rwOp o.word) (rwLt o.word) (RCtl.ofBits o.ctrl) (laneOf (l.vreg (rwVa o.word)) (ltWidth (rwLt o.word)) k)
    (laneOf (l.vreg (rwVb o.word)) (ltWidth (rwLt o.word)) k) (laneOf (l.vreg (rwVc o.word)) (ltWidth (rwLt o.word)) k)

theorem reedInline_elementwise {o : ReedOp} (l : Loom) (he : elementwise (rwOp o.word) = true) :
    reedInline l o = reedLanes l o (l.reedLane o) := if_pos he

/-- The lanes an elementwise operation leaves in vd: g's where enabled, the others as they were (R120). -/
def Loom.reedLanesOf (l : Loom) (o : ReedOp) (g : Nat → Nat × FFlags) : List (Nat × FFlags) :=
  (List.range (ltLanes (rwLt o.word))).map fun k =>
    if o.enabled k then g k else (laneOf (l.vreg (rwVd o.word)) (ltWidth (rwLt o.word)) k, ({} : FFlags))

theorem Dev.reedLeaves_reedLanes (d : Dev) (n : LoomId) (rest : List ReedOp) (o : ReedOp) (g : Nat → Nat × FFlags) :
    d.reedLeaves n rest (reedLanes (d.loom n) o g) = d.reedTakes n rest (rwVd o.word)
      (packLanes (ltWidth (rwLt o.word)) (((d.loom n).reedLanesOf o g).map (·.1))) (orAll ((d.loom n).reedLanesOf o g)) := by
  unfold Dev.reedLeaves Dev.reedTakes reedLanes Loom.reedLanesOf
  rfl

/-- An elementwise row takes each enabled lane from its operation and the others from vd (R120). -/
theorem exec_elementwise {s : State} {i : Instr} {n : LoomId} {o : ReedOp} {rest : List ReedOp} {op : Nat}
    {g : Nat → Nat × FFlags} (hl : s.dev.live = true) (hq : (s.dev.loom n).reedQ = o :: rest)
    (h : exec i s = s.pure fun d => d.reedExec n op) (he : elementwise op = true) (hg : (s.dev.loom n).reedLane o = g) (hop : rwOp o.word = op) :
    exec i s = s.showing (s.dev.reedTakes n rest (rwVd o.word) (packLanes (ltWidth (rwLt o.word))
      (((s.dev.loom n).reedLanesOf o g).map (·.1))) (orAll ((s.dev.loom n).reedLanesOf o g))) := by
  rw [← Dev.reedLeaves_reedLanes, ← hg]
  exact exec_reedRow hl hq h (reedInline_elementwise _ (hop ▸ he)) rfl hop

/-! ### INT32 lanes -/

/-- Lanes without a flag raise none together. -/
theorem orAll_flagless (f : Nat → Nat) (ks : List Nat) : orAll (ks.map fun k => (f k, {})) = {} := by
  unfold orAll
  rw [List.foldl_map]
  exact foldl_keeps (fun g : FFlags => g = {}) (fun g _ hg => by rw [hg]; rfl) ks {} rfl

/-- Lane k of a register as an INT32 operand. -/
def Loom.lane32 (l : Loom) (r k : Nat) : W32 := BitVec.ofNat 32 (laneOf (l.vreg r) 32 k)

theorem Loom.reedLane_int {l : Loom} {o : ReedOp} (hlt : rwLt o.word = 3) : l.reedLane o = fun k =>
    ((intLane (rwOp o.word) (l.lane32 (rwVa o.word) k) (l.lane32 (rwVb o.word) k)).toNat, {}) := by
  funext k
  unfold Loom.reedLane
  rw [hlt]
  rfl

/-- An elementwise row on INT32 lanes raises no flag (R125). -/
theorem exec_elementwise_int {s : State} {i : Instr} {n : LoomId} {o : ReedOp} {rest : List ReedOp} {op : Nat}
    (hl : s.dev.live = true) (hq : (s.dev.loom n).reedQ = o :: rest) (hlt : rwLt o.word = 3)
    (h : exec i s = s.pure fun d => d.reedExec n op) (he : elementwise op = true) (hop : rwOp o.word = op) :
    exec i s = s.showing (s.dev.reedTakes n rest (rwVd o.word) (packLanes 32 ((List.range 16).map fun k =>
      if o.enabled k then
        (intLane op ((s.dev.loom n).lane32 (rwVa o.word) k) ((s.dev.loom n).lane32 (rwVb o.word) k)).toNat
      else laneOf ((s.dev.loom n).vreg (rwVd o.word)) 32 k)) {}) := by
  rw [exec_elementwise hl hq h he (Loom.reedLane_int hlt) hop]
  unfold Loom.reedLanesOf
  simp only [← apply_ite (fun x : Nat => (x, ({} : FFlags))), orAll_flagless, List.map_map]
  rw [hlt, hop]
  rfl

/-! The lane operations whose conditions the model writes on bits, over integers. -/

theorem intLane_min : intLane 0x08 = fun a b => if a.toInt < b.toInt then a else b := by
  funext a b
  simp [intLane, BitVec.slt]

theorem intLane_max : intLane 0x09 = fun a b => if a.toInt < b.toInt then b else a := by
  funext a b
  simp [intLane, BitVec.slt]

theorem intLane_minu : intLane 0x0A = fun a b => if a.toNat < b.toNat then a else b := by
  funext a b
  simp [intLane, BitVec.ult]

theorem intLane_maxu : intLane 0x0B = fun a b => if a.toNat < b.toNat then b else a := by
  funext a b
  simp [intLane, BitVec.ult]

theorem intLane_abs : intLane 0x0C = fun a _ => if a.toInt < 0 then -a else a := by
  funext a b
  simp [intLane, BitVec.slt]

/-- A shift takes the low five bits of its amount. -/
theorem and_31_toNat (b : W32) : (b &&& 31).toNat = b.toNat % 32 := Nat.and_two_pow_sub_one_eq_mod b.toNat 5

theorem intLane_shl : intLane 0x13 = fun (a b : W32) => a <<< (b.toNat % 32) := by
  funext a b
  simp [intLane, ← and_31_toNat]

theorem intLane_shr : intLane 0x14 = fun (a b : W32) => a >>> (b.toNat % 32) := by
  funext a b
  simp [intLane, ← and_31_toNat]

theorem intLane_sra : intLane 0x15 = fun a b => a.sshiftRight (b.toNat % 32) := by
  funext a b
  simp [intLane, ← and_31_toNat]

/-- Settles O19: each row by the lane operation of its code. -/
theorem reedIntegerLanes : Obligations.ReedIntegerLanes := by
  unfold Obligations.ReedIntegerLanes
  intro s n o rest hl hq hlt l w lane res sh
  have row {i : Instr} (op : Nat) {f : W32 → W32 → W32} (h : exec i s = s.pure fun d => d.reedExec n op)
      (he : elementwise op = true) (hf : intLane op = f) (hop : rwOp w = op) : exec i s = res f :=
    hf ▸ exec_elementwise_int hl hq hlt h he hop
  clear_value res
  -- each row: its meaning, its code and its lane operation
  exact ⟨row 0x00 rfl rfl rfl, row 0x01 rfl rfl rfl, row 0x02 rfl rfl rfl,
    row 0x08 rfl rfl intLane_min, row 0x09 rfl rfl intLane_max, row 0x0A rfl rfl intLane_minu, row 0x0B rfl rfl intLane_maxu,
    row 0x0C rfl rfl intLane_abs, row 0x0D rfl rfl rfl, row 0x10 rfl rfl rfl, row 0x11 rfl rfl rfl, row 0x12 rfl rfl rfl,
    row 0x13 rfl rfl intLane_shl, row 0x14 rfl rfl intLane_shr, row 0x15 rfl rfl intLane_sra⟩

/-! ### Float lanes -/

theorem Loom.reedLane_float {l : Loom} {o : ReedOp} (hlt : rwLt o.word ≠ 3) : l.reedLane o = fun k =>
    floatLane (rwOp o.word) (rwLt o.word) (RCtl.ofBits o.ctrl) (laneOf (l.vreg (rwVa o.word)) (ltWidth (rwLt o.word)) k)
      (laneOf (l.vreg (rwVb o.word)) (ltWidth (rwLt o.word)) k) (laneOf (l.vreg (rwVc o.word)) (ltWidth (rwLt o.word)) k) :=
  funext fun _ => if_neg hlt

/-- Settles O20: each row by the branch of `floatLane` for its code. -/
theorem reedFloatLanes : Obligations.ReedFloatLanes := by
  unfold Obligations.ReedFloatLanes
  intro s n o rest hl hq hlt l w lw L c cs fs res un bin ter sign
  have row {i : Instr} (op : Nat) {g : Nat → Nat × FFlags} (h : exec i s = s.pure fun d => d.reedExec n op)
      (he : elementwise op = true) (hg : (fun k => floatLane op (rwLt w) c (cs k).1 (cs k).2.1 (cs k).2.2) = g)
      (hop : rwOp w = op) : exec i s = res g := by
    subst hop hg
    exact exec_elementwise hl hq h he (Loom.reedLane_float hlt) rfl
  clear_value res
  -- each row: its meaning, its code and its lane operation
  exact ⟨row 0x00 rfl rfl rfl, row 0x01 rfl rfl rfl, row 0x02 rfl rfl rfl, row 0x03 rfl rfl rfl, row 0x04 rfl rfl rfl,
    row 0x05 rfl rfl rfl, row 0x06 rfl rfl rfl, row 0x07 rfl rfl rfl, row 0x08 rfl rfl rfl, row 0x09 rfl rfl rfl,
    row 0x0C rfl rfl rfl, row 0x0D rfl rfl rfl, row 0x0E rfl rfl rfl, row 0x28 rfl rfl rfl, row 0x29 rfl rfl rfl,
    row 0x2A rfl rfl rfl, row 0x2B rfl rfl rfl, row 0x2C rfl rfl rfl, row 0x2D rfl rfl rfl⟩

/-! ### Conversions and drains -/

/-- What the conversions leave, by code (Table 5-3). -/
theorem reedInline_conversions (l : Loom) (o : ReedOp) :
    (rwOp o.word = 0x38 → reedInline l o = reedConvert l o false) ∧ (rwOp o.word = 0x39 → reedInline l o = reedConvert l o true) ∧
    (rwOp o.word = 0x3A → reedInline l o = reedDqld l o) ∧ (rwOp o.word = 0x3B → reedInline l o = reedQst l o) := by
  refine ⟨fun h => ?_, fun h => ?_, fun h => ?_, fun h => ?_⟩ <;> simp [reedInline, h]

/-- VQST writes scratch, whether its lanes are integers or floats. -/
theorem reedQst_treadle (l : Loom) (o : ReedOp) : (reedQst l o).treadle = none := by
  unfold reedQst
  dsimp only
  split
  · rfl
  · rfl

/-- A drain that nothing delays, to a format without scales: eight rows go to scratch and the tally completes (R140). -/
theorem Dev.drain_unscaled {d : Dev} {n : LoomId} {o : ReedOp} {rest : List ReedOp} (hq : (d.loom n).drainQ = o :: rest)
    (hdep : o.dep = .met) (hb : drainBlocked (d.loom n) o = false) (hf : fmtScaled (rwFmt o.word) = false) :
    d.drain n = ((List.range 8).foldl (fun (e : Dev) i =>
      (e.scratchWrite n.toNat ((o.ta.extractLsb' 0 20).toNat + i * ((o.ta.extractLsb' 20 12).toNat * 8))
        (drainRow (rwFmt o.word)) (drainRowBits (d.loom n) o i).1).reedFlags n (drainRowBits (d.loom n) o i).2.2)
      (d.setLoom n { d.loom n with drainQ := rest })).tallyDone n (rwTally o.word) o.id none := by
  unfold Dev.drain
  dsimp only
  rw [hq]
  dsimp only
  rw [hdep]
  dsimp only
  rw [hb, if_neg Bool.false_ne_true, hf]
  rfl

/-- Settles O22: each conversion at the head of the in-line queue by its code, and a drain at the head of the drain path. -/
theorem reedConversions : Obligations.ReedConversions := by
  unfold Obligations.ReedConversions
  intro s n o rest hl d l w res
  refine ⟨fun hq => ?_, fun hq hdep hb => ?_⟩
  · have row {i : Instr} {op : Nat} {r : ReedOut} (h : exec i s = s.pure fun d => d.reedExec n op) (ht : r.treadle = none)
        (hr : rwOp w = op → reedInline l o = r) (hop : rwOp w = op) : exec i s = res r :=
      exec_reedRow hl hq h (hr hop) ht hop
    obtain ⟨hcvt, hcvti, hdqld, hqst⟩ := reedInline_conversions l o
    clear_value res
    exact ⟨row rfl rfl hcvt, row rfl rfl hcvti, row rfl rfl hdqld, row rfl (reedQst_treadle l o) hqst⟩
  · intro e pitch hf
    exact (State.run_live (fun d => d.drain n) hl).trans (congrArg s.settling (Dev.drain_unscaled hq hdep hb hf))

end Sys2Proof.Machine
end

section
/-! SUPPORT. Float compares of the reed: NaN and zero codes as operands (R127, R132). -/

namespace Sys2Proof.Machine

/-- A NaN code of a layout: the top exponent with a nonzero mantissa (Table 2-3). -/
def NanCode (L : FLayout) (x : Nat) : Prop := x / 2 ^ L.m % 2 ^ L.e = 2 ^ L.e - 1 ∧ x % 2 ^ L.m ≠ 0

/-! ### Codes as operands -/

section
variable {L : FLayout} {x : Nat}

/-- A NaN code is read as a NaN, which signals where its quiet bit is 0; FLUSH does not touch it. -/
theorem rdLane_nan (c : RCtl) (he : 0 < L.e) (hm : 0 < L.m) (h : NanCode L x) :
    rdLane L c x = (.nan (x / 2 ^ (L.m - 1) % 2 = 0) x, {}) := by
  obtain ⟨htop, hman⟩ := h
  have htwo : 2 ≤ 2 ^ L.e := Nat.pow_le_pow_right Nat.two_pos he
  have hsub : isSubnormal L x = false := by
    unfold isSubnormal
    rw [htop, decide_eq_false (by omega), Bool.false_and]
  have hquiet : x % 2 ^ L.m / 2 ^ (L.m - 1) = x / 2 ^ (L.m - 1) % 2 := by
    conv_lhs => rw [← Nat.sub_add_cancel hm, Nat.pow_succ]
    exact Nat.mod_mul_right_div_self ..
  unfold rdLane
  rw [hsub, Bool.and_false, if_neg Bool.false_ne_true]
  unfold decodeIeee
  dsimp only
  rw [if_pos htop, if_neg hman, hquiet, Nat.mod_mod]

/-- Any other code is read as a number, with or without FLUSH. -/
theorem isNan_rdLane_of_not (c : RCtl) (h : ¬NanCode L x) : isNan (rdLane L c x).1 = false := by
  unfold rdLane
  split
  · rfl
  · unfold decodeIeee
    dsimp only
    split
    · next htop =>
      rw [if_pos (not_not.1 fun hman => h ⟨htop, hman⟩)]
      rfl
    · obtain ⟨s, m, e, hfin⟩ := decodeFin_finite L x
      rw [hfin]
      rfl

/-- A zero code, of either sign, is read as a zero. -/
theorem rdLane_zero (c : RCtl) (he : 0 < L.e) (h : x = 0 ∨ x = 2 ^ (L.e + L.m)) :
    ∃ s, rdLane L c x = (.fin s 0 (1 - (L.bias : Int) - L.m), {}) := by
  have htwo : 2 ≤ 2 ^ L.e := Nat.pow_le_pow_right Nat.two_pos he
  have hexp : x / 2 ^ L.m % 2 ^ L.e = 0 := by
    rcases h with rfl | rfl
    · simp
    · rw [Nat.pow_add, Nat.mul_div_cancel _ (Nat.two_pow_pos _), Nat.mod_self]
  have hman : x % 2 ^ L.m = 0 := by
    rcases h with rfl | rfl
    · simp
    · rw [Nat.pow_add, Nat.mul_mod_left]
  refine ⟨x / 2 ^ (L.e + L.m) % 2 = 1, ?_⟩
  have hsub : isSubnormal L x = false := by simp [isSubnormal, hman]
  unfold rdLane
  rw [hsub, Bool.and_false, if_neg Bool.false_ne_true]
  unfold decodeIeee decodeFin
  dsimp only
  rw [hexp, hman, if_neg (by omega), if_pos rfl]

end

theorem isSNan_of_not_isNan {v : FV} (h : isNan v = false) : isSNan v = false := by
  cases v with
  | nan s k => cases h
  | fin n m e => rfl
  | inf n => rfl

theorem isNan_rdLane_iff {L : FLayout} {x : Nat} (c : RCtl) (he : 0 < L.e) (hm : 0 < L.m) :
    isNan (rdLane L c x).1 = true ↔ NanCode L x := by
  by_cases h : NanCode L x
  · simp [rdLane_nan c he hm h, h, isNan]
  · simp [isNan_rdLane_of_not c h, h]

theorem isSNan_rdLane_iff {L : FLayout} {x : Nat} (c : RCtl) (he : 0 < L.e) (hm : 0 < L.m) :
    isSNan (rdLane L c x).1 = true ↔ NanCode L x ∧ x / 2 ^ (L.m - 1) % 2 = 0 := by
  by_cases h : NanCode L x
  · simp [rdLane_nan c he hm h, h, isSNan]
  · simp [isSNan_of_not_isNan (isNan_rdLane_of_not c h), h]

/-! ### Compares -/

/-- Zeros compare equal whatever their signs (R127). -/
theorem fCmp_zeros (s t : Bool) (e : Int) : fCmp (.fin s 0 e) (.fin t 0 e) = (false, true) := by
  simp [fCmp, ltFin]

section
variable {lt : Nat} (c : RCtl) (a b : Nat) (hlt : lt ≠ 3)
include hlt

/-- VCMPEQ, VCMPLT and VCMPLE are false, and VCMPUN true, where an operand is a NaN. -/
theorem laneCmp_of_isNan (h : (isNan (rdLane (ltLayout lt) c a).1 || isNan (rdLane (ltLayout lt) c b).1) = true) :
    (laneCmp 0x18 lt c a b).1 = false ∧ (laneCmp 0x19 lt c a b).1 = false ∧ (laneCmp 0x1A lt c a b).1 = false ∧
    (laneCmp 0x1B lt c a b).1 = true := by
  simp [laneCmp, hlt, h]

/-- A float compare raises INVALID where an operand signals. -/
theorem laneCmp_invalid (op : Nat) : (laneCmp op lt c a b).2.invalid =
    (isSNan (rdLane (ltLayout lt) c a).1 || isSNan (rdLane (ltLayout lt) c b).1) := by
  simp [laneCmp, hlt]

theorem laneCmp_zeros {s t : Bool} {e : Int} {f g : FFlags} (ha : rdLane (ltLayout lt) c a = (.fin s 0 e, f))
    (hb : rdLane (ltLayout lt) c b = (.fin t 0 e, g)) :
    (laneCmp 0x18 lt c a b).1 = true ∧ (laneCmp 0x19 lt c a b).1 = false ∧ (laneCmp 0x1A lt c a b).1 = true ∧
    (laneCmp 0x1B lt c a b).1 = false := by
  simp [laneCmp, hlt, ha, hb, fCmp_zeros, isNan]

end

/-- The float lane types have exponent and mantissa bits, and a sign above them. -/
theorem ltLayout_fields {lt : Nat} (h : lt < 3) :
    0 < (ltLayout lt).e ∧ 0 < (ltLayout lt).m ∧ ltWidth lt - 1 = (ltLayout lt).e + (ltLayout lt).m := by
  interval_cases lt <;> decide

/-- Settles O58: by what the operands' codes are read as. -/
theorem floatComparesQuiet : Obligations.FloatComparesQuiet := by
  unfold Obligations.FloatComparesQuiet
  intro lt c a b hlt _ _ L nan snan zero cmp
  obtain ⟨he, hm, hw⟩ := ltLayout_fields hlt
  have hne : lt ≠ 3 := by omega
  refine ⟨fun hnan => ?_, fun op _ => ?_, fun ha hb => ?_⟩
  · refine laneCmp_of_isNan c a b hne ?_
    rw [Bool.or_eq_true, isNan_rdLane_iff c he hm, isNan_rdLane_iff c he hm]
    exact hnan
  · show (laneCmp op lt c a b).2.invalid = true ↔ _
    rw [laneCmp_invalid c a b hne, Bool.or_eq_true, isSNan_rdLane_iff c he hm, isSNan_rdLane_iff c he hm]
    rfl
  · simp only [zero, hw] at ha hb
    obtain ⟨s, ha⟩ := rdLane_zero c he ha
    obtain ⟨t, hb⟩ := rdLane_zero c he hb
    exact laneCmp_zeros c a b hne ha hb

end Sys2Proof.Machine
end

section
/-! SUPPORT. Loads that hit, stores into an empty store buffer, and atomics on memory (R145, R146, R152, R157, R161). -/

namespace Sys2Proof.Machine

/-- A treadle that issues waits for nothing. -/
theorem State.Issues.stall {s : State} {n : LoomId} {k : Nat} (hi : s.Issues n k) : (s.dev.loom n).stall = .run := by
  obtain ⟨-, hr, -⟩ := hi
  obtain ⟨-, hs, -, -⟩ := Dev.ready_iff.1 hr
  exact hs

theorem State.Issues.ready {s : State} {n : LoomId} {k : Nat} (hi : s.Issues n k) : s.dev.ready n = true := by
  obtain ⟨-, hr, -⟩ := hi
  exact hr

/-! ### Atomics (R161) -/

/-- The request of an atomic on memory: its operation, its place in the line and its operands, under the next free tag. -/
def Dev.atomicFor (d : Dev) (n : LoomId) (op : AtomOp) (a : AtomArgs) (x : Nat) : Req :=
  { kind := .atomic op, src := .treadle n, tag := d.weave.nextTag, line := BitVec.ofNat 40 (x / 256),
    sects := (1 : BitVec 4) <<< (x / 64 % 4), off := BitVec.ofNat 8 (x % 256), wide := a.wide, opnd := (d.loom n).reg a.rs2,
    cmp := (d.loom n).reg a.rd, wing := BitVec.ofNat 4 (d.wingOf n) }

/-- An aligned atomic on memory, with the store buffer empty, goes to the line's home and holds the treadle. -/
theorem Dev.atomic_mem {d : Dev} {n : LoomId} {a : AtomArgs} {t : Tlb} {x : Nat} (op : AtomOp) (hready : d.ready n = true)
    (hr : a.rsvd = 0) (hal : ((d.loom n).reg a.rs1).toNat % (if a.wide then 8 else 4) = 0) (hstb : (d.loom n).stb = [])
    (ht : d.Reaches n ((d.loom n).reg a.rs1) .atomic t x) (hx : destOf t x = .mem) :
    d.atomic n op a = ((d.newTag.2.sendReq (d.atomicFor n op a x)).setLoom n
      { d.loom n with stall := .atomic a.rd a.wide d.weave.nextTag }).countLoom n t ((d.loom n).reg a.rs1) := by
  have hempty : (!(d.loom n).stb.isEmpty) = false := by simp [hstb]
  unfold Dev.atomic
  rw [Dev.issue_ready _ hready]
  dsimp only
  rw [if_neg (not_not.2 hr), if_neg (not_not.2 hal), hempty, if_neg Bool.false_ne_true, ht]
  dsimp only
  rw [hx]
  rfl

/-- Settles O13: each operation by its request. -/
theorem atomicsGoHome : Obligations.AtomicsGoHome := by
  unfold Obligations.AtomicsGoHome
  intro s n a t x hi d l va hr hal hstb ht hx tag sent res
  have goes {i : Instr} (op : AtomOp) (h : exec i s = s.run fun d => d.instr i n 4 fun d => d.atomic n op a) (hs : s.Spells n i) :
      exec i s = res op :=
    (exec_run_issue hi hs h).trans (congrArg s.settling (Dev.atomic_mem op hi.ready hr hal hstb ht hx))
  repeat refine List.forall_mem_cons.2 ⟨goes _ rfl, ?_⟩
  exact List.forall_mem_nil _

/-! ### Stores (R157) -/

/-- A store into the empty store buffer is its only entry, and the treadle goes on. -/
theorem Dev.bufferStore_empty {d : Dev} {n : LoomId} (t : Tlb) (va : W64) (x : Nat) (mask : BitVec 256) (data : Line)
    (zero clean : Bool) (hstb : (d.loom n).stb = []) :
    d.bufferStore n t va x mask data zero clean = d.newOp.2.retires n 4 { d.loom n with stb :=
      [{ id := d.opSeq, dest := destOf t x, attr := BitVec.ofNat 3 (pteAttr t.leaf), line := BitVec.ofNat 56 (x / 256), va := va,
         mask := mask, data := data, zero := zero, clean := clean, tlb := some t }] } := by
  unfold Dev.bufferStore
  dsimp only
  rw [hstb]
  exact Dev.setLoom_nextPc 4 rfl

/-- An aligned store to memory that may be cached. -/
theorem Dev.store_mem {d : Dev} {n : LoomId} {bytes : Nat} {a : StoreArgs} {t : Tlb} {x : Nat} (hready : d.ready n = true)
    (hal : ((d.loom n).reg a.rs1 + a.imm.signExtend 64).toNat % bytes = 0)
    (ht : d.Reaches n ((d.loom n).reg a.rs1 + a.imm.signExtend 64) .store t x) (hx : destOf t x = .mem)
    (hattr : pteAttr t.leaf ≤ attrStream) :
    d.store n bytes a = d.bufferStore n t ((d.loom n).reg a.rs1 + a.imm.signExtend 64) x
      ((BitVec.allOnes 256 >>> (256 - bytes)) <<< (x % 256))
      (BitVec.ofNat 2048 (((d.loom n).reg a.rs2).toNat % 2 ^ (8 * bytes)) <<< (8 * (x % 256))) false false := by
  have hcached : (destOf t x = .mem && pteAttr t.leaf ≤ attrStream) = true := by simp [hx, hattr]
  unfold Dev.store
  rw [Dev.issue_ready _ hready]
  dsimp only
  rw [if_neg (not_not.2 hal), ht]
  dsimp only
  rw [if_pos hcached]

/-- Settles O12: each width of store. -/
theorem storesEnterBuffer : Obligations.StoresEnterBuffer := by
  unfold Obligations.StoresEnterBuffer
  intro s n a bytes t x hi l va _ hal ht hx hattr hstb ent res
  have henters : s.dev.store n bytes a = s.dev.newOp.2.retires n 4 { l with stb := [ent] } := by
    rw [Dev.store_mem hi.ready hal ht hx hattr, Dev.bufferStore_empty _ _ _ _ _ _ _ hstb, hx]
  have enters {i : Instr} {k : Nat} (h : exec i s = s.run fun d => d.instr i n 4 fun d => d.store n k a) (hk : bytes = k)
      (hs : s.Spells n i) : exec i s = res := by
    subst hk
    exact (exec_run_issue hi hs h).trans (congrArg s.settling henters)
  exact ⟨enters rfl, enters rfl, enters rfl, enters rfl⟩

/-! ### Loads (R145, R146, R152) -/

/-- A mask of one or more bytes that begins within the line is not empty. -/
theorem byteMask_ne_zero {k off : Nat} (hk : 0 < k) (hoff : off < 256) : (BitVec.allOnes 256 >>> (256 - k)) <<< off ≠ 0 := by
  intro h
  have hbit := congrArg (fun m : BitVec 256 => m.getLsbD off) h
  simp only [BitVec.getLsbD_shiftLeft, BitVec.getLsbD_ushiftRight, BitVec.getLsbD_allOnes, hoff] at hbit
  simp [hk] at hbit

/-- A load of 1, 2 or 4 bytes that extends the sign. -/
theorem loadValue_signed {k : Nat} (rd : Reg) (off : Nat) (line : Line) (hk : k ∈ [1, 2, 4]) :
    loadValue ⟨rd, k, true⟩ off line = (line.extractLsb' (8 * off) (8 * k)).signExtend 64 := by
  simp only [List.mem_cons, List.not_mem_nil, or_false] at hk
  obtain rfl | rfl | rfl := hk <;> exact congrArg (BitVec.signExtend 64) (BitVec.setWidth_extractLsb'_of_le (by decide))

/-- A load of 1, 2 or 4 bytes that extends with zeros. -/
theorem loadValue_unsigned {k : Nat} (rd : Reg) (off : Nat) (line : Line) (hk : k ∈ [1, 2, 4]) :
    loadValue ⟨rd, k, false⟩ off line = (line.extractLsb' (8 * off) (8 * k)).setWidth 64 := by
  simp only [List.mem_cons, List.not_mem_nil, or_false] at hk
  obtain rfl | rfl | rfl := hk <;> exact congrArg (BitVec.setWidth 64) (BitVec.setWidth_extractLsb'_of_le (by decide))

/-- An empty store buffer holds no byte of any load (R159). -/
theorem Loom.buffered_empty {l : Loom} (dst : Dest) (line : BitVec 56) (off len : Nat) (h : l.stb = []) :
    l.buffered dst line off len = (0, 0) := by
  unfold Loom.buffered
  dsimp only
  rw [h, List.foldl_nil]

/-- A register field and a loom are set in either order. -/
theorem Dev.setFld_setLoom (d : Dev) (n : LoomId) (l : Loom) (f : Field) (i v : Nat) :
    (d.setLoom n l).setFld f i v = (d.setFld f i v).setLoom n l := rfl

/-- The end of the streaming state leaves the lines of the cache. -/
theorem Dev.leaveStreaming_cache (d : Dev) (n : LoomId) : ((d.leaveStreaming n).loom n).cache = (d.loom n).cache := by
  unfold Dev.leaveStreaming
  split
  · rfl
  · rw [Dev.setFld_setLoom, Dev.setLoom_loom_same]

theorem Dev.leaveStreaming_findLine (d : Dev) (n : LoomId) (line : BitVec 40) :
    ((d.leaveStreaming n).loom n).findLine line = (d.loom n).findLine line := by
  unfold Loom.findLine
  rw [Dev.leaveStreaming_cache]

/-- An aligned load from memory whose line the cache holds whole. -/
theorem Dev.load_hit {d : Dev} {n : LoomId} {w : LoadW} {a : LoadArgs} {t : Tlb} {x key : Nat} {c : CLine}
    (hready : d.ready n = true) (hw : 0 < w.bytes)
    (hal : ((d.loom n).reg a.rs1 + a.imm.signExtend 64).toNat % w.bytes = 0)
    (ht : d.Reaches n ((d.loom n).reg a.rs1 + a.imm.signExtend 64) .load t x) (hx : destOf t x = .mem)
    (hea : pteAttr t.leaf ≠ attrDeviceEa) (hne : pteAttr t.leaf ≠ attrDeviceNe) (hstb : (d.loom n).stb = [])
    (hc : (d.loom n).Holds (BitVec.ofNat 40 (x / 256)) key c) (hwhole : c.invalid = 0) :
    d.load n w a = (d.leaveStreaming n).loadDone n w (x % 256) c.data := by
  obtain ⟨hfind, hget⟩ := hc
  have hmask := byteMask_ne_zero hw (Nat.mod_lt x (by decide : 0 < 256))
  have hline : (BitVec.ofNat 56 (x / 256)).setWidth 40 = BitVec.ofNat 40 (x / 256) := by simp
  have hthere : ((d.leaveStreaming n).loom n).findLine (BitVec.ofNat 40 (x / 256)) = some (key, c) :=
    (d.leaveStreaming_findLine n _).trans hfind
  have hkey : Fmap.get { line := 0 } ((d.leaveStreaming n).loom n).cache key = c := by rw [Dev.leaveStreaming_cache, hget]
  have hway : (d.leaveStreaming n).lineFor n (BitVec.ofNat 40 (x / 256)) (fun _ => true) = (.way key, true, d.leaveStreaming n) := by
    unfold Dev.lineFor
    rw [hthere]
  unfold Dev.load
  rw [Dev.issue_ready _ hready]
  dsimp only
  rw [if_neg (not_not.2 hal), ht]
  dsimp only
  rw [Loom.buffered_empty _ _ _ _ hstb, hx, hline, hway, hfind]
  refine (if_neg (by simp [hstb])).trans ?_
  refine (if_neg hmask.symm).trans ?_
  refine (if_neg (not_not.2 rfl)).trans ?_
  refine (if_neg (by simp [hea, hne])).trans ?_
  refine (if_neg (by simp)).trans ?_
  dsimp only
  rw [hkey]
  exact if_pos (by simp [hwhole])

/-- A loom that waits for nothing is no other when its wait ends. -/
theorem Loom.run_of_run {l : Loom} (h : l.stall = .run) : { l with stall := .run } = l := by rw [← h]

/-- A loom that takes a value at its own pc, and then retires an instruction, only retires it. -/
theorem Dev.setLoom_retires (d : Dev) (n : LoomId) {l : Loom} (k : Nat) (m : Loom) (hpc : l.pc = (d.loom n).pc) :
    (d.setLoom n l).retires n k m = d.retires n k m := by
  simp [Dev.retires, hpc]

/-- A load of a treadle that waits for nothing is done at once. -/
theorem Dev.loadDone_run {d : Dev} {n : LoomId} (w : LoadW) (off : Nat) (line : Line) (hrun : (d.loom n).stall = .run) :
    d.loadDone n w off line = d.retires n 4 ((d.loom n).setReg w.rd (loadValue w off line)) := by
  unfold Dev.loadDone
  rw [Dev.setReg_nextPc, Dev.setLoom_loom_same, Loom.run_of_run hrun, Dev.setLoom_retires _ _ _ _ rfl]

/-- A load that is done, by whether it ends the streaming state. -/
theorem Dev.leaveStreaming_loadDone {d : Dev} {n : LoomId} (w : LoadW) (off : Nat) (line : Line)
    (hrun : (d.loom n).stall = .run) :
    (d.leaveStreaming n).loadDone n w off line = if d.fld Fld.CACHE_STATUS_STREAMING n.toNat ≠ 0
      then (d.setFld Fld.CACHE_STATUS_STREAMING n.toNat 0).retires n 4
        ({ d.loom n with streamCount := 0 }.setReg w.rd (loadValue w off line))
      else d.retires n 4 ((d.loom n).setReg w.rd (loadValue w off line)) := by
  unfold Dev.leaveStreaming
  by_cases hs : d.fld Fld.CACHE_STATUS_STREAMING n.toNat = 0
  · rw [if_pos hs, if_neg (not_not.2 hs), Dev.loadDone_run _ _ _ hrun]
  · rw [if_neg hs, if_pos hs, Dev.setFld_setLoom, Dev.loadDone_run _ _ _ (by simpa using hrun), Dev.setLoom_loom_same]
    exact Dev.setLoom_retires _ _ _ _ rfl

/-- Settles O11: each load by its width and extension. -/
theorem loadHits : Obligations.LoadHits := by
  unfold Obligations.LoadHits
  intro s n a bytes t x key c hi l va hbytes hal ht hx hea hne hstb hc hwhole streaming b res
  have hpos : 0 < bytes := (by decide : ∀ k ∈ [1, 2, 4, 8], 0 < k) bytes hbytes
  have loads {i : Instr} {k : Nat} {sext : Bool} {v : W64}
      (h : exec i s = s.run fun d => d.instr i n 4 fun d => d.load n ⟨a.rd, k, sext⟩ a) (hk : bytes = k)
      (hv : loadValue ⟨a.rd, k, sext⟩ (x % 256) c.data = v) (hs : s.Spells n i) : exec i s = res v := by
    subst hk hv
    have hload : s.dev.load n ⟨a.rd, bytes, sext⟩ a = _ :=
      (Dev.load_hit hi.ready hpos hal ht hx hea hne hstb hc hwhole).trans (Dev.leaveStreaming_loadDone _ _ _ hi.stall)
    exact (exec_run_issue hi hs h).trans (congrArg s.settling hload)
  have pair {i j : Instr} {k : Nat} (hsigned : exec i s = s.run fun d => d.instr i n 4 fun d => d.load n ⟨a.rd, k, true⟩ a)
      (hunsigned : exec j s = s.run fun d => d.instr j n 4 fun d => d.load n ⟨a.rd, k, false⟩ a) (hk : k ∈ [1, 2, 4]) :
      bytes = k → ∀ p ∈ [(i, res ((b (8 * k)).signExtend 64)), (j, res ((b (8 * k)).setWidth 64))],
        s.Spells n p.1 → exec p.1 s = p.2 := fun he =>
    List.forall_mem_cons.2 ⟨loads hsigned he (loadValue_signed _ _ _ hk), List.forall_mem_cons.2
      ⟨loads hunsigned he (loadValue_unsigned _ _ _ hk), List.forall_mem_nil _⟩⟩
  exact ⟨pair rfl rfl (by decide), pair rfl rfl (by decide), pair rfl rfl (by decide), fun hk => loads rfl hk rfl⟩

end Sys2Proof.Machine
end

section
/-! SUPPORT. Writes of CACHE_CTRL and CACHE_OP (R151, R168). -/

namespace Sys2Proof.Machine

/-! ### Fields and looms -/

theorem Dev.setFld_setFld (d : Dev) (f : Field) (i v w : Nat) : (d.setFld f i v).setFld f i w = d.setFld f i w := by
  simp [Dev.setFld]

theorem Dev.newTag_setLoom (d : Dev) (n : LoomId) (l : Loom) : (d.setLoom n l).newTag.2 = d.newTag.2.setLoom n l := rfl

theorem Dev.newTag_setFld (d : Dev) (f : Field) (i v : Nat) : (d.setFld f i v).newTag.2 = d.newTag.2.setFld f i v := rfl

/-- SRW of CACHE_CTRL or CACHE_OP: no reed instruction is in the way. -/
theorem Dev.srw_cache {d : Dev} {n : LoomId} {a : SrArgs} (hr : a.rsvd = 0) (hnum : a.num = 0x080 ∨ a.num = 0x083) :
    d.srw n a = d.sysWrite n a.num.toNat ((d.loom n).reg a.r) := by
  have hheld : d.reedHolds n a.num.toNat = false := by obtain h | h := hnum <;> rw [h] <;> rfl
  have hthere : (d.sysRead n a.num.toNat).isNone = false := by obtain h | h := hnum <;> rw [h] <;> rfl
  unfold Dev.srw
  dsimp only
  rw [hthere, hheld]
  simp [hr]

theorem Dev.srw_cacheCtrl {d : Dev} {n : LoomId} {a : SrArgs} (hr : a.rsvd = 0) (hnum : a.num = 0x080) :
    d.srw n a = d.cacheCtrl n ((d.loom n).reg a.r).toNat := by
  rw [Dev.srw_cache hr (.inl hnum), hnum]
  rfl

theorem Dev.srw_cacheOp {d : Dev} {n : LoomId} {a : SrArgs} (hr : a.rsvd = 0) (hnum : a.num = 0x083) :
    d.srw n a = d.cacheWhole n (((d.loom n).reg a.r).toNat % 4) := by
  rw [Dev.srw_cache hr (.inr hnum), hnum]
  rfl

/-- CACHE_STATUS.LOCKED of a cache with the given number of locked lines. -/
theorem Dev.showLocked_of {d : Dev} {n : LoomId} {k : Nat} (h : ((d.loom n).cache.filter (fun c => c.2.lock)).length = k) :
    d.showLocked n = d.setFld Fld.CACHE_STATUS_LOCKED n.toNat k := by
  rw [← h]; rfl

/-! ### CACHE_CTRL (R151) -/

theorem Dev.flushWays_empty {d : Dev} {n : LoomId} (ways : Nat → Bool) (h : (d.loom n).cache = []) :
    d.flushWays n ways = d.setFld Fld.CACHE_STATUS_LOCKED n.toNat 0 := by
  unfold Dev.flushWays
  rw [h]
  exact Dev.showLocked_of (by rw [Fmap.keys, List.map_nil, List.filter_nil, List.foldl_nil, h]; rfl)

/-- The end of a change of WAY_ON, once the cache holds nothing and no acknowledgement is missing. -/
theorem Dev.cacheOpEnd_ways {d : Dev} {n : LoomId} {on : BitVec 8} (hcache : (d.loom n).cache = [])
    (htags : (d.loom n).cleanTags = []) (hs : (d.loom n).stall = .ways on) :
    d.cacheOpEnd n = (d.setFld Fld.CACHE_STATUS_WAY_BUSY n.toNat 0).retires n 4 { d.loom n with stall := .run } := by
  unfold Dev.cacheOpEnd
  dsimp only
  rw [htags, hcache, hs, Dev.setFld_setLoom]
  exact Dev.setLoom_nextPc 4 rfl

/-- A new WAY_ON of a cache that holds nothing and waits for no acknowledgement is in force at once. -/
theorem Dev.cacheCtrl_empty {d : Dev} {n : LoomId} {v : Nat} (hv : v % 2 = 1) (hon : v / 2 ^ 8 % 2 ^ 8 ≠ 0)
    (hnew : v / 2 ^ 8 % 2 ^ 8 ≠ d.fld Fld.CACHE_CTRL_WAY_ON n.toNat) (hcache : (d.loom n).cache = [])
    (htags : (d.loom n).cleanTags = []) (hrun : (d.loom n).stall = .run) :
    d.cacheCtrl n v = (((((d.setFld Fld.CACHE_CTRL_STREAM_DETECT n.toNat 1).setFld Fld.CACHE_CTRL_WAY_ON n.toNat
      (v / 2 ^ 8 % 2 ^ 8)).setFld Fld.CACHE_STATUS_WAY_BUSY n.toNat 1).setFld Fld.CACHE_STATUS_LOCKED n.toNat 0).setFld
        Fld.CACHE_STATUS_WAY_BUSY n.toNat 0).retires n 4 (d.loom n) := by
  have hold : (d.setFld Fld.CACHE_CTRL_STREAM_DETECT n.toNat 1).fld Fld.CACHE_CTRL_WAY_ON n.toNat =
      d.fld Fld.CACHE_CTRL_WAY_ON n.toNat := Dev.fld_setFld_ne _ _ _ _ _ _ (by decide)
  have hset : (decide (v / 2 ^ 8 % 2 ^ 8 = 0) || decide (v / 2 ^ 8 % 2 ^ 8 = d.fld Fld.CACHE_CTRL_WAY_ON n.toNat)) = false := by
    rw [decide_eq_false hon, decide_eq_false hnew]; rfl
  unfold Dev.cacheCtrl
  dsimp only
  rw [hv, if_neg Nat.one_ne_zero, hold, hset, if_neg Bool.false_ne_true, Dev.setFld_setLoom,
    Dev.flushWays_empty _ (by rw [Dev.setLoom_loom_same]; exact hcache), Dev.setFld_setLoom,
    Dev.cacheOpEnd_ways (by rw [Dev.setLoom_loom_same]; exact hcache) (by rw [Dev.setLoom_loom_same]; exact htags)
      (by rw [Dev.setLoom_loom_same]), Dev.setFld_setLoom, Dev.setLoom_loom_same]
  refine (Dev.setLoom_retires _ _ _ _ ?_).trans ?_
  · rfl
  · exact congrArg (Dev.retires _ n 4) (Loom.run_of_run hrun)

/-! ### CACHE_OP (R168) -/

/-- The request by which a line goes home: its dirty sectors with their data, under the next free tag. -/
def Dev.homeward (d : Dev) (n : LoomId) (kind : ReqKind) (c : CLine) : Req :=
  { kind := kind, src := .cache n, tag := d.weave.nextTag, line := c.line, sects := c.dirty, data := c.data,
    mask := (sectList c.dirty).foldl (fun (m : BitVec 256) k => m ||| fullMask k) 0, wing := BitVec.ofNat 4 (d.wingOf n) }

/-- When every line of the eviction buffer has been sent, the operation only waits for them. -/
theorem Dev.evictAll_sent {d : Dev} {n : LoomId} (h : (d.loom n).evict.all (fun e => e.sent) = true) :
    d.evictAll n = d.setLoom n { d.loom n with cleanTags := (d.loom n).cleanTags ++
      ((d.loom n).evict.map (fun e => e.tag)).filter (fun t => !(d.loom n).cleanTags.contains t) } := by
  have hnone : (d.loom n).evict.filter (fun e => !e.sent) = [] := by
    simpa [List.filter_eq_nil_iff] using h
  unfold Dev.evictAll
  rw [hnone]
  rfl

/-- While an acknowledgement is missing the operation goes on. -/
theorem Dev.cacheOpEnd_waits {d : Dev} {n : LoomId} (h : (d.loom n).cleanTags ≠ []) : d.cacheOpEnd n = d := by
  simp [Dev.cacheOpEnd, h]

section
variable {d : Dev} {n : LoomId} {key : Nat} {c : CLine} (hcache : (d.loom n).cache = [(key, c)])
include hcache

theorem Dev.cleanAll_single (hdirty : c.dirty ≠ 0) :
    d.cleanAll n = (d.newTag.2.setLoom n { d.loom n with cache := [(key, { c with clean := c.dirty })],
                                                         cleanTags := (d.loom n).cleanTags ++ [d.weave.nextTag] }).sendReq
      (d.homeward n .writeClean c) := by
  have hput (e : CLine) : Fmap.put (d.loom n).cache key e = [(key, e)] := by simp [hcache, Fmap.put]
  have hall : (d.loom n).cache.filter (fun p => p.2.dirty ≠ 0) = [(key, c)] := by simpa [hcache] using hdirty
  unfold Dev.cleanAll
  rw [hall, List.foldl_cons, List.foldl_nil]
  unfold Dev.putLine
  dsimp only
  rw [Dev.setLoom_loom_same, Dev.setLoom_setLoom, show d.newTag.2.loom n = d.loom n from rfl, hput]
  rfl

theorem Dev.unlockAll_single : d.unlockAll n = (d.setFld Fld.CACHE_STATUS_LOCKED n.toNat 0).setLoom n
    { d.loom n with cache := [(key, { c with lock := false })] } := by
  unfold Dev.unlockAll
  rw [hcache]
  exact Dev.showLocked_of (by rw [Dev.setLoom_loom_same]; rfl)

theorem Dev.flushKey_single (hwait : c.wait = 0) (hdirty : c.dirty ≠ 0) : d.flushKey n key =
    (d.newTag.2.setLoom n { d.loom n with
      cache := [], cleanTags := (d.loom n).cleanTags ++ [d.weave.nextTag],
      evict := (d.loom n).evict ++ [{ l := c, sent := true, tag := d.weave.nextTag }] }).sendReq (d.homeward n .writeBack c) := by
  have hfind : Fmap.find (d.loom n).cache key = some c := by simp [hcache, Fmap.find]
  have hdel : Fmap.del (d.loom n).cache key = [] := by simp [hcache, Fmap.del]
  unfold Dev.flushKey
  rw [hfind]
  dsimp only
  rw [if_pos hwait, if_neg hdirty, hdel, Dev.newTag_setLoom, Dev.setLoom_setLoom, Dev.setLoom_loom_same]
  rfl

theorem Dev.flushWays_single (hwait : c.wait = 0) (hdirty : c.dirty ≠ 0) : d.flushWays n (fun _ => true) =
    ((d.newTag.2.setFld Fld.CACHE_STATUS_LOCKED n.toNat 0).setLoom n { d.loom n with
      cache := [], cleanTags := (d.loom n).cleanTags ++ [d.weave.nextTag],
      evict := (d.loom n).evict ++ [{ l := c, sent := true, tag := d.weave.nextTag }] }).sendReq (d.homeward n .writeBack c) := by
  have hkeys : (Fmap.keys (d.loom n).cache).filter (fun _ => true) = [key] := by simp [hcache, Fmap.keys]
  unfold Dev.flushWays
  rw [hkeys, List.foldl_cons, List.foldl_nil, Dev.flushKey_single hcache hwait hdirty]
  exact Dev.showLocked_of (by rw [Dev.loom_sendReq, Dev.setLoom_loom_same]; rfl)

end

/-- UNLOCK_ALL waits for nothing. -/
theorem Dev.cacheWhole_unlock (d : Dev) (n : LoomId) : d.cacheWhole n 3 = (d.unlockAll n).nextPc n 4 := rfl

/-- The loom whose CACHE_OP waits for the lines of its eviction buffer. -/
def Loom.awaitsEvicted (l : Loom) (op : Nat) : Loom :=
  { l with stall := .cacheOp (BitVec.ofNat 2 op),
           cleanTags := l.cleanTags ++ (l.evict.map (fun e => e.tag)).filter (fun t => !l.cleanTags.contains t) }

/-- CLEAN_ALL and FLUSH_ALL hold the treadle, first for the eviction buffer, which has sent every line. -/
theorem Dev.cacheWhole_holds {d : Dev} {n : LoomId} {op : Nat} (h0 : op ≠ 0) (h3 : op ≠ 3)
    (h : (d.loom n).evict.all (fun e => e.sent) = true) (e : Dev)
    (he : e = (d.setFld Fld.CACHE_STATUS_WAY_BUSY n.toNat 1).setLoom n ((d.loom n).awaitsEvicted op)) : d.cacheWhole n op =
      (if op = 1 then e.cleanAll n else (e.unlockAll n).flushWays n (fun _ => true)).cacheOpEnd n := by
  unfold Dev.cacheWhole
  dsimp only
  rw [if_neg h0, if_neg h3, Dev.setFld_setLoom, Dev.evictAll_sent (by rw [Dev.setLoom_loom_same]; exact h), Dev.setLoom_setLoom,
    Dev.setLoom_loom_same, he]
  rfl

section
variable {d : Dev} {n : LoomId} {key : Nat} {c : CLine} (hcache : (d.loom n).cache = [(key, c)])
  (hsent : (d.loom n).evict.all (fun e => e.sent) = true)
include hcache hsent

/-- CLEAN_ALL of a cache with one dirty line. -/
theorem Dev.cacheWhole_clean (hdirty : c.dirty ≠ 0) : d.cacheWhole n 1 =
    ((d.newTag.2.setFld Fld.CACHE_STATUS_WAY_BUSY n.toNat 1).setLoom n { (d.loom n).awaitsEvicted 1 with
      cache := [(key, { c with clean := c.dirty })],
      cleanTags := ((d.loom n).awaitsEvicted 1).cleanTags ++ [d.weave.nextTag] }).sendReq (d.homeward n .writeClean c) := by
  rw [Dev.cacheWhole_holds (by decide) (by decide) hsent _ rfl, if_pos rfl,
    Dev.cleanAll_single (by rw [Dev.setLoom_loom_same]; exact hcache) hdirty, Dev.newTag_setLoom, Dev.setLoom_setLoom,
    Dev.setLoom_loom_same, Dev.cacheOpEnd_waits]
  · rfl
  · rw [Dev.loom_sendReq, Dev.setLoom_loom_same]
    exact List.append_ne_nil_of_right_ne_nil _ (List.cons_ne_nil _ _)

/-- FLUSH_ALL of a cache with one dirty line, which waits for no answer. -/
theorem Dev.cacheWhole_flush (hdirty : c.dirty ≠ 0) (hwait : c.wait = 0) : d.cacheWhole n 2 =
    (((d.newTag.2.setFld Fld.CACHE_STATUS_WAY_BUSY n.toNat 1).setFld Fld.CACHE_STATUS_LOCKED n.toNat 0).setLoom n
      { (d.loom n).awaitsEvicted 2 with
        cache := [], cleanTags := ((d.loom n).awaitsEvicted 2).cleanTags ++ [d.weave.nextTag],
        evict := (d.loom n).evict ++ [{ l := { c with lock := false }, sent := true, tag := d.weave.nextTag }] }).sendReq
      (d.homeward n .writeBack c) := by
  rw [Dev.cacheWhole_holds (by decide) (by decide) hsent _ rfl, if_neg (by decide),
    Dev.unlockAll_single (by rw [Dev.setLoom_loom_same]; exact hcache), Dev.setFld_setLoom, Dev.setLoom_setLoom,
    Dev.flushWays_single (c := { c with lock := false }) (by rw [Dev.setLoom_loom_same]) hwait hdirty, Dev.newTag_setLoom,
    Dev.setFld_setLoom, Dev.setLoom_setLoom, Dev.setLoom_loom_same, Dev.cacheOpEnd_waits]
  · rw [Dev.newTag_setFld, Dev.newTag_setFld, Dev.setFld_setFld, Dev.setLoom_loom_same]
    rfl
  · rw [Dev.loom_sendReq, Dev.setLoom_loom_same]
    exact List.append_ne_nil_of_right_ne_nil _ (List.cons_ne_nil _ _)

end

/-- Settles O10: the write of CACHE_CTRL, then the three codes of CACHE_OP. -/
theorem wholeCacheOperations : Obligations.WholeCacheOperations := by
  unfold Obligations.WholeCacheOperations
  intro s n a hi hr d l v tag busy req
  constructor
  · intro hnum hv hon hnew hcache htags hs
    have hctrl := Dev.cacheCtrl_empty hv hon hnew hcache htags hi.stall
    exact (exec_run_issue (f := fun d => if a.num = 0x080 then d.srw n a else d) hi hs rfl).trans
      (congrArg s.settling ((if_pos hnum).trans ((Dev.srw_cacheCtrl hr hnum).trans hctrl)))
  · intro waits hnum key c hcache hdirty hwait hsent
    have whole {i : Instr} {op : Nat} {e : Dev} (code : W64)
        (h : exec i s = s.run fun d => d.instr i n 4 fun d => if a.num = 0x083 && (d.loom n).reg a.r % 4 = code then d.srw n a else d)
        (hcode : code.toNat = op) (he : d.cacheWhole n op = e) (hop : v % 4 = op) (hs : s.Spells n i) :
        exec i s = s.settling e := by
      have hmod : l.reg a.r % 4 = code := BitVec.eq_of_toNat_eq (by rw [BitVec.toNat_umod, hcode]; exact hop)
      have hrow : (decide (a.num = 0x083) && decide (l.reg a.r % 4 = code)) = true := by
        rw [decide_eq_true hnum, decide_eq_true hmod]; rfl
      rw [exec_run_issue hi hs h, if_pos hrow, Dev.srw_cacheOp hr hnum, ← he, ← hop]
    refine ⟨whole 1 rfl rfl (Dev.cacheWhole_clean hcache hsent hdirty),
      whole 2 rfl rfl (Dev.cacheWhole_flush hcache hsent hdirty hwait), whole 3 rfl rfl ?_⟩
    rw [Dev.cacheWhole_unlock, Dev.unlockAll_single hcache]
    exact Dev.setLoom_nextPc 4 rfl

end Sys2Proof.Machine
end

section
/-! SUPPORT. What the owner of a sector sends home (R148, Table 7-8). -/

namespace Sys2Proof.Machine

/-! ### A request reaches its home -/

theorem Dev.takeReq_range (d : Dev) (r : Req) (a : Nat) : (d.takeReq r).range a = d.range a := by
  have hp (b : Nat) : (d.takeReq r).populated b = d.populated b := rfl
  unfold Dev.range
  rw [hp, hp]

theorem Dev.takeReq_room {d : Dev} {r q : Req} : (d.takeReq r).Room q ↔ d.Room q := Iff.rfl

/-- A request for populated memory goes to the line's home (R172). -/
theorem Dev.homeReq_memory {d : Dev} {r : Req} (h : (d.takeReq r).range (256 * r.line.toNat) = .memory) :
    d.homeReq r = ((d.takeReq r).homeMem r).settleAbsent := by
  -- `homeReq` is unfolded as a function: at its arguments the kernel would evaluate the range, whose bounds are multiples of 2^28
  have unfolded (f : Dev → Req → Dev) (hf : f = Dev.homeReq) : f d r = ((d.takeReq r).homeMem r).settleAbsent := by
    delta Dev.homeReq at hf
    subst hf
    beta_reduce
    extract_lets +onlyGivenNames e a
    rw [show e.range a = .memory from h]
  exact unfolded _ rfl

/-- A request that its home can take is handled there, and snoops to ABSENT heads end. -/
theorem Dev.reqIn_accepts {d : Dev} {r : Req} (h : d.Accepts r) : d.reqIn r = ((d.takeReq r).homeMem r).settleAbsent := by
  obtain ⟨hrange, harrives, -⟩ := h
  unfold Dev.reqIn
  rw [if_pos harrives, Dev.homeReq_memory ((d.takeReq_range r _).trans hrange)]

/-! ### Requests that ask for nothing -/

/-- What an owner sends home without asking for anything: its dirty data, or that it holds a sector no more (Table 7-8). -/
def ReqKind.gives : ReqKind → Bool
  | .writeBack | .writeClean | .cleanEvict => true
  | _ => false

/-- The transaction that a home opens for a request. -/
def Req.opening (r : Req) (reserved : Bool) : Txn := { req := r, phase := .snoop, todo := r.sects, reserved := reserved }

theorem Dev.opened_eq (d : Dev) (r : Req) (reserved : Bool) :
    d.opened r reserved = (d.takeReq r).setTxn r.line.toNat (r.opening reserved) := rfl

@[simp] theorem Req.opening_req (r : Req) (reserved : Bool) : (r.opening reserved).req = r := rfl
@[simp] theorem Req.opening_push (r : Req) (reserved : Bool) : (r.opening reserved).push = false := rfl
@[simp] theorem Req.opening_got (r : Req) (reserved : Bool) : (r.opening reserved).got = 0 := rfl
@[simp] theorem Req.opening_dead (r : Req) (reserved : Bool) : (r.opening reserved).dead = 0 := rfl

/-- A grant without sectors sends no answer of its own. -/
theorem Dev.answer_none (d : Dev) (r : Req) {g : Grant} (hsects : g.sects = 0) (hcomp : g.comp = 0) : d.answer r g = d := by
  simp [Dev.answer, hsects, hcomp]

section
variable {r : Req} (hg : r.kind.gives = true)
include hg

theorem need_gives (e : CatEnt) (k : Nat) : need r e k = {} := by
  unfold need
  split <;> simp_all [ReqKind.gives]

theorem Req.wantsEntry_gives : r.wantsEntry = false := by
  unfold Req.wantsEntry
  cases hk : r.kind <;> simp_all [ReqKind.gives, ReqKind.acked]

theorem Txn.reads_gives (reserved : Bool) (e : CatEnt) (k : Nat) : (r.opening reserved).reads e k = false := by
  cases hk : r.kind <;> simp_all [Txn.reads, ReqKind.gives]

/-- The home reads nothing for it. -/
theorem Dev.source_gives (d : Dev) (reserved : Bool) (k : Nat) : d.source (r.opening reserved) [k] = ({}, d) := by
  simp [Dev.source, Txn.reads_gives hg]

/-- The home decides its one sector, and writes what that grants. -/
theorem Dev.finish_gives (d : Dev) (reserved : Bool) (k : Nat) {g : Grant} {e : Dev}
    (h : Dev.finishSector (r.opening reserved) {} ({}, d) k = (g, e)) : d.finish (r.opening reserved) [k] =
      (g, if g.wmask = 0 then e else e.writeLine r.line.toNat g.wmask g.wdata g.wpoison g.hint) := by
  have hdead : (([k].filter fun j => (r.opening reserved).dead.getLsbD j).foldl setBit4 (0 : BitVec 4)) = 0 := by simp
  unfold Dev.finish
  dsimp only
  rw [hdead, if_pos rfl, Dev.source_gives hg, List.foldl_cons, List.foldl_nil, h, Req.opening_req]

/-- No sector of it needs a snoop, so that it is decided at once. -/
theorem Dev.resolve_gives (d : Dev) (reserved : Bool) {k : Nat} (hk : k < 4) (hs : r.sects = (1 : BitVec 4) <<< k) :
    d.resolve (r.opening reserved) = ((d.finish (r.opening reserved) [k]).2.answer r (d.finish (r.opening reserved) [k]).1).finished
      { r.opening reserved with todo := 0 } := by
  have hks : sectList r.sects = [k] := by rw [hs, sectList_single k hk]
  simp [Dev.resolve, hks, need_gives hg, Dev.snoopNeed]

/-- Its transaction ends with it: a write with a Comp, a CleanEvict without one. -/
theorem Dev.finished_gives (d : Dev) (reserved : Bool) : d.finished { r.opening reserved with todo := 0 } =
    (if r.kind.comped then d.sendMsg { kind := .comp, agent := r.src, tag := r.tag, line := r.line, sects := r.sects } else d).endTxn
      r.line.toNat := by
  have hacked : r.kind.acked = false := by cases hk : r.kind <;> simp_all [ReqKind.gives, ReqKind.acked]
  have hwrite : r.kind ≠ .write := by rintro hk; simp [hk, ReqKind.gives] at hg
  have hpushed : (decide (r.kind = .write) && decide (r.place.toNat / 2 ^ 12 = 1)) = false := by simp [hwrite]
  unfold Dev.finished
  dsimp only
  rw [Req.opening_req, hacked, hpushed]
  rfl

/-- It needs no catalogue entry, so that its transaction is resolved as it starts. -/
theorem Dev.startTxn_gives (d : Dev) (reserved : Bool) :
    d.startTxn r reserved = (d.setTxn r.line.toNat (r.opening reserved)).resolve (r.opening reserved) := by
  have hneeds : ((r.opening reserved).push || (r.opening reserved).req.wantsEntry) = false := Req.wantsEntry_gives hg
  show Dev.enter _ (r.opening reserved) = _
  unfold Dev.enter Dev.setFull
  rw [hneeds]
  rfl

/-- What is given to a home that can take it: its transaction is opened, decided, and ended, and the home serves what waits. -/
theorem Dev.reqIn_gives {d e : Dev} {g : Grant} {reserved : Bool} {k : Nat} {n : LoomId} (ha : d.Accepts r) (hn : r.src = .cache n)
    (hk : k < 4) (hs : r.sects = (1 : BitVec 4) <<< k) (hw : reserved = decide (r.kind = .writeBack))
    (h : (d.opened r reserved).finish (r.opening reserved) [k] = (g, e)) (hsects : g.sects = 0) (hcomp : g.comp = 0) :
    d.reqIn r = (e.finished { r.opening reserved with todo := 0 }).serves r.line.toNat := by
  have hroom : (d.takeReq r).Room r := by
    obtain ⟨-, -, hfree⟩ := ha
    exact Dev.takeReq_room.2 hfree
  have hstart : (d.takeReq r).homeMem r = ((d.takeReq r).startTxn r reserved).releaseLine r.line.toNat := by
    subst hw
    by_cases hb : r.kind = .writeBack
    · rw [Dev.homeMem_writeBack hroom (Dev.recast_cache _ hn) hb, decide_eq_true hb]
    · rw [Dev.homeMem_room hroom (Dev.recast_cache _ hn) hb, decide_eq_false hb]
  rw [Dev.reqIn_accepts ha, hstart, Dev.startTxn_gives hg, Dev.resolve_gives hg _ _ hk hs, ← Dev.opened_eq, h,
    Dev.answer_none _ _ hsects hcomp]
  rfl

end

/-! ### What the owner of a sector gives -/

section
variable {d : Dev} {r : Req} {n : LoomId} {k : Nat} (hn : r.src = .cache n) (he : (d.ent r.line.toNat).sec k = ⟨.excl, n.toNat⟩)
include hn he

/-- The data of a WriteBack is written, and its sector is free. -/
theorem Dev.finishSector_writeBack (hkind : r.kind = .writeBack) : Dev.finishSector (r.opening true) {} ({}, d) k =
    (({} : Grant).put k (BitVec.allOnes 64) (Line.sector r.data k) (r.poison.getLsbD k),
     d.setEnt r.line.toNat ((d.ent r.line.toNat).setSec k {})) := by
  simp [Dev.finishSector, hkind, hn, he, Agent.tracked, CatEnt.drop]

/-- The data of a WriteClean is written, and the owner stays. -/
theorem Dev.finishSector_writeClean (hkind : r.kind = .writeClean) : Dev.finishSector (r.opening false) {} ({}, d) k =
    (({} : Grant).put k (BitVec.allOnes 64) (Line.sector r.data k) (r.poison.getLsbD k), d) := by
  simp [Dev.finishSector, hkind, hn, he, Agent.tracked]

/-- A CleanEvict writes nothing, and its sector is free. -/
theorem Dev.finishSector_cleanEvict (hkind : r.kind = .cleanEvict) : Dev.finishSector (r.opening false) {} ({}, d) k =
    ({}, d.setEnt r.line.toNat ((d.ent r.line.toNat).setSec k {})) := by
  simp [Dev.finishSector, hkind, hn, he, Agent.tracked, CatEnt.drop]

end

theorem fullMask_ne_zero : ∀ k < 4, fullMask k ≠ 0 := by decide

/-- One sector whose data is poisoned or not, as a set. -/
theorem poison_single : ∀ (p : BitVec 4), ∀ k < 4, (if p.getLsbD k then setBit4 0 k else 0) = p &&& ((1 : BitVec 4) <<< k) := by
  decide

/-- What a grant of one whole sector writes. -/
theorem Grant.put_whole {k : Nat} (hk : k < 4) (s : Sector) (p : BitVec 4) :
    ({} : Grant).put k (BitVec.allOnes 64) s (p.getLsbD k) =
      { wmask := fullMask k, wdata := Line.setSector 0 k s, wpoison := p &&& ((1 : BitVec 4) <<< k) } := by
  rw [← poison_single p k hk]
  simp [Grant.put, fullMask]

/-- A sector whose grant is one whole sector to write is written. -/
theorem Dev.finish_whole {d e : Dev} {r : Req} {reserved : Bool} {k : Nat} (hg : r.kind.gives = true) (hk : k < 4)
    (hs : r.sects = (1 : BitVec 4) <<< k) (h : Dev.finishSector (r.opening reserved) {} ({}, d) k =
      (({} : Grant).put k (BitVec.allOnes 64) (Line.sector r.data k) (r.poison.getLsbD k), e)) :
    d.finish (r.opening reserved) [k] = (({} : Grant).put k (BitVec.allOnes 64) (Line.sector r.data k) (r.poison.getLsbD k),
      e.writeLine r.line.toNat (fullMask k) (Line.setSector 0 k (Line.sector r.data k)) (r.poison &&& r.sects) false) := by
  rw [Dev.finish_gives hg _ _ _ h, Grant.put_whole hk, if_neg (fullMask_ne_zero k hk), hs]

/-- The command of a request that gives, by what its home decides. -/
theorem exec_gives {s : State} {i : Instr} {f : Dev → Dev} {r : Req} {n : LoomId} {k : Nat} {reserved : Bool} {g : Grant} {e : Dev}
    (hi : exec i s = s.run f) (hf : f s.dev = s.dev.reqIn r) (hlive : s.dev.live = true) (hg : r.kind.gives = true)
    (ha : s.dev.Accepts r) (hn : r.src = .cache n) (hk : k < 4) (hs : r.sects = (1 : BitVec 4) <<< k)
    (hw : reserved = decide (r.kind = .writeBack)) (h : (s.dev.opened r reserved).finish (r.opening reserved) [k] = (g, e))
    (hsects : g.sects = 0) (hcomp : g.comp = 0) : exec i s = s.settling
      (((if r.kind.comped then e.sendMsg { kind := .comp, agent := r.src, tag := r.tag, line := r.line, sects := r.sects }
        else e).endTxn r.line.toNat).serves r.line.toNat) := by
  rw [hi, State.run_live f hlive, hf, Dev.reqIn_gives hg ha hn hk hs hw h hsects hcomp, Dev.finished_gives hg]

/-- A WriteBack that is under way reaches its home. -/
theorem Dev.writeBack_sent {d : Dev} {r : Req} (hkind : r.kind = .writeBack) (hin : r ∈ d.weave.reqs) :
    d.writeBack r = d.reqIn r := by
  unfold Dev.writeBack
  rw [if_neg (not_not.2 hkind), if_pos (List.contains_iff_mem.2 hin)]

/-- Settles O25: each kind by what its sector grants. -/
theorem ownerWrites : Obligations.OwnerWrites := by
  unfold Obligations.OwnerWrites
  intro s r n k hlive ha hn hk hs hin d line e comp stored ends he
  have owns (reserved : Bool) : ((d.opened r reserved).ent r.line.toNat).sec k = ⟨.excl, n.toNat⟩ := he
  refine ⟨fun hkind => ?_, fun hkind => ?_, fun hkind => ?_⟩
  · have hg : r.kind.gives = true := by rw [hkind]; rfl
    have hfinish := Dev.finish_whole hg hk hs (Dev.finishSector_writeBack hn (owns true) hkind)
    rw [exec_gives (f := fun d => d.writeBack r) rfl (Dev.writeBack_sent hkind hin) hlive hg ha hn hk hs (by rw [hkind]; rfl) hfinish
      rfl rfl, hkind]
    rfl
  · have hg : r.kind.gives = true := by rw [hkind]; rfl
    have hfinish := Dev.finish_whole hg hk hs (Dev.finishSector_writeClean hn (owns false) hkind)
    rw [exec_gives (f := fun d => d.onKind r .writeClean) rfl (if_pos hkind) hlive hg ha hn hk hs (by rw [hkind]; rfl) hfinish
      rfl rfl, hkind]
    rfl
  · have hg : r.kind.gives = true := by rw [hkind]; rfl
    have hfinish := Dev.finish_gives hg _ _ _ (Dev.finishSector_cleanEvict hn (owns false) hkind)
    rw [exec_gives (f := fun d => d.onKind r .cleanEvict) rfl (if_pos hkind) hlive hg ha hn hk hs (by rw [hkind]; rfl) hfinish
      rfl rfl, hkind]
    rfl

end Sys2Proof.Machine
end

section
/-! SUPPORT. Requests for one sector that no cache holds: the home asks nobody, decides at once and answers (R175, Table 7-8). -/

namespace Sys2Proof.Machine

/-! ### What the reads and writes of a home leave alone -/

/-- The same device but for the tiers, registers, reports and draws of free values. -/
def SameBeside (d e : Dev) : Prop := ∃ t r q f, e = { d with tiers := t, regs := r, reports := q, free := f }

theorem SameBeside.refl (d : Dev) : SameBeside d d := ⟨d.tiers, d.regs, d.reports, d.free, rfl⟩

theorem SameBeside.weave {d e : Dev} (h : SameBeside d e) : e.weave = d.weave := by obtain ⟨t, r, q, f, rfl⟩ := h; rfl

theorem SameBeside.heads {d e : Dev} (h : SameBeside d e) : e.heads = d.heads := by obtain ⟨t, r, q, f, rfl⟩ := h; rfl

theorem SameBeside.withTiers {d e : Dev} (h : SameBeside d e) (t : Tiers) : SameBeside d { e with tiers := t } := by
  obtain ⟨_, r, q, f, rfl⟩ := h; exact ⟨t, r, q, f, rfl⟩

theorem SameBeside.injectAt {d e : Dev} (p : Phys) (a : Option Nat) (h : SameBeside d e) : SameBeside d (e.injectAt p a).2 := by
  obtain ⟨t, r, q, f, rfl⟩ := h
  unfold Dev.injectAt
  split
  · exact ⟨t, r, q, f, rfl⟩
  · dsimp only; split <;> exact ⟨t, _, _, f, rfl⟩

theorem SameBeside.inject {d e : Dev} (a : Nat) (h : SameBeside d e) : SameBeside d (e.inject a) := by
  unfold Dev.inject
  split
  · exact h
  · exact (h.injectAt _ _).withTiers _

/-- Reads and writes of a home change nothing else. -/
theorem homeKeeps_sameBeside (d : Dev) : HomeKeeps (SameBeside d) where
  write a s p h := by
    unfold Dev.dramWrite
    split
    · exact h.withTiers _
    · exact SameBeside.inject a ((h.withTiers _).withTiers _)
  event k a b c s t h := by obtain ⟨u, r, q, f, rfl⟩ := h; exact ⟨u, r, _, f, rfl⟩
  draw h := by obtain ⟨t, r, q, f, rfl⟩ := h; exact ⟨t, r, q, _, rfl⟩
  heat a h := h.withTiers _
  way k l h := h.withTiers _

/-- A read of a line leaves the catalogue. -/
theorem Dev.readLine_ent (d : Dev) (line : Nat) (sects : BitVec 4) (l : Nat) : (d.readLine line sects).2.2.ent l = d.ent l := by
  have h : SameBeside d (d.readLine line sects).2.2 := (homeKeeps_sameBeside d).readLine (SameBeside.refl d) line sects
  unfold Dev.ent
  rw [h.weave]

/-! ### A transaction that asks nobody -/

theorem setBit4_zero (k : Nat) : setBit4 0 k = (1 : BitVec 4) <<< k := BitVec.zero_or

theorem one_shift_ne_zero : ∀ k < 4, (1 : BitVec 4) <<< k ≠ 0 := by decide

/-- The command of a request for populated memory, by what its home does. -/
theorem exec_home {s : State} {i : Instr} {f : Dev → Dev} {r : Req} {e : Dev} (hi : exec i s = s.run f)
    (hf : f s.dev = s.dev.reqIn r) (hlive : s.dev.live = true) (ha : s.dev.Accepts r)
    (h : (s.dev.takeReq r).homeMem r = e.releaseLine r.line.toNat) : exec i s = s.settling (e.serves r.line.toNat) := by
  rw [hi, State.run_live f hlive, hf, Dev.reqIn_accepts ha, h]
  rfl

theorem Dev.Accepts.room {d : Dev} {r : Req} (ha : d.Accepts r) : (d.takeReq r).Room r := by
  obtain ⟨-, -, hroom⟩ := ha
  exact Dev.takeReq_room.2 hroom

/-- The device in which the transaction of a request is open, with an entry where the request grants a tracked copy. -/
def Dev.entered (d : Dev) (r : Req) : Dev :=
  if r.wantsEntry then (d.setTxn r.line.toNat (r.opening false)).openEnt r.line.toNat else d.setTxn r.line.toNat (r.opening false)

section
variable {d e : Dev} {r : Req} {g : Grant} {k : Nat} (hk : k < 4) (hs : r.sects = (1 : BitVec 4) <<< k)
include hk hs

/-- A request whose one sector needs no snoop is decided and answered at once. -/
theorem Dev.resolve_alone (hneed : need r (d.ent r.line.toNat) k = {}) (hf : d.finish (r.opening false) [k] = (g, e)) :
    d.resolve (r.opening false) = (e.answer r g).finished { r.opening false with todo := 0 } := by
  have hks : sectList r.sects = [k] := by rw [hs, sectList_single k hk]
  simp [Dev.resolve, hks, hneed, Dev.snoopNeed, hf]

/-- A home that can take such a request decides it, answers, and serves what waits. -/
theorem Dev.homeMem_alone (hroom : d.Room r) (hwb : r.kind ≠ .writeBack)
    (hfull : (d.setTxn r.line.toNat (r.opening false)).setFull (r.opening false) = false)
    (hneed : need r ((d.entered r).ent r.line.toNat) k = {}) (hf : (d.entered r).finish (r.opening false) [k] = (g, e)) :
    d.homeMem r = ((e.answer r g).finished { r.opening false with todo := 0 }).releaseLine r.line.toNat := by
  have henter : d.startTxn r false = (d.entered r).resolve (r.opening false) := by
    show Dev.enter (d.setTxn r.line.toNat (r.opening false)) (r.opening false) = _
    unfold Dev.enter
    rw [hfull]
    rfl
  rw [Dev.homeMem_room hroom (Dev.recast_kind d hwb) hwb, henter, Dev.resolve_alone hk hs hneed hf]

end

/-- The transaction of a request that needs no entry finds its set as it is. -/
theorem Dev.setFull_untracked {d : Dev} {r : Req} (h : r.wantsEntry = false) : d.setFull (r.opening false) = false := by
  simp [Dev.setFull, h]

/-- A set with a way free is not full. -/
theorem Dev.setFull_free {d : Dev} {r : Req} (h : (d.setEnts r.line.toNat).length < d.asm.catWays) :
    d.setFull (r.opening false) = false := by
  simp [Dev.setFull, h]

/-! ### What the home decides from -/

section
variable {r : Req} {k : Nat}

/-- Where no stored data is needed, none is read. -/
theorem Dev.source_unread {d : Dev} (h : (r.opening false).reads (d.ent r.line.toNat) k = false) :
    d.source (r.opening false) [k] = ({}, d) := by
  simp [Dev.source, h]

/-- Where the stored data of a sector is needed, its line is read, here without poison. -/
theorem Dev.source_read {d : Dev} (hk : k < 4) (hs : r.sects = (1 : BitVec 4) <<< k)
    (h : (r.opening false).reads (d.ent r.line.toNat) k = true) (hp : (d.readLine r.line.toNat r.sects).2.1 = 0) :
    d.source (r.opening false) [k] =
      ({ data := (d.readLine r.line.toNat r.sects).1 }, (d.readLine r.line.toNat r.sects).2.2) := by
  have hne : r.sects ≠ 0 := hs ▸ one_shift_ne_zero k hk
  have hneed : ([k].filter ((r.opening false).reads (d.ent r.line.toNat))).foldl setBit4 (0 : BitVec 4) = r.sects := by
    rw [List.filter_cons_of_pos h, List.filter_nil, List.foldl_cons, List.foldl_nil, setBit4_zero, hs]
  unfold Dev.source
  dsimp only
  rw [Req.opening_req, hneed, if_neg hne, hp]
  simp

/-- One sector is decided from its source, and what results is written. -/
theorem Dev.finish_single {d d' e : Dev} {g : Grant} {src : Src} (hsrc : d.source (r.opening false) [k] = (src, d'))
    (h : Dev.finishSector (r.opening false) src ({}, d') k = (g, e)) : d.finish (r.opening false) [k] =
      (g, if g.wmask = 0 then e else e.writeLine r.line.toNat g.wmask g.wdata g.wpoison g.hint) := by
  have hdead : ([k].filter fun j => (r.opening false).dead.getLsbD j).foldl setBit4 (0 : BitVec 4) = 0 := by simp
  unfold Dev.finish
  dsimp only
  rw [hdead, if_pos rfl, hsrc, List.foldl_cons, List.foldl_nil, h, Req.opening_req]

/-- Where nothing results to be written, the home only decides. -/
theorem Dev.finish_unwritten {d d' e : Dev} {g : Grant} {src : Src} (hsrc : d.source (r.opening false) [k] = (src, d'))
    (h : Dev.finishSector (r.opening false) src ({}, d') k = (g, e)) (hw : g.wmask = 0) :
    d.finish (r.opening false) [k] = (g, e) := by
  rw [Dev.finish_single hsrc h, if_pos hw]

end

/-! ### A request of a cache -/

section
variable {r : Req} {n : LoomId} {k : Nat} (hn : r.src = .cache n)
include hn

/-- A tracked copy that is granted keeps its line busy until the CompAck (R175). -/
theorem Dev.finished_acked (d : Dev) (h : r.kind.acked = true) : d.finished { r.opening false with todo := 0 } =
    d.setTxn r.line.toNat { req := r, phase := .ack, todo := 0 } := by
  simp [Dev.finished, h, hn, Agent.tracked, Req.opening]

theorem Req.wantsEntry_acked (h : r.kind.acked = true) : r.wantsEntry = true := by
  simp [Req.wantsEntry, h, hn, Agent.tracked]

end

theorem Fmap.get_of_find_none {α : Type} {z : α} {m : Fmap α} {i : Nat} (h : Fmap.find m i = none) : Fmap.get z m i = z := by
  induction m with
  | nil => rfl
  | cons c m ih =>
    obtain ⟨j, v⟩ := c
    by_cases hi : i = j
    · simp [Fmap.find, hi] at h
    · simp only [Fmap.find, Fmap.get, hi, if_false] at h ⊢
      exact ih h

/-- A line without an entry is cached nowhere. -/
theorem Dev.ent_unlisted {d : Dev} {line : Nat} (h : Fmap.find d.weave.cat line = none) : d.ent line = {} :=
  Fmap.get_of_find_none h

theorem CatEnt.sec_none (w k : Nat) : CatEnt.sec { way := w } k = {} := by
  unfold CatEnt.sec
  split <;> rfl

/-- It gets an entry that lists no sector (R183). -/
theorem Dev.openEnt_sec {d : Dev} {line : Nat} (h : Fmap.find d.weave.cat line = none) (k : Nat) :
    ((d.openEnt line).ent line).sec k = {} := by
  unfold Dev.openEnt
  rw [h]
  dsimp only [Option.isSome_none]
  rw [if_neg Bool.false_ne_true]
  split
  · unfold Dev.ent
    rw [Fmap.get_put_same]
    exact CatEnt.sec_none _ k
  · rw [Dev.ent_unlisted h]
    exact CatEnt.sec_none 0 k

end Sys2Proof.Machine
end

section
/-! SUPPORT. Requests of a loom's cache for a sector that no cache holds (R175, Table 7-8). -/

namespace Sys2Proof.Machine

/-! ### What is granted from a sector that no cache holds -/

/-- No snoop is needed for it. -/
theorem need_uncached (r : Req) {e : CatEnt} {k : Nat} (h : e.sec k = {}) : need r e k = {} := by
  unfold need holds
  simp only [h]
  split <;> simp

/-- Nobody is a holder of it. -/
theorem holds_uncached {e : CatEnt} {k : Nat} (a : Option Nat) (h : e.sec k = {}) : holds e k a = false := by
  unfold holds
  cases a <;> simp [h]

/-- The grant of one sector's data, in E or M where the last two say so. -/
def Grant.ofData (k : Nat) (v : Sector) (excl own : BitVec 4) : Grant :=
  { data := Line.setSector 0 k v, sects := (1 : BitVec 4) <<< k, excl := excl, own := own }

section
variable {d : Dev} {r : Req} {n : LoomId} {k : Nat} (hn : r.src = .cache n)
include hn

theorem Dev.finishSector_readShared (v : Line) (he : (d.ent r.line.toNat).sec k = {}) (hkind : r.kind = .readShared) :
    Dev.finishSector (r.opening false) { data := v } ({}, d) k =
      (Grant.ofData k (Line.sector v k) ((1 : BitVec 4) <<< k) 0,
       d.setEnt r.line.toNat ((d.ent r.line.toNat).giveExcl k n.toNat)) := by
  have hlt : n.toNat < 4096 := n.isLt
  simp [Dev.finishSector, hkind, hn, he, Agent.tracked, hlt, Grant.ofData]

theorem Dev.finishSector_readOwn (v : Line) (hkind : r.kind = .readOwn) :
    Dev.finishSector (r.opening false) { data := v } ({}, d) k =
      (Grant.ofData k (Line.sector v k) 0 ((1 : BitVec 4) <<< k),
       d.setEnt r.line.toNat ((d.ent r.line.toNat).giveExcl k n.toNat)) := by
  simp [Dev.finishSector, hkind, hn, Agent.tracked, Grant.ofData]

/-- An Upgrade of a loom that holds nothing is a ReadOwn. -/
theorem Dev.finishSector_upgrade (v : Line) (he : (d.ent r.line.toNat).sec k = {}) (hkind : r.kind = .upgrade) :
    Dev.finishSector (r.opening false) { data := v } ({}, d) k =
      (Grant.ofData k (Line.sector v k) 0 ((1 : BitVec 4) <<< k),
       d.setEnt r.line.toNat ((d.ent r.line.toNat).giveExcl k n.toNat)) := by
  simp [Dev.finishSector, hkind, hn, Agent.tracked, Grant.ofData, holds_uncached _ he]

theorem Dev.finishSector_ownNoData (hkind : r.kind = .ownNoData) : Dev.finishSector (r.opening false) {} ({}, d) k =
    ({ comp := (1 : BitVec 4) <<< k }, d.setEnt r.line.toNat ((d.ent r.line.toNat).giveExcl k n.toNat)) := by
  simp [Dev.finishSector, hkind, hn, Agent.tracked]

end

section
variable {d : Dev} {r : Req} {k : Nat}

theorem Dev.finishSector_readOnce (v : Line) (he : (d.ent r.line.toNat).sec k = {}) (hkind : r.kind = .readOnce) :
    Dev.finishSector (r.opening false) { data := v } ({}, d) k =
      (Grant.ofData k (Line.sector v k) 0 0, d.setEnt r.line.toNat (d.ent r.line.toNat)) := by
  simp [Dev.finishSector, hkind, he, Grant.ofData]

/-- An atomic writes its result and answers the old value (R187). -/
theorem Dev.finishSector_atomic (v : Line) {op : AtomOp} (hkind : r.kind = .atomic op) :
    Dev.finishSector (r.opening false) { data := v } ({}, d) k =
      ({ ({} : Grant).put k (BitVec.allOnes 64) (atomSector r op (Line.sector v k)).1 false with
          data := (atomSector r op (Line.sector v k)).2.setWidth 2048, sects := (1 : BitVec 4) <<< k },
       d.setEnt r.line.toNat ((d.ent r.line.toNat).drop k)) := by
  simp [Dev.finishSector, hkind, Grant.put]

/-- A Write without a placement hint writes the bytes of its mask. -/
theorem Dev.finishSector_write (hkind : r.kind = .write) (hplace : r.place = 0) :
    Dev.finishSector (r.opening false) {} ({}, d) k =
      (if maskSector r.mask k = 0 then {}
        else ({} : Grant).put k (maskSector r.mask k) (Line.sector r.data k) (r.poison.getLsbD k),
       d.setEnt r.line.toNat ((d.ent r.line.toNat).drop k)) := by
  by_cases hm : maskSector r.mask k = 0#64
  · simp [Dev.finishSector, Req.full, hkind, hplace, hm]
  · simp [Dev.finishSector, Req.full, hkind, hplace, hm]
    rfl

/-- A ReduceWrite of a sector without poison adds, and writes what has changed (R243). -/
theorem Dev.finishSector_reduceWrite (v : Line) (hkind : r.kind = .reduceWrite) (hpoison : r.poison = 0) {x : Sector × Dev}
    (hx : (d.setEnt r.line.toNat ((d.ent r.line.toNat).drop k)).reduceSector (256 * r.line.toNat + 64 * k) (Line.sector v k)
      false (maskSector r.mask k) (Line.sector r.data k) = x) :
    Dev.finishSector (r.opening false) { data := v } ({}, d) k =
      (if x.1 = Line.sector v k then {} else ({} : Grant).put k (BitVec.allOnes 64) x.1 false, x.2) := by
  simp [Dev.finishSector, hkind, hpoison, hx]

end

/-! ### The answer -/

/-- A grant of data for the request's sectors is answered with data. -/
theorem Dev.answer_data (d : Dev) {r : Req} {g : Grant} (hne : r.sects ≠ 0) (hsects : g.sects = r.sects) (hcomp : g.comp = 0) :
    d.answer r g = d.sendMsg { kind := .data, agent := r.src, tag := r.tag, line := r.line, sects := r.sects, data := g.data,
                               excl := g.excl, own := g.own, poison := g.poison } := by
  unfold Dev.answer
  rw [hsects, if_pos hne, if_neg (not_not.2 hcomp)]

/-- A grant of ownership without data is answered with a Comp. -/
theorem Dev.answer_comp (d : Dev) {r : Req} {g : Grant} (hne : r.sects ≠ 0) (hsects : g.sects = 0) (hcomp : g.comp = r.sects) :
    d.answer r g =
      d.sendMsg { kind := .comp, agent := r.src, tag := r.tag, line := r.line, sects := r.sects, own := r.sects } := by
  unfold Dev.answer
  rw [hcomp, if_neg (not_not.2 hsects), if_pos hne]

theorem Req.sects_ne_zero {r : Req} {k : Nat} (hk : k < 4) (hs : r.sects = (1 : BitVec 4) <<< k) : r.sects ≠ 0 :=
  hs ▸ one_shift_ne_zero k hk

/-! ### Tracked requests -/

section
variable {s : State} {r : Req} {n : LoomId} {k : Nat} (hlive : s.dev.live = true) (ha : s.dev.Accepts r) (hn : r.src = .cache n)
  (hk : k < 4) (hs : r.sects = (1 : BitVec 4) <<< k) (hnone : Fmap.find s.dev.weave.cat r.line.toNat = none)
  (hfree : (s.dev.setEnts r.line.toNat).length < s.dev.asm.catWays)
include hlive ha hn hk hs hnone hfree

/-- A request for a tracked copy of a sector that no cache holds, by what its home decides. -/
theorem exec_tracked {i : Instr} {kind : ReqKind} {g : Grant} {e : Dev} (hi : exec i s = s.run fun d => d.onKind r kind)
    (hkind : r.kind = kind) (hack : kind.acked = true)
    (hf : ((s.dev.opened r false).openEnt r.line.toNat).finish (r.opening false) [k] = (g, e)) :
    exec i s = s.settling (((e.answer r g).setTxn r.line.toNat { req := r, phase := .ack, todo := 0 }).serves r.line.toNat) := by
  subst hkind
  have hwb : r.kind ≠ .writeBack := by rintro h; rw [h] at hack; cases hack
  have hent : (s.dev.takeReq r).entered r = (s.dev.opened r false).openEnt r.line.toNat :=
    if_pos (Req.wantsEntry_acked hn hack)
  have hhome := Dev.homeMem_alone hk hs ha.room hwb (Dev.setFull_free hfree)
    (need_uncached r (hent ▸ Dev.openEnt_sec (d := s.dev.opened r false) hnone k)) (hent ▸ hf)
  rw [Dev.finished_acked hn _ hack] at hhome
  exact exec_home hi (if_pos rfl) hlive ha hhome

/-- One that needs the stored data, and is granted it. -/
theorem exec_tracked_data {i : Instr} {kind : ReqKind} {excl own : BitVec 4} (hi : exec i s = s.run fun d => d.onKind r kind)
    (hkind : r.kind = kind) (hack : kind.acked = true)
    (hreads : ∀ e : CatEnt, e.sec k = {} → (r.opening false).reads e k = true)
    (hp : (((s.dev.opened r false).openEnt r.line.toNat).readLine r.line.toNat r.sects).2.1 = 0)
    (hg : ∀ d : Dev, (d.ent r.line.toNat).sec k = {} → ∀ v, Dev.finishSector (r.opening false) { data := v } ({}, d) k =
      (Grant.ofData k (Line.sector v k) excl own,
       d.setEnt r.line.toNat ((d.ent r.line.toNat).giveExcl k n.toNat))) :
    let d1 := (s.dev.opened r false).openEnt r.line.toNat
    let y := d1.readLine r.line.toNat r.sects
    exec i s = s.settling ((((y.2.2.setEnt r.line.toNat ((d1.ent r.line.toNat).giveExcl k n.toNat)).sendMsg
      { kind := .data, agent := r.src, tag := r.tag, line := r.line, sects := r.sects,
        data := Line.setSector 0 k (Line.sector y.1 k), excl := excl, own := own }).setTxn r.line.toNat
          { req := r, phase := .ack, todo := 0 }).serves r.line.toNat) := by
  intro d1 y
  have hsec : (d1.ent r.line.toNat).sec k = {} := Dev.openEnt_sec (d := s.dev.opened r false) hnone k
  have hent : y.2.2.ent r.line.toNat = d1.ent r.line.toNat := Dev.readLine_ent d1 _ _ _
  have hf := Dev.finish_unwritten (Dev.source_read hk hs (hreads _ hsec) hp) (hg y.2.2 (hent.symm ▸ hsec) y.1) rfl
  rw [hent] at hf
  rw [exec_tracked hlive ha hn hk hs hnone hfree hi hkind hack hf, Dev.answer_data _ (Req.sects_ne_zero hk hs) hs.symm rfl]
  rfl

end

/-- Settles O23: three kinds that read, and OwnNoData. -/
theorem trackedRequests : Obligations.TrackedRequests := by
  unfold Obligations.TrackedRequests
  intro s r n k hlive ha hn hk hs d line d1 d2 e wait m hnone hfree
  refine ⟨fun hp => ⟨fun hkind => ?_, fun hkind => ?_, fun hkind => ?_⟩, fun hkind => ?_⟩
  · exact exec_tracked_data (excl := r.sects) (own := 0) hlive ha hn hk hs hnone hfree rfl hkind rfl
      (fun e he => by simp [Txn.reads, hkind]) hp (fun d he v => by rw [hs]; exact Dev.finishSector_readShared hn v he hkind)
  · exact exec_tracked_data (excl := 0) (own := r.sects) hlive ha hn hk hs hnone hfree rfl hkind rfl
      (fun e he => by simp [Txn.reads, hkind]) hp (fun d he v => by rw [hs]; exact Dev.finishSector_readOwn hn v hkind)
  · exact exec_tracked_data (excl := 0) (own := r.sects) hlive ha hn hk hs hnone hfree rfl hkind rfl
      (fun e he => by simp [Txn.reads, hkind, holds_uncached _ he]) hp
      (fun d he v => by rw [hs]; exact Dev.finishSector_upgrade hn v he hkind)
  · have hunread : (r.opening false).reads (d1.ent line) k = false := by simp [Txn.reads, hkind]
    have hf := Dev.finish_unwritten (Dev.source_unread hunread) (Dev.finishSector_ownNoData hn hkind) rfl
    rw [exec_tracked hlive ha hn hk hs hnone hfree (kind := .ownNoData) rfl hkind rfl hf,
      Dev.answer_comp _ (Req.sects_ne_zero hk hs) rfl hs.symm]
    rfl

end Sys2Proof.Machine
end

section
/-! SUPPORT. Requests of cacheless agents for a sector that no cache holds (R186, R187, R243, Table 7-8). -/

namespace Sys2Proof.Machine

/-! ### Requests without a tracked copy -/

/-- Requests that end with their answer: reads of a value, atomics, writes without a placement hint. -/
def Req.ends (r : Req) : Prop := r.kind.acked = false ∧ r.kind ≠ .writeBack ∧ (r.kind = .write → r.place = 0)

section
variable {r : Req} (hends : r.ends)
include hends

theorem Req.wantsEntry_ends : r.wantsEntry = false := by
  obtain ⟨hack, -, -⟩ := hends
  simp [Req.wantsEntry, hack]

/-- Its transaction ends, after a Comp where it has one. -/
theorem Dev.finished_ends (d : Dev) : d.finished { r.opening false with todo := 0 } =
    (if r.kind.comped then d.sendMsg { kind := .comp, agent := r.src, tag := r.tag, line := r.line, sects := r.sects }
      else d).endTxn r.line.toNat := by
  obtain ⟨hack, -, hplace⟩ := hends
  have hpush : (decide (r.kind = .write) && decide (r.place.toNat / 2 ^ 12 = 1)) = false := by
    by_cases hw : r.kind = .write
    · rw [hplace hw]; simp
    · simp [hw]
  unfold Dev.finished
  dsimp only
  rw [Req.opening_req, hack, hpush]
  rfl

section
variable {d e : Dev} {g : Grant} {k : Nat} (hroom : d.Room r) (hk : k < 4) (hs : r.sects = (1 : BitVec 4) <<< k)
  (hnone : Fmap.find d.weave.cat r.line.toNat = none)
  (hf : (d.setTxn r.line.toNat (r.opening false)).finish (r.opening false) [k] = (g, e))
include hroom hk hs hnone hf

/-- Its home decides it, answers, ends it and serves what waits. -/
theorem Dev.homeMem_ends :
    d.homeMem r = ((e.answer r g).finished { r.opening false with todo := 0 }).releaseLine r.line.toNat := by
  have hwants := Req.wantsEntry_ends hends
  have hent : d.entered r = d.setTxn r.line.toNat (r.opening false) := if_neg (by simp [hwants])
  have hsec : ((d.setTxn r.line.toNat (r.opening false)).ent r.line.toNat).sec k = {} :=
    (congrArg (fun e => CatEnt.sec e k) (Dev.ent_unlisted hnone)).trans (CatEnt.sec_none 0 k)
  obtain ⟨-, hwb, -⟩ := hends
  exact Dev.homeMem_alone hk hs hroom hwb (Dev.setFull_untracked hwants) (need_uncached r (hent ▸ hsec)) (hent ▸ hf)

/-- One that is answered with data. -/
theorem Dev.homeMem_data (hcomped : r.kind.comped = false) (hsects : g.sects = r.sects) (hcomp : g.comp = 0) : d.homeMem r =
    ((e.sendMsg { kind := .data, agent := r.src, tag := r.tag, line := r.line, sects := r.sects, data := g.data,
                  excl := g.excl, own := g.own, poison := g.poison }).endTxn r.line.toNat).releaseLine r.line.toNat := by
  rw [Dev.homeMem_ends hends hroom hk hs hnone hf, Dev.finished_ends hends, hcomped, if_neg Bool.false_ne_true,
    Dev.answer_data _ (Req.sects_ne_zero hk hs) hsects hcomp]

/-- One that is answered with a Comp. -/
theorem Dev.homeMem_comp (hcomped : r.kind.comped = true) (hsects : g.sects = 0) (hcomp : g.comp = 0) : d.homeMem r =
    ((e.sendMsg { kind := .comp, agent := r.src, tag := r.tag, line := r.line, sects := r.sects }).endTxn
      r.line.toNat).releaseLine r.line.toNat := by
  rw [Dev.homeMem_ends hends hroom hk hs hnone hf, Dev.finished_ends hends, hcomped, if_pos rfl, Dev.answer_none _ _ hsects hcomp]

end

end

/-! ### What is written -/

/-- A grant of one sound sector to write. -/
theorem Grant.put_sound {k : Nat} (hk : k < 4) (s : Sector) :
    ({} : Grant).put k (BitVec.allOnes 64) s false = { wmask := fullMask k, wdata := Line.setSector 0 k s } := by
  simpa using Grant.put_whole hk s 0

/-- A grant of some bytes of a sector to write. -/
theorem Grant.put_bytes {k : Nat} (hk : k < 4) (m : BitVec 64) (s : Sector) (p : BitVec 4) :
    ({} : Grant).put k m s (p.getLsbD k) =
      { wmask := m.setWidth 256 <<< (64 * k), wdata := Line.setSector 0 k s, wpoison := p &&& ((1 : BitVec 4) <<< k) } := by
  rw [← poison_single p k hk]
  simp [Grant.put]

/-- The bytes of a sector are bytes of its line. -/
theorem maskSector_shiftLeft {k : Nat} (hk : k < 4) (m : BitVec 64) : maskSector (m.setWidth 256 <<< (64 * k)) k = m := by
  unfold maskSector
  ext i hi
  have hb : 64 * k + i < 256 := by omega
  simp [hb, hi]

theorem byteMask_eq_zero {k : Nat} (hk : k < 4) {m : BitVec 64} (h : m.setWidth 256 <<< (64 * k) = 0) : m = 0 := by
  rw [← maskSector_shiftLeft hk m, h]
  exact BitVec.extractLsb'_zero

/-! ### Cacheless requests, one by one -/

section
variable {s : State} {r : Req} {n : LoomId} {k : Nat} (hlive : s.dev.live = true) (hn : r.src = .treadle n) (hk : k < 4)
  (hs : r.sects = (1 : BitVec 4) <<< k)
include hlive hn hk hs

section
variable (ha : s.dev.Accepts r) (hnone : Fmap.find s.dev.weave.cat r.line.toNat = none)
  (hp : ((s.dev.opened r false).readLine r.line.toNat r.sects).2.1 = 0)
include ha hnone hp

/-- ReadOnce is answered with the data, and the line stays without a record. -/
theorem exec_readOnce (hkind : r.kind = .readOnce) :
    let y := (s.dev.opened r false).readLine r.line.toNat r.sects
    exec (.readOnce r) s = s.settling ((((y.2.2.setEnt r.line.toNat {}).sendMsg
      { kind := .data, agent := r.src, tag := r.tag, line := r.line, sects := r.sects,
        data := Line.setSector 0 k (Line.sector y.1 k) }).endTxn r.line.toNat).serves r.line.toNat) := by
  intro y
  have hent : y.2.2.ent r.line.toNat = {} := (Dev.readLine_ent _ _ _ _).trans (Dev.ent_unlisted hnone)
  have hreads : (r.opening false).reads ((s.dev.opened r false).ent r.line.toNat) k = true := by simp [Txn.reads, hkind, hn]
  have hf := Dev.finish_unwritten (Dev.source_read hk hs hreads hp)
    (Dev.finishSector_readOnce y.1 (hent ▸ CatEnt.sec_none 0 k) hkind) rfl
  have hends : r.ends := ⟨by rw [hkind]; rfl, by simp [hkind], by simp [hkind]⟩
  rw [hent] at hf
  have hhome := Dev.homeMem_data hends ha.room hk hs hnone hf (by rw [hkind]; rfl) hs.symm rfl
  exact exec_home (f := fun d => d.onKind r .readOnce) rfl (if_pos hkind) hlive ha hhome

omit hn in
/-- An atomic writes its result and answers the old value (R187). -/
theorem exec_atomic {op : AtomOp} (hkind : r.kind = .atomic op) :
    let y := (s.dev.opened r false).readLine r.line.toNat r.sects
    let x := atomSector r op (Line.sector y.1 k)
    exec (.atomic r) s = s.settling (((((y.2.2.setEnt r.line.toNat (({} : CatEnt).setSec k {})).writeLine r.line.toNat (fullMask k)
      (Line.setSector 0 k x.1) 0 false).sendMsg
        { kind := .data, agent := r.src, tag := r.tag, line := r.line, sects := r.sects,
          data := x.2.setWidth 2048 }).endTxn r.line.toNat).serves r.line.toNat) := by
  intro y x
  have hent : y.2.2.ent r.line.toNat = {} := (Dev.readLine_ent _ _ _ _).trans (Dev.ent_unlisted hnone)
  have hreads : (r.opening false).reads ((s.dev.opened r false).ent r.line.toNat) k = true := by simp [Txn.reads, hkind]
  have hf := Dev.finish_single (Dev.source_read hk hs hreads hp) (Dev.finishSector_atomic y.1 hkind)
  have hends : r.ends := ⟨by rw [hkind]; rfl, by simp [hkind], by simp [hkind]⟩
  have hreq : s.dev.atomicReq r = s.dev.reqIn r := by unfold Dev.atomicReq; rw [hkind]
  rw [hent, Grant.put_sound hk, if_neg (fullMask_ne_zero k hk)] at hf
  have hhome := Dev.homeMem_data hends ha.room hk hs hnone hf (by rw [hkind]; rfl) hs.symm rfl
  exact exec_home (f := fun d => d.atomicReq r) rfl hreq hlive ha hhome

end

omit hn in
/-- Write stores the bytes of its mask, if any, and is answered with a Comp. -/
theorem exec_write (ha : s.dev.Accepts r) (hnone : Fmap.find s.dev.weave.cat r.line.toNat = none) (hkind : r.kind = .write)
    (hplace : r.place = 0) :
    let m := maskSector r.mask k
    let x := (s.dev.opened r false).setEnt r.line.toNat (({} : CatEnt).setSec k {})
    let y := if m = 0 then x else x.writeLine r.line.toNat (m.setWidth 256 <<< (64 * k)) (Line.setSector 0 k (Line.sector r.data k))
      (r.poison &&& r.sects) false
    exec (.write r) s = s.settling (((y.sendMsg
      { kind := .comp, agent := r.src, tag := r.tag, line := r.line, sects := r.sects }).endTxn r.line.toNat).serves r.line.toNat) := by
  intro m x y
  have hent : (s.dev.opened r false).ent r.line.toNat = {} := Dev.ent_unlisted hnone
  have hunread : (r.opening false).reads ((s.dev.opened r false).ent r.line.toNat) k = false := by simp [Txn.reads, hkind]
  have hends : r.ends := ⟨by rw [hkind]; rfl, by simp [hkind], fun _ => hplace⟩
  have hcomp : r.kind.comped = true := by rw [hkind]; rfl
  have hf := Dev.finish_single (Dev.source_unread hunread) (Dev.finishSector_write hkind hplace)
  rw [hent] at hf
  by_cases hm : maskSector r.mask k = 0
  · have hy : y = x := if_pos hm
    rw [if_pos hm, if_pos rfl] at hf
    rw [hy]
    have hhome := Dev.homeMem_comp hends ha.room hk hs hnone hf hcomp rfl rfl
    exact exec_home (f := fun d => d.onKind r .write) rfl (if_pos hkind) hlive ha hhome
  · have hy : y = x.writeLine _ _ _ _ _ := if_neg hm
    rw [if_neg hm, Grant.put_bytes hk, if_neg (fun h => hm (byteMask_eq_zero hk h)), ← hs] at hf
    rw [hy]
    have hhome := Dev.homeMem_comp hends ha.room hk hs hnone hf hcomp rfl rfl
    exact exec_home (f := fun d => d.onKind r .write) rfl (if_pos hkind) hlive ha hhome

end

/-! ### ReduceWrite to a reduction address (R243) -/

/-- A ReduceWrite to a reduction address goes to the home of the memory under it. -/
theorem Dev.homeReq_redAlias {d : Dev} {r : Req} {u : Nat} (hkind : r.kind = .reduceWrite)
    (h : (d.takeReq r).range (256 * r.line.toNat) = .redAlias u) : d.homeReq r =
      ((d.takeReq r).homeMem { r with kind := .reduceWrite, line := BitVec.ofNat 40 (u / 256) }).settleAbsent := by
  have unfolded (f : Dev → Req → Dev) (hf : f = Dev.homeReq) : f d r =
      ((d.takeReq r).homeMem { r with kind := .reduceWrite, line := BitVec.ofNat 40 (u / 256) }).settleAbsent := by
    delta Dev.homeReq at hf
    subst hf
    beta_reduce
    extract_lets +onlyGivenNames e a
    rw [show e.range a = .redAlias u from h, hkind]
  exact unfolded _ rfl

/-- A sum that leaves its sector as it was is not written. -/
theorem Dev.finish_reduceWrite {d : Dev} {r : Req} {k : Nat} (hk : k < 4) (hs : r.sects = (1 : BitVec 4) <<< k)
    (hkind : r.kind = .reduceWrite) (hpoison : r.poison = 0) (hp : (d.readLine r.line.toNat r.sects).2.1 = 0)
    (hnone : Fmap.find d.weave.cat r.line.toNat = none) :
    let y := d.readLine r.line.toNat r.sects
    let z := (y.2.2.setEnt r.line.toNat (({} : CatEnt).setSec k {})).reduceSector (256 * r.line.toNat + 64 * k) (Line.sector y.1 k)
      false (maskSector r.mask k) (Line.sector r.data k)
    ∃ g : Grant, g.sects = 0 ∧ g.comp = 0 ∧ d.finish (r.opening false) [k] =
      (g, if z.1 = Line.sector y.1 k then z.2 else z.2.writeLine r.line.toNat (fullMask k) (Line.setSector 0 k z.1) 0 false) := by
  intro y z
  have hent : y.2.2.ent r.line.toNat = {} := (Dev.readLine_ent _ _ _ _).trans (Dev.ent_unlisted hnone)
  have hreads : (r.opening false).reads (d.ent r.line.toNat) k = true := by simp [Txn.reads, hkind]
  have hf := Dev.finish_single (Dev.source_read hk hs hreads hp)
    (Dev.finishSector_reduceWrite (x := z) y.1 hkind hpoison (by rw [hent]; rfl))
  by_cases hz : z.1 = Line.sector y.1 k
  · rw [if_pos hz, if_pos rfl] at hf
    exact ⟨{}, rfl, rfl, by rw [if_pos hz]; exact hf⟩
  · rw [if_neg hz, Grant.put_sound hk, if_neg (fullMask_ne_zero k hk)] at hf
    exact ⟨_, rfl, rfl, by rw [if_neg hz]; exact hf⟩

/-- A ReduceWrite to a reduction address adds at the home of the memory under it. -/
theorem Dev.onKind_redAlias {d : Dev} {r x : Req} {u k : Nat} (hk : k < 4) (hs : r.sects = (1 : BitVec 4) <<< k)
    (hkind : r.kind = .reduceWrite) (hpoison : r.poison = 0) (hrange : d.range (256 * r.line.toNat) = .redAlias u)
    (harrives : d.reqArrives r = true) (hx : x = { r with kind := .reduceWrite, line := BitVec.ofNat 40 (u / 256) })
    (hroom : (d.takeReq r).Room x) (hnone : Fmap.find d.weave.cat x.line.toNat = none)
    (hp : (((d.takeReq r).setTxn x.line.toNat (x.opening false)).readLine x.line.toNat x.sects).2.1 = 0) :
    let y := ((d.takeReq r).setTxn x.line.toNat (x.opening false)).readLine x.line.toNat x.sects
    let z := (y.2.2.setEnt x.line.toNat (({} : CatEnt).setSec k {})).reduceSector (256 * x.line.toNat + 64 * k) (Line.sector y.1 k)
      false (maskSector x.mask k) (Line.sector x.data k)
    let stored := if z.1 = Line.sector y.1 k then z.2
      else z.2.writeLine x.line.toNat (fullMask k) (Line.setSector 0 k z.1) 0 false
    d.onKind r .reduceWrite = ((stored.sendMsg
      { kind := .comp, agent := x.src, tag := x.tag, line := x.line, sects := x.sects }).endTxn x.line.toNat).serves
        x.line.toNat := by
  intro y z stored
  have hxkind : x.kind = .reduceWrite := by rw [hx]
  have hxs : x.sects = (1 : BitVec 4) <<< k := by rw [hx]; exact hs
  have hxpoison : x.poison = 0 := by rw [hx]; exact hpoison
  have hends : x.ends := ⟨by rw [hxkind]; rfl, by simp [hxkind], by simp [hxkind]⟩
  obtain ⟨g, hsects, hcomp, hf⟩ := Dev.finish_reduceWrite hk hxs hxkind hxpoison hp hnone
  have hhome := Dev.homeMem_comp hends hroom hk hxs hnone hf (by rw [hxkind]; rfl) hsects hcomp
  unfold Dev.onKind Dev.reqIn
  rw [if_pos hkind, if_pos harrives, Dev.homeReq_redAlias hkind ((d.takeReq_range r _).trans hrange), ← hx, hhome]
  rfl

/-- Settles O24: three kinds for populated memory, and the ReduceWrite to a reduction address. -/
theorem cachelessRequests : Obligations.CachelessRequests := by
  unfold Obligations.CachelessRequests
  intro s r n k hlive hn hk hs d line d1 d2 v none_ data comp
  refine ⟨fun ha hnone => ⟨fun hp => ⟨fun hkind => ?_, fun op hkind => ?_⟩, fun hkind hplace => ?_⟩, ?_⟩
  · exact exec_readOnce hlive hn hk hs ha hnone hp hkind
  · exact exec_atomic hlive hk hs ha hnone hp hkind
  · exact exec_write hlive hk hs ha hnone hkind hplace
  · intro u hrange harrives hroom x ln d1 y z stored hnone hp hpoison hkind
    have hreq := Dev.onKind_redAlias (x := x) hk hs hkind hpoison hrange harrives rfl hroom hnone hp
    exact (State.run_live (fun d => d.onKind r .reduceWrite) hlive).trans (congrArg s.settling hreq)

end Sys2Proof.Machine
end

section
/-! SUPPORT. A Recall at a loom whose cache lists its lines out of order, against the statement of messages at a loom (R184,
Table 7-9). -/

namespace Sys2Proof.Machine

/-- A home asks loom 5 for a copy of sector 0 of line 0, which the loom may keep. -/
def copyRecall : Msg := { kind := .recallCopy, agent := .cache 5, tag := 0, line := 0, sects := 1 }

/-- Line 0 with its sector 0 in M. -/
def dirtyLine : CLine := { line := 0, s0 := .m }

/-- The Recall is under way; the cache of loom 5 lists line 1 (key 9) before line 0 (key 3). -/
def unorderedState : State :=
  { dev := ({ awakeDev with reg := { running := true }, weave := { msgs := [copyRecall] } } : Dev).setLoom 5
      { cache := [(9, { line := 1 }), (3, dirtyLine)] }
    pending := [] }

/-- The answer stores the line again, in front of the key above its own. -/
theorem copyRecall_stores_again :
    ((nextDev (exec (.recallMsg copyRecall) unorderedState)).loom 5).cache.map (fun c => c.1) = [3, 9, 3] := by
  decide +kernel

/-- Refutes O26: its second clause has a RecallCopy leave the cache untouched, where the model stores the line again under its key.
That is the same cache only where the keys rise.  The statement is about every device, also one whose cache lists its keys out of
order: there the store adds an entry. -/
theorem not_messagesAtLoom : ¬ Obligations.MessagesAtLoom := by
  unfold Obligations.MessagesAtLoom
  rintro ⟨hsnoops, -⟩
  obtain ⟨hrecall, -⟩ := hsnoops unorderedState copyRecall 5 0 (by decide +kernel) (by decide +kernel) rfl (by decide) rfl
  have hholds : ((unorderedState.dev.takeMsg copyRecall).loom 5).Holds copyRecall.line 3 dirtyLine := by
    unfold Loom.Holds
    decide +kernel
  obtain ⟨-, hcopy, -⟩ := hrecall 3 dirtyLine hholds rfl
  have hkept := hcopy rfl
  have hagain := copyRecall_stores_again
  rw [hkept] at hagain
  exact absurd hagain (by decide +kernel)

end Sys2Proof.Machine
end

section
/-! SUPPORT. Answers that reach a home: of holders, of requesters, and refusals (R175 to R177, R183, R190 to R192). -/

namespace Sys2Proof.Machine

/-! ### Transactions and entries -/

theorem Dev.setTxn_setTxn (d : Dev) (line : Nat) (t u : Txn) : (d.setTxn line t).setTxn line u = d.setTxn line u := by
  simp [Dev.setTxn]

/-- A transaction that still waits for an answer stays as it is. -/
theorem Dev.advance_waits {d : Dev} {line : Nat} {t : Txn} (ht : d.txn line = some t) (hw : t.waits ≠ []) :
    d.advance line = d := by
  simp [Dev.advance, ht, hw]

theorem CatEnt.sec_dropSharer (e : CatEnt) (id k : Nat) : (e.dropSharer id).sec k = e.sec k := by
  unfold CatEnt.dropSharer
  split
  · split <;> rfl
  · rfl

/-! ### The answer of a loom to an open snoop -/

/-- The front snoop of a transaction, open to loom n for one count, with another snoop behind it. -/
structure FrontSnoop (t : Txn) (x y : Snoop) (n : LoomId) (line : BitVec 40) : Prop where
  waits : t.waits = [x, y]
  tgt : x.tgt = .agent n.toNat
  line_eq : x.line = line
  count : x.count = 1

section
variable {d : Dev} {t : Txn} {x y : Snoop} {n : LoomId} {m : Msg} (hx : FrontSnoop t x y n m.line)
include hx

theorem FrontSnoop.matches : x.matches n.toNat m.line.toNat = true := by
  simp [Snoop.matches, hx.tgt, hx.line_eq]

/-- Its answer closes it; the transaction waits for the other. -/
theorem FrontSnoop.close {u : Txn} (hu : u.waits = t.waits) : u.close x = { u with waits := [y] } := by
  simp [Txn.close, hx.count, hu, hx.waits, eraseOne]

/-- What an answer of the loom does to the only transaction. -/
theorem FrontSnoop.onAnswer (htxns : d.weave.txns = [(m.line.toNat, t)]) (hsects : x.sects = m.sects)
    (hkind : (x.kind = .invalidate) ↔ (m.kind = .invAck)) {f : Txn → Snoop → Txn} {u : Txn} (hu : u.waits = t.waits)
    (hf : f t x = u.close x) :
    d.onAnswer n.toNat m f = d.setTxn m.line.toNat { u with waits := [y] } := by
  have hlt : ¬4096 ≤ n.toNat := Nat.not_le.2 n.isLt
  have hans : x.answers n.toNat m = true := by
    simp [Snoop.answers, hx.matches, hsects, hlt, hkind]
  have hfind : t.waits.find? (fun s => s.answers n.toNat m) = some x := by simp [hx.waits, hans]
  unfold Dev.onAnswer
  simp only [htxns, List.findSome?_cons, hfind, Option.map_some, hf, hx.close hu]
  exact Dev.advance_waits (Dev.txn_setTxn_same d _ _) (List.cons_ne_nil _ _)

end

/-- What a loom's RecallData brings to a transaction. -/
def Txn.takeData (t : Txn) (m : Msg) : Txn :=
  { t with data := (sectList m.sects).foldl (fun l k => Line.setSector l k (Line.sector m.data k)) t.data,
           got := t.got ||| m.sects, dirty := t.dirty ||| m.excl, kept := t.kept ||| m.own }

theorem Dev.recallData_cache {d : Dev} {m : Msg} {n : LoomId} (hm : m.agent = .cache n) :
    d.recallData m = (d.takeMsg m).onAnswer n.toNat m fun t s => (t.takeData m).close s := by
  unfold Dev.recallData
  rw [hm]
  rfl

theorem Dev.recallAck_cache {d : Dev} {m : Msg} {n : LoomId} (hm : m.agent = .cache n) :
    d.recallAck m = (d.takeMsg m).onAnswer n.toNat m fun t s => ({ t with kept := t.kept ||| m.own } : Txn).close s := by
  unfold Dev.recallAck
  rw [hm]
  rfl

/-! ### A holder that stays silent (R191) -/

/-- The expiry of an open snoop of the only transaction: the sector that the silent loom owns is marked, the loom leaves the
entry, the timeout is counted and the wing told. -/
theorem FrontSnoop.expiry {d : Dev} {t : Txn} {x y : Snoop} {n : LoomId} {line : BitVec 40} {k : Nat}
    (hx : FrontSnoop t x y n line) (htxns : d.weave.txns = [(line.toNat, t)]) (hk : k < 4) (hs : x.sects = (1 : BitVec 4) <<< k)
    (hown : (d.ent line.toNat).sec k = ⟨.excl, n.toNat⟩) (hdue : x.deadline ≤ d.tick) :
    d.snoopExpiry line.toNat n.toNat =
      ((((d.setTxn line.toNat { t with waits := [y], dead := t.dead ||| x.sects }).setEnt line.toNat
        ((d.ent line.toNat).dropSharer n.toNat)).satAdd Fld.CAT_STATS_RECALL_TIMEOUTS (d.home (256 * line.toNat)) 1).report
          (homeSrc (d.home (256 * line.toNat)) 1) (mkDetail (256 * line.toNat) n.toNat 0)
          (d.extentWing (256 * line.toNat))).settleAbsent := by
  have hmatch : x.matches n.toNat line.toNat = true := by simp [Snoop.matches, hx.tgt, hx.line_eq]
  have hfind : t.waits.find? (fun s => s.matches n.toNat line.toNat && s.deadline ≤ d.tick) = some x := by
    simp [hx.waits, hmatch, hdue]
  have hany : t.waits.any (fun s => s.matches n.toNat line.toNat && s.deadline ≤ d.tick) = true := by
    simp [hx.waits, hmatch, hdue]
  have htxn : d.txn line.toNat = some t := by simp [Dev.txn, htxns, Fmap.find]
  have hrest : eraseOne x t.waits = [y] := by simp [hx.waits, eraseOne]
  have hdead : (sectList x.sects).filter (fun j =>
      (((d.ent line.toNat).sec j).st = .excl || ((d.ent line.toNat).sec j).st = .owned) &&
        [n.toNat].contains ((d.ent line.toNat).sec j).owner) = [k] := by
    rw [hs, sectList_single k hk]
    simp [hown]
  have hdead4 : [k].foldl (fun (b : BitVec 4) j => setBit4 b j) 0 = x.sects := by
    rw [List.foldl_cons, List.foldl_nil, hs]
    exact BitVec.zero_or
  unfold Dev.snoopExpiry
  simp only [htxns, List.find?_cons, hany, hfind]
  unfold Dev.snoopDead
  simp only [htxn, hx.line_eq, hx.tgt, hdead, hdead4, hrest]
  simp only [List.foldl_cons, List.foldl_nil, CatEnt.sec_dropSharer, hown, reduceCtorEq, decide_false, Bool.false_and,
    Bool.false_eq_true, if_false, Dev.txn_setTxn_same, List.append_nil, Dev.setTxn_setTxn]
  exact congrArg Dev.settleAbsent (Dev.advance_waits (Dev.txn_setTxn_same d line.toNat _) (List.cons_ne_nil y []))

/-! ### The end of a transaction (R175, R190) -/

/-- The requester's CompAck ends its transaction, and the home serves what waits. -/
theorem Dev.compAck_ends {d : Dev} {m : Msg} {t : Txn} (ht : (d.takeMsg m).txn m.line.toNat = some t) (hphase : t.phase = .ack)
    (hsrc : t.req.src = m.agent) : (d.compAck m).settleAbsent = ((d.takeMsg m).endTxn m.line.toNat).serves m.line.toNat := by
  unfold Dev.compAck
  simp only [ht, hphase, hsrc, decide_true, Bool.and_self, if_true]
  rfl

/-- A StashAck ends the push, with the loom recorded where it has installed. -/
theorem Dev.stashAck_ends {d : Dev} {m : Msg} {t : Txn} {n : LoomId} (hm : m.agent = .cache n)
    (ht : (d.takeMsg m).txn m.line.toNat = some t) (hphase : t.phase = .stash) : (d.stashAck m).settleAbsent =
      ((((d.takeMsg m).setEnt m.line.toNat (if m.ok then (sectList m.sects).foldl (fun e k => e.giveExcl k n.toNat)
        ((d.takeMsg m).ent m.line.toNat) else (d.takeMsg m).ent m.line.toNat)).endTxn m.line.toNat).serves m.line.toNat) := by
  unfold Dev.stashAck
  simp only [ht, hm, Agent.tracked, hphase, if_true]
  rfl

/-! ### Refusals (R176, R177) -/

/-- A refused request as it is sent again. -/
def Req.again (r : Req) (credit : Bool) : Req :=
  { r with retries := r.retries + 1, aged := 64 ≤ r.retries + 1, credit := credit }

/-- The device in which the refused requests are gone and a request is under way. -/
def Dev.resent (d : Dev) (r : Req) : Dev := ({ d with weave := { d.weave with refused := [] } } : Dev).sendReq r

/-- The only refused request is sent again and, when nothing of its flow is before it, reaches its home. -/
theorem Dev.reissue_only {d : Dev} {r : Req} {b : Bool} (hr : d.weave.refused = [(r, b)]) (credit : Bool) :
    d.reissue (r, b) credit = if (d.resent (r.again credit)).reqArrives (r.again credit)
      then (d.resent (r.again credit)).homeReq (r.again credit) else d.resent (r.again credit) := by
  have hgone : eraseOne (r, b) d.weave.refused = [] := by simp [hr, eraseOne]
  unfold Dev.reissue
  rw [hgone]
  rfl

theorem Dev.creditIn_only {d : Dev} {m : Msg} {r : Req} (hkind : m.kind = .credit) (harr : d.arrives m = true)
    (hr : d.weave.refused = [(r, true)]) (hsrc : r.src = m.agent) (hhome : d.home (256 * r.line.toNat) = m.line.toNat)
    (hcoming : (d.takeMsg m).retryComing r = false) : d.creditIn m = (d.takeMsg m).reissue (r, true) true := by
  have hr' : (d.takeMsg m).weave.refused = [(r, true)] := hr
  have hhome' : (d.takeMsg m).home (256 * r.line.toNat) = m.line.toNat := hhome
  unfold Dev.creditIn
  simp [hkind, harr, hr', hsrc, hhome', hcoming]

theorem Dev.lineBusyReissue_only {d : Dev} {r : Req} (hr : d.weave.refused = [(r, false)]) (hcoming : d.retryComing r = false) :
    d.lineBusyReissue r.src r.line = d.reissue (r, false) false := by
  unfold Dev.lineBusyReissue
  simp [hr, hcoming]

/-- Settles O27: answers to the front snoop, the ends of transactions, and refusals. -/
theorem answersAtHome : Obligations.AnswersAtHome := by
  unfold Obligations.AnswersAtHome
  intro s m n hlive hm d line
  have runs {i : Instr} {f : Dev → Dev} {e : Dev} (hi : exec i s = s.run f) (he : f s.dev = e) : exec i s = s.settling e := by
    rw [hi, State.run_live f hlive, he]
  refine ⟨?_, ?_, ?_, ?_, ?_⟩
  · intro harr t x y htxns hwaits _ htgt hline hsects hcount _ acked
    have hx : FrontSnoop t x y n m.line := ⟨hwaits, htgt, hline, hcount⟩
    have hack (hk : (x.kind = .invalidate) ↔ (m.kind = .invAck)) :
        (s.dev.recallAck m).settleAbsent = (d.setTxn line acked).settleAbsent := by
      rw [Dev.recallAck_cache hm]
      have hans := hx.onAnswer htxns hsects hk (u := { t with kept := t.kept ||| m.own })
        (f := fun t s => ({ t with kept := t.kept ||| m.own } : Txn).close s) rfl rfl
      exact congrArg Dev.settleAbsent hans
    refine ⟨fun hkind hx' => runs (f := fun d => d.recallDataIn m) rfl ?_,
      fun hkind hx' => runs (f := fun d => d.recallAckIn m) rfl ?_,
      fun hkind hx' => runs (f := fun d => d.invAckIn m) rfl ?_,
      fun k hk hk4 hown hdue htxns' => runs (f := fun d => d.snoopExpiry m.line.toNat (n.setWidth 13).toNat) rfl ?_⟩
    · have hans := hx.onAnswer htxns hsects (by simp [hkind, hx']) (u := t.takeData m)
        (f := fun t s => (t.takeData m).close s) rfl rfl
      show Dev.recallDataIn _ _ = _
      unfold Dev.recallDataIn
      rw [hkind, harr, Dev.recallData_cache hm, hans]
      rfl
    · have hclosed := hack (by simp [hkind, hx'])
      show Dev.recallAckIn _ _ = _
      unfold Dev.recallAckIn
      rw [hkind, harr]
      exact hclosed
    · have hclosed := hack (by simp [hkind, hx'])
      show Dev.invAckIn _ _ = _
      unfold Dev.invAckIn
      rw [hkind, harr]
      exact hclosed
    · have hn : (n.setWidth 13).toNat = n.toNat := by simp; omega
      show s.dev.snoopExpiry m.line.toNat (n.setWidth 13).toNat = _
      rw [hn]
      exact hx.expiry htxns' hk4 hk hown hdue
  · intro harr t ht
    refine ⟨fun hkind hphase hsrc => runs (f := fun d => d.compAckIn m) rfl ?_,
      fun hkind hphase => ⟨fun hok => runs (f := fun d => d.stashAckIn m) rfl ?_,
        fun hok k hs hk => runs (f := fun d => d.stashAckIn m) rfl ?_⟩⟩
    · have hend := Dev.compAck_ends ht hphase hsrc
      simpa [Dev.compAckIn, hkind, harr] using hend
    · have hend := Dev.stashAck_ends hm ht hphase
      rw [hok] at hend
      show Dev.stashAckIn _ _ = _
      unfold Dev.stashAckIn
      rw [hkind, harr]
      exact hend
    · have hend := Dev.stashAck_ends hm ht hphase
      rw [hok, hs, sectList_single k hk] at hend
      show Dev.stashAckIn _ _ = _
      unfold Dev.stashAckIn
      rw [hkind, harr]
      exact hend
  · intro harr hkind
    refine runs (f := fun d => d.retryIn m) rfl ?_
    have hretry : (m.kind = .retryNoTracker || m.kind = .retryBusy) = true := by simpa using hkind.symm
    simp [Dev.retryIn, hretry, harr, d]
  · intro r hr hsrc hhome hkind harr hcoming
    refine runs (f := fun d => d.creditIn m) rfl ?_
    have hcredit := Dev.creditIn_only hkind harr hr hsrc hhome hcoming
    exact hcredit.trans (Dev.reissue_only (d := s.dev.takeMsg m) hr true)
  · intro r hr hcoming
    refine runs (f := fun d => d.lineBusyReissue r.src r.line) rfl ?_
    exact (Dev.lineBusyReissue_only hr hcoming).trans (Dev.reissue_only hr false)

end Sys2Proof.Machine
end

section
/-! SUPPORT. CXL.mem and CXL.cache traffic at a head that serves its host's memory (R192, R303, R321 to R323, R339, R342). -/

namespace Sys2Proof.Machine

/-! ### CXL.mem writes -/

/-- Poisoned data is an event of the head's RAS capability before all else. -/
def Dev.poisonSeen (d : Dev) (h : HeadId) (i : Nat) (poison : Bool) : Dev := if poison then d.rasEvent h false i else d

/-- The message by which a write of the recorded owner answers a snoop of its sector. -/
def memWrAnswer (h : HeadId) (a : Nat) (mask : BitVec 64) (data : Sector) (poison : Bool) : Msg :=
  { kind := .recallData, agent := .head h, tag := 0, line := BitVec.ofNat 40 (a / 256), sects := setBit4 0 (a / 64 % 4),
    data := Line.setSector 0 (a / 64 % 4) data, excl := setBit4 0 (a / 64 % 4),
    poison := if poison then setBit4 0 (a / 64 % 4) else 0, mask := mask.setWidth 256 <<< (64 * (a / 64 % 4)) }

/-- The request by which any other write goes to its home. -/
def memWrRequest (h : HeadId) (a : Nat) (mask : BitVec 64) (data : Sector) (poison : Bool) : Req :=
  { kind := .writeBack, src := .head h, tag := 0, line := BitVec.ofNat 40 (a / 256), sects := setBit4 0 (a / 64 % 4),
    data := Line.setSector 0 (a / 64 % 4) data, mask := mask.setWidth 256 <<< (64 * (a / 64 % 4)),
    poison := if poison then setBit4 0 (a / 64 % 4) else 0 }

/-- What a head does with a write that decodes: an answer to an open snoop of a sector it owns, else a WriteBack. -/
def Dev.memWrAt (d : Dev) (h : HeadId) (tag a : Nat) (mask : BitVec 64) (data : Sector) (poison : Bool) : Dev :=
  if ((d.ent (a / 256)).sec (a / 64 % 4)).st = .excl && ((d.ent (a / 256)).sec (a / 64 % 4)).owner = 4096 + h.toNat &&
      d.snoopOpen h (a / 256) (a / 64 % 4)
  then (d.sendMsg (memWrAnswer h a mask data poison)).send (.memCmp h tag)
  else d.headReq h tag false (64 * (a / 64 % 4)) 64 (memWrRequest h a mask data poison)

theorem Dev.memWr_eq {d : Dev} {h : HeadId} (hmem : d.memHead h = true) {w : Dev} {poison : Bool} (hw : d.poisonSeen h 5 poison = w)
    (tag hpa : Nat) (mask : BitVec 64) (data : Sector) : d.memWr h tag hpa mask data poison =
      if w.frozen h then (w.refused h hpa).send (.memCmp h tag)
      else match w.hdmDpa h hpa with
        | none => (w.refused h hpa).send (.memCmp h tag)
        | some a => w.memWrAt h tag a mask data poison := by
  subst hw
  unfold Dev.memWr
  rw [hmem]
  rfl

/-- A write at a frozen head, or one that decodes to nothing, ends with its Cmp and a note. -/
theorem Dev.memWr_refused {d : Dev} {h : HeadId} (hmem : d.memHead h = true) {w : Dev} {poison : Bool}
    (hw : d.poisonSeen h 5 poison = w) {hpa : Nat} (hr : w.frozen h = true ∨ w.hdmDpa h hpa = none) (tag : Nat) (mask : BitVec 64)
    (data : Sector) : d.memWr h tag hpa mask data poison = (w.refused h hpa).send (.memCmp h tag) := by
  rw [Dev.memWr_eq hmem hw]
  rcases hr with hfrozen | hnone
  · rw [hfrozen]
    rfl
  · rw [hnone]
    exact ite_self _

/-- A write that decodes. -/
theorem Dev.memWr_decoded {d : Dev} {h : HeadId} (hmem : d.memHead h = true) {w : Dev} {poison : Bool}
    (hw : d.poisonSeen h 5 poison = w) {hpa a : Nat} (hfrozen : w.frozen h = false) (ha : w.hdmDpa h hpa = some a) (tag : Nat)
    (mask : BitVec 64) (data : Sector) : d.memWr h tag hpa mask data poison = w.memWrAt h tag a mask data poison := by
  rw [Dev.memWr_eq hmem hw, hfrozen, ha]
  rfl

theorem Dev.memWrAt_answers {d : Dev} {h : HeadId} {a : Nat} (hst : ((d.ent (a / 256)).sec (a / 64 % 4)).st = .excl)
    (howner : ((d.ent (a / 256)).sec (a / 64 % 4)).owner = 4096 + h.toNat) (hopen : d.snoopOpen h (a / 256) (a / 64 % 4) = true)
    (tag : Nat) (mask : BitVec 64) (data : Sector) (poison : Bool) : d.memWrAt h tag a mask data poison =
      (d.sendMsg (memWrAnswer h a mask data poison)).send (.memCmp h tag) := by
  simp [Dev.memWrAt, hst, howner, hopen]

theorem Dev.memWrAt_writes {d : Dev} {h : HeadId} {a : Nat}
    (hno : ¬(((d.ent (a / 256)).sec (a / 64 % 4)).st = .excl ∧ ((d.ent (a / 256)).sec (a / 64 % 4)).owner = 4096 + h.toNat) ∨
      d.snoopOpen h (a / 256) (a / 64 % 4) = false)
    (tag : Nat) (mask : BitVec 64) (data : Sector) (poison : Bool) : d.memWrAt h tag a mask data poison =
      d.headReq h tag false (64 * (a / 64 % 4)) 64 (memWrRequest h a mask data poison) := by
  unfold Dev.memWrAt
  rcases hno with hnot | hclosed
  · rw [if_neg]
    simpa using fun hst howner => absurd ⟨hst, howner⟩ hnot
  · simp [hclosed]

/-! ### CXL.mem reads and clean evictions -/

/-- The request of a clean eviction. -/
def cleanEvictRequest (h : HeadId) (a : Nat) (wing : BitVec 4) : Req :=
  { kind := .cleanEvict, src := .head h, tag := 0, line := BitVec.ofNat 40 (a / 256), sects := setBit4 0 (a / 64 % 4),
    wing := wing }

/-- The request of a read, by its snoop type. -/
def memRdRequest (h : HeadId) (a : Nat) (k : Snp) : Req :=
  { kind := match k with | .noOp => .readOnce | .data => .readShared | .inv => .readOwn, src := .head h, tag := 0,
    line := BitVec.ofNat 40 (a / 256), sects := setBit4 0 (a / 64 % 4) }

section
variable {d : Dev} {h : HeadId} (hmem : d.memHead h = true)
include hmem

theorem Dev.memRd_frozen (hfrozen : d.frozen h = true) (tag hpa : Nat) (k : Snp) :
    d.memRd h tag hpa k = d.send (.memData h tag 0 true) := by
  simp [Dev.memRd, hmem, hfrozen]

theorem Dev.memClnEvct_frozen (hfrozen : d.frozen h = true) (tag hpa : Nat) :
    d.memClnEvct h tag hpa = d.send (.memCmp h tag) := by
  simp [Dev.memClnEvct, hmem, hfrozen]

variable (hfrozen : d.frozen h = false)
include hfrozen

/-- While a sweep runs, a read that is to be tracked waits for it. -/
theorem Dev.memRd_waits (hsweep : d.weave.sweeping.getLsbD h.toNat = true) (tag hpa : Nat) {k : Snp} (hk : k ≠ .noOp) :
    d.memRd h tag hpa k = d.setHead h { d.head h with memWait := (d.head h).memWait ++ [⟨tag, hpa, k⟩] } := by
  simp [Dev.memRd, hmem, hfrozen, hsweep, hk]

variable {hpa : Nat} {k : Snp}

/-- A read that need not wait. -/
theorem Dev.memRd_now (hk : k = .noOp ∨ d.weave.sweeping.getLsbD h.toNat = false) (tag : Nat) : d.memRd h tag hpa k =
    match d.hdmDpa h hpa with
    | none => (d.refused h hpa).send (.memData h tag 0 true)
    | some a => d.headReq h tag false (a % 256 / 64 * 64) 64 (memRdRequest h a k) := by
  have hgo : (k ≠ .noOp && d.weave.sweeping.getLsbD h.toNat) = false := by
    rcases hk with rfl | hsweep
    · rfl
    · rw [hsweep, Bool.and_false]
  unfold Dev.memRd
  rw [hmem, hfrozen, hgo]
  rfl

theorem Dev.memRd_refused (hk : k = .noOp ∨ d.weave.sweeping.getLsbD h.toNat = false) (hnone : d.hdmDpa h hpa = none) (tag : Nat) :
    d.memRd h tag hpa k = (d.refused h hpa).send (.memData h tag 0 true) := by
  rw [Dev.memRd_now hmem hfrozen hk, hnone]

theorem Dev.memRd_goes (hk : k = .noOp ∨ d.weave.sweeping.getLsbD h.toNat = false) {a : Nat} (ha : d.hdmDpa h hpa = some a)
    (tag : Nat) : d.memRd h tag hpa k = d.headReq h tag false (a % 256 / 64 * 64) 64 (memRdRequest h a k) := by
  rw [Dev.memRd_now hmem hfrozen hk, ha]

theorem Dev.memClnEvct_refused (hnone : d.hdmDpa h hpa = none) (tag : Nat) :
    d.memClnEvct h tag hpa = (d.refused h hpa).send (.memCmp h tag) := by
  simp [Dev.memClnEvct, hmem, hfrozen, hnone]

theorem Dev.memClnEvct_goes {a : Nat} (ha : d.hdmDpa h hpa = some a) (tag : Nat) :
    d.memClnEvct h tag hpa = (d.sendReq (cleanEvictRequest h a (BitVec.ofNat 4 (d.headWing h)))).send (.memCmp h tag) := by
  simp [Dev.memClnEvct, hmem, hfrozen, ha, cleanEvictRequest]

end

/-! ### CXL.cache -/

/-- A request of the head ends: it leaves the head's list, and the head shows what it still has outstanding. -/
def Dev.outEnds (d : Dev) (h : HeadId) (r : HostReq) : Dev :=
  (d.setHead h { d.head h with outs := eraseOne r (d.head h).outs }).showNp h

/-- GO ends the oldest request when it answers it. -/
theorem Dev.go_oldest {d : Dev} {h : HeadId} {r : HostReq} {more : List HostReq} (hr : (d.head h).outs = r :: more)
    (hop : r.op ≠ .rdCurr) : d.go h r.tag = (d.outEnds h r).answerAgent r.src r.tag {} := by
  have hfind : (d.head h).outs.find? (fun x => x.tag = r.tag && x.op ≠ .rdCurr) = some r := by simp [hr, hop]
  unfold Dev.go
  simp only [hfind]
  rfl

/-- The data of a RdCurr ends the oldest request when it answers it. -/
theorem Dev.rdCurrData_oldest {d : Dev} {h : HeadId} {r : HostReq} {more : List HostReq} (hr : (d.head h).outs = r :: more)
    (hop : r.op = .rdCurr) (data : Sector) (poison : Bool) : d.rdCurrData h r.tag data poison =
      ((d.poisonSeen h 4 poison).outEnds h r).answerAgent r.src r.tag
        { data := Line.setSector 0 (r.addr / 64 % 4) (if poison then 0 else data),
          poison := if poison then setBit4 0 (r.addr / 64 % 4) else 0 } := by
  have hfind : (d.head h).outs.find? (fun x => x.tag = r.tag && x.op = .rdCurr) = some r := by simp [hr, hop]
  unfold Dev.rdCurrData
  simp only [hfind]
  rfl

/-- Settles O41: the cases of CXL.mem by decoding and by the catalogue's record, then CXL.cache. -/
theorem hostMemoryRequests : Obligations.HostMemoryRequests := by
  unfold Obligations.HostMemoryRequests
  intro s h tag hpa mask data poison hlive hmem d x goes w
  have runs {i : Instr} {f : Dev → Dev} {e : Dev} (hi : exec i s = s.run f) (he : f s.dev = e) : exec i s = s.settling e := by
    rw [hi, State.run_live f hlive, he]
  refine ⟨fun hr => ?_, fun hfrozen a ha => ?_, fun hfrozen => ?_, fun hfrozen hnone => ?_, fun hfrozen a ha => ?_,
    fun line k shared => ?_, ?_, fun r more hr htag => ?_⟩
  · exact runs (f := fun d => d.memWr h tag hpa.toNat mask data poison) rfl (Dev.memWr_refused hmem rfl hr tag mask data)
  · have hdec := Dev.memWr_decoded hmem (w := w) rfl hfrozen ha tag mask data
    refine ⟨fun ⟨hst, howner⟩ hopen => ?_, fun hno => ?_⟩
    · exact runs (f := fun d => d.memWr h tag hpa.toNat mask data poison) rfl
        (hdec.trans (Dev.memWrAt_answers hst howner hopen tag mask data poison))
    · exact runs (f := fun d => d.memWr h tag hpa.toNat mask data poison) rfl
        (hdec.trans (Dev.memWrAt_writes hno tag mask data poison))
  · exact ⟨fun k => runs (f := fun d => d.memRd h tag hpa.toNat k) rfl (Dev.memRd_frozen hmem hfrozen tag _ k),
      runs (f := fun d => d.memClnEvct h tag hpa.toNat) rfl (Dev.memClnEvct_frozen hmem hfrozen tag _)⟩
  · refine ⟨?_, fun hsweep k => ?_, ?_⟩
    · exact runs (f := fun d => d.memRd h tag hpa.toNat .noOp) rfl (Dev.memRd_refused hmem hfrozen (.inl rfl) hnone tag)
    · exact runs (f := fun d => d.memRd h tag hpa.toNat k) rfl (Dev.memRd_refused hmem hfrozen (.inr hsweep) hnone tag)
    · exact runs (f := fun d => d.memClnEvct h tag hpa.toNat) rfl (Dev.memClnEvct_refused hmem hfrozen hnone tag)
  · refine ⟨?_, fun hsweep => ⟨?_, ?_⟩, fun hsweep => ?_, ?_⟩
    · exact runs (f := fun d => d.memRd h tag hpa.toNat .noOp) rfl (Dev.memRd_goes hmem hfrozen (.inl rfl) ha tag)
    · exact runs (f := fun d => d.memRd h tag hpa.toNat .data) rfl (Dev.memRd_goes hmem hfrozen (.inr hsweep) ha tag)
    · exact runs (f := fun d => d.memRd h tag hpa.toNat .inv) rfl (Dev.memRd_goes hmem hfrozen (.inr hsweep) ha tag)
    · exact runs (f := fun d => d.memRd h tag hpa.toNat .inv) rfl
        (Dev.memRd_waits hmem hfrozen hsweep tag _ (by decide))
    · exact runs (f := fun d => d.memClnEvct h tag hpa.toNat) rfl (Dev.memClnEvct_goes hmem hfrozen ha tag)
  · exact runs (f := fun d => d.biRsp h line k shared) rfl (by simp [Dev.biRsp, hmem, d])
  · exact runs (f := fun d => d.hostSnoop h) rfl (if_pos hmem)
  · subst htag
    exact ⟨fun hop => runs (f := fun d => d.go h r.tag) rfl (Dev.go_oldest hr hop),
      fun hop => runs (f := fun d => d.rdCurrData h r.tag data poison) rfl (Dev.rdCurrData_oldest hr hop data poison)⟩

end Sys2Proof.Machine
end

section
/-! SUPPORT. Head events (R193, R332 to R335, R338 to R340, Table 13-7). -/

namespace Sys2Proof.Machine

/-! ### The path of a head with nothing outstanding -/

/-- What every listed value satisfies, and the default, a read gives. -/
theorem Fmap.get_of_forall {α : Type} {P : α → Prop} {a : α} (ha : P a) : ∀ {m : Fmap α}, (∀ c ∈ m, P c.2) → ∀ i, P (Fmap.get a m i)
  | [], _, _ => ha
  | (k, v) :: m, hm, i => by
    unfold Fmap.get
    split
    · exact hm _ (List.mem_cons_self ..)
    · exact Fmap.get_of_forall ha (fun c hc => hm c (List.mem_cons_of_mem _ hc)) i

/-- With every store buffer empty there is nothing to discard. -/
theorem Dev.discardStores_empty {d : Dev} (hstb : ∀ c ∈ d.looms, c.2.stb = []) (p : Dest → Bool) : d.discardStores p = d := by
  have hloom (n : LoomId) : (d.loom n).stb = [] := Fmap.get_of_forall (P := fun l : Loom => l.stb = []) rfl hstb n.toNat
  unfold Dev.discardStores
  refine foldl_keeps (fun e => e = d) (fun e i he => ?_) _ d rfl
  subst he
  simp [hloom]

/-- A head with no request shows none outstanding. -/
theorem Dev.showNp_none {d : Dev} {h : HeadId} (houts : (d.head h).outs = []) (hats : ∀ q ∈ d.trans.ats, q.head ≠ h) :
    d.showNp h = d.setFld Fld.HEAD_STATUS_NP_OUTSTANDING h.toNat 0 := by
  have hsent : d.trans.ats.filter (fun q => q.head = h && q.sent) = [] := by
    simpa [List.filter_eq_nil_iff] using fun q hq hh => absurd hh (hats q hq)
  unfold Dev.showNp
  simp only [houts, hsent, List.length_nil]
  rfl

/-- The head with its path marked as broken at this tick. -/
def Dev.pathDown (d : Dev) (h : HeadId) : Dev :=
  (d.setHead h { d.head h with brokenAt := d.tick }).setFld Fld.HEAD_STATUS_PATH_BROKEN h.toNat 1

/-- A path with no request, no translation under way and no store to discard is marked, and that is all. -/
theorem Dev.breakPath_idle {d : Dev} {h : HeadId} (houts : (d.head h).outs = []) (hwaiting : (d.head h).waiting = [])
    (hats : ∀ q ∈ d.trans.ats, q.head ≠ h) (hstb : ∀ c ∈ d.looms, c.2.stb = []) :
    d.breakPath h = (d.pathDown h).setFld Fld.HEAD_STATUS_NP_OUTSTANDING h.toNat 0 := by
  have hmine : d.trans.ats.filter (fun q => q.head = h) = [] := by
    simpa [List.filter_eq_nil_iff] using hats
  have hothers : d.trans.ats.filter (fun q => q.head ≠ h) = d.trans.ats := by
    simpa [List.filter_eq_self] using hats
  have hlost : (d.head h).outs ++ (d.head h).waiting = [] := by rw [houts, hwaiting, List.append_nil]
  have hhead : ({ d.head h with outs := [], waiting := [], brokenAt := d.tick } : Head) = { d.head h with brokenAt := d.tick } :=
    congrArg₂ (fun o w => { d.head h with outs := o, waiting := w, brokenAt := d.tick }) houts.symm hwaiting.symm
  calc d.breakPath h
      = ((Dev.setFld { d.setHead h { d.head h with outs := [], waiting := [], brokenAt := d.tick } with
            trans := { d.trans with ats := d.trans.ats.filter (fun q => q.head ≠ h) } }
          Fld.HEAD_STATUS_PATH_BROKEN h.toNat 1).showNp h).discardStores (fun p => p = .host h) := by
        unfold Dev.breakPath
        rw [hmine]
        change ((d.head h).outs ++ (d.head h).waiting).foldl _ _ = _
        rw [hlost]
        rfl
    _ = ((d.pathDown h).showNp h).discardStores (fun p => p = .host h) := by
        rw [hhead, hothers]
        rfl
    _ = (d.pathDown h).showNp h := Dev.discardStores_empty (by exact hstb) _
    _ = _ := Dev.showNp_none ((congrArg Head.outs (Dev.setHead_head_same d h _)).trans houts) hats

/-! ### The sweep of the catalogue -/

/-- The sectors of a line that the head holds alone. -/
def Dev.heldBy (d : Dev) (h : HeadId) (line : Nat) : List Nat :=
  (List.range 4).filter (fun k => ((d.ent line).sec k).st = .excl && ((d.ent line).sec k).owner = 4096 + h.toNat)

/-- The sectors that a home loses. -/
def Dev.sweepCount (d : Dev) (h : HeadId) (m : Nat) : Nat :=
  (Fmap.keys d.weave.cat).foldl (fun n l => if d.home (256 * l) = m then n + (d.heldBy h l).length else n) 0

/-- The sweep of one line: the sectors that the head held are poisoned, and the head leaves the entry. -/
def Dev.sweepLine (d : Dev) (h : HeadId) (line : Nat) : Dev :=
  let lost := (d.heldBy h line).foldl (fun (x : BitVec 4) k => setBit4 x k) 0
  let e := if lost = 0 then d else d.poisonLine line lost
  e.setEnt line ((d.heldBy h line).foldl (fun e k => e.drop k) ((e.ent line).dropSharer (4096 + h.toNat)))

/-- The reports of a sweep's end at every home, with the sectors that each lost. -/
def Dev.sweepReports (d : Dev) (h : HeadId) (lost : Nat → Nat) : Dev :=
  (List.range 4).foldl (fun (y : Dev) m => y.report (homeSrc m 2) (lost m % 2 ^ 48 * 2 ^ 80 + h.toNat * 2 ^ 64) noWing) d

/-- The head's sweep is over. -/
def Dev.sweepOver (d : Dev) (h : HeadId) : Dev :=
  { d with weave := { d.weave with sweeping := d.weave.sweeping &&& ~~~((1 : BitVec 16) <<< h.toNat) } }

theorem foldl_count_one (home : Nat → Nat) (m : Nat) {held : Nat → List Nat} {line k : Nat} (hheld : held line = [k]) :
    [line].foldl (fun n l => if home (256 * l) = m then n + (held l).length else n) 0 =
      if home (256 * line) = m then 1 else 0 := by
  simp [hheld]

theorem Dev.sweepReports_congr (d : Dev) (h : HeadId) {f g : Nat → Nat} (hfg : ∀ m < 4, f m = g m) :
    d.sweepReports h f = d.sweepReports h g :=
  List.foldl_ext _ _ d fun y m hm => by rw [hfg m (List.mem_range.1 hm)]

theorem Dev.sweepReports_heads (d : Dev) (h : HeadId) (lost : Nat → Nat) : (d.sweepReports h lost).heads = d.heads := by
  unfold Dev.sweepReports
  exact foldl_keeps (fun e => e.heads = d.heads) (fun e m he => (Dev.report_heads e _ _ _).trans he) _ d rfl

theorem Dev.sweepOver_heads (d : Dev) (h : HeadId) : (d.sweepOver h).heads = d.heads := rfl

theorem Dev.headPresent_heads (d : Dev) (h : HeadId) : (d.headPresent h).heads = d.heads := by
  unfold Dev.headPresent
  split <;> rfl

section
variable {d : Dev} {h : HeadId} (hsweep : d.weave.sweeping.getLsbD h.toNat = true)
include hsweep

/-- A sweep: every line, then the reports, then its end. -/
theorem Dev.sweep_eq : d.sweep h =
    (((Fmap.keys d.weave.cat).foldl (fun e line => e.sweepLine h line) d).sweepReports h (d.sweepCount h)).sweepOver h := by
  have hcounts (e : Dev) : e.sweepReports h (fun m => ((List.range 4).map (d.sweepCount h)).getD m 0) =
      e.sweepReports h (d.sweepCount h) := Dev.sweepReports_congr e h fun m hm => by simp [hm]
  rw [← hcounts]
  unfold Dev.sweep
  rw [hsweep]
  rfl

/-- The end of a sweep at a head with no read that waits for it. -/
theorem Dev.sweepDone_idle {e : Dev} (he : ((d.sweep h).setFld Fld.HEAD_STATUS_SWEEP_PENDING h.toNat 0).headPresent h = e)
    (hwait : (e.head h).memWait = []) : d.sweepDone h = e.setHead h { e.head h with memWait := [] } := by
  subst he
  unfold Dev.sweepDone
  rw [hsweep]
  simp only [hwait]
  rfl

variable {line k : Nat} {e : CatEnt} (hcat : d.weave.cat = [(line, e)])
  (howned : (List.range 4).filter (fun j => (e.sec j).st = .excl && (e.sec j).owner = 4096 + h.toNat) = [k])
include hcat howned

omit hsweep in
theorem Dev.heldBy_line : d.heldBy h line = [k] := by
  have hent : d.ent line = e := by simp [Dev.ent, hcat, Fmap.get]
  rw [Dev.heldBy, hent, howned]

omit hsweep in
/-- One sector held, one sector lost. -/
theorem Dev.sweepLine_one : d.sweepLine h line = (d.poisonLine line (setBit4 0 k)).setEnt line
    ((((d.poisonLine line (setBit4 0 k)).ent line).dropSharer (4096 + h.toNat)).drop k) := by
  have hk : k < 4 := by
    have hmem : k ∈ (List.range 4).filter (fun j => (e.sec j).st = .excl && (e.sec j).owner = 4096 + h.toNat) := by
      rw [howned]
      exact List.mem_singleton_self k
    exact List.mem_range.1 (List.mem_filter.1 hmem).1
  have hs4 : setBit4 0 k ≠ 0 := by
    rw [setBit4_zero]
    exact one_shift_ne_zero k hk
  have hpoison : (if [k].foldl (fun (x : BitVec 4) k => setBit4 x k) 0 = 0 then d
      else d.poisonLine line ([k].foldl (fun (x : BitVec 4) k => setBit4 x k) 0)) = d.poisonLine line (setBit4 0 k) := if_neg hs4
  unfold Dev.sweepLine
  rw [Dev.heldBy_line hcat howned]
  exact congrArg (fun y : Dev => y.setEnt line (((y.ent line).dropSharer (4096 + h.toNat)).drop k)) hpoison

omit hsweep in
theorem Dev.sweepCount_one (m : Nat) : d.sweepCount h m = if d.home (256 * line) = m then 1 else 0 := by
  unfold Dev.sweepCount
  rw [hcat]
  exact foldl_count_one d.home m (Dev.heldBy_line hcat howned)

/-- The sweep of a catalogue of one line. -/
theorem Dev.sweep_line : d.sweep h = ((d.sweepLine h line).sweepReports h
    (fun m => if d.home (256 * line) = m then 1 else 0)).sweepOver h := by
  rw [Dev.sweep_eq hsweep, funext (Dev.sweepCount_one hcat howned), hcat]
  rfl

theorem Dev.sweep_line_heads : (d.sweep h).heads = d.heads := by
  rw [Dev.sweep_line hsweep hcat howned, Dev.sweepLine_one hcat howned]
  rw [Dev.sweepOver_heads, Dev.sweepReports_heads, Dev.setEnt_heads]
  exact ((homeKeeps_sameBeside d).poisonLine (SameBeside.refl d) line (setBit4 0 k)).heads

end

/-! ### Events that find their head ready for them -/

section
variable {d : Dev} {h : HeadId}

theorem Dev.linkDown_up (hup : (d.head h).up = true) :
    d.linkDown h = (d.report (headSrc h 3) (mkDetail 0 h.toNat 0) (d.headWing h)).headReset h := by
  simp [Dev.linkDown, hup]

/-- PERST_N of a pin with one head resets the head with its sticky error state. -/
theorem Dev.perst_one {k : BitVec 3} (hrst : d.pins.rstN = true) (hperst : d.pins.perstN.getLsbD k.toNat = true)
    (hheads : d.pinHeads k.toNat = [h]) {e : Dev}
    (he : Dev.headReset { d with pins := { d.pins with perstN := d.pins.perstN &&& ~~~((1 : BitVec 8) <<< k.toNat) } } h = e) :
    d.perst k = e.setHead h (e.head h).resetErr := by
  subst he
  unfold Dev.perst
  rw [hrst, hperst]
  change (d.pinHeads k.toNat).foldl _ _ = _
  rw [hheads]
  rfl

theorem Dev.headUp_fits {cxl : Bool} {width speed : Nat} (hpers : d.personality h ≠ 0) (hdown : (d.head h).up = false)
    (hperst : d.pins.perstN.getLsbD (h.toNat / 2) = true) (hfrozen : d.frozen h = false) (hfits : d.linkFits h width speed = true) :
    d.headUp h cxl width speed =
      ((d.setHead h { d.head h with up := true, cxl := cxl, width := width, speed := speed }).headPresent h).healPath h := by
  unfold Dev.headUp
  rw [if_neg (by simp [hpers, hdown, hperst, hfits])]
  exact if_neg (ne_true_of_eq_false hfrozen)

theorem Dev.linkFits_of_mem {width speed : Nat} (hwidth : width ∈ [1, 2, 4, 8, 16])
    (hbifur : width ≤ 8 ∨ d.bifur.getLsbD (h.toNat / 2) = false) (hspeed : speed ∈ [4, 5, 6]) : d.linkFits h width speed = true := by
  have hroom : (width ≤ 8 || !d.bifur.getLsbD (h.toNat / 2)) = true := by simpa using hbifur
  rw [Dev.linkFits, hroom, List.contains_iff_mem.2 hwidth, List.contains_iff_mem.2 hspeed]
  rfl

theorem Dev.served_personality (hserved : d.served h = true) : d.personality h ≠ 0 := by
  simp only [Dev.served, Bool.and_eq_true, decide_eq_true_eq] at hserved
  exact hserved.2

/-- A head that is not frozen freezes with the cause given. -/
theorem Dev.freeze_free (hpers : d.personality h ≠ 0) (hfrozen : d.frozen h = false) (cause : Nat) : d.freeze h cause =
    ((((d.setFld Fld.HEAD_STATUS_FROZEN h.toNat 1).setFld Fld.HEAD_STATUS_FREEZE_CAUSE h.toNat cause).breakPath h).headGone
      h).preserveWing (((d.setFld Fld.HEAD_STATUS_FROZEN h.toNat 1).setFld Fld.HEAD_STATUS_FREEZE_CAUSE h.toNat cause).headWing h) :=
  if_neg (by simp [hpers, hfrozen])

theorem Dev.unfreeze_frozen (hfrozen : d.frozen h = true) : d.unfreeze h =
    (((((d.setFld Fld.HEAD_STATUS_FROZEN h.toNat 0).setFld Fld.HEAD_STATUS_FREEZE_CAUSE h.toNat 0).homeQueues h).foldl
      Dev.queueHeadReset ((((d.setFld Fld.HEAD_STATUS_FROZEN h.toNat 0).setFld Fld.HEAD_STATUS_FREEZE_CAUSE h.toNat
        0).headPresent h).healPath h))).flushIrqs h :=
  if_neg (by simp [hfrozen])

end

/-- Settles O43: each event at a head that is ready for it; the sweep by its one line. -/
theorem headEvents : Obligations.HeadEvents := by
  unfold Obligations.HeadEvents
  refine ⟨fun d h houts hwaiting hats hstb => Dev.breakPath_idle houts hwaiting hats hstb, ?_⟩
  intro s h hlive d x fields gone
  have runs {i : Instr} {f : Dev → Dev} {e : Dev} (hi : exec i s = s.run f) (he : f s.dev = e) : exec i s = s.settling e := by
    rw [hi, State.run_live f hlive, he]
  have hgone (y : Dev) : gone y = y.headReset h := rfl
  refine ⟨fun hup => ⟨?_, ?_⟩, fun k hrst hperst hheads => ?_, fun hserved hflr => ?_, fun hflr => ?_,
    fun hpers hup hperst hfrozen cxl width speed hwidth hbifur hspeed => ?_, fun hw hfrozen => ?_, fun hw hfrozen hcause => ?_,
    fun hsweep hwait line e k hcat howned => ?_⟩
  · rw [hgone]
    exact runs (f := fun d => if (d.head h).up then d.headReset h else d) rfl (if_pos hup)
  · rw [hgone]
    exact runs (f := fun d => d.linkDown h) rfl (Dev.linkDown_up hup)
  · exact (State.aon_showing s fun d => d.perst k).trans (congrArg s.showing (Dev.perst_one hrst hperst hheads (hgone _).symm))
  · refine runs (f := fun d => d.flr h) rfl ?_
    show s.dev.flr h = _
    unfold Dev.flr
    rw [if_neg (by simpa using ⟨hserved, hflr⟩)]
  · refine runs (f := fun d => d.flrComplete h) rfl (if_neg ?_)
    rw [hflr]
    decide
  · exact runs (f := fun d => d.headUp h cxl width.toNat speed.toNat) rfl
      (Dev.headUp_fits hpers hup hperst hfrozen (Dev.linkFits_of_mem hwidth hbifur hspeed))
  · have hserved : d.served h = true := hw.1
    exact runs (f := fun d => d.barWrite h .headCtl h.toNat (fun d => d.freeze h 3)) rfl
      ((Dev.barWrite_writes hserved _ hw).trans (Dev.freeze_free (Dev.served_personality hserved) hfrozen 3))
  · have hserved : d.served h = true := hw.1
    exact runs (f := fun d => d.barWrite h .headCtl h.toNat
      (fun d => if d.fld Fld.HEAD_STATUS_FREEZE_CAUSE h.toNat = 1 then d else d.unfreeze h)) rfl
      ((Dev.barWrite_writes hserved _ hw).trans ((if_neg hcause).trans (Dev.unfreeze_frozen hfrozen)))
  · intro d1 d2 d3 d4 d5
    have hswept : d.sweep h = d4 := by
      rw [Dev.sweep_line hsweep hcat howned, Dev.sweepLine_one hcat howned]
      rfl
    have hdone : ((d.sweep h).setFld Fld.HEAD_STATUS_SWEEP_PENDING h.toNat 0).headPresent h = d5 := by rw [hswept]
    have hheads : d5.heads = d.heads := by
      rw [← hdone, Dev.headPresent_heads, Dev.setFld_heads, Dev.sweep_line_heads hsweep hcat howned]
    have hidle : (d5.head h).memWait = [] := by
      rw [Dev.head, hheads]
      exact hwait
    exact runs (f := fun d => d.sweepDone h) rfl (Dev.sweepDone_idle hsweep hdone hidle)

end Sys2Proof.Machine
end

section
/-! SUPPORT. Vendor mailbox commands that pass every check (R394 to R399): the command's own rule decides how it ends. -/

namespace Sys2Proof.Machine

/-- The device after a command's rule has had this outcome: the command is answered, stays at the front, or starts in the
background, where it ends in the same step or later. -/
def MbRes.after (c : MbCmd) : MbRes → Dev
  | .done r out d => d.mbReply c (retOf r) r out
  | .wait d => d
  | .bg obj none d => d.begun c obj
  | .bg obj (some (r, out)) d => (d.begun c obj).bgEnd c.op obj r out

section
variable {s : State} {c : MbCmd} {i : Instr} {sp : MbSpec} {f : MbCmd → Dev → MbRes} {e : Dev} {r obj : Nat} {out : List Byte}

theorem Dev.mbRun_serves (h : s.Serves c sp.op (sp.len c) (sp.fields c) sp.right) (hsel : sp.sel c = true) :
    s.dev.mbRun sp f = (f c s.dev).after c := by
  obtain ⟨-, hfront, hlen, hsafe, hallowed, hclean, hfatal, hfull⟩ := h
  unfold Dev.mbRun
  simp only [hfront, hsel, hlen, hsafe, hallowed, hclean, hfatal, hfull, ne_eq, not_true_eq_false, Bool.not_true, Bool.false_and,
    Bool.and_false, Bool.or_self, Bool.false_eq_true, if_false]
  cases f c s.dev with
  | done r out e => rfl
  | wait e => rfl
  | bg obj ended e => cases ended <;> rfl

theorem exec_serves {x : MbRes} (hi : exec i s = s.run fun d => d.mbRun sp f)
    (h : s.Serves c sp.op (sp.len c) (sp.fields c) sp.right) (hsel : sp.sel c = true) (hx : f c s.dev = x) :
    exec i s = s.settling (x.after c) := by
  rw [hi, State.run_live _ h.1, Dev.mbRun_serves h hsel, hx]

theorem exec_ends (hi : exec i s = s.run fun d => d.mbRun sp f) (h : s.Serves c sp.op (sp.len c) (sp.fields c) sp.right)
    (hsel : sp.sel c = true) (hx : f c s.dev = .done r out e) : exec i s = s.ends c r out e :=
  exec_serves (x := .done r out e) hi h hsel hx

theorem exec_starts (hi : exec i s = s.run fun d => d.mbRun sp f) (h : s.Serves c sp.op (sp.len c) (sp.fields c) sp.right)
    (hsel : sp.sel c = true) (hx : f c s.dev = .bg obj none e) : exec i s = s.settling (e.begun c obj) :=
  exec_serves (x := .bg obj none e) hi h hsel hx

theorem exec_completes (hi : exec i s = s.run fun d => d.mbRun sp f) (h : s.Serves c sp.op (sp.len c) (sp.fields c) sp.right)
    (hsel : sp.sel c = true) (hx : f c s.dev = .bg obj (some (r, out)) e) :
    exec i s = s.settling ((e.begun c obj).bgEnd c.op obj r out) :=
  exec_serves (x := .bg obj (some (r, out)) e) hi h hsel hx

theorem plain_eq {x : Nat × Dev} (hx : x = (r, e)) : plain x = .done r [] e := by
  rw [hx, plain]

theorem atOnce_ok {x : Nat × Dev} (hx : x = (rOk, e)) : atOnce obj out x = .bg obj (some (rOk, out)) e := by
  rw [hx, atOnce, if_pos rfl]

theorem atOnce_refused {x : Nat × Dev} (hx : x = (r, e)) (hr : r ≠ rOk) : atOnce obj out x = .done r [] e := by
  rw [hx, atOnce, if_neg hr]

theorem started_ok {x : Nat × Dev} (hx : x = (rOk, e)) : started obj x = .bg obj none e := by
  rw [hx, started, if_pos rfl]

theorem started_refused {x : Nat × Dev} (hx : x = (r, e)) (hr : r ≠ rOk) : started obj x = .done r [] e := by
  rw [hx, started, if_neg hr]

end

end Sys2Proof.Machine
end

section
/-! SUPPORT. What the commands on tiers do to the device: the stripe limit, rotations, retraining, retirement and atrium pins
(R208, R213, R216, R217, R219, R238). -/

namespace Sys2Proof.Machine

variable {d : Dev}

/-! ### STRIPE_LIMIT (R208) -/

section
variable {l : Nat}

/-- The device under a limit that moves no page: a page whose initial slot the limit would move keeps its slot by name. -/
def Dev.underLimit (d : Dev) (l : Nat) : Dev :=
  (((List.range (d.dspSize / 2 ^ 26)).filter (fun p => (d.locOf p).at_ ≠ (d.setFld Fld.DSP_LAYOUT_LIMIT 0 l).initialSlot p)).foldl
    (fun (e : Dev) p => e.setLoc p (d.locOf p)) d).setFld Fld.DSP_LAYOUT_LIMIT 0 l

/-- The slots in use under that limit. -/
def Dev.usedUnderLimit (d : Dev) (l : Nat) : List Slot :=
  (List.range (d.dspSize / 2 ^ 26) ++ (List.range (d.depSize / 2 ^ 26)).map (· + depotBase / 2 ^ 26)).map
    (fun p => ((d.underLimit l).locOf p).at_) ++ d.tiers.rots.map (fun r => r.2.dst) ++ d.tiers.lostSlots

theorem Dev.copyUnits_none (d : Dev) : d.copyUnits (fun _ => false) = d := by
  simp [Dev.copyUnits]

theorem Dev.withLocs_self (d : Dev) {m : Fmap Loc} (hm : m = d.tiers.loc) :
    ({ d with tiers := { d.tiers with loc := m } } : Dev) = d := by
  rw [hm]

theorem Dev.relocate_nil (d : Dev) (taken : List Slot) : d.relocate taken [] = some [] := rfl

theorem Dev.stripeLimit_above (hl : l > 16) : d.stripeLimit l = (rInvalid, d) := if_pos hl

theorem Dev.stripeLimit_owned (hl : l ≤ 16)
    (howned : (d.limitMoves l).any (fun p => d.extentWing (p * 2 ^ 26) ≠ noWing) = true) : d.stripeLimit l = (rOverlap, d) :=
  (if_neg (Nat.not_lt.2 hl)).trans (if_pos howned)

/-- With no page to move, nothing is copied and every page stays where it is. -/
theorem Dev.stripeLimit_still (hl : l ≤ 16) (hmoves : d.limitMoves l = []) : d.stripeLimit l =
    (rOk, (d.underLimit l).setFree ((d.underLimit l).dspPool (d.usedUnderLimit l) ++
      d.tiers.free.filter (fun x => x.k = 2 && !(d.usedUnderLimit l).contains x))) := by
  unfold Dev.stripeLimit
  rw [hmoves, if_neg (Nat.not_lt.2 hl), if_neg (by simp), if_neg (by simp)]
  extract_lets stay e1 e2 e3 loc tiers e4 kept
  have hstay : stay = List.range (d.dspSize / 2 ^ 26) := List.filter_eq_self.2 fun _ _ => rfl
  have he2 : e2 = d := d.copyUnits_none
  have hloc : loc = e3.tiers.loc := List.filter_eq_self.2 fun _ _ => rfl
  have he3 : e3.setFld Fld.DSP_LAYOUT_LIMIT 0 l = d.underLimit l := by
    unfold e3 Dev.underLimit
    rw [he2, hstay]
  clear_value e3
  have he4 : e4 = d.underLimit l := (congrArg (fun e : Dev => e.setFld Fld.DSP_LAYOUT_LIMIT 0 l) (e3.withLocs_self hloc)).trans he3
  have hkept : kept = d.usedUnderLimit l := by
    unfold kept Dev.usedUnderLimit
    rw [he4, hstay]
  rw [he4, hkept]
  simp only [Dev.relocate_nil, List.map_nil, List.append_nil, List.filter_nil, List.foldl_nil]

end

/-! ### Rotations (R201, R216, R217) -/

section
variable {p k i : Nat}

theorem Dev.placeOk_depot (d : Dev) (p : Nat) (n : BitVec 30) : d.placeOk p ⟨2#2, n⟩ = true := by
  simp [Dev.placeOk, Slot.k]

theorem Dev.rotate_unpopulated (hst : (d.locOf p).st = .unpopulated) : d.rotate p k = (rNotFound, 0, d) := if_pos hst

theorem Dev.rotate_noKind (hst : (d.locOf p).st ≠ .unpopulated) (hk : k > 2) : d.rotate p k = (rInvalid, 0, d) :=
  (if_neg hst).trans (if_pos (by simp [hk]))

theorem Dev.rotate_moving (hst : (d.locOf p).st = .rotating) : d.rotate p 2 = (rBusy, 0, d) := by
  unfold Dev.rotate
  simp [hst, Dev.placeOk_depot]

theorem Dev.rotate_starts {x : Slot} (hst : (d.locOf p).st = .resident) (hreg : d.rotReg = some i) (hslot : d.freeSlot p 2 = some x) :
    d.rotate p 2 = (rOk, i, d.rotStart i p x) := by
  unfold Dev.rotate
  simp [hst, hreg, hslot, Dev.placeOk_depot]

/-- The device after rotation i has ended ABORTED: its page is resident at its source, and its destination is free again. -/
def Dev.rotBack (d : Dev) (i : Nat) (r : Rot) : Dev :=
  let e := (d.setRots (Fmap.del d.tiers.rots i)).setLoc r.page ⟨.resident, r.src⟩
  (e.setFree (e.tiers.free ++ [r.dst])).setRotStatus i rsAborted

theorem Dev.rotStop_aborted {r : Rot} (hr : Fmap.find d.tiers.rots i = some r) : d.rotStop i rsAborted = d.rotBack i r := by
  unfold Dev.rotStop
  rw [hr]
  rfl

/-- A rotation that fails while nothing is evacuated stops no evacuation. -/
theorem Dev.evacFail_idle (hevac : d.tiers.evac = []) (r : Rot) : d.evacFail r = d := by
  unfold Dev.evacFail
  rw [hevac]
  rfl

theorem Dev.rotAbort_noRegister (hi : i ≥ 16) : d.rotAbort i = (rInvalid, d) := if_pos hi

theorem Dev.rotAbort_switching (hi : i < 16) (hst : d.rotStatus i = rsSwitching) : d.rotAbort i = (rBusy, d) :=
  (if_neg (Nat.not_le.2 hi)).trans ((if_neg (by rw [hst]; decide)).trans (if_pos hst))

theorem Dev.rotAbort_copying {r : Rot} (hi : i < 16) (hst : d.rotStatus i = rsCopying) (hevac : d.tiers.evac = [])
    (hr : Fmap.find d.tiers.rots i = some r) : d.rotAbort i = (rOk, d.rotBack i r) := by
  unfold Dev.rotAbort
  rw [if_neg (Nat.not_le.2 hi), if_pos hst, hr, Dev.rotStop_aborted hr]
  exact congrArg (Prod.mk rOk) (Dev.evacFail_idle (d := d.rotBack i r) hevac r)

end

/-! ### CHANNEL_RETRAIN (R219, R231) -/

section
variable {n k : Nat} {t : TrainRes} {popOk : Bool}

theorem Dev.chanRetrain_noTier (hn : n > 1) (stack : Nat) : d.chanRetrain n stack k popOk t = (rInvalid, d) :=
  (if_neg (by omega)).trans (if_pos (by simp [hn]))

theorem Dev.chanRetrain_stack (hn : n < 16) (hk : k < 32) (hstack : d.asm.hasStack n = true) (hst : d.stackState n = 1)
    (hrepair : d.repairSlot ≠ none) : d.chanRetrain 0 n k popOk t = (rOk, d.laneRepair (32 * n + k) t) := by
  have hroom : d.repairSlot.isNone = false := Option.isNone_eq_false_iff.2 (Option.isSome_iff_ne_none.2 hrepair)
  unfold Dev.chanRetrain
  rw [if_pos rfl, if_neg (by simp; omega), if_neg (by simp [hstack, hst]), if_neg (by simp [hst])]
  exact if_neg (by simp [hroom])

theorem Dev.chanRetrain_unfit (hk : k < 24) (hst : d.chanState k ≠ 0) : d.chanRetrain 1 0 k false t = (rInvalid, d) := by
  unfold Dev.chanRetrain
  rw [if_neg (by decide), if_neg (by simp; omega), if_neg hst]
  rfl

theorem Dev.setFault_depot (d : Dev) (k : Nat) : d.setFault (512 + k) false = d.clrFld Fld.CHAN_FAULT_FAULTED 8 (2 ^ k) := by
  unfold Dev.setFault
  rw [if_neg (by omega), Nat.add_sub_cancel_left]
  rfl

theorem Dev.clrFault_chanState (d : Dev) (j m k : Nat) : (d.clrFld Fld.CHAN_FAULT_FAULTED j m).chanState k = d.chanState k := by
  unfold Dev.chanState Dev.clrFld
  rw [Dev.fld_setFld_ne _ _ _ _ _ _ (by decide)]

theorem Dev.chanRetrain_online (hk : k < 24) (hst : d.chanState k = 1) :
    d.chanRetrain 1 0 k true t = (rOk, d.clrFld Fld.CHAN_FAULT_FAULTED 8 (2 ^ k)) := by
  unfold Dev.chanRetrain
  rw [if_neg (by decide), if_neg (by simp; omega), if_neg (by simp [hst]), if_neg (by decide), Dev.setFault_depot]
  exact if_pos ((d.clrFault_chanState _ _ k).trans hst)

end

/-! ### Retirement (R237, R238) -/

/-- The frames that a retirement names. -/
def Dev.namedFrames (d : Dev) (f : Frame) (bank : Bool) : List Frame := if bank then d.bankFrames f else [f]

/-- The device in which the retirement of these frames is the only one under way and has taken a spare frame for each. -/
def Dev.retiresFirst (d : Dev) (f : Frame) (fs : List Frame) (bank : Bool) (box : Nat) : Dev :=
  let e := d.setSpareFree f (d.spareFree f - fs.length)
  { e with tiers := { e.tiers with retiring := [⟨f.home, fs, d.spareTotal f - d.spareFree f, box, bank⟩] } }

theorem Dev.setSpareFree_tiers (d : Dev) (f : Frame) (n : Nat) : (d.setSpareFree f n).tiers = d.tiers := by
  unfold Dev.setSpareFree
  split <;> rfl

section
variable {f : Frame} {bank : Bool} {box : Nat} (hok : d.frameOk f = true) (hrow : bank = true → f.row = 0)
  (hretired : d.tiers.retired = []) (hretiring : d.tiers.retiring = []) (hrepair : d.repairSlot ≠ none)
include hok hrow hretired hretiring hrepair

/-- Whether the first retirement of frames in range starts depends on the spare frames alone. -/
theorem Dev.retire_first : d.retire f bank box =
    if d.spareFree f < (d.namedFrames f bank).length then (rNoSpace, d) else (rOk, d.retiresFirst f (d.namedFrames f bank) bank box) := by
  have hroom : d.repairSlot.isNone = false := Option.isNone_eq_false_iff.2 (Option.isSome_iff_ne_none.2 hrepair)
  have hf : (if bank = true then { f with row := 0 } else f) = f := by
    split
    case isTrue hb => rw [← hrow hb]
    case isFalse => rfl
  unfold Dev.retire Dev.namedFrames Dev.retiresFirst
  simp only [hf, hok, hretired, hretiring, hroom, List.any_nil, Bool.not_false, Bool.not_true, List.filter_true, Bool.or_false,
    Bool.false_eq_true, if_false, decide_eq_true_eq, Dev.setSpareFree_tiers, List.nil_append]

end

/-! ### Atrium pins (R213) -/

section
variable {w x k : Nat} {l : ALine}

theorem Dev.onWing_usable (hw : d.wingUsable w = none) (y : Nat × Dev) : d.onWing w y = y := by
  rw [Dev.onWing, hw]

theorem Dev.atriumFind_pins (d : Dev) (m : List (BitVec 4 × Nat × Nat)) (x : Nat) :
    ({ d with tiers := { d.tiers with pins := m } } : Dev).atriumFind x = d.atriumFind x := Dev.atriumFind_tiers x rfl

theorem rangeLines_one (x : Nat) : rangeLines x 256 = [x / 256] := by
  simp [rangeLines]

theorem Dev.atriumPin_noAtrium (hb : d.asm.atriumBits = 0) (n : Nat) (zero : Bool) : d.atriumPin w x n zero = (rNoSpace, d) :=
  if_pos hb

section
variable (hb : d.asm.atriumBits ≠ 0)
include hb

theorem Dev.atriumPin_unaligned (hx : x % 256 ≠ 0) (n : Nat) (zero : Bool) : d.atriumPin w x n zero = (rInvalid, d) :=
  (if_neg hb).trans (if_pos (by simp [hx]))

section
variable (hx : x % 256 = 0)
include hx

theorem Dev.atriumPin_foreign (howns : d.ownsRange w x 256 = false) (zero : Bool) : d.atriumPin w x 256 zero = (rDenied, d) := by
  unfold Dev.atriumPin
  rw [if_neg hb, if_neg (by simp [hx]), howns]
  rfl

variable (howns : d.ownsRange w x 256 = true) (hfind : d.atriumFind x = some (k, l))
include howns hfind

/-- A pin of one line that the atrium holds zeroes the line in its way. -/
theorem Dev.atriumPin_zeroes (hfits : d.pinFits w x 256 = true) : d.atriumPin w x 256 true =
    (rOk, ({ d with tiers := { d.tiers with pins := d.tiers.pins ++ [(BitVec.ofNat 4 w, x, 256)] } } : Dev).atriumPut k
      { l with valid := 15, dirty := 15, poison := 0, data := 0, pinned := true, nru := true }) := by
  have hline : 256 * (x / 256) = x := Nat.mul_div_cancel' (Nat.dvd_of_mod_eq_zero hx)
  unfold Dev.atriumPin
  rw [if_neg hb, if_neg (by simp [hx]), howns, hfits, rangeLines_one, List.foldl_cons, List.foldl_nil, hline,
    Dev.atriumFind_pins, hfind]
  rfl

/-- An unpin of one pinned line writes its dirty sectors back and keeps it in its way. -/
theorem Dev.atriumUnpin_cleans (hpinned : l.pinned = true) : d.atriumUnpin w x 256 =
    (rOk, (({ d with tiers := { d.tiers with pins := d.tiers.pins.filter (fun p => p ≠ (BitVec.ofNat 4 w, x, 256)) } } : Dev).atriumClean
      l).atriumPut k { l with pinned := false, dirty := 0 }) := by
  have hline : 256 * (x / 256) = x := Nat.mul_div_cancel' (Nat.dvd_of_mod_eq_zero hx)
  unfold Dev.atriumUnpin
  rw [if_neg hb, if_neg (by simp [hx]), howns, rangeLines_one, List.foldl_cons, List.foldl_nil, hline,
    Dev.atriumFind_pins, hfind]
  exact congrArg (Prod.mk rOk) (if_pos hpinned)

end

end

end

end Sys2Proof.Machine
end

section
/-! SUPPORT. The commands on tiers, each as one of its rule's branches (R198, R206, R207, R213, R215 to R219, R232 to R241). -/

namespace Sys2Proof.Machine

section
variable {s : State} {c : MbCmd}

/-! ### TIER_STATS (R215) -/

theorem exec_tierStats_heat (h : s.Serves c 0xC012 10 [(0, 1), (4, 6)] .op) (hkind : c.num 0 1 = 0) (hbyte : c.num 1 1 = 0)
    (hn : 1 ≤ c.num 8 2) (hn' : c.num 8 2 ≤ 512) (hp : c.num 4 4 < 2 ^ 22) : exec .tierStats s =
      s.ends c rOk ((List.range (c.num 8 2)).flatMap (fun i => le 4 (s.dev.pageHeat (c.num 4 4 + i)))) s.dev := by
  have hfields : (if c.num 0 1 = 0 then [(0, 1), (4, 6)] else [(0, 2)]) = [(0, 1), (4, 6)] := if_pos hkind
  rw [← hfields] at h
  exact exec_ends rfl h rfl ((if_neg (by simp [hkind, hbyte])).trans ((if_neg (by simp [hkind])).trans (if_neg (by simp; omega))))

/-! ### ROTATE (R216) -/

theorem exec_rotate_refused (h : s.Serves c 0xC013 5 [(0, 5)] .op) {r : Nat} (hr : r ≠ rOk)
    (hx : s.dev.rotate (c.num 0 4) (c.num 4 1) = (r, 0, s.dev)) : exec .rotate s = s.ends c r [] s.dev := by
  refine exec_ends rfl h rfl ?_
  rw [hx]
  exact if_neg hr

theorem exec_rotate_starts (h : s.Serves c 0xC013 5 [(0, 5)] .op) {i : Nat} {e : Dev}
    (hx : s.dev.rotate (c.num 0 4) (c.num 4 1) = (rOk, i, e)) : exec .rotate s = s.ends c rOk (le 1 i) (e.noteJob c 0 i) := by
  refine exec_ends rfl h rfl ?_
  rw [hx]
  exact if_pos rfl

/-! ### ATRIUM_PIN, ATRIUM_UNPIN (R213) -/

section
variable (hw : s.dev.wingUsable (c.num 0 1) = none)
include hw

theorem exec_atriumPin_refused (h : s.Serves c 0xC015 24 [(0, 2), (8, 16)] .wing) (hzero : c.num 1 1 ≤ 1) {r : Nat} (hr : r ≠ rOk)
    (hx : s.dev.atriumPin (c.num 0 1) (c.num 8 8) (c.num 16 8) (c.num 1 1 = 1) = (r, s.dev)) :
    exec .atriumPin s = s.ends c r [] s.dev := by
  refine exec_ends rfl h rfl ((if_neg (by simp [MbCmd.over]; omega)).trans ?_)
  rw [Dev.onWing_usable hw, hx]
  exact (if_neg (by simp [hr])).trans (atOnce_refused rfl hr)

theorem exec_atriumPin_pins (h : s.Serves c 0xC015 24 [(0, 2), (8, 16)] .wing) (hzero : c.num 1 1 ≤ 1) {e : Dev}
    (hopen : s.dev.rangeOpen (c.num 8 8) (c.num 16 8) = true)
    (hx : s.dev.atriumPin (c.num 0 1) (c.num 8 8) (c.num 16 8) (c.num 1 1 = 1) = (rOk, e)) :
    exec .atriumPin s = s.settling ((e.begun c (c.num 8 8)).bgEnd c.op (c.num 8 8) rOk []) := by
  refine exec_completes rfl h rfl ((if_neg (by simp [MbCmd.over]; omega)).trans ?_)
  rw [Dev.onWing_usable hw, hx, hopen]
  rfl

theorem exec_atriumUnpin (h : s.Serves c 0xC016 24 [(0, 1), (8, 16)] .wing) {e : Dev}
    (hopen : s.dev.rangeOpen (c.num 8 8) (c.num 16 8) = true)
    (hx : s.dev.atriumUnpin (c.num 0 1) (c.num 8 8) (c.num 16 8) = (rOk, e)) :
    exec .atriumUnpin s = s.settling ((e.begun c (c.num 8 8)).bgEnd c.op (c.num 8 8) rOk []) := by
  refine exec_completes rfl h rfl ?_
  rw [Dev.onWing_usable hw, hx, hopen]
  rfl

end

/-! ### STACK_EVACUATE (R218) -/

section
variable (h : s.Serves c 0xC017 1 [(0, 1)] .op) (ha : c.num 0 1 < 16)
include h ha

theorem exec_stackEvacuate_absent (hstack : s.dev.asm.hasStack (c.num 0 1) = false) :
    exec .stackEvacuate s = s.ends c rNotFound [] s.dev :=
  exec_ends rfl h rfl ((if_neg (Nat.not_le.2 ha)).trans (if_pos (by simp [hstack])))

variable (hstack : s.dev.asm.hasStack (c.num 0 1) = true)
include hstack

theorem exec_stackEvacuate_retired (hst : s.dev.stackState (c.num 0 1) = 3) : exec .stackEvacuate s = s.ends c rBusy [] s.dev :=
  exec_ends rfl h rfl ((if_neg (Nat.not_le.2 ha)).trans ((if_neg (by simp [hstack, hst])).trans (if_pos (by simp [hst]))))

theorem exec_stackEvacuate_starts (hst : s.dev.stackState (c.num 0 1) = 1) (hevac : s.dev.tiers.evac = []) {e : Dev}
    (he : s.dev.evacuate (c.num 0 1) c.place = (rOk, e)) (hon : e.tiers.evac = [(c.num 0 1, c.place)]) :
    exec .stackEvacuate s = s.settling (e.begun c (c.num 0 1)) := by
  refine exec_starts rfl h rfl ((if_neg (Nat.not_le.2 ha)).trans ((if_neg ?_).trans ((if_neg ?_).trans ?_)))
  · simp [hstack, hst]
  · simp [hst, hevac]
  · rw [he]
    exact (if_neg (by simp [hon])).trans (started_ok rfl)

end

/-! ### CHANNEL_EVACUATE, CHANNEL_OFFLINE (R219) -/

section
variable (ha : c.num 0 1 < 24)
include ha

section
variable (h : s.Serves c 0xC018 1 [(0, 1)] .op)
include h

theorem exec_channelEvacuate_absent (hst : s.dev.chanState (c.num 0 1) = 0) :
    exec .channelEvacuate s = s.ends c rNotFound [] s.dev :=
  exec_ends rfl h rfl ((if_neg (Nat.not_le.2 ha)).trans (if_pos hst))

theorem exec_channelEvacuate_evacuated (hst : s.dev.chanState (c.num 0 1) = 2) :
    exec .channelEvacuate s = s.ends c rBusy [] s.dev :=
  exec_ends rfl h rfl ((if_neg (Nat.not_le.2 ha)).trans ((if_neg (by simp [hst])).trans (if_pos (by simp [hst]))))

theorem exec_channelEvacuate_starts (hst : s.dev.chanState (c.num 0 1) = 1) (hevac : s.dev.tiers.evac = []) {e : Dev}
    (he : s.dev.evacuate (16 + c.num 0 1) c.place = (rOk, e)) (hon : e.tiers.evac = [(16 + c.num 0 1, c.place)]) :
    exec .channelEvacuate s = s.settling (e.begun c (c.num 0 1)) := by
  refine exec_starts rfl h rfl ((if_neg (Nat.not_le.2 ha)).trans ((if_neg ?_).trans ((if_neg ?_).trans ?_)))
  · simp [hst]
  · simp [hst, hevac]
  · rw [he]
    exact (if_neg (by simp [hon])).trans (started_ok rfl)

end

variable (h : s.Serves c 0xC019 1 [(0, 1)] .op)
include h

theorem exec_channelOffline_evacuated (hst : s.dev.chanState (c.num 0 1) = 2) :
    exec .channelOffline s = s.ends c rOk [] (s.dev.setChanState (c.num 0 1) 3) :=
  exec_ends rfl h rfl ((if_neg (Nat.not_le.2 ha)).trans (if_neg (not_not.2 hst)))

theorem exec_channelOffline_online (hst : s.dev.chanState (c.num 0 1) = 1) : exec .channelOffline s = s.ends c rBusy [] s.dev :=
  exec_ends rfl h rfl ((if_neg (Nat.not_le.2 ha)).trans (if_pos (by simp [hst])))

end

/-! ### CHANNEL_RETRAIN (R219, R231) -/

section
variable (h : s.Serves c 0xC01A 3 [(0, 3)] .op) {n : Nat} (ha : c.num 0 1 = n) {popOk : Bool} {t : TrainRes}
include h ha

theorem exec_channelRetrain_refused {r : Nat} (hr : r ≠ rOk)
    (hx : s.dev.chanRetrain n (c.num 1 1) (c.num 2 1) popOk t = (r, s.dev)) :
    exec (.channelRetrain popOk t) s = s.ends c r [] s.dev := by
  subst ha
  exact exec_ends rfl h rfl (atOnce_refused hx hr)

theorem exec_channelRetrain_trains {e : Dev} (hx : s.dev.chanRetrain n (c.num 1 1) (c.num 2 1) popOk t = (rOk, e)) :
    exec (.channelRetrain popOk t) s = s.settling ((e.begun c n).bgEnd c.op n rOk []) := by
  subst ha
  exact exec_completes rfl h rfl (atOnce_ok hx)

end

/-! ### RETIRE_FRAME, RETIRE_BANK (R237, R238) -/

section
variable (hrange : c.frameRange = true) {f : Frame} (hok : s.dev.frameOk f = true) (hretired : s.dev.tiers.retired = [])
  (hretiring : s.dev.tiers.retiring = []) (hrepair : s.dev.repairSlot ≠ none)
include hrange hok hretired hretiring hrepair

section
variable (h : s.Serves c 0xC020 12 [(0, 5), (8, 4)] .op) (hf : c.frame (c.num 8 4) = f)
include h hf

theorem exec_retireFrame_full (hfree : s.dev.spareFree f = 0) : exec .retireFrame s = s.ends c rNoSpace [] s.dev := by
  have hretire : s.dev.retire f false c.place = (rNoSpace, s.dev) :=
    (Dev.retire_first (bank := false) hok nofun hretired hretiring hrepair).trans (if_pos (by simp [hfree, Dev.namedFrames]))
  refine exec_ends rfl h rfl ((if_neg (by simp [hrange])).trans ((if_neg (by simp [hretired])).trans ?_))
  rw [hf]
  exact started_refused hretire (by decide)

theorem exec_retireFrame_starts (hfree : 1 ≤ s.dev.spareFree f) :
    exec .retireFrame s = s.settling ((s.dev.retiresFirst f [f] false c.place).begun c f.home) := by
  have hretire : s.dev.retire f false c.place = (rOk, s.dev.retiresFirst f [f] false c.place) :=
    (Dev.retire_first (bank := false) hok nofun hretired hretiring hrepair).trans (if_neg (Nat.not_lt.2 hfree))
  refine exec_starts rfl h rfl ((if_neg (by simp [hrange])).trans ((if_neg (by simp [hretired])).trans ?_))
  rw [hf]
  exact started_ok hretire

end

theorem exec_retireBank_starts (h : s.Serves c 0xC021 5 [(0, 5)] .op) (hf : c.frame 0 = f)
    (hfree : (s.dev.bankFrames f).length ≤ s.dev.spareFree f) :
    exec .retireBank s = s.settling ((s.dev.retiresFirst f (s.dev.bankFrames f) true c.place).begun c f.home) := by
  have hretire : s.dev.retire f true c.place = (rOk, s.dev.retiresFirst f (s.dev.bankFrames f) true c.place) :=
    (Dev.retire_first hok (fun _ => hf ▸ rfl) hretired hretiring hrepair).trans (if_neg (Nat.not_lt.2 hfree))
  refine exec_starts rfl h rfl ((if_neg (by simp [hrange])).trans ?_)
  rw [hf]
  exact started_ok hretire

end

/-! ### MARGIN (R235) -/

section
variable (h : s.Serves c 0xC022 7 [(0, 7)] .op) (res : List (Byte × Byte))
include h

theorem exec_margin_noPlace (hrange : c.frameRange = false) : exec (.margin res) s = s.ends c rInvalid [] s.dev :=
  exec_ends rfl h rfl (if_pos (by simp [hrange]))

/-! A display channel of a present stack, with the bytes of a depot channel clear. -/

variable (hrange : c.frameRange = true) (ha : c.num 0 1 = 0) (haxis : c.num 4 1 ≤ 4) (hslot : c.num 3 1 = 0) (hrank : c.num 5 1 = 0)
  (hdev : c.num 6 1 = 0xFF) (hstack : s.dev.asm.hasStack (c.num 1 1) = true)
include hrange ha haxis hslot hrank hdev hstack

theorem exec_margin_evacuating (hst : s.dev.stackState (c.num 1 1) = 2) : exec (.margin res) s = s.ends c rBusy [] s.dev := by
  refine exec_ends rfl h rfl ((if_neg ?_).trans ((if_neg ?_).trans ((if_neg ?_).trans (if_pos ?_))))
  · simp [hrange, ha, haxis, hslot, hrank, hdev]
  · simp [ha]
  · simp [hstack, hst]
  · simp [hst]

theorem exec_margin_measures (hst : s.dev.stackState (c.num 1 1) ≠ 0) (hst' : s.dev.stackState (c.num 1 1) ≠ 2)
    (hfault : s.dev.chanFaulted (32 * c.num 1 1 + c.num 2 1) = false) : exec (.margin res) s =
      s.settling ((s.dev.begun c (32 * c.num 1 1 + c.num 2 1)).bgEnd c.op (32 * c.num 1 1 + c.num 2 1) rOk
        (le 2 res.length ++ res.flatMap (fun p => [p.1, p.2]))) := by
  refine exec_completes rfl h rfl ((if_neg ?_).trans ((if_neg ?_).trans ((if_neg ?_).trans ((if_neg ?_).trans (atOnce_ok rfl)))))
  · simp [hrange, ha, haxis, hslot, hrank, hdev]
  · simp [ha]
  · simp [hstack, hst]
  · simp [hst', hfault]

end

end

/-- Settles O51: each clause is a branch of its command's rule, with what the command does to the device. -/
theorem tierCommands : Obligations.TierCommands := by
  unfold Obligations.TierCommands
  intro s c d a no starts done
  refine ⟨fun h => ⟨fun ha => ?_, fun ha howned => ?_, fun ha hmoves => ?_⟩, fun h hn hn' hp => ?_, fun h ha hbyte hn hn' hp => ?_,
    fun h => ⟨fun hst => ?_, fun hst hk => ?_, fun hst hk _ => ?_, fun hst hk _ i x hreg hslot => ?_⟩,
    fun h => ⟨fun ha => ?_, fun ha hst => ?_, fun ha hst hevac r hr => ?_⟩,
    fun hw hzero => ⟨fun h => ⟨fun hb => ?_, fun hb hx => ?_, fun hb hx hn howns => ?_,
      fun hb hx hn howns hfits hopen hz k l hfind => ?_⟩, fun h hb hx hn howns hopen k l hfind hpinned => ?_⟩,
    fun h => ⟨fun ha => ?_, fun ha hstack => ?_, fun ha hstack hst => ?_, fun ha hstack hst hevac e he hon => ?_⟩,
    fun h => ⟨fun ha => ?_, fun ha hst => ?_, fun ha hst => ?_, fun ha hst hevac e he hon => ?_⟩,
    fun h ha => ⟨fun hst => ?_, fun hst => ?_⟩,
    fun h t => ⟨fun ha => ?_, fun ha hn hk hstack hst hrepair => ?_, fun ha hn hk hst => ?_, fun ha hn hk hst => ?_⟩,
    fun hrange f hf hok hretired hretiring hrepair => ⟨fun h => ⟨fun hfree => ?_, fun hfree => ?_⟩, fun h hrow hfree => ?_⟩,
    fun h res => ⟨fun hrange => ?_, fun hrange ha haxis hslot hrank hdev hstack => ⟨fun hst hst' hfault => ?_, fun hst => ?_⟩⟩⟩
  -- STRIPE_LIMIT
  · exact exec_ends rfl h rfl (atOnce_refused (Dev.stripeLimit_above ha) (by decide))
  · exact exec_ends rfl h rfl (atOnce_refused (Dev.stripeLimit_owned ha howned) (by decide))
  · exact exec_completes rfl h rfl (atOnce_ok (Dev.stripeLimit_still ha hmoves))
  -- LOCATION_READ, TIER_STATS
  · exact exec_ends rfl h rfl (if_neg (by simp; omega))
  · exact exec_tierStats_heat h ha hbyte hn hn' hp
  -- ROTATE
  · exact exec_rotate_refused h (by decide) (Dev.rotate_unpopulated hst)
  · exact exec_rotate_refused h (by decide) (Dev.rotate_noKind hst hk)
  · exact exec_rotate_refused h (by decide) (hk ▸ Dev.rotate_moving hst)
  · exact exec_rotate_starts h (hk ▸ Dev.rotate_starts hst hreg hslot)
  -- ROTATE_ABORT
  · exact exec_ends rfl h rfl (plain_eq (Dev.rotAbort_noRegister ha))
  · exact exec_ends rfl h rfl (plain_eq (Dev.rotAbort_switching ha hst))
  · exact exec_ends rfl h rfl (plain_eq (Dev.rotAbort_copying ha hst hevac hr))
  -- ATRIUM_PIN, ATRIUM_UNPIN
  · exact exec_atriumPin_refused hw h hzero (by decide) (Dev.atriumPin_noAtrium hb _ _)
  · exact exec_atriumPin_refused hw h hzero (by decide) (Dev.atriumPin_unaligned hb hx _ _)
  · exact exec_atriumPin_refused hw h hzero (by decide) (hn ▸ Dev.atriumPin_foreign hb hx (hn ▸ howns) _)
  · refine exec_atriumPin_pins hw h hzero hopen ?_
    rw [show c.num 16 8 = 256 from hn] at howns hfits ⊢
    rw [hz]
    exact Dev.atriumPin_zeroes hb hx howns hfind hfits
  · refine exec_atriumUnpin hw h hopen ?_
    rw [show c.num 16 8 = 256 from hn] at howns ⊢
    exact Dev.atriumUnpin_cleans hb hx howns hfind hpinned
  -- STACK_EVACUATE
  · exact exec_ends rfl h rfl (if_pos ha)
  · exact exec_stackEvacuate_absent h ha hstack
  · exact exec_stackEvacuate_retired h ha hstack hst
  · exact exec_stackEvacuate_starts h ha hstack hst hevac he hon
  -- CHANNEL_EVACUATE, CHANNEL_OFFLINE
  · exact exec_ends rfl h rfl (if_pos ha)
  · exact exec_channelEvacuate_absent ha h hst
  · exact exec_channelEvacuate_evacuated ha h hst
  · exact exec_channelEvacuate_starts ha h hst hevac he hon
  · exact exec_channelOffline_evacuated ha h hst
  · exact exec_channelOffline_online ha h hst
  -- CHANNEL_RETRAIN
  · exact exec_channelRetrain_refused h rfl (by decide) (Dev.chanRetrain_noTier ha _)
  · exact exec_channelRetrain_trains h ha (Dev.chanRetrain_stack hn hk hstack hst hrepair)
  · exact exec_channelRetrain_refused h ha (by decide) (hn ▸ Dev.chanRetrain_unfit hk hst)
  · exact exec_channelRetrain_trains h ha (hn ▸ Dev.chanRetrain_online hk hst)
  -- RETIRE_FRAME, RETIRE_BANK
  · exact exec_retireFrame_full hrange hok hretired hretiring hrepair h hf hfree
  · exact exec_retireFrame_starts hrange hok hretired hretiring hrepair h hf hfree
  · have hrow0 : c.num 8 4 = 0 := by rw [← hrow, ← hf, MbCmd.frame]
    exact exec_retireBank_starts hrange hok hretired hretiring hrepair h (hrow0 ▸ hf) hfree
  -- MARGIN
  · exact exec_margin_noPlace h res hrange
  · exact exec_margin_measures h res hrange ha haxis hslot hrank hdev hstack hst hst' hfault
  · exact exec_margin_evacuating h res hrange ha haxis hslot hrank hdev hstack hst

end Sys2Proof.Machine
end

section
/-! SUPPORT. Every command ends with the status display or leaves the device alone, and the display shows what the state holds
(R255, R443, R451). -/

namespace Sys2Proof.Machine

/-- A command of the fast logic: the status display follows it, and while the logic does not run it changes nothing. -/
def State.fast (s : State) (f : Dev → Dev) : Out := s.next (fun d => if d.live then (f d).show else d)

/-- Each command is one of the fast logic, or of the pins, the selvage and the ledger (R20, R434). -/
theorem exec_wrapped (c : Instr) (s : State) : ∃ f, exec c s = if alwaysOn c then s.aon f else s.fast f := by
  cases c <;> exact ⟨_, rfl⟩

/-- A command leaves the device as it is, or ends with the status display. -/
theorem exec_shows {c : Instr} {s t : State} (h : exec c s = .next t) : t.dev = s.dev ∨ ∃ d : Dev, t.dev = d.show := by
  obtain ⟨f, hf⟩ := exec_wrapped c s
  rw [hf] at h
  split at h
  · cases h
    exact .inr ⟨_, rfl⟩
  · cases h
    by_cases hl : s.dev.live = true
    · exact .inr ⟨_, if_pos hl⟩
    · exact .inl (if_neg hl)

/-- A step leaves the device as it is, or ends with the status display. -/
theorem step_shows {s t : State} (h : step s = .next t) : t.dev = s.dev ∨ ∃ d : Dev, t.dev = d.show := by
  unfold step at h
  split at h
  · exact (exec_shows h :)
  · cases h
    cases hon : s.dev.pins.aonPower && s.dev.pins.aonClk with
    | false => exact .inl (Dev.tickOn_off hon)
    | true =>
      obtain ⟨hp, hc⟩ := Bool.and_eq_true_iff.1 hon
      exact .inr ⟨_, if_neg (by simp [hp, hc])⟩

/-! ### The status display -/

/-- The home of an address depends on the assembly's layout registers alone (R203, R204). -/
theorem Dev.home_congr {d e : Dev} (hf : ∀ f n, f.id ∉ shownFields → e.fld f n = d.fld f n) : e.home = d.home := by
  have hd : e.dspSize = d.dspSize := congrArg (· * 2 ^ 28) (hf Fld.DSP_LAYOUT_SIZE 0 (by decide))
  have hp : e.depSize = d.depSize := congrArg (· * 2 ^ 28) (hf Fld.DEP_LAYOUT_SIZE 0 (by decide))
  have hl := hf Fld.DSP_LAYOUT_LIMIT 0 (by decide)
  have hm := hf Fld.DEP_LAYOUT_MODE 0 (by decide)
  funext a
  unfold Dev.home Dev.zEnd Dev.groupMode
  rw [hd, hp, hl, hm]

theorem Dev.pageHomes_congr {d e : Dev} (hf : ∀ f n, f.id ∉ shownFields → e.fld f n = d.fld f n) : e.pageHomes = d.pageHomes := by
  have hd : e.dspSize = d.dspSize := congrArg (· * 2 ^ 28) (hf Fld.DSP_LAYOUT_SIZE 0 (by decide))
  have hl := hf Fld.DSP_LAYOUT_LIMIT 0 (by decide)
  have hm := hf Fld.DEP_LAYOUT_MODE 0 (by decide)
  funext p
  unfold Dev.pageHomes Dev.zEnd Dev.groupMode
  rw [Dev.home_congr hf, hd, hl, hm]

/-- The status display changes nothing that the engines at work depend on. -/
theorem Dev.busyEngines_show {d e : Dev} (h : SameBut d e) (hf : ∀ f n, f.id ∉ shownFields → e.fld f n = d.fld f n) :
    e.busyEngines = d.busyEngines := by
  have hh := Dev.home_congr hf
  have hp := Dev.pageHomes_congr hf
  obtain ⟨r, p, rfl⟩ := h
  unfold Dev.busyEngines
  rw [hh, hp]
  rfl

/-! The fields that the display sets last. -/

theorem Dev.showEnd_running (d : Dev) : d.showCons.showLedger.showFault.fld Fld.CONS_STATE_RUNNING 0 = d.runs.length % 2 ^ 8 := by
  rw [Dev.showFault_fld]
  unfold Dev.showLedger Dev.showCons
  rw [Dev.fld_setFld_ne _ _ _ _ _ _ (by decide), Dev.fld_setFld_ne _ _ _ _ _ _ (by decide),
    Dev.fld_setFld_ne _ _ _ _ _ _ (by decide), Dev.fld_setFld_same]
  rfl

theorem Dev.showEnd_waiting (d : Dev) : d.showCons.showLedger.showFault.fld Fld.CONS_STATE_WAITING 0 = d.runQ.length % 2 ^ 13 := by
  rw [Dev.showFault_fld]
  unfold Dev.showLedger Dev.showCons
  rw [Dev.fld_setFld_ne _ _ _ _ _ _ (by decide), Dev.fld_setFld_ne _ _ _ _ _ _ (by decide), Dev.fld_setFld_same]
  rfl

theorem Dev.showEnd_busy (d : Dev) : d.showCons.showLedger.showFault.fld Fld.CONS_BUSY_BUSY 0 = d.busyEngines % 2 ^ 64 := by
  rw [Dev.showFault_fld]
  unfold Dev.showLedger Dev.showCons
  rw [Dev.fld_setFld_ne _ _ _ _ _ _ (by decide), Dev.fld_setFld_ne _ _ _ _ _ _ (by decide),
    Dev.fld_setFld_ne _ _ _ _ _ _ (by decide), Dev.fld_setFld_ne _ _ _ _ _ _ (by decide), Dev.fld_setFld_same]
  rfl

theorem Dev.showEnd_openCount (d : Dev) :
    d.showCons.showLedger.showFault.fld Fld.LEDGER_STATUS_OPEN_COUNT 0 = d.openRecords % 2 ^ 11 := by
  rw [Dev.showFault_fld]
  unfold Dev.showLedger
  rw [Dev.fld_setFld_ne _ _ _ _ _ _ (by decide), Dev.fld_setFld_same]
  rfl

/-- In the run phase FAULT_N says whether an open record reaches PIN_CLASS (R451). -/
theorem Dev.showFault_pinFault {d : Dev} (h : d.showFault.pins.phase = .run) : d.showFault.pins.fault = d.showFault.pinFault := by
  by_cases hp : d.pins.phase = .run
  · have hshow : d.showFault = { d with pins := { d.pins with fault := d.pinFault } } := if_neg (not_not.2 hp)
    rw [hshow]
    rfl
  · have hshow : d.showFault = d := if_pos hp
    exact absurd (hshow ▸ h) hp

/-- Showing the queues changes only registers that show the state. -/
theorem Dev.showQueues_same (d : Dev) (qs : List Nat) : SameBut d (qs.foldl Dev.showQueue d) ∧
    ∀ f n, f.id ∉ shownFields → (qs.foldl Dev.showQueue d).fld f n = d.fld f n :=
  ⟨foldl_keeps (SameBut d) (fun _ _ he => (((he.setFld ..).setFld ..).setFld ..).setFld ..) _ d (SameBut.refl d), fun f n h =>
    foldl_keeps (fun e : Dev => e.fld f n = d.fld f n) (fun e q he => (e.showQueue_fld q f n h).trans he) _ d rfl⟩

/-- The status display shows what the state holds. -/
theorem Dev.show_shown (d : Dev) : d.show.Shown := by
  have hbusy : d.show.busyEngines = d.busyEngines := Dev.busyEngines_show d.show_sameBut d.show_fld
  have hopen : d.show.openRecords = d.openRecords := by unfold Dev.openRecords; rw [Dev.show_ledger]
  obtain ⟨hq, hfld⟩ := d.showQueues_same d.boundQueues
  have hbusyq := Dev.busyEngines_show hq hfld
  obtain ⟨r, p, hq⟩ := hq
  unfold Dev.Shown
  rw [hbusy, hopen, Dev.show_runs, Dev.show_runQ, ← hbusyq]
  refine ⟨?_, ?_, Dev.showEnd_busy _, ?_, Dev.showFault_pinFault⟩
  · exact (Dev.showEnd_running _).trans (by rw [hq])
  · exact (Dev.showEnd_waiting _).trans (by rw [hq])
  · exact (Dev.showEnd_openCount _).trans (by rw [hq]; rfl)

/-- Settles O5: a step leaves the device as it is, or ends with the status display. -/
theorem stepKeepsShown : Obligations.StepKeepsShown := by
  unfold Obligations.StepKeepsShown
  intro s t hs h
  obtain hd | ⟨d, hd⟩ := step_shows h
  · rwa [hd]
  · rw [hd]
    exact d.show_shown

end Sys2Proof.Machine
end

section
/-! SUPPORT. Chunks of the conservators' routines: a command of the entry's routine runs a chunk, and a chunk that is not the
entry's last moves the run on by its elements (R242, R255, R258). -/

namespace Sys2Proof.Machine

section
variable {s : State} {r : BitVec 12} {slot op m total : Nat} {x : Run} {e : Entry}

/-- A command of the routine of an entry in progress runs the routine's rule on it. -/
theorem exec_inEntry {i : Instr} {f : Dev → Nat → Run → Entry → Dev} (hi : exec i s = s.run fun d => d.runChunk r.toNat op f)
    (h : s.InEntry r op slot x e) : exec i s = s.settling (f s.dev slot x e) := by
  obtain ⟨hlive, hrun, hentry, hended, hstop, hop⟩ := h
  have hchunk : s.dev.runChunk r.toNat op f = f s.dev slot x e := by
    unfold Dev.runChunk
    simp [hrun, hentry, hended, hstop, hop]
  rw [hi, State.run_live _ hlive, hchunk]

theorem Dev.chunkDone_mid (d : Dev) (h : x.pos + m < total) : d.chunkDone slot x e m total = d.setRun slot { x with pos := x.pos + m } :=
  if_neg (Nat.not_le.2 h)

/-! ### Routines over elements (R265, R269) -/

/-- STATUS bits of those elements of a chunk's operands that are there. -/
def chunkNan (cols : List (List (Cv × Bool) × Dev)) (m : Nat) : Nat := (List.range m).foldl (fun (v : Nat) i =>
  cols.foldl (fun (v : Nat) c => if (colAt c i).2 then v else v ||| (colAt c i).1.2) v) 0

/-- Past the end of a column nothing is read: counted as lost or as zero it adds no bit. -/
theorem colAt_bits (c : List (Cv × Bool) × Dev) (i v : Nat) :
    (if (c.1.getD i ((0, 0), true)).2 then v else v ||| (c.1.getD i ((0, 0), true)).1.2) =
      if (colAt c i).2 then v else v ||| (colAt c i).1.2 := by
  unfold colAt
  cases h : c.1[i]? <;> simp [h]

/-- Reads the operands `ins` of a chunk in order: their columns, and the device after the last. -/
def Dev.chunkIns (d : Dev) (x : Run) (e : Entry) (ins : List Nat) (m : Nat) : List (List (Cv × Bool)) × Dev :=
  ins.foldl (fun (a : List (List (Cv × Bool)) × Dev) k => (a.1 ++ [(a.2.chunkIn x e k m).1], (a.2.chunkIn x e k m).2)) ([], d)

/-- Writes the operands `outs` of a chunk in order, each with its value of every index: STATUS bits and device. -/
def Dev.chunkOuts (d : Dev) (x : Run) (e : Entry) (outs : List Nat) (m bits : Nat) (fs : Nat → List Cv) (lost : Nat → Bool) :
    Nat × Dev :=
  ((List.range outs.length).zip outs).foldl (fun (a : Nat × Dev) (p : Nat × Nat) =>
    let o := a.2.chunkOut x e p.2 ((List.range m).map (fun i => ((fs i).getD p.1 (0, 0), lost i)))
    (a.1 ||| o.1, o.2)) (bits, d)

/-- A chunk of a routine over elements that is not the entry's last: the operands are read, each index gives its values, the
outputs are written, and the run goes on past the chunk. -/
theorem Dev.runElems_mid {d d1 : Dev} {ins outs : List Nat} {g : Run → Entry → List Cv → List Cv}
    {cols : List (List (Cv × Bool) × Dev)} {fs : Nat → List Cv} {lost : Nat → Bool} (hmid : d.MidChunk slot x e m e.n)
    (hin : (d.endAsks (runWork slot)).chunkIns x e ins m = (cols.map (·.1), d1))
    (hg : ∀ i, g x e (cols.map (fun c => (colAt c i).1)) = fs i) (hlost : ∀ i, cols.any (fun c => (colAt c i).2) = lost i) :
    d.runElems ins outs g slot x e =
      (d1.chunkOuts x e outs m (x.bits ||| chunkNan cols m) fs lost).2.setRun slot
        { x with pos := x.pos + m, bits := (d1.chunkOuts x e outs m (x.bits ||| chunkNan cols m) fs lost).1 } := by
  obtain ⟨hm, hlast, hready⟩ := hmid
  have hnan : (List.range m).foldl (fun (s : Nat) i => (cols.map (·.1)).foldl (fun (s : Nat) c =>
      if (c.getD i ((0, 0), true)).2 = true then s else s ||| (c.getD i ((0, 0), true)).1.2) s) 0 = chunkNan cols m := by
    unfold chunkNan
    simp only [List.foldl_map, colAt_bits]
  have hrows : (List.range m).map (fun i => (g x e (((cols.map (·.1)).map (fun c => c.getD i ((0, 0), false))).map (·.1)),
      ((cols.map (·.1)).map (fun c => c.getD i ((0, 0), false))).any (·.2))) = (List.range m).map (fun i => (fs i, lost i)) := by
    refine List.map_congr_left fun i _ => ?_
    rw [← hg, ← hlost]
    simp [colAt, Function.comp_def]
  unfold Dev.chunkIns at hin
  unfold Dev.runElems
  dsimp only
  rw [← hm, Dev.onChunk_ready _ hready, hin, hnan, hrows]
  simp only [List.map_map]
  exact Dev.chunkDone_mid (x := { x with bits := _ }) _ hlast


/-- The same for a command of the routine. -/
theorem exec_elems_mid {i : Instr} {d1 d2 : Dev} {ins outs : List Nat} {g : Run → Entry → List Cv → List Cv} {bits : Nat}
    {cols : List (List (Cv × Bool) × Dev)} {fs : Nat → List Cv} {lost : Nat → Bool}
    (hi : exec i s = s.run fun d => d.runChunk r.toNat op (Dev.runElems ins outs g)) (h : s.InEntry r op slot x e)
    (hmid : s.dev.MidChunk slot x e m e.n) (hin : (s.dev.endAsks (runWork slot)).chunkIns x e ins m = (cols.map (·.1), d1))
    (hg : ∀ i, g x e (cols.map (fun c => (colAt c i).1)) = fs i) (hlost : ∀ i, cols.any (fun c => (colAt c i).2) = lost i)
    (hout : d1.chunkOuts x e outs m (x.bits ||| chunkNan cols m) fs lost = (bits, d2)) :
    exec i s = s.settling (d2.setRun slot { x with pos := x.pos + m, bits := bits }) := by
  rw [exec_inEntry hi h, Dev.runElems_mid hmid hin hg hlost, hout]

end

/-- Settles O32: a chunk of each routine reads its operands in order, computes the routine's values at each index, and writes its
outputs in order. -/
theorem routineElements : Obligations.RoutineElements := by
  unfold Obligations.RoutineElements
  intro s r slot m x e hmid c0 c1 c2 gs a b c lost2 lost3 vals nan goes
  have hlost2 (i : Nat) : [c0, c1].any (fun c => (colAt c i).2) = lost2 i := by simp [lost2]
  have hlost3 (i : Nat) : [c0, c1, c2].any (fun c => (colAt c i).2) = lost3 i := by simp [lost3, Bool.or_assoc]
  refine ⟨fun h => ?_, fun h => ?_, fun h => ?_, fun h => ?_, fun h => ?_⟩
  · exact exec_elems_mid (cols := [c0]) (fs := fun i => [cMul (cMul (e.p 0) gs) (a i)]) rfl h hmid rfl (fun _ => rfl)
      (fun _ => Bool.or_false _) rfl
  · exact exec_elems_mid (cols := [c0, c1]) (fs := fun i => [cFma (cMul (e.p 0) gs) (a i) (b i)]) rfl h hmid rfl (fun _ => rfl) hlost2 rfl
  · intro g mm st o q
    exact exec_elems_mid (cols := [c0, c1, c2]) (fs := fun i => [cFma (cNeg (e.p 0)) (st i) (a i), mm i]) rfl h hmid rfl
      (fun _ => rfl) hlost3 rfl
  · intro g cc o q
    exact exec_elems_mid (cols := [c0, c1, c2]) (fs := fun i =>
      [cFma (a i) (cSub cOne (cMul (e.p 0) (e.p 4))) (cNeg (cMul (e.p 0) (cSign (cc i)))),
       cFma (e.p 2) (b i) (cMul (cSub cOne (e.p 2)) (g i))]) rfl h hmid rfl (fun _ => rfl) hlost3 rfl
  · intro c3 lost f1 f2 g mm v den o p q
    have hlost (i : Nat) : [c0, c1, c2, c3].any (fun c => (colAt c i).2) = lost i := by simp [lost, lost3, Bool.or_assoc]
    exact exec_elems_mid (cols := [c0, c1, c2, c3]) (fs := fun i =>
      [cFma (a i) (cSub cOne (cMul (e.p 0) (e.p 4))) (cNeg (cMul f1 (cDiv (mm i) (den i)))), mm i, v i]) rfl h hmid rfl (fun _ => rfl)
      hlost rfl

end Sys2Proof.Machine
end

section
/-! SUPPORT. Chunks of the byte routines, of the sums and of REQUANT, and what CLIP_APPLY and ADAM compute when their entry starts
(R242, R263, R265 to R267). -/

namespace Sys2Proof.Machine

section
variable {d : Dev} {slot m : Nat} {x : Run} {e : Entry}

section
variable (hm : m = min 65536 (e.n - x.pos)) (hlast : x.pos + m < e.n) (hready : d.chunkReady slot x e m = true)
include hm hlast hready

theorem Dev.runBytes_zero : d.runBytes false slot x e =
    ((d.endAsks (runWork slot)).spanWrite (e.addr 0 + x.pos) m 0 [] e.place (d.regionWing x.region)).setRun slot
      { x with pos := x.pos + m } := by
  unfold Dev.runBytes
  dsimp only
  rw [← hm, Dev.onChunk_ready _ hready]
  exact Dev.chunkDone_mid _ hlast

theorem Dev.runBytes_copy {v : Nat} {lost : List Nat} {d1 : Dev}
    (hread : (d.endAsks (runWork slot)).spanRead (e.addr 0 + x.pos) m = (v, lost, d1)) : d.runBytes true slot x e =
    (d1.spanWrite (e.addr 1 + x.pos) m v (lost.map (fun u => u - e.addr 0 / 64 + e.addr 1 / 64)) e.place
      (d1.regionWing x.region)).setRun slot
        { x with pos := x.pos + m, bits := x.bits ||| (if lost.isEmpty then 0 else stPoison) } := by
  unfold Dev.runBytes
  dsimp only
  rw [← hm, Dev.onChunk_ready _ hready, hread]
  exact Dev.chunkDone_mid (x := { x with bits := _ }) _ hlast

end

/-- The sum of squares of one lane of a chunk (R266): every 64th element, a lost one as the canonical NaN. -/
def normLane (vs : List (Cv × Bool)) (l : Nat) : Cv := (List.range 16).foldl (fun (a : Cv) j =>
  vs[l + 64 * j]?.elim a (fun v => let b : Cv := if v.2 then (canonNaN .fp32, 0) else v.1; cFma b b a)) (0, 0)

/-- The run after a chunk of NORM2 whose lanes have the sums `lane`: a tree adds them to the run scalar. -/
def Run.normed (x : Run) (e : Entry) (m : Nat) (vs : List (Cv × Bool)) (lane : Nat → Cv) : Run :=
  let part := (Dev.runNorm.tree 6 ((List.range 64).map lane)).getD 0 (0, 0)
  let old := x.xs.getD e.xdst 0
  let sum := cAdd (old, if cNaN old then stNanIn else 0) part
  { x with pos := x.pos + m, xs := x.xs.set e.xdst sum.1, bits := x.bits ||| sum.2 ||| (if vs.any (·.2) then stPoison else 0) }

theorem Dev.runNorm_mid (hmid : d.MidChunk slot x e m e.n) {vs : List (Cv × Bool)} {d1 : Dev}
    (hin : (d.endAsks (runWork slot)).chunkIn x e 0 m = (vs, d1)) :
    d.runNorm slot x e = d1.setRun slot (x.normed e m vs (normLane vs)) := by
  obtain ⟨hm, hlast, hready⟩ := hmid
  unfold Dev.runNorm
  dsimp only
  rw [← hm, Dev.onChunk_ready _ hready, hin]
  refine (Dev.chunkDone_mid d1 (by exact hlast)).trans ?_
  refine congrArg (fun lane => d1.setRun slot (x.normed e m vs lane)) (funext fun l => List.foldl_ext _ _ _ fun a j _ => ?_)
  cases vs[l + 64 * j]? <;> rfl

/-- CLIP_APPLY with elements is a routine over elements: each times the run's factor. -/
theorem Dev.runClip_elems (hn : e.n ≠ 0) : d.runClip slot x e =
    d.runElems [0] [0] (fun x e v => [cMul (x.xs.getD e.xdst 0, 0) (v.getD 0 (0, 0))]) slot x e := if_neg hn

/-- The clip factor of an entry of CLIP_APPLY (R265). -/
theorem Run.entryStart_clip (h : e.op = 6) :
    (x.entryStart e).xs = x.xs.set e.xdst (cMin1 (cDiv (e.p 0) (cAdd (cSqrt (x.gs e)) (e.p 1)))).1 := by
  unfold Run.entryStart
  rw [h]
  rfl

theorem Run.entryStart_adam (h : e.op = 9) :
    (x.entryStart e).s0 = (cMul (x.s0, 0) (e.p 1)).1 ∧ (x.entryStart e).s1 = (cMul (x.s1, 0) (e.p 2)).1 := by
  unfold Run.entryStart
  rw [h]
  exact ⟨rfl, rfl⟩

/-- The blocks of a chunk of m elements of REQUANT: row, block in the row (R267). -/
def Run.blocks (x : Run) (e : Entry) (m : Nat) : List (Nat × Nat) :=
  (List.range (m / fmtBlock (e.fmt 1))).map (fun i =>
    ((x.pos / fmtBlock (e.fmt 1) + i) / (e.k / fmtBlock (e.fmt 1)), (x.pos / fmtBlock (e.fmt 1) + i) % (e.k / fmtBlock (e.fmt 1))))

/-- The spans that blocks are read from, and those of their codes and scales. -/
def Entry.blockReads (e : Entry) (bs : List (Nat × Nat)) : List Span := bs.map (fun p =>
  (e.addr 0 + p.1 * e.pitch 0 + p.2 * fmtBlock (e.fmt 1) * fBytes (e.fmt 0), fmtBlock (e.fmt 1) * fBytes (e.fmt 0)))
def Entry.blockWrites (e : Entry) (bs : List (Nat × Nat)) : List Span := bs.flatMap (fun p =>
  [(e.addr 1 + p.1 * e.pitch 1 + p.2 * fmtBlock (e.fmt 1) * fmtBits (e.fmt 1) / 8, fmtBlock (e.fmt 1) * fmtBits (e.fmt 1) / 8),
   (e.addr 2 + p.1 * e.pitch 2 + p.2, 1)])

/-- A chunk of REQUANT that is not the entry's last quantizes its blocks in order (R267). -/
theorem Dev.runRequant_mid (hm : m = min 1024 (e.rows * e.k - x.pos)) {y : Run} {d1 : Dev}
    (hout : (x.blocks e m).foldl (fun (a : Run × Dev) p => Dev.requantBlock e p.1 p.2 a) (x, d.endAsks (runWork slot)) = (y, d1))
    (hlast : y.pos + m < e.rows * e.k)
    (hready : d.spansReady (runWork slot) (e.blockReads (x.blocks e m))
      ((d.entryAddr x.region x.idx, 128) :: e.blockWrites (x.blocks e m)) = true) :
    d.runRequant slot x e = d1.setRun slot { y with pos := y.pos + m } := by
  unfold Dev.runRequant
  dsimp only
  rw [← hm]
  refine (Dev.withSpans_ready _ hready).trans (Eq.trans ?_ (Dev.chunkDone_mid (e := e) d1 hlast))
  exact (congrArg (fun z : Run × Dev => z.2.chunkDone slot z.1 e m (e.rows * e.k)) hout :)

end

/-- Settles O31: a chunk of each routine does the routine's work on it, and an entry of CLIP_APPLY or ADAM starts with its factor
or its powers. -/
theorem routineChunks : Obligations.RoutineChunks := by
  unfold Obligations.RoutineChunks
  intro s r slot m x e d w next lane
  refine ⟨fun hm hlast hready => ⟨fun h => ?_, fun h => ?_⟩, fun hmid => ?_, Run.entryStart_clip, Run.entryStart_adam, fun h => ?_⟩
  · rw [exec_inEntry (i := .zero r) rfl h, Dev.runBytes_zero hm hlast hready]
    rfl
  · rw [exec_inEntry (i := .snapshot r) rfl h, Dev.runBytes_copy hm hlast hready rfl]
    rfl
  · intro c lost
    refine ⟨fun h => ?_, fun h => ?_⟩
    · have hlane : normLane c.1 = lane c.1 := by
        refine funext fun l => List.foldl_ext _ _ _ fun a j _ => ?_
        cases c.1[l + 64 * j]? <;> rfl
      rw [exec_inEntry (i := .norm2 r) rfl h, Dev.runNorm_mid hmid rfl]
      exact congrArg (fun lane => s.settling (c.2.setRun slot (x.normed e m c.1 lane))) hlane
    · intro f out nan
      obtain ⟨hm, hlast, hready⟩ := hmid
      rw [exec_inEntry (i := .clipApply r) rfl h, Dev.runClip_elems (by omega),
        Dev.runElems_mid (cols := [c]) ⟨hm, hlast, hready⟩ rfl (fun _ => rfl) (fun _ => Bool.or_false _)]
      rfl
  · intro L bs out rd wr hm hlast hready
    rw [exec_inEntry (i := .requant r) rfl h, Dev.runRequant_mid hm rfl hlast hready]
    rfl

end Sys2Proof.Machine
end

section
/-! SUPPORT. The control of a run: how it starts, how its list ends, how it ends and how it stops (R242, R255, R258, R262,
Tables 10-4 and 10-5). -/

namespace Sys2Proof.Machine

section
variable {d : Dev} {r slot : Nat} {x : Run} {e : Entry}

/-! ### The start -/

/-- The entries of a list of n, from the number that its bytes spell. -/
def listEntries (n v : Nat) : List Entry := (List.range n).map (fun i => BitVec.ofNat 1024 (v / 2 ^ (1024 * i)))

theorem listEntries_first (n v : Nat) : (listEntries (n + 1) v)[0]? = some (BitVec.ofNat 1024 v) := by
  simp [listEntries]

/-- The device in which a region that was triggered first has left the queue of runs and is RUNNING. -/
def Dev.runTaken (d : Dev) (r : Nat) (rest : List Nat) : Dev :=
  { (d.setRgState r rgRunning).setFld Fld.REGION_STATUS_FAULT r 0 with runQ := rest, rerun := Fmap.del d.rerun r }

/-- A region that is not rerun starts at the head of its list, when a slot is free and the list is to be had: a lost list stops
the run (R255, R268). -/
theorem Dev.runStart_first {rest : List Nat} (hq : d.runQ = r :: rest)
    (hslot : (List.range 16).find? (fun k => (Fmap.find d.runs k).isNone) = some slot) (hfresh : Fmap.find d.rerun r = none)
    (hdrain : d.fld Fld.CONS_STATE_DRAINING 0 = 0)
    (hready : d.spansReady (runWork slot) [(d.regListAddr r, 128 * (d.desc r 240 4 + 1))] [] = true)
    {v : Nat} {lost : List Nat} {d1 : Dev}
    (hread : ((d.endAsks (runWork slot)).runTaken r rest).spanRead (d.regListAddr r) (128 * (d.desc r 240 4 + 1)) = (v, lost, d1)) :
    d.runStart r = if lost.isEmpty then d1.enterEntry slot { region := r, entries := listEntries (d.desc r 240 4 + 1) v } 0
      else d1.stopRun slot { region := r, entries := listEntries (d.desc r 240 4 + 1) v } 3 := by
  have hfrom : Fmap.get (0, [0, 0, 0, 0]) d.rerun r = (0, [0, 0, 0, 0]) := Fmap.get_of_find_none hfresh
  unfold Dev.runStart
  simp only [hq, hslot, hfrom]
  refine (if_neg (by simp [hdrain])).trans ((Dev.withSpans_ready _ hready).trans ?_)
  have hentries : (List.range (d.desc r 240 4 + 1)).map (fun i =>
      if i < 0 then (0 : Entry) else BitVec.ofNat 1024 (v / 2 ^ (1024 * (i - 0)))) = listEntries (d.desc r 240 4 + 1) v :=
    List.map_congr_left fun i _ => if_neg (Nat.not_lt_zero i)
  rw [← hentries]
  exact congrArg (fun z : Nat × List Nat × Dev =>
    let x : Run := { region := r, entries := (List.range (d.desc r 240 4 + 1)).map (fun i =>
      if i < 0 then (0 : Entry) else BitVec.ofNat 1024 (z.1 / 2 ^ (1024 * (i - 0)))) }
    if z.2.1.isEmpty then z.2.2.enterEntry slot x 0 else z.2.2.stopRun slot x 3) hread

/-- An entry that passes its checks starts with its state words (R262, R265). -/
theorem Dev.enterEntry_ok {i : Nat} (hentry : x.entries[i]? = some e) {d1 : Dev} (hd : d.setFld Fld.REGION_STATUS_ENTRY x.region i = d1)
    (hok : d1.entryOk (d1.regionWing x.region) e = true) : d.enterEntry slot x i = d1.setRun slot (Run.entryStart
      { x with idx := i, pos := 0, bits := 0, s0 := e.fld 96 0 32, s1 := e.fld 100 0 32, seed := BitVec.ofNat 64 (e.fld 96 0 64) } e) := by
  subst hd
  unfold Dev.enterEntry
  simp only [hentry]
  exact if_pos hok

/-- An entry that fails a check stops the run with code 2 and writes STATUS 0 alone (R262, R269). -/
theorem Dev.enterEntry_illegal {i : Nat} (hentry : x.entries[i]? = some e) {d1 : Dev}
    (hd : d.setFld Fld.REGION_STATUS_ENTRY x.region i = d1) (hbad : d1.entryOk (d1.regionWing x.region) e = false)
    (hready : d1.spansReady (runWork slot) [] [(d1.entryAddr x.region i, 128)] = true) : d.enterEntry slot x i =
      (d1.entryStatus { x with idx := i, pos := 0, bits := 0 } 0).stopRun slot { x with idx := i, pos := 0, bits := 0 } 2 := by
  subst hd
  unfold Dev.enterEntry
  simp only [hentry]
  exact (if_neg (by simp [hbad])).trans (if_pos hready)

/-! ### The end of an entry, of a run, and its stop -/

/-- Only ADAM and REQUANT have state words. -/
theorem Dev.entryState_none (hadam : e.op ≠ 9) (hrequant : e.op ≠ 10) : d.entryState x e = d :=
  (if_neg hadam).trans (if_neg hrequant)

/-- END without STORE and HALT ends the list and shows DONE. -/
theorem Dev.runEndEntry_ends (hop : e.op = 0) (hstore : e.store = false) (hhalt : e.halt = false)
    (hready : d.spansReady (runWork slot) [] [(d.entryAddr x.region x.idx, 128)] = true) : d.runEndEntry slot x e =
      ((d.endAsks (runWork slot)).entryStatus x (x.bits ||| stDone)).setRun slot { x with ended := true } := by
  unfold Dev.runEndEntry
  rw [Dev.withSpans_ready _ hready]
  unfold Dev.entryEnd
  rw [Dev.entryState_none (by omega) (by omega)]
  simp only [hstore, hhalt, hop]
  rfl

/-- A run whose list has ended opens its region, advances the epoch word and sends the interrupt (Table 10-4 steps 4 to 6). -/
theorem Dev.runEnd_opens (hrun : d.runOf r = some (slot, x)) (hended : x.ended = true) (hstop : x.stop = none)
    (hready : d.spansReady (runWork slot) [] [(d.regEpochAddr r, 8)] = true) {v : Nat} {lost : List Nat} {d1 : Dev}
    (hread : ((({ d.endAsks (runWork slot) with runs := Fmap.del d.runs slot } : Dev).clearCounts r).setRgState r rgOpen).spanRead
      (d.regEpochAddr r) 8 = (v, lost, d1)) :
    d.runEnd r = (d1.spanWrite (d.regEpochAddr r) 8 ((v + 1) % 2 ^ 64) [] 0 (d1.regionWing r)).regionIrq r := by
  unfold Dev.runEnd
  simp only [hrun, hended, hstop]
  refine (if_neg (by simp)).trans ((Dev.withSpans_ready _ hready).trans ?_)
  exact (congrArg (fun z : Nat × List Nat × Dev =>
    (z.2.2.spanWrite (d.regEpochAddr r) 8 ((z.1 + 1) % 2 ^ 64) [] 0 (z.2.2.regionWing r)).regionIrq r) hread :)

/-- The device in which a run in a slot has stopped at entry i with a fault code (R258). -/
def Dev.runFaulted (d : Dev) (r slot i : Nat) (xs : List Nat) (c : Nat) : Dev :=
  let d2 : Dev := { d with runs := Fmap.del d.runs slot, rerun := Fmap.put d.rerun r (i, xs) }
  let d3 := ((d2.setRgState r rgFaulted).setFld Fld.REGION_STATUS_FAULT r c).setFld Fld.REGION_STATUS_ENTRY r i
  (d3.report (d3.runSrc r slot) (mkDetail (d3.entryAddr r i) r c) (d3.regionWing r)).regionIrq r

theorem Dev.stopRun_code (d : Dev) (slot : Nat) (x : Run) {c : Nat} (hc : c < 16) :
    d.stopRun slot x c = d.runFaulted x.region slot x.idx x.xs c := if_neg (Nat.not_le.2 hc)

/-- A run told to stop in an entry without state words writes the entry's STATUS and stops. -/
theorem Dev.runAbortStop_stops {c : Nat} (hrun : d.runOf r = some (slot, x)) (hregion : x.region = r) (hended : x.ended = false)
    (hstop : x.stop = some c) (hc : c < 16)
    (hready : d.spansReady (runWork slot) [] [(d.entryAddr r x.idx, 128)] = true)
    (hop : (x.entries[x.idx]?).all (fun e => decide (e.op < 9)) = true) :
    d.runAbortStop r = ((d.endAsks (runWork slot)).spanWrite (d.entryAddr r x.idx + 112) 4 x.bits [] 0
      (d.regionWing r)).runFaulted r slot x.idx x.xs c := by
  subst hregion
  unfold Dev.runAbortStop
  simp only [hrun, hended, hstop]
  refine (if_neg (by simp)).trans ((Dev.withSpans_ready _ hready).trans ?_)
  have hstate : (match x.entries[x.idx]? with
      | some e => if c = 2 then d.endAsks (runWork slot) else (d.endAsks (runWork slot)).entryState x e
      | none => d.endAsks (runWork slot)) = d.endAsks (runWork slot) := by
    cases hentry : x.entries[x.idx]? with
    | none => rfl
    | some e =>
      have hlt : e.op < 9 := by simpa [hentry] using hop
      exact (congrArg (ite _ _) (Dev.entryState_none (by omega) (by omega))).trans (ite_self _)
  exact (congrArg (fun d : Dev => (d.entryStatus x x.bits).stopRun slot x c) hstate).trans (Dev.stopRun_code _ _ _ hc)

end

/-- Settles O30: each clause is one of the ways in which a run starts, ends its list, ends or stops. -/
theorem runControl : Obligations.RunControl := by
  unfold Obligations.RunControl
  intro s r hlive d n lo
  have runs {i : Instr} {f : Dev → Dev} {e : Dev} (hi : exec i s = s.run f) (hf : f s.dev = e) : exec i s = s.settling e := by
    rw [hi, State.run_live _ hlive, hf]
  refine ⟨fun slot rest hq hslot hfresh hdrain hready => ?_, fun slot x e h hstore hhalt hready => ?_,
    fun slot x hrun hended hstop hready => ?_, fun slot x c hrun hregion hended hstop hc hready hop => ?_⟩
  · intro d0 d1 rd x e0 y
    have hstart := Dev.runStart_first hq hslot hfresh hdrain hready (v := rd.1) (lost := rd.2.1) (d1 := rd.2.2) rfl
    have hfirst : x.entries[0]? = some e0 := listEntries_first _ _
    refine ⟨fun hlost hok => ?_, fun hlost hbad hready => ?_, fun hlost => ?_⟩
    · refine runs (f := fun d => d.runStart r.toNat) rfl (hstart.trans ((if_pos (by rw [hlost]; rfl)).trans ?_))
      exact Dev.enterEntry_ok hfirst rfl hok
    · refine runs (f := fun d => d.runStart r.toNat) rfl (hstart.trans ((if_pos (by rw [hlost]; rfl)).trans ?_))
      exact Dev.enterEntry_illegal hfirst rfl hbad hready
    · exact runs (f := fun d => d.runStart r.toNat) rfl (hstart.trans (if_neg (by simpa using hlost)))
  · have ⟨_, _, _, _, _, hop⟩ := h
    rw [exec_inEntry (i := .listEnd r) rfl h, Dev.runEndEntry_ends hop hstore hhalt hready]
    rfl
  · exact runs (f := fun d => d.runEnd r.toNat) rfl (Dev.runEnd_opens hrun hended hstop hready rfl)
  · intro d1 d2 d3
    exact runs (f := fun d => d.runAbortStop r.toNat) rfl (Dev.runAbortStop_stops hrun hregion hended hstop hc hready hop)

end Sys2Proof.Machine
end

section
/-! SUPPORT. Region commands and the registrar's service commands, each as one of its rule's branches (R249, R254, R259, R317, R346,
R389, R391, R401 to R408, R441, R473, Table 10-11). -/

namespace Sys2Proof.Machine

section
variable {s : State} {c : MbCmd}

/-! ### Regions (R249, R254, R259, Table 10-11) -/

section
variable {d : Dev} {r k : Nat} {states : List Nat} {x : MbRes} (hr : r < 4096) (hw : d.regionWing r < 16) (hst : d.rgState r = k)
include hr hw hst

theorem Dev.onRegion_state (hk : k ∈ states) : d.onRegion r states x = x := by
  unfold Dev.onRegion
  rw [if_neg (Nat.not_le.2 hr), if_neg (Nat.not_le.2 hw), if_neg (by simpa [hst] using hk)]

theorem Dev.onRegion_busy (hk : k ∉ states) : d.onRegion r states x = .done rBusy [] d := by
  unfold Dev.onRegion
  rw [if_neg (Nat.not_le.2 hr), if_neg (Nat.not_le.2 hw), if_pos (by simpa [hst] using hk)]

end

/-- The device in which an accepted enable has set the counts to 0, written EPOCH_INIT and opened the region (R249). -/
theorem Dev.regionOpen_ready {d : Dev} {r : Nat} {v : BitVec 512} (h : d.epochReady r v = true) : d.regionOpen r v =
    (let e := ({ d.endAsks (.region (BitVec.ofNat 12 r)) with regions := Fmap.put d.regions r v } : Dev).clearCounts r
     let e := e.spanWrite (descField v 128 48) 8 (descField v 256 64) [] 0 (e.regionWing r)
     (e.setRgState r rgOpen).setFld Fld.REGION_STATUS_FAULT r 0) := Dev.withSpans_ready _ h

/-- An abort takes a WAITING region that is not rerun out of the queue and makes it FAULTED with code 4 at entry 0 (R258, R259). -/
theorem Dev.abortRegion_waiting {d : Dev} {r : Nat} (hst : d.rgState r = rgWaiting) (hfresh : Fmap.find d.rerun r = none) :
    d.abortRegion r 4 =
      (let e := ((({ d with runQ := d.runQ.filter (· ≠ r) } : Dev).setRgState r rgFaulted).setFld Fld.REGION_STATUS_FAULT r 4).setFld
        Fld.REGION_STATUS_ENTRY r 0
       (e.report (e.runSrc r 0) (mkDetail (e.entryAddr r 0) r 4) (e.regionWing r)).regionIrq r) := by
  have hfrom : (Fmap.get (0, [0, 0, 0, 0]) d.rerun r).1 = 0 := by rw [Fmap.get_of_find_none hfresh]
  unfold Dev.abortRegion
  rw [if_pos hst]
  simp only [hfrom]
  rfl

section
variable (hr : c.num 0 2 < 4096) (hw : s.dev.regionWing (c.num 0 2) < 16)
include hr hw

theorem exec_regionEnable_refused (h : s.Serves c 0xC030 72 [(0, 2), (8, 64)] .region) {e : Nat}
    (he : s.dev.enableRefused (s.dev.regionWing (c.num 0 2)) (c.num 0 2) (BitVec.ofNat 512 (c.num 8 64)) = some e) :
    exec .regionEnable s = s.ends c e [] s.dev := by
  refine exec_ends rfl h rfl ((if_neg (Nat.not_le.2 hr)).trans ((if_neg (Nat.not_le.2 hw)).trans ?_))
  rw [he]

theorem exec_regionEnable_opens (h : s.Serves c 0xC030 72 [(0, 2), (8, 64)] .region)
    (he : s.dev.enableRefused (s.dev.regionWing (c.num 0 2)) (c.num 0 2) (BitVec.ofNat 512 (c.num 8 64)) = none)
    (hready : s.dev.epochReady (c.num 0 2) (BitVec.ofNat 512 (c.num 8 64)) = true) :
    exec .regionEnable s = s.ends c rOk [] (s.dev.regionOpen (c.num 0 2) (BitVec.ofNat 512 (c.num 8 64))) := by
  refine exec_ends rfl h rfl ((if_neg (Nat.not_le.2 hr)).trans ((if_neg (Nat.not_le.2 hw)).trans ?_))
  rw [he]
  exact if_pos hready

/-- A region command that its region's state allows does what its rule gives; in another state the region is BUSY. -/
theorem exec_onRegion {i : Instr} {sp : MbSpec} {states : List Nat} {x : MbCmd → Dev → MbRes} {k : Nat} {e : Dev}
    (hi : exec i s = s.run fun d => d.mbRun sp (fun c d => d.onRegion (c.num 0 2) states (x c d)))
    (h : s.Serves c sp.op (sp.len c) (sp.fields c) sp.right) (hsel : sp.sel c = true)
    {st : Nat} (hst : s.dev.rgState (c.num 0 2) = st) (hmem : st ∈ states) (hx : x c s.dev = .done k [] e) :
    exec i s = s.ends c k [] e := exec_ends hi h hsel ((Dev.onRegion_state hr hw hst hmem).trans hx)

theorem exec_onRegion_busy {i : Instr} {sp : MbSpec} {states : List Nat} {x : MbCmd → Dev → MbRes}
    (hi : exec i s = s.run fun d => d.mbRun sp (fun c d => d.onRegion (c.num 0 2) states (x c d)))
    (h : s.Serves c sp.op (sp.len c) (sp.fields c) sp.right) (hsel : sp.sel c = true)
    {st : Nat} (hst : s.dev.rgState (c.num 0 2) = st) (hmem : st ∉ states) : exec i s = s.ends c rBusy [] s.dev :=
  exec_ends hi h hsel (Dev.onRegion_busy hr hw hst hmem)

end

/-! ### VF_RECALIBRATE (R408) -/

section
variable {d : Dev} {v : Int}

theorem Dev.recalibrate_idle (hidle : (tileLooms 0).all (fun n => d.loomState n = stIdle) = true) (hraise : d.vfOffset 0 15 < v)
    (hv : v < 128) : d.recalibrate 1 false [(0, 15, v)] =
      (rOk, le 8 1 ++ le 8 0, { d with selv := { d.selv with vf := Fmap.put d.selv.vf 15 v } }) := by
  have hnamed : (List.range 64).filter (fun t => Nat.testBit 1 t) = [0] := by decide
  unfold Dev.recalibrate
  simp only [hnamed]
  have hdone : [0].filter (fun t => (tileLooms t).all (fun n => d.loomState n = stIdle)) = [0] := by
    simp [hidle]
  simp [hdone, hraise, hv]

theorem Dev.recalibrate_working (hbusy : (tileLooms 0).all (fun n => d.loomState n = stIdle) = false) :
    d.recalibrate 1 false [(0, 15, v)] = (rOk, le 8 0 ++ le 8 1, d) := by
  have hnamed : (List.range 64).filter (fun t => Nat.testBit 1 t) = [0] := by decide
  unfold Dev.recalibrate
  simp only [hnamed]
  have hdone : [0].filter (fun t => (tileLooms t).all (fun n => d.loomState n = stIdle)) = [] := by
    simp [hbusy]
  simp [hdone]

theorem exec_vfRecalibrate {raises : List (Nat × Nat × Int)} (h : s.Serves c 0xC050 9 [(0, 9)] .op) (hpersist : c.num 8 1 = 0)
    (hmask : c.num 0 8 = 1) {out : List Byte} {e : Dev} (hx : s.dev.recalibrate 1 false raises = (rOk, out, e)) :
    exec (.vfRecalibrate raises) s =
      s.settling ((((List.range 4).foldl Dev.railAsk e).begun c 1).bgEnd c.op 1 rOk out) := by
  refine exec_completes rfl h rfl ((if_neg (by simp [MbCmd.over, hpersist])).trans ?_)
  have hp : decide (c.num 8 1 = 1) = false := by simp [hpersist]
  rw [hmask, hp, hx]

end

/-! ### HEALTH and PROVENANCE_READ (R401, R404) -/

theorem le_length (n v : Nat) : (le n v).length = n := by simp [le]

theorem Dev.health_length (d : Dev) : d.health.length = 48 := by
  simp [Dev.health, le_length]

/-- HEALTH is answered in safe mode and after a FATAL too. -/
theorem exec_health (hlive : s.dev.live = true) (hfront : s.dev.mbFront 0xC051 = some c) (hdata : c.data = [])
    (hctx : s.dev.ctx c = some .operator) : exec .health s = s.ends c rOk s.dev.health s.dev := by
  have hallowed : s.dev.allowed c .op = true := by simp [Dev.allowed, hctx]
  have hclean : c.clean [] = true := by simp [MbCmd.clean, hdata]
  have hrun : s.dev.cmdHealth = s.dev.mbReply c (retOf rOk) rOk s.dev.health := by
    unfold Dev.cmdHealth Dev.mbRun
    simp [mbSpec, MbSpec.inSafe, hfront, hdata, hallowed, hclean]
  exact (State.run_live (fun d => d.cmdHealth) hlive).trans (congrArg s.settling hrun)

theorem exec_provenanceRead (h : s.Serves c 0xC054 4 [(0, 4)] .op) {o n : Nat} (ho : c.num 0 2 = o) (hn : c.num 2 2 = n)
    (hpos : 1 ≤ n) (hmax : n ≤ 4096) (hend : o + n ≤ 2 ^ 16) : exec .provenanceRead s = s.ends c rOk ((List.range n).map (fun i =>
      if 0x4000 ≤ o + i ∧ o + i < 0x4100 then 0 else BitVec.ofNat 8 (s.dev.provByte (o + i)))) s.dev := by
  subst ho hn
  refine exec_ends rfl h rfl ((if_neg (by simp; omega)).trans ?_)
  congr 1
  simp only [Bool.and_eq_true, decide_eq_true_eq]

/-! ### Microcode and the registrar's start-up (R389, R391, R403) -/

section
variable {d : Dev} {m : Nat} (hrunning : d.reg.running = true) (hucode : d.reg.ucode = [m]) (hidle : d.enginesIdle m = true)
include hrunning hucode hidle

theorem Dev.ucodeLoad_last : d.ucodeLoad true =
    ({ d.clrFld Fld.CONS_STATE_DRAINING 0 (2 ^ m) with
        reg := { d.reg with ucode := [], ucodeVer := Fmap.get 0 d.reg.fwVer 3 } } : Dev).bgEnd 0xC052 0 rOk [] := by
  unfold Dev.ucodeLoad
  simp only [hucode]
  exact (if_neg (by simp [hrunning, hidle])).trans (if_neg (by simp))

theorem Dev.ucodeLoad_bad : d.ucodeLoad false =
    ({ d.clrFld Fld.CONS_STATE_DRAINING 0 (2 ^ m) with reg := { d.reg with ucode := [] } } : Dev).bgEnd 0xC052 0 rInternal [] := by
  unfold Dev.ucodeLoad
  simp only [hucode]
  exact (if_neg (by simp [hrunning, hidle])).trans (if_pos rfl)

end

/-- The registrar starts once power, clocks and resets let it. -/
theorem Dev.startUp_live {d : Dev} (hlive : d.live = true) (hrunning : d.reg.running = false) (x : StartIn) : d.startUp x =
    if d.reg.warm then d.startImage x
    else match d.boot x with
      | (some k, e) => ({ e with reg := { e.reg with slot := k } } : Dev).startImage x
      | (none, e) => e := by
  simp only [Dev.live, Bool.and_eq_true, decide_eq_true_eq, Bool.not_eq_true', ne_eq] at hlive
  unfold Dev.startUp
  refine if_neg ?_
  simp [hlive, hrunning]

/-- Without an override the registrar tries image A first, by its strap; when both fail, each is reported (R391). -/
theorem Dev.boot_default {d : Dev} (hover : d.reg.bootOver = 0) (hstrap : d.strap 2 = false) (x : StartIn) : d.boot x =
    if x.okA then (some 1, d)
    else if x.okB then (some 2, d.report 0x370 (mkDetail 0 1 0) noWing)
    else (none, (d.report 0x370 (mkDetail 0 1 0) noWing).report 0x370 (mkDetail 0 2 0) noWing) := by
  unfold Dev.boot
  simp [hover, hstrap]

section
variable {d : Dev} (hlive : d.live = true) (hrunning : d.reg.running = false) (hwarm : d.reg.warm = false) (hover : d.reg.bootOver = 0)
  (hstrap : d.strap 2 = false) {x : StartIn}
include hlive hrunning hwarm hover hstrap

theorem Dev.startUp_imageA (hA : x.okA = true) : d.startUp x = ({ d with reg := { d.reg with slot := 1 } } : Dev).startImage x := by
  rw [Dev.startUp_live hlive hrunning, hwarm, Dev.boot_default hover hstrap, if_pos hA]
  rfl

theorem Dev.startUp_noImage (hA : x.okA = false) (hB : x.okB = false) :
    d.startUp x = (d.report 0x370 (mkDetail 0 1 0) noWing).report 0x370 (mkDetail 0 2 0) noWing := by
  rw [Dev.startUp_live hlive hrunning, hwarm, Dev.boot_default hover hstrap, hA, hB]
  rfl

end

/-- WARM_RESET answers first and then resets the WARM domain (R473). -/
theorem exec_warmReset (h : s.Serves c 0xC053 0 [] .op) : exec .warmReset s = s.settling ((s.dev.mbReply c 0 rOk []).warmReset) := by
  have hanswer : s.dev.mbRun (mbSpec 0xC053 0 []) (fun _ d => plain (rOk, d)) = s.dev.mbReply c 0 rOk [] :=
    Dev.mbRun_serves (sp := mbSpec 0xC053 0 []) h rfl
  obtain ⟨hlive, hfront, hlen, hsafe, hallowed, -, -, -⟩ := h
  have hreset : s.dev.cmdWarmReset = (s.dev.mbReply c 0 rOk []).warmReset := by
    unfold Dev.cmdWarmReset
    simp only [hfront, hanswer]
    exact if_pos (by simp [hsafe, hallowed, List.eq_nil_of_length_eq_zero hlen])
  exact (State.run_live (fun d => d.cmdWarmReset) hlive).trans (congrArg s.settling hreset)

theorem exec_ucodeReload_starts (h : s.Serves c 0xC052 1 [(0, 1)] .op) (hmask : c.num 0 1 < 16) (hucode : s.dev.reg.ucode = [])
    {m : Nat} {ms : List Nat} (hms : (List.range 4).filter (fun m => (c.num 0 1).testBit m) = m :: ms) : exec .ucodeReload s =
      s.settling ((({ s.dev with reg := { s.dev.reg with ucode := m :: ms, ucodeBox := c.place } } : Dev).orFld
        Fld.CONS_STATE_DRAINING 0 (2 ^ m)).begun c 0) := by
  refine exec_starts rfl h rfl ((if_neg (by simp [MbCmd.over, hmask])).trans ((if_neg (by simp [hucode])).trans ?_))
  rw [hms]

/-! ### PORT_MAP (R346) -/

section
variable (h : s.Serves c 0xC041 18 [(0, 18)] .op) {ps : List Nat} (hps : (List.range 16).map (fun q => c.num (2 + q) 1) = ps)
include h hps

theorem exec_portMap_ok (hself : c.num 0 1 ≤ 7) (hbyte : c.num 1 1 = 0) (hall : ps.all (fun p => p ≤ 7 || p = 0xFF) = true) :
    exec .portMap s = s.ends c rOk [] { s.dev with reg := { s.dev.reg with portMap := c.num 0 1 :: ps } } := by
  have hnone : ps.any (fun p => p > 7 && p ≠ 0xFF) = false := by
    rw [List.any_eq_false]
    intro p hp
    have hpeer := List.all_eq_true.1 hall p hp
    simp only [Bool.or_eq_true, decide_eq_true_eq] at hpeer
    simp only [Bool.and_eq_true, decide_eq_true_eq]
    omega
  subst hps
  exact exec_ends rfl h rfl (if_neg (by rw [hnone]; simp [hself, hbyte]))

/-- Peers are 0 to 7. -/
theorem exec_portMap_peer8 (hany : ps.any (fun p => p = 8) = true) : exec .portMap s = s.ends c rInvalid [] s.dev := by
  have hsome : ps.any (fun p => p > 7 && p ≠ 0xFF) = true := by
    obtain ⟨p, hp, hpeer⟩ := List.any_eq_true.1 hany
    exact List.any_eq_true.2 ⟨p, hp, by simp [of_decide_eq_true hpeer]⟩
  subst hps
  exact exec_ends rfl h rfl (if_pos (by rw [hsome]; simp))

end

/-! ### The heartbeat (R441) -/

theorem Dev.heartbeat_running {d : Dev} (hrunning : d.reg.running = true) (herased : 16 ≤ d.ledger.erased) :
    d.heartbeat = { d with reg := { d.reg with beat := d.tick, lost := 0 } } :=
  (if_neg (by simp [hrunning])).trans (if_pos herased)

theorem Dev.heartbeat_stopped {d : Dev} (hrunning : d.reg.running = false) : d.heartbeat = d := if_pos (by simp [hrunning])

theorem Dev.heartbeatLost_late {d : Dev} (hon : d.ledgerOn = true) (hlate : d.reg.beat + (d.reg.lost + 1) * 1000000 ≤ d.tick) :
    d.heartbeatLost = ({ d with reg := { d.reg with lost := d.reg.lost + 1 } } : Dev).report 0x372 (mkDetail 0 0 0) noWing :=
  if_neg (by simp [hon, hlate])

end

/-- Settles O52: each clause is a branch of its command's rule. -/
theorem regionAndServiceCommands : Obligations.RegionAndServiceCommands := by
  unfold Obligations.RegionAndServiceCommands
  intro s c d r no ok done in2
  have runs {i : Instr} {f : Dev → Dev} {e : Dev} (hlive : d.live = true) (hi : exec i s = s.run f) (hf : f s.dev = e) :
      exec i s = s.settling e := by rw [hi, State.run_live _ hlive, hf]
  refine ⟨fun hr hw => ⟨fun h => ⟨fun e he => ?_, fun he hready => ?_⟩,
      fun hst => ⟨fun h => ?_, fun h => ?_, fun h => ?_, fun h => ?_⟩, fun hst => ⟨fun h => ?_, fun h => ?_⟩,
      fun hst => ⟨fun h => ?_, fun h => ⟨fun hk => ?_, fun hk => ?_⟩⟩, fun hst h hfresh => ?_⟩,
    fun h => ⟨fun hbits => ?_, fun hbits => ?_⟩, fun h hself hbyte ps hps => ⟨fun hall => ?_, fun hany => ?_⟩,
    fun h hpersist hmask v => ⟨fun hidle hraise hv => ?_, fun hbusy => ?_⟩, fun hlive hfront hdata hctx => ⟨?_, d.health_length⟩,
    fun h => ⟨fun hend => ?_, fun hpos hmax hend => ?_⟩, fun h hmask hucode m ms hms => ?_,
    fun m hlive hrunning hucode hidle => ⟨?_, ?_⟩, fun h => exec_warmReset h,
    fun x hlive hrunning => ⟨fun hwarm => ?_, fun hwarm hover hstrap => ⟨fun hA => ?_, fun hA hB => ?_⟩⟩,
    fun hrunning herased => ?_, fun hrunning => ?_, fun hon hlate => ?_⟩
  -- REGION_ENABLE
  · exact exec_regionEnable_refused hr hw h he
  · rw [exec_regionEnable_opens hr hw h he hready, Dev.regionOpen_ready hready]
    rfl
  -- commands of a DISABLED region
  · exact exec_onRegion_busy hr hw (sp := (mbSpec 0xC031 2 [(0, 2)]).by .region) rfl h rfl hst (by decide)
  · exact exec_onRegion_busy hr hw (sp := ((mbSpec 0xC032 2 [(0, 2)]).by .region).starts) rfl h rfl hst (by decide)
  · exact exec_onRegion_busy hr hw (sp := ((mbSpec 0xC033 2 [(0, 2)]).by .region).starts) rfl h rfl hst (by decide)
  · exact exec_onRegion_busy hr hw (sp := (mbSpec 0xC035 2 [(0, 2)]).by .region) rfl h rfl hst (by decide)
  -- of an OPEN region
  · exact exec_onRegion hr hw rfl h rfl hst (by decide) rfl
  · exact exec_onRegion hr hw rfl h rfl hst (by decide) rfl
  -- of a FAULTED region
  · exact exec_onRegion hr hw rfl h rfl hst (by decide) rfl
  · exact exec_onRegion hr hw rfl h rfl hst (by decide) (if_pos hk)
  · exact exec_onRegion hr hw rfl h rfl hst (by decide) (if_neg (Nat.not_lt.2 hk))
  -- of a WAITING region
  · rw [exec_onRegion (i := .regionAbort) hr hw rfl h rfl hst (by decide) rfl, Dev.abortRegion_waiting hst hfresh]
    rfl
  -- PORT_CONFIG, PORT_MAP
  · exact exec_ends rfl h rfl (if_pos hbits)
  · exact exec_ends rfl h rfl (if_neg (Nat.not_le.2 hbits))
  · exact exec_portMap_ok h hps hself hbyte hall
  · exact exec_portMap_peer8 h hps hany
  -- VF_RECALIBRATE
  · exact exec_vfRecalibrate h hpersist hmask (Dev.recalibrate_idle hidle hraise hv)
  · exact exec_vfRecalibrate h hpersist hmask (Dev.recalibrate_working hbusy)
  -- HEALTH, PROVENANCE_READ
  · exact exec_health hlive hfront hdata hctx
  · exact exec_ends rfl h rfl (if_pos (by simp; omega))
  · exact exec_provenanceRead h rfl rfl hpos hmax hend
  -- UCODE_RELOAD, UCODE_LOAD
  · exact exec_ucodeReload_starts h hmask hucode hms
  · exact runs hlive (f := fun d => d.ucodeLoad true) rfl (Dev.ucodeLoad_last hrunning hucode hidle)
  · exact runs hlive (f := fun d => d.ucodeLoad false) rfl (Dev.ucodeLoad_bad hrunning hucode hidle)
  -- the registrar's start-up
  · exact runs hlive (f := fun d => d.startUp x) rfl ((Dev.startUp_live hlive hrunning x).trans (if_pos hwarm))
  · exact runs hlive (f := fun d => d.startUp x) rfl (Dev.startUp_imageA hlive hrunning hwarm hover hstrap hA)
  · exact runs hlive (f := fun d => d.startUp x) rfl (Dev.startUp_noImage hlive hrunning hwarm hover hstrap hA hB)
  -- the heartbeat
  · exact congrArg s.showing (Dev.heartbeat_running hrunning herased)
  · exact congrArg s.showing (Dev.heartbeat_stopped hrunning)
  · exact congrArg s.showing (Dev.heartbeatLost_late hon hlate)

end Sys2Proof.Machine
end

section
/-! SUPPORT. The registers of the translation block and the invalidation of a range: what each write leaves, and how an
invalidation starts and ends (R288, R290, R291, R294, R295). -/

namespace Sys2Proof.Machine

/-- A command of the fast logic, of a device that answers, by what it does to the device. -/
theorem exec_run_live {s : State} {i : Instr} {f : Dev → Dev} {e : Dev} (hlive : s.dev.live = true) (hi : exec i s = s.run f)
    (hf : f s.dev = e) : exec i s = s.settling e := by
  rw [hi, State.run_live _ hlive, hf]

/-! ### What the writes leave alone -/

/-- A held half is the head's own: dropping it changes no register. -/
@[simp] theorem Dev.dropHalf_fld (d : Dev) (h : HeadId) (c : Card) (i : Nat) (f : Field) (n : Nat) :
    (d.dropHalf h c i).fld f n = d.fld f n := by
  unfold Dev.dropHalf
  split <;> rfl

@[simp] theorem Dev.dropHalf_trans (d : Dev) (h : HeadId) (c : Card) (i : Nat) : (d.dropHalf h c i).trans = d.trans := by
  unfold Dev.dropHalf
  split <;> rfl

@[simp] theorem Dev.dropHalf_headWing (d : Dev) (h g : HeadId) (c : Card) (i : Nat) :
    (d.dropHalf h c i).headWing g = d.headWing g := by
  unfold Dev.dropHalf
  split <;> rfl

@[simp] theorem Dev.writeCard_trans (d : Dev) (c : Card) (n v : Nat) : (d.writeCard c n v).trans = d.trans := by
  unfold Dev.writeCard
  refine foldl_keeps (fun e : Dev => e.trans = d.trans) (fun e f he => ?_) _ _ rfl
  dsimp only
  split
  · exact he
  · exact he
  · exact he

/-! ### The registers -/

/-- With no open record there is none to write to the fault queue. -/
theorem Dev.fqDrain_noRecs {d : Dev} (hrecs : d.trans.recs = []) (w : Nat) : d.fqDrain w = d := by
  unfold Dev.fqDrain
  rw [hrecs]
  rfl

section
variable {d : Dev} {h : HeadId} (hw : d.Writes h .trans (d.headWing h))
include hw

/-- A write of a 64-bit register of the head's wing acts once what the head held for the register is gone (R7). -/
theorem Dev.wideWrite_trans (c : Card) (f : Nat → Dev → Dev) :
    d.wideWrite h .trans c (d.headWing h) (fun d => f (d.headWing h) d) = f (d.headWing h) (d.dropHalf h c (d.headWing h)) := by
  unfold Dev.wideWrite
  rw [Dev.barWrite_writes hw.1 _ hw]
  dsimp only
  rw [Dev.dropHalf_headWing]

theorem Dev.rootWrite_writes (v : W64) : d.rootWrite h v =
    (d.dropHalf h Crd.TRANS_ROOT (d.headWing h)).writeCard Crd.TRANS_ROOT (d.headWing h) v.toNat :=
  Dev.wideWrite_trans hw _ fun w d => d.writeCard Crd.TRANS_ROOT w v.toNat

/-- A new base empties the fault queue; no record waits for a slot (R295). -/
theorem Dev.fqBaseWrite_noRecs (v : W64) (hrecs : d.trans.recs = []) :
    let w := d.headWing h
    let e := (d.dropHalf h Crd.FQ_BASE w).writeCard Crd.FQ_BASE w v.toNat
    d.fqBaseWrite h v = ((e.setFld Fld.FQ_BASE_SIZE w (min 6 (e.fld Fld.FQ_BASE_SIZE w))).setFld Fld.FQ_PROD_PROD w 0).setFld
      Fld.FQ_CONS_CONS w 0 := by
  intro w e
  have hdrop : d.fqBaseWrite h v = (d.dropHalf h Crd.FQ_BASE w).fqBase w v.toNat :=
    Dev.wideWrite_trans hw _ fun w d => d.fqBase w v.toNat
  rw [hdrop]
  exact Dev.fqDrain_noRecs (by simp [hrecs]) w

theorem Dev.fqConsWrite_noRecs (v : W32) (hrecs : d.trans.recs = []) : d.fqConsWrite h v =
    d.setFld Fld.FQ_CONS_CONS (d.headWing h) (v.toNat % 2 ^ 12 % d.fqSize (d.headWing h)) := by
  unfold Dev.fqConsWrite
  rw [Dev.barWrite_writes hw.1 _ hw]
  exact Dev.fqDrain_noRecs (by rw [Dev.setFld_trans, hrecs]) _

theorem Dev.invStart_writes {v : Nat} (hgo : v.testBit 31 = true) : d.invStart h v = d.invWrite (d.headWing h) v := by
  unfold Dev.invStart
  rw [hgo, Dev.barWrite_writes hw.1 _ hw]
  rfl

end

/-! ### Invalidation -/

section
variable {d : Dev} {w v : Nat} (hgo : v.testBit 31 = true) (hclear : v.testBit 29 = false)
include hgo hclear

/-- GO while an invalidation of the wing runs is rejected (R291). -/
theorem Dev.invWrite_busy (hbusy : d.fld Fld.INV_CTRL_BUSY w = 1) : d.invWrite w v = d.setFld Fld.INV_CTRL_REJECTED w 1 := by
  simp [Dev.invWrite, hgo, hclear, hbusy]

/-- An empty range has nothing to remove (R291). -/
theorem Dev.invWrite_empty (hidle : d.fld Fld.INV_CTRL_BUSY w ≠ 1) (hpages : d.fld Fld.INV_SIZE_PAGES w = 0) :
    d.invWrite w v = d.invalDone w := by
  simp [Dev.invWrite, hgo, hclear, hidle, hpages]

/-- GO removes the range's translations and waits for the wing's accesses and for its stores to the range (R290,
notes/assumptions/40.md). -/
theorem Dev.invWrite_starts (hidle : d.fld Fld.INV_CTRL_BUSY w ≠ 1) (hpages : d.fld Fld.INV_SIZE_PAGES w ≠ 0) :
    let lo := d.fld Fld.INV_BASE_VA w * (64 * MiB)
    let hi := min (lo + d.fld Fld.INV_SIZE_PAGES w * (64 * MiB)) (2 ^ 56)
    let e := (d.dropTrans w lo hi).setFld Fld.INV_CTRL_BUSY w 1
    d.invWrite w v = { e with trans := { e.trans with inval := e.trans.inval ++
      [{ wing := BitVec.ofNat 4 w, tags := d.wingTags w, stores := d.wingStores w lo hi }] } } := by
  simp [Dev.invWrite, hgo, hclear, hidle, hpages]

end

/-- The one invalidation under way, once every engine has acknowledged, clears BUSY and counts DONE_SEQ (R290). -/
theorem Dev.invComplete_acked {d : Dev} {w : WingId} {x : Inval} (hinval : d.trans.inval = [x]) (hx : x.wing = w)
    (hack : d.invAcked x = true) :
    let e : Dev := { d with trans := { d.trans with inval := [] } }
    d.invComplete w = (e.setFld Fld.INV_CTRL_BUSY w.toNat 0).setFld Fld.INV_CTRL_DONE_SEQ w.toNat
      (d.fld Fld.INV_CTRL_DONE_SEQ w.toNat + 1) := by
  have hfind : d.trans.inval.find? (fun y => y.wing = w) = some x := by simp [hinval, hx]
  have hrest : d.trans.inval.filter (fun y => y.wing.toNat ≠ w.toNat) = [] := by simp [hinval, hx]
  unfold Dev.invComplete
  rw [hfind]
  dsimp only
  rw [if_pos hack]
  unfold Dev.invalDone
  rw [hrest]
  rfl

/-- Settles O33: each write reaches its register, and an invalidation takes the branch of its fields. -/
theorem translationWrites : Obligations.TranslationWrites := by
  unfold Obligations.TranslationWrites
  intro s h hlive d w
  refine ⟨fun hw => ⟨fun v => ?_, fun v hrecs => ?_, fun v hrecs => ?_, fun v hgo hclear => ?_⟩, fun w x hinval hx hack => ?_⟩
  · exact exec_run_live hlive (f := fun d => d.rootWrite h v) rfl (Dev.rootWrite_writes hw v)
  · exact exec_run_live hlive (f := fun d => d.fqBaseWrite h v) rfl (Dev.fqBaseWrite_noRecs hw v hrecs)
  · exact exec_run_live hlive (f := fun d => d.fqConsWrite h v) rfl (Dev.fqConsWrite_noRecs hw v hrecs)
  · rw [← BitVec.testBit_toNat] at hgo hclear
    have start {e : Dev} (he : d.invWrite w v.toNat = e) : exec (.invalidationStart h v) s = s.settling e :=
      exec_run_live hlive (f := fun d => d.invStart h v.toNat) rfl ((Dev.invStart_writes hw hgo).trans he)
    exact ⟨fun hbusy => start (Dev.invWrite_busy hgo hclear hbusy),
      fun hidle hpages => start (Dev.invWrite_empty hgo hclear hidle hpages),
      fun hidle hpages => start (Dev.invWrite_starts hgo hclear hidle hpages)⟩
  · exact exec_run_live hlive (f := fun d => d.invComplete w) rfl (Dev.invComplete_acked hinval hx hack)

end Sys2Proof.Machine
end

section
/-! SUPPORT. The walk of a page, level by level, and what its result does to the engine that waits: a leaf enters the caches, a
fault that can be resumed opens a record of the fault queue (R275 to R278, R280, R281, R286). -/

namespace Sys2Proof.Machine

/-! ### The levels of a walk (R275 to R278) -/

/-- An entry that no pointer of the page-walk cache gives is read where it lies. -/
theorem Dev.walkEntry_reads {d e : Dev} {wk : Work} {a : Nat} {v : W64} (lvl : Nat)
    (hline : d.canRead wk (a / 256) (setBit4 0 (a / 64 % 4)) = true) (hread : d.read8 a = (some v, e)) :
    d.walkEntry wk none a lvl = (.ok v, e) := by
  unfold Dev.walkEntry
  dsimp only
  rw [hline, hread]
  rfl

section
variable {d d1 d0 : Dev} {wk : Work} {die w va k2 k1 a2 a1 a0 : Nat} {e2 e1 e0 : W64}

/-- Two pointers that pass check_pointer lead to the table of level 0, and both enter the page-walk cache. -/
theorem Dev.walk_pointers {d2 : Dev} (hk2 : va / 2 ^ 44 % 4096 = k2) (hk1 : 2 ^ 24 + va / 2 ^ 32 % 2 ^ 24 = k1)
    (ha2 : d.fld Fld.TRANS_ROOT_ROOT w * 2 ^ 15 + 8 * k2 = a2) (ha1 : pteAddr e2 + 8 * (va / 2 ^ 32 % 4096) = a1)
    (henable : d.fld Fld.TRANS_ROOT_ENABLE w = 1) (hroot : d.inWing w (d.fld Fld.TRANS_ROOT_ROOT w * 2 ^ 15) 32768 = true)
    (hentry2 : d.walkEntry wk (d.pwcFind die w k2) a2 2 = (.ok e2, d2)) (hpointer2 : d2.checkPointer w 2 a2 e2 = none)
    (hentry1 : (d2.pwcAdd die w k2 e2).walkEntry wk ((d2.pwcAdd die w k2 e2).pwcFind die w k1) a1 1 = (.ok e1, d1))
    (hleaf : (pteValid e1 && pteLeaf e1) = false) (hpointer1 : d1.checkPointer w 1 a1 e1 = none) :
    d.walk wk die w va = (d1.pwcAdd die w k1 e1).walk0 wk e1 va := by
  have hon : d.fld Fld.TRANS_ROOT_ENABLE w ≠ 0 := by omega
  unfold Dev.walk
  rw [if_neg hon]
  dsimp only
  rw [hroot, hk2, ha2, hentry2]
  dsimp only [Bool.not_true]
  rw [hpointer2]
  dsimp only
  rw [hk1, ha1, hentry1]
  dsimp only
  rw [hleaf, hpointer1]
  rfl

variable (ha0 : pteAddr e1 + 8 * (va / 2 ^ 26 % 64) = a0) (hentry : d.walkEntry wk none a0 0 = (.ok e0, d0))
include ha0 hentry

theorem Dev.walk0_notPresent (hvalid : pteValid e0 = false) : d.walk0 wk e1 va = (.fault ⟨.notPresent, 0, a0⟩, d0) := by
  unfold Dev.walk0
  rw [ha0]
  dsimp only
  rw [hentry]
  simp [hvalid]

/-- Level 0 holds no pointers: a valid entry that is not a leaf is malformed. -/
theorem Dev.walk0_malformed (hvalid : pteValid e0 = true) (hleaf : pteLeaf e0 = false) :
    d.walk0 wk e1 va = (.fault ⟨.malformed, 0, a0⟩, d0) := by
  unfold Dev.walk0
  rw [ha0]
  dsimp only
  rw [hentry]
  simp [hvalid, hleaf]

theorem Dev.walk0_leaf (hvalid : pteValid e0 = true) (hleaf : pteLeaf e0 = true) (hcheck : checkLeaf 0 false a0 e0 = none) :
    d.walk0 wk e1 va = (.leaf false e0, d0) := by
  unfold Dev.walk0
  rw [ha0]
  dsimp only
  rw [hentry]
  simp [hvalid, hleaf, hcheck]

end

/-! ### The end of a walk (R280, R281) -/

/-- The device in which walk x has ended: its walker forgets what it asked, and no walk is left. -/
def Dev.walkEnded (d : Dev) (x : Walk) : Dev := { d.endAsks (d.walkWork x) with trans := { d.trans with walks := [] } }

/-- The only walk ends; no miss waits for its walker. -/
theorem Dev.endWalks_only {d : Dev} {x : Walk} {mine : Walk → Bool} (hwalks : d.trans.walks = [x]) (hon : x.on.isSome = true)
    (hmine : mine x = true) : d.endWalks mine = d.walkEnded x := by
  have hended : d.trans.walks.filter mine = [x] := by simp [hwalks, hmine]
  have hleft : d.trans.walks.filter (fun y => !mine y) = [] := by simp [hwalks, hmine]
  have hran : [x].filter (fun y => y.on.isSome) = [x] := by simp [hon]
  unfold Dev.endWalks
  rw [hended]
  dsimp only
  rw [hran, List.foldl_cons, List.foldl_nil, Dev.endAsks_trans, hleft]
  rfl

section
variable {d d1 : Dev} {x : Walk} (hwalks : d.trans.walks = [x]) (hon : x.on.isSome = true) (hwalks1 : d1.trans.walks = [x])
  (hdie : d.engineDie x.engine = d1.engineDie x.engine)
include hwalks hon hwalks1 hdie

/-- A leaf enters the caches of the engine that waits, which goes on (R280). -/
theorem Dev.pageWalk_leaf {big : Bool} {l : W64}
    (hwalk : d.walk (d.walkWork x) (d.engineDie x.engine) x.wing.toNat x.va.toNat = (.leaf big l, d1)) : d.pageWalk x.engine =
      ((d1.walkEnded x).tlbFill x.engine ⟨x.wing, x.va.toNat / pageBytes big * pageBytes big, big, l⟩).unstall x.engine := by
  have hfind : d.trans.walks.find? (fun y => y.engine = x.engine && y.on.isSome) = some x := by simp [hwalks, hon]
  unfold Dev.pageWalk
  rw [hfind]
  dsimp only
  rw [hwalk]
  dsimp only
  rw [Dev.endWalks_only hwalks1 hon (by simp [hdie])]
  simp [hwalks1, hdie]

/-- A fault is that of the access that waits (R286). -/
theorem Dev.pageWalk_fault {f : TrFault} (hkind : x.kind ≠ .hint)
    (hwalk : d.walk (d.walkWork x) (d.engineDie x.engine) x.wing.toNat x.va.toNat = (.fault f, d1)) : d.pageWalk x.engine =
      ((d1.walkEnded x).unstall x.engine).fault x.engine x.wing.toNat x.va x.kind f := by
  have hfind : d.trans.walks.find? (fun y => y.engine = x.engine && y.on.isSome) = some x := by simp [hwalks, hon]
  unfold Dev.pageWalk
  rw [hfind]
  dsimp only
  rw [hwalk]
  dsimp only
  rw [Dev.endWalks_only hwalks1 hon (by simp [hdie])]
  simp [hwalks1, hdie, hkind]

end

/-! ### The record of a fault (R286, R288) -/

/-- A resumable fault stalls its engine on a record. -/
theorem Dev.fault_resumable {d : Dev} {f : TrFault} {k : AccKind} (e : Engine) (w : Nat) (va : W64) (big : Bool)
    (hkind : k ≠ .hint) (hres : f.cause.resumable = true) :
    d.fault e w va k f big = (d.stallEngine e).joinRec (d.mkRec e w va k big f) := by
  unfold Dev.fault
  rw [if_neg hkind]
  exact if_pos hres

/-- The device in which record r has been written to the fault queue of its wing. -/
def Dev.recWritten (d : Dev) (r : FRec) : Dev :=
  { d.fqWrite r true with trans := { (d.fqWrite r true).trans with
      recs := updateIf (fun q : FRec => q.wing = r.wing && q.tag = r.tag) (fun q => { q with written := true })
        (d.fqWrite r true).trans.recs } }

/-- The only record is written while the queue has a slot whose line can be written. -/
theorem Dev.fqDrain_only {d : Dev} {r : FRec} (hrecs : d.trans.recs = [r]) (hnew : r.written = false)
    (hopen : d.fqOpen r.wing.toNat = true) (hline : d.fqLine r.wing.toNat = true) : d.fqDrain r.wing.toNat = d.recWritten r := by
  have hlen : d.trans.recs.length = 1 := by rw [hrecs]; rfl
  have hfind : d.trans.recs.find? (fun q => q.wing.toNat = r.wing.toNat && !q.written) = some r := by simp [hrecs, hnew]
  unfold Dev.fqDrain
  rw [hlen]
  unfold Dev.fqFlush
  rw [hfind]
  dsimp only
  rw [hopen, hline]
  rfl

/-- The device in which record r has entered the empty pending table of wing w under the wing's next TAG. -/
def Dev.recOpened (d : Dev) (w : Nat) (r : FRec) : Dev :=
  { d with trans := { d.trans with recs := [{ r with tag := d.freshTag w }], nextTag := Fmap.put d.trans.nextTag w (d.freshTag w) } }

/-- The first record opens, since there is none to join, and is written at once while the queue has a slot whose line can be
written. -/
theorem Dev.joinRec_first {d : Dev} {r : FRec} {w : Nat} (hwing : r.wing.toNat = w) (hrecs : d.trans.recs = [])
    (hnew : r.written = false) (hopen : (d.recOpened w r).fqOpen w = true) (hline : (d.recOpened w r).fqLine w = true) :
    d.joinRec r = (d.recOpened w r).recWritten { r with tag := d.freshTag w } := by
  subst hwing
  have hopens : d.joinRec r = (d.recOpened r.wing.toNat r).fqDrain r.wing.toNat := by
    simp [Dev.joinRec, Dev.openRec, Dev.recOpened, hrecs]
  rw [hopens]
  exact Dev.fqDrain_only (r := { r with tag := d.freshTag r.wing.toNat }) rfl hnew hopen hline

/-- Settles O34: a walk is its three entries in turn, and PAGE_WALK ends the walk with its leaf or its record. -/
theorem pageWalks : Obligations.PageWalks := by
  unfold Obligations.PageWalks
  constructor
  · intro d d2 d1 d0 wk die w va e2 e1 e0 root k2 k1 a2 a1 a0 reads henable hroot hmiss2 hline2 hread2 hpointer2 hmiss1 hline1 hread1
      hleaf1 hpointer1 hline0 hread0
    have hpath : d.walk wk die w va = (d1.pwcAdd die w k1 e1).walk0 wk e1 va :=
      Dev.walk_pointers rfl rfl rfl rfl henable hroot (hmiss2 ▸ Dev.walkEntry_reads 2 hline2 hread2) hpointer2
        (hmiss1 ▸ Dev.walkEntry_reads 1 hline1 hread1) hleaf1 hpointer1
    have hentry0 : (d1.pwcAdd die w k1 e1).walkEntry wk none a0 0 = (.ok e0, d0) := Dev.walkEntry_reads 0 hline0 hread0
    exact ⟨fun hvalid => hpath.trans (Dev.walk0_notPresent rfl hentry0 hvalid),
      fun hvalid hleaf => hpath.trans (Dev.walk0_malformed rfl hentry0 hvalid hleaf),
      fun hvalid hleaf hcheck => hpath.trans (Dev.walk0_leaf rfl hentry0 hvalid hleaf hcheck)⟩
  · intro s x d1 hlive hwalks hon hwalks1 hdie w walked d2
    have walks {e : Dev} (he : s.dev.pageWalk x.engine = e) : exec (.pageWalk x.engine) s = s.settling e :=
      exec_run_live hlive (f := fun d => d.pageWalk x.engine) rfl he
    constructor
    · exact fun big l hwalk => walks (Dev.pageWalk_leaf hwalks hon hwalks1 hdie hwalk)
    · intro f hwalk hkind hcause y t r z hrecs hopen hline
      have hwing : ((d2.unstall x.engine).mkRec x.engine w x.va x.kind false f).wing.toNat = w := by simp [Dev.mkRec, w]
      have hres : f.cause.resumable = true := by rw [hcause]; rfl
      have hd2 : d1.walkEnded x = d2 := rfl
      have hz : y.recOpened w ((d2.unstall x.engine).mkRec x.engine w x.va x.kind false f) = z := rfl
      have hjoin := Dev.joinRec_first hwing hrecs rfl (hz ▸ hopen) (hz ▸ hline)
      refine walks ((Dev.pageWalk_fault hwalks hon hwalks1 hdie hkind hwalk).trans ?_)
      have hr : { (d2.unstall x.engine).mkRec x.engine w x.va x.kind false f with tag := y.freshTag w } = r := rfl
      rw [Dev.fault_resumable _ _ _ _ hkind hres, hd2, hjoin, hz, hr]
      rfl

end Sys2Proof.Machine
end

section
/-! SUPPORT. How a stalled access ends: by the host's answer to its record, by its timer, or by the completion of its ATS request;
and the entries that an ATS invalidation drops (R282, R283, R286, R287, R336). -/

namespace Sys2Proof.Machine

/-! ### A stop touches no translation state -/

@[simp] theorem Dev.releaseMember_trans (v : W64) (d : Dev) (n : LoomId) : (Dev.releaseMember v d n).trans = d.trans := by
  unfold Dev.releaseMember
  split
  · dsimp only
    split <;> rfl
  · rfl

@[simp] theorem Dev.breakGroup_trans (d : Dev) (n : LoomId) : (d.breakGroup n).trans = d.trans := by
  unfold Dev.breakGroup
  split
  · rfl
  · exact foldl_keeps (fun e : Dev => e.trans = d.trans) (fun e m he => (Dev.releaseMember_trans _ e m).trans he) _ _ rfl

@[simp] theorem Dev.stop_trans (d : Dev) (n : LoomId) (e : ErrCode) : (d.stop n e).trans = d.trans := by
  unfold Dev.stop
  dsimp only
  split
  · rfl
  · simp

/-! ### The record of a stalled treadle (R286, R287) -/

/-- The device without open records. -/
def Dev.noRecs (d : Dev) : Dev := { d with trans := { d.trans with recs := [] } }

theorem Dev.unstall_treadle_trans (d : Dev) (n : LoomId) : (d.unstall (.treadle n)).trans = d.trans := by
  unfold Dev.unstall
  dsimp only
  split <;> rfl

theorem Dev.unstall_treadle_noRecs (d : Dev) (n : LoomId) : (d.unstall (.treadle n)).noRecs = d.noRecs.unstall (.treadle n) :=
  apply_ite Dev.noRecs ((d.loom n).stall = .walk) _ _

/-- No stalled engine waits for a slot of the pending table. -/
theorem Dev.fillRecs_none {d : Dev} (hunrec : d.trans.unrecorded = []) (w : WingId) : d.fillRecs w = d := by
  unfold Dev.fillRecs
  rw [hunrec]
  rfl

theorem Dev.endWalks_none {d : Dev} (hwalks : d.trans.walks = []) (mine : Walk → Bool) : d.endWalks mine = d := by
  simp [Dev.endWalks, hwalks]

/-- The only record, written and left by its last engine, closes. -/
theorem Dev.closeEmpty_only {d : Dev} {r : FRec} (hrecs : d.trans.recs = [r]) (hwritten : r.written = true)
    (hengines : r.engines = []) (hunrec : d.trans.unrecorded = []) : d.closeEmpty r.wing = d.noRecs := by
  have hdead : d.trans.recs.filter (fun q => q.wing = r.wing && q.engines.isEmpty) = [r] := by simp [hrecs, hengines]
  have hleft : d.trans.recs.filter (fun q => !(q.wing = r.wing && q.engines.isEmpty)) = [] := by simp [hrecs, hengines]
  have hnoted : [r].any (fun q => !q.written) = false := by simp [hwritten]
  unfold Dev.closeEmpty
  rw [hdead, hleft]
  dsimp only
  rw [hnoted]
  exact Dev.fillRecs_none (d := d.noRecs) hunrec _

section
variable {d : Dev} {r : FRec} {n : LoomId} {at_ : Nat} (hrecs : d.trans.recs = [r]) (hwritten : r.written = true)
  (hengines : r.engines = [(.treadle n, at_)]) (hunrec : d.trans.unrecorded = [])
include hrecs hwritten hengines hunrec

/-- The host's answer closes the record: its treadle goes on, or stops with ACCESS_DENIED (R286). -/
theorem Dev.resumeFault_only (deny : Bool) : d.resumeFault r.wing r.tag deny =
    if deny then (d.noRecs.unstall (.treadle n)).stop n .accessDenied else d.noRecs.unstall (.treadle n) := by
  have hfind : d.trans.recs.find? (fun q => q.wing = r.wing && q.tag = r.tag) = some r := by simp [hrecs]
  have hlast : eraseOne r d.trans.recs = [] := by simp [hrecs, eraseOne]
  unfold Dev.resumeFault
  rw [hfind]
  dsimp only
  rw [hlast, if_pos hwritten, hengines, List.foldl_cons, List.foldl_nil]
  have hwaits : (d.noRecs.unstall (.treadle n)).trans.unrecorded = [] := by rw [Dev.unstall_treadle_trans]; exact hunrec
  cases deny
  · exact Dev.fillRecs_none hwaits _
  · exact Dev.fillRecs_none ((congrArg Trans.unrecorded (Dev.stop_trans _ n _)).trans hwaits) _

/-- The only engine of a written record leaves it, and the record closes (R287). -/
theorem Dev.leaveRec_only (hwalks : d.trans.walks = []) (hats : d.trans.ats = []) : d.leaveRec (.treadle n) = d.noRecs := by
  have hwings : ((d.trans.recs.filter (fun q => q.engines.any (fun x => x.1 = .treadle n))).map (·.wing)).dedup = [r.wing] := by
    simp [hrecs, hengines]
  have hrest : d.trans.recs.map (fun q => { q with engines := q.engines.filter (fun x => x.1 ≠ .treadle n) }) =
      [{ r with engines := [] }] := by simp [hrecs, hengines]
  unfold Dev.leaveRec
  dsimp only
  rw [hwings, List.foldl_cons, List.foldl_nil, hrest, hunrec, hats, Dev.endWalks_none]
  · refine (Dev.closeEmpty_only (r := { r with engines := [] }) rfl hwritten rfl rfl).trans ?_
    simp [Dev.noRecs, hunrec, hats]
  · exact hwalks

/-- A treadle whose timer ran out leaves its record and stops with TRANSLATION_TIMEOUT (R287). -/
theorem Dev.faultTimeout_only (hlate : at_ ≤ d.tick) (hwalks : d.trans.walks = []) (hats : d.trans.ats = []) :
    d.faultTimeout (.treadle n) = (d.noRecs.unstall (.treadle n)).stop n .translationTimeout := by
  have hany : d.trans.recs.any (fun q => q.engines.any (fun x => x.1 = .treadle n && x.2 ≤ d.tick)) = true := by
    simp [hrecs, hengines, hlate]
  have hleave : (d.unstall (.treadle n)).leaveRec (.treadle n) = d.noRecs.unstall (.treadle n) := by
    rw [← Dev.unstall_treadle_noRecs]
    exact Dev.leaveRec_only (by rw [Dev.unstall_treadle_trans, hrecs]) hwritten hengines (by rw [Dev.unstall_treadle_trans, hunrec])
      (by rw [Dev.unstall_treadle_trans, hwalks]) (by rw [Dev.unstall_treadle_trans, hats])
  unfold Dev.faultTimeout
  dsimp only
  rw [hany, hleave]
  rfl

end

/-- FAULT_RESUME with GO answers the record of a TAG (R286). -/
theorem Dev.resumeWrite_writes {d : Dev} {h : HeadId} {w : WingId} {v : W32} (hhead : d.headWing h = w.toNat)
    (hw : d.Writes h .trans w.toNat) (hgo : v.getLsbD 31 = true) :
    d.resumeWrite h v = d.resumeFault w (v.toNat % 2 ^ 16) (v.getLsbD 28) := by
  unfold Dev.resumeWrite
  rw [hhead, Dev.barWrite_writes hw.1 _ hw]
  unfold Dev.resumeSet
  rw [hhead, BitVec.testBit_toNat, if_pos hgo, BitVec.testBit_toNat]
  simp

/-! ### The completion of an ATS request (R282, R336) -/

/-- The device in which request q, the only one, has been answered and its engine goes on. -/
def Dev.atsEnded (d : Dev) (q : AtsReq) : Dev := ({ d with trans := { d.trans with ats := [] } } : Dev).unstall q.engine

/-- What a completion adds to the ATC: no more than the page of the leaf that gave the address (R282). -/
def AtsReq.fill (q : AtsReq) (target size : Nat) (may : Bool) : Atc :=
  let all := max 4096 size
  let sz := if q.page = 0 then all else min all q.page
  ⟨q.head, q.iova / sz * sz, sz, target / all * all + q.iova / sz * sz % all, may⟩

section
variable {d : Dev} {q : AtsReq} {iova : Nat} (hats : d.trans.ats = [q]) (hsent : q.sent = true) (hiova : iova / 4096 * 4096 = q.iova)
include hats hsent hiova

theorem Dev.atsPending : d.trans.ats.any (fun x => x.head = q.head && x.iova = iova / 4096 * 4096 && x.sent) = true := by
  simp [hats, hsent, hiova]

theorem Dev.atsCompletion_pending (ok : Bool) (target size : Nat) (may : Bool) :
    d.atsCompletion q.head iova ok target size may = d.atsDone q.head iova ok target size may :=
  if_pos (Dev.atsPending hats hsent hiova)

theorem Dev.atsTimeout_pending : d.atsTimeout q.head iova = (d.atsDone q.head iova false 0 0 false).aer q.head .completionTimeout :=
  if_pos (Dev.atsPending hats hsent hiova)

/-- The request leaves, and none of its head, address and permission is left. -/
theorem Dev.atsDone_taken :
    d.trans.ats.filter (fun x => x.head = q.head && x.iova = iova / 4096 * 4096 && x.sent) = [q] ∧
    d.trans.ats.filter (fun x => !(x.head = q.head && x.iova = iova / 4096 * 4096 && x.sent)) = [] := by
  simp [hats, hsent, hiova]

/-- A translation that allows the access fills the ATC (R282). -/
theorem Dev.atsDone_fills (target size : Nat) {may : Bool} (hmay : may = true ∨ q.write = false) :
    d.atsDone q.head iova true target size may = { d.atsEnded q with trans := { (d.atsEnded q).trans with
      atc := setAdd (sameAtcSet (q.fill target size may)) (d.atsEnded q).trans.atc (q.fill target size may) } } := by
  obtain ⟨htaken, hleft⟩ := Dev.atsDone_taken hats hsent hiova
  have hallowed : (true && (may || !q.write)) = true := by rcases hmay with hmay | hmay <;> simp [hmay]
  unfold Dev.atsDone
  dsimp only
  rw [htaken, hleft, List.foldl_cons, List.foldl_nil, if_pos hallowed]
  rfl

/-- A refusal faults the access with HOST_FAULT, which can be resumed (R282, R286). -/
theorem Dev.atsDone_refused (target size : Nat) (may : Bool) : d.atsDone q.head iova false target size may =
    ((d.atsEnded q).stallEngine q.engine).joinRec ((d.atsEnded q).mkRec q.engine q.wing.toNat q.va (if q.write then .store else .load)
      (decide (q.page = pageBytes true)) ⟨.hostFault, 7, q.head.toNat * 2 ^ 60 + q.iova + q.va.toNat % 4096⟩) := by
  obtain ⟨htaken, hleft⟩ := Dev.atsDone_taken hats hsent hiova
  have hkind : (if q.write then AccKind.store else .load) ≠ .hint := by cases q.write <;> decide
  unfold Dev.atsDone
  dsimp only
  rw [htaken, hleft, List.foldl_cons, List.foldl_nil]
  exact Dev.fault_resumable _ _ _ _ hkind rfl

end

/-- A completion that answers no request is an Unexpected Completion (Table 13-9). -/
theorem Dev.atsCompletion_unexpected {d : Dev} {h : HeadId} (hats : d.trans.ats = []) (hserved : d.served h = true)
    (iova : Nat) (ok : Bool) (target size : Nat) (may : Bool) : d.atsCompletion h iova ok target size may = d.aer h .unexpected true := by
  simp [Dev.atsCompletion, hats, hserved]

/-! ### ATS invalidation (R283) -/

/-- The device in which head h holds no translation of an address in [iova, iova + size). -/
def Dev.atcDropped (d : Dev) (h : HeadId) (iova size : Nat) : Dev := { d with trans := { d.trans with
  atc := d.trans.atc.filter (fun a => !(a.head = h && decide (a.iova < iova + size) && decide (iova < a.iova + a.size))) } }

/-- An invalidation that waits for no access is answered (R283). -/
theorem Dev.atsAnswer_free {d : Dev} {h : HeadId} {itag : Nat} (hinv : (d.head h).atsInv = [(itag, [])]) :
    d.atsAnswer h = (d.setHead h { d.head h with atsInv := [] }).send (.atsInvDone h itag) := by
  unfold Dev.atsAnswer
  dsimp only
  rw [hinv]
  rfl

/-- An invalidation drops the head's matching entries and waits for the accesses that used one of them. -/
theorem Dev.atsInvalidate_up {d : Dev} {h : HeadId} (hup : (d.head h).up = true) (hcxl : (d.head h).cxl = true)
    (iova size itag : Nat) : ∃ used : HostReq → Bool, d.atsInvalidate h iova size itag =
      ((d.atcDropped h iova size).setHead h { d.head h with atsInv := (d.head h).atsInv ++
        [(itag, (((d.head h).outs ++ (d.head h).waiting).filter used).map (fun r => r.tag))] }).atsAnswer h := by
  have hready : ¬(!(d.head h).up || !(d.head h).cxl) = true := by simp [hup, hcxl]
  exact ⟨_, if_neg hready⟩

/-- With no access of the head under way the invalidation is answered at once. -/
theorem Dev.atsInvalidate_idle {d : Dev} {h : HeadId} (hup : (d.head h).up = true) (hcxl : (d.head h).cxl = true)
    (hinv : (d.head h).atsInv = []) (houts : (d.head h).outs = []) (hwaiting : (d.head h).waiting = []) (iova size itag : Nat) :
    d.atsInvalidate h iova size itag = ((d.atcDropped h iova size).setHead h (d.head h)).send (.atsInvDone h itag) := by
  obtain ⟨used, hdrops⟩ := Dev.atsInvalidate_up hup hcxl iova size itag
  have htags : (((d.head h).outs ++ (d.head h).waiting).filter used).map (fun r => r.tag) = [] := by simp [houts, hwaiting]
  have hanswered : { d.head h with atsInv := [] } = d.head h := by rw [← hinv]
  rw [hdrops, htags, hinv, Dev.atsAnswer_free (itag := itag) (by rw [Dev.setHead_head_same]; rfl), Dev.setHead_head_same,
    Dev.setHead_setHead, hanswered]

/-- Settles O35: each answer takes the branch of its rule, for a treadle by its record and for any engine by its ATS request. -/
theorem stalledAccesses : Obligations.StalledAccesses := by
  unfold Obligations.StalledAccesses
  intro s h n w hlive d idle go
  refine ⟨fun r at_ hrecs hwing hwritten hengines hunrec hhead hw _ => ⟨fun v hgo hv => ?_, fun hlate hwalks hats => ?_⟩,
    fun q hats hq hsent => ?_, fun iova target ok size may hats hserved => ?_, fun iova size itag hup hcxl hinv houts hwaiting => ?_⟩
  · have resume {deny : Bool} (hdeny : v.getLsbD 28 = deny) : d.resumeWrite h v =
        if deny then (go idle).stop n .accessDenied else go idle := by
      rw [Dev.resumeWrite_writes hhead hw hgo, hv, hdeny, ← hwing]
      exact Dev.resumeFault_only hrecs hwritten hengines hunrec deny
    exact ⟨fun hretry => exec_run_live hlive (f := fun d => d.resumeWrite h v) rfl (resume hretry),
      fun hdeny => exec_run_live hlive (f := fun d => d.resumeWrite h v) rfl (resume hdeny)⟩
  · exact exec_run_live hlive (f := fun d => d.faultTimeout (.treadle n)) rfl
      (Dev.faultTimeout_only hrecs hwritten hengines hunrec hlate hwalks hats)
  · subst hq
    have completion {iova target : BitVec 64} {ok may : Bool} {size : Nat} {e : Dev} (hiova : iova.toNat / 4096 * 4096 = q.iova)
        (he : d.atsDone q.head iova.toNat ok target.toNat size may = e) :
        exec (.atsTranslationCompletion q.head iova ok target size may) s = s.settling e :=
      exec_run_live hlive (f := fun d => d.atsCompletion q.head iova.toNat ok target.toNat size may) rfl
        ((Dev.atsCompletion_pending hats hsent hiova ..).trans he)
    refine ⟨fun iova target size may hiova hmay => ?_, fun iova hiova => ⟨fun target size may => ?_, ?_⟩⟩
    · exact completion hiova (Dev.atsDone_fills hats hsent hiova target.toNat size hmay)
    · exact completion hiova (Dev.atsDone_refused hats hsent hiova target.toNat size may)
    · refine exec_run_live hlive (f := fun d => d.atsTimeout q.head iova.toNat) rfl ?_
      rw [Dev.atsTimeout_pending hats hsent hiova, Dev.atsDone_refused hats hsent hiova]
      rfl
  · exact exec_run_live hlive (f := fun d => d.atsCompletion h iova.toNat ok target.toNat size may) rfl
      (Dev.atsCompletion_unexpected hats hserved ..)
  · exact exec_run_live hlive (f := fun d => d.atsInvalidate h iova.toNat size itag.toNat) rfl
      (Dev.atsInvalidate_idle hup hcxl hinv houts hwaiting ..)

end Sys2Proof.Machine
end

section
/-! SUPPORT. The status display as an update of the device: registers and FAULT_N, nothing else (R443, R451). -/

namespace Sys2Proof.Machine

/-- The same device but for the registers. -/
def SameButRegs (d e : Dev) : Prop := ∃ r, e = { d with regs := r }

theorem SameButRegs.refl (d : Dev) : SameButRegs d d := ⟨d.regs, rfl⟩

theorem SameButRegs.setFld {d e : Dev} (h : SameButRegs d e) (f : Field) (n v : Nat) : SameButRegs d (e.setFld f n v) := by
  obtain ⟨r, rfl⟩ := h
  exact ⟨_, rfl⟩

theorem SameButRegs.showQueue {d e : Dev} (h : SameButRegs d e) (q : Nat) : SameButRegs d (e.showQueue q) :=
  (((h.setFld ..).setFld ..).setFld ..).setFld ..

theorem SameButRegs.showCons {d e : Dev} (h : SameButRegs d e) : SameButRegs d e.showCons :=
  ((h.setFld ..).setFld ..).setFld ..

theorem SameButRegs.showLedger {d e : Dev} (h : SameButRegs d e) : SameButRegs d e.showLedger := (h.setFld ..).setFld ..

/-- Outside the run phase FAULT_N keeps its level (R451). -/
theorem Dev.showFault_eq (d : Dev) : ∃ f, d.showFault = { d with pins := { d.pins with fault := f } } := by
  unfold Dev.showFault
  split
  · exact ⟨d.pins.fault, rfl⟩
  · exact ⟨_, rfl⟩

theorem Dev.show_eq (d : Dev) : ∃ r f, d.show = { d with regs := r, pins := { d.pins with fault := f } } := by
  have hqueues : SameButRegs d (d.boundQueues.foldl Dev.showQueue d) :=
    foldl_keeps (SameButRegs d) (fun _ q h => h.showQueue q) _ d (SameButRegs.refl d)
  obtain ⟨r, hregs⟩ := hqueues.showCons.showLedger
  obtain ⟨f, hfault⟩ := (d.boundQueues.foldl Dev.showQueue d).showCons.showLedger.showFault_eq
  exact ⟨r, f, by unfold Dev.show; rw [hfault, hregs]⟩

/-- Settles O4: the display sets registers and FAULT_N, and of the fields those that show the state. -/
theorem displayChangesStatusOnly : Obligations.DisplayChangesStatusOnly := by
  unfold Obligations.DisplayChangesStatusOnly
  exact fun d => ⟨d.show_eq, d.show_fld⟩

end Sys2Proof.Machine
end

section
/-! SUPPORT. Queues of couriers: what leaves them alone, and when a descriptor leaves the front of its queue (R299). -/

namespace Sys2Proof.Machine

@[simp] theorem Dev.queue_newOp (d : Dev) (q : Nat) : d.newOp.2.queue q = d.queue q := rfl

/-! ### The descriptor in progress -/

section
variable {d : Dev} {q : Nat}

/-- With no descriptor in progress none leaves. -/
theorem Dev.descIssued_idle (hcur : (d.queue q).cur = none) : d.descIssued q = d := by
  unfold Dev.descIssued
  dsimp only
  rw [hcur]

variable {y : Desc} (hcur : (d.queue q).cur = some y)
include hcur

/-- A descriptor stays while it has a read outstanding. -/
theorem Dev.descIssued_reading {o : COut} (ho : o ∈ (d.queue q).outs) (hown : o.own = y.id) (hread : o.read = true) :
    d.descIssued q = d := by
  have hreads : (d.queue q).outs.any (fun o => o.own = y.id && (o.read || (o.clear && y.phase = .run))) = true :=
    List.any_eq_true.2 ⟨o, ho, by simp [hown, hread]⟩
  unfold Dev.descIssued
  dsimp only
  rw [hcur]
  simp [hreads]

/-- One that has issued everything, with neither a read nor a clearing write outstanding, leaves. -/
theorem Dev.descIssued_leaves (houts : ∀ o ∈ (d.queue q).outs, o.own = y.id → o.read = false ∧ o.clear = false)
    (hdone : y.phase = .issued ∨ y.phase = .run ∧ y.begun = true ∧ (1 ≤ y.op ∧ y.op ≤ 5) ∧ y.len ≤ y.pos) :
    d.descIssued q =
      d.setQueue q { d.queue q with cur := none, rest := (d.queue q).rest ++ [{ y with phase := .issued }] } := by
  have hreads : (d.queue q).outs.any (fun o => o.own = y.id && (o.read || (o.clear && y.phase = .run))) = false := by
    rw [List.any_eq_false]
    intro o ho
    by_cases hown : o.own = y.id
    · simp [houts o ho hown]
    · simp [hown]
  have hall : (decide (y.phase = .issued) ||
      (y.phase = .run && y.begun && decide (1 ≤ y.op) && decide (y.op ≤ 5) && decide (y.pos ≥ y.len))) = true := by
    rcases hdone with hphase | ⟨hphase, hbegun, ⟨hlo, hhi⟩, hlen⟩
    · simp [hphase]
    · simp [hphase, hbegun, hlo, hhi, hlen]
  unfold Dev.descIssued
  dsimp only
  rw [hcur]
  dsimp only
  rw [hreads, hall]
  rfl

end

end Sys2Proof.Machine
end

section
/-! SUPPORT. The completion actions of a queue's oldest issued descriptor: the count, the record in device memory, the interrupt,
and the end of a wait for lost writes (R308, R309, R311, R316). -/

namespace Sys2Proof.Machine

/-! ### The end of a descriptor (R308) -/

/-- The oldest descriptor leaves with its error shown and its interrupt raised. -/
theorem Dev.complEnd_eq {d : Dev} {q : Nat} {y : Desc} {more : List Desc} (hrest : (d.queue q).rest = y :: more) (x : Desc) :
    d.complEnd q x =
      let d1 := (if x.status ≠ 0 then d.setFld Fld.QUEUE_STATUS_ERROR q 1 else d).setQueue q { d.queue q with rest := more }
      if x.irq = true ∨ (x.status ≠ 0 ∧ d.fld Fld.QUEUE_CTRL_ERR_IRQ q = 1) then
        d1.interrupt (d.qHead q) (d.fld Fld.QUEUE_CTRL_VECTOR q) else d1 := by
  have hkeeps (f : Field) (hf : f.id ≠ Fld.QUEUE_STATUS_ERROR.id) :
      (d.setFld Fld.QUEUE_STATUS_ERROR q 1).fld f q = d.fld f q := Dev.fld_setFld_ne _ _ _ _ _ _ hf
  have hirq := hkeeps Fld.QUEUE_CTRL_ERR_IRQ (by decide)
  have hvector := hkeeps Fld.QUEUE_CTRL_VECTOR (by decide)
  have hhead : (d.setFld Fld.QUEUE_STATUS_ERROR q 1).qHead q = d.qHead q :=
    congrArg (BitVec.ofNat 4) (hkeeps Fld.QUEUE_BIND_HEAD (by decide))
  have hset (e : Dev) (z : CQueue) : (e.setQueue q z).qHead q = e.qHead q ∧ ∀ f, (e.setQueue q z).fld f q = e.fld f q :=
    ⟨rfl, fun _ => rfl⟩
  unfold Dev.complEnd
  by_cases hst : x.status = 0
  · simp [hst, hrest, hset]
  · simp [hst, hrest, hset, hirq, hvector, hhead]

theorem Dev.complFlag_none {d : Dev} {q : Nat} {x : Desc} (hflag : x.flag = false) : d.complFlag q x = d.complEnd q x := by
  simp [Dev.complFlag, hflag]

/-! ### Completion writes to device memory -/

/-- The request of a completion write to device memory, under the next tag. -/
def Dev.complRequest (d : Dev) (q : Nat) (x : Desc) (a bytes v : Nat) : Dev :=
  d.newTag.2.sendReq { kind := .write, src := .courier x.courier, tag := d.weave.nextTag, line := BitVec.ofNat 40 (a / 256),
                       sects := runSects (a % 256) bytes, data := placeLine v (a % 256), mask := runMask (a % 256) bytes,
                       wing := BitVec.ofNat 4 (d.qWing q) }

theorem Dev.complWrite_device {d : Dev} {q : Nat} {x : Desc} {a : Nat} (hdrop : x.dropped = false)
    (hmay : d.wingMay (d.qWing q) a = true) (bytes v : Nat) :
    d.complWrite q x .device a bytes v = (some (some d.weave.nextTag), d.complRequest q x a bytes v) := by
  simp [Dev.complWrite, hdrop, hmay]
  exact ⟨rfl, rfl⟩

/-! ### The oldest descriptor of a queue without one in progress -/

section
variable {d : Dev} {q : Nat} {x : Desc} {more : List Desc} (hcur : (d.queue q).cur = none) (hrest : (d.queue q).rest = x :: more)
include hcur hrest

/-- With its record written and no flag wanted, the descriptor takes its interrupt. -/
theorem Dev.complete_recorded (hphase : x.phase = .record none) : d.complete q = d.complFlag q x := by
  simp only [Dev.complete, Dev.descIssued_idle hcur, hrest, hphase]

variable (hphase : x.phase = .issued)
include hphase

/-- A descriptor that asks for nothing is counted and leaves. -/
theorem Dev.complete_counts (hst : x.status = 0) (hirq : x.irq = false) (hflag : x.flag = false) (hrec : x.crec = false)
    (hfinal : (d.queue q).final x none = true) : d.complete q =
      (d.setFld Fld.COMPLETED_COUNT q ((d.fld Fld.COMPLETED_COUNT q + 1) % 2 ^ 64)).setQueue q { d.queue q with rest := more } := by
  have hwants : x.wantsRec = false := by simp [Desc.wantsRec, hst, hrec]
  have hcounted (n : Nat) : ({ x with phase := .issued, count := n } : Desc).wantsRec = false := hwants
  have hends (n : Nat) : (d.setFld Fld.COMPLETED_COUNT q n).complFlag q { x with phase := .issued, count := n } =
      (d.setFld Fld.COMPLETED_COUNT q n).setQueue q { d.queue q with rest := more } := by
    have hquiet : ({ x with phase := .issued, count := n } : Desc).irq = false := hirq
    rw [Dev.complFlag_none (x := { x with phase := .issued, count := n }) hflag,
      Dev.complEnd_eq (d := d.setFld Fld.COMPLETED_COUNT q n) hrest]
    simp only [hquiet]
    simp [hst]
  simp only [Dev.complete, Dev.descIssued_idle hcur, hrest, hphase]
  simp [hwants, hflag, hfinal, hcounted, hends]

/-- A record that finds its ring full stops the queue (R316). -/
theorem Dev.complete_full (hwants : x.wantsRec = true) (hfinal : (d.queue q).final x (some (d.recPath q)) = true)
    (hroom : d.cqRoom q = false) : d.complete q = d.setFld Fld.QUEUE_STATUS_CQ_FULL q 1 := by
  simp only [Dev.complete, Dev.descIssued_idle hcur, hrest, hphase]
  simp [hwants, hfinal, hroom]

/-- A record for device memory is written at CQ_TAIL, which goes on with COMPLETED (R308). -/
theorem Dev.complete_records {cnt tail a : Nat} (hcnt : (d.fld Fld.COMPLETED_COUNT q + 1) % 2 ^ 64 = cnt)
    (htail : d.fld Fld.CQ_TAIL_TAIL q = tail) (ha : d.fld Fld.CQ_BASE_ADDR q * 4096 + 16 * tail = a) (hwants : x.wantsRec = true)
    (hfinal : (d.queue q).final x (some .device) = true) (hroom : d.cqRoom q = true) (hpath : d.recPath q = .device)
    (hdrop : x.dropped = false) (hmay : d.wingMay (d.qWing q) a = true) (hnext : (tail + 1) % d.cqSize q ≠ 0) :
    let sent := d.complRequest q x a 16 (d.recordBytes q { x with count := cnt })
    d.complete q = ((sent.setFld Fld.CQ_TAIL_TAIL q ((tail + 1) % d.cqSize q)).setFld Fld.COMPLETED_COUNT q cnt).setQueue q
      { d.queue q with rest := { x with count := cnt, phase := .record (some d.weave.nextTag) } :: more } := by
  have hcounted : ({ x with phase := .issued, count := cnt } : Desc).wantsRec = true := hwants
  have hwrite (v : Nat) : d.complWrite q { x with phase := .issued, count := cnt } .device a 16 v =
      (some (some d.weave.nextTag), d.complRequest q x a 16 v) :=
    Dev.complWrite_device (x := { x with phase := .issued, count := cnt }) hdrop hmay 16 v
  have hsize (v : Nat) : (d.complRequest q x a 16 v).cqSize q = d.cqSize q := rfl
  have hbytes : d.recordBytes q { x with phase := .issued, count := cnt } = d.recordBytes q { x with count := cnt } := rfl
  have hrest' (v : Nat) : (d.complRequest q x a 16 v).queue q = d.queue q := rfl
  simp only [Dev.complete, Dev.descIssued_idle hcur, hrest, hphase, hwants, hpath, hfinal, hroom, hcnt, htail, ha, hcounted, hwrite,
    hsize, hnext, Dev.setOldest, Dev.queue_setFld, hrest', hbytes, List.tail_cons, if_true, Bool.not_true, Bool.and_false,
    Bool.false_eq_true, if_false]

end

/-! ### Writes that a broken path has lost (R311) -/

/-- The write was lost on a broken path 2 ms ago. -/
def Dev.lostLong (d : Dev) (o : COut) : Bool := match o.lostAt with | some t => t + 2000 ≤ d.tick | none => false

/-- The path of the completion write that a descriptor is to make first. -/
def Dev.complPath (d : Dev) (q : Nat) (x : Desc) : Option CPath :=
  if x.crec ∨ x.status ≠ 0 then some (d.recPath q) else if x.flag then some (d.flagPath q) else none

/-- The descriptor waits for a write that has been lost. -/
def Dev.waitsLost (d : Dev) (q : Nat) (x : Desc) : Bool :=
  !({ d.queue q with outs := (d.queue q).outs.filter d.lostLong } : CQueue).final x (d.complPath q x)

theorem Dev.complExpiry_idle {d : Dev} {q : Nat} (hcur : (d.queue q).cur = none) :
    d.complExpiry q = d.setQueue q { d.queue q with
      outs := (d.queue q).outs.filter (fun o => !d.lostLong o),
      rest := (d.queue q).rest.map (fun x => if x.phase = .issued ∧ (x.status = 0 ∨ x.status = 4) ∧ d.waitsLost q x = true
        then { x with status := 6 } else x) } := by
  have hpath (x : Desc) : (if x.wantsRec then some (d.recPath q) else if x.flag then some (d.flagPath q) else none) =
      d.complPath q x := by
    simp [Dev.complPath, Desc.wantsRec]
  have hcond (x : Desc) (b : Bool) : (decide (x.phase = .issued) && (decide (x.status = 0) || decide (x.status = 4)) && b) = true ↔
      x.phase = .issued ∧ (x.status = 0 ∨ x.status = 4) ∧ b = true := by
    simp [and_assoc]
  unfold Dev.complExpiry
  rw [Dev.descIssued_idle (by simp [hcur])]
  simp only [hpath, hcond]
  rfl

/-- Settles O40: the oldest issued descriptor takes the completion action that its fields, the ring and its writes allow. -/
theorem completions : Obligations.Completions := by
  unfold Obligations.Completions
  intro s q9 hlive d q z cnt hcur
  have complete {e : Dev} (he : d.complete q = e) : exec (.descriptorComplete q9) s = s.settling e :=
    exec_run_live hlive (f := fun d => d.complete q) rfl he
  refine ⟨fun x more hrest hphase => ⟨fun hst hirq hflag hrec hfinal => ?_, fun hrec hfinal hroom => ?_,
    fun hrec hfinal hroom hpath hdrop => ?_⟩, fun x more hrest hphase hflag => ?_, ?_⟩
  · exact complete (Dev.complete_counts hcur hrest hphase hst hirq hflag hrec hfinal)
  · exact complete (Dev.complete_full hcur hrest hphase (by simpa [Desc.wantsRec] using hrec) hfinal hroom)
  · intro tail a v hmay hnext
    exact complete (Dev.complete_records hcur hrest hphase rfl rfl rfl (by simpa [Desc.wantsRec] using hrec) hfinal hroom hpath
      hdrop hmay hnext)
  · exact complete ((Dev.complete_recorded hcur hrest hphase).trans ((Dev.complFlag_none hflag).trans (Dev.complEnd_eq hrest x)))
  · exact exec_run_live hlive (f := fun d => d.complExpiry q) rfl (Dev.complExpiry_idle hcur)

end Sys2Proof.Machine
end

section
/-! SUPPORT. Writes of a queue's registers, of WINDOW_BASE, and accesses through the BAR 2 window (R300, R313 to R316). -/

namespace Sys2Proof.Machine

/-! ### Registers of a queue (R300, R316) -/

section
variable {d : Dev} {q v : Nat}

theorem Dev.doorbell_beyond (hv : d.sqSize q ≤ v) : d.doorbell q v = d.setFld Fld.QUEUE_STATUS_BAD_DOORBELL q 1 := if_pos hv

theorem Dev.doorbell_ring (hv : v < d.sqSize q) : d.doorbell q v =
    if (d.queue q).fetch = .doorbell then
      (d.setFld Fld.SQ_TAIL_TAIL q v).setQueue q { d.queue q with fetch := .idle }
    else d.setFld Fld.SQ_TAIL_TAIL q v := if_neg (Nat.not_le.2 hv)

/-- The bases and the flag address of a bound queue are valid (R300, R302). -/
def Dev.ringsOk (d : Dev) (q : Nat) : Prop := d.fld Fld.QUEUE_BIND_VALID q = 1 ∧
  d.baseOk q (d.fld Fld.SQ_BASE_KIND q) (d.fld Fld.SQ_BASE_HEAD q) (d.fld Fld.SQ_BASE_ADDR q) true = true ∧
  d.baseOk q (d.fld Fld.CQ_BASE_KIND q) (d.fld Fld.CQ_BASE_HEAD q) (d.fld Fld.CQ_BASE_ADDR q) true = true ∧
  d.baseOk q (d.fld Fld.CPL_FLAG_KIND q) (d.fld Fld.CPL_FLAG_HEAD q) (d.fld Fld.CPL_FLAG_ADDR q / 512) false = true

theorem Dev.ringsOk_iff : (decide (d.fld Fld.QUEUE_BIND_VALID q = 1) &&
    d.baseOk q (d.fld Fld.SQ_BASE_KIND q) (d.fld Fld.SQ_BASE_HEAD q) (d.fld Fld.SQ_BASE_ADDR q) true &&
    d.baseOk q (d.fld Fld.CQ_BASE_KIND q) (d.fld Fld.CQ_BASE_HEAD q) (d.fld Fld.CQ_BASE_ADDR q) true &&
    d.baseOk q (d.fld Fld.CPL_FLAG_KIND q) (d.fld Fld.CPL_FLAG_HEAD q) (d.fld Fld.CPL_FLAG_ADDR q / 512) false) = true ↔
      d.ringsOk q := by
  simp [Dev.ringsOk, and_assoc]

theorem Dev.queueEnable_ready (hoff : d.fld Fld.QUEUE_CTRL_ENABLE q = 0) (hok : d.ringsOk q) : d.queueEnable q =
    ((((((((((d.setFld Fld.SQ_HEAD_HEAD q 0).setFld Fld.SQ_TAIL_TAIL q 0).setFld Fld.CQ_HEAD_HEAD q 0).setFld
      Fld.CQ_TAIL_TAIL q 0).setFld Fld.COMPLETED_COUNT q 0).setFld Fld.CQ_TAIL_PHASE q 1).setFld
      Fld.QUEUE_STATUS_EXPECT_PHASE q 1).setFld Fld.QUEUE_STATUS_CQ_FULL q 0).setFld Fld.QUEUE_CTRL_ENABLE q 1).setQueue q
      { d.queue q with fetch := .idle, courier := none }) := by
  unfold Dev.queueEnable
  dsimp only
  rw [Dev.ringsOk_iff.2 hok, if_neg (by simp [hoff]), if_neg (by simp)]
  simp only [List.foldl_cons, List.foldl_nil, Dev.queue_setFld]

theorem Dev.queueEnable_misconfigured (hoff : d.fld Fld.QUEUE_CTRL_ENABLE q = 0) (hbad : ¬ d.ringsOk q) :
    d.queueEnable q = d.setFld Fld.QUEUE_STATUS_CONFIG_ERR q 1 := by
  have hbad' := Bool.eq_false_iff.2 (mt Dev.ringsOk_iff.1 hbad)
  unfold Dev.queueEnable
  dsimp only
  rw [hbad', if_neg (by simp [hoff]), if_pos (by rfl)]

/-- With no descriptor in progress and no courier a disable only clears ENABLE (R314). -/
theorem Dev.queueDisable_idle (hon : d.fld Fld.QUEUE_CTRL_ENABLE q = 1) (hcur : (d.queue q).cur = none)
    (hcourier : (d.queue q).courier = none) : d.queueDisable q =
      (d.setQueue q { d.queue q with fetch := .idle }).setFld Fld.QUEUE_CTRL_ENABLE q 0 := by
  have habort : d.abortDesc q = d.setQueue q { d.queue q with fetch := .idle } := by
    have hbusy : ((d.queue q).cur.any (fun y => y.stalled) || (d.queue q).courier.isSome) = false := by simp [hcur, hcourier]
    unfold Dev.abortDesc
    rw [hbusy]
    simp only [hcur, Option.map_none, Bool.false_eq_true, if_false]
    rw [Dev.descIssued_idle (by rw [Dev.setQueue_queue_same]), hcourier]
  rw [Dev.queueDisable, if_neg (by simp [hon]), habort]

end

/-- A write of QUEUE_CTRL stores DSIZE, PRIO, ERR_IRQ and VECTOR before ENABLE acts. -/
def Dev.ctlStored (d : Dev) (q v : Nat) : Dev :=
  let d0 := if d.fld Fld.QUEUE_CTRL_ENABLE q = 0 then d.setFld Fld.QUEUE_CTRL_DSIZE q (v / 2 ^ 30 % 2) else d
  ((d0.setFld Fld.QUEUE_CTRL_PRIO q (min (v / 2 ^ 28 % 4) (d0.fld Fld.WING_RES_PRIO_MAX (d0.qWing q)))).setFld
    Fld.QUEUE_CTRL_ERR_IRQ q (v / 2 ^ 27 % 2)).setFld Fld.QUEUE_CTRL_VECTOR q (v / 2 ^ 8 % 2 ^ 8)

theorem Dev.queueCtlWrite_eq (d : Dev) (q v : Nat) : d.queueCtlWrite q v =
    if v.testBit 31 then (d.ctlStored q v).queueEnable q else (d.ctlStored q v).queueDisable q := rfl

theorem Dev.ctlStored_queue (d : Dev) (q v : Nat) : (d.ctlStored q v).queue q = d.queue q := by
  unfold Dev.ctlStored
  split <;> rfl

theorem Dev.ctlStored_enable (d : Dev) (q v : Nat) :
    (d.ctlStored q v).fld Fld.QUEUE_CTRL_ENABLE q = d.fld Fld.QUEUE_CTRL_ENABLE q := by
  unfold Dev.ctlStored
  dsimp only
  rw [Dev.fld_setFld_ne _ _ _ _ _ _ (by decide), Dev.fld_setFld_ne _ _ _ _ _ _ (by decide), Dev.fld_setFld_ne _ _ _ _ _ _ (by decide)]
  split
  · exact Dev.fld_setFld_ne _ _ _ _ _ _ (by decide)
  · rfl

/-! ### WINDOW_BASE (R313) -/

theorem Dev.windowWrite_eq (d : Dev) (h : HeadId) (v : W64) :
    let b := v.toNat / 2 ^ 26 % 2 ^ 22
    d.windowWrite h v = (d.setFld Fld.WINDOW_BASE_BASE h.toNat b).setFld Fld.WINDOW_BASE_ERR h.toNat
      (if d.windowOff b then 1 else 0) := by
  have hbase : (v.extractLsb' 26 22).toNat = v.toNat / 2 ^ 26 % 2 ^ 22 := by
    rw [BitVec.extractLsb'_toNat, Nat.shiftRight_eq_div_pow]
  unfold Dev.windowWrite
  rw [hbase]

/-! ### The pump of BAR 2 (R313) -/

section
variable {d : Dev} {h : HeadId} (hidle : (d.head h).mem.any (·.bar2) = false)
include hidle

theorem Dev.bar2Pump_empty (hq : (d.head h).bar2Q = []) : ∀ n, d.bar2Pump h n = d
  | 0 => rfl
  | n + 1 => by simp [Dev.bar2Pump, hidle, hq]

variable {r : BarReq} (hq : (d.head h).bar2Q = [r])
include hq

/-- A request that the window does not serve, or whose bytes are all done, ends; a read returns what it has. -/
theorem Dev.bar2Pump_ends (hdone : r.off = true ∨ r.len ≤ r.got) (n : Nat) :
    let e := d.setHead h { d.head h with bar2Q := [] }
    d.bar2Pump h (n + 1) = if r.write then e else e.send (.bar2Data h r.htag (if r.poison then 0 else r.acc) r.poison) := by
  intro e
  have hidle' : (e.head h).mem.any (·.bar2) = false := by rw [Dev.setHead_head_same]; exact hidle
  have hempty : (e.head h).bar2Q = [] := by rw [Dev.setHead_head_same]
  have hend : (r.off || decide (r.len ≤ r.got)) = true := by simpa using hdone
  simp only [Dev.bar2Pump, hidle, hq, hend, Bool.false_eq_true, if_false, if_true]
  split
  · exact Dev.bar2Pump_empty hidle' hempty n
  · exact Dev.bar2Pump_empty (d := e.send _) hidle' hempty n

variable (hoff : r.off = false) (hgot : r.got = 0) (hlen : 1 ≤ r.len)
include hoff hgot hlen

/-- Bytes outside the wing are done at once, with a NOTE. -/
theorem Dev.bar2Pump_refuses (hmay : d.wingMay (d.headWing h) r.dpa = false) (n : Nat) : d.bar2Pump h (n + 1) =
    ((d.bar2Move h (min r.len (256 - r.dpa % 256)) 0 false).refused h r.dpa).bar2Pump h n := by
  have hgo : (r.off || decide (r.len ≤ 0)) = false := by simp [hoff]; omega
  simp only [Dev.bar2Pump, hidle, hq, hgot, hgo, hmay, Nat.add_zero, Nat.sub_zero, Bool.false_eq_true, if_false, Bool.not_false,
    if_true]

/-- Bytes of the wing go to their home, up to the end of their line. -/
theorem Dev.bar2Pump_goes (hmay : d.wingMay (d.headWing h) r.dpa = true) (n : Nat) :
    let off := r.dpa % 256
    let k := min r.len (256 - off)
    d.bar2Pump h (n + 1) = d.headReq h r.htag true off k
      { kind := if r.write then .write else .readOnce, src := .head h, tag := 0, line := BitVec.ofNat 40 (r.dpa / 256),
        sects := runSects off k, data := BitVec.ofNat 2048 (r.data % 2 ^ (8 * k) * 2 ^ (8 * off)),
        mask := if r.write then runMask off k else 0 } := by
  have hgo : (r.off || decide (r.len ≤ 0)) = false := by simp [hoff]; omega
  have hdata : r.data / 2 ^ (8 * 0) = r.data := Nat.div_one _
  simp only [Dev.bar2Pump, hidle, hq, hgot, hgo, hmay, hdata, Nat.add_zero, Nat.sub_zero, Bool.false_eq_true, if_false, Bool.not_true]

end

/-! ### Accesses through the window -/

/-- A request of a head, with nothing done yet. -/
def Dev.windowReq (d : Dev) (h : HeadId) (tag : Nat) (write : Bool) (off len data : Nat) : BarReq :=
  { htag := tag, write := write, dpa := d.fld Fld.WINDOW_BASE_BASE h.toNat * 64 * MiB + off, len := len, data := data,
    off := d.windowOff (d.fld Fld.WINDOW_BASE_BASE h.toNat) }

/-- The head has a request as its only one. -/
def Dev.windowTaken (d : Dev) (h : HeadId) (r : BarReq) : Dev := d.setHead h { d.head h with bar2Q := [r] }

section
variable (d : Dev) (h : HeadId) (r : BarReq)

@[simp] theorem Dev.windowTaken_head : (d.windowTaken h r).head h = { d.head h with bar2Q := [r] } := Dev.setHead_head_same ..

theorem Dev.windowTaken_setHead (x : Head) : (d.windowTaken h r).setHead h x = d.setHead h x := Dev.setHead_setHead ..

theorem Dev.refused_setHead (x : Head) (a : Nat) : (d.setHead h x).refused h a = (d.refused h a).setHead h x := rfl

@[simp] theorem Dev.refused_head (g : HeadId) (a : Nat) : (d.refused h a).head g = d.head g := rfl

/-- Bytes done without data. -/
theorem Dev.windowTaken_bar2Move (n : Nat) :
    (d.windowTaken h r).bar2Move h n 0 false = d.windowTaken h { r with got := r.got + n } := by
  unfold Dev.bar2Move
  simp [Dev.windowTaken]

end

section
variable {d : Dev} {h : HeadId} (hserved : d.served h = true) (hbars : d.barsOn h = true)
include hserved hbars

theorem Dev.bar2_poisoned (tag off len data : Nat) : d.bar2 h tag true true off len data = d.aer h .poisonedTlp := by
  simp [Dev.bar2, hserved, hbars]

variable (hthawed : d.frozen h = false) (hq : (d.head h).bar2Q = []) (tag : Nat) (write : Bool) {off len : Nat} (data : Nat)
include hthawed hq

theorem Dev.bar2_starts : d.bar2 h tag write false off len data =
    (d.windowTaken h (d.windowReq h tag write off len data)).bar2Pump h (len / 256 + 3) := by
  have hcount : (d.windowTaken h (d.windowReq h tag write off len data)).bar2Count h = len / 256 + 3 := by
    rw [Dev.bar2Count, Dev.windowTaken_head]
    show 0 + len / 256 + 3 = len / 256 + 3
    rw [Nat.zero_add]
  rw [← hcount]
  simp [Dev.bar2, hserved, hbars, hthawed, hq]
  rfl

variable (hidle : (d.head h).mem.any (·.bar2) = false)
include hidle

/-- The disabled window reads zero and ignores writes. -/
theorem Dev.bar2_disabled (hoff : d.windowOff (d.fld Fld.WINDOW_BASE_BASE h.toNat) = true) :
    let e := d.setHead h (d.head h)
    d.bar2 h tag write false off len data = if write then e else e.send (.bar2Data h tag 0 false) := by
  intro e
  have hends := Dev.bar2Pump_ends (d := d.windowTaken h (d.windowReq h tag write off len data)) (h := h) (by simpa using hidle)
    (by rw [Dev.windowTaken_head]) (.inl hoff) (len / 256 + 2)
  rw [Dev.bar2_starts hserved hbars hthawed hq, hends, Dev.windowTaken_setHead, Dev.windowTaken_head, ← hq]
  rfl

variable (hon : d.windowOff (d.fld Fld.WINDOW_BASE_BASE h.toNat) = false) (hlen : 1 ≤ len)
include hon hlen

/-- An access inside one line outside the wing reads zero or is not written, with a NOTE. -/
theorem Dev.bar2_outside {a : Nat} (ha : d.fld Fld.WINDOW_BASE_BASE h.toNat * 64 * MiB + off = a)
    (hmay : d.wingMay (d.headWing h) a = false) (hline : a % 256 + len ≤ 256) :
    let e := (d.setHead h (d.head h)).refused h a
    d.bar2 h tag write false off len data = if write then e else e.send (.bar2Data h tag 0 false) := by
  intro e
  subst ha
  have hrefuses := Dev.bar2Pump_refuses (d := d.windowTaken h (d.windowReq h tag write off len data)) (h := h)
    (r := d.windowReq h tag write off len data) (by simpa using hidle) (by rw [Dev.windowTaken_head]) hon rfl hlen hmay (len / 256 + 2)
  have hmin : min (d.windowReq h tag write off len data).len (256 - (d.windowReq h tag write off len data).dpa % 256) = len :=
    Nat.min_eq_left (Nat.le_sub_of_add_le' hline)
  let r : BarReq := { d.windowReq h tag write off len data with got := (d.windowReq h tag write off len data).got + len }
  have hends := Dev.bar2Pump_ends (d := (d.windowTaken h r).refused h r.dpa) (h := h) (r := r)
    (by rw [Dev.refused_head]; simpa using hidle) (by rw [Dev.refused_head, Dev.windowTaken_head]) (.inr (Nat.le_add_left ..))
    (len / 256 + 1)
  rw [Dev.bar2_starts hserved hbars hthawed hq, hrefuses, Dev.windowTaken_bar2Move, hmin, hends, ← Dev.refused_setHead,
    Dev.refused_head, Dev.windowTaken_head, Dev.windowTaken_setHead, ← hq]
  rfl

/-- An access to the wing's memory goes to its home, up to the end of the line. -/
theorem Dev.bar2_inside {a : Nat} (ha : d.fld Fld.WINDOW_BASE_BASE h.toNat * 64 * MiB + off = a)
    (hmay : d.wingMay (d.headWing h) a = true) :
    let k := min len (256 - a % 256)
    d.bar2 h tag write false off len data =
      (d.windowTaken h { htag := tag, write := write, dpa := a, len := len, data := data, off := false }).headReq
        h tag true (a % 256) k
        { kind := if write then .write else .readOnce, src := .head h, tag := 0, line := BitVec.ofNat 40 (a / 256),
          sects := runSects (a % 256) k, data := BitVec.ofNat 2048 (data % 2 ^ (8 * k) * 2 ^ (8 * (a % 256))),
          mask := if write then runMask (a % 256) k else 0 } := by
  subst ha
  have hgoes := Dev.bar2Pump_goes (d := d.windowTaken h (d.windowReq h tag write off len data)) (h := h)
    (r := d.windowReq h tag write off len data) (by simpa using hidle) (by rw [Dev.windowTaken_head]) hon rfl hlen hmay (len / 256 + 2)
  rw [Dev.bar2_starts hserved hbars hthawed hq, hgoes, Dev.windowReq, hon]

end

/-! ### The commands -/

section
variable {s : State} (hlive : s.dev.live = true)
include hlive

/-- A write of a head to a register that it reaches, by what the write does. -/
theorem exec_barWrite {i : Instr} {h : HeadId} {b : Block} {n : Nat} {f : Dev → Dev} {e : Dev}
    (hi : exec i s = s.run fun d => d.barWrite h b n f) (hw : s.dev.Writes h b n) (hf : f s.dev = e) : exec i s = s.settling e :=
  exec_run_live hlive hi ((Dev.barWrite_writes hw.1 f hw).trans hf)

/-- A write of QUEUE_CTRL that sets ENABLE. -/
theorem exec_queueEnable_writes {h : HeadId} {q : BitVec 9} {v : W32} {e : Dev} (hw : s.dev.Writes h .doorbell q.toNat)
    (hgo : v.getLsbD 31 = true) (he : (s.dev.ctlStored q.toNat v.toNat).queueEnable q.toNat = e) :
    exec (.queueEnable h q v) s = s.settling e := by
  refine exec_run_live hlive (f := fun d => if v.getLsbD 31 then d.barWrite h .doorbell q.toNat fun d => d.queueCtlWrite q.toNat v.toNat
    else d) rfl ?_
  rw [if_pos hgo, Dev.barWrite_writes hw.1 _ hw, Dev.queueCtlWrite_eq, BitVec.testBit_toNat, if_pos hgo, he]

/-- A write of QUEUE_CTRL that clears ENABLE. -/
theorem exec_queueDisable_writes {h : HeadId} {q : BitVec 9} {v : W32} {e : Dev} (hw : s.dev.Writes h .doorbell q.toNat)
    (hgo : v.getLsbD 31 = false) (he : (s.dev.ctlStored q.toNat v.toNat).queueDisable q.toNat = e) :
    exec (.queueDisable h q v) s = s.settling e := by
  have hno : ¬v.getLsbD 31 = true := Bool.eq_false_iff.1 hgo
  refine exec_run_live hlive (f := fun d => if v.getLsbD 31 then d
    else d.barWrite h .doorbell q.toNat fun d => d.queueCtlWrite q.toNat v.toNat) rfl ?_
  rw [if_neg hno, Dev.barWrite_writes hw.1 _ hw, Dev.queueCtlWrite_eq, BitVec.testBit_toNat, if_neg hno, he]

theorem exec_bar2Read_live {h : HeadId} {tag : Nat} {off : BitVec 29} {len : Nat} {e : Dev}
    (he : s.dev.bar2 h tag false false off.toNat len 0 = e) : exec (.bar2Read h tag off len) s = s.settling e :=
  exec_run_live hlive (f := fun d => d.bar2 h tag false false off.toNat len 0) rfl he

theorem exec_bar2Write_live {h : HeadId} {tag : Nat} {poison : Bool} {off : BitVec 29} {len data : Nat} {e : Dev}
    (he : s.dev.bar2 h tag true poison off.toNat len data = e) : exec (.bar2Write h tag poison off len data) s = s.settling e :=
  exec_run_live hlive (f := fun d => d.bar2 h tag true poison off.toNat len data) rfl he

end

/-- Settles O36: each write reaches its register, and an access through the window takes the branch of its place. -/
theorem queueRegistersAndWindow : Obligations.QueueRegistersAndWindow := by
  unfold Obligations.QueueRegistersAndWindow
  constructor
  · intro s h q9 hlive d q z
    refine ⟨fun hw => ⟨fun v => ⟨fun hv => ?_, fun hv hfetch => ?_, fun hv hfetch => ?_⟩, fun v => ?_, ?_, ?_⟩, ?_⟩
    · exact exec_barWrite hlive rfl hw (Dev.doorbell_beyond hv)
    · exact exec_barWrite hlive rfl hw ((Dev.doorbell_ring hv).trans (if_neg hfetch))
    · exact exec_barWrite hlive rfl hw ((Dev.doorbell_ring hv).trans (if_pos hfetch))
    · exact exec_barWrite hlive rfl hw (by rw [Dev.cqHeadWrite, Nat.mod_eq_of_lt v.isLt])
    · exact exec_barWrite hlive rfl hw rfl
    · intro v d0 d1 base ok
      have hqueue : d1.queue q = z := d.ctlStored_queue q v.toNat
      have henable : d1.fld Fld.QUEUE_CTRL_ENABLE q = d.fld Fld.QUEUE_CTRL_ENABLE q := d.ctlStored_enable q v.toNat
      have hrings : ok ↔ d1.ringsOk q := by simp [ok, base, Dev.ringsOk]
      refine ⟨fun hgo hoff hok => ?_, fun hgo hoff hbad => ?_, fun hgo hon hcur hcourier => ?_⟩
      · exact exec_queueEnable_writes hlive hw hgo ((Dev.queueEnable_ready (henable.trans hoff) (hrings.1 hok)).trans (by rw [hqueue]))
      · exact exec_queueEnable_writes hlive hw hgo (Dev.queueEnable_misconfigured (henable.trans hoff) (mt hrings.2 hbad))
      · exact exec_queueDisable_writes hlive hw hgo ((Dev.queueDisable_idle (henable.trans hon) (hqueue ▸ hcur)
          (hqueue ▸ hcourier)).trans (by rw [hqueue]))
    · intro hw v e b
      exact exec_barWrite hlive rfl hw (e.windowWrite_eq h v)
  · intro s h tag off len data hlive hserved hbars d x a o k d1 r
    refine ⟨exec_bar2Write_live hlive (Dev.bar2_poisoned hserved hbars ..), fun hthawed hq hidle => ⟨fun hoff => ⟨?_, ?_⟩,
      fun hon hlen hmay hline => ⟨?_, ?_⟩, fun hon hlen hmay => ⟨?_, ?_⟩⟩⟩
    · exact exec_bar2Read_live hlive (Dev.bar2_disabled hserved hbars hthawed hq tag false 0 hidle hoff)
    · exact exec_bar2Write_live hlive (Dev.bar2_disabled hserved hbars hthawed hq tag true data hidle hoff)
    · exact exec_bar2Read_live hlive (Dev.bar2_outside hserved hbars hthawed hq tag false 0 hidle hon hlen rfl hmay hline)
    · exact exec_bar2Write_live hlive (Dev.bar2_outside hserved hbars hthawed hq tag true data hidle hon hlen rfl hmay hline)
    · refine exec_bar2Read_live hlive ((Dev.bar2_inside hserved hbars hthawed hq tag false 0 hidle hon hlen rfl hmay).trans ?_)
      rw [Nat.zero_mod, Nat.zero_mul]
      rfl
    · exact exec_bar2Write_live hlive (Dev.bar2_inside hserved hbars hthawed hq tag true data hidle hon hlen rfl hmay)

end Sys2Proof.Machine
end

section
/-! SUPPORT. Couriers for waiting queues, and the slots that they read: the arbitration of an X-die, the reads of a slot in device
memory, and what the bytes of a slot decide (R298, R301). -/

namespace Sys2Proof.Machine

/-! ### Arbitration (R298) -/

/-- Of two waiting queues the later one in the list is next when it goes before the other. -/
theorem Dev.nextQueue_pair {d : Dev} {x : XDie} {a b : Nat} (h : (List.range 512).filter (d.qWaits x) = [a, b]) :
    d.nextQueue x = some (if d.before b a then b else a) := by
  unfold Dev.nextQueue
  rw [h]
  rfl

theorem Dev.before_eq_true_iff {d : Dev} {a b : Nat} : d.before a b = true ↔
    d.fld Fld.QUEUE_CTRL_PRIO b < d.fld Fld.QUEUE_CTRL_PRIO a ∨
      d.fld Fld.QUEUE_CTRL_PRIO a = d.fld Fld.QUEUE_CTRL_PRIO b ∧ (d.queue a).served < (d.queue b).served := by
  simp [Dev.before]

/-- A free courier goes to the queue that is next, an inbound one if there is one. -/
theorem Dev.schedule_gives {d : Dev} {x : XDie} {q : Nat} {c : BitVec 6} (hq : d.nextQueue x = some q)
    (hc : d.freeCourier x.toNat false = some c ∨ (d.freeCourier x.toNat false = none ∧ d.freeCourier x.toNat true = some c)) :
    d.schedule x = d.giveCourier q c := by
  have hany : d.anyCourier x.toNat = some c := by
    rcases hc with hin | ⟨hin, hout⟩
    · simp [Dev.anyCourier, hin]
    · simp [Dev.anyCourier, hin, hout]
  unfold Dev.schedule
  rw [hq, hany]

/-! ### Reads of a slot in device memory (R301) -/

/-- Where the slot at SQ_HEAD of a ring in device memory begins. -/
def Dev.slotBase (d : Dev) (q : Nat) : Nat := d.fld Fld.SQ_BASE_ADDR q * 4096 + d.fld Fld.SQ_HEAD_HEAD q * d.slotBytes q

/-- Courier c asks device e for 64 bytes at offset k of the slot that queue q has at its head in device d. -/
def Dev.slotAsked (d : Dev) (q : Nat) (c : BitVec 6) (e : Dev) (k : Nat) : Dev :=
  e.newTag.2.sendReq
    { kind := .readOnce, src := .courier c, tag := e.weave.nextTag, line := BitVec.ofNat 40 ((d.slotBase q + k) / 256),
      sects := setBit4 0 ((d.slotBase q + k) / 64 % 4), wing := BitVec.ofNat 4 (d.qWing q) }

section
variable {d : Dev} {q n : Nat} (g : Dev → Nat → Nat → Dev)

theorem Dev.slotReads_single (hbytes : d.slotBytes q = 64) : d.slotReads q n (fun e t k => (.ok, g e t k)) =
    let e := g d.newTag.2 d.weave.nextTag 0
    e.setQueue q { e.queue q with fetch := .read n [(d.weave.nextTag, 0)] 0 } := by
  unfold Dev.slotReads
  rw [hbytes]
  rfl

theorem Dev.slotReads_double (hbytes : d.slotBytes q = 128) : d.slotReads q n (fun e t k => (.ok, g e t k)) =
    let e := g d.newTag.2 d.weave.nextTag 0
    let e' := g e.newTag.2 e.weave.nextTag 64
    e'.setQueue q { e'.queue q with fetch := .read n [(d.weave.nextTag, 0), (e.weave.nextTag, 64)] 0 } := by
  unfold Dev.slotReads
  rw [hbytes]
  rfl

end

section
variable {d : Dev} {q : Nat} (hkind : d.fld Fld.SQ_BASE_KIND q = 0) (hmay : d.wingMay (d.qWing q) (d.slotBase q) = true)
  (hrange : d.range (d.slotBase q) = .memory) (n : Nat) (c : BitVec 6)
include hkind hmay hrange

theorem Dev.fetchSlotAt_memory : d.fetchSlotAt q n c = d.slotReads q n (fun e t k => (.ok, e.sendReq
    { kind := .readOnce, src := .courier c, tag := t, line := BitVec.ofNat 40 ((d.slotBase q + k) / 256),
      sects := setBit4 0 ((d.slotBase q + k) / 64 % 4), wing := BitVec.ofNat 4 (d.qWing q) })) := by
  unfold Dev.slotBase at hmay hrange
  simp only [Dev.fetchSlotAt, hkind, hmay, hrange, if_true, Bool.not_true, Bool.false_eq_true, if_false]
  rfl

/-- A slot of 64 bytes takes one read. -/
theorem Dev.fetchSlotAt_single (hsize : d.fld Fld.QUEUE_CTRL_DSIZE q ≠ 1) : d.fetchSlotAt q n c =
    (d.slotAsked q c d 0).setQueue q { d.queue q with fetch := .read n [(d.weave.nextTag, 0)] 0 } := by
  rw [Dev.fetchSlotAt_memory hkind hmay hrange, Dev.slotReads_single _ (if_neg hsize)]
  rfl

/-- A slot of 128 bytes takes two reads. -/
theorem Dev.fetchSlotAt_double (hsize : d.fld Fld.QUEUE_CTRL_DSIZE q = 1) : d.fetchSlotAt q n c =
    (d.slotAsked q c (d.slotAsked q c d 0) 64).setQueue q
      { d.queue q with fetch := .read n [(d.weave.nextTag, 0), (d.weave.nextTag + 1, 64)] 0 } := by
  rw [Dev.fetchSlotAt_memory hkind hmay hrange, Dev.slotReads_double _ (if_pos hsize)]
  rfl

end

/-! ### The commands that read a slot -/

section
variable {d : Dev} {q : Nat} {c : BitVec 6} (hcur : (d.queue q).cur = none) (hready : d.qReady q = true)
include hcur hready

theorem Dev.fetchSlot_first (hcourier : (d.queue q).courier = some c) (hfetch : (d.queue q).fetch = .idle) :
    d.fetchSlot q = d.fetchSlotAt q 0 c := by
  simp only [Dev.fetchSlot, hcourier, hcur, hfetch, hready, if_true]

variable {n t : Nat} (hdue : t ≤ d.tick) (hfetch : (d.queue q).fetch = .backoff n t)
include hdue hfetch

/-- A queue that holds a courier reads its slot again with it. -/
theorem Dev.slotRefetch_held (hcourier : (d.queue q).courier = some c) : d.slotRefetch q = d.fetchSlotAt q n c := by
  have hgo : (decide (d.tick < t) || !d.qReady q) = false := by simp [hready, hdue]
  simp only [Dev.slotRefetch, hcourier, hcur, hfetch, hgo, Bool.false_eq_true, if_false]

/-- One that has none gets one when it is next. -/
theorem Dev.slotRefetch_next (hcourier : (d.queue q).courier = none) (hnext : d.nextQueue (BitVec.ofNat 2 (d.qXdie q)) = some q)
    (hany : d.anyCourier (d.qXdie q) = some c) : d.slotRefetch q = (d.giveCourier q c).fetchSlotAt q n c := by
  have hgo : (decide (d.tick < t) || !d.qReady q) = false := by simp [hready, hdue]
  simp only [Dev.slotRefetch, hcourier, hcur, hfetch, hgo, hnext, hany, ne_eq, not_true, Bool.false_eq_true, if_false]

end

/-! ### What the bytes of a slot decide (R301) -/

section
variable {d : Dev} {q n : Nat}

theorem Dev.slotFail_again (hn : n < 8) : d.slotFail q n =
    d.setQueue q { d.queue q with courier := none, fetch := .backoff (n + 1) (d.tick + 2 ^ n) } := if_pos hn

theorem Dev.slotFail_last (hn : 8 ≤ n) : d.slotFail q n =
    (d.setQueue q { d.queue q with courier := none, fetch := .doorbell }).setFld Fld.QUEUE_STATUS_DOORBELL_EARLY q 1 :=
  if_neg (Nat.not_lt.2 hn)

/-- The bytes of a slot that were read as one number. -/
def Dev.slotOf (d : Dev) (q v : Nat) : List Byte := (List.range (d.slotBytes q)).map (fun i => BitVec.ofNat 8 (v / 256 ^ i))

/-- The descriptor that they spell, before it has its courier. -/
def Dev.slotDesc (d : Dev) (q v : Nat) : Desc := { id := d.opSeq, slot := d.fld Fld.SQ_HEAD_HEAD q, bytes := d.slotOf q v, courier := 0 }

variable {v : Nat}

theorem Dev.slotRead_fails (hbad : slotPasses (d.slotOf q v) (d.fld Fld.QUEUE_STATUS_EXPECT_PHASE q = 1) = false) :
    d.slotRead q n v = d.slotFail q n := by
  unfold Dev.slotOf at hbad
  simp only [Dev.slotRead, hbad, Bool.not_false, if_true]

/-- A slot that passes goes to a free courier of its direction and SQ_HEAD moves on (R298). -/
theorem Dev.slotRead_accepts (hpasses : slotPasses (d.slotOf q v) (d.fld Fld.QUEUE_STATUS_EXPECT_PHASE q = 1) = true) {out : Bool}
    (hout : d.descOutbound q (d.slotDesc q v) = some out) {c : BitVec 6}
    (hfree : (d.setQueue q { d.queue q with courier := none, fetch := .idle }).freeCourier (d.qXdie q) out = some c)
    (hnext : (d.fld Fld.SQ_HEAD_HEAD q + 1) % d.sqSize q ≠ 0) :
    d.slotRead q n v = ((d.setQueue q { d.queue q with courier := none, fetch := .idle }).newOp.2.setFld Fld.SQ_HEAD_HEAD q
      ((d.fld Fld.SQ_HEAD_HEAD q + 1) % d.sqSize q)).setQueue q
        { d.queue q with courier := none, fetch := .idle, cur := some { d.slotDesc q v with courier := c } } := by
  unfold Dev.slotDesc Dev.slotOf at hout
  unfold Dev.slotOf at hpasses
  simp only [Dev.slotRead, hpasses, Bool.not_true, Bool.false_eq_true, if_false, hout, hfree, hnext, Option.map_some, Option.getD_some,
    Dev.queue_setFld, Dev.queue_newOp, Dev.setQueue_queue_same, Dev.slotDesc, Dev.slotOf]

end

/-! ### The answer to a slot's read -/

/-- A queue waits for an answer under a tag to a read of its slot. -/
def CQueue.awaits (z : CQueue) (tag : Nat) : Bool := match z.fetch with | .read _ ts _ => ts.any (fun t => t.1 = tag) | _ => false

/-- No descriptor waits for an answer under a tag. -/
def Dev.unawaited (d : Dev) (tag : Nat) : Prop := ∀ p ∈ d.queues, (∀ o ∈ p.2.outs, o.tag ≠ tag) ∧
  ∀ y ∈ p.2.rest, y.phase ≠ .record (some tag) ∧ y.phase ≠ .flag (some tag)

section
variable {d : Dev} {q n k got tag : Nat} (hnone : d.unawaited tag)
  (hfind : d.queues.find? (fun p => p.2.awaits tag) = some (q, d.queue q)) (hfetch : (d.queue q).fetch = .read n [(tag, k)] got)
include hnone hfind hfetch

/-- The last answer to the reads of a slot, when it is whole, ends the attempt with what was read. -/
theorem Dev.courierReply_slot (c : BitVec 6) (r : Reply) (hlost : r.lost = false) : d.courierReply c tag r =
    if r.poison ≠ 0 then d.slotFail q n
    else d.slotRead q n (got + (List.range 4).foldl (fun (v : Nat) k => v ||| (Line.sector r.data k).toNat) 0 * 2 ^ (8 * k)) := by
  have houts : d.queues.find? (fun z => z.2.outs.any (fun o => o.tag = tag)) = none := by
    rw [List.find?_eq_none]
    intro p hp
    simpa using (hnone p hp).1
  have hrest : d.queues.find? (fun z => z.2.rest.any (fun y => y.phase = .record (some tag) || y.phase = .flag (some tag))) = none := by
    rw [List.find?_eq_none]
    intro p hp
    simpa using (hnone p hp).2
  unfold Dev.courierReply
  rw [houts]
  dsimp only
  rw [hrest]
  dsimp only
  split
  · next hno => exact absurd (hno.symm.trans hfind) (by simp)
  · next q' z hsome =>
    obtain ⟨rfl, rfl⟩ : q' = q ∧ z = d.queue q := by simpa using hsome.symm.trans hfind
    rw [hfetch]
    simp [hlost]

end

/-! ### The commands -/

theorem exec_queueSchedule_live {s : State} (hlive : s.dev.live = true) {x : XDie} {q : Nat} {c : BitVec 6}
    (hc : s.dev.freeCourier x.toNat false = some c ∨
      (s.dev.freeCourier x.toNat false = none ∧ s.dev.freeCourier x.toNat true = some c)) (hq : s.dev.nextQueue x = some q) :
    exec (.queueSchedule x) s = s.settling (s.dev.newOp.2.setQueue q
      { s.dev.queue q with courier := some c, served := s.dev.opSeq + 1 }) :=
  exec_run_live hlive (f := fun d => d.schedule x) rfl (Dev.schedule_gives hq hc)

/-- A DATA message for a courier, in the device in which it has arrived. -/
theorem exec_data_courier {s : State} (hlive : s.dev.live = true) {m : Msg} {c : BitVec 6} {e : Dev} (hkind : m.kind = .data)
    (harrives : s.dev.arrives m = true) (hagent : m.agent = .courier c)
    (he : (s.dev.takeMsg m).courierReply c m.tag { data := m.data, poison := m.poison } = e) : exec (.data m) s = s.settling e := by
  refine exec_run_live hlive (f := fun d => d.dataIn m) rfl ?_
  simp only [Dev.dataIn, hkind, harrives, ne_eq, not_true, decide_false, Bool.not_true, Bool.or_self, Bool.false_eq_true, if_false]
  rw [hagent]
  exact he

/-- Settles O37: the arbitration of two queues, the reads of a slot, and the end of an attempt by the bytes that it read. -/
theorem slotFetches : Obligations.SlotFetches := by
  unfold Obligations.SlotFetches
  refine ⟨?_, ?_, ?_⟩
  · intro s x c hlive d hc a b hwaits gets
    have next {q : Nat} (hq : (if d.before b a then b else a) = q) : exec (.queueSchedule x) s = gets q :=
      exec_queueSchedule_live hlive hc (hq ▸ Dev.nextQueue_pair hwaits)
    refine ⟨fun hprio => next (if_pos ?_), fun hprio => next (if_neg ?_), fun hprio hserved => next (if_pos ?_),
      fun hprio hserved => next (if_neg ?_)⟩
    · exact Dev.before_eq_true_iff.2 (.inl hprio)
    · rw [Dev.before_eq_true_iff]
      omega
    · exact Dev.before_eq_true_iff.2 (.inr ⟨hprio.symm, hserved⟩)
    · rw [Dev.before_eq_true_iff]
      omega
  · intro s q9 c d0 n cmd hlive d q base t sent hcur hready hcmd hkind hmay hrange
    have fetches : exec cmd s = s.settling (d0.fetchSlotAt q n c) := by
      obtain ⟨rfl, rfl, rfl, hcourier, hfetch⟩ | ⟨rfl, ⟨due, hdue, hfetch⟩, ⟨rfl, hcourier⟩ | ⟨hcourier, hnext, hany, rfl⟩⟩ := hcmd
      · exact exec_run_live hlive (f := fun d => d.fetchSlot q) rfl (Dev.fetchSlot_first hcur hready hcourier hfetch)
      · exact exec_run_live hlive (f := fun d => d.slotRefetch q) rfl (Dev.slotRefetch_held hcur hready hdue hfetch hcourier)
      · exact exec_run_live hlive (f := fun d => d.slotRefetch q) rfl
          (Dev.slotRefetch_next hcur hready hdue hfetch hcourier hnext hany)
    exact ⟨fun hsize => by rw [fetches, Dev.fetchSlotAt_single hkind hmay hrange n c hsize]; rfl,
      fun hsize => by rw [fetches, Dev.fetchSlotAt_double hkind hmay hrange n c hsize]; rfl⟩
  · intro s m q n k got c hlive hkind harrives hagent d z hnone hfind hfetch sec bytes passes
    have reply {e : Dev} (he : (if m.poison ≠ 0 then d.slotFail q n else d.slotRead q n (got + sec * 2 ^ (8 * k))) = e) :
        exec (.data m) s = s.settling e :=
      exec_data_courier hlive hkind harrives hagent
        ((Dev.courierReply_slot hnone hfind hfetch c { data := m.data, poison := m.poison } rfl).trans he)
    have fails (hbad : m.poison ≠ 0 ∨ passes = false) : exec (.data m) s = s.settling (d.slotFail q n) := by
      refine reply ?_
      split
      · rfl
      · next hclean => exact Dev.slotRead_fails (hbad.resolve_left hclean)
    refine ⟨fun hbad hn => ?_, fun hbad hn => ?_, fun hclean hpasses => ?_⟩
    · rw [fails hbad, Dev.slotFail_again hn]
    · rw [fails hbad, Dev.slotFail_last hn]
    · intro head y d2 c2 out hout hfree hnext
      exact reply ((if_neg (not_not.2 hclean)).trans (Dev.slotRead_accepts hpasses hout hfree hnext))

end Sys2Proof.Machine
end

section
/-! SUPPORT. What counting an access leaves alone: a count that reaches its threshold writes a HOT record to the wing's fault queue
or asks for its line (R288, R292), and none of this touches a queue of a courier or the wing that it is bound to. -/

namespace Sys2Proof.Machine

/-- The same queues, bound to the same wings. -/
def SameQueues (d e : Dev) : Prop := e.queues = d.queues ∧ ∀ q, e.fld Fld.QUEUE_BIND_WING q = d.fld Fld.QUEUE_BIND_WING q

theorem SameQueues.refl (d : Dev) : SameQueues d d := ⟨rfl, fun _ => rfl⟩

section
variable {d e : Dev} (h : SameQueues d e)
include h

theorem SameQueues.queue (q : Nat) : e.queue q = d.queue q := by
  unfold Dev.queue
  rw [h.1]

theorem SameQueues.qWing (q : Nat) : e.qWing q = d.qWing q := h.2 q

/-- A change of anything but queues and registers. -/
theorem SameQueues.of_same {f : Dev} (hq : f.queues = e.queues) (hr : f.regs = e.regs) : SameQueues d f :=
  ⟨hq.trans h.1, fun q => (Dev.fld_congr hr _ _).trans (h.2 q)⟩

theorem SameQueues.setFld {f : Field} (hf : Fld.QUEUE_BIND_WING.id ≠ f.id) (n v : Nat) : SameQueues d (e.setFld f n v) :=
  ⟨h.1, fun q => (Dev.fld_setFld_ne _ _ _ _ _ _ hf).trans (h.2 q)⟩

theorem SameQueues.withTrans (t : Trans) : SameQueues d { e with trans := t } := h.of_same rfl rfl

theorem SameQueues.setLoom (n : LoomId) (l : Loom) : SameQueues d (e.setLoom n l) := h.of_same rfl rfl

theorem SameQueues.inject (a : Nat) : SameQueues d (e.inject a) := by
  have hat (p : Phys) (a : Option Nat) : SameQueues d (e.injectAt p a).2 := by
    unfold Dev.injectAt
    split
    · exact h
    · have harmed := (h.setFld (f := Fld.MEMINJ_FLIP_ARMED) (by decide) 0 0).setFld (f := Fld.MEMINJ_FLIP_DONE) (by decide) 0 1
      dsimp only
      split
      · exact harmed.of_same rfl rfl
      · exact harmed.of_same rfl rfl
  unfold Dev.inject
  split
  · exact h
  · exact (hat _ _).of_same rfl rfl

end

theorem homeKeeps_sameQueues (d : Dev) : HomeKeeps (SameQueues d) where
  write a s p h := by
    unfold Dev.dramWrite
    split
    · exact h.of_same rfl rfl
    · dsimp only
      refine SameQueues.inject ?_ a
      exact h.of_same rfl rfl
  event k a b c s t h := h.of_same rfl rfl
  draw h := h.of_same rfl rfl
  heat a h := h.of_same rfl rfl
  way k l h := h.of_same rfl rfl

section
variable {d e : Dev} (h : SameQueues d e)
include h

theorem SameQueues.dropCopies (line k : Nat) : SameQueues d (e.dropCopies line k) := by
  unfold Dev.dropCopies
  dsimp only
  split
  · exact h
  · have hlooms (ids : List Nat) : SameQueues d (ids.foldl (fun (d : Dev) id => d.setLoom (BitVec.ofNat 12 id)
        ((d.loom (BitVec.ofNat 12 id)).dropSector (BitVec.ofNat 40 line) k)) e) :=
      foldl_keeps (SameQueues d) (fun _ _ he => SameQueues.setLoom he _ _) ids e h
    exact (hlooms _).of_same rfl rfl

theorem SameQueues.writeNow (line : Nat) (mask : BitVec 256) (data : Line) (poison : BitVec 4) (hint : Bool) :
    SameQueues d (e.writeNow line mask data poison hint) :=
  (homeKeeps_sameQueues d).writeLine (foldl_keeps (SameQueues d) (fun _ k he => he.dropCopies line k) _ e h) _ _ _ _ _

theorem SameQueues.driveInta (g : HeadId) : SameQueues d (e.driveInta g) := by
  unfold Dev.driveInta
  dsimp only
  split
  · exact h
  · exact h.of_same rfl rfl

theorem SameQueues.interrupt (g : HeadId) (v : Nat) : SameQueues d (e.interrupt g v) := by
  unfold Dev.interrupt
  dsimp only
  split
  · exact h
  · split
    · split
      · exact h.of_same rfl rfl
      · exact h.of_same rfl rfl
    · split
      · split
        · exact h.of_same rfl rfl
        · exact h.of_same rfl rfl
      · split
        · exact (h.setFld (f := Fld.HEAD_INT_PENDING_PEND) (by decide) _ _).driveInta g
        · exact h

theorem SameQueues.fqWrite (r : FRec) (res : Bool) : SameQueues d (e.fqWrite r res) := by
  have hslot (line : Nat) (mask : BitVec 256) (data : Line) (n v : Nat) :
      SameQueues d ((e.writeNow line mask data 0 false).setFld Fld.FQ_PROD_PROD n v) :=
    (h.writeNow line mask data 0 false).setFld (by decide) n v
  unfold Dev.fqWrite
  dsimp only
  split
  · exact (hslot _ _ _ _ _).interrupt _ _
  · exact hslot _ _ _ _ _

theorem SameQueues.ask (w : Work) (line : Nat) (sects : BitVec 4) (write : Bool) : SameQueues d (e.ask w line sects write) := by
  unfold Dev.ask
  split
  · exact h
  · exact h.of_same rfl rfl

theorem SameQueues.fqNote (r : FRec) : SameQueues d (e.fqNote r) := by
  unfold Dev.fqNote
  dsimp only
  split
  · exact h.setFld (by decide) _ _
  · split
    · exact h.fqWrite r false
    · unfold Dev.fqAsk Dev.askWrite
      exact (h.withTrans _).ask _ _ _ _

theorem SameQueues.countAccess (die w : Nat) (t : Tlb) (va lines : Nat) : SameQueues d (e.countAccess die w t va lines) := by
  unfold Dev.countAccess
  split
  · exact h
  · extract_lets region key mine cap counts n threshold
    split
    · exact (h.withTrans _).fqNote _
    · exact h.withTrans _

theorem SameQueues.countCourier (q a off : Nat) : SameQueues d (e.countCourier q a off) := by
  unfold Dev.countCourier
  dsimp only
  split
  · exact h
  · split
    · exact h.countAccess _ _ _ _ _
    · exact h

end

end Sys2Proof.Machine
end

section
/-! SUPPORT. One step of a descriptor that moves data in this package: the check when it begins, the read of the next chunk of its
source, and the write of the last chunk of its destination (R296, R304, R305, Table 12-3). -/

namespace Sys2Proof.Machine

/-! ### The check, and the courier of the right direction (R298, R305) -/

/-- A descriptor that the check refuses: it ends INVALID and has moved nothing. -/
def Desc.refused (x : Desc) : Desc := { (x.endWith 1) with stopAt := some 0, begun := true }

theorem Dev.beginDesc_begun {d : Dev} {x : Desc} (hbegun : x.begun = true) (q : Nat) : d.beginDesc q x = d := if_pos hbegun

section
variable {d : Dev} {q : Nat} {x : Desc} (hcur : (d.queue q).cur = some x) (hbegun : x.begun = false)
include hcur hbegun

theorem Dev.beginDesc_ok (hok : (d.descOk (d.qWing q) x && d.placesOk q x) = true) :
    d.beginDesc q x = d.setQueue q { d.queue q with cur := some { x with begun := true } } := by
  simp only [Dev.beginDesc, hbegun, hok, hcur, Option.map_some, Bool.false_eq_true, if_false, if_true]

theorem Dev.beginDesc_invalid (hbad : (d.descOk (d.qWing q) x && d.placesOk q x) = false) :
    d.beginDesc q x = d.setQueue q { d.queue q with cur := some x.refused } := by
  simp only [Dev.beginDesc, Desc.refused, hbegun, hbad, hcur, Option.map_some, Bool.false_eq_true, if_false]

end

/-- A descriptor that has moved something, or whose courier has its direction, stays with its courier. -/
theorem Dev.direct_same {d : Dev} {q : Nat} {x : Desc} (h : x.pos ≠ 0 ∨ d.descOutbound q x = some (outbound x.courier))
    (f : Dev → Desc → Dev) : d.direct q x f = f d x := by
  unfold Dev.direct
  split
  · rfl
  next hpos =>
    rw [h.resolve_left hpos]
    exact if_pos rfl

/-- A NOP needs an inbound courier, as it writes nothing. -/
theorem Dev.direct_nop {d : Dev} {q : Nat} {x : Desc} (hop : x.op = 0) (h : x.pos ≠ 0 ∨ outbound x.courier = false)
    (f : Dev → Desc → Dev) : d.direct q x f = f d x :=
  Dev.direct_same (h.imp_right fun hin => by simp [Dev.descOutbound, hop, hin]) f

/-! ### A step of the descriptor in progress -/

section
variable {d : Dev} {q : Nat} {y : Desc}

/-- A queue whose descriptor in progress has issued everything loses it. -/
theorem Dev.descIssued_setQueue {z : CQueue} (hcur : z.cur = some y)
    (houts : ∀ o ∈ z.outs, o.own = y.id → o.read = false ∧ o.clear = false)
    (hdone : y.phase = .issued ∨ y.phase = .run ∧ y.begun = true ∧ (1 ≤ y.op ∧ y.op ≤ 5) ∧ y.len ≤ y.pos) :
    (d.setQueue q z).descIssued q = d.setQueue q { z with cur := none, rest := z.rest ++ [{ y with phase := .issued }] } := by
  have hqueue := Dev.setQueue_queue_same d q z
  rw [Dev.descIssued_leaves (by rw [hqueue, hcur]) (by rw [hqueue]; exact houts) hdone, hqueue, Dev.setQueue_setQueue]

theorem Dev.stepNop_replaced (x : Desc) : (d.setQueue q { d.queue q with cur := some y }).stepNop q x =
    d.setQueue q { d.queue q with cur := some { y with phase := .issued } } := by
  unfold Dev.stepNop
  simp only [Dev.setQueue_queue_same, Dev.setQueue_setQueue, Option.map_some]

end

section
variable {s : State} {q op : Nat} {x : Desc} (hruns : s.Runs q op x) (f : Dev → Desc → Dev)
include hruns

/-- The check gives the device e, in which descriptor y is in progress. -/
theorem State.Runs.courierStep {e : Dev} (he : s.dev.beginDesc q x = e) {y : Desc} (hy : (e.queue q).cur = some y) :
    s.dev.courierStep q op f = Dev.descIssued (if y.phase ≠ .run then e
      else if y.abort && y.pos % 4096 = 0 then
        (if (e.queue q).outs.any (fun o => o.own = y.id && o.read) then e else e.endDesc q 7)
      else if 1 ≤ op && op ≤ 5 && y.pos ≥ y.len then e
      else e.direct q y f) q := by
  obtain ⟨-, hcur, hop, hstalled, hphase, -, hfence, hfull⟩ := hruns
  have hfences : (x.fence && !(s.dev.queue q).fenced x) = false := by
    cases hx : x.fence with
    | false => rfl
    | true => simp [hfence hx]
  have hgo : (decide (x.op ≠ op) || x.stalled || decide (x.phase ≠ .run) ||
      decide (s.dev.fld Fld.QUEUE_STATUS_CQ_FULL q = 1)) = false := by
    simp [hop, hstalled, hphase, hfull]
  unfold Dev.courierStep
  rw [hcur]
  dsimp only
  rw [hgo, hfences, he, hy]
  rfl

/-- One that breaks a rule ends INVALID and has moved nothing. -/
theorem State.Runs.courierStep_invalid (hbegun : x.begun = false)
    (hbad : (s.dev.descOk (s.dev.qWing q) x && s.dev.placesOk q x) = false)
    (houts : ∀ o ∈ (s.dev.queue q).outs, o.own = x.id → o.read = false ∧ o.clear = false) :
    s.dev.courierStep q op f = s.dev.setQueue q { s.dev.queue q with
      cur := none, rest := (s.dev.queue q).rest ++ [x.refused] } := by
  obtain ⟨-, hcur, -⟩ := id hruns
  have hphase : x.refused.phase ≠ .run := by simp [Desc.refused, Desc.endWith]
  rw [hruns.courierStep f (Dev.beginDesc_invalid hcur hbegun hbad) (congrArg CQueue.cur (Dev.setQueue_queue_same _ _ _)),
    if_pos hphase]
  exact Dev.descIssued_setQueue (y := x.refused) rfl houts (.inl rfl)

end

/-- A descriptor under way takes its operation's step. -/
theorem State.Performs.courierStep {s : State} {q op : Nat} {x : Desc} (h : s.Performs q op x) (f : Dev → Desc → Dev) :
    s.dev.courierStep q op f = (f s.dev x).descIssued q := by
  obtain ⟨hruns, hbegun, hpos, hdirection⟩ := h
  obtain ⟨-, hcur, -, -, hphase, habort, -, -⟩ := id hruns
  have hpart : (decide (1 ≤ op) && decide (op ≤ 5) && decide (x.pos ≥ x.len)) = false := by
    by_cases hmoves : 1 ≤ op ∧ op ≤ 5
    · simp [hmoves, hpos hmoves]
    · rw [← Bool.decide_and, decide_eq_false hmoves, Bool.false_and]
  rw [hruns.courierStep f (Dev.beginDesc_begun hbegun q) hcur, if_neg (by simp [hphase]), if_neg (by simp [habort]), hpart,
    if_neg Bool.false_ne_true, Dev.direct_same hdirection]

/-- NOP moves nothing and is issued at once. -/
theorem State.Runs.courierStep_nop {s : State} {q : Nat} {x : Desc} (hruns : s.Runs q 0 x) (hbegun : x.begun = false)
    (hok : s.dev.descOk (s.dev.qWing q) x = true) (hdirection : x.pos ≠ 0 ∨ outbound x.courier = false)
    (houts : ∀ o ∈ (s.dev.queue q).outs, o.own = x.id → o.read = false ∧ o.clear = false) :
    s.dev.courierStep q 0 (fun d => d.stepNop q) = s.dev.setQueue q { s.dev.queue q with
      cur := none, rest := (s.dev.queue q).rest ++ [{ x with begun := true, phase := .issued }] } := by
  obtain ⟨-, hcur, hop, -, hphase, habort, -, -⟩ := id hruns
  have hplaces : s.dev.placesOk q x = true := by simp only [Dev.placesOk, hop]
  rw [hruns.courierStep _ (Dev.beginDesc_ok hcur hbegun (by rw [hok, hplaces]; rfl))
      (congrArg CQueue.cur (Dev.setQueue_queue_same _ _ _)),
    if_neg (not_not.2 hphase), if_neg (by simp [habort]), if_neg (by simp),
    Dev.direct_nop (x := { x with begun := true }) hop hdirection, Dev.stepNop_replaced]
  exact Dev.descIssued_setQueue (y := { x with begun := true, phase := .issued }) rfl houts (.inl rfl)

/-! ### What a courier keeps of a read or write -/

theorem Dev.addOut_setQueue (d : Dev) (q : Nat) (z : CQueue) (o : COut) :
    (d.setQueue q z).addOut q o = d.setQueue q { z with outs := z.outs ++ [o] } := by
  unfold Dev.addOut
  rw [Dev.setQueue_setQueue, Dev.setQueue_queue_same]

/-- A read of device memory is sent under the next tag and kept with it. -/
theorem Dev.courierRead_device (d : Dev) (q : Nat) (z : CQueue) (o : COut) : (d.setQueue q z).courierRead q o .device =
    (d.newTag.2.sendReq { kind := .readOnce, src := .courier o.courier, tag := d.weave.nextTag, line := BitVec.ofNat 40 (o.src / 256),
                          sects := runSects (o.src % 256) o.len, wing := BitVec.ofNat 4 (d.qWing q) }).setQueue q
      { z with outs := z.outs ++ [{ o with tag := d.weave.nextTag, read := true }] } :=
  Dev.addOut_setQueue (d.newTag.2.sendReq _) q z _

/-- So is a write of its bytes. -/
theorem Dev.courierWrite_device (d : Dev) (q : Nat) (c : BitVec 6) {o : COut} (hpath : o.path = .device)
    (hnew : (o.read || o.clear) = false) (data : Line) : d.courierWrite q c o data 0 =
      (d.newTag.2.sendReq { kind := if o.reduce then .reduceWrite else .write, src := .courier c, tag := d.weave.nextTag,
                            line := BitVec.ofNat 40 (o.dst / 256), sects := runSects (o.dst % 256) o.len, data := data,
                            mask := runMask (o.dst % 256) o.len, wing := BitVec.ofNat 4 (d.qWing q), place := o.place }).setQueue q
        { d.queue q with outs := (d.queue q).outs ++
          [{ o with tag := d.weave.nextTag, read := false, ready := false, data := 0, poison := 0, st := 0, courier := c }] } := by
  unfold Dev.courierWrite
  dsimp only
  rw [hnew]
  simp only [Bool.false_eq_true, if_false, hpath]
  rfl

/-! ### The next chunk of a source in this package (R296) -/

/-- Bytes of the chunk that COPY and REDUCE_FORWARD take next: up to the ends of the lines at both places. -/
def Desc.copyChunk (x : Desc) (src dst : Nat) : Nat :=
  min (min (x.len - x.pos) (if x.op = 5 then 64 else x.len)) (min (256 - src % 256) (256 - dst % 256))

/-- The read of that chunk as its courier keeps it, under a tag. -/
def Desc.copyOut (x : Desc) (tag src dst : Nat) (red : Bool) : COut :=
  { tag := tag, own := x.id, off := x.pos, len := x.copyChunk src dst, read := true, path := .device, src := src, dst := dst,
    clear := decide (x.op = 5) && (x.num 28 1).testBit 0, reduce := red, place := BitVec.ofNat 14 x.place, courier := x.courier }

/-- Its request. -/
def Desc.copyReq (x : Desc) (tag src dst w : Nat) : Req :=
  { kind := .readOnce, src := .courier x.courier, tag := tag, line := BitVec.ofNat 40 (src / 256),
    sects := runSects (src % 256) (x.copyChunk src dst), wing := BitVec.ofNat 4 w }

/-- The device after both addresses of the chunk have been counted (R292). -/
def Dev.copyCounted (d : Dev) (q : Nat) (x : Desc) : Dev := (d.countCourier q (x.num 8 8) x.pos).countCourier q (x.num 16 8) x.pos

theorem Dev.copyCounted_sameQueues (d : Dev) (q : Nat) (x : Desc) : SameQueues d (d.copyCounted q x) :=
  ((SameQueues.refl d).countCourier q (x.num 8 8) x.pos).countCourier q (x.num 16 8) x.pos

section
variable {d : Dev} {q : Nat} {x : Desc} {src dst : Nat} {al red : Bool}

/-- The device after the read of the chunk has been sent. -/
def Dev.copySent (d : Dev) (q : Nat) (x : Desc) (src dst : Nat) (red : Bool) : Dev :=
  let e := d.copyCounted q x
  (e.newTag.2.sendReq (x.copyReq e.weave.nextTag src dst (d.qWing q))).setQueue q { d.queue q with
    outs := (d.queue q).outs ++ [x.copyOut e.weave.nextTag src dst red], cur := some { x with pos := x.pos + x.copyChunk src dst } }

theorem Dev.stepCopy_sends (hcur : (d.queue q).cur = some x) (habort : x.abort = false) (hcount : d.courierCount x.courier true < 128)
    (hsrc : d.Lands q x (x.num 8 8) false src al) (hdst : d.Lands q x (x.num 16 8) true dst red)
    (hforward : x.op = 5 → red = true ∧ d.populated src = true) : d.stepCopy q x = d.copySent q x src dst red := by
  have hsame := d.copyCounted_sameQueues q x
  have hbad : (decide (x.op = 5) && (!(red || false) || decide (CPath.device ≠ CPath.device) || !d.populated src)) = false := by
    by_cases hop : x.op = 5
    · simp [hforward hop]
    · simp [hop]
  have hmoved : (d.copyCounted q x).descMove q (x.copyChunk src dst) = (d.copyCounted q x).setQueue q
      { d.queue q with cur := some { x with pos := x.pos + x.copyChunk src dst } } := by
    simp only [Dev.descMove, hsame.queue, hcur, Option.map_some]
  have hroom : x.room = x.len - x.pos := by simp [Desc.room, habort]
  unfold Dev.Lands at hsrc hdst
  have hsends : d.stepCopy q x = ((d.copyCounted q x).descMove q (x.copyChunk src dst)).courierRead q
      (x.copyOut 0 src dst red) .device := by
    unfold Dev.stepCopy
    dsimp only
    rw [if_neg (Nat.not_le.2 hcount), hsrc]
    dsimp only
    rw [hdst]
    dsimp only
    rw [if_neg (by rw [hbad]; exact Bool.false_ne_true), hroom]
    rfl
  rw [hsends, hmoved, Dev.courierRead_device, hsame.qWing]
  rfl

end

/-! ### The last chunk of a destination in this package (Table 12-3) -/

/-- The write of n bytes at place t as its courier keeps it, under a tag. -/
def Desc.writeOut (x : Desc) (tag t n : Nat) (red : Bool) : COut :=
  { tag := tag, own := x.id, off := x.pos, len := n, read := false, path := .device, dst := t, reduce := red,
    place := BitVec.ofNat 14 x.place, courier := x.courier }

/-- Its request. -/
def Desc.writeReq (x : Desc) (tag t n w : Nat) (red : Bool) (v : Line) : Req :=
  { kind := if red then .reduceWrite else .write, src := .courier x.courier, tag := tag, line := BitVec.ofNat 40 (t / 256),
    sects := runSects (t % 256) n, data := v, mask := runMask (t % 256) n, wing := BitVec.ofNat 4 w, place := BitVec.ofNat 14 x.place }

/-- The device after its address has been counted (R292). -/
def Dev.writeCounted (d : Dev) (q : Nat) (x : Desc) : Dev := d.countCourier q (x.num 8 8) x.pos

/-- And after the write has been sent. -/
def Dev.writeSent (d : Dev) (q : Nat) (x : Desc) (t n : Nat) (red : Bool) (v : Line) : Dev :=
  (d.writeCounted q x).newTag.2.sendReq (x.writeReq (d.writeCounted q x).weave.nextTag t n (d.qWing q) red v)

section
variable {d : Dev} {q : Nat} {x : Desc} {t n : Nat} {red : Bool}

theorem Dev.stepWrite_sends (hcur : (d.queue q).cur = some x) (habort : x.abort = false) (hcount : d.courierCount x.courier false < 128)
    (hdst : x.dst = x.num 8 8) (hland : d.Lands q x (x.num 8 8) true t red) (hlast : x.len - x.pos = n) (hline : n ≤ 256 - t % 256) :
    d.stepWrite q x = (d.writeSent q x t n red (if x.op = 3 then x.fillAt t n else x.inlineLine t n)).setQueue q { d.queue q with
      outs := (d.queue q).outs ++ [x.writeOut (d.writeCounted q x).weave.nextTag t n red], cur := some { x with pos := x.pos + n } } := by
  have hsame : SameQueues d (d.writeCounted q x) := (SameQueues.refl d).countCourier q (x.num 8 8) x.pos
  have hchunk : min x.room (256 - t % 256) = n := by simp [Desc.room, habort, hlast, hline]
  have hfree : ¬ ((decide (x.op = 4) && d.flagHeld x.courier .device) = true) := by simp [Dev.flagHeld]
  have hsends : d.stepWrite q x = ((d.writeCounted q x).courierWrite q x.courier
      { x.writeOut 0 t n red with courier := 0 } (if x.op = 3 then x.fillAt t n else x.inlineLine t n) 0).descMove q n := by
    unfold Dev.Lands at hland
    unfold Dev.stepWrite
    rw [if_neg (Nat.not_le.2 hcount), hdst, hland]
    dsimp only [chunkAt]
    rw [if_neg hfree, hchunk]
    rfl
  rw [hsends, Dev.courierWrite_device _ _ _ rfl rfl, hsame.queue, hsame.qWing]
  unfold Dev.descMove
  simp only [Dev.setQueue_setQueue, Dev.setQueue_queue_same, hcur, Option.map_some]
  rfl

end

/-! ### Descriptors that move data (R296, R304, R305) -/

section
variable {s : State} {q : Nat} {x : Desc}

/-- COPY and REDUCE_FORWARD keep the read of their next chunk outstanding. -/
theorem State.Performs.courierStep_copy {op : Nat} (h : s.Performs q op x) {src dst : Nat} {al red : Bool}
    (hcount : s.dev.courierCount x.courier true < 128) (hsrc : s.dev.Lands q x (x.num 8 8) false src al)
    (hdst : s.dev.Lands q x (x.num 16 8) true dst red) (hforward : x.op = 5 → red = true ∧ s.dev.populated src = true) :
    s.dev.courierStep q op (fun d => d.stepCopy q) = s.dev.copySent q x src dst red := by
  obtain ⟨⟨-, hcur, -, -, -, habort, -, -⟩, -, -, -⟩ := id h
  rw [h.courierStep, Dev.stepCopy_sends hcur habort hcount hsrc hdst hforward]
  have hqueue : (s.dev.copySent q x src dst red).queue q = _ := Dev.setQueue_queue_same _ _ _
  refine Dev.descIssued_reading (o := x.copyOut (s.dev.copyCounted q x).weave.nextTag src dst red)
    (congrArg CQueue.cur hqueue) ?_ rfl rfl
  rw [hqueue]
  exact List.mem_append_right _ (List.mem_singleton_self _)

/-- WRITE_INLINE, FILL and FLAG_WRITE are issued with their last bytes. -/
theorem State.Performs.courierStep_write {op : Nat} (h : s.Performs q op x) (hmoves : 2 ≤ op ∧ op ≤ 4) {t n : Nat} {red : Bool}
    (hcount : s.dev.courierCount x.courier false < 128) (hland : s.dev.Lands q x (x.num 8 8) true t red)
    (hlast : x.len - x.pos = n) (hline : n ≤ 256 - t % 256)
    (houts : ∀ o ∈ (s.dev.queue q).outs, o.own = x.id → o.read = false ∧ o.clear = false) :
    s.dev.courierStep q op (fun d => d.stepWrite q) =
      (s.dev.writeSent q x t n red (if x.op = 3 then x.fillAt t n else x.inlineLine t n)).setQueue q { s.dev.queue q with
        outs := (s.dev.queue q).outs ++ [x.writeOut (s.dev.writeCounted q x).weave.nextTag t n red], cur := none,
        rest := (s.dev.queue q).rest ++ [{ x with pos := x.pos + n, phase := .issued }] } := by
  obtain ⟨⟨-, hcur, hop, -, hphase, habort, -, -⟩, hbegun, -, -⟩ := id h
  have hrange : 1 ≤ x.op ∧ x.op ≤ 5 := by omega
  have hfirst : ¬ ((decide (x.op = 1) || decide (x.op = 5)) = true) := by
    simp only [Bool.or_eq_true, decide_eq_true_eq]
    omega
  have hdst : x.dst = x.num 8 8 := if_neg hfirst
  rw [h.courierStep, Dev.stepWrite_sends hcur habort hcount hdst hland hlast hline]
  have hnew : ∀ o ∈ (s.dev.queue q).outs ++ [x.writeOut (s.dev.writeCounted q x).weave.nextTag t n red], o.own = x.id →
      o.read = false ∧ o.clear = false := by
    intro o ho
    rcases List.mem_append.1 ho with hold | hnew
    · exact houts o hold
    · intro _
      rw [List.mem_singleton.1 hnew]
      exact ⟨rfl, rfl⟩
  have hall : x.len ≤ x.pos + n := by omega
  exact Dev.descIssued_setQueue (y := { x with pos := x.pos + n }) rfl hnew (.inr ⟨hphase, hbegun, hrange, hall⟩)

end

/-- The bytes of a write by operation (Table 12-3). -/
theorem Desc.writeData_inline {x : Desc} (hop : x.op = 2) (t n : Nat) :
    (if x.op = 3 then x.fillAt t n else x.inlineLine t n) = placeLine (x.num (24 + x.pos) n) (t % 256) := by
  simp [hop, Desc.inlineLine]

theorem Desc.writeData_fill {x : Desc} (hop : x.op = 3) (t n : Nat) :
    (if x.op = 3 then x.fillAt t n else x.inlineLine t n) = BitVec.ofNat 2048 ((List.range n).foldl (fun (v : Nat) i =>
      v + (x.num 16 8 / 256 ^ ((x.num 8 8 + x.pos + i) % 8) % 256) * 2 ^ (8 * (t % 256 + i))) 0) := by
  simp [hop, Desc.fillAt, Desc.dst]

theorem Desc.writeData_flag {x : Desc} (hop : x.op = 4) (t n : Nat) :
    (if x.op = 3 then x.fillAt t n else x.inlineLine t n) = placeLine (x.num 16 8) (t % 256) := by
  simp [hop, Desc.inlineLine]

/-- The commands that perform a descriptor, each with its operation. -/
def courierCommands (q : BitVec 9) : List (Instr × Nat) :=
  [(.courierNop q, 0), (.copy q, 1), (.writeInline q, 2), (.fill q, 3), (.flagWrite q, 4), (.reduceForward q, 5), (.launch q, 6),
   (.runRegion q, 7)]

/-- Each takes one step of the descriptor in progress. -/
theorem exec_courierCommands (q : BitVec 9) (s : State) : ∀ p ∈ courierCommands q, ∃ f : Dev → Desc → Dev,
    exec p.1 s = s.run fun d => d.courierStep q.toNat p.2 f := by
  simp only [courierCommands, List.forall_mem_cons]
  exact ⟨⟨_, rfl⟩, ⟨_, rfl⟩, ⟨_, rfl⟩, ⟨_, rfl⟩, ⟨_, rfl⟩, ⟨_, rfl⟩, ⟨_, rfl⟩, ⟨_, rfl⟩, List.forall_mem_nil _⟩

/-- Settles O38: every clause is one step of the descriptor in progress, which either keeps its read outstanding or leaves. -/
theorem dataDescriptors : Obligations.DataDescriptors := by
  unfold Obligations.DataDescriptors
  intro s q9 x d q z wing houts
  refine ⟨fun p hp hruns hbegun hbad => ?invalid, fun hruns hbegun hok hdirection => ?nop, ?reads, ?writes⟩
  case invalid =>
    obtain ⟨f, hstep⟩ := exec_courierCommands q9 s p hp
    exact exec_run_live hruns.1 hstep (hruns.courierStep_invalid f hbegun hbad houts)
  case nop =>
    exact exec_run_live (f := fun d => d.courierStep q 0 (fun d => d.stepNop q)) hruns.1 rfl
      (hruns.courierStep_nop hbegun hok hdirection houts)
  case reads =>
    intro src dst al red hcount hsrc hdst n e o r reads
    refine ⟨fun h => ?copy, fun h hred hpopulated => ?forward⟩
    case copy =>
      obtain ⟨⟨hlive, -, hop, -⟩, -⟩ := id h
      have hforward : x.op = 5 → red = true ∧ d.populated src = true := by simp [hop]
      exact exec_run_live (f := fun d => d.courierStep q 1 (fun d => d.stepCopy q)) hlive rfl
        (h.courierStep_copy hcount hsrc hdst hforward)
    case forward =>
      obtain ⟨⟨hlive, -⟩, -⟩ := id h
      exact exec_run_live (f := fun d => d.courierStep q 5 (fun d => d.stepCopy q)) hlive rfl
        (h.courierStep_copy hcount hsrc hdst fun _ => ⟨hred, hpopulated⟩)
  case writes =>
    intro t red hcount hland n e o k r writes hline
    have hwrites {op : Nat} (hmoves : 2 ≤ op ∧ op ≤ 4) (h : s.Performs q op x) {v : Line}
        (hv : (if x.op = 3 then x.fillAt t n else x.inlineLine t n) = v) {i : Instr}
        (hi : exec i s = s.run fun d => d.courierStep q op (fun d => d.stepWrite q)) : exec i s = writes v := by
      obtain ⟨⟨hlive, -⟩, -⟩ := id h
      subst hv
      exact exec_run_live hlive hi (h.courierStep_write hmoves hcount hland rfl hline houts)
    refine ⟨fun h => ?inline, fun h => ?fill, fun h => ?flag⟩ <;> obtain ⟨⟨-, -, hop, -⟩, -⟩ := id h
    case inline => exact hwrites (by decide) h (Desc.writeData_inline hop t n) rfl
    case fill => exact hwrites (by decide) h (Desc.writeData_fill hop t n) rfl
    case flag => exact hwrites (by decide) h (Desc.writeData_flag hop t n) rfl

end Sys2Proof.Machine
end

section
/-! SUPPORT. The machine as a whole: a step runs the front command, every command answers a next state, and without the fast logic
its commands do nothing (R20, R434). -/

namespace Sys2Proof.Machine

/-- Settles O1: a step on a queue that is not empty is its front command. -/
theorem stepRunsFrontCommand : Obligations.StepRunsFrontCommand := by
  unfold Obligations.StepRunsFrontCommand
  intro s c rest
  rfl

/-- Settles O3: a command is a change of the device, whichever logic it belongs to. -/
theorem everyCommandGoes : Obligations.EveryCommandGoes := by
  unfold Obligations.EveryCommandGoes
  intro c s
  obtain ⟨f, hf⟩ := exec_wrapped c s
  rw [hf]
  split
  · exact ⟨_, rfl, rfl⟩
  · exact ⟨_, rfl, rfl⟩

/-- Settles O56: a command of the fast logic asks first whether that logic runs. -/
theorem fastLogicAsleep : Obligations.FastLogicAsleep := by
  unfold Obligations.FastLogicAsleep
  intro c s hasleep hfast
  obtain ⟨f, hf⟩ := exec_wrapped c s
  have hkeeps : (if s.dev.live then (f s.dev).show else s.dev) = s.dev := if_neg (by simp [hasleep])
  rw [hf, hfast, if_neg Bool.false_ne_true]
  exact congrArg (fun d => Host.Outcome.next { s with dev := d }) hkeeps

end Sys2Proof.Machine
end

section
/-! SUPPORT. The register operations of the treadle (R83, R84, R88, Table 4-4). -/

namespace Sys2Proof.Machine

/-! The results that the model computes on bits or on naturals, as the table states them. -/

theorem alu_slt (x y : W64) : alu .slt x y = if x.toInt < y.toInt then 1 else 0 := by simp [alu]

theorem alu_sltu (x y : W64) : alu .sltu x y = if x.toNat < y.toNat then 1 else 0 := by simp [alu]

theorem alu_min (x y : W64) : alu .min x y = BitVec.ofInt 64 (min x.toInt y.toInt) := by
  unfold alu
  rw [min_def, apply_ite (BitVec.ofInt 64), BitVec.ofInt_toInt, BitVec.ofInt_toInt]

theorem alu_max (x y : W64) : alu .max x y = BitVec.ofInt 64 (max x.toInt y.toInt) := by
  unfold alu
  rw [max_def, apply_ite (BitVec.ofInt 64), BitVec.ofInt_toInt, BitVec.ofInt_toInt]

theorem alu_minu (x y : W64) : alu .minu x y = BitVec.ofNat 64 (min x.toNat y.toNat) := by
  unfold alu
  rw [min_def, apply_ite (BitVec.ofNat 64), BitVec.ofNat_toNat, BitVec.ofNat_toNat, BitVec.setWidth_eq, BitVec.setWidth_eq]

theorem alu_maxu (x y : W64) : alu .maxu x y = BitVec.ofNat 64 (max x.toNat y.toNat) := by
  unfold alu
  rw [max_def, apply_ite (BitVec.ofNat 64), BitVec.ofNat_toNat, BitVec.ofNat_toNat, BitVec.setWidth_eq, BitVec.setWidth_eq]

theorem alu_mul (x y : W64) : alu .mul x y = BitVec.ofInt 64 (x.toInt * y.toInt) := by
  unfold alu
  rw [BitVec.ofInt_mul, BitVec.ofInt_toInt, BitVec.ofInt_toInt]

theorem alu_div (x y : W64) : alu .div x y = if y = 0 then BitVec.allOnes 64 else x.sdiv y := by
  have hdiv : BitVec.ofInt 64 (x.toInt.tdiv y.toInt) = x.sdiv y :=
    BitVec.eq_of_toInt_eq ((BitVec.toInt_ofInt ..).trans (BitVec.toInt_sdiv x y).symm)
  unfold alu
  rw [hdiv]

theorem alu_divu (x y : W64) : alu .divu x y = if y = 0 then BitVec.allOnes 64 else x / y := by
  unfold alu
  rw [← BitVec.toNat_udiv, BitVec.ofNat_toNat, BitVec.setWidth_eq]

theorem alu_rem (x y : W64) : alu .rem x y = if y = 0 then x else x.srem y := by
  unfold alu
  rw [← BitVec.toInt_srem, BitVec.ofInt_toInt]

theorem alu_remu (x y : W64) : alu .remu x y = if y = 0 then x else x % y := by
  unfold alu
  rw [← BitVec.toNat_umod, BitVec.ofNat_toNat, BitVec.setWidth_eq]

theorem Dev.aluReg_of_rsvd {d : Dev} {n : LoomId} {a : RArgs} (op : Alu) (h : a.rsvd = 0) : d.aluReg n op a =
    d.retires n 4 ((d.loom n).setReg a.rd (alu op ((d.loom n).reg a.rs1) ((d.loom n).reg a.rs2))) := by
  unfold Dev.aluReg
  dsimp only
  rw [if_neg (not_not.2 h), Dev.setReg_nextPc]

/-- Settles O7: each operation by its result, on two registers and on a register and the immediate. -/
theorem operationResults : Obligations.OperationResults := by
  unfold Obligations.OperationResults
  constructor
  · intro s n a hi hr l x y res
    have row {i : Instr} (op : Alu) {v : W64} (hv : alu op x y = v)
        (h : exec i s = s.pure fun d => d.instr i n 4 fun d => d.aluReg n op a) (hs : s.Spells n i) : exec i s = res v := by
      subst hv
      exact (exec_pure_issue hi hs h).trans (congrArg s.showing (Dev.aluReg_of_rsvd op hr))
    simp only [List.forall_mem_cons]
    exact ⟨row .add rfl rfl, row .sub rfl rfl, row .and rfl rfl, row .or rfl rfl, row .xor rfl rfl, row .sll rfl rfl,
      row .srl rfl rfl, row .sra rfl rfl, row .slt (alu_slt x y) rfl, row .sltu (alu_sltu x y) rfl, row .min (alu_min x y) rfl,
      row .max (alu_max x y) rfl, row .minu (alu_minu x y) rfl, row .maxu (alu_maxu x y) rfl, row .mul (alu_mul x y) rfl,
      row .mulh rfl rfl, row .mulhu rfl rfl, row .div (alu_div x y) rfl, row .divu (alu_divu x y) rfl,
      row .rem (alu_rem x y) rfl, row .remu (alu_remu x y) rfl, List.forall_mem_nil _⟩
  · intro s n a hi l x y res
    have row {i : Instr} (op : Alu) {v : W64} (hv : alu op x y = v)
        (h : exec i s = s.pure fun d => d.instr i n 4 fun d => d.aluImm n op a) (hs : s.Spells n i) : exec i s = res v := by
      subst hv
      exact (exec_pure_issue hi hs h).trans (congrArg s.showing (Dev.setReg_nextPc ..))
    simp only [List.forall_mem_cons]
    exact ⟨row .add rfl rfl, row .and rfl rfl, row .or rfl rfl, row .xor rfl rfl, row .sll rfl rfl, row .srl rfl rfl,
      row .sra rfl rfl, row .slt (alu_slt x y) rfl, row .sltu (alu_sltu x y) rfl, List.forall_mem_nil _⟩

end Sys2Proof.Machine
end

section
/-! SUPPORT. The in-line rows of the reed that are no elementwise arithmetic: compares and VEXT, for which the treadle waits;
reductions; and moves (R120, R122, R125 to R128, Table 5-3). -/

namespace Sys2Proof.Machine

theorem Dev.reedFlags_none (d : Dev) (n : LoomId) : d.reedFlags n {} = d := rfl

theorem Dev.loom_reedFlags (d : Dev) (n m : LoomId) (f : FFlags) : (d.reedFlags n f).loom m = d.loom m := by
  obtain ⟨a, b, c, e, g, h⟩ := f
  cases a <;> cases b <;> cases c <;> cases e <;> cases g <;> cases h <;> rfl

/-! ### Rows for which the treadle waits -/

/-- A treadle that waits for a value takes it and goes on (R122). -/
theorem Dev.answerTreadle {e : Dev} {n : LoomId} {l : Loom} (r : Reg) (v : W64) (hl : e.loom n = l) (hstall : l.stall = .reed) :
    (if ((e.setReg n r v).loom n).stall = .reed
      then ((e.setReg n r v).setLoom n { (e.setReg n r v).loom n with stall := .run }).nextPc n 8 else e.setReg n r v) =
    e.retires n 8 ({ l with stall := .run }.setReg r v) := by
  subst hl
  have hwaits : ((e.setReg n r v).loom n).stall = .reed := by simpa [Dev.setReg] using hstall
  rw [if_pos hwaits]
  unfold Dev.nextPc Dev.setPc Dev.setReg Dev.retires
  rw [Dev.setLoom_loom_same, Dev.setLoom_loom_same, Dev.setLoom_setLoom, Dev.setLoom_setLoom]
  unfold Loom.setReg
  split
  · rfl
  · rfl

/-- A row that returns a value to the treadle that waits for it. -/
theorem Dev.reedExec_treadle {d : Dev} {n : LoomId} {o : ReedOp} {rest : List ReedOp} {f : FFlags} {v : W64}
    (hq : (d.loom n).reedQ = o :: rest) (hstall : (d.loom n).stall = .reed)
    (hr : reedInline (d.loom n) o = { flags := f, treadle := some v }) :
    d.reedExec n (rwOp o.word) = ((d.setLoom n { d.loom n with reedQ := rest }).reedFlags n f).retires n 8
      ({ d.loom n with reedQ := rest, stall := .run }.setReg (rwRA o.word) v) := by
  have hloom : ((d.setLoom n { d.loom n with reedQ := rest }).reedFlags n f).loom n = { d.loom n with reedQ := rest } := by
    rw [Dev.loom_reedFlags, Dev.setLoom_loom_same]
  unfold Dev.reedExec
  dsimp only
  rw [hq]
  dsimp only
  rw [if_neg (not_not.2 rfl), hr]
  exact Dev.answerTreadle _ v hloom hstall

theorem exec_reedTreadle {s : State} {i : Instr} {n : LoomId} {o : ReedOp} {rest : List ReedOp} {op : Nat} {f : FFlags} {v : W64}
    (hl : s.dev.live = true) (hq : (s.dev.loom n).reedQ = o :: rest) (hstall : (s.dev.loom n).stall = .reed)
    (h : exec i s = s.pure fun d => d.reedExec n op) (hr : reedInline (s.dev.loom n) o = { flags := f, treadle := some v })
    (hop : rwOp o.word = op) :
    exec i s = s.showing (((s.dev.setLoom n { s.dev.loom n with reedQ := rest }).reedFlags n f).retires n 8
      ({ s.dev.loom n with reedQ := rest, stall := .run }.setReg (rwRA o.word) v)) := by
  subst hop
  rw [h, State.pure_live _ hl, Dev.reedExec_treadle hq hstall hr]

/-! ### Compares -/

/-- One lane of the head's compare. -/
def Loom.cmpLane (l : Loom) (o : ReedOp) (k : Nat) : Bool × FFlags :=
  laneCmp (rwOp o.word) (rwLt o.word) (RCtl.ofBits o.ctrl) (laneOf (l.vreg (rwVa o.word)) (ltWidth (rwLt o.word)) k)
    (laneOf (l.vreg (rwVb o.word)) (ltWidth (rwLt o.word)) k)

/-- Bit k is 1 where lane k is enabled and g holds. -/
def ReedOp.laneBits (o : ReedOp) (g : Nat → Bool) : W64 :=
  BitVec.ofNat 64 (ofLanes 1 ((List.range (ltLanes (rwLt o.word))).map fun k => if o.enabled k && g k then 1 else 0))

/-- The flags of the enabled lanes together. -/
def ReedOp.laneFlags (o : ReedOp) (f : Nat → FFlags) : FFlags :=
  (List.range (ltLanes (rwLt o.word))).foldl (fun (g : FFlags) k => g.or (if o.enabled k then f k else {})) {}

theorem ReedOp.laneFlags_none (o : ReedOp) : (o.laneFlags fun _ => {}) = {} :=
  foldl_keeps (fun g : FFlags => g = {}) (fun g k hg => by rw [hg, ite_self]; rfl) _ {} rfl

theorem reedInline_compare (l : Loom) {o : ReedOp} (hlo : 0x18 ≤ rwOp o.word) (hhi : rwOp o.word ≤ 0x1C) : reedInline l o =
    { flags := o.laneFlags fun k => (l.cmpLane o k).2, treadle := some (o.laneBits fun k => (l.cmpLane o k).1) } := by
  have hrow : ¬ (decide (rwOp o.word ≤ 0x15) || (decide (0x28 ≤ rwOp o.word) && decide (rwOp o.word ≤ 0x2D))) = true := by
    simp only [Bool.or_eq_true, Bool.and_eq_true, decide_eq_true_eq]
    omega
  unfold reedInline
  dsimp only
  rw [if_neg hrow, if_pos hhi, List.map_map, List.foldl_map]
  unfold ReedOp.laneFlags ReedOp.laneBits Loom.cmpLane
  congr 1
  · congr 1
    funext g k
    cases o.enabled k <;> rfl
  · congr 4
    funext k
    cases h : o.enabled k <;> simp [h]

/-- A compare of INT32 lanes raises no flag (R125). -/
theorem Loom.cmpLane_int {l : Loom} {o : ReedOp} (hlt : rwLt o.word = 3) {r : W32 → W32 → Bool}
    (hr : (fun a b : W32 => if rwOp o.word = 0x18 then decide (a = b) else if rwOp o.word = 0x19 then a.slt b
      else if rwOp o.word = 0x1A then a.sle b else a.ult b) = r) :
    l.cmpLane o = fun k => (r (l.lane32 (rwVa o.word) k) (l.lane32 (rwVb o.word) k), {}) := by
  subst hr
  funext k
  unfold Loom.cmpLane
  rw [hlt]
  rfl

/-! ### Reductions and moves -/

theorem reedInline_reduce (l : Loom) {o : ReedOp} (hlo : 0x20 ≤ rwOp o.word) (hhi : rwOp o.word ≤ 0x23) {r : Nat × FFlags}
    (hr : reduceLanes (rwOp o.word) (rwLt o.word) (RCtl.ofBits o.ctrl) ((List.range (ltLanes (rwLt o.word))).map fun k =>
      (o.enabled k, laneOf (l.vreg (rwVa o.word)) (ltWidth (rwLt o.word)) k)) = r) :
    reedInline l o = { regs := [(rwVd o.word, BitVec.ofNat 512 (r.1 % 2 ^ 32))], flags := r.2 } := by
  have hrow : ¬ (decide (rwOp o.word ≤ 0x15) || (decide (0x28 ≤ rwOp o.word) && decide (rwOp o.word ≤ 0x2D))) = true := by
    simp only [Bool.or_eq_true, Bool.and_eq_true, decide_eq_true_eq]
    omega
  subst hr
  unfold reedInline
  dsimp only
  rw [if_neg hrow, if_neg (by omega), if_pos hhi]

/-- What the moves leave, by code (Table 5-3). -/
theorem reedInline_moves (l : Loom) (o : ReedOp) :
    (rwOp o.word = 0x30 → reedInline l o =
      { regs := [(rwVd o.word, BitVec.ofNat 512 (l.scratch.readNat (o.ta.extractLsb' 0 20).toNat 64))] }) ∧
    (rwOp o.word = 0x31 → reedInline l o = { store := [((o.ta.extractLsb' 0 20).toNat, 64, (l.vreg (rwVa o.word)).toNat)] }) ∧
    (rwOp o.word = 0x32 → reedInline l o = reedLanes l o fun _ => (o.ta.toNat % 2 ^ ltWidth (rwLt o.word), {})) ∧
    (rwOp o.word = 0x33 → reedInline l o =
      { treadle := some (BitVec.ofNat 64 (laneOf (l.vreg (rwVa o.word)) (ltWidth (rwLt o.word)) (rwVb o.word))) }) ∧
    (rwOp o.word = 0x34 → reedInline l o =
      reedLanes l o fun k => (laneOf (l.vreg (rwVa o.word)) (ltWidth (rwLt o.word)) k, {})) ∧
    (rwOp o.word = 0x35 → reedInline l o = reedLanes l o fun k => (laneOf (l.vreg (rwVa o.word)) (ltWidth (rwLt o.word))
      (laneOf (l.vreg (rwVb o.word)) (ltWidth (rwLt o.word)) k % ltLanes (rwLt o.word)), {})) := by
  refine ⟨fun h => ?_, fun h => ?_, fun h => ?_, fun h => ?_, fun h => ?_, fun h => ?_⟩ <;> simp [reedInline, h]

/-- A move of lanes raises no flag. -/
theorem Dev.reedLeaves_moves (d : Dev) (n : LoomId) (rest : List ReedOp) (o : ReedOp) (g : Nat → Nat) :
    d.reedLeaves n rest (reedLanes (d.loom n) o fun k => (g k, {})) = d.reedTakes n rest (rwVd o.word)
      (packLanes (ltWidth (rwLt o.word)) ((List.range (ltLanes (rwLt o.word))).map fun k =>
        if o.enabled k then g k else laneOf ((d.loom n).vreg (rwVd o.word)) (ltWidth (rwLt o.word)) k)) {} := by
  rw [Dev.reedLeaves_reedLanes]
  unfold Loom.reedLanesOf
  simp only [← apply_ite (fun x : Nat => (x, ({} : FFlags))), orAll_flagless, List.map_map]
  rfl

/-- A store of the reed. -/
theorem Dev.reedLeaves_store (d : Dev) (n : LoomId) (rest : List ReedOp) (a k v : Nat) :
    d.reedLeaves n rest { store := [(a, k, v)] } =
      d.setLoom n { d.loom n with reedQ := rest, scratch := (d.loom n).scratch.writeNat a k v } := by
  refine (Dev.scratchWrite_loom (d.setLoom n { d.loom n with reedQ := rest }) n a k v).trans ?_
  rw [Dev.setLoom_loom_same, Dev.setLoom_setLoom]

/-- Settles O21: compares and VEXT return a value to the treadle; the other rows leave theirs in vd, or in scratch. -/
theorem reedComparesReducesMoves : Obligations.ReedComparesReducesMoves := by
  unfold Obligations.ReedComparesReducesMoves
  intro s n o rest hl hq d l w lw cnt lane x go bits int one flt red moves
  obtain ⟨hvld, hvst, hvbcast, hvext, hvmov, hvperm⟩ := reedInline_moves l o
  have row {i : Instr} {op : Nat} {r : ReedOut} {e : Dev} (h : exec i s = s.pure fun d => d.reedExec n op) (ht : r.treadle = none)
      (hr : rwOp w = op → reedInline l o = r) (he : d.reedLeaves n rest r = e) (hop : rwOp w = op) : exec i s = s.showing e :=
    (exec_reedRow hl hq h (hr hop) ht hop).trans (congrArg s.showing he)
  have reduce {i : Instr} (op : Nat) (h : exec i s = s.pure fun d => d.reedExec n op) (hlo : 0x20 ≤ op) (hhi : op ≤ 0x23)
      (hop : rwOp w = op) : exec i s = red op := by
    subst hop
    exact row h rfl (fun _ => reedInline_reduce l hlo hhi rfl) rfl rfl
  have move {i : Instr} {op : Nat} (g : Nat → Nat) (h : exec i s = s.pure fun d => d.reedExec n op)
      (hr : rwOp w = op → reedInline l o = reedLanes l o fun k => (g k, {})) (hop : rwOp w = op) : exec i s = moves g :=
    row h rfl hr (Dev.reedLeaves_moves d n rest o g) hop
  refine ⟨fun hstall => ?_, reduce 0x20 rfl (by decide) (by decide), reduce 0x21 rfl (by decide) (by decide),
    reduce 0x22 rfl (by decide) (by decide), reduce 0x23 rfl (by decide) (by decide), row rfl rfl hvld rfl, row rfl rfl hvst (Dev.reedLeaves_store ..),
    move _ rfl hvbcast, move _ rfl hvmov, move _ rfl hvperm⟩
  · have float {i : Instr} (op : Nat) (h : exec i s = s.pure fun d => d.reedExec n op) (hlo : 0x18 ≤ op) (hhi : op ≤ 0x1C)
        (hop : rwOp w = op) : exec i s = flt op := by
      subst hop
      exact exec_reedTreadle hl hq hstall h (reedInline_compare l hlo hhi) rfl
    have integer {i : Instr} (op : Nat) (r : W32 → W32 → Bool) (h : exec i s = s.pure fun d => d.reedExec n op) (hlo : 0x18 ≤ op)
        (hhi : op ≤ 0x1C) (hr : (fun a b : W32 => if op = 0x18 then decide (a = b) else if op = 0x19 then a.slt b
          else if op = 0x1A then a.sle b else a.ult b) = r) (hop : rwOp w = op) (hlt : rwLt w = 3) : exec i s = int r := by
      subst hop
      refine exec_reedTreadle hl hq hstall h ?_ rfl
      rw [reedInline_compare l hlo hhi, Loom.cmpLane_int hlt hr, ReedOp.laneFlags_none]
      simp only [lane, Loom.lane32, lw]
      rw [hlt]
      rfl
    have either {i : Instr} (op : Nat) (r : W32 → W32 → Bool) (h : exec i s = s.pure fun d => d.reedExec n op) (hlo : 0x18 ≤ op)
        (hhi : op ≤ 0x1C) (hr : (fun a b : W32 => if op = 0x18 then decide (a = b) else if op = 0x19 then a.slt b
          else if op = 0x1A then a.sle b else a.ult b) = r) (hop : rwOp w = op) :
        exec i s = if rwLt w = 3 then int r else flt op := by
      split
      · next hlt => exact integer op r h hlo hhi hr hop hlt
      · exact float op h hlo hhi hop
    have ext : rwOp w = 0x33 → exec (.vext n) s = go {} (BitVec.ofNat 64 (lane (rwVa w) (rwVb w))) :=
      fun hop => exec_reedTreadle hl hq hstall rfl (hvext hop) hop
    clear_value int flt go
    exact ⟨either 0x18 _ rfl (by decide) (by decide) rfl, either 0x19 _ rfl (by decide) (by decide) rfl,
      either 0x1A _ rfl (by decide) (by decide) rfl, fun hop _ => float 0x1B rfl (by decide) (by decide) hop,
      integer 0x1C _ rfl (by decide) (by decide) rfl, ext⟩

end Sys2Proof.Machine
end

section
/-! SUPPORT. Cache operations on memory: prefetches, ZERO.LINE, CLEAN.LINE, LOCK.PRELOAD and UNLOCK (R150, R153, Table 6-1). -/

namespace Sys2Proof.Machine

/-- An address of memory lies in a line of memory. -/
theorem destOf_mem_line {t : Tlb} {x : Nat} (h : destOf t x = .mem) : destOf t (x / 256 * 256) = .mem := by
  unfold destOf at h ⊢
  split at h
  · cases h
  · next hlocal =>
    rw [if_neg hlocal]
    split at h
    · next hlow => exact if_pos (Nat.lt_of_le_of_lt (Nat.div_mul_le_self x 256) hlow)
    · split at h
      · cases h
      · split at h <;> cases h

section
variable {d : Dev} {n : LoomId} {a : CacheArgs} {t : Tlb} {x : Nat}

/-- A cache operation on memory whose address translates. -/
theorem Dev.cacheOp_mem {k : AccKind} (f : Dev → Tlb → W64 → Nat → Dev) (hready : d.ready n = true)
    (ht : d.Reaches n ((d.loom n).reg a.rs1 + a.imm.signExtend 64) k t x) (hx : destOf t x = .mem) :
    d.cacheOp n k a f = f d t ((d.loom n).reg a.rs1 + a.imm.signExtend 64) x := by
  unfold Dev.cacheOp
  rw [Dev.issue_ready _ hready]
  dsimp only
  rw [ht]
  exact if_pos hx

theorem Dev.cacheReq_none (d : Dev) (n : LoomId) (k : ReqKind) (key : Nat) : d.cacheReq n k key 0 = d := if_pos rfl

/-- A line that neither the cache nor the eviction buffer holds gets a way. -/
theorem Dev.lineFor_absent {line : BitVec 40} (may : Nat → Bool) (hfind : (d.loom n).findLine line = none)
    (hevict : (d.loom n).findEvict line = none) :
    d.lineFor n line may = ((d.allocWay n line may).1, false, (d.allocWay n line may).2) := by
  unfold Dev.lineFor Dev.reinstall
  rw [hfind, hevict]

theorem Dev.lineFor_present {line : BitVec 40} {key : Nat} {c : CLine} (may : Nat → Bool)
    (hfind : (d.loom n).findLine line = some (key, c)) : d.lineFor n line may = (.way key, true, d) := by
  unfold Dev.lineFor
  rw [hfind]

/-- A prefetch of an absent line of a NORMAL page requests all its sectors under the way that it gets (R153). -/
theorem Dev.prefetch_absent {key : Nat} {e : Dev} (own : Bool) (hready : d.ready n = true)
    (ht : d.Reaches n ((d.loom n).reg a.rs1 + a.imm.signExtend 64) .hint t x) (hx : destOf t x = .mem)
    (hattr : pteAttr t.leaf = attrNormal) (hfind : (d.loom n).findLine (BitVec.ofNat 40 (x / 256)) = none)
    (hevict : (d.loom n).findEvict (BitVec.ofNat 40 (x / 256)) = none)
    (hway : d.allocWay n (BitVec.ofNat 40 (x / 256)) (fun _ => true) = (.way key, e))
    (hline : Fmap.get { line := 0 } (e.loom n).cache key = { line := BitVec.ofNat 40 (x / 256) }) :
    d.prefetch n own a = ((e.cacheReq n (if own then .readOwn else .readShared) key 15).countLoom n t
      ((d.loom n).reg a.rs1 + a.imm.signExtend 64)).nextPc n 4 := by
  have hgoes : ¬ (decide (pteAttr t.leaf ≠ attrNormal) ||
      (!own && ((d.loom n).findLine (BitVec.ofNat 40 (x / 256))).isSome)) = true := by
    rw [hattr, hfind]
    simp
  have hall (line : BitVec 40) : ({ line := line } : CLine).invalid &&& ~~~({ line := line } : CLine).wait = 15 := by
    simp [CLine.invalid, CLine.st, setBit4, List.range_succ]
  have hnone (line : BitVec 40) : (List.range 4).foldl (fun (s : BitVec 4) k => if ({ line := line } : CLine).st k = .s ||
      ({ line := line } : CLine).st k = .o then setBit4 s k else s) 0 &&& ~~~({ line := line } : CLine).wait = 0 := by
    simp [CLine.st, List.range_succ]
  unfold Dev.prefetch
  rw [Dev.cacheOp_mem _ hready ht hx]
  dsimp only
  rw [if_neg hgoes, Dev.lineFor_absent _ hfind hevict, hway]
  dsimp only
  rw [hline, hall]
  refine (congrArg (Dev.nextPc · n 4) (if_neg (by decide))).trans ?_
  cases own
  · rfl
  · rw [if_pos rfl, hnone, Dev.cacheReq_none]
    rfl

/-- LOCK.PRELOAD of a line that the cache holds whole in one of the ways 0 to 3 (R150). -/
theorem Dev.lockPreload_whole {key : Nat} {c : CLine} (hready : d.ready n = true)
    (ht : d.Reaches n ((d.loom n).reg a.rs1 + a.imm.signExtend 64) .load t x) (hx : destOf t x = .mem)
    (hattr : pteAttr t.leaf = attrNormal) (hopen : (List.range 4).any (fun w => d.fldBit Fld.CACHE_CTRL_WAY_ON n.toNat w
      && !(Fmap.get { line := 0 } (d.loom n).cache (8 * cacheSet (BitVec.ofNat 40 (x / 256)) + w)).lock) = true)
    (hc : (d.loom n).Holds (BitVec.ofNat 40 (x / 256)) key c) (hlow : key % 8 < 4) (hwhole : c.invalid = 0) :
    d.lockPreload n a = ((d.putLine n key { c with lock := true }).showLocked n).nextPc n 4 := by
  obtain ⟨hfind, hget⟩ := hc
  have hnone : (0 : BitVec 4) &&& ~~~c.wait = 0 := by simp
  unfold Dev.lockPreload
  rw [Dev.cacheOp_mem _ hready ht hx]
  dsimp only
  rw [if_neg (not_not.2 hattr), hopen, hfind, Dev.lineFor_present _ hfind, if_neg (by simp [hlow])]
  dsimp only
  rw [hget, hwhole, hnone, Dev.cacheReq_none]
  exact if_pos rfl

end

/-- Settles O14: each operation on an address that translates to memory. -/
theorem cacheLineOperations : Obligations.CacheLineOperations := by
  unfold Obligations.CacheLineOperations
  intro s n a t x hi d l va ln hx
  refine ⟨fun ht hattr hfind hevict key e hway hline => ?_, ?_,
    fun ht hattr hopen key c hc hlow hwhole hs => ?_, fun ht hs => ?_⟩
  · have goes {i : Instr} (own : Bool) (h : exec i s = s.run fun d => d.instr i n 4 fun d => d.prefetch n own a)
        (hs : s.Spells n i) : exec i s = s.settling
          (((e.cacheReq n (if own then .readOwn else .readShared) key 15).countLoom n t va).nextPc n 4) :=
      (exec_run_issue hi hs h).trans (congrArg s.settling (Dev.prefetch_absent own hi.ready ht hx hattr hfind hevict hway hline))
    exact List.forall_mem_cons.2 ⟨goes false rfl, List.forall_mem_cons.2 ⟨goes true rfl, List.forall_mem_nil _⟩⟩
  · intro ht hstb ent zeros cleans
    have enters {i : Instr} (mask : BitVec 256) (zero clean : Bool)
        (h : exec i s = s.run fun d => d.instr i n 4 fun d => d.cacheOp n .store a fun d t va x =>
          d.bufferStore n t va (x / 256 * 256) mask 0 zero clean) (hs : s.Spells n i) :
        exec i s = s.settling (d.newOp.2.retires n 4 { l with stb := [{ ent with mask := mask, zero := zero, clean := clean }] }) := by
      refine (exec_run_issue hi hs h).trans (congrArg s.settling ?_)
      rw [Dev.cacheOp_mem _ hi.ready ht hx, Dev.bufferStore_empty _ _ _ _ _ _ _ hstb, destOf_mem_line hx,
        Nat.mul_div_cancel _ (by decide)]
    exact List.forall_mem_cons.2 ⟨enters _ true false rfl, List.forall_mem_cons.2 ⟨enters 0 false true rfl, List.forall_mem_nil _⟩⟩
  · exact (exec_run_issue (f := fun d => d.lockPreload n a) hi hs rfl).trans
      (congrArg s.settling (Dev.lockPreload_whole hi.ready ht hx hattr hopen hc hlow hwhole))
  · exact (exec_run_issue (f := fun d => d.unlock n a) hi hs rfl).trans
      (congrArg s.settling (Dev.cacheOp_mem _ hi.ready ht hx))

end Sys2Proof.Machine
end

section
/-! SUPPORT. The life of a wing: preserve and resume, fence, admission and return of looms, release, queries, and the key slots
(R118, R376, R379 to R384, R399, R400, Table 15-4). -/

namespace Sys2Proof.Machine

/-! ### States of a wing -/

theorem Dev.setWgState_reg (d : Dev) (w st : Nat) : (d.setWgState w st).reg = d.reg := by
  unfold Dev.setWgState
  exact foldl_keeps (f := fun (e : Dev) (h : HeadId) => e.setFld Fld.HEAD_STATUS_PRESERVED h.toNat _)
    (fun e : Dev => e.reg = d.reg) (fun _ _ he => he) _ _ rfl

theorem Dev.setWgState_policy (d : Dev) (w st v : Nat) :
    (d.setWgState w st).fld Fld.WING_STATE_POLICY v = d.fld Fld.WING_STATE_POLICY v := by
  refine foldl_keeps (fun e : Dev => e.fld Fld.WING_STATE_POLICY v = d.fld Fld.WING_STATE_POLICY v) (fun e h he => ?_) _ _
    (Dev.fld_setFld_ne _ _ _ _ _ _ (by decide))
  exact (Dev.fld_setFld_ne _ _ _ _ _ _ (by decide)).trans he

section
variable {d : Dev} {w : Nat}

theorem Dev.preserveWing_inactive (h : d.wgState w ≠ wgActive) : d.preserveWing w = d := if_pos h

/-- A wing whose policy lets its looms run on (R381). -/
theorem Dev.preserveWing_runs (h : d.wgState w = wgActive) (hp : d.fld Fld.WING_STATE_POLICY w = 0) :
    d.preserveWing w = d.setWgState w wgPreserved := by
  have hrun : (d.setWgState w wgPreserved).fld Fld.WING_STATE_POLICY w ≠ 1 := by
    rw [Dev.setWgState_policy, hp]
    decide
  exact (if_neg (not_not.2 h)).trans (if_neg hrun)

/-- A wing whose policy pauses its looms (R381). -/
theorem Dev.preserveWing_pauses (h : d.wgState w = wgActive)
    (hp : (d.setWgState w wgPreserved).fld Fld.WING_STATE_POLICY w = 1) : d.preserveWing w =
      ((d.setWgState w wgPreserved).wingLooms w).foldl (fun e n => e.askStop n .paused) (d.setWgState w wgPreserved) :=
  (if_neg (not_not.2 h)).trans (if_pos hp)

end

/-! ### Looms of a wing (R118, R376) -/

section
variable {d : Dev} {w k : Nat} (hw : d.wingUsable w = none) (hk : k < 4096)
include hw hk

theorem Dev.loomFence_fenced (ho : d.wingOf (BitVec.ofNat 12 k) = w) (hst : d.loomState (BitVec.ofNat 12 k) = stFenced) :
    d.loomFence w k = (rBusy, d) :=
  (Dev.onWing_usable hw _).trans ((if_neg (Nat.not_le.2 hk)).trans ((if_neg (not_not.2 ho)).trans (if_pos (by simp [hst]))))

theorem Dev.loomFence_starts (ho : d.wingOf (BitVec.ofNat 12 k) = w) (hst : d.loomState (BitVec.ofNat 12 k) ≠ stFenced)
    (hst' : d.loomState (BitVec.ofNat 12 k) ≠ stScrubbing) : d.loomFence w k = (rOk, d) :=
  (Dev.onWing_usable hw _).trans ((if_neg (Nat.not_le.2 hk)).trans ((if_neg (not_not.2 ho)).trans (if_neg (by simp [hst, hst']))))

theorem Dev.loomFence_foreign (ho : d.wingOf (BitVec.ofNat 12 k) ≠ w) : d.loomFence w k = (rDenied, d) :=
  (Dev.onWing_usable hw _).trans ((if_neg (Nat.not_le.2 hk)).trans (if_pos ho))

theorem Dev.loomAdmit_own (ho : d.wingOf (BitVec.ofNat 12 k) = w) : d.loomAdmit w k =
    if d.loomState (BitVec.ofNat 12 k) ≠ stFenced then (rBusy, d) else (rOk, d.setLoomState (BitVec.ofNat 12 k) stIdle) :=
  (Dev.onWing_usable hw _).trans ((if_neg (Nat.not_le.2 hk)).trans (if_neg (not_not.2 ho)))

theorem Dev.loomAdmit_foreign (ho : d.wingOf (BitVec.ofNat 12 k) ≠ w) : d.loomAdmit w k = (rDenied, d) :=
  (Dev.onWing_usable hw _).trans ((if_neg (Nat.not_le.2 hk)).trans (if_pos ho))

theorem Dev.loomReturn_foreign (ho : d.wingOf (BitVec.ofNat 12 k) ≠ w) : d.loomReturn w k = (some rDenied, d) := by
  unfold Dev.loomReturn
  rw [hw]
  exact (if_neg (Nat.not_le.2 hk)).trans (if_pos ho)

/-- A loom that runs is not quiet, so its return waits for the fence that it orders. -/
theorem Dev.loomReturn_running (ho : d.wingOf (BitVec.ofNat 12 k) = w) (hrun : d.loomState (BitVec.ofNat 12 k) = stRunning) :
    d.loomReturn w k = (none, d.askStop (BitVec.ofNat 12 k) .fenced) := by
  have hgo : (d.loomState (BitVec.ofNat 12 k) = stFenced || d.loomState (BitVec.ofNat 12 k) = stScrubbing : Bool) = false := by
    rw [hrun]
    rfl
  have hfence : d.fenceLoom (BitVec.ofNat 12 k) = d.askStop (BitVec.ofNat 12 k) .fenced := if_pos hrun
  have hstate : (d.askStop (BitVec.ofNat 12 k) .fenced).loomState (BitVec.ofNat 12 k) = stRunning := by
    unfold Dev.askStop
    dsimp only
    split
    · exact hrun
    · exact hrun
  have hbusy : (d.askStop (BitVec.ofNat 12 k) .fenced).loomQuiet (BitVec.ofNat 12 k) = false := by
    unfold Dev.loomQuiet
    rw [hstate]
    rfl
  unfold Dev.loomReturn
  rw [hw]
  dsimp only
  rw [if_neg (Nat.not_le.2 hk), if_neg (not_not.2 ho), hgo, if_neg Bool.false_ne_true, hfence, hbusy]
  rfl

/-- A quiet FENCED loom whose tile runs is scrubbed at once (R376). -/
theorem Dev.loomReturn_quiet {e : Dev} (ho : d.wingOf (BitVec.ofNat 12 k) = w)
    (hst : d.loomState (BitVec.ofNat 12 k) = stFenced) (hq : d.loomQuiet (BitVec.ofNat 12 k) = true)
    (he : (d.setLoomState (BitVec.ofNat 12 k) stScrubbing).wakeTile (loomTile k) = e)
    (htile : e.fld Fld.TILE_STATE_STATE (loomTile k) = 3) :
    d.loomReturn w k = (some rOk, (e.scrubLoom (BitVec.ofNat 12 k)).showWing w) := by
  have hgo : (d.loomState (BitVec.ofNat 12 k) = stFenced || d.loomState (BitVec.ofNat 12 k) = stScrubbing : Bool) = true := by
    rw [hst]
    rfl
  unfold Dev.loomReturn
  rw [hw]
  dsimp only
  rw [if_neg (Nat.not_le.2 hk), if_neg (not_not.2 ho), hgo, if_pos rfl, hq, he]
  exact if_neg (not_not.2 htile)

end

/-! ### Release (R382 to R384) -/

/-- Steps 1 and 2 of Table 15-3: the wing is RELEASING, and its heads, queues, runs and rotations stop. -/
def Dev.wingStopped (d : Dev) (w : Nat) : Dev :=
  let e := d.setWgState w wgReleasing
  let e := ((e.wingHeads w).filter (· ≠ 0)).foldl Dev.unbindHead e
  let e := (e.wingQueues w).foldl Dev.queueDrop e
  let e := (e.wingRegions w).foldl (fun (e : Dev) r => e.abortRegion r 16) e
  e.rotAbortAll (fun p => e.extentWing (p * 2 ^ 26) = w)

/-- A release of a wing that no zero-fill serves fences its looms and notes the mailbox (R382). -/
theorem Dev.wingRelease_unfilled {d e : Dev} {w : Nat} (box : Nat) (hw : d.wingUsable w = none) (he : d.wingStopped w = e)
    (hfills : e.reg.fills.filter (fun f => f.wing.toNat = w) = []) :
    d.wingRelease w box = (rOk,
      let e := ((e.wingLooms w).foldl Dev.fenceLoom e).setFld Fld.WING_STATE_SCRUB_PCT w 0
      { e with reg := { e.reg with rel := Fmap.put e.reg.rel w { box := box } } }) := by
  refine (Dev.onWing_usable hw _).trans ?_
  unfold Dev.wingStopped at he
  dsimp only at he ⊢
  rw [he, hfills, List.foldl_nil]

theorem Dev.bgEnd_keys (d : Dev) (op obj r : Nat) (out : List Byte) : (d.bgEnd op obj r out).reg.keys = d.reg.keys := by
  unfold Dev.bgEnd
  split
  · rfl
  · split
    · rfl
    · rfl

/-- A release that has ended leaves the keys as they are. -/
theorem Dev.released_keys {d : Dev} {w : Nat} (h : Fmap.find d.reg.keys w = none) :
    Fmap.find (((if w = 0 then (d.setWgState 0 wgActive).showWing 0 else d).report 0x376 (mkDetail 0 w 0) noWing).bgEnd
      0xC003 w rOk []).reg.keys w = none := by
  rw [Dev.bgEnd_keys, Dev.report_reg]
  split
  · exact (congrArg (fun r : Registrar => Fmap.find r.keys w) (d.setWgState_reg 0 wgActive)).trans h
  · exact h

theorem Fmap.find_filter {α : Type} (p : Nat → Bool) (m : Fmap α) (i : Nat) :
    Fmap.find (m.filter fun c => p c.1) i = if p i then Fmap.find m i else none := by
  induction m with
  | nil => simp
  | cons c m ih =>
    obtain ⟨k, v⟩ := c
    by_cases hk : p k = true
    · by_cases hi : i = k
      · subst hi; simp [hk, Fmap.find]
      · simp [hk, hi, Fmap.find, ih]
    · by_cases hi : i = k
      · subst hi; simp [hk, ih]
      · simp [hk, hi, Fmap.find, ih]

section
variable {d : Dev} {w : Nat}

/-- The release of a wing of whose memory no head holds a line. -/
theorem Dev.rangeHeld_none (h : ∀ x, x ∈ (d.wing w).extents → d.rangeHeld x.1 x.2 = []) :
    (d.wing w).extents.any (fun e => !(d.rangeHeld e.1 e.2).isEmpty) = false := by
  rw [List.any_eq_false]
  intro x hx
  simp [h x hx]

theorem Dev.rangeHeld_some (h : ∃ x, x ∈ (d.wing w).extents ∧ d.rangeHeld x.1 x.2 ≠ []) :
    (d.wing w).extents.any (fun e => !(d.rangeHeld e.1 e.2).isEmpty) = true := by
  obtain ⟨x, hx, hheld⟩ := h
  exact List.any_eq_true.2 ⟨x, hx, by simpa using hheld⟩

/-- A completed release erases the wing's key (R380, R383). -/
theorem Dev.releaseDone_key (hready : d.releaseReady w = true)
    (hfree : ∀ x, x ∈ (d.wing w).extents → d.rangeHeld x.1 x.2 = []) : Fmap.find (d.releaseDone w).reg.keys w = none := by
  have hdel (m : Fmap (BitVec 512)) : Fmap.find (Fmap.del m w) w = none := by
    exact (Fmap.find_filter (fun i => i != w) m w).trans (if_neg (by simp))
  unfold Dev.releaseDone
  rw [if_neg (by simp [hready]), if_neg (by simp [Dev.rangeHeld_none hfree])]
  extract_lets e1 looms e2 e3 ws r3 e4 e5 e6 rs e7 e8 cs e9 e10 e11 e12 r12 e13 e14
  clear_value e11
  have he : Fmap.find e13.reg.keys w = none := hdel e12.reg.keys
  exact Dev.released_keys he

end

/-! ### Key slots (R379, R380) -/

section
variable {d : Dev} {w : Nat} (hw : d.wingUsable w = none)
include hw

theorem Dev.keyLoad_owner (h : (d.wing w).extents ≠ []) (id : Nat) (key : BitVec 512) : d.keyLoad w id key = (rBusy, d) :=
  (Dev.onWing_usable hw _).trans (if_pos (by simp [h]))

theorem Dev.keyLoad_empty (h : (d.wing w).extents = []) (hfills : d.reg.fills = []) (id : Nat) (key : BitVec 512) :
    d.keyLoad w id key =
      (rOk, ({ d with reg := { d.reg with keys := Fmap.put d.reg.keys w key } } : Dev).keyLoaded w id) :=
  (Dev.onWing_usable hw _).trans (if_neg (by simp [h, hfills]))

/-- A wing without a key gets no extent (R380). -/
theorem Dev.grantExtent_keyless {base units : Nat} (hkey : d.fld Fld.WING_STATE_KEY_LOADED w = 0)
    (hfree : d.taken.any (fun e => overlap base (units * 2 ^ 28) e.1 e.2) = false) (box : Nat) :
    d.grantExtent w base units box = (rInvalid, d) := by
  refine (Dev.onWing_usable hw _).trans (ite_eq_left_iff.2 fun _ => ?_)
  exact (if_neg (Bool.eq_false_iff.1 hfree)).trans (if_pos hkey)

end

/-- Settles O60: the key command, a grant without a key, a completed release, and the resets. -/
theorem keySlots : Obligations.KeySlots := by
  unfold Obligations.KeySlots
  refine ⟨?_, fun s k hlive hready hfree => ⟨_, State.run_live (fun d => d.releaseDone k.toNat) hlive, Dev.releaseDone_key hready hfree⟩,
    fun d => ⟨rfl, rfl⟩, rfl⟩
  intro s c d w hw
  refine ⟨fun h => ⟨fun hx => ?_, fun hx hfills => ?_⟩, fun h hkind hkey hfree => ?_⟩
  · exact exec_ends rfl h rfl (plain_eq (Dev.keyLoad_owner hw hx _ _))
  · exact exec_ends rfl h rfl (plain_eq (Dev.keyLoad_empty hw hx hfills _ _))
  · exact exec_ends rfl h (decide_eq_true hkind) (started_refused (Dev.grantExtent_keyless hw hkey hfree _) (by decide))

/-! ### Queries (R399, R400) -/

theorem length_le (n v : Nat) : (le n v).length = n := by simp [le]

theorem Dev.queryWing_free {d : Dev} {w : Nat} (hw : w < 16) (h : d.wgState w = wgFree) (out : List Byte) :
    d.queryWing w out = .done rNotFound [] d := (if_neg (Nat.not_le.2 hw)).trans (if_pos h)

theorem Dev.queryWing_owned {d : Dev} {w : Nat} (hw : w < 16) (h : d.wgState w ≠ wgFree) (out : List Byte) :
    d.queryWing w out = .done rOk out d := (if_neg (Nat.not_le.2 hw)).trans (if_neg h)

/-- The state descriptor begins with WING_STATE (Table 16-6). -/
theorem Dev.stateDescriptor_state (d : Dev) (w : Nat) : (d.stateDescriptor w).take 8 = le 8 (d.card Crd.WING_STATE w) := by
  unfold Dev.stateDescriptor
  simp only [List.append_assoc]
  exact List.take_left' (length_le ..)

theorem Dev.stateDescriptor_length (d : Dev) (w : Nat) : (d.stateDescriptor w).length = 2144 := by
  simp only [Dev.stateDescriptor, List.length_append, length_le, List.length_map, List.length_range]

/-- Settles O50: each command by the branch of its rule. -/
theorem wingLifecycle : Obligations.WingLifecycle := by
  unfold Obligations.WingLifecycle
  intro s c d w n no ok
  refine ⟨fun hw => ⟨fun h => ⟨fun hst => ?_, fun hst hp => ?_, fun hst hp => ?_⟩, fun h => ⟨fun hst => ?_, fun hst => ?_⟩,
    fun hk ho => ⟨fun h => ?_, fun h => ?_, fun h => ?_⟩,
    fun hk ho => ⟨fun h => ⟨fun hst => ?_, fun hst hst' => ?_⟩, fun h => ⟨fun hst => ?_, fun hst => ?_⟩,
      fun h => ⟨fun hst => ?_, ?_⟩⟩, ?_⟩, fun k hlive hready => ?_, fun k hlive hready hheld => ?_, ?_,
    fun hw => ⟨fun hst h => ?_, fun hst => ⟨fun h => ?_, fun h => ⟨?_, d.stateDescriptor_state w, d.stateDescriptor_length w⟩⟩⟩⟩
  -- preserve and resume
  · exact exec_ends rfl h rfl (plain_eq ((Dev.onWing_usable hw _).trans (congrArg (Prod.mk rOk) (Dev.preserveWing_inactive hst))))
  · exact exec_ends rfl h rfl (plain_eq ((Dev.onWing_usable hw _).trans (congrArg (Prod.mk rOk) (Dev.preserveWing_runs hst hp))))
  · exact exec_ends rfl h rfl (plain_eq ((Dev.onWing_usable hw _).trans (congrArg (Prod.mk rOk) (Dev.preserveWing_pauses hst hp))))
  · exact exec_ends rfl h rfl (plain_eq ((Dev.onWing_usable hw _).trans (if_pos hst)))
  · exact exec_ends rfl h rfl (plain_eq ((Dev.onWing_usable hw _).trans (if_neg hst)))
  -- looms of another wing
  · exact exec_ends rfl h rfl (started_refused (Dev.loomFence_foreign hw hk ho) (by decide))
  · exact exec_ends rfl h rfl (plain_eq (Dev.loomAdmit_foreign hw hk ho))
  · refine exec_ends rfl h rfl ?_
    rw [Dev.loomReturn_foreign hw hk ho]
    rfl
  -- looms of the wing
  · exact exec_ends rfl h rfl (started_refused (Dev.loomFence_fenced hw hk ho hst) (by decide))
  · exact exec_starts rfl h rfl (started_ok (Dev.loomFence_starts hw hk ho hst hst'))
  · exact exec_ends rfl h rfl (plain_eq ((Dev.loomAdmit_own hw hk ho).trans (if_pos hst)))
  · exact exec_ends rfl h rfl (plain_eq ((Dev.loomAdmit_own hw hk ho).trans (if_neg (not_not.2 hst))))
  · refine exec_serves (x := .wait (d.askStop n .fenced)) rfl h rfl ?_
    rw [Dev.loomReturn_running hw hk ho hst]
  · intro hst hq e htile
    refine exec_ends rfl h rfl ?_
    rw [Dev.loomReturn_quiet hw hk ho hst hq rfl htile]
    rfl
  -- release
  · intro h a e1 e2 e3 e4 hfills
    have he : d.wingStopped w = e4 := rfl
    clear_value e4
    exact exec_starts rfl h rfl (started_ok (Dev.wingRelease_unfilled c.place hw he hfills))
  · exact (State.run_live (fun d => d.releaseDone k.toNat) hlive).trans (congrArg s.settling (if_pos (by simp [d, hready])))
  · exact (State.run_live (fun d => d.releaseDone k.toNat) hlive).trans (congrArg s.settling
      ((if_neg (by simp [d, hready])).trans (if_pos (Dev.rangeHeld_some hheld))))
  · intro k hlive hready hfree v e1 looms e2 e3 e4 e5 e6 e7 e8 e9 e10 e11
    refine (State.run_live (fun d => d.releaseDone k.toNat) hlive).trans (congrArg s.settling ?_)
    unfold Dev.releaseDone
    rw [if_neg (by simp [d, hready]), if_neg (Bool.eq_false_iff.1 (Dev.rangeHeld_none hfree)), BitVec.ofNat_toNat, BitVec.setWidth_eq]
    extract_lets d1 ls d2 d3 ws r3 d4 d5 d6 rs d7 d8 cs d9 d10 d11 d12 r12 d13 d14
    have hcards : d9 = e7 := rfl
    clear_value d9
    subst hcards
    have hwing : d11 = e9 := rfl
    clear_value d11 e9
    subst hwing
    rfl
  -- queries
  · exact exec_ends rfl h rfl (Dev.queryWing_free hw hst _)
  · exact exec_ends rfl h rfl (Dev.queryWing_owned hw hst _)
  · exact exec_ends rfl h rfl (Dev.queryWing_owned hw hst _)

end Sys2Proof.Machine
end

section
/-! SUPPORT. Pins and resets (R463, R465, R471, R473 to R475, Table 19-10). -/

namespace Sys2Proof.Machine

theorem Fmap.get_eq_find {α : Type} (z : α) (m : Fmap α) (i : Nat) : Fmap.get z m i = (Fmap.find m i).getD z := by
  induction m with
  | nil => rfl
  | cons c m ih =>
    by_cases hi : i = c.1
    · simp [Fmap.get, Fmap.find, hi]
    · simp [Fmap.get, Fmap.find, hi, ih]

/-- A reset event keeps the fields of the domains that it does not cover. -/
theorem Dev.resetDomain_fld (d : Dev) (e : Domain) (f : Field) (n : Nat) (h : e.covers (fieldDomains.getD f.id .cold) = false) :
    (d.resetDomain e).fld f n = d.fld f n := by
  have hkept : Fmap.get [] (d.resetDomain e).regs f.id = Fmap.get [] d.regs f.id := by
    unfold Dev.resetDomain
    rw [Fmap.get_eq_find, Fmap.get_eq_find,
      Fmap.find_filter (fun i => !e.covers (fieldDomains.getD i .cold)), if_pos (by rw [h]; rfl)]
  unfold Dev.fld
  rw [hkept]

/-- SELV_ENERGY counts on over a COLD event (R436). -/
theorem Dev.coldReset_energy (d : Dev) : d.coldReset.fld Fld.SELV_ENERGY_ENERGY 0 = d.fld Fld.SELV_ENERGY_ENERGY 0 :=
  (Dev.fld_setFld_ne _ _ _ _ _ _ (by decide)).trans (d.resetDomain_fld .cold Fld.SELV_ENERGY_ENERGY 0 (by decide))

/-- Loss of always-on power clears what a COLD event clears, the tick and SELV_ENERGY (R471). -/
theorem Dev.aonLost_energy (d : Dev) : d.aonLost.fld Fld.SELV_ENERGY_ENERGY 0 = 0 :=
  Dev.fld_setFld_ne _ _ _ _ _ _ (by decide)

section
variable {d : Dev}

/-- PWR_OK under always-on power, once AON_CLK has run for 1 ms (R471). -/
theorem Dev.pwrOkRise_counted (hclk : d.pins.aonClk = true) (hpow : d.pins.aonPower = true) (ht : d.pins.clkAt + 1000 ≤ d.tick) :
    d.pwrOkRise = { ({ d with pins := { d.pins with pwrOk := true, rstAt := d.tick } } : Dev).coldReset with
      selv := { nj := d.selv.nj } } := by
  have hp : { d.pins with aonPower := true, pwrOk := true, rstAt := d.tick } = { d.pins with pwrOk := true, rstAt := d.tick } := by
    rw [← hpow]
  unfold Dev.pwrOkRise
  rw [if_neg (by simp [hclk, hpow, ht]), hp]
  rfl

theorem Dev.pwrOkRise_noClock (h : d.pins.aonClk = false) : d.pwrOkRise = d := if_pos (by simp [h])

/-- RST_N low is a COLD event (R475). -/
theorem Dev.rstAssert_high (hrst : d.pins.rstN = true) (hpow : d.pins.aonPower = true) :
    d.rstAssert = ({ d with pins := { d.pins with rstN := false } } : Dev).coldReset :=
  (if_neg (by simp [hrst])).trans (if_pos hpow)

theorem Dev.rstAssert_low (h : d.pins.rstN = false) : d.rstAssert = d := if_pos (by simp [h])

theorem Dev.rstRise_low (h : d.pins.rstN = false) :
    d.rstRise = { d with pins := { d.pins with rstN := true, rstAt := d.tick } } := if_neg (by simp [h])

theorem Dev.strapLatch_early (v : BitVec 8) (ht : d.tick < d.pins.rstAt + 1000) : d.strapLatch v = d :=
  if_pos (by simp [ht])

/-- The straps latch after 1 ms of RST_N, and the job group role follows them (R465, R467). -/
theorem Dev.strapLatch_latches (v : BitVec 8) (hpow : d.pins.aonPower = true) (hclk : d.pins.aonClk = true)
    (hok : d.pins.pwrOk = true) (hrst : d.pins.rstN = true) (hphase : d.pins.phase = .strap) (ht : d.pins.rstAt + 1000 ≤ d.tick) :
    d.strapLatch v =
      let role := (v.extractLsb' 4 2).toNat
      let e : Dev := { d with pins := { d.pins with straps := v, phase := .run, alive := true, aliveAt := d.tick },
                              reg := { d.reg with beat := d.tick, lost := 0 }, jg := { d.jg with lastCommit := d.tick },
                              ledger := { d.ledger with boot := d.ledger.boot + 1, lastCommit := d.tick } }
      (e.setFld Fld.IKQ_CTRL_JG_ROLE 0 role).setFld Fld.SELV_STATUS_JG_STATE 0
        (if role = roleLead then jsLead else if role = roleMember then jsFree else jsSolo) :=
  if_neg (by simp [hpow, hclk, hok, hrst, hphase, ht])

theorem Dev.pwrfailFall_commits (hrst : d.pins.rstN = true) (hpin : d.pins.pwrfailN = true) (hpow : d.pins.aonPower = true) :
    d.pwrfailFall =
      let e : Dev := { d with pins := { d.pins with pwrfailN := false } }
      if d.ledger.erased = 0 then e.report 0x383 (mkDetail 0 0 0) noWing else e.commit true :=
  if_neg (by simp [hrst, hpin, hpow])

theorem Dev.pwrfailFall_inReset (h : d.pins.rstN = false) : d.pwrfailFall = d := if_pos (by simp [h])

/-- A clock loss acts as RST_N low (R463). -/
theorem Dev.aonClkLoss_running (hclk : d.pins.aonClk = true) (hpow : d.pins.aonPower = true) :
    d.aonClkLoss = ({ d with pins := { d.pins with aonClk := false } } : Dev).coldReset := if_neg (by simp [hclk, hpow])

theorem Dev.aonClkReturn_lost (h : d.pins.aonClk = false) :
    d.aonClkReturn = { d with pins := { d.pins with aonClk := true, clkAt := d.tick, rstAt := d.tick } } := if_neg (by simp [h])

theorem Dev.perstRise_high (h : d.pins.rstN = true) (k : BitVec 3) :
    d.perstRise k = { d with pins := { d.pins with perstN := d.pins.perstN ||| (1 : BitVec 8) <<< k.toNat } } := if_neg (by simp [h])

theorem Dev.perstRise_inReset (h : d.pins.rstN = false) (k : BitVec 3) : d.perstRise k = d := if_pos (by simp [h])

end

/-- Settles O55: what a COLD event keeps and clears, then each pin's command by the branch of its rule. -/
theorem pinsAndResets : Obligations.PinsAndResets := by
  unfold Obligations.PinsAndResets
  refine ⟨fun d => ⟨rfl, rfl, rfl, rfl, rfl, rfl, rfl, rfl, rfl, rfl, rfl, rfl, rfl, rfl, d.coldReset_energy⟩, ?_⟩
  intro s d p
  refine ⟨fun hclk hpow ht => ?_, fun hclk => ?_, fun hrst hpow => ?_, fun hrst => ?_, fun hrst => ?_,
    fun v hpow hclk hok hrst hphase => ⟨fun ht => ?_, fun ht => ?_⟩, fun hrst hpin hpow => ⟨fun he => ?_, fun he => ?_⟩,
    fun hrst => ?_, rfl, fun hclk hpow => ?_, fun hclk => ?_, fun hpow => ?_, fun x => rfl, fun k hrst => ?_, fun k hrst => ?_⟩
  -- PWR_OK and RST_N
  · exact congrArg s.showing (Dev.pwrOkRise_counted hclk hpow ht)
  · exact congrArg s.showing (Dev.pwrOkRise_noClock hclk)
  · exact congrArg s.showing (Dev.rstAssert_high hrst hpow)
  · exact congrArg s.showing (Dev.rstAssert_low hrst)
  · exact congrArg s.showing (Dev.rstRise_low hrst)
  -- straps
  · exact congrArg s.showing (Dev.strapLatch_early v ht)
  · exact congrArg s.showing (Dev.strapLatch_latches v hpow hclk hok hrst hphase ht)
  -- PWRFAIL_N
  · exact congrArg s.showing ((Dev.pwrfailFall_commits hrst hpin hpow).trans (if_pos he))
  · exact congrArg s.showing ((Dev.pwrfailFall_commits hrst hpin hpow).trans (if_neg he))
  · exact congrArg s.showing (Dev.pwrfailFall_inReset hrst)
  -- always-on clock and power
  · exact congrArg s.showing (Dev.aonClkLoss_running hclk hpow)
  · exact congrArg s.showing (Dev.aonClkReturn_lost hclk)
  · exact ⟨d.aonLost, congrArg s.showing (if_pos hpow), rfl, rfl, rfl, rfl, rfl, d.aonLost_energy⟩
  -- PERST_N
  · exact congrArg s.showing (Dev.perstRise_high hrst k)
  · exact congrArg s.showing (Dev.perstRise_inReset hrst k)

end Sys2Proof.Machine
end

section
/-! SUPPORT. The selvage (R410 to R434). -/

namespace Sys2Proof.Machine

/-- The selvage runs, and tile 0 shows a heat limit of 100, which its four bits do not hold. -/
def wideLimitState : State :=
  { dev := { awakeDev with regs := Fmap.put awakeDev.regs Fld.TILE_STATE_HEAT_LIMIT.id [(0, 100)] }, pending := [] }

/-- Every sensor 1 °C above the throttle point. -/
def warmReadings : List Int := List.replicate 120 202

theorem wideLimit_falls :
    (nextDev (exec (.sensorSample warmReadings) wideLimitState)).fld Fld.TILE_STATE_HEAT_LIMIT 0 = 99 % 2 ^ 4 := by
  decide +kernel

/-- Refutes O53: its sensor clause takes one from the heat limit that a tile shows, whatever that limit is.  HEAT_LIMIT has four
bits, and the statement is about every device, also one whose register table holds a larger value there: that value less one is
stored cut to four bits.  (With a limit of at most 15 the clause asks what R432 does.) -/
theorem not_powerLoops : ¬ Obligations.PowerLoops := by
  unfold Obligations.PowerLoops
  rintro ⟨-, h⟩
  obtain ⟨-, -, -, -, hsample, -⟩ := h wideLimitState (by decide) rfl
  obtain ⟨e, he, -, htiles⟩ := hsample warmReadings
  obtain ⟨-, -, hwarm, -⟩ := htiles 0 (by decide)
  have hlower := hwarm (by decide +kernel) (by decide +kernel) (fun since hs => by cases hs)
  have hfalls := wideLimit_falls
  rw [he] at hfalls
  have hshown : e.show.fld Fld.TILE_STATE_HEAT_LIMIT 0 = e.fld Fld.TILE_STATE_HEAT_LIMIT 0 := e.show_fld _ _ (by decide)
  have hless : e.fld Fld.TILE_STATE_HEAT_LIMIT 0 = 99 := hlower
  exact absurd ((hshown.trans hless).symm.trans hfalls) (by decide)

end Sys2Proof.Machine
end

section
/-! SUPPORT. Mailboxes: the doorbell and the checks of a vendor command (R393 to R399). -/

namespace Sys2Proof.Machine

/-! ### The doorbell -/

section
variable {d : Dev} {box op : Nat} {data : List Byte}

theorem Dev.mailbox_ignores (h : d.boxServed box = false ∨ d.reg.cmdQ.any (fun x => x.box = box) = true) :
    d.mailbox box op data = d := by
  refine if_pos ?_
  rcases h with h | h <;> simp [h]

/-- The answer to a command that never entered the queue. -/
theorem Dev.mbReply_unqueued {c : MbCmd} (hq : d.reg.cmdQ = []) (hbox : c.box < 64) (ret : Nat) :
    d.mbReply c ret rOk [] = d.send (.mbox c.box c.op ret rOk []) := by
  have hd : ({ d with reg := { d.reg with cmdQ := eraseOne c d.reg.cmdQ } } : Dev) = d := by
    rw [hq]
    exact congrArg (fun q => ({ d with reg := { d.reg with cmdQ := q } } : Dev)) hq.symm
  unfold Dev.mbReply
  rw [hd]
  exact if_neg (Nat.not_le.2 hbox)

/-- An unknown opcode is answered at once when no other command waits (R399). -/
theorem Dev.mailbox_unknown (hbox : box < 64) (hs : d.boxServed box = true) (hrun : d.reg.running = true) (hq : d.reg.cmdQ = [])
    (hop : op ∉ mbOpcodes) : d.mailbox box op data = d.send (.mbox box op 3 0 []) := by
  have hanswer : d.mailbox box op data = d.mbReply ⟨box, op, data⟩ retUnsupported rOk [] :=
    (if_neg (by simp [hs, hq])).trans (if_pos (by simp [hrun, hq, hop]))
  rw [hanswer, Dev.mbReply_unqueued hq hbox]
  rfl

theorem Dev.mailbox_enters (hs : d.boxServed box = true) (hq : d.reg.cmdQ.any (fun x => x.box = box) = false)
    (hop : op ∈ mbOpcodes) :
    d.mailbox box op data = { d with reg := { d.reg with cmdQ := d.reg.cmdQ ++ [⟨box, op, data⟩] } } :=
  (if_neg (by rw [hs, hq]; decide)).trans (if_neg (by simp [hop]))

end

theorem exec_mailboxDoorbell {s : State} (hlive : s.dev.live = true) (box : BitVec 6) (op : BitVec 16) (data : List Byte) {e : Dev}
    (he : s.dev.mailbox box.toNat op.toNat data = e) : exec (.mailboxDoorbell box op data) s = s.settling e :=
  exec_run_live hlive (f := fun d => d.mailbox box.toNat op.toNat data) rfl he

/-! ### The checks of a vendor command -/

section
variable {d : Dev} {c : MbCmd} {sp : MbSpec} {f : MbCmd → Dev → MbRes}

theorem Dev.mbRun_absent (h : d.mbFront sp.op = none) : d.mbRun sp f = d := by
  unfold Dev.mbRun
  rw [h]

variable (hfront : d.mbFront sp.op = some c) (hsel : sp.sel c = true)
include hfront hsel

theorem Dev.mbRun_length (hlen : c.data.length ≠ sp.len c) : d.mbRun sp f = d.mbReply c retLength rInvalid [] := by
  unfold Dev.mbRun
  rw [hfront]
  exact (if_neg (by simp [hsel])).trans (if_pos hlen)

theorem Dev.mbRun_safe (hlen : c.data.length = sp.len c) (hsafe : d.reg.safe = true) (hno : sp.safe = false) :
    d.mbRun sp f = d.mbReply c retBusy rBusy [] := by
  unfold Dev.mbRun
  rw [hfront]
  exact (if_neg (by simp [hsel])).trans ((if_neg (not_not.2 hlen)).trans (if_pos (by simp [hsafe, hno])))

variable (hlen : c.data.length = sp.len c) (hsafe : d.reg.safe = false)
include hlen hsafe

theorem Dev.mbRun_denied (hno : d.allowed c sp.right = false) : d.mbRun sp f = d.mbReply c retInvalid rDenied [] := by
  unfold Dev.mbRun
  rw [hfront]
  exact (if_neg (by simp [hsel])).trans ((if_neg (not_not.2 hlen)).trans ((if_neg (by simp [hsafe])).trans (if_pos (by simp [hno]))))

variable (hallow : d.allowed c sp.right = true)
include hallow

theorem Dev.mbRun_unclean (hno : c.clean (sp.fields c) = false) : d.mbRun sp f = d.mbReply c retInvalid rInvalid [] := by
  unfold Dev.mbRun
  rw [hfront]
  exact (if_neg (by simp [hsel])).trans ((if_neg (not_not.2 hlen)).trans ((if_neg (by simp [hsafe])).trans
    ((if_neg (by simp [hallow])).trans (if_pos (by simp [hno])))))

theorem Dev.mbRun_busy (hclean : c.clean (sp.fields c) = true)
    (hbusy : ((d.fatal && sp.start c) || (sp.bg c && d.bgFull c)) = true) : d.mbRun sp f = d.mbReply c retBusy rBusy [] := by
  unfold Dev.mbRun
  rw [hfront]
  exact (if_neg (by simp [hsel])).trans ((if_neg (not_not.2 hlen)).trans ((if_neg (by simp [hsafe])).trans
    ((if_neg (by simp [hallow])).trans ((if_neg (by simp [hclean])).trans (if_pos hbusy)))))

end

theorem Dev.bgFull_box {d : Dev} {c : MbCmd} (h : d.reg.bg.any (fun b => b.box = c.place) = true) : d.bgFull c = true :=
  Bool.or_eq_true_iff.2 (.inl h)

/-- A field that spans the payload leaves no byte outside. -/
theorem MbCmd.clean_whole {c : MbCmd} {n : Nat} (h : c.data.length = n) : c.clean [(0, n)] = true := by
  unfold MbCmd.clean
  rw [List.all_eq_true]
  intro p hp
  have hlt : p.1 < n := h ▸ List.mem_range.1 (List.of_mem_zip hp).1
  simp [hlt]

/-! ### What each context may issue (R393) -/

section
variable {d : Dev} {c : MbCmd}

theorem Dev.allowed_op_tenant {w : Nat} (h : d.ctx c = some (.wing w)) : d.allowed c .op = false := by
  unfold Dev.allowed
  rw [h]

theorem Dev.allowed_sec_tenant {w : Nat} (h : d.ctx c = some (.wing w)) : d.allowed c .sec = false := by
  unfold Dev.allowed
  rw [h]

theorem Dev.allowed_wing_other {w : Nat} (h : d.ctx c = some (.wing w)) (hw : c.num 0 1 ≠ w) : d.allowed c .wing = false := by
  unfold Dev.allowed
  rw [h]
  exact decide_eq_false hw

theorem Dev.allowed_region_other {w : Nat} (h : d.ctx c = some (.wing w)) (hw : d.regionWing (c.num 0 2) ≠ w) :
    d.allowed c .region = false := by
  unfold Dev.allowed
  rw [h]
  exact decide_eq_false hw

theorem Dev.allowed_operator {r : Right} (h : d.ctx c = some .operator) (hr : r ≠ .sec) : d.allowed c r = true := by
  unfold Dev.allowed
  rw [h]
  cases r with
  | sec => exact absurd rfl hr
  | op | wing | region => rfl

end

/-! ### Commands by their checks -/

/-- An instruction is the vendor command of an opcode, with the payload length and the right that its checks ask for; `safe`: it
also runs in safe mode (Table 16-5). -/
structure Vendor (i : Instr) (op len : Nat) (right : Right) (safe : Bool) : Prop where
  absent : ∀ s : State, s.dev.live = true → s.dev.mbFront op = none → exec i s = s.settling s.dev
  length : ∀ (s : State) (c : MbCmd), s.dev.live = true → s.dev.mbFront op = some c → c.data.length ≠ len →
    exec i s = s.settling (s.dev.mbReply c retLength rInvalid [])
  denied : ∀ (s : State) (c : MbCmd), s.dev.live = true → s.dev.mbFront op = some c → c.data.length = len → s.dev.reg.safe = false →
    s.dev.allowed c right = false → exec i s = s.settling (s.dev.mbReply c retInvalid rDenied [])
  busy : ∀ (s : State) (c : MbCmd), s.dev.live = true → s.dev.mbFront op = some c → c.data.length = len → s.dev.reg.safe = true →
    safe = false → exec i s = s.settling (s.dev.mbReply c retBusy rBusy [])

/-- A command that runs under the checks of a table row. -/
theorem Vendor.of_mbRun {i : Instr} {sp : MbSpec} {op len : Nat} {right : Right} {safe : Bool} {f : MbCmd → Dev → MbRes}
    (hi : ∀ s, exec i s = s.run fun d => d.mbRun sp f)
    (hrow : sp.op = op ∧ (∀ c, sp.len c = len) ∧ (∀ c, sp.sel c = true) ∧ sp.right = right ∧ sp.safe = safe) :
    Vendor i op len right safe := by
  obtain ⟨rfl, hlen, hsel, rfl, rfl⟩ := hrow
  have hrun (s : State) (e : Dev) (hl : s.dev.live = true) (he : s.dev.mbRun sp f = e) : exec i s = s.settling e :=
    (hi s).trans ((State.run_live _ hl).trans (congrArg s.settling he))
  exact {
    absent := fun s hl hf => hrun s _ hl (Dev.mbRun_absent hf)
    length := fun s c hl hf hn => hrun s _ hl (Dev.mbRun_length hf (hsel c) (by rwa [hlen]))
    denied := fun s c hl hf hn hs ha => hrun s _ hl (Dev.mbRun_denied hf (hsel c) (by rw [hlen, hn]) hs ha)
    busy := fun s c hl hf hn hs hno => hrun s _ hl (Dev.mbRun_safe hf (hsel c) (by rw [hlen, hn]) hs hno) }

/-- A WARM_RESET that is refused resets nothing. -/
theorem Dev.cmdWarmReset_refused {d e : Dev} {c : MbCmd} (hf : d.mbFront 0xC053 = some c)
    (hno : (c.data.isEmpty && !d.reg.safe && d.allowed c .op) = false)
    (he : d.mbRun (mbSpec 0xC053 0 []) (fun _ d => plain (rOk, d)) = e) : d.cmdWarmReset = e := by
  unfold Dev.cmdWarmReset
  rw [hf]
  dsimp only
  rw [hno, he]
  rfl

theorem vendor_warmReset : Vendor .warmReset 0xC053 0 .op false where
  absent s hl hf := (State.run_live Dev.cmdWarmReset hl).trans (congrArg s.settling (by unfold Dev.cmdWarmReset; rw [hf]))
  length s c hl hf hn := (State.run_live Dev.cmdWarmReset hl).trans (congrArg s.settling
    (Dev.cmdWarmReset_refused hf (by simp [List.length_eq_zero_iff.not.1 hn]) (Dev.mbRun_length hf rfl hn)))
  denied s c hl hf hn hs ha := (State.run_live Dev.cmdWarmReset hl).trans (congrArg s.settling
    (Dev.cmdWarmReset_refused hf (by simp [ha]) (Dev.mbRun_denied hf rfl hn hs ha)))
  busy s c hl hf hn hs _ := (State.run_live Dev.cmdWarmReset hl).trans (congrArg s.settling
    (Dev.cmdWarmReset_refused hf (by simp [hs]) (Dev.mbRun_safe hf rfl hn hs rfl)))

/-- Every command of a list of instructions, opcodes and lengths is a vendor command of this right. -/
def AllVendor (l : List (Instr × Nat × Nat)) (right : Right) (safe : Bool) : Prop :=
  ∀ p ∈ l, Vendor p.1 p.2.1 p.2.2 right safe

theorem AllVendor.nil {right : Right} {safe : Bool} : AllVendor [] right safe := fun _ h => absurd h List.not_mem_nil

theorem AllVendor.cons {i : Instr} {op len : Nat} {l : List (Instr × Nat × Nat)} {right : Right} {safe : Bool}
    (h : Vendor i op len right safe) (hl : AllVendor l right safe) : AllVendor ((i, op, len) :: l) right safe :=
  List.forall_mem_cons.2 ⟨h, hl⟩

/-- A row of the table, for a command that runs under its checks. -/
theorem AllVendor.row {i : Instr} {sp : MbSpec} {op len : Nat} {right : Right} {safe : Bool} {f : MbCmd → Dev → MbRes}
    {l : List (Instr × Nat × Nat)} (hi : ∀ s, exec i s = s.run fun d => d.mbRun sp f)
    (hrow : sp.op = op ∧ (∀ c, sp.len c = len) ∧ (∀ c, sp.sel c = true) ∧ sp.right = right ∧ sp.safe = safe)
    (hl : AllVendor l right safe) : AllVendor ((i, op, len) :: l) right safe :=
  AllVendor.cons (Vendor.of_mbRun hi hrow) hl

theorem AllVendor.append {l m : List (Instr × Nat × Nat)} {right : Right} {safe : Bool} (hl : AllVendor l right safe)
    (hm : AllVendor m right safe) : AllVendor (l ++ m) right safe :=
  List.forall_mem_append.2 ⟨hl, hm⟩

/-- Settles O47: the doorbell by its branches, the checks by the row of each command. -/
theorem mailboxChecks : Obligations.MailboxChecks := by
  unfold Obligations.MailboxChecks
  intro s hlive d
  refine ⟨?_, ?_⟩
  · intro box op data c
    refine ⟨fun h => ?_, fun hs hrun hq hop => ?_, fun hs hq hop => ?_⟩
    · exact exec_mailboxDoorbell hlive box op data (Dev.mailbox_ignores h)
    · exact exec_mailboxDoorbell hlive box op data (Dev.mailbox_unknown box.isLt hs hrun hq hop)
    · exact exec_mailboxDoorbell hlive box op data (Dev.mailbox_enters hs hq hop)
  intro pop t res pass rs opOnly inWing onRegion inSafe
  have hop : AllVendor opOnly .op false := by
    refine AllVendor.append ?_ ?_
    · repeat refine .row (fun _ => rfl) ⟨rfl, fun _ => rfl, fun _ => rfl, rfl, rfl⟩ ?_
      exact .nil
    · iterate 9 refine .row (fun _ => rfl) ⟨rfl, fun _ => rfl, fun _ => rfl, rfl, rfl⟩ ?_
      exact .cons vendor_warmReset .nil
  have hwing : AllVendor inWing .wing false := by
    repeat refine .row (fun _ => rfl) ⟨rfl, fun _ => rfl, fun _ => rfl, rfl, rfl⟩ ?_
    exact .nil
  have hregion : AllVendor onRegion .region false := by
    repeat refine .row (fun _ => rfl) ⟨rfl, fun _ => rfl, fun _ => rfl, rfl, rfl⟩ ?_
    exact .nil
  have hany : AllVendor inSafe .op true := by
    repeat refine .row (fun _ => rfl) ⟨rfl, fun _ => rfl, fun _ => rfl, rfl, rfl⟩ ?_
    exact .nil
  clear_value opOnly inWing onRegion inSafe
  have hall : ∀ p ∈ opOnly ++ inWing ++ onRegion ++ inSafe, ∃ right safe, Vendor p.1 p.2.1 p.2.2 right safe :=
    List.forall_mem_append.2 ⟨List.forall_mem_append.2 ⟨List.forall_mem_append.2 ⟨fun p hp => ⟨_, _, hop p hp⟩,
      fun p hp => ⟨_, _, hwing p hp⟩⟩, fun p hp => ⟨_, _, hregion p hp⟩⟩, fun p hp => ⟨_, _, hany p hp⟩⟩
  have hbusy : ∀ p ∈ opOnly ++ inWing ++ onRegion, ∃ right, Vendor p.1 p.2.1 p.2.2 right false :=
    List.forall_mem_append.2 ⟨List.forall_mem_append.2 ⟨fun p hp => ⟨_, hop p hp⟩, fun p hp => ⟨_, hwing p hp⟩⟩,
      fun p hp => ⟨_, hregion p hp⟩⟩
  refine ⟨fun p hp hf => ?_, fun p hp c hf hn => ?_, fun hsafe c w hctx => ⟨?_, fun p hp hf hn hw => ?_, fun p hp hf hn hw => ?_,
    fun hf hn => ?_⟩, fun hsafe c hctx => ⟨fun hf hn hfatal => ?_, fun hf hn hno => ?_, fun hf hn hfatal => ?_,
    fun hf hn hclean hbg => ?_⟩, fun hsafe p hp c hf hn => ?_⟩
  · obtain ⟨_, _, hv⟩ := hall p hp
    exact hv.absent s hlive hf
  · obtain ⟨_, _, hv⟩ := hall p hp
    exact hv.length s c hlive hf hn
  -- the right of the context
  · have hdenied : d.allowed c .op = false := Dev.allowed_op_tenant hctx
    exact List.forall_mem_append.2 ⟨fun p hp hf hn => (hop p hp).denied s c hlive hf hn hsafe hdenied,
      fun p hp hf hn => (hany p hp).denied s c hlive hf hn hsafe hdenied⟩
  · exact (hwing p hp).denied s c hlive hf hn hsafe (Dev.allowed_wing_other hctx hw)
  · exact (hregion p hp).denied s c hlive hf hn hsafe (Dev.allowed_region_other hctx hw)
  · exact (State.run_live _ hlive).trans (congrArg s.settling
      (Dev.mbRun_denied hf rfl hn hsafe (Dev.allowed_sec_tenant hctx)))
  -- FATAL, the payload, the mailbox's background command
  · exact (State.run_live _ hlive).trans (congrArg s.settling (Dev.mbRun_busy hf rfl hn hsafe
      (Dev.allowed_operator hctx (by decide)) (MbCmd.clean_whole hn) (by rw [hfatal]; rfl)))
  · exact (State.run_live _ hlive).trans (congrArg s.settling (Dev.mbRun_unclean hf rfl hn hsafe
      (Dev.allowed_operator hctx (by decide)) hno))
  · exact (State.run_live _ hlive).trans (congrArg s.settling (Dev.mbRun_busy hf rfl hn hsafe
      (Dev.allowed_operator hctx (by decide)) (MbCmd.clean_whole hn) (by rw [hfatal]; rfl)))
  · exact (State.run_live _ hlive).trans (congrArg s.settling (Dev.mbRun_busy hf rfl hn hsafe
      (Dev.allowed_operator hctx (by decide)) hclean (Bool.or_eq_true_iff.2 (.inr (Dev.bgFull_box hbg)))))
  -- safe mode
  · obtain ⟨_, hv⟩ := hbusy p hp
    exact hv.busy s c hlive hf hn hsafe rfl

end Sys2Proof.Machine
end

section
/-! SUPPORT. The standard mailbox commands (Table 16-4, R398, R402). -/

namespace Sys2Proof.Machine

/-! ### The front of the queue -/

section
variable {d : Dev} {c : MbCmd} {rest : List MbCmd}

theorem Dev.mbFront_head (hrun : d.reg.running = true) (hq : d.reg.cmdQ = c :: rest) {op : Nat} (hop : c.op = op) :
    d.mbFront op = some c := by
  unfold Dev.mbFront
  rw [hq]
  exact if_pos (by simp [hrun, hop])

theorem Dev.mbReplyCxl_front (hq : d.reg.cmdQ = c :: rest) (hbox : c.box < 64) (ret : Nat) (vals : List Nat) :
    d.mbReplyCxl c ret vals = ({ d with reg := { d.reg with cmdQ := rest } } : Dev).send (.cxl c.box c.op ret vals) := by
  have hgone : eraseOne c d.reg.cmdQ = rest := by rw [hq]; exact if_pos rfl
  unfold Dev.mbReplyCxl
  rw [hgone]
  exact if_neg (Nat.not_le.2 hbox)

/-- The MCTP box is the operator's (R393). -/
theorem Dev.ctx_mctp (h : c.place = 32) : d.ctx c = some .operator := by
  unfold Dev.ctx
  rw [h]
  rfl

end

/-! ### One standard command -/

section
variable {s : State} {c : MbCmd} {rest : List MbCmd} {i : Instr} {op : Nat} {opOnly safe : Bool}
  {f : MbCmd → Dev → Nat × List Nat × Dev} {t : Ctx}
variable (hlive : s.dev.live = true) (hrun : s.dev.reg.running = true) (hsafe : s.dev.reg.safe = false)
  (hq : s.dev.reg.cmdQ = c :: rest)
include hlive hrun hsafe hq

/-- A context that may issue the command gets what its rule says. -/
theorem exec_std {ret : Nat} {vals : List Nat} {e : Dev} (ht : s.dev.ctx c = some t) (hsec : t ≠ .secured) (hop : c.op = op)
    (hi : exec i s = s.run fun d => d.mbStd op opOnly safe f) (hwho : opOnly = true → t = .operator)
    (hf : f c s.dev = (ret, vals, e)) : exec i s = s.settling (e.mbReplyCxl c ret vals) := by
  refine exec_run_live hlive hi ?_
  unfold Dev.mbStd
  rw [Dev.mbFront_head hrun hq hop]
  dsimp only
  rw [ht, if_neg (by simp [hsafe])]
  dsimp only
  rw [if_neg (by simpa [hsec] using hwho), hf]

/-- The secured session, and a tenant at a command of the operator, are refused. -/
theorem exec_std_refused (ht : s.dev.ctx c = some t) (hop : c.op = op)
    (hi : exec i s = s.run fun d => d.mbStd op opOnly safe f) (hno : t = .secured ∨ opOnly = true ∧ t ≠ .operator) :
    exec i s = s.settling (s.dev.mbReplyCxl c retInvalid []) := by
  refine exec_run_live hlive hi ?_
  unfold Dev.mbStd
  rw [Dev.mbFront_head hrun hq hop]
  dsimp only
  rw [ht, if_neg (by simp [hsafe])]
  exact if_pos (by simpa using hno)

/-- A command of the Fabric Manager API, over MCTP. -/
theorem exec_fm {ret : Nat} {vals : List Nat} {e : Dev} (hbox : c.place = 32) (hop : c.op = op)
    (hi : exec i s = s.run fun d => d.mbFm op f) (hf : f c s.dev = (ret, vals, e)) :
    exec i s = s.settling (e.mbReplyCxl c ret vals) :=
  exec_std hlive hrun hsafe hq (Dev.ctx_mctp hbox) (by decide) hop hi (fun _ => rfl) ((if_pos hbox).trans hf)

end

/-! ### The rules of the commands -/

section
variable {d : Dev} {c : MbCmd}

theorem Dev.onType3_type3 {h : HeadId} (hp : d.personality h = 3) (x : Nat × List Nat × Dev) : d.onType3 h x = x := if_pos hp

theorem Dev.onType3_other {h : HeadId} (hp : d.personality h ≠ 3) (x : Nat × List Nat × Dev) :
    d.onType3 h x = (retUnsupported, [], d) := if_neg hp

end

/-- A slot of an image that does not run takes a transfer. -/
theorem slotTaken_not {slot active : Nat} (hlo : 1 ≤ slot) (hhi : slot ≤ 3) (h : slot ≠ active) (first : Bool) :
    ¬(first && (slot = 0 || slot > 3 || slot = active)) = true := by
  have h0 : slot ≠ 0 := by omega
  have h3 : ¬slot > 3 := by omega
  simp [h0, h3, h]

/-- The slots of the registrar's images. -/
theorem imageSlot {slot : Nat} (h : slot = 1 ∨ slot = 2) : ¬(slot = 0 || slot > 2) = true := by
  rcases h with rfl | rfl <;> decide

/-- The device with an image activated in a slot, which the boot record names (R391, R402). -/
def Dev.imageActive (d : Dev) (slot version : Nat) : Dev :=
  { d with reg := { d.reg with
      slot := slot, fwVer := Fmap.put d.reg.fwVer slot version, bootGen := d.reg.bootGen + 1, bootOver := slot } }

section
variable {s : State} {c : MbCmd} {rest : List MbCmd} (hlive : s.dev.live = true) (hrun : s.dev.reg.running = true)
  (hsafe : s.dev.reg.safe = false) (hq : s.dev.reg.cmdQ = c :: rest) (ht : s.dev.ctx c = some .operator) (hop : c.op = 0x0202)
  (hlen : c.data.length = 2) (hact : c.num 0 1 = 0) (hslot : c.num 1 1 = 1 ∨ c.num 1 1 = 2) (hother : c.num 1 1 ≠ s.dev.reg.slot)
include hlive hrun hsafe hq ht hop hlen hact hslot hother

/-- An activation that nothing holds up ends as the image verifies and checks itself. -/
theorem exec_activateFw_online (hbg : s.dev.reg.bg = []) (hrel : ∀ w, w < 16 → s.dev.wgState w ≠ wgReleasing) (ok good : Bool)
    (v : Nat) : exec (.activateFw ok good v) s =
      if !ok then s.settling (s.dev.mbReplyCxl c 0xA []) else if !good then s.settling (s.dev.mbReplyCxl c 0xC []) else
        s.settling ((s.dev.imageActive (c.num 1 1) v).mbReplyCxl c 0 []) := by
  have hfree : ¬(!s.dev.reg.bg.isEmpty || (List.range 16).any (fun w => s.dev.wgState w = wgReleasing)) = true := by
    simp only [hbg, List.isEmpty_nil, Bool.not_true, Bool.false_or, List.any_eq_true, List.mem_range, decide_eq_true_eq]
    exact fun ⟨w, hw, hst⟩ => hrel w hw hst
  have hrule : ∀ r : Nat × List Nat × Dev, (if !ok then (retFwVerify, [], s.dev) else if !good then (retFwRolledBack, [], s.dev)
      else (retOk, [], s.dev.imageActive (c.num 1 1) v)) = r →
      exec (.activateFw ok good v) s = s.settling (r.2.2.mbReplyCxl c r.1 r.2.1) := fun r hr =>
    exec_std hlive hrun hsafe hq ht (by decide) hop rfl (fun _ => rfl)
      ((if_neg (not_not.2 hlen)).trans ((if_neg (by rw [hact]; decide)).trans ((if_neg (imageSlot hslot)).trans
        ((if_neg (by rw [hact]; decide)).trans ((if_neg hother).trans ((if_neg hfree).trans hr))))))
  cases ok with
  | false => exact hrule (retFwVerify, [], s.dev) rfl
  | true =>
    cases good with
    | false => exact hrule (retFwRolledBack, [], s.dev) rfl
    | true => exact hrule (retOk, [], s.dev.imageActive (c.num 1 1) v) rfl

end

/-- Settles O48: each command by the branch of its rule. -/
theorem standardCommands : Obligations.StandardCommands := by
  unfold Obligations.StandardCommands
  intro s c rest hlive hrun hsafe hq hbox d h x ans reg wing
  refine ⟨fun ret vals => Dev.mbReplyCxl_front hq hbox ret vals, fun ht hop => ?_, fun t ht hsec => ?_, fun ht => ?_, fun hplace => ?_⟩
  · exact exec_std_refused hlive hrun hsafe hq ht hop rfl (.inl rfl)
  · refine ⟨fun hop => ?_, fun hop b hb => ?_, fun hop => ?_, fun hop hlen hlo hhi => ?_, fun hop hb r hjob => ⟨fun hst => ?_, fun hst => ?_⟩,
      fun hop hlen hlog => ?_, fun hop hlen hn hlog hall => ?_, fun hop => ?_, fun hop hlen => ?_, fun hop => ?_, fun hop hlen => ?_,
      fun hop => ?_, fun hop => ?_, fun hop => ?_, fun hop => ?_, fun hop => ?_, fun hop hlen => ?_, fun hp hop => ?_,
      fun hp => ⟨fun hop => ?_, fun hop => ?_, fun e hok hes hdc => ⟨fun hop hst => ?_, fun hop hst => ?_⟩⟩,
      fun hwho => ⟨fun hop => ?_, fun hop => ?_, fun hop v k n => ?_⟩⟩
    · exact exec_std hlive hrun hsafe hq ht hsec hop rfl nofun rfl
    · refine exec_std hlive hrun hsafe hq ht hsec hop rfl nofun ?_
      rw [hb]
      rfl
    · exact exec_std hlive hrun hsafe hq ht hsec hop rfl nofun rfl
    · exact exec_std hlive hrun hsafe hq ht hsec hop rfl nofun
        ((if_neg (not_not.2 hlen)).trans (if_neg (by simp [hlo, hhi])))
    -- the mailbox's last run
    · refine exec_std hlive hrun hsafe hq ht hsec hop rfl nofun ?_
      rw [hb, hjob]
      exact if_pos (by simp [show s.dev.rgState r = rgRunning from hst])
    · refine exec_std hlive hrun hsafe hq ht hsec hop rfl nofun ?_
      rw [hb, hjob]
      exact if_neg (by rw [show s.dev.rgState r = rgOpen from hst]; decide)
    -- event records
    · exact exec_std hlive hrun hsafe hq ht hsec hop rfl nofun ((if_neg (not_not.2 hlen)).trans (if_neg (Nat.not_lt.2 hlog)))
    · refine exec_std hlive hrun hsafe hq ht hsec hop rfl nofun ?_
      refine (if_neg (by simp [hlen, hn])).trans ((if_neg (Nat.not_lt.2 hlog)).trans ?_)
      dsimp only
      rw [List.filter_eq_self.2 (fun r _ => by simp [hall])]
      rfl
    · exact exec_std hlive hrun hsafe hq ht hsec hop rfl nofun rfl
    · exact exec_std hlive hrun hsafe hq ht hsec hop rfl nofun (if_neg (by simp [hlen]))
    -- time stamp, logs, memory device, alerts
    · exact exec_std hlive hrun hsafe hq ht hsec hop rfl nofun rfl
    · exact exec_std hlive hrun hsafe hq ht hsec hop rfl nofun (if_neg (not_not.2 hlen))
    · exact exec_std hlive hrun hsafe hq ht hsec hop rfl nofun rfl
    · exact exec_std hlive hrun hsafe hq ht hsec hop rfl nofun rfl
    · exact exec_std hlive hrun hsafe hq ht hsec hop rfl nofun rfl
    · exact exec_std hlive hrun hsafe hq ht hsec hop rfl nofun rfl
    · exact exec_std hlive hrun hsafe hq ht hsec hop rfl nofun rfl
    · exact exec_std hlive hrun hsafe hq ht hsec hop rfl nofun (if_neg (Nat.not_lt.2 hlen))
    -- Dynamic Capacity
    · exact exec_std hlive hrun hsafe hq ht hsec hop rfl nofun (Dev.onType3_other hp _)
    · exact exec_std hlive hrun hsafe hq ht hsec hop rfl nofun (Dev.onType3_type3 hp _)
    · exact exec_std hlive hrun hsafe hq ht hsec hop rfl nofun (Dev.onType3_type3 hp _)
    · refine exec_std hlive hrun hsafe hq ht hsec hop rfl nofun ((Dev.onType3_type3 hp _).trans ?_)
      refine (if_neg (by simp [hok])).trans ((if_neg ?_).trans ?_)
      · simp [hes, show (s.dev.head c.head).dc = [e] from hdc, hst]
      · simp [hes, show (s.dev.head c.head).dc = [e] from hdc, hst]
        exact ⟨rfl, rfl⟩
    · refine exec_std hlive hrun hsafe hq ht hsec hop rfl nofun ((Dev.onType3_type3 hp _).trans ?_)
      refine (if_neg (by simp [hok])).trans ((if_neg ?_).trans ?_)
      · simp [hes, show (s.dev.head c.head).dc = [e] from hdc, hst]
      · simp [hes, show (s.dev.head c.head).dc = [e] from hdc, hst]
        exact ⟨rfl, rfl⟩
    -- firmware commands of a tenant
    · exact exec_std_refused hlive hrun hsafe hq ht hop rfl (.inr ⟨rfl, hwho⟩)
    · exact exec_std_refused hlive hrun hsafe hq ht hop rfl (.inr ⟨rfl, hwho⟩)
    · exact exec_std_refused hlive hrun hsafe hq ht hop rfl (.inr ⟨rfl, hwho⟩)
  · intro slot n
    refine ⟨fun hop => ?_, fun hop hlen hxfer hlo hhi hslot => ⟨fun hact => ?_, fun hact hoff => ?_, fun hact => ?_⟩,
      fun hop hlen hslot ok good v => ⟨fun hact => ?_, fun hact hother => ⟨fun hbg => ?_, fun hbg hrel => ?_⟩⟩⟩
    · exact exec_std hlive hrun hsafe hq ht (by decide) hop rfl (fun _ => rfl) rfl
    -- TRANSFER_FW
    · refine exec_std hlive hrun hsafe hq ht (by decide) hop rfl (fun _ => rfl) ?_
      refine (if_neg (Nat.not_lt.2 hlen)).trans ((if_neg (by rw [hact]; decide)).trans ((if_neg (by rw [hact]; decide)).trans
        ((if_neg (slotTaken_not hlo hhi hslot _)).trans ?_)))
      rw [hact, hxfer]
      rfl
    · refine exec_std hlive hrun hsafe hq ht (by decide) hop rfl (fun _ => rfl) ?_
      refine (if_neg (Nat.not_lt.2 hlen)).trans ((if_neg (by rw [hact]; decide)).trans ((if_neg (by rw [hact]; decide)).trans
        ((if_neg (slotTaken_not hlo hhi hslot _)).trans ?_)))
      rw [hact, hxfer]
      dsimp only
      rw [if_neg (not_not.2 hoff)]
      rfl
    · refine exec_std hlive hrun hsafe hq ht (by decide) hop rfl (fun _ => rfl) ?_
      refine (if_neg (Nat.not_lt.2 hlen)).trans ((if_neg (by rw [hact]; decide)).trans ((if_neg (by rw [hact]; decide)).trans
        ((if_neg (slotTaken_not hlo hhi hslot _)).trans ?_)))
      rw [hact, hxfer]
      rfl
    -- ACTIVATE_FW
    · refine exec_std hlive hrun hsafe hq ht (by decide) hop rfl (fun _ => rfl) ?_
      exact (if_neg (not_not.2 hlen)).trans ((if_neg (by rw [hact]; decide)).trans ((if_neg (imageSlot hslot)).trans (if_pos hact)))
    · refine exec_std hlive hrun hsafe hq ht (by decide) hop rfl (fun _ => rfl) ?_
      refine (if_neg (not_not.2 hlen)).trans ((if_neg (by rw [hact]; decide)).trans ((if_neg (imageSlot hslot)).trans
        ((if_neg (by rw [hact]; decide)).trans ((if_neg hother).trans (if_pos ?_)))))
      simp [show s.dev.reg.bg ≠ [] from hbg]
    · exact exec_activateFw_online hlive hrun hsafe hq ht hop hlen hact hslot hother hbg hrel ok good v
  · intro g y a m types
    refine ⟨fun hop => ?_, fun hop he => ?_, fun hop => ?_, fun hp => ⟨fun hop => ?_, fun hop => ?_,
      fun hlen hh hr ha hm hm' hown => ⟨fun hop hdc => ?_, fun hop hfatal hdc hreg => ?_, fun hop hdc => ?_⟩⟩⟩
    · exact exec_fm hlive hrun hsafe hq hplace hop rfl rfl
    · exact exec_fm hlive hrun hsafe hq hplace hop rfl (if_neg (by simp [show s.dev.headExists (c.num 0 1) = true from he]))
    · exact exec_fm hlive hrun hsafe hq hplace hop rfl rfl
    · exact exec_fm hlive hrun hsafe hq hplace hop rfl (Dev.onType3_type3 hp _)
    · exact exec_fm hlive hrun hsafe hq hplace hop rfl (Dev.onType3_type3 hp _)
    · refine exec_fm hlive hrun hsafe hq hplace hop rfl ((Dev.onType3_type3 hp _).trans ((if_neg (not_not.2 hlen)).trans
        ((if_neg ?_).trans (if_neg ?_))))
      · have hown' : s.dev.ownsRange (s.dev.headWing (BitVec.ofNat 4 (c.num 0 1))) (c.num 8 8) (c.num 16 8) = true := hown
        rw [hown', show c.num 8 8 % 2 ^ 28 = 0 from ha, show c.num 16 8 % 2 ^ 28 = 0 from hm]
        simp [hh, hr]
      · simp [show (s.dev.head (BitVec.ofNat 4 (c.num 0 1))).dc = [] from hdc]
    · have hg : (s.dev.head (BitVec.ofNat 4 (c.num 0 1))).dc = [] := hdc
      have hown' : s.dev.ownsRange (s.dev.headWing (BitVec.ofNat 4 (c.num 0 1))) (c.num 8 8) (c.num 16 8) = true := hown
      have hreg' : Fmap.get {} (s.dev.head (BitVec.ofNat 4 (c.num 0 1))).dcRegions (c.num 1 1) = ⟨c.num 8 8, c.num 16 8, false⟩ := hreg
      refine exec_fm hlive hrun hsafe hq hplace hop rfl ((Dev.onType3_type3 hp _).trans ((if_neg (not_not.2 hlen)).trans
        ((if_neg (by simp [show s.dev.fatal = false from hfatal])).trans ((if_neg ?_).trans ?_))))
      · rw [hown', hreg', hg, show c.num 8 8 % 2 ^ 28 = 0 from ha, show c.num 16 8 % 2 ^ 28 = 0 from hm]
        simp [hh, hr, show c.num 16 8 ≠ 0 from hm']
      · rw [hg]
        rfl
    · have hg : (s.dev.head (BitVec.ofNat 4 (c.num 0 1))).dc = [⟨c.num 1 1, c.num 8 8, c.num 16 8, .accepted⟩] := hdc
      refine exec_fm hlive hrun hsafe hq hplace hop rfl ((Dev.onType3_type3 hp _).trans ((if_neg (not_not.2 hlen)).trans
        ((if_neg ?_).trans ?_)))
      · rw [hg]
        simp
      · rw [hg]
        simp [updateIf]
        exact ⟨rfl, rfl⟩

end Sys2Proof.Machine
end

section
/-! SUPPORT. Configuration requests, the expansion ROM, Bus Master Enable and interrupts of a head (R324, R328 to R331). -/

namespace Sys2Proof.Machine

/-! ### Configuration space -/

theorem foldl_four (g : Nat → Nat) : (List.range 4).foldl (fun (u : Nat) i => u + g i) 0 = g 0 + g 1 + g 2 + g 3 := by
  simp [List.range_succ]

/-- With every byte enabled a dword is the new one. -/
theorem byteMerge_all (old : Nat) {v : Nat} (hv : v < 2 ^ 32) : byteMerge 15 old v = v := by
  have hon : ∀ i ∈ List.range 4, (15 : BitVec 4).getLsbD i = true := by decide
  have hbytes : byteMerge 15 old v = (List.range 4).foldl (fun (u : Nat) i => u + v / 256 ^ i % 256 * 256 ^ i) 0 :=
    List.foldl_ext _ _ _ fun u i hi => by rw [hon i hi, if_pos rfl]
  rw [hbytes, foldl_four (fun i => v / 256 ^ i % 256 * 256 ^ i)]
  omega

section
variable {d : Dev} {h : HeadId} (hs : d.served h = true)
include hs

theorem Dev.cfgRead_retry (o : Nat) (hr : (d.head h).rrs = true) : d.cfgRead h o = d.send (.cfgRetry h) := by
  unfold Dev.cfgRead
  rw [if_neg (by simp [hs]), if_pos hr]

theorem Dev.cfgRead_data (o : Nat) (hr : (d.head h).rrs = false) :
    d.cfgRead h o = d.send (.cfgData h (d.cfgDword h (o / 4 * 4))) := by
  unfold Dev.cfgRead
  rw [if_neg (by simp [hs]), if_neg (by simp [hr])]

theorem Dev.cfgWrite_retry (o : Nat) (be : BitVec 4) (v : Nat) (hr : (d.head h).rrs = true) :
    d.cfgWrite h o be v = d.send (.cfgRetry h) := (if_neg (by simp [hs])).trans (if_pos hr)

/-- A write of a whole dword sets the writable fields from it. -/
theorem Dev.cfgWrite_whole (o : Nat) (v : W32) (hr : (d.head h).rrs = false) :
    d.cfgWrite h o 15 v.toNat = d.cfgSet h (o / 4 * 4) v.toNat := by
  refine (if_neg (by simp [hs])).trans ((if_neg (by simp [hr])).trans ?_)
  dsimp only
  rw [Nat.mod_eq_of_lt v.isLt, byteMerge_all _ v.isLt]

/-! ### The expansion ROM and Bus Master Enable -/

theorem Dev.romRead_on (o n : Nat) (hb : d.barsOn h = true) :
    d.romRead h o n = d.send (.romData h ((List.range n).map (fun i => d.romByte h (o + i)))) :=
  (if_neg (by simp [hs])).trans (if_neg (by simp [hb]))

theorem Dev.romRead_off (o n : Nat) (hb : d.barsOn h = false) :
    d.romRead h o n = (d.aer h .unsupported true).send (.unsupported h) :=
  (if_neg (by simp [hs])).trans (if_pos (by simp [hb]))

theorem Dev.bmeClear_set (hb : (d.head h).bme = true) : d.bmeClear h =
    (d.setHead h { d.head h with bme := false, bmeOff := some d.tick }).setFld Fld.HEAD_STATUS_MASTER_QUIESCED h.toNat 1 :=
  if_neg (by simp [hs, hb])

theorem Dev.bmeSet_clear (hb : (d.head h).bme = false) : d.bmeSet h =
    let x := d.head h
    let d1 := d.setHead h { x with bme := true, bmeOff := none, bmeBroken := false, outs := x.outs ++ x.waiting, waiting := [] }
    let d2 := ((x.waiting.foldl (fun d r => d.send (.cacheReq h r)) d1).atsResume h).setFld Fld.HEAD_STATUS_MASTER_QUIESCED h.toNat 0
    ((d2.healPath h).showNp h).flushIrqs h :=
  if_neg (by simp [hs, hb])

omit hs in
theorem Dev.bmeTimeout_due {t : Nat} (ht : (d.head h).bmeOff = some t) (hdue : t + 10000 ≤ d.tick) :
    d.bmeTimeout h = (d.setHead h { d.head h with bmeOff := none, bmeBroken := true }).breakPath h := by
  unfold Dev.bmeTimeout
  rw [ht]
  exact if_pos hdue

/-! ### Interrupts -/

theorem Dev.intUnmask_msix {v : Nat} (hv : v < 256) (hx : (d.head h).msixEn = true) : d.intUnmask h v =
    (d.setHead h { d.head h with
      msix := Fmap.put (d.head h).msix v ((d.head h).msixEntry v &&& ~~~((1 : BitVec 128) <<< 96)) }).flushIrqs h := by
  refine (if_neg (by simp [hs])).trans ((if_pos hx).trans ?_)
  rw [Nat.mod_eq_of_lt hv]

theorem Dev.intUnmask_msi (v : Nat) (hx : (d.head h).msixEn = false) : d.intUnmask h v =
    (d.setHead h { d.head h with msiMask := (d.head h).msiMask &&& ~~~((1 : BitVec 32) <<< (v % 32)) }).flushIrqs h :=
  (if_neg (by simp [hs])).trans (if_neg (by simp [hx]))

end

section
variable {d : Dev} {h : HeadId} (hi : (d.head h).inta = true)
include hi

theorem Dev.driveInta_none (hp : d.fld Fld.HEAD_INT_PENDING_PEND h.toNat = 0) :
    d.driveInta h = (d.setHead h { d.head h with inta := false }).send (.deassertInta h) := by
  have hwant : (!(d.head h).intxOff && d.fld Fld.HEAD_INT_PENDING_PEND h.toNat ≠ 0 &&
      d.fld Fld.HEAD_STATUS_FLR_ACTIVE h.toNat = 0 : Bool) = false := by simp [hp]
  unfold Dev.driveInta
  dsimp only
  rw [hwant, hi]
  rfl

theorem Dev.driveInta_some (hp : d.fld Fld.HEAD_INT_PENDING_PEND h.toNat ≠ 0) (hon : (d.head h).intxOff = false)
    (hflr : d.fld Fld.HEAD_STATUS_FLR_ACTIVE h.toNat = 0) : d.driveInta h = d := by
  have hwant : (!(d.head h).intxOff && d.fld Fld.HEAD_INT_PENDING_PEND h.toNat ≠ 0 &&
      d.fld Fld.HEAD_STATUS_FLR_ACTIVE h.toNat = 0 : Bool) = true := by simp [hp, hon, hflr]
  unfold Dev.driveInta
  dsimp only
  rw [hwant, hi]
  rfl

end

/-- A held half leaves the rest of the head's state. -/
theorem Dev.dropHalf_head (d : Dev) (h : HeadId) (c : Card) (i : Nat) :
    ∃ m, (d.dropHalf h c i).head h = { d.head h with halves := m } := by
  unfold Dev.dropHalf
  split
  · exact ⟨_, rfl⟩
  · exact ⟨_, Dev.setHead_head_same ..⟩

/-- Settles O42: each command by the branch of its rule. -/
theorem headRegisters : Obligations.HeadRegisters := by
  unfold Obligations.HeadRegisters
  intro s h hlive hs d x
  have runs {i : Instr} {f : Dev → Dev} {e : Dev} (hi : exec i s = s.run f) (hf : f d = e) : exec i s = s.settling e :=
    exec_run_live hlive hi hf
  refine ⟨fun o => ⟨fun hr => ?_, fun hr => ?_, fun be v hr => ?_⟩, fun hr v => ⟨?_, ?_, ?_⟩, fun o len => ⟨fun hb => ?_, fun hb => ?_⟩,
    fun hb => ?_, ?_, fun t ht hdue => ?_, fun v hx => ?_, fun v hx => ?_, ?_⟩
  · exact runs (f := fun d => d.cfgRead h o.toNat) rfl (Dev.cfgRead_retry hs _ hr)
  · exact runs (f := fun d => d.cfgRead h o.toNat) rfl (Dev.cfgRead_data hs _ hr)
  · exact runs (f := fun d => d.cfgWrite h o.toNat be v.toNat) rfl (Dev.cfgWrite_retry hs _ _ _ hr)
  · exact runs (f := fun d => d.cfgWrite h 0x18 15 v.toNat) rfl (Dev.cfgWrite_whole hs _ v hr)
  · refine runs (f := fun d => d.cfgWrite h 0x108 15 v.toNat) rfl ((Dev.cfgWrite_whole hs _ v hr).trans ?_)
    exact congrArg (fun w => d.setHead h { x with uncMask := w &&& 0x10577010 }) (BitVec.ofNat_toNat 32 v)
  · refine runs (f := fun d => d.cfgWrite h 0x104 15 v.toNat) rfl ((Dev.cfgWrite_whole hs _ v hr).trans ?_)
    exact congrArg (fun w => d.setHead h { x with uncStatus := x.uncStatus &&& ~~~w }) (BitVec.ofNat_toNat 32 v)
  · exact runs (f := fun d => d.romRead h o.toNat len) rfl (Dev.romRead_on hs _ _ hb)
  · exact runs (f := fun d => d.romRead h o.toNat len) rfl (Dev.romRead_off hs _ _ hb)
  · exact runs (f := fun d => d.bmeClear h) rfl (Dev.bmeClear_set hs hb)
  · intro hb d1 d2
    exact runs (f := fun d => d.bmeSet h) rfl (Dev.bmeSet_clear hs hb)
  · exact runs (f := fun d => d.bmeTimeout h) rfl (Dev.bmeTimeout_due ht hdue)
  · exact runs (f := fun d => d.intUnmask h v.toNat) rfl (Dev.intUnmask_msix hs v.isLt hx)
  · exact runs (f := fun d => d.intUnmask h v.toNat) rfl (Dev.intUnmask_msi hs _ hx)
  · intro hw hinta m d1
    obtain ⟨halves, hhead⟩ := d.dropHalf_head h Crd.HEAD_INT_PENDING h.toNat
    have hd1 : d1.head h = { x with halves := halves } := hhead
    have hset (e : Dev) (he : d1.driveInta h = e) : exec (.intxPendingClear h m) s = s.settling e :=
      runs (f := fun d => d.wideWrite h .headCtl Crd.HEAD_INT_PENDING h.toNat (fun d => d.intxClear h m)) rfl
        ((Dev.barWrite_writes hs _ hw).trans he)
    refine ⟨fun hp => ?_, fun hp hon hflr => ?_⟩
    · exact hset _ (Dev.driveInta_none (by rw [hd1]; exact hinta) hp)
    · refine hset _ (Dev.driveInta_some (by rw [hd1]; exact hinta) hp (by rw [hd1]; exact hon) ?_)
      exact (Dev.fld_setFld_ne _ _ _ _ _ _ (by decide)).trans ((Dev.dropHalf_fld ..).trans hflr)

end Sys2Proof.Machine
end

section
/-! SUPPORT. Flits, breaks and training of an Ikiquel port (R346 to R365). -/

namespace Sys2Proof.Machine

/-! ### The epoch (R363) -/

section
variable {a b : Nat}

theorem range_256 : List.range 256 = 0 :: 1 :: (List.range 254).map (· + 2) := by decide +kernel

theorem nextEpoch_first (h : (max a b + 1) % 256 ≠ a ∧ (max a b + 1) % 256 ≠ b) : nextEpoch a b = (max a b + 1) % 256 := by
  simp [nextEpoch, range_256, h]

theorem nextEpoch_second (h : ¬((max a b + 1) % 256 ≠ a ∧ (max a b + 1) % 256 ≠ b))
    (h2 : (max a b + 2) % 256 ≠ a ∧ (max a b + 2) % 256 ≠ b) : nextEpoch a b = (max a b + 2) % 256 := by
  have h1 : ((max a b + 1) % 256 ≠ a && (max a b + 1) % 256 ≠ b : Bool) = false := by simpa using h
  simp only [nextEpoch, range_256, List.map_cons, List.find?_cons, Nat.add_zero, h1]
  simp [Nat.add_assoc, h2]

/-- Only from 255 and 0 is the first candidate taken, and then the second is 1. -/
theorem nextEpoch_fresh : nextEpoch a b < 256 ∧ nextEpoch a b ≠ a ∧ nextEpoch a b ≠ b ∧
    (nextEpoch a b = (max a b + 1) % 256 ∨ nextEpoch a b = (max a b + 2) % 256) := by
  by_cases h : (max a b + 1) % 256 ≠ a ∧ (max a b + 1) % 256 ≠ b
  · rw [nextEpoch_first h]
    exact ⟨Nat.mod_lt _ (by decide), h.1, h.2, .inl rfl⟩
  · have h2 : (max a b + 2) % 256 ≠ a ∧ (max a b + 2) % 256 ≠ b := by omega
    rw [nextEpoch_second h h2]
    exact ⟨Nat.mod_lt _ (by decide), h2.1, h2.2, .inr rfl⟩

end

/-! ### Breaks (R362, R364) -/

section
variable {d : Dev} {q : PortId}

/-- The port is empty and DOWN, and the break is counted and reported. -/
def Dev.portEmptied (d : Dev) (q : PortId) : Dev :=
  ((((d.setPort q { d.port q with outs := [], queue := [], replay := [], rx := [], starved := [], resends := 0,
                                  brokenAt := some d.tick, failedAt := none }).setFld Fld.IKQ_PORT_STATE q.toNat psDown).setFld
    Fld.IKQ_PORT_LANES_UP q.toNat 0).satAdd Fld.IKQ_ERR_BREAKS q.toNat 1).report (portSrc q.toNat 2) (mkDetail 0 q.toNat 0) noWing

theorem Dev.portEmptied_peer : (d.portEmptied q).fld Fld.IKQ_PORT_PEER q.toNat = d.fld Fld.IKQ_PORT_PEER q.toNat :=
  (Dev.fld_setFld_ne _ _ _ _ _ _ (by decide)).trans
    ((Dev.fld_setFld_ne _ _ _ _ _ _ (by decide)).trans (Dev.fld_setFld_ne _ _ _ _ _ _ (by decide)))

/-- A request that a break has cut off is reported and takes its outcome of Table 14-5. -/
def Dev.requestLost (q : PortId) (d : Dev) (i : PItem) : Dev :=
  let d := d.report (portSrc q.toNat 3) (mkDetail i.m.off.toNat i.m.src.toNat 0) i.m.wing.toNat
  match i.own with
  | some (a, tag) => d.answerAgent a tag { lost := true, poison := 15 }
  | none => d

theorem Dev.portBreak_up (h : d.portUp q = true) : d.portBreak q =
    (((d.port q).outs ++ (d.port q).queue).filter (fun i => i.own.isSome)).foldl (Dev.requestLost q)
      ((d.portEmptied q).discardStores (fun x => x = .peer (BitVec.ofNat 3 (d.fld Fld.IKQ_PORT_PEER q.toNat)))) := by
  refine (if_neg (by simp [h])).trans ?_
  exact congrArg (fun w => (((d.port q).outs ++ (d.port q).queue).filter (fun i => i.own.isSome)).foldl (Dev.requestLost q)
    ((d.portEmptied q).discardStores (fun x => x = .peer (BitVec.ofNat 3 w)))) Dev.portEmptied_peer

/-- The timeout of a request of this package. -/
theorem Dev.txnTimeout_late (h : ∃ i ∈ (d.port q).outs, i.since ≤ d.tick) : d.txnTimeout q = d.portBreak q :=
  if_pos (by simpa using h)

theorem Dev.creditTimeout_late (hup : d.portState q = psUp) (h : ∃ c ∈ (d.port q).starved, c.2 ≤ d.tick) :
    d.creditTimeout q = d.portBreak q :=
  if_pos (by rw [Bool.and_eq_true, List.any_eq_true]; exact ⟨decide_eq_true hup, by simpa using h⟩)

theorem Dev.portUp_up (h : d.portState q = psUp) : d.portUp q = true := by
  unfold Dev.portUp
  simp [h]

/-! ### Flits and replay (R351 to R353) -/

theorem Dev.flitReceive_corrupt (hup : d.portUp q = true) {raw : BitVec 1984} {crc : BitVec 64} (hcrc : flitCrc raw ≠ crc)
    (bulk : Bool) (ctl : CtlFlit) : d.flitReceive q raw crc bulk ctl =
      ((d.satAdd Fld.IKQ_ERR_CRC_ERRORS q.toNat 1).report (portSrc q.toNat 0) (mkDetail 0 q.toNat 0) noWing).sendNak q :=
  (if_neg (by simp [hup])).trans (if_pos hcrc)

/-- A credit return of channel 7 returns nothing (R349). -/
theorem Dev.takeCredit_none (n : Nat) : d.takeCredit q 7 n = d := if_pos (by simp)

/-- A flit of acknowledgement type 0 acknowledges nothing. -/
theorem Dev.takeAck_none (a : BitVec 12) : d.takeAck q 0 a = d := by
  unfold Dev.takeAck
  exact if_pos (by simp)

/-- Fields of a flit header that bring no acknowledgement and no credits (R349). -/
def BitVec.bareFlit (raw : BitVec 1984) : Prop :=
  (raw.extractLsb' 38 2).toNat = 0 ∧ (raw.extractLsb' 33 3).toNat = 7 ∧ (raw.extractLsb' 21 3).toNat = 7

/-- The next payload flit in order is delivered and acknowledged. -/
theorem Dev.flitReceive_payload (hup : d.portUp q = true) {raw : BitVec 1984} {crc : BitVec 64} (hcrc : flitCrc raw = crc)
    (hbare : BitVec.bareFlit raw) (hkind : (raw.extractLsb' 36 2).toNat = 0)
    (hseq : (raw.extractLsb' 52 12).toNat = (d.port q).nextRx.toNat) (hrx : (d.port q).rx = []) (bulk : Bool) (ctl : CtlFlit) :
    d.flitReceive q raw crc bulk ctl = (((d.setPort q { d.port q with
      nextRx := (d.port q).nextRx + 1, rx := (List.range 15).map (fun i => raw.extractLsb' (64 + 128 * i) 128),
      rxBulk := bulk }).cutSlots q bulk 40).sendIdle q).pump q := by
  obtain ⟨hack, hc0, hc1⟩ := hbare
  unfold Dev.flitReceive
  rw [if_neg (by simp [hup]), if_neg (not_not.2 hcrc)]
  dsimp only
  simp only [hack, hc0, hc1, hkind, hseq, hrx, Dev.takeAck_none, Dev.takeCredit_none]
  rw [if_neg (by simp [hup]), if_pos trivial, if_pos trivial]
  rfl

/-- An idle flit with nothing in its header. -/
theorem Dev.flitReceive_idle (hup : d.portUp q = true) {raw : BitVec 1984} {crc : BitVec 64} (hcrc : flitCrc raw = crc)
    (hbare : BitVec.bareFlit raw) (hkind : (raw.extractLsb' 36 2).toNat = 1) (bulk : Bool) (ctl : CtlFlit) :
    d.flitReceive q raw crc bulk ctl = d.pump q := by
  obtain ⟨hack, hc0, hc1⟩ := hbare
  unfold Dev.flitReceive
  rw [if_neg (by simp [hup]), if_neg (not_not.2 hcrc)]
  dsimp only
  simp only [hack, hc0, hc1, hkind, Dev.takeAck_none, Dev.takeCredit_none]
  rw [if_neg (by simp [hup]), if_neg (by decide), if_neg (by decide)]

theorem Dev.replayExpiry_late {f : PFlit} {more : List PFlit} (hf : (d.port q).replay = f :: more) (hup : d.portState q = psUp)
    (hdue : f.due < d.tick) (hfew : (d.port q).resends < 7) : d.replayExpiry q =
      (((d.setPort q { d.port q with
        resends := (d.port q).resends + 1, lastResend := some (f.seq, d.tick + replayTime d) }).satAdd
        Fld.IKQ_ERR_REPLAYS q.toNat 1).report (portSrc q.toNat 0) (mkDetail 0 q.toNat 1) noWing).sendAgain q f.seq := by
  unfold Dev.replayExpiry
  rw [hf]
  exact (if_pos (by simp [hup, hdue])).trans (if_neg (by omega))

/-! ### Widths (R348) -/

/-- The device in which a lane has left a port. -/
def Dev.laneGone (d : Dev) (q : PortId) (lane : BitVec 3) : Dev :=
  (d.clrFld Fld.IKQ_PORT_LANES_UP q.toNat (2 ^ lane.toNat)).orFld Fld.IKQ_PORT_LANES_BAD q.toNat (2 ^ lane.toNat)

theorem Dev.laneGone_state (lane : BitVec 3) : (d.laneGone q lane).portState q = d.portState q :=
  (Dev.fld_setFld_ne _ _ _ _ _ _ (by decide)).trans (Dev.fld_setFld_ne _ _ _ _ _ _ (by decide))

theorem Dev.laneGone_minLanes (lane : BitVec 3) :
    (d.laneGone q lane).fld Fld.IKQ_CTRL_MIN_LANES 0 = d.fld Fld.IKQ_CTRL_MIN_LANES 0 :=
  (Dev.fld_setFld_ne _ _ _ _ _ _ (by decide)).trans (Dev.fld_setFld_ne _ _ _ _ _ _ (by decide))

/-- A bad lane of a link that keeps enough of them starts a width change. -/
theorem Dev.laneBad_width {lane : BitVec 3} (hup : d.portState q = psUp)
    (hlane : (d.fld Fld.IKQ_PORT_LANES_UP q.toNat).testBit lane.toNat = true)
    (hleft : max 1 (d.fld Fld.IKQ_CTRL_MIN_LANES 0) ≤
      ((List.range 8).filter (fun i => ((d.laneGone q lane).fld Fld.IKQ_PORT_LANES_UP q.toNat).testBit i)).length) :
    d.laneBad q lane =
      (((((d.laneGone q lane).send (.width q lane)).setPort q { d.port q with widthAt := d.tick }).setFld Fld.IKQ_PORT_STATE q.toNat
        psWidth).satAdd Fld.IKQ_ERR_WIDTH_CHANGES q.toNat 1).report (portSrc q.toNat 1) (mkDetail 0 q.toNat 0) noWing := by
  have hstays : ¬((d.laneGone q lane).send (.width q lane)).portState q = psWidth := by
    rw [show ((d.laneGone q lane).send (.width q lane)).portState q = d.portState q from Dev.laneGone_state lane, hup]
    decide
  refine (if_neg (by simp [Dev.portUp_up hup, hlane])).trans ((if_neg ?_).trans ?_)
  · rw [show ((d.clrFld Fld.IKQ_PORT_LANES_UP q.toNat (2 ^ lane.toNat)).orFld Fld.IKQ_PORT_LANES_BAD q.toNat
      (2 ^ lane.toNat)).fld Fld.IKQ_CTRL_MIN_LANES 0 = d.fld Fld.IKQ_CTRL_MIN_LANES 0 from Dev.laneGone_minLanes lane]
    exact Nat.not_lt.2 hleft
  · refine congrArg (fun at_ => (((((d.laneGone q lane).send (.width q lane)).setPort q { d.port q with widthAt := at_ }).setFld
      Fld.IKQ_PORT_STATE q.toNat psWidth).satAdd Fld.IKQ_ERR_WIDTH_CHANGES q.toNat 1).report (portSrc q.toNat 1) (mkDetail 0 q.toNat 0)
      noWing) (if_neg hstays)

theorem Dev.widthDone_resends {f : PFlit} {more : List PFlit} (hst : d.portState q = psWidth) (hf : (d.port q).replay = f :: more) :
    d.widthDone q = (((d.setPort q { d.port q with
      starved := Fmap.mapAll (fun _ t => t + (d.tick - (d.port q).widthAt)) (d.port q).starved }).setFld
      Fld.IKQ_PORT_STATE q.toNat psUp).sendAgain q f.seq).pump q := by
  refine (if_neg (not_not.2 hst)).trans ?_
  dsimp only
  rw [hf]

/-! ### Training (R346, R365) -/

/-- Lanes that trained at both ends and are not marked bad. -/
def Dev.lanesTrained (d : Dev) (q : PortId) (t : TrainMsg) : Nat :=
  (List.range 8).foldl (fun (v : Nat) i =>
    if t.lanes.testBit i && !(d.fld Fld.IKQ_PORT_LANES_BAD q.toNat).testBit i then v + 2 ^ i else v) 0

/-- As many lanes as IKQ_CTRL asks for have trained. -/
def Dev.enoughLanes (d : Dev) (q : PortId) (t : TrainMsg) : Prop :=
  max 1 (d.fld Fld.IKQ_CTRL_MIN_LANES 0) ≤ ((List.range 8).filter (fun i => (d.lanesTrained q t).testBit i)).length

section
variable {t : TrainMsg} (hst : d.portState q = psTraining)
include hst

theorem Dev.trained_fails (h : t.ok = false ∨ ¬d.enoughLanes q t) : d.trained q t =
    ((d.report (portSrc q.toNat 1) (mkDetail 0 q.toNat 1) noWing).setFld Fld.IKQ_PORT_STATE q.toNat psDown).setPort q
      { d.port q with failedAt := some d.tick, brokenAt := none } := by
  refine (if_neg (not_not.2 hst)).trans (if_pos (Bool.or_eq_true_iff.2 ?_))
  exact h.imp (fun h => by rw [h]; rfl) (fun h => decide_eq_true (Nat.not_le.1 h))

variable (hok : t.ok = true) (hn : d.enoughLanes q t)
include hok hn

omit hst in
theorem trained_not_failed :
    ¬(!t.ok || ((List.range 8).filter (fun i => (d.lanesTrained q t).testBit i)).length < max 1 (d.fld Fld.IKQ_CTRL_MIN_LANES 0)) =
      true := by
  rw [hok, decide_eq_false (Nat.not_lt.2 hn)]
  decide

theorem Dev.trained_miswired (h : t.self ≠ d.fld Fld.IKQ_PORT_PEER q.toNat ∨ t.expects ≠ d.fld Fld.IKQ_CTRL_SELF 0) :
    d.trained q t = (d.report (portSrc q.toNat 1) (mkDetail 0 q.toNat 1) noWing).setFld Fld.IKQ_PORT_STATE q.toNat psMiswired :=
  (if_neg (not_not.2 hst)).trans ((if_neg (trained_not_failed hok hn)).trans (if_pos (by simpa using h)))

/-- Both ends expect each other: the port is UP in the next epoch. -/
theorem Dev.trained_up (hself : t.self = d.fld Fld.IKQ_PORT_PEER q.toNat) (hexp : t.expects = d.fld Fld.IKQ_CTRL_SELF 0) :
    d.trained q t = ((((d.setPort q { inq := (d.port q).inq, serve := (d.port q).serve }).setFld Fld.IKQ_PORT_EPOCH q.toNat
      (nextEpoch (d.fld Fld.IKQ_PORT_EPOCH q.toNat) (t.epoch % 256))).setFld Fld.IKQ_PORT_STATE q.toNat psUp).setFld
      Fld.IKQ_PORT_LANES_UP q.toNat (d.lanesTrained q t)) :=
  (if_neg (not_not.2 hst)).trans ((if_neg (trained_not_failed hok hn)).trans (if_neg (by simp [hself, hexp])))

end

theorem Dev.trainingRetry_due {t : Nat} (ht : (d.port q).failedAt = some t) (hst : d.portState q = psDown)
    (hdue : t + 1000000 ≤ d.tick) : d.trainingRetry q = d.beginTraining q := by
  unfold Dev.trainingRetry
  rw [ht]
  exact if_pos (by simp [hst, hdue])

theorem Dev.autoRetrain_due {t : Nat} (ht : (d.port q).brokenAt = some t) (hst : d.portState q = psDown)
    (hauto : d.fld Fld.IKQ_CTRL_AUTO_RETRAIN 0 = 1) (hdue : t + 1000 ≤ d.tick) : d.autoRetrain q = d.beginTraining q := by
  unfold Dev.autoRetrain
  rw [ht]
  exact if_pos (by simp [hst, hauto, hdue])

end

/-- Settles O44: each command of a port by the branch of its rule, and the epoch by its two candidates. -/
theorem linkFlitsAndTraining : Obligations.LinkFlitsAndTraining := by
  unfold Obligations.LinkFlitsAndTraining
  refine ⟨?_, ?_, fun _ _ _ _ => nextEpoch_fresh⟩
  · intro s q hlive d p k brk
    have runs {i : Instr} {f : Dev → Dev} {e : Dev} (hi : exec i s = s.run f) (hf : f d = e) : exec i s = s.settling e :=
      exec_run_live hlive hi hf
    refine ⟨fun hup => ?_, fun f more hf hup hdue hfew => ?_, fun lane hup hlane => ?_, fun f more hst hf => ?_⟩
    · have hbrk : d.portBreak q = brk := Dev.portBreak_up hup
      clear_value brk
      refine ⟨?_, fun h => ?_, fun h hst => ?_, fun raw crc bulk ctl => ?_⟩
      · exact runs (f := fun d => d.laneLockLoss q) rfl hbrk
      · exact runs (f := fun d => d.txnTimeout q) rfl ((Dev.txnTimeout_late h).trans hbrk)
      · exact runs (f := fun d => d.creditTimeout q) rfl ((Dev.creditTimeout_late hst h).trans hbrk)
      · refine ⟨fun hcrc => ?_, fun hcrc hack hc0 hc1 hkind hseq hrx => ?_, fun hcrc hack hc0 hc1 hkind => ?_⟩
        · exact runs (f := fun d => d.flitReceive q raw crc bulk ctl) rfl (Dev.flitReceive_corrupt hup hcrc bulk ctl)
        · exact runs (f := fun d => d.flitReceive q raw crc bulk ctl) rfl
            (Dev.flitReceive_payload hup hcrc ⟨hack, hc0, hc1⟩ hkind hseq hrx bulk ctl)
        · exact runs (f := fun d => d.flitReceive q raw crc bulk ctl) rfl
            (Dev.flitReceive_idle hup hcrc ⟨hack, hc0, hc1⟩ hkind bulk ctl)
    · exact runs (f := fun d => d.replayExpiry q) rfl (Dev.replayExpiry_late hf hup hdue hfew)
    · exact fun hleft => runs (f := fun d => d.laneBad q lane) rfl (Dev.laneBad_width hup hlane hleft)
    · exact runs (f := fun d => d.widthDone q) rfl (Dev.widthDone_resends hst hf)
  · intro s q hlive d p k begun wrong
    have runs {i : Instr} {f : Dev → Dev} {e : Dev} (hi : exec i s = s.run f) (hf : f d = e) : exec i s = s.settling e :=
      exec_run_live hlive hi hf
    refine ⟨fun t hst => ?_, fun t ht hst hdue => ?_, fun t ht hst hauto hdue => ?_⟩
    · refine ⟨fun hok hn hself hexp => ?_, fun hok hn hwrong => ?_, fun hfail => ?_⟩
      · exact runs (f := fun d => d.trained q t) rfl (Dev.trained_up hst hok hn hself hexp)
      · exact runs (f := fun d => d.trained q t) rfl (Dev.trained_miswired hst hok hn hwrong)
      · exact runs (f := fun d => d.trained q t) rfl (Dev.trained_fails hst hfail)
    · exact runs (f := fun d => d.trainingRetry q) rfl (Dev.trainingRetry_due ht hst hdue)
    · exact runs (f := fun d => d.autoRetrain q) rfl (Dev.autoRetrain_due ht hst hauto hdue)

end Sys2Proof.Machine
end

section
/-! SUPPORT. Messages of a peer, the job group and the lock ring (R360, R363, R366 to R370, R426, R469). -/

namespace Sys2Proof.Machine

/-! ### Messages of a peer -/

section
variable {d : Dev} {q : PortId} {m : PMsg}

/-- The device after a message has been taken out of a port's queue, with its slots given back. -/
def Dev.taken1 (d : Dev) (q : PortId) (m : PMsg) : Dev :=
  (d.setPort q { d.port q with inq := eraseOne m (d.port q).inq }).oweSlots q m.vc.toNat m.slotCount

theorem Dev.takeIn_mem (h : m ∈ (d.port q).inq) : d.takeIn q m = some (d.taken1 q m) :=
  if_pos (by simpa using h)

theorem Dev.taken1_outs : ((d.taken1 q m).port q).outs = (d.port q).outs := by
  simp [Dev.taken1, Dev.oweSlots]

/-! ### Requests (R366, R367) -/

section
variable (hm : m ∈ (d.port q).inq)
include hm

theorem Dev.servePeer_denied {op : PeerOp} {mk : Nat → Req → Req} (ht : (d.taken1 q m).peerTarget q m op = none) :
    d.servePeer q m op mk =
      (((d.taken1 q m).report (portSrc q.toNat 3) (mkDetail m.off.toNat m.src.toNat 2) noWing).denyPeer q m).pump q := by
  unfold Dev.servePeer
  rw [Dev.takeIn_mem hm]
  dsimp only
  rw [ht]

/-- The request of a peer on its way to the home of its target. -/
def Dev.peerAsks (d : Dev) (q : PortId) (m : PMsg) (a : Nat) (al : Bool) (owner : Nat) (f : Req → Req) : Dev :=
  let y := d.newTag.2
  let y := y.setPort q { y.port q with serve := (y.port q).serve ++ [(d.weave.nextTag, m)] }
  let r : Req := { kind := .readOnce, src := .port q, tag := d.weave.nextTag,
                   line := BitVec.ofNat 40 ((if al then aliasBase + a else a) / 256), sects := runSects (a % 256) m.len.toNat,
                   wing := BitVec.ofNat 4 owner }
  (y.sendReq (f r)).pump q

theorem Dev.servePeer_allowed {op : PeerOp} {mk : Nat → Req → Req} {a w : Nat} {al : Bool}
    (ht : (d.taken1 q m).peerTarget q m op = some (a, al, w)) :
    d.servePeer q m op mk = (d.taken1 q m).peerAsks q m a al w (mk a) := by
  unfold Dev.servePeer
  rw [Dev.takeIn_mem hm]
  dsimp only
  rw [ht]
  rfl

omit hm in
/-- A write in the order of its source is performed. -/
theorem peerWrite_goes {opc : BitVec 8} (ho : m.opc = opc) (hin : d.inOrder q m = true) : ¬(m.opc ≠ opc || !d.inOrder q m) = true := by
  simp [ho, hin]

/-! ### Responses (R360, R363) -/

variable {opc : BitVec 8} {ask : PItem → Bool} {r : PItem → Reply} (ho : m.opc = opc)
include ho

theorem Dev.peerAnswer_stale (he : m.epoch.toNat ≠ (d.taken1 q m).fld Fld.IKQ_PORT_EPOCH q.toNat) :
    d.peerAnswer q m opc ask r = (d.taken1 q m).pump q := by
  refine (if_neg (not_not.2 ho)).trans ?_
  rw [Dev.takeIn_mem hm]
  exact if_pos he

/-- A response of the current epoch ends the one request under way. -/
theorem Dev.peerAnswer_ends {i : PItem} {a : Agent} {tag : Nat} (he : m.epoch.toNat = (d.taken1 q m).fld Fld.IKQ_PORT_EPOCH q.toNat)
    (houts : (d.port q).outs = [i]) (htag : i.m.tag = m.tag) (hown : i.own = some (a, tag)) (hask : ask i = true) :
    d.peerAnswer q m opc ask r =
      (((d.taken1 q m).setPort q { (d.taken1 q m).port q with outs := [] }).answerAgent a tag (r i)).pump q := by
  have houts1 : ((d.taken1 q m).port q).outs = [i] := Dev.taken1_outs.trans houts
  refine (if_neg (not_not.2 ho)).trans ?_
  rw [Dev.takeIn_mem hm]
  refine (if_neg (not_not.2 he)).trans ?_
  rw [houts1, List.find?_cons_of_pos (by simp [htag, hask])]
  dsimp only
  rw [hown, show eraseOne i [i] = [] from if_pos rfl]

end

/-! ### JG messages (R369) -/

theorem Dev.onJg_takes {attr : BitVec 4} {f : Dev → Dev} (hm : m ∈ (d.port q).inq) (ho : m.opc = opcJg) (ha : m.attr = attr) :
    d.onJg q m attr f = (f (d.taken1 q m)).pump q := by
  refine (if_neg (by simp [ho, ha])).trans ?_
  rw [Dev.takeIn_mem hm]

/-- A member schedules a commit newer than the one it runs. -/
theorem Dev.takeCommit_newer {n : BitVec 16} {p : BitVec 4} {delay : Nat} (hrole : d.jgRole = roleMember) (hdue : d.jg.due = none)
    (hn : n ≠ d.jg.n) (hnew : (n - d.jg.n).toNat < 2 ^ 15) : d.takeCommit n p delay =
      { d with jg := { d.jg with lastCommit := d.tick, inLock := true, due := some (n, p, d.tick + delay) } } := by
  refine (if_neg (not_not.2 hrole)).trans ?_
  dsimp only
  rw [hdue]
  exact if_pos (Bool.and_eq_true_iff.2 ⟨Bool.and_eq_true_iff.2 ⟨decide_eq_true hn, decide_eq_true hnew⟩, rfl⟩)

/-- A commit that the member has still to reach leaves its lock state. -/
theorem Dev.takeCommit_newer_showLock {n : BitVec 16} {p : BitVec 4} {delay : Nat} (hrole : d.jgRole = roleMember)
    (hdue : d.jg.due = none) (hn : n ≠ d.jg.n) (hnew : (n - d.jg.n).toNat < 2 ^ 15) : (d.takeCommit n p delay).showLock n =
      { d with jg := { d.jg with lastCommit := d.tick, inLock := true, due := some (n, p, d.tick + delay) } } := by
  rw [Dev.takeCommit_newer hrole hdue hn hnew]
  exact if_neg (by simp [Ne.symm hn])

end

/-! ### Points of the job group (R369, R370, R426) -/

section
variable {d : Dev}

theorem Dev.railAsk_regs (die : Nat) : (d.railAsk die).regs = d.regs := by
  unfold Dev.railAsk
  dsimp only
  split
  · rfl
  · rfl

/-- A tile that takes a point changes no other field. -/
theorem Dev.setPoint_fld (t n : Nat) (f : Field) (i : Nat) (h : f.id ≠ Fld.TILE_STATE_POINT.id) :
    (d.setPoint t n).fld f i = d.fld f i := by
  unfold Dev.setPoint
  refine (Dev.fld_congr (Dev.railAsk_regs _) f i).trans ?_
  split
  all_goals
    dsimp only
    split
    · exact Dev.fld_setFld_ne _ _ _ _ _ _ h
    · rfl

/-- The device at the point of a commit. -/
def Dev.atPoint (d : Dev) (n : BitVec 16) (p : BitVec 4) : Dev :=
  (({ d with jg := { d.jg with n := n, point := p, due := none } } : Dev).setFld Fld.SELV_STATUS_JG_POINT 0 p.toNat).setFld
    Fld.SELV_STATUS_JG_N 0 n.toNat

theorem Dev.atPoint_role (n : BitVec 16) (p : BitVec 4) : (d.atPoint n p).jgRole = d.jgRole :=
  (Dev.fld_setFld_ne _ _ _ _ _ _ (by decide)).trans (Dev.fld_setFld_ne _ _ _ _ _ _ (by decide))

/-- Every RUN tile takes the point that it should have. -/
def Dev.tilesFollow (d : Dev) : Dev := d.runTiles.foldl (fun (y : Dev) t => y.setPoint t (y.targetPoint t)) d

theorem Dev.tilesFollow_role : d.tilesFollow.jgRole = d.jgRole :=
  foldl_keeps (fun e : Dev => e.jgRole = d.jgRole) (fun _ _ he => (Dev.setPoint_fld _ _ _ _ (by decide)).trans he) _ _ rfl

/-- At the time of its commit the lead runs at the point; its lock state stands. -/
theorem Dev.jgSwitch_lead {n : BitVec 16} {p : BitVec 4} {t : Nat} (hdue : d.jg.due = some (n, p, t)) (ht : t ≤ d.tick)
    (hon : d.selvOn = true) (hlead : d.jgRole = roleLead) : d.jgSwitch = (d.atPoint n p).tilesFollow.showReasons := by
  have hrole : ¬(d.atPoint n p).jgRole = roleMember := by rw [Dev.atPoint_role, hlead]; decide
  have hrole' : ¬(d.atPoint n p).tilesFollow.jgRole = roleMember := by rwa [Dev.tilesFollow_role]
  have hnow : d.jgSwitch =
      let y := if (d.atPoint n p).jgRole = roleMember then (d.atPoint n p).setFld Fld.SELV_STATUS_JG_STATE 0 jsLocked else d.atPoint n p
      let z := y.tilesFollow
      (if z.jgRole = roleMember then z.jgPeers.foldl (fun (e : Dev) q => e.jgMsg q 2 n p 0) z else z).showReasons := by
    unfold Dev.jgSwitch
    rw [hdue]
    exact if_neg (by simp [hon, ht])
  rw [hnow, if_neg hrole]
  dsimp only
  rw [if_neg hrole']

/-! ### Repeats and the loss of the lock -/

theorem Dev.jgRepeat_member (hon : d.selvOn = true) (hdue : d.jg.lastRepeat + 1000 ≤ d.tick) (hrole : d.jgRole = roleMember) :
    d.jgRepeat = ({ d with jg := { d.jg with lastRepeat := d.tick } } : Dev).jgNotify :=
  (if_neg (by simp [hon, hdue])).trans (if_pos hrole)

theorem Dev.jgRepeat_lead (hon : d.selvOn = true) (hdue : d.jg.lastRepeat + 1000 ≤ d.tick) (hrole : d.jgRole = roleLead)
    (hnone : d.jg.due = none) (hn : d.jg.n ≠ 0) :
    d.jgRepeat = ({ d with jg := { d.jg with lastRepeat := d.tick } } : Dev).jgTell 0 := by
  have hno : ¬d.jgRole = roleMember := by rw [hrole]; decide
  refine (if_neg (by simp [hon, hdue])).trans ((if_neg hno).trans ((if_pos hrole).trans ?_))
  dsimp only
  rw [hnone]
  exact if_neg hn

theorem Dev.jgLockLoss_late (hon : d.selvOn = true) (hrole : d.jgRole = roleMember) (hin : d.jg.inLock = true)
    (hlate : d.jg.lastCommit + 10000 ≤ d.tick) : d.jgLockLoss =
      ({ d with jg := { d.jg with inLock := false } } : Dev).setFld Fld.SELV_STATUS_JG_STATE 0 jsFree :=
  if_pos (by simp [hon, hrole, hin, hlate])

/-! ### The lock ring (R469) -/

section
variable (hring : d.onRing = true)
include hring

theorem Dev.onRing_phase : d.pins.phase = .run := by
  unfold Dev.onRing at hring
  simp only [Bool.and_eq_true, decide_eq_true_eq] at hring
  exact hring.1.2

theorem Dev.lockSend_lead (hrole : d.jgRole = roleLead) (hdue : d.jg.ringSent + 1000 ≤ d.tick) (hnone : d.jg.ringAt = none) :
    d.lockSend = ({ d with jg := { d.jg with ringAt := some d.tick, ringSent := d.tick } } : Dev).send
      (.lockFrame ((lockFrame 0 (BitVec.ofNat 4 d.jgLimit) 0 0).setWidth 64)) :=
  (if_neg (by simp [hring, hrole, hdue, hnone])).trans (if_pos (Dev.onRing_phase hring))

section
variable {f : W32} (hok : lockOk f = true)
include hok

theorem Dev.lockLimit_member (htype : f.extractLsb' 0 2 = 0) (hrole : d.jgRole = roleMember) : d.lockLimit f true =
    d.send (.lockFrame ((lockFrame 0 (BitVec.ofNat 4 (min (f.extractLsb' 2 4).toNat d.jgLimit)) 0 0).setWidth 64)) :=
  (if_neg (by simp [hring, hok, htype])).trans ((if_pos hrole).trans (if_pos (Dev.onRing_phase hring)))

theorem Dev.lockLimit_lead (htype : f.extractLsb' 0 2 = 0) (hrole : d.jgRole = roleLead) : d.lockLimit f true =
    ({ d with jg := { d.jg with ringAt := none, ringBroken := false, ringLimit := some (f.extractLsb' 2 4) } } : Dev).jgCommit := by
  have hno : ¬d.jgRole = roleMember := by rw [hrole]; decide
  exact (if_neg (by simp [hring, hok, htype])).trans (if_neg hno)

/-- A member schedules the ring's commit and sends it on with 36 µs less. -/
theorem Dev.lockCommit_member (htype : f.extractLsb' 0 2 = 1) (hrole : d.jgRole = roleMember) (hdue : d.jg.due = none)
    (hn : f.extractLsb' 6 16 ≠ d.jg.n) (hnew : (f.extractLsb' 6 16 - d.jg.n).toNat < 2 ^ 15) : d.lockCommit f true =
      ({ d with jg := { d.jg with
          lastCommit := d.tick, inLock := true,
          due := some (f.extractLsb' 6 16, f.extractLsb' 2 4, d.tick + (f.extractLsb' 22 9).toNat) } } : Dev).send
        (.lockFrame ((lockFrame 1 (f.extractLsb' 2 4) (f.extractLsb' 6 16) ((f.extractLsb' 22 9).toNat - 36)).setWidth 64)) := by
  refine (if_neg (by simp [hring, hok, htype, hrole])).trans ?_
  dsimp only
  rw [Dev.takeCommit_newer_showLock hrole hdue hn hnew]
  exact if_pos (Dev.onRing_phase hring)

end

end

theorem Dev.lockTimeout_late {t : Nat} (ht : d.jg.ringAt = some t) (hlate : t + 1000 ≤ d.tick) : d.lockTimeout =
    { d with jg := { d.jg with ringBroken := true, ringAt := none, ringLimit := none } } := by
  unfold Dev.lockTimeout
  rw [ht]
  exact if_pos hlate

end

/-- Settles O45: each message and each command of the job group by the branch of its rule. -/
theorem peerAndJobGroupMessages : Obligations.PeerAndJobGroupMessages := by
  unfold Obligations.PeerAndJobGroupMessages
  refine ⟨?_, ?_⟩
  · intro s q m hlive hm d p d1 denied serve
    have runs {i : Instr} {f : Dev → Dev} {e : Dev} (hi : exec i s = s.run f) (hf : f d = e) : exec i s = s.settling e :=
      exec_run_live hlive hi hf
    refine ⟨fun ho => ⟨fun ht => ?_, fun a al w ht => ?_⟩, fun ho => ⟨fun ht => ?_, fun a al w ht => ?_⟩,
      fun hin => ⟨fun ho a al w ht => ?_, fun ho a al w ht => ?_, fun ho ht => ?_, fun ho ht => ?_⟩, ?_, ?_⟩
    · exact runs (f := fun d => d.peerRead q m) rfl ((if_neg (not_not.2 ho)).trans (Dev.servePeer_denied hm ht))
    · exact runs (f := fun d => d.peerRead q m) rfl ((if_neg (not_not.2 ho)).trans (Dev.servePeer_allowed hm ht))
    · exact runs (f := fun d => d.peerAtomic q m) rfl ((if_neg (not_not.2 ho)).trans (Dev.servePeer_denied hm ht))
    · exact runs (f := fun d => d.peerAtomic q m) rfl ((if_neg (not_not.2 ho)).trans (Dev.servePeer_allowed hm ht))
    · exact runs (f := fun d => d.peerWrite q m) rfl ((if_neg (peerWrite_goes ho hin)).trans (Dev.servePeer_allowed hm ht))
    · exact runs (f := fun d => d.peerWriteMasked q m) rfl ((if_neg (peerWrite_goes ho hin)).trans (Dev.servePeer_allowed hm ht))
    · exact runs (f := fun d => d.peerWrite q m) rfl ((if_neg (peerWrite_goes ho hin)).trans (Dev.servePeer_denied hm ht))
    · exact runs (f := fun d => d.peerWriteMasked q m) rfl ((if_neg (peerWrite_goes ho hin)).trans (Dev.servePeer_denied hm ht))
    · rintro c (⟨ho, rfl⟩ | ⟨ho, rfl⟩ | ⟨ho, rfl⟩) he
      · exact runs (f := fun d => d.peerCmp q m) rfl (Dev.peerAnswer_stale hm ho he)
      · exact runs (f := fun d => d.peerData q m) rfl (Dev.peerAnswer_stale hm ho he)
      · exact runs (f := fun d => d.peerAtomData q m) rfl (Dev.peerAnswer_stale hm ho he)
    · intro he i a tag houts htag hown d2
      refine ⟨fun ho hi => ?_, fun ho hi => ?_, fun ho hi => ?_⟩
      · exact runs (f := fun d => d.peerCmp q m) rfl (Dev.peerAnswer_ends hm ho he houts htag hown (by simpa using hi))
      · exact runs (f := fun d => d.peerData q m) rfl (Dev.peerAnswer_ends hm ho he houts htag hown (by simpa using hi))
      · exact runs (f := fun d => d.peerAtomData q m) rfl (Dev.peerAnswer_ends hm ho he houts htag hown (by simpa using hi))
  · intro s d lead member
    refine ⟨fun q m hlive hm ho => ?_, fun n p t hdue ht hon hlead => ?_, fun hlive hon hdue => ⟨fun hrole => ?_, fun hrole hnone hn => ?_⟩,
      fun hon hrole hin hlate => ?_, fun hring => ⟨fun hrole hdue hnone => ?_, fun f hok htype => ⟨fun hrole => ?_, fun hrole => ?_⟩,
      fun f hok htype hrole hdue => ?_⟩, fun t ht hlate => ?_⟩
    · have runs {i : Instr} {f : Dev → Dev} {e : Dev} (hi : exec i s = s.run f) (hf : f d = e) : exec i s = s.settling e :=
        exec_run_live hlive hi hf
      refine ⟨fun ha hrole => ?_, fun ha hrole hnone hn hnew => ?_, fun ha hrole => ?_⟩
      · exact runs (f := fun d => d.jgLimitIn q m) rfl ((Dev.onJg_takes hm ho ha).trans
          (congrArg (fun e : Dev => e.pump q) (if_neg (not_not.2 hrole))))
      · exact runs (f := fun d => d.jgCommitIn q m) rfl ((Dev.onJg_takes hm ho ha).trans
          (congrArg (fun e : Dev => e.pump q) (Dev.takeCommit_newer_showLock (d := Dev.taken1 _ q m) hrole hnone hn hnew)))
      · exact runs (f := fun d => d.jgAckIn q m) rfl ((Dev.onJg_takes hm ho ha).trans
          (congrArg (fun e : Dev => e.pump q) (if_neg (not_not.2 hrole))))
    · exact congrArg s.showing (Dev.jgSwitch_lead hdue ht hon hlead)
    · exact exec_run_live hlive (f := fun d => d.jgRepeat) rfl (Dev.jgRepeat_member hon hdue hrole)
    · exact exec_run_live hlive (f := fun d => d.jgRepeat) rfl (Dev.jgRepeat_lead hon hdue hrole hnone hn)
    · exact congrArg s.showing (Dev.jgLockLoss_late hon hrole hin hlate)
    · exact congrArg s.showing (Dev.lockSend_lead hring hrole hdue hnone)
    · exact congrArg s.showing (Dev.lockLimit_member hring hok htype hrole)
    · exact congrArg s.showing (Dev.lockLimit_lead hring hok htype hrole)
    · exact fun hn hnew => congrArg s.showing (Dev.lockCommit_member hring hok htype hrole hdue hn hnew)
    · exact congrArg s.showing (Dev.lockTimeout_late ht hlate)

end Sys2Proof.Machine
end

section
/-! SUPPORT. What an error that hardware detects leaves: the shuttle pins. It can freeze a head (R338), so the layer goes through
the reads and writes of a home, its transactions, fault records, the answers to the agents, couriers and links. -/

namespace Sys2Proof.Machine

/-! ### Branches and folds -/

@[simp] theorem Dev.ite_pins (c : Prop) [Decidable c] (a b : Dev) : (if c then a else b).pins = if c then a.pins else b.pins :=
  apply_ite Dev.pins c a b

theorem Dev.ite_pins_eq {c : Prop} [Decidable c] {a b : Dev} {p : Pins} (ha : a.pins = p) (hb : b.pins = p) :
    (if c then a else b).pins = p := by
  split
  · exact ha
  · exact hb

theorem Dev.foldl_pins {α : Type} {f : Dev → α → Dev} (h : ∀ d a, (f d a).pins = d.pins) (d : Dev) (l : List α) :
    (l.foldl f d).pins = d.pins :=
  foldl_keeps (fun e : Dev => e.pins = d.pins) (fun _ _ he => (h _ _).trans he) _ _ rfl

theorem foldl_snd_pins {α β : Type} {f : α × Dev → β → α × Dev} (h : ∀ x b, (f x b).2.pins = x.2.pins) (x : α × Dev) (l : List β) :
    (l.foldl f x).2.pins = x.2.pins :=
  foldl_keeps (fun y : α × Dev => y.2.pins = x.2.pins) (fun _ _ hy => (h _ _).trans hy) _ _ rfl

/-! ### Reads and writes of a home -/

@[simp] theorem Dev.draw_pins (d : Dev) : d.draw.2.pins = d.pins := rfl
@[simp] theorem Dev.newTag_pins (d : Dev) : d.newTag.2.pins = d.pins := rfl
@[simp] theorem Dev.newOp_pins (d : Dev) : d.newOp.2.pins = d.pins := rfl
@[simp] theorem Dev.send_pins (d : Dev) (t : Tx) : (d.send t).pins = d.pins := rfl
@[simp] theorem Dev.orFld_pins (d : Dev) (f : Field) (n v : Nat) : (d.orFld f n v).pins = d.pins := rfl
@[simp] theorem Dev.satAdd_pins (d : Dev) (f : Field) (n v : Nat) : (d.satAdd f n v).pins = d.pins := rfl

@[simp] theorem Dev.snoop_pins (d : Dev) (k : MsgKind) (line : Nat) (sects : BitVec 4) (id : Nat) :
    (d.snoop k line sects id).2.pins = d.pins := rfl
@[simp] theorem Dev.memEvent_pins (d : Dev) (k : MemEv) (a : Nat) (patrol : Bool) (cw s0 s1 : Nat) :
    (d.memEvent k a patrol cw s0 s1).pins = d.pins := rfl
@[simp] theorem Dev.markRot_pins (d : Dev) (a : Nat) : (d.markRot a).pins = d.pins := rfl
@[simp] theorem Dev.injectAt_pins (d : Dev) (p : Phys) (a : Option Nat) : (d.injectAt p a).2.pins = d.pins := by
  unfold Dev.injectAt
  split
  · rfl
  · dsimp only
    split
    · simp
    · simp
@[simp] theorem Dev.inject_pins (d : Dev) (a : Nat) : (d.inject a).pins = d.pins := by
  unfold Dev.inject; simp
@[simp] theorem Dev.dramWrite_pins (d : Dev) (a : Nat) (s : Sector) (p : Bool) : (d.dramWrite a s p).pins = d.pins := by
  unfold Dev.dramWrite; simp
@[simp] theorem Dev.heatUp_pins (d : Dev) (a : Nat) : (d.heatUp a).pins = d.pins := rfl
@[simp] theorem Dev.atriumPut_pins (d : Dev) (k : Nat) (l : ALine) : (d.atriumPut k l).pins = d.pins := rfl

theorem homeKeeps_pins (p : Pins) : HomeKeeps (fun d => d.pins = p) where
  write a s b h := by simpa using h
  event k a b c s t h := by simpa using h
  draw h := h
  heat a h := h
  way k l h := h

@[simp] theorem Dev.readLine_pins (d : Dev) (line : Nat) (sects : BitVec 4) : (d.readLine line sects).2.2.pins = d.pins :=
  (homeKeeps_pins d.pins).readLine rfl line sects
@[simp] theorem Dev.writeLine_pins (d : Dev) (line : Nat) (mask : BitVec 256) (data : Line) (poison : BitVec 4) (hint : Bool) :
    (d.writeLine line mask data poison hint).pins = d.pins := (homeKeeps_pins d.pins).writeLine rfl line mask data poison hint
@[simp] theorem Dev.poisonLine_pins (d : Dev) (line : Nat) (sects : BitVec 4) : (d.poisonLine line sects).pins = d.pins :=
  (homeKeeps_pins d.pins).poisonLine rfl line sects

/-! ### Transactions of a home -/

@[simp] theorem Dev.snoopTile_pins (d : Dev) (line : Nat) (sects : BitVec 4) (t : Nat) (n : Option Nat) :
    (d.snoopTile line sects t n).2.pins = d.pins := by
  unfold Dev.snoopTile
  generalize (List.range 4096).filter (fun n => loomTile n = t) = ids
  exact Dev.foldl_pins (fun e _ => Dev.sendMsg_pins e _) d ids

@[simp] theorem Dev.snoopSharers_pins (d : Dev) (line : Nat) (e : CatEnt) (sects : BitVec 4) (n : Option Nat) :
    (d.snoopSharers line e sects n).2.pins = d.pins := by
  unfold Dev.snoopSharers
  split
  · split
    next s b hb =>
    refine (foldl_snd_pins (fun x h => ?_) _ _).trans ((congrArg (fun y => y.2.pins) hb.symm).trans (foldl_snd_pins (fun x t => ?_) _ _))
    · exact Dev.snoop_pins ..
    · simp
  · refine foldl_snd_pins (fun x i => ?_) _ _
    exact Dev.snoop_pins ..

@[simp] theorem Dev.pushStash_pins (d : Dev) (t : Txn) : (d.pushStash t).pins = d.pins := rfl

@[simp] theorem Dev.snoopNeed_pins (d : Dev) (r : Req) (e : CatEnt) (n : Nat × Need) : (d.snoopNeed r e n).2.pins = d.pins := by
  unfold Dev.snoopNeed
  dsimp only
  split <;> split <;> simp

@[simp] theorem Dev.source_pins (d : Dev) (t : Txn) (ks : List Nat) : (d.source t ks).2.pins = d.pins := by
  unfold Dev.source
  dsimp only
  split <;> simp

@[simp] theorem Dev.overrun_pins (d : Dev) (r a : Nat) : (d.overrun r a).pins = d.pins := by
  simp [Dev.overrun]

@[simp] theorem Dev.setRegCnt_pins (d : Dev) (r m v : Nat) : (d.setRegCnt r m v).pins = d.pins := rfl

theorem Dev.addElem_pins (sect : Nat) (poison : Bool) (data : Sector) (r i : Nat) (x : Sector × Dev) :
    (Dev.addElem sect poison data r i x).2.pins = x.2.pins := by
  unfold Dev.addElem
  dsimp only
  split
  · simp
  · split
    · simp
    · simp

@[simp] theorem Dev.triggerRegion_pins (d : Dev) (r : Nat) : (d.triggerRegion r).pins = d.pins := rfl

@[simp] theorem Dev.reduceSector_pins (d : Dev) (sect : Nat) (cur : Sector) (poison : Bool) (mask : BitVec 64) (data : Sector) :
    (d.reduceSector sect cur poison mask data).2.pins = d.pins := by
  unfold Dev.reduceSector
  dsimp only
  refine (Dev.foldl_pins (fun e i => ?_) _ _).trans ?_
  · split
    · simp
    · rfl
  · rw [Dev.ite_pins]
    refine (ite_congr rfl (fun _ => Dev.report_pins _ _ _ _) (fun _ => rfl)).trans ((ite_self _).trans ?_)
    refine foldl_snd_pins (fun x i => ?_) (cur, d) _
    split
    · rfl
    · split
      · rfl
      · split
        · exact Dev.addElem_pins ..
        · split
          · rfl
          · split
            · rfl
            · rfl

/-- A kind of request changes the device by entries of the catalogue, a memory event and a reduction only. -/
theorem Dev.finishSector_pins (t : Txn) (src : Src) (x : Grant × Dev) (k : Nat) :
    (Dev.finishSector t src x k).2.pins = x.2.pins := by
  obtain ⟨g, d⟩ := x
  unfold Dev.finishSector
  dsimp only
  repeat' split
  all_goals simp

@[simp] theorem Dev.finish_pins (d : Dev) (t : Txn) (ks : List Nat) : (d.finish t ks).2.pins = d.pins := by
  have hfold (x : Grant × Dev) (src : Src) : (ks.foldl (Dev.finishSector t src) x).2.pins = x.2.pins :=
    foldl_snd_pins (Dev.finishSector_pins t src) x ks
  have hread (dead : BitVec 4) : ((if dead = 0 then d else d.poisonLine t.req.line.toNat dead).source t ks).2.pins = d.pins :=
    (Dev.source_pins ..).trans (Dev.ite_pins_eq rfl (Dev.poisonLine_pins ..))
  exact Dev.ite_pins_eq ((hfold ..).trans (hread _)) ((Dev.writeLine_pins ..).trans ((hfold ..).trans (hread _)))

@[simp] theorem Dev.answer_pins (d : Dev) (r : Req) (g : Grant) : (d.answer r g).pins = d.pins := by
  have hdata (m : Msg) : (if g.sects ≠ 0 then d.sendMsg m else d).pins = d.pins := Dev.ite_pins_eq rfl rfl
  exact Dev.ite_pins_eq (hdata _) (hdata _)

@[simp] theorem Dev.giveCredit_pins (d : Dev) (m : Nat) : (d.giveCredit m).pins = d.pins := by
  unfold Dev.giveCredit
  split
  · rfl
  · simp

@[simp] theorem Dev.endTxn_pins (d : Dev) (line : Nat) : (d.endTxn line).pins = d.pins := by
  simp [Dev.endTxn]

@[simp] theorem Dev.finished_pins (d : Dev) (t : Txn) : (d.finished t).pins = d.pins := by
  have hcomp (m : Msg) : (if t.req.kind.comped then d.sendMsg m else d).pins = d.pins := Dev.ite_pins_eq rfl rfl
  exact Dev.ite_pins_eq rfl (Dev.ite_pins_eq ((Dev.endTxn_pins ..).trans (hcomp _)) (hcomp _))

@[simp] theorem Dev.resolve_pins (d : Dev) (t : Txn) : (d.resolve t).pins = d.pins := by
  unfold Dev.resolve
  dsimp only
  split
  · simp
  · have hsnoops (e : CatEnt) (ks : List Nat) (x : List Snoop × List Nat × Dev) : (ks.foldl (fun x k =>
        let (w, d) := x.2.2.snoopNeed t.req e (k, need t.req e k)
        (x.1 ++ w, if w.isEmpty then x.2.1 ++ [k] else x.2.1, d)) x).2.2.pins = x.2.2.pins :=
      foldl_keeps (fun y : List Snoop × List Nat × Dev => y.2.2.pins = x.2.2.pins) (fun _ _ hy => (Dev.snoopNeed_pins ..).trans hy) _ _ rfl
    refine Dev.ite_pins_eq ((Dev.finished_pins _ _).trans ?_) ((Dev.setTxn_pins _ _ _).trans ?_)
    · exact (Dev.answer_pins ..).trans ((Dev.finish_pins ..).trans (hsnoops ..))
    · exact (Dev.answer_pins ..).trans ((Dev.finish_pins ..).trans (hsnoops ..))

@[simp] theorem Dev.openEnt_pins (d : Dev) (line : Nat) : (d.openEnt line).pins = d.pins := by
  unfold Dev.openEnt
  dsimp only
  split
  · rfl
  · split
    · rfl
    · rfl

@[simp] theorem Dev.evicted_pins (d : Dev) (t : Txn) (v : Nat) : (d.evicted t v).pins = d.pins := by
  simp [Dev.evicted]

/-- The snoops of sector k of a line whose entry is taken. -/
def snoopVictim (v : Nat) (e : CatEnt) (x : List Snoop × Dev) (k : Nat) : List Snoop × Dev :=
  let bit := (1 : BitVec 4) <<< k
  let s := e.sec k
  let x := if s.st = .excl || s.st = .owned then
      let (w, d) := x.2.snoop .recallInv v bit s.owner; (x.1 ++ [w], d) else x
  if s.st = .shared || s.st = .owned then
    let e' := if s.st = .owned then e.dropSharer s.owner else e
    let (w, d) := x.2.snoopSharers v e' bit none; (x.1 ++ w, d)
  else x

@[simp] theorem Dev.evict_pins (d : Dev) (t : Txn) (v : Nat) : (d.evict t v).pins = d.pins := by
  have hsnoops (e : CatEnt) (x : List Snoop × Dev) (k : Nat) : (snoopVictim v e x k).2.pins = x.2.pins := by
    unfold snoopVictim
    dsimp only
    split <;> split <;> simp
  have hall := foldl_snd_pins (hsnoops (d.ent v)) ([], d) (List.range 4)
  unfold Dev.evict
  exact Dev.ite_pins_eq ((Dev.evicted_pins ..).trans hall) ((Dev.setTxn_pins ..).trans hall)

@[simp] theorem Dev.enter_pins (d : Dev) (t : Txn) : (d.enter t).pins = d.pins := by
  unfold Dev.enter
  dsimp only
  split
  · split
    · rfl
    · exact Dev.evict_pins ..
  · simp

@[simp] theorem Dev.startWaiting_pins (d : Dev) (r : Req) : (d.startWaiting r).pins = d.pins := by
  simp [Dev.startWaiting, Dev.startTxn]

@[simp] theorem Dev.drainHome_pins (m k : Nat) (d : Dev) : (Dev.drainHome m k d).pins = d.pins := by
  induction k generalizing d with
  | zero => rfl
  | succ k ih =>
    unfold Dev.drainHome
    split
    · simp [ih]
    · simp [ih]
    · rfl

@[simp] theorem Dev.releaseLine_pins (d : Dev) (line : Nat) : (d.releaseLine line).pins = d.pins := Dev.drainHome_pins ..

@[simp] theorem Dev.advance_pins (d : Dev) (line : Nat) : (d.advance line).pins = d.pins := by
  unfold Dev.advance
  cases d.txn line with
  | none => rfl
  | some t =>
    dsimp only
    refine Dev.ite_pins_eq rfl ?_
    cases t.phase with
    | evict v => simp
    | snoop => simp
    | _ => rfl

@[simp] theorem Dev.snoopDead_pins (d : Dev) (key : Nat) (s : Snoop) : (d.snoopDead key s).pins = d.pins := by
  unfold Dev.snoopDead
  split
  · rfl
  · dsimp only
    refine (Dev.advance_pins ..).trans ((Dev.report_pins ..).trans ((Dev.satAdd_pins ..).trans ((Dev.setEnt_pins ..).trans ?_)))
    have hsnoops (p : Nat → Bool) (line : Nat) (e : CatEnt) (ks : List Nat) (x : List Snoop × Dev) : (ks.foldl (fun x k =>
        if p k then
          let (w, d) := x.2.snoopSharers line e ((1 : BitVec 4) <<< k) none; (x.1 ++ w, d) else x) x).2.pins = x.2.pins := by
      refine foldl_snd_pins (fun x k => ?_) _ _
      split
      · exact Dev.snoopSharers_pins ..
      · rfl
    split
    · exact (Dev.setTxn_pins ..).trans (hsnoops ..)
    · exact hsnoops ..

@[simp] theorem Dev.absentSnoops_pins (d : Dev) (k : Nat) : (d.absentSnoops k).pins = d.pins := by
  induction k generalizing d with
  | zero => rfl
  | succ k ih =>
    unfold Dev.absentSnoops
    split
    · simp [ih]
    · rfl

@[simp] theorem Dev.headAbsent_pins (d : Dev) (h : HeadId) : (d.headAbsent h).pins = d.pins :=
  Dev.absentSnoops_pins _ _

@[simp] theorem Dev.headGone_pins (d : Dev) (h : HeadId) : (d.headGone h).pins = d.pins := by
  simp [Dev.headGone]

/-! ### Heads, fault records, answers to looms -/

@[simp] theorem Dev.logHeader_pins (d : Dev) (h : HeadId) : (d.logHeader h).pins = d.pins := rfl

@[simp] theorem Dev.firstError_pins (d : Dev) (h : HeadId) (e : Aer) (i : Nat) (was : BitVec 32) :
    (d.firstError h e i was).pins = d.pins := by
  simp [Dev.firstError]

@[simp] theorem Dev.aerAdvisory_pins (d : Dev) (h : HeadId) (e : Aer) (i : Nat) : (d.aerAdvisory h e i).pins = d.pins := by
  simp [Dev.aerAdvisory]

@[simp] theorem Dev.setWgState_pins (d : Dev) (w s : Nat) : (d.setWgState w s).pins = d.pins :=
  (Dev.foldl_pins (fun _ _ => Dev.setFld_pins ..) _ _).trans rfl

@[simp] theorem Dev.askStop_pins (d : Dev) (n : LoomId) (e : Ending) : (d.askStop n e).pins = d.pins := by
  simp [Dev.askStop]

@[simp] theorem Dev.preserveWing_pins (d : Dev) (w : Nat) : (d.preserveWing w).pins = d.pins := by
  have hstop (e : Dev) (l : List LoomId) : (l.foldl (fun (e : Dev) n => e.askStop n .paused) e).pins = e.pins :=
    Dev.foldl_pins (fun _ _ => Dev.askStop_pins ..) _ _
  simp [Dev.preserveWing, hstop]

@[simp] theorem Dev.driveInta_pins (d : Dev) (h : HeadId) : (d.driveInta h).pins = d.pins := by
  simp [Dev.driveInta]

@[simp] theorem Dev.interrupt_pins (d : Dev) (h : HeadId) (v : Nat) : (d.interrupt h v).pins = d.pins := by
  simp [Dev.interrupt]

@[simp] theorem Dev.showNp_pins (d : Dev) (h : HeadId) : (d.showNp h).pins = d.pins := rfl

@[simp] theorem Dev.ask_pins (d : Dev) (w : Work) (line : Nat) (sects : BitVec 4) (write : Bool) :
    (d.ask w line sects write).pins = d.pins := by
  simp [Dev.ask]

@[simp] theorem Dev.fqAsk_pins (d : Dev) (w : Nat) : (d.fqAsk w).pins = d.pins := by
  simp [Dev.fqAsk, Dev.askWrite]

@[simp] theorem Dev.dropCopies_pins (d : Dev) (line k : Nat) : (d.dropCopies line k).pins = d.pins := by
  unfold Dev.dropCopies
  refine Dev.ite_pins_eq rfl ((Dev.setEnt_pins ..).trans (Dev.foldl_pins (fun _ _ => ?_) _ _))
  exact Dev.setLoom_pins ..

@[simp] theorem Dev.writeNow_pins (d : Dev) (line : Nat) (mask : BitVec 256) (data : Line) (poison : BitVec 4) (hint : Bool) :
    (d.writeNow line mask data poison hint).pins = d.pins :=
  (Dev.writeLine_pins ..).trans (Dev.foldl_pins (fun _ _ => Dev.dropCopies_pins ..) _ _)

@[simp] theorem Dev.fqWrite_pins (d : Dev) (r : FRec) (res : Bool) : (d.fqWrite r res).pins = d.pins := by
  simp [Dev.fqWrite]

@[simp] theorem Dev.fqFlush_pins (w k : Nat) (d : Dev) : (Dev.fqFlush w k d).pins = d.pins := by
  induction k generalizing d with
  | zero => rfl
  | succ k ih =>
    unfold Dev.fqFlush
    split
    · rfl
    · simp [ih]

@[simp] theorem Dev.fqDrain_pins (d : Dev) (w : Nat) : (d.fqDrain w).pins = d.pins := Dev.fqFlush_pins ..

@[simp] theorem Dev.fqNote_pins (d : Dev) (r : FRec) : (d.fqNote r).pins = d.pins := by
  simp [Dev.fqNote]

@[simp] theorem Dev.fqRetry_pins (d : Dev) : d.fqRetry.pins = d.pins :=
  (Dev.foldl_pins Dev.fqDrain_pins _ _).trans ((Dev.foldl_pins Dev.fqNote_pins _ _).trans rfl)

@[simp] theorem Dev.joinRec_pins (d : Dev) (r : FRec) : (d.joinRec r).pins = d.pins := by
  simp [Dev.joinRec, Dev.openRec]

@[simp] theorem Dev.fillGo_pins (w : WingId) (k : Nat) (d : Dev) : (Dev.fillGo w k d).pins = d.pins := by
  induction k generalizing d with
  | zero => rfl
  | succ k ih =>
    unfold Dev.fillGo
    dsimp only
    split
    · simp [ih]
    · rfl

@[simp] theorem Dev.closeEmpty_pins (d : Dev) (w : WingId) : (d.closeEmpty w).pins = d.pins := by
  simp [Dev.closeEmpty, Dev.fillRecs]

@[simp] theorem Dev.assignGo_pins (k : Nat) (d : Dev) : (Dev.assignGo k d).pins = d.pins := by
  induction k generalizing d with
  | zero => rfl
  | succ k ih =>
    unfold Dev.assignGo
    split
    · rfl
    · simp [ih]

@[simp] theorem Dev.endWalks_pins (d : Dev) (mine : Walk → Bool) : (d.endWalks mine).pins = d.pins := by
  unfold Dev.endWalks
  refine Dev.ite_pins_eq rfl ((Dev.assignGo_pins ..).trans (Dev.foldl_pins (fun _ _ => Dev.endAsks_pins ..) _ _))

@[simp] theorem Dev.leaveRec_pins (d : Dev) (e : Engine) : (d.leaveRec e).pins = d.pins :=
  (Dev.foldl_pins Dev.closeEmpty_pins _ _).trans (Dev.endWalks_pins ..)

@[simp] theorem Dev.lostWrite_pins (d : Dev) (n : LoomId) (va : W64) : (d.lostWrite n va).pins = d.pins := rfl

@[simp] theorem Dev.discardStores_pins (d : Dev) (p : Dest → Bool) : (d.discardStores p).pins = d.pins := by
  unfold Dev.discardStores
  refine Dev.foldl_pins (fun e i => ?_) _ _
  dsimp only
  refine Dev.ite_pins_eq rfl ((Dev.foldl_pins (fun _ _ => Dev.lostWrite_pins ..) _ _).trans ?_)
  simp

@[simp] theorem Dev.unstall_pins (d : Dev) (e : Engine) : (d.unstall e).pins = d.pins := by
  cases e <;> simp [Dev.unstall, Dev.onCourier]

@[simp] theorem Dev.setStore_pins (d : Dev) (n : LoomId) (e e' : StEnt) : (d.setStore n e e').pins = d.pins := rfl

@[simp] theorem Dev.popStore_pins (d : Dev) (n : LoomId) (e : StEnt) : (d.popStore n e).pins = d.pins := rfl

@[simp] theorem Dev.storeAck_pins (d : Dev) (n : LoomId) (tag : Nat) (r : Reply) : (d.storeAck n tag r).pins = d.pins := by
  unfold Dev.storeAck
  dsimp only
  split
  · simp
  · split
    · simp
    · rfl

@[simp] theorem Dev.setReg_pins (d : Dev) (n : LoomId) (r : Reg) (v : W64) : (d.setReg n r v).pins = d.pins := rfl

@[simp] theorem Dev.nextPc_pins (d : Dev) (n : LoomId) (k : Nat) : (d.nextPc n k).pins = d.pins := rfl

@[simp] theorem Dev.releaseMember_pins (v : W64) (d : Dev) (n : LoomId) : (Dev.releaseMember v d n).pins = d.pins := by
  unfold Dev.releaseMember
  split
  · simp
  · rfl

@[simp] theorem Dev.releaseGroup_pins (d : Dev) (k : Nat) (v : W64) : (d.releaseGroup k v).pins = d.pins :=
  (Dev.foldl_pins (Dev.releaseMember_pins v) _ _).trans rfl

@[simp] theorem Dev.breakGroup_pins (d : Dev) (n : LoomId) : (d.breakGroup n).pins = d.pins := by
  unfold Dev.breakGroup
  split
  · rfl
  · simp

@[simp] theorem Dev.stop_pins (d : Dev) (n : LoomId) (e : ErrCode) : (d.stop n e).pins = d.pins := by
  simp [Dev.stop]

@[simp] theorem Dev.loadDone_pins (d : Dev) (n : LoomId) (w : LoadW) (off : Nat) (line : Line) :
    (d.loadDone n w off line).pins = d.pins := rfl

@[simp] theorem Dev.treadleReply_pins (d : Dev) (n : LoomId) (tag : Nat) (r : Reply) : (d.treadleReply n tag r).pins = d.pins := by
  unfold Dev.treadleReply
  dsimp only
  split
  · simp
  · simp
  · simp

@[simp] theorem Dev.notify_pins (d : Dev) (n : LoomId) (i : BitVec 6) : (d.notify n i).pins = d.pins := by
  unfold Dev.notify Dev.inboxRelease
  dsimp only
  split
  · simp
  · simp

@[simp] theorem Dev.tallyFault_pins (d : Dev) (n : LoomId) (t : Tally) (f : TFault) : (d.tallyFault n t f).pins = d.pins := by
  simp [Dev.tallyFault]

@[simp] theorem Dev.tallyRelease_pins (d : Dev) (n : LoomId) : (d.tallyRelease n).pins = d.pins := by
  unfold Dev.tallyRelease
  dsimp only
  split
  · simp
  · simp
  · rfl

@[simp] theorem Dev.tallyDone_pins (d : Dev) (n : LoomId) (t : Tally) (id : Nat) (f : Option TFault) :
    (d.tallyDone n t id f).pins = d.pins := by
  cases f <;> simp [Dev.tallyDone]

@[simp] theorem Dev.xferEnd_pins (d : Dev) (n : LoomId) (id : Nat) : (d.xferEnd n id).pins = d.pins := by
  unfold Dev.xferEnd
  split
  · rfl
  · simp

@[simp] theorem Dev.setXfer_pins (d : Dev) (n : LoomId) (x : Xfer) : (d.setXfer n x).pins = d.pins := rfl

@[simp] theorem Dev.xferFault_pins (d : Dev) (n : LoomId) (id : Nat) (f : TFault) (stop : Bool) :
    (d.xferFault n id f stop).pins = d.pins := by
  unfold Dev.xferFault
  split
  · rfl
  · simp

@[simp] theorem Dev.scratchWrite_pins (d : Dev) (n a len v : Nat) : (d.scratchWrite n a len v).pins = d.pins := rfl

@[simp] theorem Dev.xferReply_pins (d : Dev) (n : LoomId) (tag : Nat) (r : Reply) : (d.xferReply n tag r).pins = d.pins := by
  unfold Dev.xferReply
  split
  · simp
  · split
    · rfl
    · simp

@[simp] theorem Dev.fetchReply_pins (d : Dev) (n : LoomId) (tag : Nat) (r : Reply) : (d.fetchReply n tag r).pins = d.pins := by
  unfold Dev.fetchReply Dev.fetchWait
  dsimp only
  split
  · simp
  · rfl

/-! ### Couriers and ports -/

@[simp] theorem Dev.descIssued_pins (d : Dev) (q : Nat) : (d.descIssued q).pins = d.pins := by
  unfold Dev.descIssued
  dsimp only
  split
  · simp
  · rfl

@[simp] theorem Dev.endDesc_pins (d : Dev) (q st : Nat) : (d.endDesc q st).pins = d.pins := by
  unfold Dev.endDesc
  dsimp only
  split
  · simp
  · rfl

@[simp] theorem Dev.lostDesc_pins (d : Dev) (q own off st : Nat) : (d.lostDesc q own off st).pins = d.pins := by
  unfold Dev.lostDesc
  dsimp only
  split
  · simp
  · rfl

@[simp] theorem Dev.addOut_pins (d : Dev) (q : Nat) (o : COut) : (d.addOut q o).pins = d.pins := rfl

@[simp] theorem Dev.reportLost_pins (d : Dev) (p : CPath) (a w : Nat) : (d.reportLost p a w).pins = d.pins := by
  cases p <;> rfl

@[simp] theorem Dev.hostSend_pins (d : Dev) (h : HeadId) (r : HostReq) : (d.hostSend h r).pins = d.pins := by
  simp [Dev.hostSend]

@[simp] theorem Dev.sendFlit_pins (d : Dev) (q : PortId) (seq ackType kind : Nat) (slots : List (BitVec 128)) :
    (d.sendFlit q seq ackType kind slots).pins = d.pins := rfl

@[simp] theorem Dev.sendSlots_pins (q : PortId) (k : Nat) (d : Dev) (slots : List (BitVec 128)) :
    (d.sendSlots q k slots).pins = d.pins := by
  induction k generalizing d slots with
  | zero => rfl
  | succ k ih =>
    cases slots with
    | nil => rfl
    | cons s l => exact (ih ..).trans rfl

theorem Dev.placeItem_pins (q : PortId) (x : Dev × List (BitVec 3) × List PItem) (i : PItem) : (Dev.placeItem q x i).1.pins = x.1.pins := by
  obtain ⟨d, blocked, left⟩ := x
  unfold Dev.placeItem
  dsimp only
  split
  · rfl
  · split
    · simp
    · split
      · rfl
      · split <;> simp

@[simp] theorem Dev.pump_pins (d : Dev) (q : PortId) : (d.pump q).pins = d.pins := by
  unfold Dev.pump
  refine Dev.ite_pins_eq rfl ?_
  exact foldl_keeps (fun y : Dev × List (BitVec 3) × List PItem => y.1.pins = d.pins)
    (fun _ _ hy => (Dev.placeItem_pins ..).trans hy) _ _ rfl

@[simp] theorem Dev.enqueue_pins (d : Dev) (q : PortId) (i : PItem) : (d.enqueue q i).pins = d.pins := Dev.pump_pins ..

@[simp] theorem Dev.peerSend_pins (d : Dev) (a : Agent) (tag : Nat) (p : PeerId) (m : PMsg) (early : Bool) :
    (d.peerSend a tag p m early).2.pins = d.pins := by
  unfold Dev.peerSend
  split
  · rfl
  · split
    · rfl
    · simp

@[simp] theorem Dev.courierWrite_pins (d : Dev) (q : Nat) (c : BitVec 6) (o : COut) (data : Line) (poison : BitVec 4) :
    (d.courierWrite q c o data poison).pins = d.pins := by
  have htag : (if o.read || o.clear then (o.tag, d) else d.newTag).2.pins = d.pins := by
    split <;> rfl
  unfold Dev.courierWrite
  generalize (if o.read || o.clear then (o.tag, d) else d.newTag) = x at htag ⊢
  obtain ⟨tag, e⟩ := x
  dsimp only
  cases o.path with
  | device => exact htag
  | host h =>
    exact Dev.ite_pins_eq ((Dev.lostDesc_pins ..).trans ((Dev.reportLost_pins ..).trans htag)) ((Dev.hostSend_pins ..).trans htag)
  | peer p =>
    dsimp only
    have sent {y : Sent × Dev} {m : PMsg} (hy : e.peerSend (.courier c) tag p m false = y) : y.2.pins = d.pins :=
      hy ▸ (Dev.peerSend_pins ..).trans htag
    split
    next hy => exact (Dev.lostDesc_pins ..).trans (sent hy)
    next hy => exact sent hy

@[simp] theorem Dev.passOn_pins (d : Dev) (q : Nat) (o : COut) : (d.passOn q o).pins = d.pins := by
  simp [Dev.passOn]

@[simp] theorem Dev.passReady_pins (c : BitVec 6) (k : Nat) (d : Dev) : (Dev.passReady c k d).pins = d.pins := by
  induction k generalizing d with
  | zero => rfl
  | succ k ih =>
    unfold Dev.passReady
    refine Dev.ite_pins_eq rfl ?_
    split
    · simp [ih]
    · rfl

@[simp] theorem Dev.passAll_pins (d : Dev) (c : BitVec 6) : (d.passAll c).pins = d.pins := Dev.passReady_pins ..

@[simp] theorem Dev.courierData_pins (d : Dev) (q : Nat) (o : COut) (r : Reply) : (d.courierData q o r).pins = d.pins := by
  unfold Dev.courierData
  dsimp only
  cases (d.queue q).cur with
  | none => simp
  | some y => simp

@[simp] theorem Dev.clearSource_pins (d : Dev) (q : Nat) (o : COut) : (d.clearSource q o).pins = d.pins := by
  simp [Dev.clearSource]

@[simp] theorem Dev.reportCpl_pins (d : Dev) (h : HeadId) (a w : Nat) : (d.reportCpl h a w).pins = d.pins := rfl

@[simp] theorem Dev.slotFail_pins (d : Dev) (q n : Nat) : (d.slotFail q n).pins = d.pins := by
  simp [Dev.slotFail]

@[simp] theorem Dev.slotRead_pins (d : Dev) (q n v : Nat) : (d.slotRead q n v).pins = d.pins := by
  unfold Dev.slotRead
  dsimp only
  refine Dev.ite_pins_eq (Dev.slotFail_pins ..) ?_
  split
  · rfl
  · simp

@[simp] theorem Dev.courierReply_pins (d : Dev) (c : BitVec 6) (tag : Nat) (r : Reply) : (d.courierReply c tag r).pins = d.pins := by
  unfold Dev.courierReply
  split
  · split
    · rfl
    · simp
  · dsimp only
    split
    · rw [Dev.setQueue_pins]
      split
      · split <;> rfl
      · rfl
    · split
      · rfl
      · split
        · split
          · rfl
          · simp
        · rfl

/-! ### Freezes and errors -/

@[simp] theorem Dev.answerAgent_pins (d : Dev) (a : Agent) (tag : Nat) (r : Reply) : (d.answerAgent a tag r).pins = d.pins := by
  unfold Dev.answerAgent
  split <;> simp [Dev.asked]

@[simp] theorem Dev.breakPath_pins (d : Dev) (h : HeadId) : (d.breakPath h).pins = d.pins :=
  (Dev.foldl_pins (fun _ _ => Dev.answerAgent_pins ..) _ _).trans
    ((Dev.foldl_pins (fun _ _ => Dev.unstall_pins ..) _ _).trans (Dev.discardStores_pins ..))

@[simp] theorem Dev.freeze_pins (d : Dev) (h : HeadId) (cause : Nat) : (d.freeze h cause).pins = d.pins := by
  simp [Dev.freeze]

@[simp] theorem Dev.aer_pins (d : Dev) (h : HeadId) (e : Aer) (np : Bool) : (d.aer h e np).pins = d.pins := by
  simp [Dev.aer]

/-- An error that hardware detects leaves the shuttle pins. -/

theorem Dev.hwError_pins (d : Dev) (x : HwErr) : (d.hwError x).pins = d.pins := by
  cases x <;> simp [Dev.hwError]

end Sys2Proof.Machine
end

section
/-! SUPPORT. The ledger's commands (R438 to R453, R470; Tables 18-1 to 18-4). -/

namespace Sys2Proof.Machine

section
variable {d : Dev}

/-! ### Events (R438, R439, R442) -/

section
variable (hon : d.ledgerOn = true)
include hon

/-- A hardware error is reported before the ledger takes the oldest report. -/
theorem Dev.ledgerEvent_some (x : HwErr) : d.ledgerEvent (some x) = (d.hwError x).ledgerEvent none := by
  have hon' : (d.hwError x).ledgerOn = true := by
    unfold Dev.ledgerOn
    rw [Dev.hwError_pins]
    exact hon
  unfold Dev.ledgerEvent
  rw [if_neg (by simp [hon]), if_neg (by simp [hon'])]

theorem Dev.ledgerEvent_nil (hr : d.reports = []) : d.ledgerEvent none = d := by
  unfold Dev.ledgerEvent
  rw [if_neg (by simp [hon])]
  dsimp only
  rw [hr]

theorem Dev.ledgerEvent_cons {r : Report} {rest : List Report} (hr : d.reports = r :: rest) : d.ledgerEvent none =
    if d.fld Fld.LEDGER_SRC_RAIL_BAD r.src = 1 then { d with reports := rest }
    else ({ d with reports := rest } : Dev).event r.src r.detail r.wing false false := by
  unfold Dev.ledgerEvent
  rw [if_neg (by simp [hon])]
  dsimp only
  rw [hr]
  rfl

end

/-- The device once the window of a source has begun with one event (R442). -/
def Dev.windowed (d : Dev) (n : Nat) : Dev :=
  (d.setLedger { d.ledger with wstart := Fmap.put d.ledger.wstart n d.tick }).setFld Fld.LEDGER_SRC_WCOUNT n 1

theorem Dev.windowed_fld (n m : Nat) (f : Field) (hw : f.id ≠ Fld.LEDGER_SRC_WCOUNT.id) : (d.windowed n).fld f m = d.fld f m :=
  (Dev.fld_setFld_ne _ _ _ _ _ _ hw).trans rfl

/-- The device once the first event of a window has been counted. -/
def Dev.counted (d : Dev) (n : Nat) : Dev := (d.windowed n).satAdd Fld.LEDGER_CNT_TOTAL n 1

theorem Dev.counted_fld (n m : Nat) (f : Field) (hw : f.id ≠ Fld.LEDGER_SRC_WCOUNT.id) (ht : f.id ≠ Fld.LEDGER_CNT_TOTAL.id) :
    (d.counted n).fld f m = d.fld f m :=
  (Dev.fld_setFld_ne _ _ _ _ _ _ ht).trans (Dev.windowed_fld n m f hw)

/-- The record that the first event of a source opens. -/
def Dev.firstRecord (d : Dev) (n detail wing : Nat) : LRec :=
  { seq := d.fld Fld.LEDGER_STATUS_NEXT_SEQ 0, source := n, cls := d.fld Fld.LEDGER_SRC_BASE n, forced := false, rail := false,
    wing := wing, first := d.tick, last := d.tick, detail := detail }

/-- The device once a source's first event has opened record r and has been latched (R442, R443). -/
def Dev.recorded (d : Dev) (r : LRec) : Dev :=
  let e := d.counted r.source
  let slot := e.ledger.slotFor
  let f := (e.setLedger (({ e.ledger with ring := Fmap.put e.ledger.ring slot r, next := (slot + 1) % 4096 } : Ledger).touch slot)).setFld
    Fld.LEDGER_STATUS_NEXT_SEQ 0 (r.seq + 1)
  ((f.setFld Fld.LEDGER_SRC_OPEN r.source 1).setFld Fld.LEDGER_SRC_SLOT r.source slot).latch r.source r.cls r.seq true

theorem Dev.event_first {n : Nat} (detail wing : Nat) (hcount : d.fld Fld.LEDGER_SRC_WCOUNT n = 0)
    (hopen : d.fld Fld.LEDGER_SRC_OPEN n = 0) (hesc : d.fld Fld.LEDGER_SRC_ESCALATED n = 0) (hN : 2 ≤ d.fld Fld.LEDGER_SRC_N n)
    {fatal : Bool} (hfatal : decide (d.fld Fld.LEDGER_SRC_BASE n = clsFatal) = fatal) :
    d.event n detail wing false false =
      let r := d.firstRecord n detail wing
      let e := (d.recorded r).ledgerNotify r true fatal
      if fatal then (e.setLedger { e.ledger with lastFatal := some (e.tick, r.seq) }).contain n r.seq false else e := by
  have hw : (d.setLedger { d.ledger with wstart := Fmap.put d.ledger.wstart n d.tick }).setFld Fld.LEDGER_SRC_WCOUNT n 1 =
      d.windowed n := rfl
  have hc : (d.windowed n).satAdd Fld.LEDGER_CNT_TOTAL n 1 = d.counted n := rfl
  have hlow : ¬1 ≥ (d.windowed n).fld Fld.LEDGER_SRC_N n := by
    rw [Dev.windowed_fld _ _ _ (by decide)]
    omega
  have hesc' : (d.windowed n).fld Fld.LEDGER_SRC_ESCALATED n = 0 := (Dev.windowed_fld _ _ _ (by decide)).trans hesc
  have hbase : (d.windowed n).fld Fld.LEDGER_SRC_BASE n = d.fld Fld.LEDGER_SRC_BASE n := Dev.windowed_fld _ _ _ (by decide)
  have hopen' : (d.counted n).fld Fld.LEDGER_SRC_OPEN n = 0 := (Dev.counted_fld _ _ _ (by decide) (by decide)).trans hopen
  have hseq : (d.counted n).fld Fld.LEDGER_STATUS_NEXT_SEQ 0 = d.fld Fld.LEDGER_STATUS_NEXT_SEQ 0 :=
    Dev.counted_fld _ _ _ (by decide) (by decide)
  have htick : (d.counted n).tick = d.tick := rfl
  simp only at hw
  unfold Dev.event
  simp only [hcount, decide_true, Bool.true_or, ↓reduceIte, Nat.zero_add, show min 1 2047 = 1 from rfl, hw]
  simp only [if_neg hlow, hesc', hbase, hc, hopen', Nat.zero_ne_one, ↓reduceIte, Option.isNone_none, reduceCtorEq, ne_eq,
    not_false_eq_true, decide_true, Bool.and_true, Bool.true_or, Dev.newRecord, hseq, htick, hfatal, Dev.recorded, Dev.firstRecord]

/-! ### Notices leave the tick -/

theorem Dev.interrupt_tick (h : HeadId) (v : Nat) : (d.interrupt h v).tick = d.tick := by
  simp [Dev.interrupt, Dev.driveInta, Dev.orFld, Dev.send, apply_ite Dev.tick]

theorem Dev.ledgerNotify_tick (r : LRec) (rose fatal : Bool) : (d.ledgerNotify r rose fatal).tick = d.tick := by
  refine foldl_keeps (fun e : Dev => e.tick = d.tick) (fun e h he => ?_) _ _ rfl
  dsimp only
  split
  · exact (Dev.interrupt_tick _ _).trans he
  · exact he

theorem Dev.latch_tick (n cls seq : Nat) (opened : Bool) : (d.latch n cls seq opened).tick = d.tick := by
  simp [Dev.latch, Dev.satAdd, apply_ite Dev.tick]

theorem Dev.recorded_tick (r : LRec) : (d.recorded r).tick = d.tick := Dev.latch_tick ..

/-! ### The first event of a source, taken by the ledger (R442) -/

/-- The device that has recorded the oldest report as the first event of its source. -/
def Dev.firstTaken (d : Dev) (r : Report) (rest : List Report) : Dev :=
  ({ d with reports := rest } : Dev).recorded (d.firstRecord r.src r.detail r.wing)

section
variable {r : Report} {rest : List Report} (hon : d.ledgerOn = true) (hr : d.reports = r :: rest)
  (hgood : d.fld Fld.LEDGER_SRC_RAIL_BAD r.src = 0) (hcount : d.fld Fld.LEDGER_SRC_WCOUNT r.src = 0)
  (hopen : d.fld Fld.LEDGER_SRC_OPEN r.src = 0) (hesc : d.fld Fld.LEDGER_SRC_ESCALATED r.src = 0)
  (hN : 2 ≤ d.fld Fld.LEDGER_SRC_N r.src)
include hon hr hgood hcount hopen hesc hN

theorem Dev.ledgerEvent_takes {fatal : Bool} (hfatal : decide (d.fld Fld.LEDGER_SRC_BASE r.src = clsFatal) = fatal) :
    d.ledgerEvent none =
      let rec_ := d.firstRecord r.src r.detail r.wing
      let k := (d.firstTaken r rest).ledgerNotify rec_ true fatal
      if fatal then (k.setLedger { k.ledger with lastFatal := some (d.tick, rec_.seq) }).contain r.src rec_.seq false else k := by
  have hrec : ({ d with reports := rest } : Dev).firstRecord r.src r.detail r.wing = d.firstRecord r.src r.detail r.wing := rfl
  have htick : ((d.firstTaken r rest).ledgerNotify (d.firstRecord r.src r.detail r.wing) true fatal).tick = d.tick :=
    (Dev.ledgerNotify_tick ..).trans (Dev.recorded_tick _)
  unfold Dev.firstTaken at htick ⊢
  rw [Dev.ledgerEvent_cons hon hr, if_neg (hgood ▸ Nat.zero_ne_one),
    Dev.event_first (d := { d with reports := rest }) (n := r.src) r.detail r.wing hcount hopen hesc hN hfatal]
  simp only [hrec, htick]

theorem Dev.ledgerEvent_opens (hcls : d.fld Fld.LEDGER_SRC_BASE r.src < clsFatal) :
    d.ledgerEvent none = (d.firstTaken r rest).ledgerNotify (d.firstRecord r.src r.detail r.wing) true false := by
  rw [Dev.ledgerEvent_takes hon hr hgood hcount hopen hesc hN (decide_eq_false (Nat.ne_of_lt hcls))]
  simp only [Bool.false_eq_true, ↓reduceIte]

theorem Dev.ledgerEvent_contains (hcls : d.fld Fld.LEDGER_SRC_BASE r.src = clsFatal) : d.ledgerEvent none =
    (let rec_ := d.firstRecord r.src r.detail r.wing
     let k := (d.firstTaken r rest).ledgerNotify rec_ true true
     let seq := d.fld Fld.LEDGER_STATUS_NEXT_SEQ 0
     (k.setLedger { k.ledger with lastFatal := some (d.tick, seq) }).contain r.src seq false) := by
  rw [Dev.ledgerEvent_takes hon hr hgood hcount hopen hesc hN (decide_eq_true hcls)]
  simp only [↓reduceIte, Dev.firstRecord]

end

/-! ### Containment and release (R449, R450) -/

theorem Dev.contain_run {n seq : Nat} (hfatal : d.fatal = false) (hrun : d.pins.phase = .run) : d.contain n seq false =
    (let c := faultClass n
     let e := ((((((d.setFld Fld.LEDGER_FATAL_VALID 0 1).setFld Fld.LEDGER_FATAL_TRIP 0 (if n = 0x363 then 1 else 0)).setFld
       Fld.LEDGER_FATAL_RELEASED 0 0).setFld Fld.LEDGER_FATAL_FORCED 0 0).setFld Fld.LEDGER_FATAL_FAULT_CLASS 0 c).setFld
       Fld.LEDGER_FATAL_SOURCE 0 n)
     let e := ((e.setFld Fld.LEDGER_FATAL_SEQ 0 seq).setFld Fld.LEDGER_STATUS_FATAL 0 1).setFld Fld.LEDGER_STATUS_FAULT_PHASE 0 1
     let p : Pins := { d.pins with phase := .fault, alive := false, fault := true, faultAt := d.tick, nibble := c, frameAt := none,
                                   throttleIn := false, throttled := false, hot := false, limited := false }
     ({ e with pins := p } : Dev).containAll) := by
  have htrip : b01 (n = 0x363) = if n = 0x363 then 1 else 0 := by simp [b01]
  unfold Dev.contain
  rw [if_neg (by simp [hfatal])]
  dsimp only
  rw [htrip]
  refine congrArg Dev.containAll ?_
  exact if_neg (not_not.2 hrun)

theorem Dev.releaseSeq_newFatal (seq : Nat) (h : d.newFatal = true) : d.releaseSeq seq = d :=
  if_pos (by simp [h])

theorem Dev.releaseSeq_other {seq : Nat} (h : d.fld Fld.LEDGER_FATAL_SEQ 0 ≠ seq) : d.releaseSeq seq = d :=
  if_pos (by simp [h])

theorem Dev.releaseSeq_latched {seq : Nat} (hfatal : d.fatal = true) (htrip : d.fld Fld.LEDGER_FATAL_TRIP 0 = 0)
    (hseq : d.fld Fld.LEDGER_FATAL_SEQ 0 = seq) (hnew : d.newFatal = false) : d.releaseSeq seq = d.releaseFatal :=
  if_neg (by simp [hfatal, htrip, hseq, hnew])

/-- A release unfreezes the heads that the FATAL froze and lets the looms that it paused go on. -/
theorem Dev.releaseFatal_eq : d.releaseFatal =
    (let e := (d.setFld Fld.LEDGER_FATAL_RELEASED 0 1).setFld Fld.LEDGER_STATUS_FATAL 0 0
     let e := allHeads.foldl (fun (e : Dev) h => if e.fld Fld.HEAD_STATUS_FREEZE_CAUSE h.toNat = 1 then e.unfreeze h else e) e
     (List.range 4096).foldl (fun (e : Dev) n =>
       if e.loomState (BitVec.ofNat 12 n) = stPaused ∨ e.loomState (BitVec.ofNat 12 n) = stRunning then e.unpause (BitVec.ofNat 12 n)
       else e) e) := by
  unfold Dev.releaseFatal
  dsimp only
  congr 1
  funext e n
  simp only [Bool.or_eq_true, decide_eq_true_eq]

theorem Dev.newFatal_young {t k : Nat} (hlast : d.ledger.lastFatal = some (t, k)) (hk : k ≠ d.fld Fld.LEDGER_FATAL_SEQ 0)
    (ht : d.tick < t + 100) : d.newFatal = true := by
  unfold Dev.newFatal
  rw [hlast]
  simp [hk, ht]

/-! ### Faulty rails (R439) -/

theorem Dev.railFault_bad {n : Nat} (hbad : d.fld Fld.LEDGER_SRC_RAIL_BAD n = 1) : d.railFault n = d :=
  if_pos (by simp [hbad])

theorem Dev.railFault_good {n : Nat} (hn : n < 1024) (hon : d.ledgerOn = true) (hgood : d.fld Fld.LEDGER_SRC_RAIL_BAD n = 0)
    (hnext : ((d.setFld Fld.LEDGER_SRC_RAIL_BAD n 1).event n (mkDetail 0 n 0) noWing false true).fld Fld.LEDGER_SRC_RAIL_BAD 0x380 = 0) :
    d.railFault n = ((d.setFld Fld.LEDGER_SRC_RAIL_BAD n 1).event n (mkDetail 0 n 0) noWing false true).event 0x380
      (mkDetail 0 n 0) noWing false false := by
  refine (if_neg (by simp [hon, hgood, hn])).trans (if_neg ?_)
  rw [hnext]
  simp

/-! ### Writes of a source (R443) -/

/-- The device with a source's classes and thresholds as a write gives them. -/
def Dev.srcLimits (d : Dev) (n : Nat) (v : W64) : Dev :=
  let f (lo k : Nat) : Nat := (v.extractLsb' lo k).toNat
  (((d.setFld Fld.LEDGER_SRC_BASE n (f 58 2)).setFld Fld.LEDGER_SRC_ESC n (f 56 2)).setFld Fld.LEDGER_SRC_N n
    (max 1 (f 45 11))).setFld Fld.LEDGER_SRC_W n (max 1 (f 29 16))

theorem Dev.srcSet_eq {n : Nat} {v : W64} (hn : n ≠ 0x363) {force close calm : Bool} (hforce : v.getLsbD 63 = force)
    (hclose : v.getLsbD 62 = close) (hcalm : v.getLsbD 61 = calm) : d.srcSet n v =
      let e := d.srcLimits n v
      let e := if close then e.closeRecord n else e
      let e := if calm then (e.setFld Fld.LEDGER_SRC_ESCALATED n 0).setFld Fld.LEDGER_SRC_WCOUNT n 0 else e
      if force then e.event n (mkDetail 0 0 0) noWing true false else e := by
  unfold Dev.srcSet
  simp only [if_neg hn, hforce, hclose, hcalm, Dev.srcLimits]

theorem Dev.wideWrite_writes {h : HeadId} {b : Block} {i : Nat} (c : Card) (f : Dev → Dev) (hw : d.Writes h b i) :
    d.wideWrite h b c i f = f (d.dropHalf h c i) :=
  Dev.barWrite_writes hw.1 (fun d => f (d.dropHalf h c i)) hw

theorem Dev.firstClear_writes {h : HeadId} (hw : d.Writes h .ledger 0) :
    d.firstClear h = (d.dropHalf h Crd.LEDGER_FIRST 0).setFld Fld.LEDGER_FIRST_VALID 0 0 :=
  Dev.wideWrite_writes _ _ hw

theorem Dev.overflowClear_writes {h : HeadId} (hw : d.Writes h .ledger 0) :
    d.overflowClear h = (((d.dropHalf h Crd.LEDGER_OVERFLOW 0).setFld Fld.LEDGER_OVERFLOW_OVERFLOW 0 0).setFld
      Fld.LEDGER_OVERFLOW_SOURCES 0 0).setFld Fld.LEDGER_OVERFLOW_EVENTS 0 0 :=
  Dev.wideWrite_writes _ _ hw

section
variable {h : HeadId} {n : Nat} {v : W64} (hon : d.ledgerOn = true) (hn : n < 1024) (hsrc : n ≠ 0x363) (hw : d.Writes h .ledger n)
include hon hn hsrc hw

omit hsrc in
theorem Dev.srcWrite_writes : d.srcWrite h n v = (d.dropHalf h Crd.LEDGER_SRC n).srcSet n v :=
  (if_neg (by simp [hon, hn])).trans (Dev.wideWrite_writes _ _ hw)

theorem Dev.force_alone (hforce : v.getLsbD 63 = true) (hclose : v.getLsbD 62 = false) (hcalm : v.getLsbD 61 = false) :
    d.force h n v = ((d.dropHalf h Crd.LEDGER_SRC n).srcLimits n v).event n (mkDetail 0 0 0) noWing true false := by
  rw [Dev.force, if_pos hforce, Dev.srcWrite_writes hon hn hw, Dev.srcSet_eq hsrc hforce hclose hcalm]
  simp only [Bool.false_eq_true, ↓reduceIte]

theorem Dev.openClear_alone (hforce : v.getLsbD 63 = false) (hclose : v.getLsbD 62 = true) (hcalm : v.getLsbD 61 = false) :
    d.openClear h n v = ((d.dropHalf h Crd.LEDGER_SRC n).srcLimits n v).closeRecord n := by
  rw [Dev.openClear, if_pos (by rw [hforce, hclose]; rfl), Dev.srcWrite_writes hon hn hw, Dev.srcSet_eq hsrc hforce hclose hcalm]
  simp only [Bool.false_eq_true, ↓reduceIte]

theorem Dev.escalatedClear_alone (hforce : v.getLsbD 63 = false) (hclose : v.getLsbD 62 = false) (hcalm : v.getLsbD 61 = true) :
    d.escalatedClear h n v =
      (((d.dropHalf h Crd.LEDGER_SRC n).srcLimits n v).setFld Fld.LEDGER_SRC_ESCALATED n 0).setFld Fld.LEDGER_SRC_WCOUNT n 0 := by
  rw [Dev.escalatedClear, if_pos (by rw [hforce, hclose, hcalm]; rfl), Dev.srcWrite_writes hon hn hw,
    Dev.srcSet_eq hsrc hforce hclose hcalm]
  simp only [Bool.false_eq_true, ↓reduceIte]

end

/-! ### Mirrors and pins (R444, R451, R470) -/

theorem Dev.mirrorStale_fresh {x : Nat} (hon : d.ledgerOn = true) (hx : x < d.asm.xdies) (hstale : d.ledger.stale.getLsbD x = false) :
    d.mirrorStale x =
      (d.setLedger { d.ledger with
        stale := d.ledger.stale ||| (1 : BitVec 4) <<< x,
        mirrors := Fmap.put d.ledger.mirrors x { regs := d.regs.filter (fun c => ledgerIds.contains c.1), ring := d.ledger.ring } }).report
        (0x350 + 4 * x + 3) (mkDetail 0 x 0) noWing :=
  if_neg (by simp [hon, hx, hstale])

theorem Dev.aliveToggle_run (hon : d.ledgerOn = true) (hrun : d.pins.phase = .run) (hlong : d.pins.aliveAt + 500 ≤ d.tick) :
    d.aliveToggle = { d with pins := { d.pins with alive := !d.pins.alive, aliveAt := d.tick } } :=
  if_neg (by simp [hon, hrun, hlong])

section
variable (hfault : d.pins.phase = .fault)
include hfault

theorem Dev.aliveToggle_fault : d.aliveToggle = d :=
  if_pos (by simp [hfault])

theorem Dev.faultHold_late (hlong : d.pins.faultAt + 10000 ≤ d.tick) :
    d.faultHold = { d with pins := { d.pins with fault := decide (d.fld Fld.LEDGER_CTRL_FAULT_HOLD 0 = 1) } } :=
  if_neg (by simp [hfault, hlong])

theorem Dev.nibbleFrame_due {t : Nat} (ht : d.pins.frameAt = some t) (hlong : t + 100000 ≤ d.tick) : d.nibbleFrame =
    ({ d with pins := { d.pins with frameAt := some d.tick } } : Dev).send (.nibble (BitVec.ofNat 4 d.pins.nibble)) := by
  unfold Dev.nibbleFrame
  rw [ht]
  exact if_neg (by simp [hfault, hlong])

end

/-! ### Commits (R453) -/

section
variable (hon : d.ledgerOn = true) (hpf : d.pins.pwrfailN = true) (hlong : d.ledger.lastCommit + 10000000 ≤ d.tick)
include hon hpf hlong

theorem Dev.periodicCommit_erased (her : 2 ≤ d.ledger.erased) : d.periodicCommit = d.commit false :=
  (if_neg (by simp [hon, hpf, hlong])).trans (if_neg (by omega))

theorem Dev.periodicCommit_full (her : d.ledger.erased ≤ 1) : d.periodicCommit =
    (d.setLedger { d.ledger with lastCommit := d.tick }).report 0x383 (mkDetail 0 0 0) noWing :=
  (if_neg (by simp [hon, hpf, hlong])).trans (if_pos her)

end

theorem Dev.commit_keeps (p : Bool) (hfew : d.ledger.changed.length ≤ 256) :
    ∃ c, (d.commit p).ledger.commits = d.ledger.commits ++ [c] ∧ c.boot = d.ledger.boot ∧ c.powerFail = p ∧ c.tick = d.tick ∧
      c.dropped = 0 ∧ c.recs = d.ledger.changed.filterMap (fun k => Fmap.find d.ledger.ring k) := by
  have hkeep : d.ledger.changed.drop (d.ledger.changed.length - 256) = d.ledger.changed := by
    rw [Nat.sub_eq_zero_of_le hfew, List.drop_zero]
  refine ⟨_, rfl, rfl, rfl, rfl, ?_, ?_⟩
  · dsimp only
    rw [hkeep, Nat.sub_self]
  · dsimp only
    rw [hkeep]

/-! ### The responder (R448) -/

theorem Dev.responder_wrong {input : List Byte} {n : Nat} {out : Dev → List Byte} (hon : d.ledgerOn = true) (hlen : input.length ≠ n) :
    d.responder input n out = d.send .nack :=
  (if_neg (by simp [hon])).trans (if_pos hlen)

theorem Dev.responder_right {input : List Byte} {n : Nat} {out : Dev → List Byte} (hon : d.ledgerOn = true) (hlen : input.length = n) :
    d.responder input n out = d.send (.smbus (out d)) :=
  (if_neg (by simp [hon])).trans (if_neg (not_not.2 hlen))

theorem Dev.respSource_source {input : List Byte} (hon : d.ledgerOn = true) (hlen : input.length = 2) (hlt : bytesNat input < 1024) :
    d.respSource input =
      d.send (.smbus (le 8 (d.card Crd.LEDGER_SRC (bytesNat input)) ++ le 8 (d.card Crd.LEDGER_CNT (bytesNat input)))) :=
  (Dev.responder_right hon hlen).trans (congrArg (fun l => d.send (.smbus l)) (if_neg (Nat.not_le.2 hlt)))

theorem Dev.respRecord_found {input : List Byte} {c : Nat × LRec} (hon : d.ledgerOn = true) (hlen : input.length = 4)
    (hfind : d.ledger.ring.find? (fun c => c.2.seq = bytesNat input) = some c) : d.respRecord input = d.send (.smbus c.2.bytes) := by
  refine (Dev.responder_right hon hlen).trans (congrArg (fun l => d.send (.smbus l)) ?_)
  rw [hfind]

end

/-- Settles O54: each command of the ledger by the branch of its rule; that an error which hardware detects leaves the ledger running
rests on `Dev.hwError_pins`. -/
theorem ledgerCommands : Obligations.LedgerCommands := by
  unfold Obligations.LedgerCommands
  intro s hon d
  refine ⟨fun x => ?_, fun die k => rfl, fun hr => ?_, fun r rest hr hbad => ?_, fun r rest hr hgood hcount hopen hesc hN => ?_,
    fun n seq hfatal hrun => Dev.contain_run hfatal hrun, fun n hbad => ?_, fun n hgood hne => ?_, fun h hlive hw => ?_,
    fun hrun halive => ?_, fun hfault => ⟨?_, fun hlong => ?_, fun t ht hlong => ?_⟩, fun x hx hstale => ?_,
    fun hpf hlong => ⟨fun her => ?_, fun her => ?_⟩, fun p hfew => ⟨rfl, rfl, Dev.commit_keeps p hfew⟩, fun b => ⟨?_, ?_⟩,
    ?_, ?_,
    fun a b hlt => ?_, fun a b e f c hfind => ?_⟩
  · exact congrArg s.showing (Dev.ledgerEvent_some hon x)
  · exact congrArg s.showing (Dev.ledgerEvent_nil hon hr)
  · exact congrArg s.showing ((Dev.ledgerEvent_cons hon hr).trans (if_pos hbad))
  · intro n cls e0 e seq rec_ slot f g
    have hrec : d.firstRecord r.src r.detail r.wing = rec_ := rfl
    have he : ({ d with reports := rest } : Dev).counted n = e := rfl
    have hg : d.firstTaken r rest = g := by
      unfold Dev.firstTaken Dev.recorded
      rw [hrec, he]
    refine ⟨fun hcls => congrArg s.showing ?_, fun hcls => ?_⟩
    · rw [← hrec, ← hg]
      exact Dev.ledgerEvent_opens hon hr hgood hcount hopen hesc hN hcls
    · intro k
      have hk : (d.firstTaken r rest).ledgerNotify (d.firstRecord r.src r.detail r.wing) true true = k := by rw [hrec, hg]
      have hev := Dev.ledgerEvent_contains (d := d) hon hr hgood hcount hopen hesc hN hcls
      dsimp only at hev
      rw [hk] at hev
      exact congrArg s.showing hev
  · exact congrArg s.showing (Dev.railFault_bad hbad)
  · intro e hnext
    exact congrArg s.showing (Dev.railFault_good n.isLt hon hgood hnext)
  · refine ⟨fun n v hwn hne => ?_, ?_, ?_, fun q hfatal htrip => ⟨fun t k hlast hk ht => ?_, fun hseq => ?_, fun hseq hnew => ?_⟩⟩
    · have hsrc : n.toNat ≠ 0x363 := fun h => hne (BitVec.eq_of_toNat_eq h)
      refine ⟨fun hforce hclose hcalm => ?_, fun hforce hclose hcalm => ?_, fun hforce hclose hcalm => ?_⟩
      · exact exec_run_live hlive (f := fun d => d.force h n.toNat v) rfl (Dev.force_alone hon n.isLt hsrc hwn hforce hclose hcalm)
      · exact exec_run_live hlive (f := fun d => d.openClear h n.toNat v) rfl (Dev.openClear_alone hon n.isLt hsrc hwn hforce hclose hcalm)
      · exact exec_run_live hlive (f := fun d => d.escalatedClear h n.toNat v) rfl
          (Dev.escalatedClear_alone hon n.isLt hsrc hwn hforce hclose hcalm)
    · exact exec_run_live hlive (f := fun d => d.firstClear h) rfl (Dev.firstClear_writes hw)
    · exact exec_run_live hlive (f := fun d => d.overflowClear h) rfl (Dev.overflowClear_writes hw)
    · exact exec_run_live hlive (f := fun d => d.ledgerRelease h q.toNat) rfl
        ((Dev.barWrite_writes hw.1 _ hw).trans (Dev.releaseSeq_newFatal _ (Dev.newFatal_young hlast hk ht)))
    · exact exec_run_live hlive (f := fun d => d.ledgerRelease h q.toNat) rfl
        ((Dev.barWrite_writes hw.1 _ hw).trans (Dev.releaseSeq_other hseq))
    · exact exec_run_live hlive (f := fun d => d.ledgerRelease h q.toNat) rfl
        ((Dev.barWrite_writes hw.1 _ hw).trans ((Dev.releaseSeq_latched hfatal htrip hseq hnew).trans Dev.releaseFatal_eq))
  · exact congrArg s.showing (Dev.aliveToggle_run hon hrun halive)
  · exact congrArg s.showing (Dev.aliveToggle_fault hfault)
  · exact congrArg s.showing (Dev.faultHold_late hfault hlong)
  · exact congrArg s.showing (Dev.nibbleFrame_due hfault ht hlong)
  · exact congrArg s.showing (Dev.mirrorStale_fresh hon hx hstale)
  · exact congrArg s.showing (Dev.periodicCommit_erased hon hpf hlong her)
  · exact congrArg s.showing (Dev.periodicCommit_full hon hpf hlong her)
  · exact congrArg s.showing (Dev.responder_wrong hon (by simp))
  · exact congrArg s.showing (Dev.responder_wrong hon (by simp))
  · exact congrArg s.showing (Dev.responder_right hon rfl)
  · exact congrArg s.showing (Dev.responder_right hon rfl)
  · exact congrArg s.showing (Dev.respSource_source hon rfl hlt)
  · exact congrArg s.showing (Dev.respRecord_found hon rfl hfind)

end Sys2Proof.Machine
end
